-- ==== Sys2Proof/Word.lean ====
section
/-!
DEFINITION. The word types of Keora's registers, records and addresses.
-/
namespace Sys2Proof

/-- A 32-bit register word, and one word of a record sent most significant byte first. -/
abbrev W := BitVec 32

/-- One byte of a tag area, an image or a frame. -/
abbrev Byte := BitVec 8

/-- A 48-bit Ethernet address (R339). -/
abbrev Mac := BitVec 48

/-- A time in units of 2^-16 ns since the epoch: the FTC without its hidden bits (R153). -/
abbrev Stamp := Nat

end Sys2Proof
end

