-- ==== Sys2Proof/Syntax.lean ====
section
/-!
DEFINITION. The commands of the Keora block: one constructor of `Instr` per row of spec/opcode_table.json,
with the operands the row's rules give it.
-/
namespace Sys2Proof

/-- The unit a command reaches, where its row exists for both products (R36, R183). -/
inductive Side
  | dtu | za
  deriving DecidableEq, Repr

/-- Who sent a command: the link it came in on and its source address, or keomon, which is one requester
(R371, R377, R389). -/
structure Requester where
  link : Nat
  addr : Mac
  keomon : Bool
  deriving DecidableEq, Repr

/-- A Husk as it arrives (R367, R368): header words 0 to 7, of which word 0's opcode half is fixed by the row,
the payload words, the Triheud context it travels under, and the unit that receives it. -/
structure HuskCmd where
  side : Side
  req : Requester
  thCtx : BitVec 16
  thGen : Byte
  w0hi : BitVec 16
  w1 : W
  w2 : W
  w3 : W
  w4 : W
  w5 : W
  w6 : W
  crc : W
  payload : List W
  deriving DecidableEq, Repr

/-- A Triheud frame as it arrives: the header fields of R341 and the payload as words, zero padded (R338). -/
structure Frame where
  dest : Mac
  src : Mac
  ethertype : BitVec 16
  tver : Byte
  cls : BitVec 4
  rsv15 : BitVec 4
  msg : Byte
  rsv17 : Byte
  fabricId : BitVec 16
  ctx : BitVec 16
  gen : Byte
  rsv23 : Byte
  lseq : W
  plen : BitVec 16
  hcrc : BitVec 16
  body : List W
  deriving DecidableEq, Repr

/-- What is wrong with a packet on the RX channel (R55). -/
inductive RxDefect
  | none          -- a whole packet with a granted credit for each beat
  | noCredit      -- a beat for which no credit was granted
  | sofWhileOpen
  | tooLong
  | shortBeat
  | pathError     -- ul_rx_err_i high on the eof beat
  deriving DecidableEq, Repr

/-- The data set an Announce carries, in the order the default comparison of IEEE 1588-2019 clause 9.3 reads it
(R155). -/
structure AnnounceData where
  priority1 : Byte
  clockClass : Byte
  clockAccuracy : Byte
  variance : BitVec 16
  priority2 : Byte
  gmIdentity : BitVec 64
  stepsRemoved : BitVec 16
  identity : BitVec 64
  utcOffset : BitVec 16
  ptpScale : Bool
  deriving DecidableEq, Repr

/-- The PTP messages of R155. Ingress stamps are reference-plane stamps (R157); the other
times are those the message carries, its correction applied. -/
inductive PtpMsg
  | sync (seq : BitVec 16) (twoStep : Bool) (origin : Stamp) (ingress : Stamp)
  | followUp (seq : BitVec 16) (origin : Stamp)
  | delayReq (seq : BitVec 16) (ingress : Stamp)
  | delayResp (seq : BitVec 16) (received : Stamp)
  | announce (data : AnnounceData)
  | other         -- Signaling, management and anything else
  deriving DecidableEq, Repr

/-- A PTP frame: its domainNumber, the clockIdentity of its sender, and the message. -/
structure PtpFrame where
  domain : Byte
  source : BitVec 64
  msg : PtpMsg
  deriving DecidableEq, Repr

/-- A hardware error during one checked or unchecked walk: the leaf the lane wrongly reached, on the primary,
checker and reference walks (R267, R268). `none` is a sound walk. -/
structure WalkUpset where
  primary : Option Nat
  checker : Option Nat
  reference : Option Nat
  deriving DecidableEq, Repr

/-- The stack regions of R184 and the SRAMs of R186. -/
inductive MemRegion
  | firmware | forward | feature | pod | model | digest | detectState | seedbank | checkpoint | unassigned
  | nodeStore | tileBuffers | podStore | featureStaging | linkBuffers | syncStore | contextTable
  | managementL2 | coreL1
  deriving DecidableEq, Repr

/-- The causes of a power event (ZA_PWR_EVENT, chapter 16). -/
inductive PowerCause
  | undervoltage | overvoltage | rail
  deriving DecidableEq, Repr

/-- The inputs that the host's power controller drives (R66): lull_req_i, and whether pg_core_i and pg_ret_i are high. -/
structure PowerPins where
  req : BitVec 2
  core : Bool
  ret : Bool
  deriving DecidableEq, Repr

/-- One slot's readings of the GaN die (R455): hottest sensor of each quadrant and of the spine in whole °C,
mean input power of the last 1,024 µs in W, mean VIN and IIN of the slot. -/
structure ThermalReading where
  q0 : Byte
  q1 : Byte
  q2 : Byte
  q3 : Byte
  spine : Byte
  power : BitVec 10
  vin : BitVec 16
  iin : BitVec 16
  deriving DecidableEq, Repr

/-- The commands: one constructor per row of spec/opcode_table.json, in its order. -/
inductive Instr
  /-- IDENT (R381). Command that returns the identity words, the version words and the tag bytes of a DTU or ZA40. -/
  | ident (h : HuskCmd)
  /-- STATUS (R384). Command that returns the selected status records and, when asked, reads and clears their counters in one cycle. -/
  | status (h : HuskCmd)
  /-- HANDLE_QUERY (R376). Command that returns the state of an outstanding handle, or the retained DONE_HANDLE record of a completed one. -/
  | handleQuery (h : HuskCmd)
  /-- HANDLE_CANCEL (R376). Command that completes a PARKED handle with CANCELLED, or replies HANDLE_RUNNING for a running one. -/
  | handleCancel (h : HuskCmd)
  /-- REG_READ (R476). Command that reads up to 128 register words in one cycle from either register space. -/
  | regRead (h : HuskCmd)
  /-- REG_WRITE (R382). Command that checks every word and then writes them all in one cycle, for registers that have no row of their own. -/
  | regWrite (h : HuskCmd)
  /-- TAG_WRITE (R7). Command that writes the ZA40 tag bytes 0x10 to 0xFF. -/
  | tagWrite (h : HuskCmd)
  /-- SOFT_RESET (R460). Command that sends its reply and then resets the DTU core domain at the next slot boundary. -/
  | softReset (h : HuskCmd)
  /-- FRAME_RESET (R92). Command that clears the cell values, the tap partial records and the sat bits at a stated core cycle k. -/
  | frameReset (h : HuskCmd)
  /-- CELL_SAMPLE (R92). Command that returns the current values of up to 64 cells without changing them. -/
  | cellSample (h : HuskCmd)
  /-- LINK_RESET_CMD (R354). Command that sends its reply and then resets the named link with reason 2. -/
  | linkResetCmd (h : HuskCmd)
  /-- RETAIN_REPLAY (R103). Long command that resends stored contributions from the retention store on VC 1. -/
  | retainReplay (h : HuskCmd)
  /-- MARGIN (R146). Long command that issues a commanded margin request on the DTU margin handshake. -/
  | margin (h : HuskCmd)
  /-- TRACE_FLUSH (R120). Long command that closes the open trace block with cause 3. -/
  | traceFlush (h : HuskCmd)
  /-- TRACE_SAVE (R124). Long command that closes the trace block with cause 7, saves the compressor state image and disables capture. -/
  | traceSave (h : HuskCmd)
  /-- TRACE_RESTORE (R124). Long command that checks the state image, loads its window and rebuilds the match tables. -/
  | traceRestore (h : HuskCmd)
  /-- TIME_RESYNC (R165). Command that returns a unit's time unit to ACQUIRE so that its next usable sample steps it. -/
  | timeResync (h : HuskCmd)
  /-- TIME_STEP (R167). Command that arms a step s, split into whole frames and a residual, for the tick of frame F. -/
  | timeStep (h : HuskCmd)
  /-- CTX_ADMIT (R370). Long command that admits a context with its quotas and costs at a start Front S. -/
  | ctxAdmit (h : HuskCmd)
  /-- CTX_TEARDOWN (R28). Long command that sets a context's single teardown Front D. -/
  | ctxTeardown (h : HuskCmd)
  /-- CTX_QUOTA (R196). Command that changes a context's quotas and declared costs after checking sums, capacities and holdings. -/
  | ctxQuota (h : HuskCmd)
  /-- MEMBERSHIP (R26). Long command that joins, removes or moves ranks of a context at a Front. -/
  | membership (h : HuskCmd)
  /-- POD_PLAN (R208). Long command that sets a context's Pod plan to take effect at a Front. -/
  | podPlan (h : HuskCmd)
  /-- FEAT_PLAN (R383). Staged command that sends a feature plan in parts and checks the whole plan on its last part. -/
  | featPlan (h : HuskCmd)
  /-- DET_PLAN (R313). Long command that sets a context's detector plan to take effect at a Front. -/
  | detPlan (h : HuskCmd)
  /-- DET_RESET (R325). Command that restarts the named detector records and clears their latches. -/
  | detReset (h : HuskCmd)
  /-- SYNC_ALLOC (R191). Command that takes n sync objects from the context's quota, each with value 0. -/
  | syncAlloc (h : HuskCmd)
  /-- SYNC_FREE (R191). Command that returns sync objects and completes the waits parked on them with SYNC_FREED. -/
  | syncFree (h : HuskCmd)
  /-- SYNC_SET (R193). Command that sets a sync object's value. -/
  | syncSet (h : HuskCmd)
  /-- SYNC_ADD (R191). Command that adds n to a sync object, saturating and setting the sticky overflow bit. -/
  | syncAdd (h : HuskCmd)
  /-- SYNC_WAIT (R191). Long command that parks until a sync object's value reaches v. -/
  | syncWait (h : HuskCmd)
  /-- SYNC_BIND (R192). Command that binds a sync object to a hardware event source, or unbinds it. -/
  | syncBind (h : HuskCmd)
  /-- SYNC_READ (R193). Command that returns the values and overflow bits of up to 64 sync objects. -/
  | syncRead (h : HuskCmd)
  /-- MODEL_LOAD (R298). Long command that fetches, verifies and places a model image into a slot for a swap at a Front. -/
  | modelLoad (h : HuskCmd)
  /-- MODEL_QUERY (R305). Long command that scores named entities at the pinned or current model version. -/
  | modelQuery (h : HuskCmd)
  /-- FEAT_WRITE (R253). Command that writes values into the EXTERNAL feature columns of one entity's row. -/
  | featWrite (h : HuskCmd)
  /-- WEIGHT_SWAP (R139). Command that declares a weight version swap with a first frame and an overlap. -/
  | weightSwap (h : HuskCmd)
  /-- DIGEST_LOAD (R140). Command that writes entries into the expected-digest tables. -/
  | digestLoad (h : HuskCmd)
  /-- RESULT_HISTORY (R224). Command that returns a stored result header and its complete list of absence entries. -/
  | resultHistory (h : HuskCmd)
  /-- SUBSCRIBE (R381). Command that subscribes the requester to chosen record kinds of a context, or ends its subscription. -/
  | subscribe (h : HuskCmd)
  /-- SEED_PAIR (R329). Long command that pairs a ZA40 with a Seedbank partner in another rack and starts a resync. -/
  | seedPair (h : HuskCmd)
  /-- FROST_ARM (R425). Long command that arms a fabric Frost at an instant T and relays ARM to the DTUs. -/
  | frostArm (h : HuskCmd)
  /-- FROST_CANCEL (R426). Command that disarms a Frost before T and relays CANCEL to the DTUs. -/
  | frostCancel (h : HuskCmd)
  /-- FROST_NOW (R433). Command that stops the unit at once and floods NOW messages over its links. -/
  | frostNow (h : HuskCmd)
  /-- FROST_THAW (R435). Long command that ends a Frost now or at an instant T2 and relays THAW to the DTUs. -/
  | frostThaw (h : HuskCmd)
  /-- FROST_QUERY (R438). Command that returns the unit's Frost status register. -/
  | frostQuery (h : HuskCmd)
  /-- SCAN_OUT (R441). Long command that returns the scan-out of the ZA40 and of the named DTUs. -/
  | scanOut (h : HuskCmd)
  /-- LOOP_TEST (R442). Long command that runs a DTU or ZA40 loop-back test at the given depth. -/
  | loopTest (h : HuskCmd)
  /-- SELF_TEST (R444). Long command that runs the self-test of a fenced unit and leaves the fence in place. -/
  | selfTest (h : HuskCmd)
  /-- FAULT_INJECT (R447). Factory-test command that arranges an injected fault for the next occasion named. -/
  | faultInject (h : HuskCmd)
  /-- FENCE (R415). Long command that fences a unit, subject to the Region Manager's grant and fence limit. -/
  | fence (h : HuskCmd)
  /-- UNFENCE (R404). Long command that lifts a fence after the unit passes its self-test. -/
  | unfence (h : HuskCmd)
  /-- READMIT (R412). Long command that readmits a fenced die whose last 8 Hails were on time. -/
  | readmit (h : HuskCmd)
  /-- LIVE_CLAIM (R411). Command that records the job's liveness claim for each named die. -/
  | liveClaim (h : HuskCmd)
  /-- LIVE_QUERY (R422). Command that returns the ZA_LIVE words of a range of tray sites. -/
  | liveQuery (h : HuskCmd)
  /-- RACK_SET (R413). Command that loads the rack table from which each ZA40 derives the Region Manager and standby roles. -/
  | rackSet (h : HuskCmd)
  /-- CKPT_PUT (R417). Command that delivers one part of a ZA40's checkpoint to the Region Manager. -/
  | ckptPut (h : HuskCmd)
  /-- CKPT_GET (R419). Long command that asks the Region Manager to send a ZA40's last complete checkpoint. -/
  | ckptGet (h : HuskCmd)
  /-- REBUILD (R418). Long command that makes a spare rebuild a failed tray and go live at Front J. -/
  | rebuild (h : HuskCmd)
  /-- FAULT_LOG (R398). Command that returns entries of the fault log, newest first. -/
  | faultLog (h : HuskCmd)
  /-- LULL_HOLD (R464). Command that tells a tray in advance that a die will enter a Lull state. -/
  | lullHold (h : HuskCmd)
  /-- LULL_RELEASE (R464). Command that ends a Lull hold on a die. -/
  | lullRelease (h : HuskCmd)
  /-- ZA_LULL (R466). Long command that puts a ZA40 into Lull-1, Lull-2 or Lull-3. -/
  | zaLull (h : HuskCmd)
  /-- ZA_WAKE (R471). Long command that brings a ZA40 out of its Lull state. -/
  | zaWake (h : HuskCmd)
  /-- ZA_RESET (R465). Command that sends its reply and then performs a warm, per-block or per-port reset. -/
  | zaReset (h : HuskCmd)
  /-- PWR_LIMIT (R471). Command that sets the power cap and the throttle temperature at the next slot boundary. -/
  | pwrLimit (h : HuskCmd)
  /-- CHAIN_RELEASE (R380). A parked chained command whose wait is satisfied becomes RUNNING as if it had just been accepted. -/
  | chainRelease (handle : W)
  /-- DONE_HANDLE (R374). A long command finishes, its DONE_HANDLE is posted and retained, and its handle is freed. -/
  | doneHandle (handle : W)
  /-- RELAYED_COMPLETION (R371). A DTU's reply to a relayed command arrives and is mapped back to the requester's tag. -/
  | relayedCompletion (die : BitVec 20) (record : List W)
  /-- TARGET_TIMEOUT (R371). A relayed command with no DTU reply after two frames completes with TARGET_TIMEOUT. -/
  | targetTimeout (ownTag : W)
  /-- DTU_LONG_QUEUE_RELEASE (R372). A long command queued by the ZA40 for a DTU is relayed when the DTU holds fewer than 16. -/
  | dtuLongQueueRelease (die : BitVec 20)
  /-- FEAT_PLAN_STAGING_EXPIRY (R383). A feature plan staging is discarded 64 frames after its last part. -/
  | featPlanStagingExpiry (entry : Fin 1024) (tile : Bool)
  /-- HOST_PORT_WRITE (R41, R44). A Host Port access with no row of its own, completing with or without error: the write of
  `data`, or with none the read that the same signals carry while hp_we_i is low. -/
  | hostPortWrite (addr : BitVec 16) (data : Option W)
  /-- TAG_AREA_WRITE (R76). A Host Port write to the DTU tag area, refused and counted for the structured words once sealed. -/
  | tagAreaWrite (word : Fin 64) (data : W)
  /-- DTU_TAG_SEAL (R76). Writing 1 to the seal locks the structured tag words and allows HELLO to be sent. -/
  | dtuTagSeal (data : W)
  /-- DTU_TRC_HOST_LO (R114). A Host Port write that offers one HOST trace record. -/
  | dtuTrcHostLo (data : W)
  /-- IRQ_STATUS_CLEAR (R45). A W1C write that clears DTU_IRQ_STATUS or DTU_OBS_STATUS.clk_lost bits. -/
  | irqStatusClear (obs : Bool) (data : W)
  /-- TIME_SRC_SELECT (R45). A write of DTU_TIME_CFG.src that selects the Time Port or Triheud recovery from the next slot boundary. -/
  | timeSrcSelect (data : W)
  /-- COMPAT5_SELECT (R45). A write of DTU_INTEG.compat5 that requests DTU-5 crossing timing at the next reset. -/
  | compat5Select (data : W)
  /-- UL_LAT_WRITE (R60). A write of the declared uplink path latencies, taking effect at the next slot boundary. -/
  | ulLatWrite (tx : Bool) (data : W)
  /-- CELL_CFG_WRITE (R83). A write of DTU_CELL_CFG, checked and applied at the next tick with a cfg_seq advance. -/
  | cellCfgWrite (cell : Fin 4096) (data : W)
  /-- CTX_MASK_WRITE (R208). A write of a cluster's ctx_mask, checked against the cell map and applied at the next tick. -/
  | ctxMaskWrite (cluster : Fin 64) (mask : BitVec 8)
  /-- CLUSTER_FENCE_WRITE (R95). A write of DTU_CLU_CFG.fenced that fences or unfences a cluster from the next tick. -/
  | clusterFenceWrite (cluster : Fin 64) (fenced : Bool)
  /-- DTU_CTX_FRONT_WRITE (R89). The admitting aggregator writes a slot's pending entry and its front. -/
  | dtuCtxFrontWrite (slot : Fin 8) (w0 w1 front : W)
  /-- TRACE_ENABLE (R122). Writing DTU_TRC_CFG.enable starts a new trace stream, or stops capture and ends the stream. -/
  | traceEnable (on : Bool)
  /-- MARGIN_BUDGET_WRITE (R483). A write of DTU_MARGIN_CFG.budget, which overrides a decrement in the same cycle. -/
  | marginBudgetWrite (data : W)
  /-- TRIG_ARM (R178). A write to a DTU trigger that disarms it, or arms it from its words. -/
  | trigArm (trig : Fin 4) (word : Fin 5) (data : W)
  /-- MARK_ARM (R180). A write to a ZA40 timing marker that arms or disarms it. -/
  | markArm (mark : Fin 16) (word : Fin 5) (data : W)
  /-- GCL_COMMIT (R356). Writing commit checks a pending gate control list and applies it at the next tick. -/
  | gclCommit (link : Fin 82) (data : W)
  /-- SHAPER_CHANGE (R360). A shaper write that takes effect at the next slot boundary and resets the shaper's virtual time. -/
  | shaperChange (link : Fin 82) (cls : Fin 8) (word : Fin 2) (data : W)
  /-- PORT_CONFIG_WRITE (R365). A ZA_PORT write of enable, split, face or loop that restarts the port's links or loops it. -/
  | portConfigWrite (port : Fin 42) (data : W)
  /-- UL_RATE_WRITE (R361). A write of the DTU's uplink rate limit, taking effect at the next slot boundary. -/
  | ulRateWrite (data : W)
  /-- ECC_STATUS_READ (R476). A read of ZA_MEM_ECC_STATUS that returns and clears its RC counters. -/
  | eccStatusRead
  /-- HOST_POWER_ON_RESET (R66). An edge of por_n_i: asserting it resets the whole DTU, the always-on domain included, until
  the next such row, at which it rises. -/
  | hostPowerOnReset
  /-- PIN_RESET (R460). An edge of rst_n_i: asserting it resets everything in the DTU outside the always-on domain, until it
  rises. -/
  | pinReset
  /-- UL_PATH_RESET (R72). An edge of ul_rst_n_i, which resets the Uplink Port, flushes open packets and grants credits
  afresh. -/
  | ulPathReset
  /-- FAULT_INTAKE_RESET (R72). An edge of fault_rst_n_i, which discards a fault message half crossed and keeps the queued
  messages. -/
  | faultIntakeReset
  /-- OBS_DOMAIN_RESET (R72). obs_rst_n_i of a domain discards in-flight front updates and marks that domain's cells incomplete. -/
  | obsDomainReset (dom : Fin 16) (asserted : Bool)
  /-- LULL_REQUEST (R66, R68). A change of lull_req_i makes the DTU quiesce and raise lull_rdy_o for the requested state;
  pg_core_i and pg_ret_i change with it. -/
  | lullRequest (target : PowerPins)
  /-- LULL_EXIT (R68). With lull_req_i at 0 and supplies good for 64 cycles, the DTU runs again and lowers lull_rdy_o. -/
  | lullExit
  /-- MARGIN_ACK (R64). A rise of margin_ack_i makes the DTU record the outcome, set margin_done and drive 0b00. -/
  | marginAck (nak : Bool)
  /-- MARGIN_ACK_RELEASE (R64). A fall of margin_ack_i lets the DTU start the next waiting margin request. -/
  | marginAckRelease
  /-- MARGIN_STALL (R64). A margin request unacknowledged for one frame sets margin_stalled. -/
  | marginStall
  /-- FAULT_PORT_ACCEPT (R61). A host fault message is accepted from the Fault Port, stamped and queued or merged. -/
  | faultPortAccept (message : BitVec 128)
  /-- FAULT_DROP_PULSE (R62). A pulse of fault_drop_i counts one dropped host message and sets fault_overflow. -/
  | faultDropPulse
  /-- PROBE_EVENT (R48). A strobe sampled high on an observed-clock edge counts one event in its front. -/
  | probeEvent (strobe : Fin 4096)
  /-- TAP_SAMPLE (R48). A valid tap sample enters its front's count, sum, minimum and maximum. -/
  | tapSample (tap : Fin 64) (value : BitVec 16)
  /-- DIGEST_BEAT (R133). A beat on a digest channel opens a leaf, carries its bytes, or is a framing error. -/
  | digestBeat (chan : Fin 4) (valid : BitVec 16) (half : List (BitVec 16))
  /-- DIGEST_PENDING_TIMEOUT (R137). A pending digest block still incomplete after timeout frames closes with err_cause 3. -/
  | digestPendingTimeout (slot : Fin 8) (version : BitVec 16) (block : BitVec 22)
  /-- DIGEST_PACKET_SEND (R138). Queued digest records leave in one VC 2 packet by the next slot boundary. -/
  | digestPacketSend
  /-- OBS_CLK_LOST (R40). An observed clock with no edge for two slots sets clk_lost and marks its cells incomplete. -/
  | obsClkLost (dom : Fin 16)
  /-- TIME_CLK_TOLERANCE (R39). time_clk_i out of tolerance sets time_lost and unlocks the DTU's time. -/
  | timeClkTolerance
  /-- TIME_PORT_SLOT_PULSE (R59). A Time Port slot pulse, paired with the last complete word, yields a time sample. -/
  | timePortSlotPulse
  /-- TIME_PORT_WORD (R58). A four-beat FTC word is received on the Time Port. -/
  | timePortWord (b0 b1 b2 b3 : W)
  /-- TIME_HOLDOVER_ENTRY (R159). Three sample intervals without a usable sample move LOCKED to HOLDOVER. -/
  | timeHoldoverEntry (side : Side)
  /-- PTP_MESSAGE (R155). A PTP Sync, Follow_Up, Delay_Req, Delay_Resp or Announce frame is handled by the ZA40. -/
  | ptpMessage (port : Fin 82) (message : PtpFrame)
  /-- PARENT_CHANGE (R164). A new parent from the best master clock is tested over 8 samples and followed or refused. -/
  | parentChange (port : Fin 82) (identity : BitVec 64) (offset : Int)
  /-- TIME_SYNC (R173). A DTU receives a TIME_SYNC, takes a sample and learns any armed step. -/
  | timeSync (frame : Frame) (phase : BitVec 6)
  /-- TIME_SYNC_SEND (R173). The ZA40 sends one TIME_SYNC per slot to each DTU on an up link. -/
  | timeSyncSend (die : BitVec 20)
  /-- TIME_ECHO (R174). The ZA40 receives a TIME_ECHO and updates the DTU's path error mean, possibly raising TIME_PATH. -/
  | timeEcho (link : Fin 82) (frame : Frame) (stamp : Stamp)
  /-- STEP_APPLY (R168). At the tick of F the armed step moves the FTC forward or back by whole frames. -/
  | stepApply (side : Side)
  /-- TRIGGER_FIRE (R177). A trigger pulses trig_o at its instant and then rearms or disarms. -/
  | triggerFire (trig : Fin 4)
  /-- TIME_MARK (R180). A marker sends TIME_MARK in the first control window at or after its instant. -/
  | timeMark (mark : Fin 16)
  /-- DTU_TICK (R88). At each frame tick the DTU latches its slot table, applies due entries and starts closures. -/
  | dtuTick (seen : BitVec 16)
  /-- CLUSTER_CLOSE (R93). A cluster closes and queues one contribution per served context slot. -/
  | clusterClose (cluster : Fin 64)
  /-- CLOSURE_LIMIT (R94). A cluster still waiting at the start of slot 2 is closed and its domain marked incomplete. -/
  | closureLimit (cluster : Fin 64)
  /-- CONTRIB_EXPIRY (R97). A contribution not sent by the end of its work frame is removed and counted late. -/
  | contribExpiry
  /-- SLOT_BOUNDARY (R29). At each slot boundary the DTU applies pending slot-timed changes and updates throttle_o. -/
  | slotBoundary
  /-- HEALTH_SAMPLE (R143). Each sensor takes one sample per slot, feeding the thermal level and the supply run. -/
  | healthSample (temp : BitVec 16) (vcore vret : BitVec 16)
  /-- FAULT_RECORD_SEND (R150). A queued fault message leaves as a fault record when VC 2 and the rate limit allow. -/
  | faultRecordSend
  /-- TRACE_CAPTURE (R113). Up to four trace records per core cycle are captured into the raw ring or refused. -/
  | traceCapture
  /-- TRACE_BLOCK_CLOSE (R120). The open trace block closes at a record boundary with its close cause and wrapper. -/
  | traceBlockClose
  /-- COMPRESSOR_FULL_STOP (R123). The compressor stops when no block-ring token is free. -/
  | compressorFullStop
  /-- COMPRESSOR_RESUME (R123). The compressor resumes when block_free reaches resume_tokens, then acts on waiting closures. -/
  | compressorResume
  /-- TRACE_BLOCK_SEND (R126). A trace block leaves as a VC 2 packet and frees its tokens once it has crossed. -/
  | traceBlockSend
  /-- UL_CREDIT_RETURN (R54). A beat credit is returned to the DTU and checked against its VC limit. -/
  | ulCreditReturn (vc : Fin 4)
  /-- UL_CREDIT_MIN_TIMEOUT (R54). Credits below the VC minimum at the second slot boundary after a link reset set ledger. -/
  | ulCreditMinTimeout (vc : Fin 4)
  /-- UL_RX_PACKET (R55). A packet received on the Uplink Port is accepted or discarded and counted. -/
  | ulRxPacket (vc : Fin 4) (defect : RxDefect) (frame : Frame)
  /-- HELLO (R346). A HELLO message is received and handled by a ZA40 or DTU endpoint. -/
  | hello (side : Side) (link : Fin 82) (frame : Frame)
  /-- HELLO_SEND (R74). The DTU sends HELLO once sealed and credited, repeating once per frame until answered. -/
  | helloSend
  /-- ADMIT (R347). A DTU acts on an ADMIT that admits or refuses it. -/
  | admitMsg (frame : Frame)
  /-- DTU_LINK_STATE_CHANGE (R72). A DTU's link leaves state up or is reset, ending its relayed work. -/
  | dtuLinkStateChange (die : BitVec 20)
  /-- CREDIT (R352). A CREDIT frame updates a sender's available units and holds. -/
  | credit (side : Side) (link : Fin 82) (frame : Frame)
  /-- CREDIT_SEND (R352). A receiver sends CREDIT within 1,024 ns of a change and at least once per slot. -/
  | creditSend (side : Side) (link : Fin 82) (die : BitVec 20)
  /-- ECHO (R353). An ECHO is received and answered with ECHO_REPLY and the residence time. -/
  | echo (side : Side) (link : Fin 82) (frame : Frame) (residence : W)
  /-- ECHO_REPLY (R353). An ECHO_REPLY gives one round-trip measurement to its sender. -/
  | echoReply (side : Side) (link : Fin 82) (frame : Frame) (elapsed : W)
  /-- LINK_RESET (R354). A LINK_RESET frame resets credits and lseq and restarts link-up at HELLO. -/
  | linkReset (side : Side) (link : Fin 82) (frame : Frame)
  /-- FRAME_TRANSMIT (R357). A queued frame starts on a link when its gate, pool, hold and shaper allow. -/
  | frameTransmit (side : Side) (link : Fin 82)
  /-- FORWARD_FILL_CHANGE (R363). The FORWARD fill crosses a threshold and BULK drops or holds start or end. -/
  | forwardFillChange (percent : Fin 101)
  /-- CONTRIB (R226). A contribution arriving at its tray is tested and entered into its Pod. -/
  | contrib (link : Fin 82) (frame : Frame) (arrival : Nat)
  /-- TRAY_DEADLINE (R31). At the tray deadline missing inputs become absent and the tray node sends its result. -/
  | trayDeadline (entry : Fin 1024)
  /-- PARTIAL (R220). A child partial result arrives at a fabric node and is combined. -/
  | partialResult (link : Fin 82) (frame : Frame) (arrival : Nat)
  /-- FABRIC_NODE_DEADLINE (R31). At a fabric node's deadline a missing child becomes absent and the node sends. -/
  | fabricNodeDeadline (entry : Fin 1024) (height : Fin 13)
  /-- FINAL (R213). A final result arrives, is sent down the tree and passed to the stages. -/
  | finalResult (link : Fin 82) (frame : Frame)
  /-- REORDER_SKIP_EXPIRY (R231). A seq not delivered by the end of the frame after its work frame is skipped. -/
  | reorderSkipExpiry (entry : Fin 1024) (chan : Fin 16)
  /-- POD_SLOT_GRANT (R229). A waiting Pod key receives a released slot and merges its staged inputs. -/
  | podSlotGrant (entry : Fin 1024)
  /-- POD_RERUN (R221). An overflowed Pod key runs again at a higher exponent in a later work frame. -/
  | podRerun (entry : Fin 1024) (frameNo : Nat) (podIndex : Fin 81)
  /-- PARAM (R235). A DTU handles a PARAM packet of band, confirm, window or cache parameters. -/
  | param (frame : Frame)
  /-- PARAM_SEND (R236). After its detectors complete, the tray sends each member DTU its parameter packets. -/
  | paramSend (entry : Fin 1024) (die : BitVec 20)
  /-- ZA_TICK (R198). At each tick the ZA40 marks late work, audits, releases, drains, applies Fronts and dispatches. -/
  | zaTick
  /-- FEATURE_ROW (R251). The Feature Stage computes an entity's row once its operand sources are available. -/
  | featureRow (entry : Fin 1024) (tile : Bool) (entity : Nat)
  /-- ENSEMBLE_ITEM (R262). One tree walk for one entity runs on a lane to its leaf. -/
  | ensembleItem (entry : Fin 1024) (score : Fin 256) (entity tree : Nat) (lane : Fin 4096) (upset : WalkUpset)
  /-- CHECK_ARBITRATION (R268). A disagreeing checked item is walked on the reference path and the majority fences lanes. -/
  | checkArbitration (entry : Fin 1024)
  /-- SCORING_COMPLETE (R263). Once every item and batch of a frame completes, its scores are released. -/
  | scoringComplete (entry : Fin 1024)
  /-- PROGRAM_BATCH (R289). A tensor program runs one batch of up to 64 entities on a tile. -/
  | programBatch (entry : Fin 1024) (score : Fin 256) (batch : Nat) (tile : Fin 32) (weightError : Bool)
  /-- DETECTOR_RUN (R323). The Detector Stage evaluates a context's data frame, updating records and posting verdicts. -/
  | detectorRun (entry : Fin 1024)
  /-- BAND_DERIVE (R326). Core 4 derives each DTU's band sets from the detector state. -/
  | bandDerive (entry : Fin 1024)
  /-- SEED_DELTA (R332). A Seedbank DELTA message is staged by the partner. -/
  | seedDelta (frame : Frame)
  /-- SEED_COMMIT (R332). A COMMIT applies the staged Seedbank update or is refused with NACK. -/
  | seedCommit (frame : Frame)
  /-- SEED_UPDATE_SEND (R332). After its detectors complete, the primary sends its dirty items and a COMMIT. -/
  | seedUpdateSend
  /-- SEED_ACK (R332). An ACK clears the dirty marks of the committed Seedbank items. -/
  | seedAck (frame : Frame)
  /-- SEED_NACK (R334). A NACK marks the listed Seedbank items dirty for resending. -/
  | seedNack (frame : Frame)
  /-- SEED_RESYNC (R333). A new pairing sends RESYNC_BEGIN, every item, then RESYNC_END. -/
  | seedResync
  /-- SEEDBANK_LOST (R333). 64 frames without an ACK raise SEEDBANK_LOST and stop mirroring. -/
  | seedbankLost
  /-- RESTORE_REQ (R335). The partner answers a RESTORE_REQ with RESTORE_DATA of the committed items. -/
  | restoreReq (frame : Frame)
  /-- RESTORE_DATA (R335). RESTORE_DATA restores lost detector or program-state records. -/
  | restoreData (frame : Frame)
  /-- FETCH_REQ (R364). A source answers a firmware or model FETCH_REQ with an offer or a decline. -/
  | fetchReq (link : Fin 82) (frame : Frame)
  /-- FETCH_OFFER (R364). A requester receives an offer and awaits the chunks. -/
  | fetchOffer (link : Fin 82) (frame : Frame)
  /-- FETCH_DECLINE (R364). A declined fetch moves the requester to its next source. -/
  | fetchDecline (link : Fin 82) (frame : Frame)
  /-- FETCH_CHUNK (R300). A chunk of an image arrives and advances the digest leaves. -/
  | fetchChunk (link : Fin 82) (frame : Frame)
  /-- FETCH_SOURCE_TIMEOUT (R298). A model source with no offer or a stalled transfer is abandoned for the next. -/
  | fetchSourceTimeout (entry : Fin 1024) (slot : Fin 16)
  /-- MODEL_VERIFY (R300). When the last byte arrives, the image is verified and placed or rejected. -/
  | modelVerify (entry : Fin 1024) (slot : Fin 16)
  /-- MODEL_PLACED (R297). Placing ends and the area becomes READY, or CURRENT for a repair. -/
  | modelPlaced (entry : Fin 1024) (slot : Fin 16)
  /-- REPLICA_REPORT (R307). The collector receives a holder's REPORT of its pass digest. -/
  | replicaReport (frame : Frame)
  /-- REPLICA_COLLECT_TIMEOUT (R309). At 917,504 ns the collector decides the governing value and sends VERDICTs. -/
  | replicaCollectTimeout (entry : Fin 1024) (slot : Fin 16)
  /-- REPLICA_VERDICT (R310). A holder receives its VERDICT and delivers, delays or expels its scores. -/
  | replicaVerdict (frame : Frame)
  /-- HAIL_SEND (R409). A DTU or ZA40 sends its Hail for the frame. -/
  | hailSend (side : Side) (temp vcore : BitVec 16)
  /-- HAIL (R409). A Hail is received by the deciding node. -/
  | hail (link : Fin 82) (frame : Frame)
  /-- HAIL_EVALUATE (R410). At the tick the liveness count of each watched unit moves it to SUSPECT or DEAD. -/
  | hailEvaluate
  /-- RM_FAILOVER (R414). The standby declares the Region Manager DEAD and takes over. -/
  | rmFailover
  /-- CHECKPOINT (R417). At frame C each ZA40 copies its checkpoint and sends it to the Region Manager. -/
  | checkpoint
  /-- CKPT_INCOMPLETE (R417). A checkpoint not complete by C + 1,024 raises CKPT_INCOMPLETE. -/
  | ckptIncomplete (agg : BitVec 12)
  /-- REBUILD_PARTNER_STALL (R419). 16 frames without advancing RESTORE_DATA stop the rebuild from the partner. -/
  | rebuildPartnerStall
  /-- REBUILD_REPLAY (R420). At the tick of J - 4 the spare requests retention replays and processes them. -/
  | rebuildReplay
  /-- REBUILD_LIVE (R421). At the tick of J the spare goes live and declares STATE_LOSS. -/
  | rebuildLive
  /-- FENCE_NOTICE (R407). An aggregator applies a ZA40 FENCE notice and the standing-host rule. -/
  | fenceNotice (agg : BitVec 12)
  /-- FAULT_RAISE (R396). A ZA40 raises a fault record, held until the next tick or sent at once if FATAL. -/
  | faultRaise (message : BitVec 128)
  /-- MEM_ERROR (R189). A read finds a correctable or uncorrectable code-word error and reacts by region. -/
  | memError (region : MemRegion) (entry : Fin 1024) (address : Nat) (errors : List (Fin 136 × Byte))
  /-- SCRUB_READ (R190). The scrubber reads a code word, corrects or reports it, and may retire the page. -/
  | scrubRead (region : MemRegion) (entry : Fin 1024) (address : Nat) (errors : List (Fin 136 × Byte))
  /-- ARM (R426). A DTU receives ARM for a Frost and acknowledges it. -/
  | arm (frame : Frame)
  /-- CANCEL (R426). A DTU receives CANCEL and disarms its Frost. -/
  | cancel (frame : Frame)
  /-- FROST_STOP (R427). At T cells stop, the snapshot is taken and link counts are recorded. -/
  | frostStop (side : Side)
  /-- NOW (R433). A unit receiving NOW for a new frost_id stops at once and forwards it. -/
  | now (side : Side) (link : Fin 82) (frame : Frame)
  /-- THAW (R435). A DTU receives THAW and resumes counting at the thaw instant. -/
  | thaw (frame : Frame)
  /-- ACK (R437). A ZA40 receives a DTU's ACK of a Frost message. -/
  | ack (link : Fin 82) (frame : Frame)
  /-- SCAN_REQ (R441). A DTU answers SCAN_REQ with its scan-out in SCAN_DATA frames. -/
  | scanReq (frame : Frame)
  /-- SCAN_DATA (R441). A SCAN_DATA or SCAN_END frame of scan-out is received and forwarded. -/
  | scanData (link : Fin 82) (frame : Frame)
  /-- FROST_REPEAT (R426). At each slot boundary the ZA40 repeats unacknowledged Frost messages to its DTUs. -/
  | frostRepeat
  /-- KEOMON_FRAME (R388). A keomon frame is received on the service UART and checked. -/
  | keomonFrame (bytes : List Byte)
  /-- LOAD_REQ (R390). The boot ROM answers a keomon LOAD_REQ with LOAD_READY. -/
  | loadReq (length : W)
  /-- LOAD_DATA (R390). The boot ROM takes image bytes and answers LOAD_ACK. -/
  | loadData (offset : W) (bytes : List Byte)
  /-- BOOT_SOURCE_TIMEOUT (R205). A boot source with no offer or a stalled transfer moves the ROM to its next source. -/
  | bootSourceTimeout (stalled : Bool)
  /-- IMAGE_VERIFY (R204). The boot ROM verifies a received firmware image and starts core 0 or moves on. -/
  | imageVerify
  /-- BOOT_ROUND_WAIT (R205). After a round without an accepted image, the ROM waits 1 s and starts a new round. -/
  | bootRoundWait
  /-- POWER_UP (R451). VIN above turn-on starts the ZA40 power-up sequence. -/
  | powerUp (vin : BitVec 16) (strap : Bool)
  /-- POWER_LOSS (R453). Under-voltage, over-voltage or a rail fault removes the rails and logs a power event. -/
  | powerLoss (cause : PowerCause) (rail : Fin 15) (vin : BitVec 16)
  /-- THERMAL_TRIP (R456). An over-temperature trips the ZA40 as a power loss with cause THERMAL. -/
  | thermalTrip (temp : Byte) (vin : BitVec 16)
  /-- SVC_PIN_RESET (R458). svc_ctl_n_i held low puts the ZA40 in pin reset, and its rise releases it. -/
  | svcPinReset (low : Bool)
  /-- WARM_RESET (R465). A FATAL fault, MGMT_LOST or ZA_RESET kind 1 resets the compute die and reboots. -/
  | warmReset
  /-- WATCHDOG_EXPIRY (R465). The supervision watchdog after 100 ms without progress causes a warm reset. -/
  | watchdogExpiry
  /-- THERMAL_THROTTLE (R455). Each slot the ZA40 raises or lowers its throttle step against temperature and power. -/
  | thermalThrottle (reading : ThermalReading)
  /-- BULK_FRAME (R363). A ZA40 receives a BULK frame (trace, digest, health, fault or verdict record) from a DTU or peer, checks it, tallies it and queues it in FORWARD. -/
  | bulkFrame (link : Fin 82) (frame : Frame)
  /-- LINK_LOST (R395). A ZA40 optical or management link leaves state up unbidden, so its DTUs become absent and its peer, Seedbank and PTP roles move. -/
  | linkLost (link : Fin 82)
  /-- ZA_SLOT_BOUNDARY (R348). At each slot boundary the ZA40 sends HELLO on its ZA40-facing links and applies slot-timed changes such as PTP latencies and power limits. -/
  | zaSlotBoundary
  /-- PTP_SYNC_INTERVAL (R155). The ZA40's PTP interval timers send Sync with Follow_Up and Announce on master ports and Delay_Req on its slave port. -/
  | ptpSyncInterval (port : Fin 82)
  /-- ANNOUNCE_RECEIPT_TIMEOUT (R155). No Announce arrives within announceReceiptTimeout on a port, so the best master clock algorithm re-runs and the port state changes. -/
  | announceReceiptTimeout (port : Fin 82)
  /-- THAW_INSTANT (R435). The FTC reaches a programmed thaw instant T2, cells resume counting, frost_req_o falls and FULL-mode engines resume. -/
  | thawInstant (side : Side)
  /-- CAPTURE_WINDOW_END (R431). A unit's Frost capture window closes, in-flight copying stops and cut_complete is decided for its part of the cut. -/
  | captureWindowEnd (side : Side)
  /-- INPUT_WARN (R449). VIN moves outside or back inside 40 to 60 V without crossing a turn-off threshold, setting or clearing input_warn. -/
  | inputWarn (vin : BitVec 16)
  /-- THERMAL_TRIP_RESTART (R456). After a thermal trip, once t_max is below 85 °C and 10 s have passed, power-up restarts. -/
  | thermalTripRestart (temp : Byte) (tenths : Nat) (vin : BitVec 16)
  deriving DecidableEq, Repr

end Sys2Proof
end

