-- ==== Sys2Proof/Machine/Bits.lean ====
section
/-!
DEFINITION. Bit fields, byte order, and the small containers the state is held in: canonical byte memories,
canonical register maps, and association lists.
-/
namespace Sys2Proof.Machine

/-! ### Fields of a word. A record's field [hi:lo] is written as the rules write it. -/

/-- Bits [hi:lo] of a natural number. -/
def bits (n hi lo : Nat) : Nat := n / 2 ^ lo % 2 ^ (hi + 1 - lo)

/-- Field [hi:lo] of a word. -/
def fld (w : W) (hi lo : Nat) : Nat := bits w.toNat hi lo

/-- Bit i of a word. -/
def bit (w : W) (i : Nat) : Bool := fld w i i == 1

/-- The value 1 or 0 of a flag. -/
def b2n (b : Bool) : Nat := if b then 1 else 0

/-- The natural number with each listed value placed in its field [hi:lo]. -/
def packNat : List (Nat × Nat × Nat) → Nat
  | [] => 0
  | (v, hi, lo) :: fs => 2 ^ lo * (v % 2 ^ (hi + 1 - lo)) + packNat fs

/-- A word built from its fields, each (value, hi, lo). -/
def pack (fs : List (Nat × Nat × Nat)) : W := BitVec.ofNat 32 (packNat fs)

/-- `w` with field [hi:lo] replaced by `v`. -/
def setFld (w : W) (hi lo v : Nat) : W :=
  BitVec.ofNat 32 (w.toNat - 2 ^ lo * fld w hi lo + 2 ^ lo * (v % 2 ^ (hi + 1 - lo)))

/-- The bits of `w` that lie in the mask, the others taken from `old`. -/
def mergeMask (mask old w : W) : W := (w &&& mask) ||| (old &&& ~~~mask)

/-- Word i of a record; zero past its end. -/
def word (ws : List W) (i : Nat) : W := ws.getD i 0

/-- Field [hi:lo] of word i of a record. -/
def wf (ws : List W) (i hi lo : Nat) : Nat := fld (word ws i) hi lo

/-- Words i and i + 1 read as one 64-bit number, word i the high half. -/
def dword (ws : List W) (i : Nat) : Nat := 2 ^ 32 * (word ws i).toNat + (word ws (i + 1)).toNat

/-- A number's low 32 bits. -/
def w32 (n : Nat) : W := BitVec.ofNat 32 n

/-- A 64-bit number as two words, high half first. -/
def twoWords (n : Nat) : List W := [w32 (n / 2 ^ 32), w32 n]

/-- A signed number in two's complement of `k` bits. -/
def toTwos (k : Nat) (i : Int) : Nat := (i % (2 ^ k : Nat)).toNat

/-- The signed number that `k` bits of two's complement spell. -/
def ofTwos (k n : Nat) : Int :=
  let m := n % 2 ^ k
  if m < 2 ^ (k - 1) then (m : Int) else (m : Int) - (2 ^ k : Nat)

/-- A signed number held between two limits. -/
def clampInt (lo hi i : Int) : Int := if i < lo then lo else if hi < i then hi else i

/-! ### Bytes, most significant first (R99, R367). -/

/-- The four bytes of a word, most significant first. -/
def wordBytes (w : W) : List Byte :=
  [BitVec.ofNat 8 (fld w 31 24), BitVec.ofNat 8 (fld w 23 16), BitVec.ofNat 8 (fld w 15 8), BitVec.ofNat 8 (fld w 7 0)]

/-- The bytes of a run of words. -/
def bytesOf (ws : List W) : List Byte := ws.flatMap wordBytes

/-- A run of bytes as words, the last padded with zero bytes. -/
def wordsOf : List Byte → List W
  | [] => []
  | [a] => [pack [(a.toNat, 31, 24)]]
  | [a, b] => [pack [(a.toNat, 31, 24), (b.toNat, 23, 16)]]
  | [a, b, c] => [pack [(a.toNat, 31, 24), (b.toNat, 23, 16), (c.toNat, 15, 8)]]
  | a :: b :: c :: d :: r =>
    pack [(a.toNat, 31, 24), (b.toNat, 23, 16), (c.toNat, 15, 8), (d.toNat, 7, 0)] :: wordsOf r

/-- Byte k of a record. -/
def byteAt (ws : List W) (k : Nat) : Nat := fld (word ws (k / 4)) (31 - 8 * (k % 4)) (24 - 8 * (k % 4))

/-- Bytes k and k + 1 of a record as a 16-bit number. -/
def halfAt (ws : List W) (k : Nat) : Nat := byteAt ws k * 256 + byteAt ws (k + 1)

/-- The 16-bit halves of a run, packed two to a word, the first in the high half. -/
def packHalves : List Nat → List W
  | [] => []
  | [a] => [pack [(a, 31, 16)]]
  | a :: b :: r => pack [(a, 31, 16), (b, 15, 0)] :: packHalves r

/-! ### Association lists. -/

/-- The value held under a key. -/
def aGet {κ α : Type} [DecidableEq κ] (m : List (κ × α)) (k : κ) : Option α :=
  (m.find? (fun p => p.1 == k)).map Prod.snd

/-- The value held under a key, or a default. -/
def aGetD {κ α : Type} [DecidableEq κ] (m : List (κ × α)) (k : κ) (d : α) : α := (aGet m k).getD d

/-- The list with no value under a key. -/
def aDel {κ α : Type} [DecidableEq κ] (m : List (κ × α)) (k : κ) : List (κ × α) :=
  m.filter (fun p => p.1 != k)

/-- The list with one value under a key; the other keys keep their order. -/
def aPut {κ α : Type} [DecidableEq κ] : List (κ × α) → κ → α → List (κ × α)
  | [], k, v => [(k, v)]
  | p :: m, k, v => if p.1 = k then (k, v) :: m else p :: aPut m k v

/-- A counter of 32 bits that saturates (R108, R128, R152, R182, R239, R272, R312, R336, R366). -/
def satAdd32 (c n : Nat) : Nat := min (c + n) 0xFFFFFFFF

/-- The counters with `n` added under a key. -/
def bump {κ : Type} [DecidableEq κ] (m : List (κ × Nat)) (k : κ) (n : Nat := 1) : List (κ × Nat) :=
  if n = 0 then m else aPut m k (satAdd32 (aGetD m k 0) n)

/-- The list with its element i replaced; unchanged past its end. -/
def setAt {α : Type} (l : List α) (i : Nat) (a : α) : List α := l.set i a

/-- The list with its element i changed by a function. -/
def modAt {α : Type} (l : List α) (i : Nat) (f : α → α) : List α :=
  match l[i]? with
  | some a => l.set i (f a)
  | none => l

/-- Every element that satisfies a test changed by a function. -/
def modWhere {α : Type} (l : List α) (p : α → Bool) (f : α → α) : List α :=
  l.map (fun a => if p a then f a else a)

/-- The index of the first element that satisfies a test. -/
def firstIdx {α : Type} (l : List α) (p : α → Bool) : Option Nat := l.findIdx? p

/-- Insertion into a list kept in ascending order of a key, before the first larger key. -/
def insertBy {α : Type} (key : α → Nat) (a : α) : List α → List α
  | [] => [a]
  | b :: l => if key a < key b then a :: b :: l else b :: insertBy key a l

/-- A list in ascending order of a key; elements with equal keys keep their order. -/
def sortBy {α : Type} (key : α → Nat) (l : List α) : List α := l.foldl (fun acc a => insertBy key a acc) []

/-! ### Register maps: the words a write has made differ from their reset value, in ascending address. -/

/-- A register map: (byte address, word), addresses strictly rising, no entry equal to its reset word. -/
abbrev RegMap := List (Nat × W)

/-- The word at an address: the one listed, or the reset word. -/
def regGet (reset : Nat → W) (m : RegMap) (a : Nat) : W :=
  match m with
  | [] => reset a
  | (b, w) :: r => if b = a then w else regGet reset r a

/-- The map without an address. -/
def regErase : RegMap → Nat → RegMap
  | [], _ => []
  | (b, w) :: r, a => if b = a then regErase r a else (b, w) :: regErase r a

/-- The map with a listed word put in its place. -/
def regInsert : RegMap → Nat → W → RegMap
  | [], a, v => [(a, v)]
  | (b, w) :: r, a, v => if a < b then (a, v) :: (b, w) :: r else (b, w) :: regInsert r a v

/-- The map after a word is written: the canonical form is kept. -/
def regSet (reset : Nat → W) (m : RegMap) (a : Nat) (v : W) : RegMap :=
  if v = reset a then regErase m a else regInsert (regErase m a) a v

/-- The canonical form of a register map. -/
def regWf (reset : Nat → W) (m : RegMap) : Bool :=
  decide (m.Pairwise (fun p q => p.1 < q.1)) && m.all (fun p => p.2 != reset p.1)

/-! ### Byte memories: the tag areas (R7, R76). -/

/-- A byte memory: addresses strictly rising, no entry equal to the byte an unlisted address reads as. -/
abbrev Memory := List Host.Cell

/-- What an unlisted address of a tag area reads as: zero, its reset contents (R478, R482). -/
def Memory.unlisted : Byte := 0

/-- The byte at an address. -/
def Memory.read : Memory → Nat → Byte
  | [], _ => Memory.unlisted
  | (b, v) :: r, a => if b = a then v else Memory.read r a

/-- The memory without an address. -/
def Memory.erase : Memory → Nat → Memory
  | [], _ => []
  | (b, v) :: r, a => if b = a then Memory.erase r a else (b, v) :: Memory.erase r a

/-- The memory with a listed byte put in its place. -/
def Memory.insert : Memory → Nat → Byte → Memory
  | [], a, v => [(a, v)]
  | (b, w) :: r, a, v => if a < b then (a, v) :: (b, w) :: r else (b, w) :: Memory.insert r a v

/-- The memory after one byte is written. -/
def Memory.write (m : Memory) (a : Nat) (v : Byte) : Memory :=
  if v = Memory.unlisted then Memory.erase m a else Memory.insert (Memory.erase m a) a v

/-- The memory after a run of bytes is written at rising addresses. -/
def Memory.writeBytes (m : Memory) (a : Nat) : List Byte → Memory
  | [] => m
  | v :: r => Memory.writeBytes (Memory.write m a v) (a + 1) r

/-- The word at a byte address. In the tag areas, as in every record, the byte at the lower address is the more
significant one (R7, R77, R346). -/
def Memory.readWord (m : Memory) (a : Nat) : W :=
  pack [((Memory.read m a).toNat, 31, 24), ((Memory.read m (a + 1)).toNat, 23, 16),
    ((Memory.read m (a + 2)).toNat, 15, 8), ((Memory.read m (a + 3)).toNat, 7, 0)]

/-- The memory after a word is written. -/
def Memory.writeWord (m : Memory) (a : Nat) (w : W) : Memory := Memory.writeBytes m a (wordBytes w)

/-- The words of a span. -/
def Memory.words (m : Memory) (a n : Nat) : List W := (List.range n).map (fun i => Memory.readWord m (a + 4 * i))

/-- The canonical form of a byte memory, every address below its size. -/
def Memory.wf (size : Nat) (m : Memory) : Bool :=
  decide (m.Pairwise (fun p q => p.1 < q.1)) && m.all (fun p => p.2 != Memory.unlisted && decide (p.1 < size))

end Sys2Proof.Machine
end

