-- ==== Sys2Proof/Machine/Crypto.lean ====
section
/-!
DEFINITION. What the boot ROM verifies an image with (R204): SHA-256 and SHA-512 of FIPS 180-4, and pure Ed25519 of RFC 8032. Both
standards stand outside the spec, which names them (PRESUMED, log 200).
-/
namespace Sys2Proof.Machine

/-! ### SHA-2. -/

/-- The whole part of the k-th root of n, found bit by bit from the highest. -/
def rootOf (k n : Nat) : Nat → Nat → Nat
  | 0, r => r
  | b + 1, r => rootOf k n b (if (r + 2 ^ b) ^ k ≤ n then r + 2 ^ b else r)

def isPrime (n : Nat) : Bool := decide (2 ≤ n) && (List.range n).all (fun d => decide (d < 2 ∨ n % d ≠ 0))

/-- The first 64 bits of the fraction of the k-th root of each of the first m primes. -/
def rootWords (k m : Nat) : List Nat :=
  (((List.range 410).filter isPrime).take m).map (fun p => rootOf k (p * 2 ^ (64 * k)) 70 0 % 2 ^ 64)

/-- A member of the family: the bits of its words, its rounds, and the amounts of its six functions. -/
structure Sha where
  w : Nat
  rounds : Nat
  sum0 : Nat × Nat × Nat
  sum1 : Nat × Nat × Nat
  sig0 : Nat × Nat × Nat
  sig1 : Nat × Nat × Nat

def sha256 : Sha :=
  { w := 32, rounds := 64, sum0 := (2, 13, 22), sum1 := (6, 11, 25), sig0 := (7, 18, 3), sig1 := (17, 19, 10) }
def sha512 : Sha :=
  { w := 64, rounds := 80, sum0 := (28, 34, 39), sum1 := (14, 18, 41), sig0 := (1, 8, 7), sig1 := (19, 61, 6) }

def Sha.rotr (h : Sha) (n x : Nat) : Nat := (x / 2 ^ n ||| x * 2 ^ (h.w - n)) % 2 ^ h.w

/-- Three rotations, and two with a shift. -/
def Sha.sum (h : Sha) (r : Nat × Nat × Nat) (x : Nat) : Nat := h.rotr r.1 x ^^^ h.rotr r.2.1 x ^^^ h.rotr r.2.2 x
def Sha.sig (h : Sha) (r : Nat × Nat × Nat) (x : Nat) : Nat := h.rotr r.1 x ^^^ h.rotr r.2.1 x ^^^ x / 2 ^ r.2.2

/-- The message schedule of a block of sixteen words. -/
def Sha.schedule (h : Sha) (block : List Nat) : List Nat :=
  ((List.range (h.rounds - 16)).foldl (fun (ws : List Nat) _ =>
    (h.sig h.sig1 (ws.getD 1 0) + ws.getD 6 0 + h.sig h.sig0 (ws.getD 14 0) + ws.getD 15 0) % 2 ^ h.w :: ws) block.reverse).reverse

/-- One round on the working variables a to h. -/
def Sha.round (h : Sha) (v : List Nat) (kw : Nat × Nat) : List Nat :=
  let x (i : Nat) : Nat := v.getD i 0
  let ch := (x 4 &&& x 5) ^^^ ((2 ^ h.w - 1 - x 4) &&& x 6)
  let maj := (x 0 &&& x 1) ^^^ (x 0 &&& x 2) ^^^ (x 1 &&& x 2)
  let t1 := x 7 + h.sum h.sum1 (x 4) + ch + kw.1 + kw.2
  let t2 := h.sum h.sum0 (x 0) + maj
  [(t1 + t2) % 2 ^ h.w, x 0, x 1, x 2, (x 3 + t1) % 2 ^ h.w, x 4, x 5, x 6]

/-- The constants of the rounds: the first w bits. -/
def Sha.consts (h : Sha) (k m : Nat) : List Nat := (rootWords k m).map (· / 2 ^ (64 - h.w))

def Sha.block (h : Sha) (ks v block : List Nat) : List Nat :=
  ((ks.zip (h.schedule block)).foldl h.round v).zipWith (fun a b => (a + b) % 2 ^ h.w) v

/-- A number from bytes, the most significant first, and from the least. -/
def natBE (bs : List Byte) : Nat := bs.foldl (fun n b => 256 * n + b.toNat) 0
def natLE (bs : List Byte) : Nat := natBE bs.reverse

/-- The bytes of a number, the most significant first. -/
def bytesBE (n x : Nat) : List Byte := (List.range n).map (fun i => BitVec.ofNat 8 (x / 256 ^ (n - 1 - i)))

/-- The padded message: a one bit, zeros, and its length in bits. -/
def Sha.pad (h : Sha) (bs : List Byte) : List Byte :=
  let zeros := (2 * h.w - (bs.length + 1 + h.w / 4) % (2 * h.w)) % (2 * h.w)
  bs ++ 0x80 :: List.replicate zeros 0 ++ bytesBE (h.w / 4) (8 * bs.length)

/-- The blocks of a padded message, each as sixteen words. -/
def Sha.blocks (h : Sha) : Nat → List Byte → List (List Nat)
  | 0, _ => []
  | n + 1, bs => (List.range 16).map (fun i => natBE ((bs.drop (h.w / 8 * i)).take (h.w / 8))) :: h.blocks n (bs.drop (2 * h.w))

def Sha.hash (h : Sha) (bs : List Byte) : List Byte :=
  let p := h.pad bs
  let ks := h.consts 3 h.rounds
  ((h.blocks (p.length / (2 * h.w)) p).foldl (h.block ks) (h.consts 2 8)).flatMap (bytesBE (h.w / 8))

/-! ### Ed25519. -/

def edP : Nat := 2 ^ 255 - 19
def edL : Nat := 2 ^ 252 + 27742317777372353535851937790883648493

/-- A power modulo edP, by the bits of the exponent. -/
def edPow : Nat → Nat → Nat → Nat
  | 0, _, _ => 1
  | n + 1, b, e => edPow n (b * b % edP) (e / 2) * (if e % 2 = 1 then b else 1) % edP

def edInv (a : Nat) : Nat := edPow 255 a (edP - 2)
def edD : Nat := (edP - 121665) * edInv 121666 % edP

/-- A point of the curve -x^2 + y^2 = 1 + d x^2 y^2. -/
structure EdPoint where
  x : Nat
  y : Nat
  deriving DecidableEq, Repr

def EdPoint.zero : EdPoint := { x := 0, y := 1 }

def EdPoint.add (a b : EdPoint) : EdPoint :=
  let t := edD * (a.x * b.x % edP) % edP * (a.y * b.y % edP) % edP
  { x := (a.x * b.y + a.y * b.x) % edP * edInv (1 + t) % edP, y := (a.y * b.y + a.x * b.x) % edP * edInv (edP + 1 - t) % edP }

/-- A multiple of a point, by the bits of the factor. -/
def EdPoint.mul : Nat → Nat → EdPoint → EdPoint
  | 0, _, _ => .zero
  | n + 1, k, a => let r := EdPoint.mul n (k / 2) (a.add a); if k % 2 = 1 then r.add a else r

/-- A point from y and the sign of x: none where y is not reduced, no x fits, or the sign is that of no zero. -/
def edFrom (y sign : Nat) : Option EdPoint :=
  let x2 := (y * y + edP - 1) % edP * edInv ((edD * (y * y % edP) + 1) % edP) % edP
  let r := edPow 255 x2 ((edP + 3) / 8)
  let x := if r * r % edP = x2 then r else r * edPow 255 2 ((edP - 1) / 4) % edP
  if edP ≤ y ∨ x * x % edP ≠ x2 ∨ (x = 0 ∧ sign = 1) then none
  else some { x := if x % 2 = sign then x else edP - x, y }

def edDecode (bs : List Byte) : Option EdPoint := edFrom (natLE bs % 2 ^ 255) (natLE bs / 2 ^ 255)

/-- The base point: y = 4/5, x even. -/
def edBase : EdPoint := (edFrom (4 * edInv 5 % edP) 0).getD .zero

/-- A signature of 64 bytes over a message holds under a public key: 8 S B = 8 R + 8 k A, every part in its canonical form. -/
def edVerify (key msg sig : List Byte) : Bool :=
  let s := natLE (sig.drop 32)
  match edDecode key, edDecode (sig.take 32) with
  | some a, some r =>
    let k := natLE (sha512.hash (sig.take 32 ++ key ++ msg)) % edL
    decide (s < edL) && edBase.mul 256 (8 * s) == (r.mul 4 8).add (a.mul 256 (8 * k))
  | _, _ => false

end Sys2Proof.Machine
end

