-- ==== Sys2Proof/Machine/Inflate.lean ====
section
/-!
DEFINITION. DEFLATE as a decoder of RFC 1951 reads it, with the limits of R118: what tells whether a payload is one the
compressor may write (R118, R119, R121).
-/
namespace Sys2Proof.Machine

/-- The bits of bytes in the order DEFLATE takes them: least significant first. -/
def deflateBits (bs : List Byte) : List Bool := bs.flatMap (fun b => (List.range 8).map b.getLsbD)

/-- The next bits as a number, the least significant first. -/
def takeBits : Nat → List Bool → Option (Nat × List Bool)
  | 0, bs => some (0, bs)
  | _ + 1, [] => none
  | n + 1, b :: bs => (takeBits n bs).map (fun p => (b2n b + 2 * p.1, p.2))

/-- A prefix code by the lengths of its symbols: none too many for its lengths, and no pattern left over. -/
def codeWhole (lens : List Nat) : Bool :=
  let used := lens.filter (· != 0)
  used.all (· ≤ 15) && decide ((used.map (fun l => 2 ^ (15 - l))).sum = 2 ^ 15)

/-- A distance code may also hold one symbol, or none. -/
def distWhole (lens : List Nat) : Bool := codeWhole lens || decide ((lens.filter (· != 0)).length ≤ 1)

/-- The symbols whose code has a length, ascending. -/
def symsAt (lens : List Nat) (l : Nat) : List Nat := (List.range lens.length).filter (fun i => lens.getD i 0 == l)

/-- The next symbol of a canonical code; `first` is the least code of the length reached, `code` what was read. -/
def readSymGo (lens : List Nat) : Nat → Nat → Nat → Nat → List Bool → Option (Nat × List Bool)
  | 0, _, _, _, _ => none
  | _ + 1, _, _, _, [] => none
  | n + 1, l, code, first, b :: bs =>
    let c := code + b2n b
    let syms := symsAt lens l
    if c < first + syms.length then some (syms.getD (c - first) 0, bs)
    else readSymGo lens n (l + 1) (2 * c) (2 * (first + syms.length)) bs

def readSym (lens : List Nat) (bs : List Bool) : Option (Nat × List Bool) := readSymGo lens 15 1 0 0 bs

/-- The least length and the extra bits of a length symbol, from 257 on. -/
def lengthForm (s : Nat) : Nat × Nat :=
  let k := s - 257
  if s = 285 then (258, 0) else if k < 8 then (k + 3, 0) else (3 + (4 + k % 4) * 2 ^ (k / 4 - 1), k / 4 - 1)

/-- The least distance and the extra bits of a distance symbol. -/
def distForm (s : Nat) : Nat × Nat := if s < 4 then (s + 1, 0) else (1 + (2 + s % 2) * 2 ^ (s / 2 - 1), s / 2 - 1)

/-- A match copies bytes that already stand in the output. -/
def copyMatch (dist : Nat) : Nat → List Byte → List Byte
  | 0, out => out
  | n + 1, out => copyMatch dist n (out ++ [out.getD (out.length - dist) 0])

/-- The symbols of a compressed block up to its end, onto the window and output so far. -/
def inflateCodes (lit dist : List Nat) : Nat → List Bool → List Byte → Option (List Byte × List Bool)
  | 0, _, _ => none
  | n + 1, bs, out =>
    match readSym lit bs with
    | none => none
    | some (s, bs) =>
      if s < 256 then inflateCodes lit dist n bs (out ++ [BitVec.ofNat 8 s])
      else if s = 256 then some (out, bs)
      else if 285 < s then none
      else
        match takeBits (lengthForm s).2 bs with
        | none => none
        | some (x, bs) =>
          match readSym dist bs with
          | none => none
          | some (e, bs) =>
            if 29 < e then none
            else
              match takeBits (distForm e).2 bs with
              | none => none
              | some (y, bs) =>
                let back := (distForm e).1 + y
                if out.length < back ∨ 32768 < back then none
                else inflateCodes lit dist n bs (copyMatch back ((lengthForm s).1 + x) out)

/-- The fixed codes. -/
def fixedLit : List Nat := List.replicate 144 8 ++ List.replicate 112 9 ++ List.replicate 24 7 ++ List.replicate 8 8
def fixedDist : List Nat := List.replicate 30 5

/-- The order in which a dynamic block lists the lengths of its code-length code. -/
def lengthOrder : List Nat := [16, 17, 18, 0, 8, 7, 9, 6, 10, 5, 11, 4, 12, 3, 13, 2, 14, 1, 15]

/-- The code lengths a dynamic block lists, until there are `want` of them. -/
def readLengths (code : List Nat) (want : Nat) : Nat → List Bool → List Nat → Option (List Nat × List Bool)
  | 0, _, _ => none
  | n + 1, bs, ls =>
    if want ≤ ls.length then (if ls.length = want then some (ls, bs) else none)
    else
      match readSym code bs with
      | none => none
      | some (s, bs) =>
        if s < 16 then readLengths code want n bs (ls ++ [s])
        else
          let form := if s = 16 then (2, 3) else if s = 17 then (3, 3) else (7, 11)
          match takeBits form.1 bs with
          | none => none
          | some (x, bs) =>
            if s = 16 ∧ ls = [] then none
            else readLengths code want n bs (ls ++ List.replicate (form.2 + x) (if s = 16 then ls.getLastD 0 else 0))

/-- The header of a dynamic block: the lengths of its two codes. -/
def readDynamic (bs : List Bool) : Option ((List Nat × List Nat) × List Bool) :=
  match takeBits 14 bs with
  | none => none
  | some (h, bs) =>
    let nLit := h % 32 + 257
    let nDist := h / 32 % 32 + 1
    let nLen := h / 1024 + 4
    match takeBits (3 * nLen) bs with
    | none => none
    | some (x, bs) =>
      let given := (List.range nLen).map (fun i => (lengthOrder.getD i 0, x / 8 ^ i % 8))
      let code := (List.range 19).map (fun s => aGetD given s 0)
      if !codeWhole code then none
      else
        match readLengths code (nLit + nDist) (nLit + nDist + 1) bs [] with
        | none => none
        | some (ls, bs) =>
          let lit := ls.take nLit
          let dist := ls.drop nLit
          if codeWhole lit && lit.getD 256 0 != 0 && distWhole dist && decide (nLit ≤ 286 ∧ nDist ≤ 30) then some ((lit, dist), bs)
          else none

/-- A block as it was read: its BFINAL, its BTYPE, the output so far and the bits that follow. -/
structure ReadBlock where
  final : Bool
  btype : Nat
  out : List Byte
  rest : List Bool

/-- One DEFLATE block (RFC 1951). -/
def readBlock (bs : List Bool) (out : List Byte) : Option ReadBlock :=
  match takeBits 3 bs with
  | none => none
  | some (h, bs) =>
    let final := decide (h % 2 = 1)
    match h / 2 with
    | 0 =>
      match takeBits 32 (bs.drop (bs.length % 8)) with
      | none => none
      | some (x, bs) =>
        let n := x % 65536
        match takeBits (8 * n) bs with
        | none => none
        | some (v, bs) =>
          if n + x / 65536 ≠ 65535 then none
          else some { final, btype := 0, out := out ++ (List.range n).map (fun i => BitVec.ofNat 8 (v / 256 ^ i)), rest := bs }
    | 1 => (inflateCodes fixedLit fixedDist (bs.length + 1) bs out).map
        (fun p => { final, btype := 1, out := p.1, rest := p.2 })
    | 2 =>
      match readDynamic bs with
      | none => none
      | some (c, bs) => (inflateCodes c.1 c.2 (bs.length + 1) bs out).map
          (fun p => { final, btype := 2, out := p.1, rest := p.2 })
    | _ => none

/-- The block types a level may write (R118): stored blocks serve every level. -/
def levelWrites (level btype : Nat) : Bool := btype == 0 || btype == (if level = 1 then 1 else 2)

/-- The blocks of a payload, from the window on: what they hold, whether each keeps the limits of R118, and how they end
(R121): with BFINAL = 1 and zero padding, or with an empty stored block that ends on a byte. -/
def readBlocks (level : Nat) (final : Bool) : Nat → List Bool → List Byte → Option (List Byte)
  | 0, _, _ => none
  | n + 1, bs, out =>
    match readBlock bs out with
    | none => none
    | some b =>
      let fits := levelWrites level b.btype && decide (b.out.length ≤ out.length + 16384)
      if !fits then none
      else if b.final then
        if final && decide (b.rest.length < 8) && b.rest.all (!·) then some b.out else none
      else if b.rest = [] then
        if !final && b.btype == 0 && b.out.length == out.length then some b.out else none
      else readBlocks level final n b.rest b.out

/-- A payload that the compressor may write for a block's bytes after its window (R118, R119, R121). -/
def deflateSound (level : Nat) (final : Bool) (history data bytes : List Byte) : Bool :=
  readBlocks level final (8 * bytes.length + 1) (deflateBits bytes) history == some (history ++ data)

end Sys2Proof.Machine
end

