-- ==== Sys2Proof/Machine/Codes.lean ====
section
/-!
DEFINITION. The check codes of the formats: CRC-32C (R101), CRC-64/XZ (R130), the pairwise digest (R131, R281)
and the Reed-Solomon code of the memories (R187).
-/
namespace Sys2Proof.Machine

/-- One bit of a reflected CRC register. -/
def crcBit (poly c : Nat) : Nat := if c % 2 = 1 then c / 2 ^^^ poly else c / 2

/-- One byte into a reflected CRC register. -/
def crcByte (poly c : Nat) (b : Byte) : Nat :=
  crcBit poly (crcBit poly (crcBit poly (crcBit poly (crcBit poly (crcBit poly (crcBit poly (crcBit poly (c ^^^ b.toNat))))))))

/-- The CRC register after a run of bytes. -/
def crcRun (poly c : Nat) (bs : List Byte) : Nat := bs.foldl (crcByte poly) c

/-- CRC-32C: polynomial 0x1EDC_6F41, reflected, initial value and final XOR 0xFFFF_FFFF (R101). -/
def crc32c (bs : List Byte) : W := BitVec.ofNat 32 (crcRun 0x82F63B78 0xFFFFFFFF bs ^^^ 0xFFFFFFFF)

/-- CRC-32C of a run of words. -/
def crcWords (ws : List W) : W := crc32c (bytesOf ws)

/-- A record closed by the CRC-32C of everything before it. -/
def withCrc (ws : List W) : List W := ws ++ [crcWords ws]

/-- CRC-64/XZ: ECMA-182 polynomial 0x42F0_E1EB_A9EA_3693, reflected, all-ones start and final XOR (R130). -/
def crc64xz (bs : List Byte) : Nat := crcRun 0xC96C5795D7870F42 0xFFFFFFFFFFFFFFFF bs ^^^ 0xFFFFFFFFFFFFFFFF

/-- CRC-64/XZ of be64(left) followed by be64(right): one combine of R131 and of pod_digest (R223). -/
def crcPair (a b : Nat) : Nat := crc64xz (bytesOf (twoWords a ++ twoWords b))

/-- One round of R131: pairs in index order, an odd last leaf passed up unchanged. -/
def digestRound : List Nat → List Nat
  | a :: b :: r => crcPair a b :: digestRound r
  | l => l

/-- The rounds of R131, at most `fuel` of them. -/
def digestRounds : Nat → List Nat → List Nat
  | 0, l => l
  | n + 1, l => if l.length ≤ 1 then l else digestRounds n (digestRound l)

/-- The digest of leaves in index order (R131, R281, R331); zero when there is no leaf (R331). -/
def digestOf (leaves : List Nat) : Nat := (digestRounds leaves.length leaves).headD 0

/-- A run cut into pieces of at most `n` bytes. -/
def chunksOf {α : Type} : Nat → Nat → List α → List (List α)
  | 0, _, _ => []
  | _ + 1, _, [] => []
  | f + 1, n, l => l.take n :: chunksOf f n (l.drop n)

/-- The digest of a whole image: leaves of 2^20 bytes (R281). -/
def imageDigest (bs : List Byte) : Nat :=
  digestOf ((chunksOf (bs.length + 1) (2 ^ 20) bs).map crc64xz)

/-! ### RS(136,128) over GF(2^8) (R187). -/

/-- Multiplication by alpha = 0x02 modulo 0x11D. -/
def gfDouble (a : Nat) : Nat := if a < 128 then 2 * a else 2 * a ^^^ 0x11D

/-- Multiplication in the field, by the bits of the second factor from the lowest. -/
def gfMul : Nat → Nat → Nat → Nat
  | 0, _, _ => 0
  | n + 1, a, b => (if b % 2 = 1 then a else 0) ^^^ gfMul n (gfDouble a) (b / 2)

/-- alpha to the power n. -/
def gfPow : Nat → Nat
  | 0 => 1
  | n + 1 => gfDouble (gfPow n)

/-- A polynomial (coefficients from the highest power) at alpha^j. -/
def rsEval (j : Nat) (cs : List Nat) : Nat := cs.foldl (fun acc c => gfMul 8 acc (gfPow j) ^^^ c) 0

/-- The eight syndromes of a word of 136 symbols, d0 first. -/
def rsSyndromes (cs : List Nat) : List Nat := (List.range 8).map (fun j => rsEval j cs)

/-- The generator polynomial (x - alpha^0)...(x - alpha^7), highest power first. -/
def rsGenerator : List Nat :=
  (List.range 8).foldl (fun g j =>
    (g ++ [0]).zipWith (· ^^^ ·) (0 :: g.map (fun c => gfMul 8 c (gfPow j)))) [1]

/-- One step of the division that leaves the check symbols. -/
def rsStep (rem : List Nat) (d : Nat) : List Nat :=
  let q := d ^^^ rem.headD 0
  (rem.drop 1 ++ [0]).zipWith (· ^^^ ·) ((rsGenerator.drop 1).map (fun g => gfMul 8 q g))

/-- The code word of 128 data symbols: the data, then check symbols c0 to c7. -/
def rsEncode (data : List Nat) : List Nat := data ++ data.foldl rsStep (List.replicate 8 0)

/-- An error pattern as a word of 136 symbols. -/
def rsPattern (errors : List (Fin 136 × Byte)) : List Nat :=
  errors.foldl (fun acc e => modAt acc e.1.val (fun s => s ^^^ e.2.toNat)) (List.replicate 136 0)

/-- The number of symbols an error pattern changes. -/
def rsWeight (errors : List (Fin 136 × Byte)) : Nat := (rsPattern errors).countP (fun s => s != 0)

/-- An error pattern is seen on a read exactly when some syndrome is not zero (R188). -/
def rsSeen (errors : List (Fin 136 × Byte)) : Bool := (rsSyndromes (rsPattern errors)).any (fun s => s != 0)

/-- The inverse in the field: a^254. -/
def gfInv (a : Nat) : Nat :=
  ((List.range 7).foldl (fun (p : Nat × Nat) _ => let s := gfMul 8 p.2 p.2; (gfMul 8 p.1 s, s)) (1, a)).1

/-- The error locator as the syndromes build it up: C, the last C before its length changed, the length, the steps and the discrepancy
since then (Berlekamp and Massey). -/
structure Locator where
  c : List Nat
  b : List Nat
  len : Nat
  gap : Nat
  last : Nat

/-- One more syndrome, of the list s up to index n. -/
def Locator.step (s : List Nat) (l : Locator) (n : Nat) : Locator :=
  let d := ((List.range (l.len + 1)).map (fun i => gfMul 8 (l.c.getD i 0) (s.getD (n - i) 0))).foldl (· ^^^ ·) 0
  if d = 0 then { l with gap := l.gap + 1 }
  else
    let q := gfMul 8 d (gfInv l.last)
    let c := (List.range 9).map (fun i => l.c.getD i 0 ^^^ (if i < l.gap then 0 else gfMul 8 q (l.b.getD (i - l.gap) 0)))
    if 2 * l.len ≤ n then { c, b := l.c, len := n + 1 - l.len, gap := 1, last := d } else { l with c, gap := l.gap + 1 }

/-- Some code word lies within four symbols of a word with an error pattern: its locator has as many places as its length, which is
at most four (R188). -/
def rsNear (errors : List (Fin 136 × Byte)) : Bool :=
  let l := (List.range 8).foldl (Locator.step (rsSyndromes (rsPattern errors))) { c := [1], b := [1], len := 0, gap := 1, last := 1 }
  let poly := (List.range (l.len + 1)).map (fun i => l.c.getD i 0)
  decide (l.len ≤ 4) && (List.range 136).countP (fun j => rsEval j poly == 0) == l.len

end Sys2Proof.Machine
end

