-- ==== Sys2Proof/Machine/Flags.lean ====
section
/-!
DEFINITION. Coded fault messages (R392 to R395, R484): kinds, units, operations and the 128-bit coding.
-/
namespace Sys2Proof.Machine

/-- The fault kinds of R395. -/
inductive FaultKind
  | ledger | versionMismatch | frameOverrun | timeJump | timeMaster | timePath | healthCrit | supplyLow
  | faultDrop | memUncorr | memRetireFull | mgmtLost | absentPersist | trayAbsent | ensLane | ensQuadrant
  | ensBacklog | ensCheckLost | modelFetch | modelBadSource | modelNotReady | modelExpelled | modelSplit
  | replicaTimeout | seedbankLag | seedbankLost | policeDrop | hailSuspect | hailDead | fence | claimConflict
  | rmFailover | stateLoss | tileError | linkLost | hostMalformed | marginLimit | ckptIncomplete | fenceRefused
  | dtuLinkLedger
  deriving DecidableEq, Repr

/-- The code of a kind (R395). -/
def FaultKind.code : FaultKind → Nat
  | .ledger => 0x0001
  | .versionMismatch => 0x0002
  | .frameOverrun => 0x0003
  | .timeJump => 0x0004
  | .timeMaster => 0x0005
  | .timePath => 0x0006
  | .healthCrit => 0x0007
  | .supplyLow => 0x0008
  | .faultDrop => 0x0009
  | .memUncorr => 0x000A
  | .memRetireFull => 0x000B
  | .mgmtLost => 0x000C
  | .absentPersist => 0x000D
  | .trayAbsent => 0x000E
  | .ensLane => 0x000F
  | .ensQuadrant => 0x0010
  | .ensBacklog => 0x0011
  | .ensCheckLost => 0x0012
  | .modelFetch => 0x0013
  | .modelBadSource => 0x0014
  | .modelNotReady => 0x0015
  | .modelExpelled => 0x0016
  | .modelSplit => 0x0017
  | .replicaTimeout => 0x0018
  | .seedbankLag => 0x0019
  | .seedbankLost => 0x001A
  | .policeDrop => 0x001B
  | .hailSuspect => 0x001C
  | .hailDead => 0x001D
  | .fence => 0x001E
  | .claimConflict => 0x001F
  | .rmFailover => 0x0020
  | .stateLoss => 0x0021
  | .tileError => 0x0022
  | .linkLost => 0x0023
  | .hostMalformed => 0x0024
  | .marginLimit => 0x0025
  | .ckptIncomplete => 0x0026
  | .fenceRefused => 0x0027
  | .dtuLinkLedger => 0x0028

/-- The default severity of a kind: 0 NOTE, 1 RECOVERED, 2 DEGRADED, 3 FATAL (R392, R395). MEM_UNCORR takes its
severity from the region (R189); this is the lowest of that table. -/
def FaultKind.severity : FaultKind → Nat
  | .ledger => 1
  | .versionMismatch => 2
  | .frameOverrun => 0
  | .timeJump => 2
  | .timeMaster => 2
  | .timePath => 0
  | .healthCrit => 0
  | .supplyLow => 0
  | .faultDrop => 0
  | .memUncorr => 1
  | .memRetireFull => 2
  | .mgmtLost => 3
  | .absentPersist => 0
  | .trayAbsent => 0
  | .ensLane => 2
  | .ensQuadrant => 2
  | .ensBacklog => 2
  | .ensCheckLost => 2
  | .modelFetch => 2
  | .modelBadSource => 1
  | .modelNotReady => 0
  | .modelExpelled => 2
  | .modelSplit => 2
  | .replicaTimeout => 0
  | .seedbankLag => 0
  | .seedbankLost => 2
  | .policeDrop => 0
  | .hailSuspect => 0
  | .hailDead => 2
  | .fence => 2
  | .claimConflict => 0
  | .rmFailover => 2
  | .stateLoss => 2
  | .tileError => 2
  | .linkLost => 2
  | .hostMalformed => 0
  | .marginLimit => 2
  | .ckptIncomplete => 0
  | .fenceRefused => 0
  | .dtuLinkLedger => 2

/-- The unit kinds of R393. -/
inductive UnitKind
  | none | cluster | dtu | lane | tile | channel | quadrant | link | memory | core | timeUnit | za40 | context
  | hostBlock
  deriving DecidableEq, Repr

/-- The code of a unit kind (R393). -/
def UnitKind.code : UnitKind → Nat
  | .none => 0
  | .cluster => 1
  | .dtu => 2
  | .lane => 3
  | .tile => 4
  | .channel => 5
  | .quadrant => 6
  | .link => 7
  | .memory => 8
  | .core => 9
  | .timeUnit => 10
  | .za40 => 11
  | .context => 12
  | .hostBlock => 13

/-- The operation codes of R393. -/
inductive FaultOp
  | none | closure | combine | feature | walk | batch | detect | linkRx | linkTx | memRead | scrub | command
  | digest | trace | timeSample | boot | hail | audit | fetch | mirror | rebuild
  deriving DecidableEq, Repr

/-- The code of an operation (R393). -/
def FaultOp.code : FaultOp → Nat
  | .none => 0
  | .closure => 1
  | .combine => 2
  | .feature => 3
  | .walk => 4
  | .batch => 5
  | .detect => 6
  | .linkRx => 7
  | .linkTx => 8
  | .memRead => 9
  | .scrub => 10
  | .command => 11
  | .digest => 12
  | .trace => 13
  | .timeSample => 14
  | .boot => 15
  | .hail => 16
  | .audit => 17
  | .fetch => 18
  | .mirror => 19
  | .rebuild => 20

/-- The audited quantities and their codes (R484). -/
inductive Quantity
  | ulCredit | linkCredit | traceToken | podSlot | syncObj | handle | stackPage
  deriving DecidableEq, Repr

def Quantity.code : Quantity → Nat
  | .ulCredit => 1
  | .linkCredit => 2
  | .traceToken => 3
  | .podSlot => 4
  | .syncObj => 5
  | .handle => 6
  | .stackPage => 7

/-- The fields of a fault message (R392), the severity standing apart where it is not the default. -/
structure FaultFields where
  kind : FaultKind
  severity : Nat
  unitKind : UnitKind
  unit : Nat
  op : FaultOp
  ctx : Nat
  gen : Nat
  subject : Nat
  detail : Nat
  deriving DecidableEq, Repr

/-- A fault of a kind with its default severity and no context (R392, R395). -/
def faultOf (kind : FaultKind) (unitKind : UnitKind) (unit : Nat) (op : FaultOp) (subject detail : Nat) : FaultFields :=
  { kind, severity := kind.severity, unitKind, unit, op, ctx := 0xFFFF, gen := 0, subject, detail }

/-- The coding of R392: fver 0x1 and the fields, most significant first. -/
def FaultFields.message (f : FaultFields) : BitVec 128 :=
  BitVec.ofNat 128 (packNat [(1, 127, 124), (f.severity, 123, 122), (f.kind.code, 119, 104), (f.unitKind.code, 103, 100),
    (f.unit, 99, 84), (f.op.code, 83, 76), (f.ctx, 75, 60), (f.gen, 59, 52), (f.subject, 51, 32), (f.detail, 31, 0)])

/-- The fields of a message that a reader needs (R392). -/
def msgSeverity (m : BitVec 128) : Nat := bits m.toNat 123 122
def msgKind (m : BitVec 128) : Nat := bits m.toNat 119 104
def msgUnitKind (m : BitVec 128) : Nat := bits m.toNat 103 100
def msgUnit (m : BitVec 128) : Nat := bits m.toNat 99 84
def msgSubject (m : BitVec 128) : Nat := bits m.toNat 51 32
def msgDetail (m : BitVec 128) : Nat := bits m.toNat 31 0

/-- A host message obeys R394: fver 1, unit_kind HOST_BLOCK, a kind from 0x8000, its die's ID in subject. -/
def hostMsgWf (m : BitVec 128) (die : Nat) : Bool :=
  decide (bits m.toNat 127 124 = 1 ∧ msgUnitKind m = 13 ∧ 0x8000 ≤ msgKind m ∧ msgSubject m = die)

/-- A 128-bit message as four words. -/
def msgWords (m : BitVec 128) : List W := twoWords (m.toNat / 2 ^ 64) ++ twoWords (m.toNat % 2 ^ 64)

/-- A fault record of R151 and R396: `tail` is the source bit, reserved bits and unit ID of bytes 29 to 31. -/
def faultRecord (m : BitVec 128) (tNs : Nat) (temp vcore : BitVec 16) (repeats tail : Nat) : List W :=
  msgWords m ++ twoWords tNs ++
    [pack [(temp.toNat, 31, 16), (vcore.toNat, 15, 0)], pack [(repeats, 31, 24), (tail, 23, 0)]]

end Sys2Proof.Machine
end

