-- ==== Sys2Proof/Machine/StLink.lean ====
section
/-!
DEFINITION. The state of a Triheud endpoint: frames waiting to leave, credits, sequence numbers, gates and shapers
(R341, R350 to R360).
-/
namespace Sys2Proof.Machine

/-- A frame waiting to leave. Its source address, version, lseq and hcrc are filled in as it leaves (R341, R350). -/
structure TxFrame where
  cls : Nat
  msg : Nat
  dest : Mac
  ctx : BitVec 16
  gen : Byte
  plen : Nat
  body : List W
  via : Option Mac := none   -- the source a forwarded frame keeps (R344)
  ver : Option Nat := none   -- the version of a LINK_RESET: the one its link had agreed when it was reset (R354)
  deriving DecidableEq, Repr

/-- Wire bytes of a frame (R338). -/
def wireBytes (plen : Nat) : Nat := max 60 (32 + plen) + 24

/-- Units of 64 bytes a frame uses of its credit pool (R350). -/
def creditUnits (plen : Nat) : Nat := (32 + plen + 63) / 64

/-- One direction pair of a credit pool (R350 to R352): what the peer has granted, returned and we have sent, and
what we have taken in and returned to it. -/
structure Pool where
  opened : Bool          -- the first CREDIT after link-up has arrived
  grant : Nat            -- units of that first CREDIT
  returned : W           -- cumulative units the peer has returned
  sent : W               -- cumulative units sent
  held : Bool            -- the peer holds the class or VC
  heldSince : Nat        -- FTC ns when the hold was taken, for held_ns (R366)
  given : W              -- cumulative units we have returned to the peer
  owed : List (Nat × Nat)    -- arrivals not yet returned: (FTC ns of arrival, units), oldest first (R352)
  deriving DecidableEq, Repr

def Pool.initial : Pool :=
  { opened := false, grant := 0, returned := 0, sent := 0, held := false, heldSince := 0, given := 0, owed := [] }

/-- Units a sender may still use (R352). -/
def Pool.available (p : Pool) : Nat := if p.opened then (p.returned - p.sent).toNat else 0

/-- A virtual clock of R359. V is kept in units of 2^-16 ns divided by the rate, so that L / r and b / r are whole
numbers: with r = rate / 10 bytes per ns, L / r is 10 L 2^16 of them. -/
structure Shaper where
  enabled : Bool
  rate : Nat             -- units of 100 MB/s
  burst : Nat            -- bytes
  v : Nat
  deriving DecidableEq, Repr

/-- What L bytes cost on a virtual clock: L / r, or b / r for a burst (R359). -/
def Shaper.cost (bytes : Nat) : Nat := 655360 * bytes

/-- The same instant on a shaper's scale. -/
def Shaper.at (sh : Shaper) (now : Stamp) : Nat := now * sh.rate

/-- The rule of R359: V + L / r ≤ now + b / r. -/
def Shaper.allows (sh : Shaper) (now : Stamp) (bytes : Nat) : Bool :=
  !sh.enabled || decide (sh.v + Shaper.cost bytes ≤ sh.at now + Shaper.cost sh.burst)

/-- A frame starts: V becomes max(V, now) + L / r (R359). -/
def Shaper.charge (sh : Shaper) (now : Stamp) (bytes : Nat) : Shaper :=
  if sh.enabled then { sh with v := max sh.v (sh.at now) + Shaper.cost bytes } else sh

/-- A queue becomes non-empty: V = max(V, now) (R359). -/
def Shaper.wake (sh : Shaper) (now : Stamp) : Shaper := { sh with v := max sh.v (sh.at now) }

/-- A change of settings takes effect: V = now with reset_full, now + b / r without (R360). -/
def Shaper.change (enabled full : Bool) (rate burst : Nat) (now : Stamp) : Shaper :=
  { enabled, rate, burst, v := now * rate + (if full then 0 else Shaper.cost burst) }

/-- A gate control list: the cycle's log2 and its entries (gates, units of 16 ns) (R356). -/
structure GateList where
  cycleLog2 : Nat
  entries : List (Nat × Nat)
  deriving DecidableEq, Repr

/-- The list in force after reset on every link (R356). -/
def GateList.default : GateList := { cycleLog2 := 14, entries := [(0x47, 32), (0x18, 64), (0xFF, 928)] }

/-- The form a list must have (R356): 256 ns of control window on optical links, 512 ns on management ports. -/
def GateList.wf (management : Bool) (g : GateList) : Bool :=
  decide (10 ≤ g.cycleLog2 ∧ g.cycleLog2 ≤ 14 ∧ 2 ≤ g.entries.length ∧ g.entries.length ≤ 32)
  && g.entries.all (fun e => decide (1 ≤ e.2 ∧ e.2 ≤ 4095))
  && decide ((g.entries.map (fun e => 16 * e.2)).sum = 2 ^ g.cycleLog2)
  && decide ((g.entries.headD (0, 0)).1 = 0x47)
  && decide ((if management then 512 else 256) ≤ 16 * (g.entries.headD (0, 0)).2)
  && (List.range 8).all (fun c => g.entries.any (fun e => decide (bits e.1 c c = 1)))

/-- The entry spans of a list: (start within the cycle, length, gates) in ns. -/
def GateList.spans (g : GateList) : List (Nat × Nat × Nat) :=
  (g.entries.foldl (fun acc e => (acc.1 + 16 * e.2, acc.2 ++ [(acc.1, 16 * e.2, e.1)])) ((0, []) : Nat × List (Nat × Nat × Nat))).2

/-- How long gate c stays open from an offset in the cycle, in ns, up to `fuel` entries on; cycle ends are no break
(R357). Zero when the gate is closed. -/
def GateList.openFor (g : GateList) (c : Nat) (offset : Nat) : Nat :=
  let sp := g.spans
  let tail := sp.filter (fun e => decide (offset < e.1 + e.2.1))
  let here := match tail with
    | e :: r => (e.1 + e.2.1 - offset, e.2.2) :: r.map (fun x => (x.2.1, x.2.2))
    | [] => []
  let all := here ++ sp.map (fun x => (x.2.1, x.2.2)) ++ sp.map (fun x => (x.2.1, x.2.2))
  ((all.takeWhile (fun x => decide (bits x.2 c c = 1))).map Prod.fst).sum

/-- The longest span in which gate c is open (R357). -/
def GateList.longest (g : GateList) (c : Nat) : Nat :=
  (g.spans.map (fun e => g.openFor c e.1)).foldl max 0

/-- The bytes per frame that windows with exactly these gates carry, in KiB, at a link rate in units of 1/1000 byte
per ns (R358). -/
def GateList.capacity (g : GateList) (gates rate1000 : Nat) : Nat :=
  ((g.entries.filter (fun e => e.1 == gates)).map (fun e => 16 * e.2)).sum * 2 ^ (20 - g.cycleLog2) * rate1000 / 1000 / 1024

end Sys2Proof.Machine
end

