-- ==== Sys2Proof/Machine/StCmd.lean ====
section
/-!
DEFINITION. Commands as the units hold them: opcodes (R381), chains (R379), handles (R375, R376), the retry cache
(R377), relays (R371) and completions (R373).
-/
namespace Sys2Proof.Machine

/-- The opcodes of R381, R422, R438 and R471, one per Husk row of the table. -/
inductive Opcode
  | ident | status | handleQuery | handleCancel | regRead | regWrite | tagWrite | softReset | frameReset
  | cellSample | linkResetCmd | retainReplay | margin | traceFlush | traceSave | traceRestore | timeResync
  | timeStep | ctxAdmit | ctxTeardown | ctxQuota | membership | podPlan | featPlan | detPlan | detReset
  | syncAlloc | syncFree | syncSet | syncAdd | syncWait | syncBind | syncRead | modelLoad | modelQuery
  | featWrite | weightSwap | digestLoad | resultHistory | subscribe | seedPair | frostArm | frostCancel
  | frostNow | frostThaw | frostQuery | scanOut | loopTest | selfTest | faultInject | fence | unfence
  | readmit | liveClaim | liveQuery | rackSet | ckptPut | ckptGet | rebuild | faultLog | lullHold | lullRelease
  | zaLull | zaWake | zaReset | pwrLimit
  deriving DecidableEq, Repr

/-- The opcode number of word 0 (R381). -/
def Opcode.code : Opcode → Nat
  | .ident => 0x0001
  | .status => 0x0002
  | .handleQuery => 0x0003
  | .handleCancel => 0x0004
  | .regRead => 0x0010
  | .regWrite => 0x0011
  | .tagWrite => 0x0012
  | .softReset => 0x0020
  | .frameReset => 0x0021
  | .cellSample => 0x0022
  | .linkResetCmd => 0x0023
  | .retainReplay => 0x0024
  | .margin => 0x0025
  | .traceFlush => 0x0026
  | .traceSave => 0x0027
  | .traceRestore => 0x0028
  | .timeResync => 0x0030
  | .timeStep => 0x0031
  | .ctxAdmit => 0x0040
  | .ctxTeardown => 0x0041
  | .ctxQuota => 0x0042
  | .membership => 0x0043
  | .podPlan => 0x0044
  | .featPlan => 0x0045
  | .detPlan => 0x0046
  | .detReset => 0x0047
  | .syncAlloc => 0x0050
  | .syncFree => 0x0051
  | .syncSet => 0x0052
  | .syncAdd => 0x0053
  | .syncWait => 0x0054
  | .syncBind => 0x0055
  | .syncRead => 0x0056
  | .modelLoad => 0x0060
  | .modelQuery => 0x0061
  | .featWrite => 0x0062
  | .weightSwap => 0x0063
  | .digestLoad => 0x0064
  | .resultHistory => 0x0065
  | .subscribe => 0x0066
  | .seedPair => 0x0070
  | .frostArm => 0x0080
  | .frostCancel => 0x0081
  | .frostNow => 0x0082
  | .frostThaw => 0x0083
  | .frostQuery => 0x0084
  | .scanOut => 0x0085
  | .loopTest => 0x0086
  | .selfTest => 0x0087
  | .faultInject => 0x0F01
  | .fence => 0x0090
  | .unfence => 0x0091
  | .readmit => 0x0092
  | .liveClaim => 0x0093
  | .liveQuery => 0x0094
  | .rackSet => 0x0095
  | .ckptPut => 0x0096
  | .ckptGet => 0x0097
  | .rebuild => 0x0098
  | .faultLog => 0x0099
  | .lullHold => 0x00A0
  | .lullRelease => 0x00A1
  | .zaLull => 0x00A2
  | .zaWake => 0x00A3
  | .zaReset => 0x00A4
  | .pwrLimit => 0x00A5

/-- Every opcode. -/
def Opcode.all : List Opcode :=
  [.ident, .status, .handleQuery, .handleCancel, .regRead, .regWrite, .tagWrite, .softReset, .frameReset, .cellSample,
   .linkResetCmd, .retainReplay, .margin, .traceFlush, .traceSave, .traceRestore, .timeResync, .timeStep, .ctxAdmit,
   .ctxTeardown, .ctxQuota, .membership, .podPlan, .featPlan, .detPlan, .detReset, .syncAlloc, .syncFree, .syncSet,
   .syncAdd, .syncWait, .syncBind, .syncRead, .modelLoad, .modelQuery, .featWrite, .weightSwap, .digestLoad, .resultHistory,
   .subscribe, .seedPair, .frostArm, .frostCancel, .frostNow, .frostThaw, .frostQuery, .scanOut, .loopTest, .selfTest,
   .faultInject, .fence, .unfence, .readmit, .liveClaim, .liveQuery, .rackSet, .ckptPut, .ckptGet, .rebuild, .faultLog,
   .lullHold, .lullRelease, .zaLull, .zaWake, .zaReset, .pwrLimit]

/-- The long opcodes; FEAT_PLAN is staged: short until its last part (R374, R383). -/
def Opcode.isLong : Opcode → Bool
  | .ident => false
  | .status => false
  | .handleQuery => false
  | .handleCancel => false
  | .regRead => false
  | .regWrite => false
  | .tagWrite => false
  | .softReset => false
  | .frameReset => false
  | .cellSample => false
  | .linkResetCmd => false
  | .retainReplay => true
  | .margin => true
  | .traceFlush => true
  | .traceSave => true
  | .traceRestore => true
  | .timeResync => false
  | .timeStep => false
  | .ctxAdmit => true
  | .ctxTeardown => true
  | .ctxQuota => false
  | .membership => true
  | .podPlan => true
  | .featPlan => false
  | .detPlan => true
  | .detReset => false
  | .syncAlloc => false
  | .syncFree => false
  | .syncSet => false
  | .syncAdd => false
  | .syncWait => true
  | .syncBind => false
  | .syncRead => false
  | .modelLoad => true
  | .modelQuery => true
  | .featWrite => false
  | .weightSwap => false
  | .digestLoad => false
  | .resultHistory => false
  | .subscribe => false
  | .seedPair => true
  | .frostArm => true
  | .frostCancel => false
  | .frostNow => false
  | .frostThaw => true
  | .frostQuery => false
  | .scanOut => true
  | .loopTest => true
  | .selfTest => true
  | .faultInject => false
  | .fence => true
  | .unfence => true
  | .readmit => true
  | .liveClaim => false
  | .liveQuery => false
  | .rackSet => false
  | .ckptPut => false
  | .ckptGet => true
  | .rebuild => true
  | .faultLog => false
  | .lullHold => false
  | .lullRelease => false
  | .zaLull => true
  | .zaWake => true
  | .zaReset => false
  | .pwrLimit => false

/-- The units an opcode is listed for: DTU, ZA40 (R381). -/
def Opcode.units : Opcode → Bool × Bool
  | .ident => (true, true)
  | .status => (true, true)
  | .handleQuery => (false, true)
  | .handleCancel => (false, true)
  | .regRead => (true, true)
  | .regWrite => (true, true)
  | .tagWrite => (false, true)
  | .softReset => (true, false)
  | .frameReset => (true, false)
  | .cellSample => (true, false)
  | .linkResetCmd => (true, true)
  | .retainReplay => (true, false)
  | .margin => (true, false)
  | .traceFlush => (true, false)
  | .traceSave => (true, false)
  | .traceRestore => (true, false)
  | .timeResync => (true, true)
  | .timeStep => (false, true)
  | .ctxAdmit => (false, true)
  | .ctxTeardown => (false, true)
  | .ctxQuota => (false, true)
  | .membership => (false, true)
  | .podPlan => (false, true)
  | .featPlan => (false, true)
  | .detPlan => (false, true)
  | .detReset => (false, true)
  | .syncAlloc => (false, true)
  | .syncFree => (false, true)
  | .syncSet => (false, true)
  | .syncAdd => (false, true)
  | .syncWait => (false, true)
  | .syncBind => (false, true)
  | .syncRead => (false, true)
  | .modelLoad => (false, true)
  | .modelQuery => (false, true)
  | .featWrite => (false, true)
  | .weightSwap => (false, true)
  | .digestLoad => (false, true)
  | .resultHistory => (false, true)
  | .subscribe => (false, true)
  | .seedPair => (false, true)
  | .frostArm => (false, true)
  | .frostCancel => (false, true)
  | .frostNow => (false, true)
  | .frostThaw => (false, true)
  | .frostQuery => (true, true)
  | .scanOut => (false, true)
  | .loopTest => (true, true)
  | .selfTest => (false, true)
  | .faultInject => (true, true)
  | .fence => (false, true)
  | .unfence => (false, true)
  | .readmit => (false, true)
  | .liveClaim => (false, true)
  | .liveQuery => (false, true)
  | .rackSet => (false, true)
  | .ckptPut => (false, true)
  | .ckptGet => (false, true)
  | .rebuild => (false, true)
  | .faultLog => (false, true)
  | .lullHold => (false, true)
  | .lullRelease => (false, true)
  | .zaLull => (false, true)
  | .zaWake => (false, true)
  | .zaReset => (false, true)
  | .pwrLimit => (false, true)

/-- A chain extension (R379). -/
structure Chain where
  waitEn : Bool
  sigEn : Bool
  sigAny : Bool
  waitObj : Nat
  waitV : Nat
  sigObj : Nat
  sigAdd : Nat
  deriving DecidableEq, Repr

/-- How a command ends: status, detail, result0 and result payload (R373, R385). -/
structure Result where
  status : Nat
  detail : Nat
  result0 : Nat
  payload : List W
  trunc : Bool
  deriving DecidableEq, Repr

/-- A command a unit is executing: what its completion needs (R373). -/
structure CmdRef where
  op : Opcode
  req : Requester
  w1 : W
  tag : W
  deriving DecidableEq, Repr

/-- An outstanding handle of the ZA40 (R375, R376). `order` is its place in acceptance; `relay` the die it was relayed
to; `parked` that it waits on its chain and has not been released; `done` its result once the work has ended and DONE_HANDLE is still to post. -/
structure Handle where
  handle : W
  cmd : CmdRef
  husk : HuskCmd
  parked : Bool
  chain : Option Chain
  relay : Option Nat
  order : Nat
  done : Option Result
  deriving DecidableEq, Repr

/-- A retained DONE_HANDLE record (R376): with the frames begun when it was posted. -/
structure Retained where
  handle : W
  record : List W
  posted : Nat
  deriving DecidableEq, Repr

/-- An entry of a retry cache (R377): the bytes compared, the stored reply, the frames begun at acceptance. -/
structure CacheEntry where
  req : Requester
  tag : W
  bytes : List W
  reply : List W
  handle : W
  at_ : Nat
  deriving DecidableEq, Repr

/-- A command relayed to a DTU and not answered (R371): our tag, the requester's command, the handle of a long one. -/
structure Relay where
  ownTag : W
  die : Nat
  cmd : CmdRef
  handle : W
  sentAt : Nat           -- frames begun
  husk : HuskCmd         -- as relayed: a completed register write goes into our books of the DTU
  cache : Bool           -- its requester's tag is in the retry cache
  deriving DecidableEq, Repr

/-- A long command that waits for a DTU (R372). -/
structure QueuedLong where
  die : Nat
  handle : W
  husk : HuskCmd
  op : Opcode
  deriving DecidableEq, Repr

/-- A long command the DTU holds (R372). -/
structure DtuLong where
  handle : W
  cmd : CmdRef
  done : Option Result
  deriving DecidableEq, Repr

/-- What FAULT_INJECT has arranged (R447): the code, how often more, and its parameter and payload. -/
structure Injection where
  code : Nat
  n : Nat
  param : W
  payload : List W
  deriving DecidableEq, Repr

end Sys2Proof.Machine
end

