-- ==== Sys2Proof/Machine/StDtuCells.lean ====
section
/-!
DEFINITION. What the DTU measures with: build parameters (R37), probe fronts (R47), cells and their closure (R80 to
R100), context slots (R87), bands (R105) and the retention store (R102).
-/
namespace Sys2Proof.Machine

/-- The integrator's build parameters (R37, R38). No command changes them. Strobes and taps not listed lie in
domain 0. -/
structure Build where
  nClusters : Nat
  nObs : Nat
  strobeDom : List (Nat × Nat)
  tapDom : List (Nat × Nat)
  timePeriod : Nat       -- nominal period of time_clk_i, 2^-48 ns
  deriving DecidableEq, Repr

/-- The build the model runs with: 64 clusters, one observed domain, a 400 MHz time clock (DESIGN CHOICE, log
entry 2). -/
def Build.initial : Build :=
  { nClusters := 64, nObs := 1, strobeDom := [], tapDom := [], timePeriod := 5 * 2 ^ 47 }

/-- Where an event or a sample comes from. -/
inductive ProbeSource
  | strobe (s : Nat)
  | tap (t : Nat)
  deriving DecidableEq, Repr

/-- What a front holds that the core has not merged: events of a strobe, samples of a tap (R47). -/
structure FrontRec where
  events : Nat
  samples : List (BitVec 16)
  deriving DecidableEq, Repr

/-- A front's unmerged record of the closing data frame and of the running one: the tick marker divides them (R91). -/
structure Front where
  older : FrontRec
  newer : FrontRec
  deriving DecidableEq, Repr

/-- A cell's value (R80): the count or sum; the minimum and maximum of VALUE samples; whether there was a sample; the
sat_bitmap bit (R84). -/
structure CellVal where
  value : Int
  lo : Int
  hi : Int
  any : Bool
  sat : Bool
  deriving DecidableEq, Repr

def CellVal.empty : CellVal := { value := 0, lo := 0, hi := 0, any := false, sat := false }

/-- A context slot's entry: words 0 and 1 of R87. -/
structure SlotEntry where
  w0 : W
  w1 : W
  deriving DecidableEq, Repr

def SlotEntry.empty : SlotEntry := { w0 := 0, w1 := 0 }

/-- DTU_CTX[k]: the entry in force, the pending entry and its front (R87). -/
structure CtxSlot where
  force : SlotEntry
  pending : SlotEntry
  front : W
  deriving DecidableEq, Repr

def CtxSlot.initial : CtxSlot := { force := .empty, pending := .empty, front := 0 }

/-- A band entry as received (R105). -/
structure BandEntry where
  w0 : W
  low : W
  high : W
  w3 : W
  deriving DecidableEq, Repr

/-- The run of an entry: the side it is out of band on and for how many consecutive data frames (R106). -/
structure BandRun where
  high : Bool
  count : Nat
  deriving DecidableEq, Repr

/-- A slot's band sets (R107): the one in force with the data frame it was derived from and its runs, and a complete
one waiting. `due` is the number of frames begun at which it may take effect. -/
structure BandSet where
  derived : Option Nat
  entries : List (Nat × BandEntry)
  runs : List (Nat × BandRun)
  waiting : Option (Nat × List (Nat × BandEntry))
  parts : List (Nat × Nat × List (Nat × BandEntry))   -- (derived frame, part, entries) of an incomplete set (R235)
  deriving DecidableEq, Repr

def BandSet.initial : BandSet := { derived := none, entries := [], runs := [], waiting := none, parts := [] }

/-- A data frame being closed (R93): its number, the configuration and slot table it was made under, its cells, the
domains incomplete in it, and the next cluster to close. -/
structure Closing where
  frame : Nat
  next : Nat
  begunAt : Nat                    -- FTC ns of the tick
  cfg : RegMap
  cfgSeq : List (Nat × Nat)
  slots : List SlotEntry
  cells : List (Nat × CellVal)
  domIncomplete : List Nat
  frost : List Nat                 -- clusters whose cells a Frost stopped in the frame (R99)
  flagged : Bool                   -- incomplete_frames counted for it
  looped : Option Nat              -- the cluster that a pattern generator fed in it (R442)
  deriving DecidableEq, Repr

/-- A contribution on the VC 1 queue: its work frame and its 136 words (R96, R97). -/
structure QueuedContrib where
  work : Nat                       -- frames begun when it was queued (R170)
  replay : Bool
  ctx : BitVec 16
  gen : Byte
  words : List W
  deriving DecidableEq, Repr

/-- A closed cluster as the retention store holds it, whether or not it served a slot (R102): its flags, dom_incomplete,
param_age per slot, sat_bitmap words and cell data. -/
structure RetCluster where
  cluster : Nat
  cfgSeq : Nat
  incomplete : Bool
  fenced : Bool
  frost : Bool
  doms : Nat
  ages : List Nat
  sat : List W
  data : List W
  deriving DecidableEq, Repr

/-- One data frame of the retention store (R102): the slot table, the closed clusters, and per closed cluster and slot the
contribution as first sent. -/
structure RetFrame where
  frame : Nat
  slots : List SlotEntry
  clusters : List RetCluster
  contribs : List (Nat × Nat × List W)
  deriving DecidableEq, Repr

/-- A RETAIN_REPLAY under way (R103): what is left to send, what was sent, and how it will complete. -/
structure Replay where
  handle : W
  left : List (BitVec 16 × Byte × List W)
  sent : Nat
  failure : Option (Nat × Bool)    -- first named frame not held (true) or without the context (false)
  deriving DecidableEq, Repr

/-- Everything the DTU measures with. -/
structure Cells where
  cfg : RegMap                     -- DTU_CELL_CFG and DTU_CLU_CFG as written (R81, R83, R90)
  force : RegMap                   -- the same in force
  cfgSeq : List (Nat × Nat)
  fronts : List (ProbeSource × Front)
  markers : List Nat               -- domains that have seen the marker of the running frame (R49)
  stopped : List Nat               -- domains with no edge since OBS_CLK_LOST (R40)
  held : List Nat                  -- domains whose obs_rst_n_i is asserted (R72)
  values : List (Nat × CellVal)    -- the running frame
  domIncomplete : List Nat         -- domains incomplete in the running frame
  frost : List Nat
  frozen : Bool                    -- cells stopped by a Frost (R427)
  slots : List CtxSlot
  latched : List SlotEntry         -- the slot table of the running data frame (R88)
  closing : Option Closing
  bands : List (Nat × BandSet)
  paramAge : List (Nat × Nat)      -- per slot, of the latest closure (R108)
  sendQueue : List QueuedContrib
  retention : List RetFrame        -- oldest first, at most 64 (R102)
  replays : List Replay            -- RETAIN_REPLAYs under way, in arrival order (R103, R378)
  looped : Option Nat              -- the cluster that a pattern generator feeds in the running frame (R442)
  deriving DecidableEq, Repr

def Cells.initial : Cells :=
  { cfg := [], force := [], cfgSeq := [], fronts := [], markers := List.range 16, stopped := [], held := [],
    values := [], domIncomplete := [], frost := [], frozen := false, slots := List.replicate 8 .initial,
    latched := List.replicate 8 .empty, closing := none, bands := [], paramAge := [], sendQueue := [],
    retention := [], replays := [], looped := none }

end Sys2Proof.Machine
end

