-- ==== Sys2Proof/Machine/StDtuDigest.lean ====
section
/-!
DEFINITION. The state of the DTU's digest channels (R132 to R142), sensors and margin handshake (R143 to R148) and
fault queues (R149 to R151).
-/
namespace Sys2Proof.Machine

/-- A leaf header (R134). -/
structure LeafHeader where
  version : Nat
  slot : Nat
  width : Nat
  last : Bool
  leaf : Nat
  block : Nat
  len : Nat
  deriving DecidableEq, Repr

/-- An open leaf: its header and the CRC-64/XZ register over the bytes taken so far (R135). -/
structure OpenLeaf where
  hdr : LeafHeader
  taken : Nat
  crc : Nat
  deriving DecidableEq, Repr

/-- A pending digest block (R137): `begun` counts frames to its timeout. -/
structure PendingBlock where
  slot : Nat
  version : Nat
  block : Nat
  width : Nat
  leaves : List (Nat × Nat × Nat × Bool)   -- (index, value, length, last)
  chan : Nat
  frame : Nat
  begun : Nat
  deriving DecidableEq, Repr

/-- The digest engine. -/
structure Digests where
  cfg : RegMap                     -- DTU_DIG_CFG, _WIN, _CACHE as written
  chanEn : Nat                     -- chan_en in force (R132)
  win : List (Nat × List W)        -- windows in force; the pending ones of PARAM take force at a tick
  winBefore : List (Nat × List W)  -- the windows of the frame before the one that runs (R142)
  cache : List (Nat × List W)
  winWaiting : List (Nat × List W)     -- received windows waiting for their tick (R107, R235)
  cacheWaiting : List (Nat × List W)
  openLeaves : List (Nat × OpenLeaf)
  pendingBlocks : List PendingBlock
  records : List (List W)          -- the record queue (R138)
  deriving DecidableEq, Repr

def Digests.initial : Digests :=
  { cfg := [], chanEn := 0, win := [], winBefore := [], cache := [], winWaiting := [], cacheWaiting := [], openLeaves := [],
    pendingBlocks := [], records := [] }

/-- A margin request (R146): its code and, when commanded, the handles that take its completion. -/
structure MarginReq where
  code : Nat
  commanded : Bool
  handles : List W
  deriving DecidableEq, Repr

/-- Sensors, throttle and margin. -/
structure Health where
  cfg : RegMap                     -- DTU_THERM_CFG, DTU_THERM_CRIT, DTU_MARGIN_CFG
  temp : BitVec 16                 -- latest sample (DTU_HEALTH_NOW)
  vcore : BitVec 16
  samples : List (BitVec 16 × BitVec 16 × BitVec 16)   -- the frame's samples: temp, vcore, vret
  level : Nat
  below : Nat
  throttle : Nat                   -- throttle_o
  pendingThrottle : Nat            -- driven at the next slot boundary
  lowRun : Nat
  driving : Option MarginReq       -- margin_req_o is non-zero
  acked : Bool                     -- margin_ack_i is high
  stalled : Bool
  drivenAt : Nat                   -- FTC ns when the code was driven
  waiting : List MarginReq
  acksV : Nat                      -- handshakes of the frame (R144)
  acksC : Nat
  naks : Nat
  locals : Nat
  deriving DecidableEq, Repr

def Health.initial : Health :=
  { cfg := [], temp := 0x8000, vcore := 0, samples := [], level := 0, below := 0, throttle := 0,
    pendingThrottle := 0, lowRun := 0, driving := none, acked := false,
    stalled := false, drivenAt := 0, waiting := [], acksV := 0, acksC := 0, naks := 0, locals := 0 }

/-- A queued fault message with its stamp (R149). -/
structure FaultMsg where
  message : BitVec 128
  tNs : Nat
  temp : BitVec 16
  vcore : BitVec 16
  repeats : Nat
  internal : Bool
  deriving DecidableEq, Repr

/-- The fault queues: port (32) and internal (8), and the drops counted in the frame (R149, R150). -/
structure FaultQueues where
  rst : Bool                       -- fault_rst_n_i is low (R66, R72)
  port : List FaultMsg
  own : List FaultMsg
  drops : Nat
  ledgerDue : List (BitVec 128)    -- LEDGER messages to raise at the next tick (R54, R55)
  deriving DecidableEq, Repr

def FaultQueues.initial : FaultQueues := { rst := false, port := [], own := [], drops := 0, ledgerDue := [] }

end Sys2Proof.Machine
end

