-- ==== Sys2Proof/Machine/StDtuTrace.lean ====
section
/-!
DEFINITION. The state of the DTU's trace path: sources, raw ring, compressor, state image and block ring
(R109 to R128).
-/
namespace Sys2Proof.Machine

/-- A trace record: four words (R109). -/
abbrev TraceRec := List W

/-- A record a source offers before it is stamped: type, aux and payload (R110). -/
structure TraceOffer where
  rtype : Nat
  aux : Nat
  payload : Nat
  ns : Option Nat                    -- its stamp where the offer fixed it (R112)
  deriving DecidableEq, Repr

/-- A captured record in the raw ring, with the whole of its capture time (R126). -/
structure RawRec where
  ns : Nat
  words : TraceRec
  deriving DecidableEq, Repr

/-- A trace block in the block ring: the wrapper's fields and the payload (R126). -/
structure TraceBlock where
  stream : Nat
  seq : Nat
  start : Bool
  final : Bool
  carry : Bool
  cause : Nat
  records : Nat
  firstNs : Nat
  lost : Nat
  dataCrc : W
  payload : List Byte
  deriving DecidableEq, Repr

/-- The compressor state image (R124): its words, window included; kept as the words the layout gives. -/
structure TraceImage where
  valid : Bool
  header : List W          -- bytes 0 to 11
  window : List Byte
  crc : W
  deriving DecidableEq, Repr

def TraceImage.none : TraceImage := { valid := false, header := [], window := [], crc := 0 }

/-- A command that waits for the trace path (R120, R124). -/
structure TraceWait where
  cause : Nat
  handle : Option W
  upTo : Nat                         -- records written to the raw ring before it was asked for
  deriving DecidableEq, Repr

/-- Everything on the trace path. -/
structure Trace where
  cfg : RegMap                       -- the trace registers of command space as written
  force : RegMap                     -- the same in force (R117)
  hostAux : Byte
  hostHi : W
  hostLo : W
  hostRefused : Nat
  capturing : Bool                   -- enable = 1 and capture not stopped
  frozen : Bool                      -- capture stopped by a Frost (R125)
  stream : Nat
  seq : Nat
  fresh : Bool                       -- the next block starts with empty history
  history : List Byte                -- the last 32 KiB of the stream
  class0 : List TraceOffer
  host : Option TraceOffer
  events : List (Nat × Nat)          -- events of a cell since its last record (R112)
  taps : List (Nat × Nat × Nat)      -- per tap: samples since its last record, newest sample
  dueCells : List Nat
  dueTaps : List Nat
  raw : List RawRec                  -- captured and not consumed
  rawWritten : Nat                   -- records ever written to and read from the ring: token positions (R115)
  rawRead : Nat
  openRecs : List TraceRec           -- consumed into the open block
  openPart : Nat                     -- bytes of the next record taken before a stop (R123)
  openFirst : Nat                    -- full capture time of its first record
  starved : Bool                     -- the compressor needs a block-ring token and none is free
  fullStop : Bool
  stopAt : Nat
  blocks : List TraceBlock           -- queued, oldest first
  sending : Option TraceBlock        -- its packet is crossing (R115)
  image : TraceImage
  restored : Bool                    -- a restore was made and the next enable continues the stream
  waits : List TraceWait
  losses : List Nat                  -- EVENT, TAP, HOST, other since the last LOSS record (R116)
  cut : Bool                         -- trace_cut (R125), always-on
  cutSaid : Bool                     -- the LOSS record of the cut is captured; its block is not closed
  deriving DecidableEq, Repr

/-- Reset words of DTU_TRC_CFG and DTU_TRC_SIZE. -/
def trcCfgReset : W := 0x58104010
def trcSizeReset : W := 0x20000400

def Trace.initial : Trace :=
  { cfg := [], force := [], hostAux := 0, hostHi := 0, hostLo := 0, hostRefused := 0,
    capturing := false, frozen := false, stream := 0, seq := 0, fresh := true, history := [], class0 := [],
    host := none, events := [], taps := [], dueCells := [], dueTaps := [], raw := [], rawWritten := 0,
    rawRead := 0, openRecs := [], openPart := 0, openFirst := 0, starved := false, fullStop := false, stopAt := 0, blocks := [],
    sending := none, image := .none, restored := false, waits := [], losses := [0, 0, 0, 0], cut := false,
    cutSaid := false }

end Sys2Proof.Machine
end

