-- ==== Sys2Proof/Machine/StTime.lean ====
section
/-!
DEFINITION. The state of a time unit (R153 to R170), of the DTU's triggers (R177) and of the ZA40's markers (R180).
-/
namespace Sys2Proof.Machine

/-- The four servo states (R159). -/
inductive TimeState
  | free | acquire | locked | holdover
  deriving DecidableEq, Repr

/-- The code a state reads as in TIME_STATE (R159). -/
def TimeState.code : TimeState → Nat
  | .free => 0
  | .acquire => 1
  | .locked => 2
  | .holdover => 3

/-- The counters of the time record, in its order (R182). -/
inductive TCnt
  | samples | missing | refusedJumps | refusedMaster | stepFlagRefused | holdoverEntries | lockEntries
  | stepsApplied | framesSkipped | framesStretched | firedUnlocked | trigSkipped | markDropped
  deriving DecidableEq, Repr

/-- The order in which the time record lists its counters (R182). -/
def TCnt.all : List TCnt :=
  [.samples, .missing, .refusedJumps, .refusedMaster, .stepFlagRefused, .holdoverEntries, .lockEntries,
   .stepsApplied, .framesSkipped, .framesStretched, .firedUnlocked, .trigSkipped, .markDropped]

/-- An armed step: s in whole ns and the frame F (R167). -/
structure ArmedStep where
  frame : Nat
  s : Int
  deriving DecidableEq, Repr

/-- A time unit. `ftc` is the FTC with its 16 fraction bits and 32 hidden bits as one number: units of 2^-48 ns
since the epoch; the seconds and nanoseconds fields are its quotient and remainder (R153, R154). `frame` is the
frame in force once ticks are issued and `nextFrame` the frame the next tick begins (R166 to R169). -/
structure TimeUnit where
  ftc : Nat
  rate : Nat             -- rate word: 2^-48 ns added at each time clock edge (R154)
  base : Nat             -- the rate the servo would hold without the correction under way (R161)
  state : TimeState
  ticking : Bool         -- the unit has entered LOCKED once and issues ticks (R160)
  frame : Nat
  nextFrame : Nat
  prevFrame : Nat        -- the frame the last tick ended
  begun : Nat            -- frames begun (R170)
  isSet : Bool           -- the FTC was set by a sample since FREE or the last TIME_RESYNC (R160, R165)
  run : Nat              -- consecutive samples within the lock threshold
  missed : Nat           -- consecutive sample intervals without a usable sample
  jumps : Nat            -- consecutive jumps (R163)
  armed : Option ArmedStep
  stepped : Bool         -- an armed step was applied and no Time Port word has followed (R172)
  residual : Int         -- commanded residual still unslewed, 2^-48 ns (R167)
  offset : Int           -- last sample, 2^-16 ns (R181)
  utcOffset : BitVec 16  -- currentUtcOffset received (R153)
  skipped : Nat          -- frames skipped at the last tick or step, for the frame summary (R166, R170)
  stretched : Nat
  shift : Int            -- ns by which steps have moved the FTC since the last tick (R166, R168, R169)
  lastLength : Int       -- ns of the frame that ended at the last tick (R166)
  gaps : List (Nat × Nat)    -- ticks that ended a skip: the frame begun and the frames skipped, newest first (R170)
  counters : List (TCnt × Nat)
  deriving DecidableEq, Repr

/-- A time unit at power-on, its rate word nominal (R159). -/
def TimeUnit.initial (nominal : Nat) : TimeUnit :=
  { ftc := 0, rate := nominal, base := nominal, state := .free, ticking := false, frame := 0, nextFrame := 0,
    prevFrame := 0, begun := 0, isSet := false, run := 0, missed := 0, jumps := 0, armed := none, stepped := false,
    residual := 0, offset := 0, utcOffset := 0, skipped := 0, stretched := 0, shift := 0, lastLength := 0, gaps := [],
    counters := [] }

/-- A DTU trigger or a ZA40 marker (R177, R180): the written words 0 to 4, and what firing has left. `next` is the
instant it is armed for, `last` the last instant fired. -/
structure Trigger where
  w0 : W
  start : Nat
  period : W
  count : W
  fired : W
  next : Nat
  last : Option Nat
  seq : BitVec 16        -- pulses fired by a marker, modulo 2^16 (R180)
  deriving DecidableEq, Repr

/-- A trigger after reset: width 1, everything else 0 (R177). A marker's word 0 resets to 0 (R180). -/
def Trigger.initial (w0 : W) : Trigger :=
  { w0 := w0, start := 0, period := 0, count := 0, fired := 0, next := 0, last := none, seq := 0 }

/-- What the Time Port has received since the last slot pulse (R58, R59): the last complete word (seconds,
nanoseconds, fraction beat), whether the running slot has had its sample, and the slots without one that have been counted
as missing since the last TIME_SYNC (R159, R173). -/
structure TimePort where
  word : Option (Nat × Nat × W)
  stepRefusals : Bool    -- an unbroken run of step = 1 refusals is under way (R172)
  uncorrected : Nat      -- pulses with no complete word (R59)
  extraWords : Nat       -- words that arrived beyond one between two pulses (R59)
  lastSeq : Option (BitVec 16)  -- seq of the last TIME_SYNC (R173)
  echoSeq : BitVec 16
  sampled : Bool
  absent : Nat
  deriving DecidableEq, Repr

def TimePort.initial : TimePort :=
  { word := none, stepRefusals := false, uncorrected := 0, extraWords := 0, lastSeq := none, echoSeq := 0, sampled := false,
    absent := 0 }

end Sys2Proof.Machine
end

