-- ==== Sys2Proof/Machine/StDtu.lean ====
section
/-!
DEFINITION. The whole state of the Finlos DTU.
-/
namespace Sys2Proof.Machine

/-- The DTU's status counters, in the order of R108, R128 and R152, then the discards its rules count without naming
a record. -/
inductive DCnt
  | lateContrib | closureLimit | incompleteFrames | satCells | replaySent | bandSkipped | bandInvalid | bandStale
  | flagsLo (k : Nat) | flagsHi (k : Nat)
  | refused (k : Nat) | lossRecords | fullStops | fullStopNs | blocksCommitted | blocksSent | blocksDiscarded
  | streams | saves | restores | restoreFailed
  | leaves | blocks | framingErr | errDup | errTimeout | pendFull | recDrop | localMatch | localMismatch
  | localInvalid | marginLocal | marginCmd | marginNak | marginMerged | marginSuppressed | marginDiscarded
  | faultAccepted | faultMerged | internalDrop
  | badAddr | badHcrc | badTver | fabricMismatch | classMisuse | badLen | stale | lseqGap (c : Nat) | creditOver
  | heldNs (vc : Nat) | linkResets (reason : Nat)
  | rxNoCredit | rxDiscard | huskCrc | bulkDrop
  deriving DecidableEq, Repr

/-- The Host Port, its integration registers and the tag area (R41 to R46, R76 to R78). -/
structure HostSide where
  ack : Bool                       -- outputs of the last access
  err : Bool
  rdata : W
  compat5 : Bool
  compat5Active : Bool
  timeSrc : Nat                    -- DTU_TIME_CFG.src in force
  timeSrcNext : Nat                -- as written
  latRx : W
  latRxNext : W
  latTx : W
  latTxNext : W
  tag : Memory
  sealed : Bool
  refusedWrites : Nat
  refused : Bool                   -- a refusal of R78 holds: no HELLO until the tag is rewritten after a pin reset
  irqStatus : W
  irqEnable : W
  clkLost : BitVec 16              -- DTU_OBS_STATUS.clk_lost
  deriving DecidableEq, Repr

def HostSide.initial : HostSide :=
  { ack := false, err := false, rdata := 0, compat5 := false, compat5Active := false, timeSrc := 0,
    timeSrcNext := 0, latRx := 0, latRxNext := 0, latTx := 0, latTxNext := 0, tag := [], sealed := false,
    refusedWrites := 0, refused := false, irqStatus := 0, irqEnable := 0, clkLost := 0 }

/-- The Uplink Port and its Triheud endpoint (R51 to R56, R74, R346 to R354). Lists are indexed by VC 0 to 3, or by
class 0 to 7 for sequence numbers. -/
structure DtuLink where
  linkState : Nat
  version : Nat                    -- agreed version, major [7:4], minor [3:0]; 0 before agreement
  beatSum : List Nat               -- beat credits returned since the link reset (R54)
  beatLimit : List (Option Nat)
  beatHeld : List Nat
  ledgerSaid : List Bool           -- the minimum fault was reported for this link reset
  slotsUp : Nat                    -- slot boundaries since the link reset ended
  rst : Bool                       -- ul_rst_n_i is low
  resetting : Bool                 -- a link reset is under way, until the next clock edge
  rxGranted : List Nat             -- beat credits the path holds
  rxOwed : List Nat                -- beat credits still to be returned to the path, per VC (R54)
  crdVc : Option Nat               -- ul_rx_crd_vld_o and ul_rx_crd_vc_o of this cycle
  crdNext : Nat                    -- the VC whose turn it is to be returned a credit
  pools : List Pool
  lseqTx : List W
  lseqRx : List W
  vc0 : List TxFrame
  vc2 : List TxFrame               -- health records
  vc3 : List TxFrame
  helloSeq : W
  helloWait : Bool                 -- sealed in link_state 1: the first HELLO waits for the next slot boundary (R74)
  helloFirst : W                   -- hello_seq of the first HELLO since link_state 2 was entered (R347)
  helloPeriod : Nat                -- 2^20 ns period of the last HELLO (R74)
  peerSeen : Bool
  peerVercap : W                   -- vercap of the peer's last HELLO; 0 before one
  admitted : Bool
  aggMac : Mac                     -- link address of the admitting aggregator (R371)
  fabricId : BitVec 16
  ethertype : BitVec 16
  aggId : BitVec 12
  ulRate : W                       -- DTU_UL_RATE as written
  shaper : Shaper                  -- the same in force, with its virtual time (R361)
  badHcrcRun : Nat                 -- consecutive bad_hcrc (R354)
  resetReasonDue : Option Nat      -- a LINK_RESET to send before the link resets
  creditOwed : Bool                -- returned or hold has changed since the last CREDIT (R352)
  echoes : List (W × Nat)          -- echo ids sent and the stamp of each (R353, R442)
  rtt : List Nat                   -- round trips measured, ns
  wire : Option Frame              -- the frame last put on the uplink
  deriving DecidableEq, Repr

def DtuLink.initial : DtuLink :=
  { linkState := 1, version := 0, beatSum := [0, 0, 0, 0], beatLimit := [none, none, none, none],
    beatHeld := [0, 0, 0, 0], ledgerSaid := [false, false, false, false], slotsUp := 0,
    rst := false, resetting := false, rxGranted := [0, 0, 0, 0], rxOwed := [128, 128, 128, 128], crdVc := none, crdNext := 0,
    pools := List.replicate 4 .initial, lseqTx := List.replicate 8 0,
    lseqRx := List.replicate 8 0, vc0 := [], vc2 := [], vc3 := [], helloSeq := 0, helloWait := false, helloFirst := 0,
    helloPeriod := 0, peerSeen := false, peerVercap := 0, admitted := false, aggMac := 0, fabricId := 0, ethertype := 0x88B5,
    aggId := 0, ulRate := 0x000A0040, shaper := { enabled := true, rate := 10, burst := 65536, v := 0 },
    badHcrcRun := 0, resetReasonDue := none, creditOwed := false, echoes := [], rtt := [], wire := none }

/-- A DTU's Frost snapshot (R427, R440): what its scan-out holds. -/
structure DtuSnapshot where
  frame : Nat
  cells : List (Nat × W × List W)      -- cluster, word 0, sat and cell words
  domains : List (Nat × Nat)           -- domain, FTC at which its stop marker was seen
  links : List (Nat × W × W)           -- class, sent_at_T, recv_at_T
  slots : List SlotEntry
  deriving DecidableEq, Repr

/-- A captured frame (R430): link, class, lseq and the frame. -/
structure Captured where
  link : Nat
  cls : Nat
  lseq : W
  frame : Frame
  deriving DecidableEq, Repr

/-- The DTU's Frost (R425 to R437): state 0 idle, 1 armed, 2 frozen. -/
structure DtuFrost where
  state : Nat
  full : Bool
  smear : Bool
  lateArm : Bool
  cutComplete : Bool
  stepped : Bool
  lull : Bool
  spoiled : Bool                   -- a condition of R431 failed since T
  frostId : W
  t : Nat
  seen : List W                    -- frost_ids of NOW messages seen (R433)
  stopNs : Nat
  timeState : Nat
  thawAt : Option Nat
  snapshot : Option DtuSnapshot
  capture : List Captured
  capFull : Bool
  windowEnd : Option Nat           -- end of the capture window
  unseen : List Nat                -- domains that have not seen the stop marker of a stop (R49, R427)
  deriving DecidableEq, Repr

def DtuFrost.initial : DtuFrost :=
  { state := 0, full := false, smear := false, lateArm := false, cutComplete := false, stepped := false,
    lull := false, spoiled := false, frostId := 0, t := 0, seen := [], stopNs := 0, timeState := 0, thawAt := none,
    snapshot := none, capture := [], capFull := false, windowEnd := none, unseen := [] }

/-- Lull and reset state of the DTU (R66, R68, R460 to R463). -/
structure DtuPower where
  por : Bool                       -- por_n_i is low
  rst : Bool                       -- rst_n_i is low
  soft : Bool                      -- a soft reset is under way, until the next clock edge
  pgCore : Bool                    -- pg_core_i as last seen, high for 64 time_clk_i cycles
  pgRet : Bool                     -- pg_ret_i likewise
  lullReq : Nat                    -- lull_req_i as last seen
  lullRdy : Bool
  lull : Nat                       -- the Lull state the DTU is in; 0 running
  lastReset : Nat
  lullLast : Nat
  lullEntries : Nat
  lullAsked : Bool                 -- the LULL record of the request is captured and the closure of cause 5 asked for (R125)
  softDue : Bool                   -- a soft reset takes effect at the next slot boundary
  lullInFrame : Bool               -- part of the running frame was spent in a Lull state (R98)
  traceSaved : Bool                -- Lull-2 saved the compressor state and exit restores it (R125)
  clearAtExit : Bool               -- a tick fell in Lull-1: non-cumul cells clear at exit (R463)
  deriving DecidableEq, Repr

def DtuPower.initial : DtuPower :=
  { por := false, rst := false, soft := false, pgCore := true, pgRet := true,
    lullReq := 0, lullRdy := false, lull := 0, lastReset := 0, lullLast := 0, lullEntries := 0,
    lullAsked := false, softDue := false, lullInFrame := false, traceSaved := false, clearAtExit := false }

/-- A LOOP_TEST under way on the DTU (R442): its depth and cluster, and whether its data frame has begun. -/
structure DtuLoop where
  handle : W
  depth : Nat
  cluster : Nat
  started : Bool
  deriving DecidableEq, Repr

/-- The commands the DTU holds (R372, R377). -/
structure DtuCmds where
  cache : List CacheEntry
  longs : List DtuLong
  loop : Option DtuLoop
  status : Nat                     -- status the last register write earned (R382)
  deriving DecidableEq, Repr

def DtuCmds.initial : DtuCmds := { cache := [], longs := [], loop := none, status := 0 }

/-- The Finlos DTU. -/
structure Dtu where
  build : Build
  host : HostSide
  cells : Cells
  trace : Trace
  digests : Digests
  health : Health
  faults : FaultQueues
  time : TimeUnit
  timeCtl : W                      -- DTU_TIME_CTL
  timeServo : W                    -- DTU_TIME_SERVO
  port : TimePort
  trigs : List Trigger
  trigHigh : List Nat              -- time_clk_i cycles for which trig_o[i] stays high (R177)
  link : DtuLink
  cmds : DtuCmds
  frost : DtuFrost
  power : DtuPower
  factory : Bool
  injected : Nat
  injections : List Injection
  hailDue : Option Nat             -- frame begun for which a Hail has not been sent
  hailSeq : BitVec 16
  counters : List (DCnt × Nat)
  deriving DecidableEq, Repr

/-- The DTU after a host power-on reset (R462): link_state is 1 as the reset has ended (R74). -/
def Dtu.initial (b : Build) : Dtu :=
  { build := b, host := .initial, cells := .initial, trace := .initial, digests := .initial, health := .initial,
    faults := .initial, time := .initial b.timePeriod, timeCtl := 0x3E8, timeServo := 0x64, port := .initial,
    trigs := List.replicate 4 (.initial 0x00010000), trigHigh := [0, 0, 0, 0], link := .initial, cmds := .initial,
    frost := .initial, power := .initial, factory := false, injected := 0, injections := [], hailDue := none, hailSeq := 0,
    counters := [] }

end Sys2Proof.Machine
end

