-- ==== Sys2Proof/Config.lean ====
section
/-!
DEFINITION. The free values of the model: constants without a body, one for each value that the spec leaves open.
Nothing can be proved of what they answer. A fresh value is `freeNat` of the counter that State holds.
-/
namespace Sys2Proof.Config

/-- A fresh unstated number: the model's counter chooses which (log entry 1). -/
opaque freeNat : Nat → Nat

/-- A fresh unstated signed number. -/
opaque freeInt : Nat → Int

/-- A fresh unstated word. -/
opaque freeWord : Nat → BitVec 32

/-- The rate the servo would hold after a sample, beside nominal, and the correction it applies to it, in 2^-48 ns per edge,
before the limits of R161. -/
opaque servoBase : Nat → Int → Int
opaque servoRate : Nat → Int → Int

/-- The converter's reading as the sof beat of a DTU's packet leaves, in 1/64 of a time clock period (R175). -/
opaque txPhase : Nat → Nat

/-- The factory calibration of a PTP port: lat_rx (word 0) and lat_tx (word 1) (R158). -/
opaque factoryLat : Nat → Nat → BitVec 32

/-- Which datum within one unit of the exact value the one fixed algorithm of R248, R265 and R278 gives (log 86): the function
(LOG2, exp, logistic, SIGMOID, TANH, EXP) and the operand's bits. -/
opaque ulpPick : Nat → Nat → Fin 3

/-- A product of two binary32 numbers in a MATMUL of fp32 weights, whose rounding R277 does not state. -/
opaque fp32Product : BitVec 32 → BitVec 32 → BitVec 32

/-- What a place of a tile's activation area holds that no operation of the batch has written (R273). -/
opaque staleActivation : Nat → Nat → BitVec 32

/-- The DEFLATE payload a level from 1 to 3 makes of a block, closing bytes included: level, whether the stream's data end
with it, window, bytes (R118, R119: the choice of matches and codes is no part of the contract). -/
opaque deflateBytes : Nat → Bool → List (BitVec 8) → List (BitVec 8) → List (BitVec 8)

/-- The two vendor key hashes in the mask ROM (R204). -/
opaque vendorHash : Bool → BitVec 256

/-- Whether the scoring of an entity by a score index has used a code word of a region (R189): region, word, score, entity. -/
opaque scoredWith : Nat → Nat → Nat → Nat → Bool

/-- The aggregator that hosts a die which no DTU of ours carries (R16, R21: fabric software and the job place the ranks). -/
opaque hostOf : Nat → Nat

/-- The observed domain of a cell of a die whose build we do not know (R82). -/
opaque obsDomain : Nat → Nat → Nat

/-- The link by which a frame for an aggregator that is no neighbour leaves (R344: the spec gives no routes), and which of
its links its address names. -/
opaque nextHop : Nat → Nat
opaque aggLink : Nat → Nat

/-- The latest GaN-die reading of a supply rail, by unit kind and unit, of which a fault record carries one (R396). -/
opaque railReading : Nat → Nat → BitVec 16

/-- The frost_id of a Frost that ZA_FROST_CFG.trig_kind issues (R434). -/
opaque autoFrostId : Nat → BitVec 32

/-- The rate and burst a ZA40 gives a DTU in ADMIT, before they are brought into the ranges of DTU_UL_RATE (R347, R361). -/
opaque admitRate : Nat → Nat
opaque admitBurst : Nat → Nat

/-- The optical ports behind which the boot ROM finds a neighbour aggregator (R205: the rack's wiring). -/
opaque bootNeighbour : Nat → Bool

/-- Whether a unit under self-test passes: what the silicon does is no rule of the spec (R444). -/
opaque selfTestPasses : Nat → Bool

/-- Our clockIdentity, and clockClass, clockAccuracy and variance where we may be grandmaster: 0, 1 and 2 (R155). -/
opaque clockIdentity : BitVec 64
opaque clockQuality : Nat → Nat

/-- FEC symbols that a port's PCS has corrected during a test (R443). -/
opaque fecCorrected : Nat → BitVec 32

/-- What lies at an address of a memory region: its place among the things the region holds (R184: the layout inside a region
is firmware's). -/
opaque placeOf : Nat → Nat → Nat

end Sys2Proof.Config
end

