-- ==== Sys2Proof/Machine/StZaLink.lean ====
section
/-!
DEFINITION. The ZA40's status counters, its links, its PTP ports and its table of DTUs (R155 to R174, R182, R337 to R366,
R410 to R412, R464).
-/
namespace Sys2Proof.Machine

/-- The counters of the link record (R366), kept per link and, where named, per class, DTU or flow. -/
inductive LinkCnt
  | fcsErr | macDrop | badAddr | badHcrc | badTver | fabricMismatch | classMisuse | badLen | stale
  | lseqGap | creditOver | heldNs | gateOversize | policeDrop | fwdTraceDrop | fwdBulkDrop | linkResets
  deriving DecidableEq, Repr

/-- The counters of the reduction record, per context (R239). -/
inductive RedCnt
  | absentMissing | absentCrc | absentConfig | absentMemory | absentScale | lateArrival | duplicate | misroute
  | wrongFrame | overflow | reruns | rerunAbandoned | scaleFallback | podWait | podWaitLate | reorderFull
  | reorderSkip | reorderDup | paramFull | paramConfirm
  deriving DecidableEq, Repr

/-- The counters of the ensemble record, per context (R272). -/
inductive EnsCnt
  | rowsWritten | rowsLate | rowsInvalid | nanToInt | arithMissing | extLate | items | visits | visitsSpilled
  | missTaken | nanSeen | catRange | checks | disagreements | arbitrated | backlog | rescored | unscoredSplit
  | scoresLate
  deriving DecidableEq, Repr

/-- The counters of the tensor and model record, per context (R312). -/
inductive TenCnt
  | batches | batchesLate | tileCycles | reruns | nanOut | stateReset | loads | fetchFail | badSource | swaps
  | swapsDeferred | comparisons | expulsions | replicaTimeout | noMajority | served
  deriving DecidableEq, Repr

/-- The counters of the detector record (R336); the Seedbank's five are held once. -/
inductive DetCnt
  | observations | obsNone | peerSmall | toSuspect | toConfirmed | toNormal | latched | verdicts | refreshes
  | left | actionsMargin | actionsFence | detLate | restarts | stateReset | restores | bandSets | bandTrunc
  | cacheChanges | seedUpdates | seedAcks | seedNacks | seedAbandoned | seedItems
  deriving DecidableEq, Repr

/-- What the rules count without naming a record: husk_crc (R369), late replies of DTUs (R371), ignored PTP messages
(R155), ignored tag writes (R7), keomon's counts (R388 to R391), forwarding drops of R189, TRACE frames whose hdr_crc fails
(R127). -/
inductive MiscCnt
  | huskCrc | lateReply | ptpIgnored | tagIgnored | keomonBad | keomonGap | keomonReserved | keomonConsoleDrop
  | forwardDrop | corrections | proofOfLife | traceBadHdr
  deriving DecidableEq, Repr

/-- A counter of the ZA40. -/
inductive ZCnt
  | link (c : LinkCnt) (p : Nat) (sub : Nat)
  | red (c : RedCnt) (entry : Nat)
  | ens (c : EnsCnt) (entry : Nat)
  | ten (c : TenCnt) (entry : Nat)
  | det (c : DetCnt) (entry : Nat)
  | misc (c : MiscCnt)
  deriving DecidableEq, Repr

/-- The Triheud endpoint of one pair: per class sequence numbers, and pools per VC on a DTU pair, per class otherwise
(R350 to R352). -/
structure Endpoint where
  pools : List Pool
  lseqTx : List W
  lseqRx : List W
  creditDue : Bool                 -- returned or hold has changed since the last CREDIT
  echoes : List (W × Nat)          -- echo ids sent and their stamps
  rtt : List Nat                   -- the last 64 round trips, ns
  deriving DecidableEq, Repr

def Endpoint.initial (pools : Nat) : Endpoint :=
  { pools := List.replicate pools .initial, lseqTx := List.replicate 8 0, lseqRx := List.replicate 8 0,
    creditDue := true, echoes := [], rtt := [] }

/-- A frame waiting on a link, with the FTC at which it was queued (R357 to R359). -/
structure Queued where
  frame : TxFrame
  at_ : Nat
  die : Option Nat                 -- the DTU endpoint it goes to
  deriving DecidableEq, Repr

/-- One link p (R337). -/
structure ZaLink where
  state : Nat                      -- 0 down; 1 signal; 2 hello; 3 up; 4 version; 5 fabric; 6 looped
  version : Nat
  peer : Option Mac                -- source address of the peer's HELLO
  peerAgg : Nat                    -- its aggregator ID (R339)
  peerFabric : Nat
  peerVercap : W
  peerRack : Nat
  helloSeen : Bool                 -- a HELLO from this peer has arrived
  peerSeen : Bool                  -- and it said that it has seen ours
  credited : Bool                  -- the peer's first CREDIT has arrived
  helloSeq : W
  ends : Endpoint                  -- the pair with a ZA40 or COLLECTOR peer
  queue : List Queued
  gates : GateList                 -- in force
  gatesNext : Option GateList      -- committed, applied at the next tick
  shapers : List Shaper            -- one per class, in force
  policers : List (Nat × Shaper)   -- flows: class (R362)
  policeRuns : List (Nat × Nat × Bool)   -- class or die, frames in a row with drops, and a drop in this frame
  ctlAllow : List (Nat × Nat)      -- bytes left this frame per context-table entry (R358)
  redAllow : List (Nat × Nat)
  bulkHeld : Bool                  -- we hold BULK on this link (R363)
  badHcrcRun : Nat
  looped : Nat                     -- loop code in force (R365)
  ether : BitVec 16                -- EtherType in force since the link last started (R340)
  strays : List (Nat × BitVec 16)  -- DTUs refused as duplicates that are sent TIME_SYNC here all the same: die ID, seq (R173)
  ledgers : List Nat               -- begun counts of its LINK_CREDIT ledger faults (R400, R403)
  wire : Option Frame              -- the frame last put on the link
  deriving DecidableEq, Repr

def ZaLink.initial : ZaLink :=
  { state := 0, version := 0, peer := none, peerAgg := 0, peerFabric := 0, peerVercap := 0, peerRack := 0,
    helloSeen := false, peerSeen := false, credited := false, helloSeq := 0, ends := .initial 8, queue := [],
    gates := .default, gatesNext := none,
    shapers := List.replicate 8 { enabled := false, rate := 0, burst := 65536, v := 0 },
    policers := [], policeRuns := [], ctlAllow := [], redAllow := [], bulkHeld := false, badHcrcRun := 0, looped := 0, ether := 0x88B5,
    strays := [], ledgers := [], wire := none }

/-! ### PTP. -/

/-- A PTP frame of ours (R155): its sequence number and what it carries. A Follow_Up gives the departure of its Sync, a
Delay_Resp the requester and the arrival of its Delay_Req. -/
inductive PtpOut
  | sync (seq : BitVec 16)
  | followUp (seq : BitVec 16) (origin : Stamp)
  | delayReq (seq : BitVec 16)
  | delayResp (seq : BitVec 16) (requester : BitVec 64) (received : Stamp)
  | announce (seq : BitVec 16) (data : AnnounceData)
  deriving DecidableEq, Repr

/-- One PTP port (R155, R156). -/
structure PtpPort where
  state : Nat                      -- port_state of R158
  best : Option AnnounceData       -- the data set last announced to this port
  sync : Option (BitVec 16 × Stamp)    -- a two-step Sync that awaits its Follow_Up, and its ingress stamp
  syncSeq : BitVec 16
  delaySeq : BitVec 16
  delayAt : Option (BitVec 16 × Stamp) -- our Delay_Req awaiting Delay_Resp, and its egress stamp
  syncStep : Option Int            -- slave minus master at the last Sync
  delay : Option Int               -- mean path delay, 2^-16 ns
  served : Option (BitVec 16 × Stamp)  -- a Delay_Req answered: the requester's sequence and our stamp
  out : List (Nat × PtpOut)        -- frames that wait in the TIME class, with the FTC ns at which each was queued
  wire : Option PtpOut             -- the PTP frame last put on the link
  deriving DecidableEq, Repr

def PtpPort.initial : PtpPort :=
  { state := 0, best := none, sync := none, syncSeq := 0, delaySeq := 0, delayAt := none, syncStep := none, delay := none,
    served := none, out := [], wire := none }

/-- The PTP engine: the parent followed, a new parent under test (R164), and whether the running Sync interval of the parent
has had its sample (R159). -/
structure Ptp where
  ports : List (Nat × PtpPort)
  parent : Option Nat
  parentId : BitVec 64
  refused : Option (BitVec 64)     -- the new parent that stands refused
  sampled : Bool
  lat : RegMap                     -- latencies in force
  deriving DecidableEq, Repr

def Ptp.initial : Ptp := { ports := [], parent := none, parentId := 0, refused := none, sampled := false, lat := [] }

/-! ### The DTUs of the tray. -/

/-- A context slot of a DTU as the tray has written it (R87, R89, R416). -/
structure DtuSlot where
  slot : Nat
  ctx : Nat
  gen : Nat
  rank : Nat
  first : Nat                      -- Front of its first data frame
  last : Option Nat                -- Front from which it is no longer valid
  deriving DecidableEq, Repr

/-- The tray's echo measurement of a DTU (R174). -/
structure EchoMean where
  count : Nat
  sum : Int                        -- 2^-16 ns
  mean : Option Int                -- of the last 64, 2^-16 ns
  deriving DecidableEq, Repr

/-- A DTU that this tray serves: its admission, configuration books, liveness and parameter books. -/
structure DieEntry where
  die : Nat
  link : Nat
  tag : List W                     -- tag bytes 0x00 to 0x1F of its HELLO
  vercap : W
  version : Nat
  admitted : Bool
  timeSync : Bool                  -- TIME_SYNC is being sent (R173)
  syncSeq : BitVec 16
  echo : EchoMean
  ends : Endpoint                  -- pools per VC
  rate : Nat
  burst : Nat
  policer : Shaper
  bulkHeld : Bool                  -- VC 2 held
  slots : List DtuSlot
  cfg : RegMap                     -- its DTU_CELL_CFG and DTU_CLU_CFG as our completed writes left them
  cfgFrame : List (Nat × Nat)      -- cluster, cfg_seq in force for the data frame now being worked (R83)
  cfgDue : List (Nat × Nat)        -- cluster, frames begun when our write completed
  live : Nat                       -- 0 no DTU; 1 ALIVE; 2 SUSPECT; 3 DEAD
  missed : Nat
  onTime : Nat
  hailed : Bool                    -- a Hail for the running frame has arrived
  hailDue : Bool                   -- a whole frame has begun since its admission: a Hail is expected
  claim : Nat
  claimRun : Nat                   -- frames for which the claim has stood against an ALIVE die
  claimSaid : Bool
  fenced : Option Nat              -- the data frame from which it is fenced (R406)
  fencedClusters : List Nat
  admGen : Nat
  hold : Nat                       -- Lull state of a LULL_HOLD; 0 none
  holdFrom : Nat
  holdEnds : Bool                  -- admitted again under a hold: its next Hail on time ends it (R464)
  sentBands : List (Nat × Nat × List (List W))  -- slot, derived frame, entries last sent
  paramAge : List (Nat × Nat)      -- slot, derived frame of the band set that its latest contribution says it holds
  cache : List (Nat × List W × Nat)    -- its digest cache as we last wrote it: index, entry, frames begun at its last match
  blocks : List (Nat × Nat × Nat)  -- slot, digest block it completed, frames begun then (R327)
  wins : List (Nat × Nat × Nat × Nat × Nat)    -- slot, weight swap last sent to it: v_a, v_b, S, O (R236)
  absences : List (Nat × Nat × Nat)     -- context-table entry, consecutive absent frames, causes (R227)
  readmitDue : Bool                -- READMIT accepted: it is admitted at its next HELLO (R412)
  slotDue : List (Nat × Nat)       -- slot, Front of a change of its DTU_CTX not yet written (R89)
  slotPend : List (Nat × Nat)      -- slot, front written and not yet come (R89)
  deriving DecidableEq, Repr

end Sys2Proof.Machine
end

