-- ==== Sys2Proof/Machine/StZaCtx.lean ====
section
/-!
DEFINITION. Contexts, their plans and changes, sync objects and the command books of the ZA40 (R17 to R28, R191 to R197,
R371 to R383).
-/
namespace Sys2Proof.Machine

/-- The states of a context-table entry that is not FREE (R195). -/
inductive CtxState
  | admitted | active | draining | releasing
  deriving DecidableEq, Repr

def CtxState.code : CtxState → Nat
  | .admitted => 1
  | .active => 2
  | .draining => 3
  | .releasing => 4

/-- Words 4 to 12 of a context-table entry (R195). -/
structure Quotas where
  podMax : Nat
  podMin : Nat
  sync : Nat
  handles : Nat
  modelPages : Nat
  digestTables : Nat
  ensCost : Nat
  tensorCost : Nat
  featCost : Nat
  detCost : Nat
  ctlMin : Nat
  redMin : Nat
  deriving DecidableEq, Repr

/-- A member: its rank and its die (R21). -/
structure Member where
  rank : Nat
  die : Nat
  deriving DecidableEq, Repr

/-- A membership change accepted for a Front (R25, R26): op 0 join, 1 leave, 2 move. -/
structure Change where
  front : Nat
  op : Nat
  rank : Nat
  die : Nat
  handle : W
  deriving DecidableEq, Repr

/-- The kinds of plan (R26). -/
inductive PlanKind
  | pod | die | tile | det
  deriving DecidableEq, Repr

/-- A plan accepted for a Front: its words as the command gave them. -/
structure PendingPlan where
  kind : PlanKind
  front : Nat
  words : List W
  handle : W
  deriving DecidableEq, Repr

/-- A Pod plan (R208): the mask, sixteen HIST descriptors, and the cells that are not OFF, each with its 16 bits of the
cell map. -/
structure PodPlan where
  mask : Nat
  hists : List (List W)
  cells : List (Nat × Nat)
  deriving DecidableEq, Repr

def PodPlan.empty : PodPlan := { mask := 0, hists := [], cells := [] }

/-- The plans in force: the Pod plan, the two feature plans with their sequence numbers (R241), the detector plan, and
the words of each as its command gave them. -/
structure Plans where
  pod : PodPlan
  podWords : List W
  die : List (List W)
  dieSeq : Nat
  tile : List (List W)
  tileSeq : Nat
  det : List (List W)
  deriving DecidableEq, Repr

def Plans.empty : Plans := { pod := .empty, podWords := [], die := [], dieSeq := 0, tile := [], tileSeq := 0, det := [] }

/-- What stands for one data frame: membership, plans, expected clusters of the tray's dies, sequence bases of the
channels, and the model versions pinned, each (slot, model_id, version, scored) (R24, R208, R209, R301). -/
structure CtxView where
  frame : Nat
  begun : Nat
  epoch : Nat
  members : List Member
  plans : Plans
  masks : List (Nat × Nat)         -- die, clusters whose ctx_mask holds the context's slot bit
  base : List Nat                  -- Pods of each channel before this frame
  pins : List (Nat × W × Nat × Bool)
  deriving DecidableEq, Repr

/-- A feature plan in parts (R383): kind (tile), Front, total, words so far, frames begun at its last part. -/
structure Staging where
  tile : Bool
  front : Nat
  total : Nat
  words : List W
  at_ : Nat
  deriving DecidableEq, Repr

/-- A weight version swap as declared, and the frames begun at the tick that began S + O once it has come (R139, R170). -/
structure Swap where
  first : Nat
  overlap : Nat
  va : Nat
  vb : Nat
  ended : Option Nat
  deriving DecidableEq, Repr

/-- A resident context (R17 to R28, R195). -/
structure Ctx where
  id : Nat
  gen : Nat
  state : CtxState
  epoch : Nat
  start : Nat
  stop : Option Nat                -- D
  admitHandle : W                  -- 0: none waits
  tearHandle : W
  q : Quotas
  members : List Member
  changes : List Change
  plans : Plans
  pending : List PendingPlan
  staging : List Staging
  views : List CtxView             -- newest first
  base : List Nat                  -- Pods of each channel so far
  next : List Nat                  -- next expected seq of each channel's reorder window (R231)
  held : List (Nat × Nat × List W) -- channel, seq, result held in its window
  skipped : List (Nat × Nat)       -- channel, seq skipped and not yet come
  single : Option Nat              -- the one version held before any swap (R139)
  swaps : List Swap
  tables : List (Nat × List (Nat × List W))   -- weight_version, entries by block index (R140)
  subs : List (Mac × Bool × Nat)   -- subscriber, keomon, mask
  overruns : List (Nat × Nat)      -- phase, consecutive late frames (R34)
  childRuns : List (Nat × Nat × Nat)   -- height, consecutive absences, causes of a child (R227)
  deriving DecidableEq, Repr

/-! ### Sync objects. -/

/-- A hardware event source (R192). -/
inductive SyncSource
  | channel (c : Nat) | tick | scoring | front | handle (h : W)
  deriving DecidableEq, Repr

/-- An allocated sync object (R191): its owner is a context ID and generation. -/
structure SyncObj where
  value : Nat
  overflow : Bool
  ctx : Nat
  gen : Nat
  source : Option SyncSource
  deriving DecidableEq, Repr

/-- A parked wait (R191, R193): the handle of a SYNC_WAIT or of a chained command. -/
structure Wait where
  handle : W
  obj : Nat
  v : Nat
  order : Nat
  deriving DecidableEq, Repr

/-- The commands that a ZA40 holds (R371 to R377). -/
structure ZaCmds where
  handles : List Handle
  hseq : List (Nat × Nat)          -- index, the hseq it last carried
  retained : List Retained         -- oldest first
  cache : List CacheEntry          -- oldest first
  relays : List Relay
  queued : List QueuedLong
  order : Nat                      -- commands accepted
  nextTag : W                      -- our own tags of relayed commands
  regStatus : Nat                  -- status the last register-write row earned (R382)
  linkResets : List Nat            -- links that a LINK_RESET command names, once its reply has left
  deriving DecidableEq, Repr

def ZaCmds.initial : ZaCmds :=
  { handles := [], hseq := [], retained := [], cache := [], relays := [], queued := [], order := 0, nextTag := 1,
    regStatus := 0, linkResets := [] }

end Sys2Proof.Machine
end

