-- ==== Sys2Proof/Machine/StZaWork.lean ====
section
/-!
DEFINITION. The work of one context's data frame: contributions, Pods, evidence, rows, items, scores (R207 to R232, R240 to
R272, R289 to R294).
-/
namespace Sys2Proof.Machine

/-! ### Pods. -/

/-- A BS16 block (R216): its exponent, overflow bit, VALUE mask and 16 mantissas. -/
structure Bs16 where
  exp : Nat
  ovf : Bool
  vmask : Nat
  m : List Int
  deriving DecidableEq, Repr

/-- The sections of a Pod (R215, R223): the CELL ones, the bins of HIST or the eight values of TALLY. `ext` holds per
cell the max of a counting cell, or vmin and vmax of a VALUE cell as its 64 bits carry them. -/
structure Sections where
  sum : List Nat
  ext : List Nat
  blocks : List Bs16
  xmax : List Nat
  satUnion : Nat
  hist : List Nat
  tally : List Int
  deriving DecidableEq, Repr

/-- An absence entry (R224). -/
structure Absence where
  height : Nat
  node : Nat
  causes : Nat
  count : Nat
  bitmap : Nat
  deriving DecidableEq, Repr

/-- A result record (R222): kind 0 CELL, 1 HIST, 2 TALLY. Its absence list is complete; the record sent holds the first
64 entries. -/
structure PodRec where
  kind : Nat
  final : Bool
  ctx : Nat
  gen : Nat
  frame : Nat
  epoch : Nat
  index : Nat
  seq : Nat
  height : Nat
  node : Nat
  rerun : Nat
  late : Bool
  trunc : Bool
  fenced : Bool
  incomplete : Bool
  frost : Bool
  anySat : Bool
  expected : Nat
  present : Nat
  entries : List Absence
  digest : Nat
  nextExp : List Nat
  bump : List Nat
  sec : Sections
  deriving DecidableEq, Repr

/-- What a tray or node has for one input: present, or absent with a cause bit of R224. -/
inductive Taken
  | present
  | absent (cause : Nat)
  deriving DecidableEq, Repr

/-- A contribution kept for its data frame (R221, R226): the 136 words of R99, its arrival in ns after the tick. -/
structure Contribution where
  die : Nat
  cluster : Nat
  taken : Taken
  standIn : Bool                   -- the tray stands in for a fenced die (R406)
  words : List W
  arrival : Nat
  deriving DecidableEq, Repr

/-- A child's partial result at a node this aggregator hosts (R212). -/
structure ChildIn where
  height : Nat
  cause : Nat                      -- bit of R224 when there is no result
  result : Option PodRec
  deriving DecidableEq, Repr

/-- A Pod key at one aggregator (R207, R228, R229). `exps` is P of its four blocks; `rerun` 0 in the first run. -/
structure Pod where
  index : Nat
  seq : Nat
  slotted : Bool
  waited : Bool
  exps : List Nat
  rerun : Nat
  tray : Option PodRec             -- the tray result, when its node has closed
  children : List ChildIn
  own : Option PodRec              -- the result of the highest node completed here
  ownHeight : Nat
  sentUp : Bool
  final : Option PodRec
  finalLate : Bool                 -- the final came too late for the rows (R251)
  done : Bool                      -- every result owed has been sent
  deriving DecidableEq, Repr

/-- The tray's evidence of one die in one data frame (R246): digest results, health t_max, fault records. -/
structure DieEvidence where
  die : Nat
  mismatch : Nat
  matched : Nat
  invalid : Nat
  unchecked : Nat
  framing : Nat
  health : Nat                     -- health records received
  tMax : Option Int
  faults : Nat
  deriving DecidableEq, Repr

/-- What one record of a die says for a data frame (R141, R246). -/
inductive NoteKind
  | mismatch | matched | invalid | unchecked | framing | fault
  | health (t : Option Int)
  deriving DecidableEq, Repr

/-- A record that has arrived before the work of its data frame began; the context of a digest record. -/
structure Note where
  die : Nat
  frame : Nat
  ctx : Option (Nat × Nat)
  kind : NoteKind
  deriving DecidableEq, Repr

/-- A value written for an EXTERNAL column before the work of its data frame began (R253): context, generation, frame, entity key,
column, value. -/
structure ExtValue where
  ctx : Nat
  gen : Nat
  frame : Nat
  key : W
  column : Nat
  value : W
  deriving DecidableEq, Repr

/-! ### Rows and scores. -/

/-- A row of a feature table (R241): header flags and values. -/
structure FeatRow where
  tile : Bool
  entity : Nat                     -- entity index (R240)
  key : W
  frame : Nat
  valid : Bool
  absent : Bool
  incomplete : Bool
  fenced : Bool
  frost : Bool
  fleetLate : Bool
  planSeq : Nat
  values : List W
  taken : Bool                     -- a walk or POST batch has begun on it (R253, R290)
  deriving DecidableEq, Repr

/-- One completed walk (R262): the item, its lane, leaf node, leaf value, missing directions and NaNs met. -/
structure ItemDone where
  score : Nat
  entity : Nat
  tree : Nat
  lane : Nat
  checkLane : Option Nat           -- lane that checked it in this frame
  leaf : Nat
  value : W
  miss : Nat
  nan : Nat
  deriving DecidableEq, Repr

/-- A disagreement in the arbitration queue (R267 to R269). -/
structure Dispute where
  score : Nat
  entity : Nat
  tree : Nat
  lane : Nat
  checkLane : Nat
  leaf : Nat
  checkLeaf : Nat
  refLeaf : Nat                    -- the leaf the reference walk reaches
  deriving DecidableEq, Repr

/-- A score record (R266). -/
structure Score where
  index : Nat                      -- score index (R282)
  entity : Nat
  tile : Bool
  key : W
  frame : Nat
  status : Nat
  version : Nat
  unchecked : Bool
  miss : Nat
  nan : Nat
  out : List W
  deriving DecidableEq, Repr

/-- How the scoring of an entity by an ensemble stands when it is not plain (R268, R269): status 1, 3 or 4. -/
structure Marked where
  score : Nat
  entity : Nat
  status : Nat
  deriving DecidableEq, Repr

/-- The work of one context's data frame at this aggregator. `begun` is the number of frames begun at the tick of its work
frame. -/
structure FrameWork where
  entry : Nat
  ctx : Nat
  gen : Nat
  frame : Nat
  begun : Nat
  view : CtxView
  contribs : List Contribution
  dead : List (Nat × Nat)          -- inputs lost to a memory error: die, cluster (R189)
  closed : Bool                    -- the tray deadline has passed
  judged : List Nat                -- heights whose child has been judged for its run of absences (R227)
  pods : List Pod
  evidence : List DieEvidence
  external : List (W × Nat × W)    -- entity key, column, value (R253)
  rows : List FeatRow
  items : List ItemDone
  disputes : List Dispute
  disputesMade : Nat
  marked : List Marked
  preDone : List (Nat × Nat)       -- score index, batch of PRE programs
  batches : List (Nat × Nat)       -- score index, batch of POST programs
  scores : List Score              -- made, held back (R263)
  scored : Bool                    -- released to the Detector Stage
  withheld : List (Nat × Nat)      -- slots held back for a replica verdict: slot, 0 awaiting, 1 late only (R310)
  detected : Bool
  bands : List (Nat × List (List W))   -- die, its band set as core 4 derived it (R326)
  params : List Nat                -- dies whose parameters have left
  marginal : Nat                   -- visits and tile-cycles run, for the declared cost (R200)
  late : List (Nat × Nat × Nat)    -- phase of R30, late items, the earliest deadline they missed (ns)
  abandoned : Bool                 -- its work frame has ended
  deriving DecidableEq, Repr

/-- A kept result for RESULT_HISTORY (R224): with frames begun when it was made. -/
structure Kept where
  entry : Nat
  begun : Nat
  result : PodRec
  deriving DecidableEq, Repr

/-- A frame summary record (R34): the data frame marked late, late counts (context, phase, count), the earliest late
deadline missed, frames skipped and stretched, the length of the frame that ended, the audit's failures and the flags. -/
structure Summary where
  frame : Nat
  late : List (Nat × Nat × Nat)
  earliest : Nat
  skipped : Nat                    -- frames (R170)
  stretched : Nat
  length : Int                     -- ns of the frame that has ended (R166)
  audit : List Quantity
  degraded : Bool                  -- SCHED_DEGRADED
  thermal : Bool                   -- THERMAL_LIMIT
  unmirrored : Bool
  expelled : List (Nat × Nat)      -- context, slot (MODEL_EXPELLED)
  deriving DecidableEq, Repr

end Sys2Proof.Machine
end

