-- ==== Sys2Proof/Machine/StZaModel.lean ====
section
/-!
DEFINITION. Model slots, program state, detector records and the Seedbank of the ZA40 (R279 to R335), and what it fetches
and serves (R298, R299, R364).
-/
namespace Sys2Proof.Machine

/-- The states of a model area (R297, R311). -/
inductive AreaState
  | fetching | verifying | placing | ready | current | retiring | expelled | repairing
  deriving DecidableEq, Repr

/-- A source of an image (R298): an aggregator, or fabric software. -/
inductive FetchSource
  | agg (id : Nat)
  | software
  deriving DecidableEq, Repr

/-- A fetch of a model image under way (R298, R300, R364). -/
structure ModelFetch where
  fetchId : W
  source : FetchSource
  left : List FetchSource          -- sources not tried yet
  offered : Bool
  gaps : Nat                       -- gaps from this source
  deriving DecidableEq, Repr

/-- One of the two areas of a slot (R296, R297). -/
structure ModelArea where
  state : AreaState
  modelId : W
  version : Nat
  digest : Nat
  image : List W                   -- what has arrived, from byte 0
  imageLen : Nat
  front : Nat
  handle : W                       -- MODEL_LOAD handle; 0 for a repair
  deferred : Bool                  -- the Front has passed (R303)
  retireAt : Nat                   -- frames begun at which a retiring area is freed
  fetch : Option ModelFetch
  nodePages : Nat                  -- node-store pages held (R257)
  spilled : List Nat               -- sections that run from the MODEL region (R258)
  tiles : List (Nat × List Nat)    -- section of a program, tiles that hold its weights
  since : Nat                      -- data frame from which it is CURRENT
  deriving DecidableEq, Repr

/-- A model slot of a context (R296). -/
structure ModelSlot where
  entry : Nat
  slot : Nat
  cur : Option ModelArea
  oth : Option ModelArea
  agree : Nat                      -- last agreeing comparison frame
  passOf : Option Nat              -- version the pass that started at the last multiple of 64 reads (R306)
  passDone : Option Nat            -- version that the pass before it read to its end (R307)
  passLeft : Nat                   -- periods of 64 frames that the running pass still takes (R306)
  deriving DecidableEq, Repr

/-- A replica comparison as its collector holds it (R309): reports (aggregator, value, self_fail). -/
structure Replica where
  entry : Nat
  slot : Nat
  frame : Nat
  begun : Nat
  reports : List (Nat × Nat × Bool)
  deriving DecidableEq, Repr

/-- Per-entity program state (R295). -/
structure ProgState where
  entry : Nat
  score : Nat
  key : W
  lastFrame : Nat
  layout : Nat
  words : List W
  deriving DecidableEq, Repr

/-- The states of a detector record (R319). -/
inductive DetState
  | warmup | normal | suspect | confirmed
  deriving DecidableEq, Repr

def DetState.code : DetState → Nat
  | .warmup => 0
  | .normal => 1
  | .suspect => 2
  | .confirmed => 3

/-- A detector record (R328); m and v are binary64 patterns. -/
structure DetRec where
  entry : Nat
  det : Nat
  key : W
  m : Nat
  v : Nat
  state : DetState
  latched : Bool
  runDir : Nat
  run : Nat
  clearRun : Nat
  warmLeft : Nat
  lastFrame : Nat
  version : Nat
  nObs : Nat
  posted : Nat                     -- state of the last verdict posted
  deriving DecidableEq, Repr

/-! ### Seedbank. -/

/-- A Seedbank item (R330, R331): class, index, context ID, generation, key, deleted, data. -/
structure SeedItem where
  cls : Nat
  index : Nat
  ctx : Nat
  gen : Nat
  key : W
  delete : Bool
  data : List W
  deriving DecidableEq, Repr

/-- The name of an item. -/
structure SeedName where
  cls : Nat
  index : Nat
  ctx : Nat
  gen : Nat
  key : W
  deriving DecidableEq, Repr

def SeedItem.name (i : SeedItem) : SeedName := { cls := i.cls, index := i.index, ctx := i.ctx, gen := i.gen, key := i.key }

/-- The mirror we send (R329 to R334). -/
structure SeedPrimary where
  partner : Nat
  valid : Bool
  resync : Bool
  resyncEnd : Option Nat           -- frame of the RESYNC_END sent
  handle : W                       -- SEED_PAIR handle that waits for the mirror; 0 none
  dirty : List SeedName
  flight : List (Nat × List SeedItem)      -- updates sent and not acknowledged: data frame, items
  due : List (Nat × List SeedItem) -- data frames whose detectors completed and whose update is not sent, with the items as they then stood
  lastDone : Nat                   -- latest data frame whose detectors completed
  committed : Nat                  -- partner's committed frame
  lastAck : Nat                    -- frames begun at the last ACK
  lagSaid : Bool
  mirror : List SeedItem           -- items as last sent, to find what has changed
  deriving DecidableEq, Repr

/-- The mirror we hold for another primary (R329, R332, R334). -/
structure SeedHeld where
  primary : Nat
  committed : Nat
  items : List SeedItem
  damaged : List SeedName
  stage : List (Nat × List SeedItem)   -- msg_seq, items
  stageFrame : Nat
  resync : Bool
  read : Bool                      -- a rebuild has read it: another primary may be held instead
  deriving DecidableEq, Repr

/-- A restore under way (R335): items asked for and the frames begun at the end of which they restart. -/
structure Restore where
  names : List SeedName
  begun : Nat
  deriving DecidableEq, Repr

/-- Fetches we serve (R206, R299, R364): requester, link, kind, next offset. -/
structure Serving where
  peer : Mac
  link : Nat
  fetchId : W
  model : Option (Nat × Nat)       -- context-table entry and slot; none: the firmware image
  offset : Nat
  hdr : List W                     -- words 0 to 6 of the request (R364)
  deriving DecidableEq, Repr

end Sys2Proof.Machine
end

