-- ==== Sys2Proof/Machine/StZaSys.lean ====
section
/-!
DEFINITION. Faults, fences, the rack, rebuilds, Frost, power, boot, keomon and memory errors of the ZA40
(R187 to R190, R202 to R206, R388 to R447, R448 to R472).
-/
namespace Sys2Proof.Machine

/-! ### Faults and fences. -/

/-- A fault of this ZA40 waiting for the next tick (R396): message, stamp, readings, repeats and log extension. -/
structure HeldFault where
  message : BitVec 128
  tNs : Nat
  temp : BitVec 16
  vcore : BitVec 16
  repeats : Nat
  ext : List W
  deriving DecidableEq, Repr

/-- An entry of the fault log (R398): the 32-byte record and its extension. -/
structure LogEntry where
  record : List W
  ext : List W
  deriving DecidableEq, Repr

/-- The fence map and what feeds it (R400 to R405). -/
structure Fences where
  lanes : List Nat
  tiles : List Nat
  channels : List Nat
  quadrants : List Nat
  cores : List Nat
  links : List Nat
  margin : List Nat                -- steps of quadrants 0 to 3
  suspect : List Nat               -- quadrants suspect (R268)
  checkLost : Bool
  checkSaid : Bool
  tileErrors : List (Nat × Nat)    -- tile, begun count of its last weight-area error (R402)
  chanErrors : List (Nat × Nat)    -- channel, begun count of an uncorrectable error (R400)
  ledgers : List (Quantity × Nat × Nat)   -- quantity, unit, begun count of its failures (R403)
  lanePass : List (Nat × Nat)      -- lane, last frame in which it passed a check (R268)
  backlogSaid : List Nat           -- the frames, by the counter of those begun, for which ENS_BACKLOG was raised
  deriving DecidableEq, Repr

def Fences.initial : Fences :=
  { lanes := [], tiles := [], channels := [], quadrants := [], cores := [], links := [], margin := [0, 0, 0, 0],
    suspect := [], checkLost := false, checkSaid := false, tileErrors := [], chanErrors := [], ledgers := [],
    lanePass := [], backlogSaid := [] }

/-- A unit a FENCE or UNFENCE names (R393, R422). -/
structure UnitName where
  kind : Nat
  unit : Nat
  die : Nat
  deriving DecidableEq, Repr

/-- A fence or unfence asked for and the handle that waits (R415). `granted` says that it is carried out at the next tick;
`applied` holds the loss bits once it has been, for a cluster, whose fence takes effect a tick later. -/
structure FenceAsk where
  unit : UnitName
  lift : Bool
  granted : Bool
  applied : Option Nat
  handle : W
  deriving DecidableEq, Repr

/-- A ZA40 of the rack as this one sees it (R410, R413). -/
structure RackUnit where
  agg : Nat
  candidate : Bool
  priority : Nat
  live : Nat
  missed : Nat
  hailed : Bool
  namesRm : Nat                       -- rm_id of its last Hail
  deriving DecidableEq, Repr

/-- A checkpoint held for a ZA40 of the rack (R417). -/
structure Checkpoint where
  agg : Nat
  frame : Nat
  complete : Bool
  said : Bool                      -- CKPT_INCOMPLETE was raised
  parts : List (Nat × List W)
  deriving DecidableEq, Repr

/-- A rebuild under way (R418 to R421): phase as ZA_REBUILD shows it. -/
structure Rebuild where
  handle : W
  front : Nat
  failed : Nat
  partner : Nat
  phase : Nat
  baseKind : Nat
  base : Nat
  items : List (Nat × List SeedItem)   -- RESTORE_DATA by msg_seq
  idle : Nat                       -- whole frames without an advance
  asked : Bool
  deriving DecidableEq, Repr

/-- The rack (R413 to R417). -/
structure Rack where
  units : List RackUnit
  limit : Nat                      -- ZA_RM_CFG.fence_limit
  acting : Bool                    -- acts as Region Manager
  deferTo : Option Nat             -- the rm_id that most Hails of the last frame named, when we defer to it (R413)
  grants : List Nat                -- begun counts of the fences granted on request (R415)
  fencedAggs : List (Nat × Nat)    -- aggregator, frames begun from which its results are absent (R407)
  held : List Checkpoint           -- checkpoints we hold as Region Manager or standby
  own : Option (Nat × List SeedItem)   -- our own copy and its frame C
  ownDone : Nat                    -- ZA_CKPT_FRAME
  failover : Bool                  -- the standby takes over at the next tick
  deriving DecidableEq, Repr

def Rack.initial : Rack :=
  { units := [], limit := 16, acting := false, deferTo := none, grants := [], fencedAggs := [], held := [], own := none, ownDone := 0,
    failover := false }

/-! ### Frost. -/

/-- The engine state that a FULL Frost copies (R432), with the counts of the LINKS section (R429). -/
structure ZaSnapshot where
  frame : Nat
  links : List (Nat × Nat × Nat × W × W)    -- link, class, peer, sent_at_T, recv_at_T
  pods : List (List W)
  syncs : List (Nat × Bool × Nat)           -- index, overflow, value
  ctxs : List (List W)
  deriving DecidableEq, Repr

/-- A frame copied in the capture window (R430). -/
structure ZaCaptured where
  link : Nat
  cls : Nat
  lseq : W
  frame : Frame
  deriving DecidableEq, Repr

/-- A SCAN_OUT under way (R441): units still to be asked, bytes sent, and the die whose data is arriving. -/
structure ScanOut where
  handle : W
  req : Requester
  mask : Nat
  dies : List Nat
  current : Option Nat
  offset : Nat
  total : Nat
  deriving DecidableEq, Repr

/-- The ZA40's Frost (R425 to R437): state 0 idle, 1 armed, 2 frozen. -/
structure ZaFrost where
  state : Nat
  full : Bool
  smear : Bool
  cutComplete : Bool
  stepped : Bool
  spoiled : Bool
  capFull : Bool
  frostId : W
  t : Nat
  stopNs : Nat
  timeState : Nat
  seen : List W
  acked : List Nat                 -- dies that have acknowledged the last message
  message : Nat                    -- msg code being repeated: ARM, CANCEL, NOW or THAW; 0 none
  targets : List Nat               -- dies the message went to
  instant : Nat                    -- its instant field
  thawAt : Option Nat
  armHandle : W
  thawHandle : W
  snapshot : Option ZaSnapshot
  capture : List ZaCaptured
  capMib : Nat                     -- in force since the arm
  windowEnd : Option Nat
  scans : List ScanOut
  deriving DecidableEq, Repr

def ZaFrost.initial : ZaFrost :=
  { state := 0, full := false, smear := false, cutComplete := false, stepped := false, spoiled := false,
    capFull := false, frostId := 0, t := 0, stopNs := 0, timeState := 0, seen := [], acked := [], message := 0,
    targets := [], instant := 0, thawAt := none, armHandle := 0, thawHandle := 0, snapshot := none, capture := [],
    capMib := 256, windowEnd := none, scans := [] }

/-- A LOOP_TEST of a link (R443): echoes still out, bytes differing, round trips. -/
structure LinkTest where
  handle : W
  link : Nat
  frames : Nat
  sent : Nat
  returned : Nat
  differing : Nat
  rtts : List Nat
  deriving DecidableEq, Repr

/-! ### Power, boot, keomon, memory. -/

/-- Power, temperature, Lull and resets (R448 to R472). -/
structure ZaPower where
  powered : Bool                   -- VAO and the always-on domain are up
  rails : List Nat                 -- rails up, by the codes of ZA_PWR_EVENT (0 VAO ... 14 VOE7)
  cfg : W                          -- ZA_PWR_CFG
  cfgNext : Option W
  vin : BitVec 16
  iin : BitVec 16
  pin : Nat
  step : Nat
  calm : Nat                       -- consecutive slots that allow the step to fall
  warn : Bool
  capLimit : Bool
  thermalLimit : Bool
  hotRun : Nat                     -- consecutive slots at 110 degrees or more at step 8
  temps : List Nat                 -- quadrants 0 to 3 and the spine, whole degrees
  lull : Nat
  lullTo : Option (Nat × Nat × W)  -- a ZA_LULL under way: state, VOE mask, handle
  keepVoe : Nat
  lastReset : Nat
  events : List (W × W)            -- ZA_PWR_EVENT, newest first
  tripped : Bool
  pinLow : Bool                    -- held in pin reset
  strap : Bool                     -- sampled at power-up: factory test mode
  strapLow : Bool                  -- the strap's own rise is still to be ignored
  warmDue : Bool                   -- a FATAL fault or ZA_RESET 1 waits for its warm reset
  firmwareKept : Bool              -- the FIRMWARE stack copy is intact
  resetPorts : List Nat            -- ports that ZA_RESET names, once its reply has left
  deriving DecidableEq, Repr

/-- ZA_PWR_CFG after power-on: cap 820 W, t_hot 95 degrees (R482). -/
def ZaPower.cfgReset : W := 0xCD17C000

def ZaPower.initial : ZaPower :=
  { powered := true, rails := [0], cfg := ZaPower.cfgReset, cfgNext := none, vin := 0, iin := 0, pin := 0, step := 0,
    calm := 0, warn := false, capLimit := false, thermalLimit := false, hotRun := 0, temps := [0, 0, 0, 0, 0],
    lull := 0, lullTo := none, keepVoe := 0, lastReset := 0, events := [], tripped := false, pinLow := false,
    strap := false, strapLow := false, warmDue := false, firmwareKept := false, resetPorts := [] }

/-- Boot (R203 to R206). -/
structure Boot where
  phase : Nat
  source : Nat                     -- 0xF none
  port : Nat
  attempts : Nat
  lastError : Nat
  fwVersion : W
  tried : List (Nat × Nat)         -- sources, ports that failed in this round
  offered : Bool
  fetchId : W
  gaps : Nat
  image : List Byte                -- what has arrived
  length : Nat
  running : List Byte              -- the verified image now running
  deriving DecidableEq, Repr

def Boot.initial : Boot :=
  { phase := 0, source := 15, port := 0, attempts := 0, lastError := 0, fwVersion := 0, tried := [], offered := false,
    fetchId := 1, gaps := 0, image := [], length := 0, running := [] }

/-- keomon (R388 to R391). -/
structure Keomon where
  rxSeq : Option Nat
  txSeq : Nat
  out : List (Nat × List Byte)     -- frames made for the host: type and body
  deriving DecidableEq, Repr

def Keomon.initial : Keomon := { rxSeq := none, txSeq := 0, out := [] }

/-- Memory errors and the scrubber (R187 to R190). -/
structure EccBooks where
  corrected : Nat
  uncorrectable : Nat
  retired : List Nat               -- pages retired per stack
  pages : List (Nat × Nat)         -- retired pages: stack, page
  pass : List (MemRegion × Nat × Nat)   -- code word, corrections in this scrub pass
  deriving DecidableEq, Repr

def EccBooks.initial : EccBooks :=
  { corrected := 0, uncorrectable := 0, retired := [0, 0, 0, 0], pages := [], pass := [] }

/-- A record in FORWARD (R363): rank 0 FAULT, 1 VERDICT, 2 HEALTH, 3 DIGEST, 4 TRACE. -/
structure ForwardRec where
  rank : Nat
  die : Nat
  ctx : Nat
  gen : Nat
  words : List W
  plen : Nat
  deriving DecidableEq, Repr

/-- The FORWARD region (R184, R363): what waits, its fill in percent and the steps it has started. -/
structure Forward where
  waiting : List ForwardRec
  percent : Nat
  traceDrop : Bool
  hold : Bool
  full : Bool
  deriving DecidableEq, Repr

def Forward.initial : Forward := { waiting := [], percent := 0, traceDrop := false, hold := false, full := false }

end Sys2Proof.Machine
end

