-- ==== Sys2Proof/Machine/StZa.lean ====
section
/-!
DEFINITION. The whole state of the Zwirra ZA40.
-/
namespace Sys2Proof.Machine

/-- The reset words of the management space whose words a write may change (R482). -/
def zaResetWord (a : Nat) : W :=
  if a = 0x2000 then 0x80000008
  else if a = 0x3000 then 0x3E8
  else if a = 0x3004 then 0x64
  else if a = 0x3020 then 0xC0008080
  else if 0x3100 ≤ a ∧ a < 0x3620 ∧ a % 16 < 8 then Config.factoryLat ((a - 0x3100) / 16) (a % 16 / 4)
  else if a = 0x360C ∨ a = 0x361C then 0x80000000
  else if a = 0x5000 then 6
  else if a = 0x700C then 0x10
  else if a = 0x8000 then 0x88B50010
  else if a = 0x8380 ∨ a = 0x8390 then 0x80C00000
  else if a = 0x9000 then 0x10
  else if a = 0xA000 then 0x100
  else if a = 0xB000 then ZaPower.cfgReset
  else if 0x40000 ≤ a ∧ a < 0x45200 then
    match a % 256 with
    | 0 => 0x000E0003
    | 4 => 0x47000020
    | 8 => 0x18000040
    | 12 => 0xFF0003A0
    | _ => 0
  else if 0x50000 ≤ a ∧ a < 0x51480 then (if a % 8 = 0 then 0x40000000 else if a % 8 = 4 then 0x40 else 0)
  else if 0x60000 ≤ a ∧ a < 0x61480 then (if a % 8 = 4 then 0x40 else 0)
  else 0

/-- The tag area at delivery: sixteen serial bytes, then zeros (R7). The serial itself is not the spec's to give. -/
def zaTagReset : Memory := (List.range 16).map (fun i => (i, (0x20 : Byte)))

/-- The Zwirra ZA40. -/
structure Za where
  tag : Memory
  aggId : Nat                      -- R12; no row of the table assigns these four
  fabricId : Nat
  rackId : Nat
  admitted : Bool
  boot : Boot
  regs : RegMap                    -- RW words of the management space
  time : TimeUnit
  ptp : Ptp
  marks : List Trigger
  links : List (Nat × ZaLink)      -- sparse: a link not listed is as after reset
  dies : List DieEntry
  ctxs : List (Nat × Ctx)          -- context-table entries that are not FREE
  syncs : List (Nat × SyncObj)     -- allocated objects by index
  waits : List Wait
  cmds : ZaCmds
  works : List FrameWork           -- oldest first
  staged : List (List W)           -- FINAL records that arrived under a FULL Frost (R432)
  notes : List Note                -- evidence for data frames whose work has not begun
  externals : List ExtValue        -- and EXTERNAL values for such frames (R253)
  kept : List Kept
  models : List ModelSlot
  replicas : List Replica
  progState : List ProgState
  detRecs : List DetRec
  seed : Option SeedPrimary
  seedHeld : Option SeedHeld
  restores : List Restore
  serving : List Serving
  fetchId : W
  forward : Forward
  faults : List HeldFault
  faultLog : List LogEntry         -- newest first
  fences : Fences
  asks : List FenceAsk
  rack : Rack
  rebuild : Option Rebuild
  frost : ZaFrost
  tests : List LinkTest
  injections : List Injection
  injected : Nat
  hailSeq : BitVec 16
  hailDue : Option Nat             -- frame whose Hail of ours has not been sent
  hailEval : Nat                   -- frames begun when liveness was last evaluated
  admGen : Nat
  power : ZaPower
  keomon : Keomon
  ecc : EccBooks
  summary : Option Summary
  chkLog2 : Nat                    -- checker interval in force (R271)
  counters : List (ZCnt × Nat)
  deriving DecidableEq, Repr

/-- Nominal rate word of the 1.0 GHz time clock: 1 ns (R154). -/
def zaNominal : Nat := 2 ^ 48

/-- The ZA40 after power-on reset: the boot ROM at its start (R451, R462, R467, R482). -/
def Za.initial : Za :=
  { tag := zaTagReset, aggId := 0, fabricId := 0, rackId := 0, admitted := false, boot := .initial, regs := [],
    time := .initial zaNominal, ptp := .initial, marks := List.replicate 16 (.initial 0), links := [], dies := [],
    ctxs := [], syncs := [], waits := [], cmds := .initial, works := [], staged := [], notes := [], externals := [], kept := [], models := [], replicas := [],
    progState := [], detRecs := [], seed := none, seedHeld := none, restores := [], serving := [], fetchId := 1,
    forward := .initial, faults := [], faultLog := [], fences := .initial, asks := [], rack := .initial, rebuild := none,
    frost := .initial, tests := [], injections := [], injected := 0, hailSeq := 0, hailDue := none, hailEval := 0, admGen := 1,
    power := .initial, keomon := .initial, ecc := .initial, summary := none, chkLog2 := 6, counters := [] }

end Sys2Proof.Machine
end

