-- ==== Sys2Proof/Machine/State.lean ====
section
/-!
DEFINITION. The state of the Keora block: one Finlos DTU, one Zwirra ZA40, and the commands that wait; the state after
reset; the reasons a step can stop.
-/
namespace Sys2Proof.Machine

/-- The machine. `pending` is the queue of waiting commands, first in, first out. `free` is the model's own counter of
free values (log entry 1): no rule of the spec names it. -/
structure State where
  dtu : Dtu
  za : Za
  free : Nat
  pending : List Instr
  deriving DecidableEq, Repr

/-- Why a step stops with a fault. -/
inductive Fault
  /-- Raised by nobody: no rule of the spec stops the machine, a fault of Keora being a record (R392). Safe. -/
  | none
  deriving DecidableEq, Repr

/-- Why a step has no meaning. -/
inductive Refusal
  /-- Raised by the arms of Dispatch.lean whose command has no meaning yet. Safe: nothing is claimed of it. -/
  | notModelled (mnemonic : String)
  deriving DecidableEq, Repr

/-- The machine right after power-on reset of both units, nothing waiting (R66, R451). -/
def State.reset : State :=
  { dtu := .initial .initial, za := .initial, free := 0, pending := [] }

/-- The answer of a step. -/
abbrev Answer := Host.Outcome State Fault Refusal

end Sys2Proof.Machine
end

