-- ==== Sys2Proof/Machine/TimeUnit.lean ====
section
/-!
DEFINITION. The operations of a time unit: counting, samples, jumps, steps and ticks (R153 to R172).
-/
namespace Sys2Proof.Machine

/-- One nanosecond on the scale of `TimeUnit.ftc`. -/
def oneNs : Nat := 2 ^ 48

/-- The FTC nanosecond count (R29). -/
def TimeUnit.ns (t : TimeUnit) : Nat := t.ftc / 2 ^ 48

/-- The FTC with its 16 fraction bits (R153). -/
def TimeUnit.stamp (t : TimeUnit) : Stamp := t.ftc / 2 ^ 32

/-- The seconds, nanoseconds and fraction fields of a stamp (R153). -/
def stampSec (x : Stamp) : Nat := x / 65536 / 1000000000
def stampNs (x : Stamp) : Nat := x / 65536 % 1000000000
def stampFrac (x : Stamp) : Nat := x % 65536

/-- A stamp from its fields. -/
def stampOf (sec ns frac : Nat) : Stamp := 65536 * (1000000000 * sec + ns) + frac

/-- The frame number: the frame in force once ticks are issued, FTC >> 20 before (R154, R169). -/
def TimeUnit.frameNow (t : TimeUnit) : Nat := if t.ticking then t.frame else t.ns / 2 ^ 20

/-- The slot within a frame (R29). -/
def TimeUnit.slot (t : TimeUnit) : Nat := bits t.ns 19 14

/-- Nanoseconds since the tick of the frame in force (R30). -/
def TimeUnit.sinceTick (t : TimeUnit) : Nat := t.ns - 2 ^ 20 * t.frameNow

/-- A frame_lo extended against the unit's own frame number to the nearest value (R154). -/
def extendFrame (now lo : Nat) : Nat :=
  let base := 2 ^ 32 * (now / 2 ^ 32) + lo % 2 ^ 32
  if base + 2 ^ 31 < now then base + 2 ^ 32
  else if now + 2 ^ 31 < base ∧ 2 ^ 32 ≤ base then base - 2 ^ 32 else base

/-- A counter of the time record, `n` added. -/
def TimeUnit.count (t : TimeUnit) (c : TCnt) (n : Nat := 1) : TimeUnit := { t with counters := bump t.counters c n }

/-- What a time unit's operation raises outside it. -/
inductive TimeEvent
  | jump (offset : Int)    -- the eighth consecutive jump: TIME_JUMP (R163)
  | holdover               -- an entry into HOLDOVER (R159)
  | lock                   -- an entry into LOCKED
  | step (ns : Int)        -- the FTC was stepped: a TIME_STEP trace record (R166, R170)
  deriving DecidableEq, Repr

/-- A rate held to the servo's total range, nominal ± (slew_max + 100) ppm (R161). -/
def servoRange (nominal slewMax : Nat) (rate : Int) : Nat :=
  let span : Int := (nominal * (slewMax + 100) / 1000000 : Nat)
  (clampInt (nominal - span) (nominal + span) rate).toNat

/-- A rate the servo would otherwise hold with a correction of at most slew_max ppm of it, within the total range (R161). -/
def correctedRate (nominal slewMax base : Nat) (correction : Int) : Nat :=
  let most : Int := (base * slewMax / 1000000 : Nat)
  servoRange nominal slewMax (base + clampInt (-most) most correction)

/-- The rate at which a commanded residual is slewed: the whole correction that R161 allows, toward the residual. -/
def slewRate (nominal slewMax base : Nat) (residual : Int) : Nat := correctedRate nominal slewMax base residual

/-- The residual left when the FTC has moved on by `moved` at the slew rate: that rate's share over the base (R161, R167). -/
def residualAfter (base slew moved : Nat) (r : Int) : Int :=
  let part : Nat := (((slew : Int) - base).natAbs * moved) / slew
  if r < 0 then -((r.natAbs - part : Nat) : Int) else ((r.natAbs - part : Nat) : Int)

/-- The FTC reaches a count of nanoseconds; a count already passed changes nothing. -/
def TimeUnit.reach (t : TimeUnit) (slewMax nominal ns : Nat) : TimeUnit :=
  if t.ftc < oneNs * ns then
    { t with ftc := oneNs * ns,
             residual := residualAfter t.base (slewRate nominal slewMax t.base t.residual) (oneNs * ns - t.ftc) t.residual }
  else t

/-- One edge of the time clock: the FTC advances by the rate word or, while a commanded residual is left, by the slew rate
(R154, R161, R167). -/
def TimeUnit.edge (t : TimeUnit) (slewMax nominal : Nat) : TimeUnit :=
  if t.residual = 0 then { t with ftc := t.ftc + t.rate }
  else
    let slew := slewRate nominal slewMax t.base t.residual
    let residual := residualAfter t.base slew slew t.residual
    { t with ftc := (t.ftc + t.base + (t.residual - residual)).toNat, residual }

/-- The servo after a sample: the rate it would otherwise hold and its correction are free within the limits of R161. -/
def TimeUnit.servo (t : TimeUnit) (nominal slewMax free : Nat) (offset : Int) : TimeUnit :=
  let base := servoRange nominal slewMax (nominal + Config.servoBase free offset)
  { t with base, rate := correctedRate nominal slewMax base (Config.servoRate free offset) }

/-- A state is entered; entries into LOCKED and HOLDOVER are counted, and the first into LOCKED starts the ticks: the
next tick is the next multiple of 2^20 (R159, R160). -/
def TimeUnit.enter (t : TimeUnit) (st : TimeState) : TimeUnit × List TimeEvent :=
  if t.state = st then (t, [])
  else
    let t := { t with state := st, run := 0, missed := 0 }
    match st with
    | .locked =>
      let f := t.ns / 2 ^ 20
      let t := if t.ticking then t
        else { t with ticking := true, frame := f, nextFrame := f + 1, prevFrame := f }
      (t.count .lockEntries, [.lock])
    | .holdover => (t.count .holdoverEntries, [.holdover])
    | .free => (t, [])
    | .acquire => (t, [])

/-- The first usable sample after FREE or TIME_RESYNC sets the FTC to the source time (R160, R166): once ticks are
issued no frame number repeats and the frames passed over are skipped. -/
def TimeUnit.setFrom (t : TimeUnit) (offset : Int) : TimeUnit × List TimeEvent :=
  let new : Int := t.ftc - offset * 2 ^ 32
  let ftc := new.toNat
  let m' := ftc / oneNs / 2 ^ 20
  let sk := if t.ticking then m' - t.frame else 0
  let t := { t with ftc, isSet := true, residual := 0, skipped := sk,
                    shift := t.shift + ((ftc / oneNs : Nat) : Int) - (t.ns : Int),
                    nextFrame := if t.ticking then max t.frame m' + 1 else t.nextFrame }
  ((t.count .stepsApplied).count .framesSkipped sk, [.step (-offset / 65536)])

/-- A sample interval without a usable sample (R159). -/
def TimeUnit.miss (t : TimeUnit) (n : Nat := 1) : TimeUnit × List TimeEvent :=
  let t := { t with run := 0, missed := t.missed + n }
  let t := t.count .missing n
  if t.state = .locked ∧ 3 ≤ t.missed then t.enter .holdover else (t, [])

/-- One sample: local minus reference time in 2^-16 ns (R159 to R163). `farSource` says that the source's seconds are
2^34 or more, which is a jump (R153). -/
def TimeUnit.sample (t : TimeUnit) (nominal slewMax jumpThr lockThr free : Nat) (farSource : Bool) (offset : Int) :
    TimeUnit × List TimeEvent :=
  let t := { t with offset := offset }
  let limit : Nat := 65536 * jumpThr + t.residual.natAbs / 2 ^ 32
  if farSource || (t.isSet && decide (limit < offset.natAbs)) then
    let t := { t with jumps := t.jumps + 1 }
    let ev := if t.jumps = 8 then [TimeEvent.jump offset] else []
    let p := (t.count .refusedJumps).miss
    if p.1.state = .locked then
      let q := p.1.enter .holdover
      (q.1, ev ++ p.2 ++ q.2)
    else (p.1, ev ++ p.2)
  else
    let t := ({ t with jumps := 0, missed := 0 }).count .samples
    if !t.isSet then
      let p := t.setFrom offset
      let q := if p.1.state = .free then p.1.enter .acquire else (p.1, [])
      ({ q.1 with run := if offset.natAbs ≤ 65536 * lockThr then 1 else 0 }, p.2 ++ q.2)
    else
      let within := decide (offset.natAbs ≤ 65536 * lockThr)
      let run := match t.state with
        | .holdover => if within then t.run + 1 else 0
        | .acquire => if within then t.run + 1 else 0
        | .locked => t.run
        | .free => t.run
      let t := { t with run }.servo nominal slewMax free offset
      if (t.state = .acquire ∨ t.state = .holdover) ∧ 16 ≤ t.run then t.enter .locked else (t, [])

/-- TIME_RESYNC: back to ACQUIRE, the next usable sample sets the FTC (R165). -/
def TimeUnit.resync (t : TimeUnit) : TimeUnit :=
  { (t.enter .acquire).1 with isSet := false, run := 0 }

/-- The whole-frame part of a step: the nearest whole frame (R167). -/
def stepWhole (s : Int) : Int := (s + 2 ^ 19) / 2 ^ 20

/-- The residual of a step in whole ns (R167). -/
def stepResidual (s : Int) : Int := s - stepWhole s * 2 ^ 20

/-- A step is due at the next tick (R167, R170). -/
def TimeUnit.stepDue (t : TimeUnit) : Option ArmedStep :=
  match t.armed with
  | some a => if t.ticking && decide (a.frame ≤ t.nextFrame) then some a else none
  | none => none

/-- The armed step is applied at the tick of F (R167 to R169): forward, the tick begins frame F + q; back, no tick is
issued and the next one begins F when the FTC reaches it again. -/
def TimeUnit.applyStep (t : TimeUnit) (slewMax nominal : Nat) (a : ArmedStep) : TimeUnit × List TimeEvent :=
  let t := t.reach slewMax nominal (2 ^ 20 * t.nextFrame)
  let q := stepWhole a.s
  let t := { t with
    armed := none, stepped := true, residual := stepResidual a.s * 2 ^ 48,
    ftc := oneNs * (2 ^ 20 * ((t.nextFrame : Int) + q).toNat),
    nextFrame := if 0 < q then t.nextFrame + q.toNat else t.nextFrame,
    skipped := q.toNat, stretched := (-q).toNat, shift := t.shift + q * 2 ^ 20 }
  ((((t.count .stepsApplied).count .framesSkipped q.toNat).count .framesStretched (-q).toNat),
    if q = 0 then [] else [.step (q * 2 ^ 20)])

/-- The tick that begins the next frame (R29, R166 to R169). -/
def TimeUnit.tick (t : TimeUnit) (slewMax nominal : Nat) : TimeUnit :=
  let t := t.reach slewMax nominal (2 ^ 20 * t.nextFrame)
  let skip := t.nextFrame - t.frame - 1
  { t with frame := t.nextFrame, prevFrame := t.frame, nextFrame := t.nextFrame + 1, begun := t.begun + 1
           gaps := if skip = 0 then t.gaps else (t.nextFrame, skip) :: t.gaps
           lastLength := ((t.nextFrame : Int) - t.frame) * 2 ^ 20 - t.shift, shift := 0 }

/-- Frames begun after frame `a`, up to frame `b` (R170). -/
def TimeUnit.begunFrom (t : TimeUnit) (a b : Nat) : Nat :=
  b - a - ((t.gaps.filter (fun g => decide (a < g.1 ∧ g.1 ≤ b))).map Prod.snd).sum

/-- The frame that the next tick begins, an armed step forward applied (R168). -/
def TimeUnit.nextBegun (t : TimeUnit) : Nat :=
  if !t.ticking then t.frameNow + 1
  else match t.stepDue with
    | some a => t.nextFrame + (stepWhole a.s).toNat
    | none => t.nextFrame

/-- The frame begun after a frame, that is still to begin after the one in force (R170). -/
def TimeUnit.after (t : TimeUnit) (f : Nat) : Nat :=
  if t.frameNow ≤ f then t.nextBegun
  else ((t.gaps.find? (fun g => g.1 == f + 1 + g.2)).map Prod.fst).getD (f + 1)

/-- "Current frame plus 2": the first frame that takes effect at the second tick from now (R25, R170). -/
def TimeUnit.plusTwo (t : TimeUnit) : Nat := t.nextBegun + 1

/-- The next slot boundary at or after the FTC, in ns; a boundary just reached is the one before (R29). -/
def TimeUnit.nextSlot (t : TimeUnit) : Nat := 16384 * (t.ns / 16384 + 1)

/-- The seconds, nanoseconds and fraction of a stamp as they travel in 14 bytes (R173): three words and a half. -/
def stampWords (x : Stamp) : List W := twoWords (stampSec x) ++ [w32 (stampNs x)]

/-- Whether residual slewing is under way (R181). -/
def TimeUnit.slewing (t : TimeUnit) : Bool := decide (t.residual ≠ 0)

/-- An offset in 2^-16 ns as TIME_STATE and the time record show it: units of 0.25 ns, saturating (R181, R182). -/
def quarterNs (limit : Nat) (offset : Int) : Int := clampInt (-(limit : Int)) limit (Int.tdiv offset 16384)

/-- TIME_STATE (R181). -/
def TimeUnit.stateWord (t : TimeUnit) (parent : Nat) : W :=
  pack [(toTwos 16 (quarterNs 32767 t.offset), 31, 16), (parent, 15, 8), (b2n t.armed.isSome, 3, 3),
    (b2n t.slewing, 2, 2), (t.state.code, 1, 0)]

/-- TIME_STEP words 0 to 2 (R181). -/
def TimeUnit.stepWord (t : TimeUnit) (i : Nat) : W :=
  match t.armed with
  | none => 0
  | some a =>
    if i = 0 then w32 a.frame else if i = 1 then w32 (toTwos 64 a.s / 2 ^ 32) else w32 (toTwos 64 a.s)

/-- The time record's counters and the words that follow them (R182), `tail` being the ZA40's echo words. -/
def TimeUnit.record (t : TimeUnit) (utc : W) (tail : List W) : List W :=
  TCnt.all.map (fun c => w32 (aGetD t.counters c 0)) ++
    [w32 t.state.code, w32 (toTwos 32 (quarterNs (2 ^ 31 - 1) t.offset)), utc] ++ tail

/-! ### Triggers and markers (R177 to R180). -/

/-- The first instant T + kP of a periodic trigger later than a time (R178). -/
def nextPeriodic (start period after : Nat) : Nat :=
  if after < start then start
  else if period = 0 then start else start + ((after - start) / period + 1) * period

def Trigger.enabled (t : Trigger) : Bool := bit t.w0 31
def Trigger.periodic (t : Trigger) : Bool := bit t.w0 30

/-- The word a trigger presents (R177). -/
def Trigger.word (t : Trigger) (i : Nat) : W :=
  match i with
  | 0 => t.w0
  | 1 => w32 (t.start / 2 ^ 32)
  | 2 => w32 t.start
  | 3 => t.period
  | 4 => t.count
  | 5 => t.fired
  | 6 => if t.enabled then w32 t.next else 0
  | _ => 0

/-- A write to words 0 to 4 of a trigger (R178): it disarms an armed one, and enable = 1 arms from the words as they
then stand. None: a one-shot whose start is not later than the FTC (TRIG_PAST). -/
def Trigger.write (t : Trigger) (now : Nat) (i : Nat) (v : W) : Option Trigger :=
  let t := { t with w0 := if t.enabled && i != 0 then setFld t.w0 31 31 0 else t.w0 }
  match i with
  | 0 =>
    let u := { t with w0 := v }
    if bit v 31 then
      if bit v 30 then some { u with next := nextPeriodic u.start u.period.toNat now }
      else if u.start ≤ now then none
      else some { u with next := u.start }
    else some u
  | 1 => some { t with start := 2 ^ 32 * v.toNat + t.start % 2 ^ 32 }
  | 2 => some { t with start := 2 ^ 32 * (t.start / 2 ^ 32) + v.toNat }
  | 3 => some { t with period := v }
  | 4 => some { t with count := v }
  | _ => some t

/-- A trigger fires at its instant and rearms or disarms (R177). -/
def Trigger.fire (t : Trigger) : Trigger :=
  let count := if t.periodic && t.count != 0 then t.count - 1 else t.count
  let goOn := t.periodic && !(t.count == 1)
  { t with
    fired := if t.fired = 0xFFFFFFFF then t.fired else t.fired + 1
    last := some t.next
    seq := t.seq + 1
    count := count
    w0 := if goOn then t.w0 else setFld t.w0 31 31 0
    next := if goOn then nextPeriodic t.start t.period.toNat t.next else t.next }

/-- The instants of a trigger that a forward step to `now` passes over, and the trigger after it (R179). A backward
step leaves the next instant as it is: the first later than the last one fired. -/
def Trigger.stepOver (t : Trigger) (now : Nat) : Trigger × Nat :=
  if t.enabled && decide (t.next < now) then
    if t.periodic then
      let p := t.period.toNat
      let n := if p = 0 then 1 else (now - t.next + p - 1) / p
      ({ t with next := t.next + n * p }, n)
    else ({ t with w0 := setFld t.w0 31 31 0 }, 1)
  else (t, 0)

end Sys2Proof.Machine
end

