-- ==== Sys2Proof/Machine/Ops.lean ====
section
/-!
DEFINITION. The operations that the DTU's commands share: counting, interrupts, its own faults, trace offers, frames to
send, and what a change of its time raises.
-/
namespace Sys2Proof.Machine

/-- The state with its DTU changed. -/
def State.onDtu (s : State) (f : Dtu → Dtu) : State := { s with dtu := f s.dtu }

/-- The state with its ZA40 changed. -/
def State.onZa (s : State) (f : Za → Za) : State := { s with za := f s.za }

/-- The free-value counter advanced by one draw. -/
def State.draw (s : State) : State := { s with free := s.free + 1 }

/-- The DTU's frame number and its FTC nanosecond count (R29, R154). -/
def Dtu.frameNow (d : Dtu) : Nat := d.time.frameNow
def Dtu.nowNs (d : Dtu) : Nat := d.time.ns
def Dtu.now (d : Dtu) : Stamp := d.time.stamp

/-- slew_max in force (R181). -/
def Dtu.slewMax (d : Dtu) : Nat := fld d.timeServo 9 0

/-- jump_thr in force (R181). -/
def Dtu.jumpThr (d : Dtu) : Nat := fld d.timeCtl 29 0

/-- The die ID of the tag area (R77). -/
def Dtu.dieId (d : Dtu) : Nat := fld (Memory.readWord d.host.tag 0) 19 0

/-- A status counter, `n` added; it saturates at 2^32 - 1. -/
def Dtu.count (d : Dtu) (c : DCnt) (n : Nat := 1) : Dtu := { d with counters := bump d.counters c n }

/-- A bit of DTU_IRQ_STATUS set (R45). -/
def Dtu.irq (d : Dtu) (i : Nat) : Dtu :=
  { d with host := { d.host with irqStatus := setFld d.host.irqStatus i i 1 } }

/-- irq_o (R46). -/
def Dtu.irqLevel (d : Dtu) : Bool := d.host.irqStatus &&& d.host.irqEnable != 0

/-- The core domain is in reset: a power-on, pin or soft reset is under way (R66, R72). -/
def Dtu.coreReset (d : Dtu) : Bool := d.power.por || d.power.rst || d.power.soft

/-- The core runs: no Lull state, no reset (R44, R461). -/
def Dtu.runs (d : Dtu) : Bool := decide (d.power.lull = 0) && !d.coreReset

/-- The Uplink Port runs. -/
def Dtu.portOn (d : Dtu) : Bool := d.runs && !d.link.rst && !d.link.resetting

/-- frost_req_o: high while the cells are stopped by a Frost (R63). -/
def Dtu.frostReq (d : Dtu) : Bool := d.cells.frozen

/-- margin_req_o (R63, R64): the code driven until the acknowledgement is seen. -/
def Dtu.marginReq (d : Dtu) : Nat := if d.health.acked then 0 else (d.health.driving.map (·.code)).getD 0

/-- fault_rdy_o (R61, R72): low while the queue is full, while the core or the intake is in reset, and in Lull-2 and
Lull-3. -/
def Dtu.faultRdy (d : Dtu) : Bool :=
  decide (d.faults.port.length < 32) && decide (d.power.lull < 2) && !d.coreReset && !d.faults.rst

/-- ul_rst_ind_o (R66, R72, R461): high while the Uplink Port is in reset, for a core reset, ul_rst_n_i, a link reset under
way, or in Lull-2 and Lull-3. -/
def Dtu.ulRstInd (d : Dtu) : Bool := decide (2 ≤ d.power.lull) || d.coreReset || d.link.rst || d.link.resetting

/-- A message merged into an equal one of a queue (R149): the repeat count saturates at 255. -/
def mergeFault (q : List FaultMsg) (m : BitVec 128) : Option (List FaultMsg) :=
  (firstIdx q (fun x => x.message == m)).map (fun i => modAt q i (fun x => { x with repeats := min 255 (x.repeats + 1) }))

/-- A message stamped as it is accepted (R149). -/
def Dtu.stampFault (d : Dtu) (m : BitVec 128) (internal : Bool) : FaultMsg :=
  { message := m, tNs := d.nowNs, temp := d.health.temp, vcore := d.health.vcore, repeats := 1, internal }

/-- A message of the DTU's own enters the internal queue: merged, queued or dropped (R149). -/
def Dtu.raiseMsg (d : Dtu) (m : BitVec 128) : Dtu :=
  match mergeFault d.faults.own m with
  | some q => (({ d with faults := { d.faults with own := q } }).count .faultMerged).count .faultAccepted
  | none =>
    if d.faults.own.length < 8 then
      ({ d with faults := { d.faults with own := d.faults.own ++ [d.stampFault m true] } }).count .faultAccepted
    else d.count .internalDrop

/-- A fault of the DTU's own (R149, R484). -/
def Dtu.raise (d : Dtu) (kind : FaultKind) (op : FaultOp) (detail : Nat) : Dtu :=
  d.raiseMsg (faultOf kind .dtu 0 op d.dieId detail).message

/-- A LEDGER fault to be reported at the next tick, naming UL_CREDIT and the VC (R54, R55, R484). -/
def Dtu.ledgerUl (d : Dtu) (vc : Nat) : Dtu :=
  let m := (faultOf .ledger .dtu 0 .linkRx d.dieId (packNat [(Quantity.ulCredit.code, 31, 24), (vc, 23, 16)])).message
  { d with faults := { d.faults with ledgerDue := d.faults.ledgerDue ++ [m] } }

/-- A class 0 trace record is offered while the trace path captures (R112, R113). DESIGN CHOICE (log entry 180): a FRAME or
LULL record that falls due while a Frost stops capture is made not at all, and is no loss. -/
def Dtu.offer (d : Dtu) (rtype aux payload : Nat) : Dtu :=
  if d.trace.capturing && !d.trace.frozen then
    { d with trace := { d.trace with class0 := d.trace.class0 ++ [{ rtype, aux, payload, ns := none }] } }
  else d

/-- The TIME_STEP record of a step (R110 to R112): it goes before every record stamped after the step, with the stamp of the
FTC as it was. While a Frost stops capture it waits for the thaw, and is stamped then. -/
def Dtu.offerStep (d : Dtu) (before : Nat) (step : Int) : Dtu :=
  if d.trace.capturing then
    let o : TraceOffer := { rtype := 0x11, aux := 0, payload := toTwos 64 step, ns := if d.trace.frozen then none else some before }
    { d with trace := { d.trace with class0 := o :: d.trace.class0 } }
  else d

/-- The triggers after the FTC was stepped forward over instants (R179). -/
def Dtu.stepTrigs (d : Dtu) : Dtu :=
  let r := d.trigs.map (fun t => t.stepOver d.nowNs)
  let n := (r.map Prod.snd).sum
  { d with trigs := r.map Prod.fst, time := d.time.count .trigSkipped n }

/-- What a change of the time unit raises in a DTU: TIME_JUMP (R163), time_lost (R45, R159), TIME_STEP records and
skipped trigger instants (R110, R179); `before` is the FTC before it. -/
def Dtu.timeEvents (before : Nat) (d : Dtu) : List TimeEvent → Dtu
  | [] => d
  | .jump off :: r =>
    let src := d.host.timeSrc
    let ns := toTwos 32 (clampInt (-(2 ^ 31 - 1)) (2 ^ 31 - 1) (Int.tdiv off 65536))
    Dtu.timeEvents before (d.raiseMsg (faultOf .timeJump .timeUnit src .timeSample d.dieId ns).message) r
  | .holdover :: r => Dtu.timeEvents before (d.irq 4) r
  | .lock :: r => Dtu.timeEvents before d r
  | .step ns :: r => Dtu.timeEvents before (d.offerStep before ns).stepTrigs r

/-- The DTU with its time unit changed and what that raises. -/
def Dtu.withTime (d : Dtu) (p : TimeUnit × List TimeEvent) : Dtu := Dtu.timeEvents d.nowNs { d with time := p.1 } p.2

/-- The FTC reaches an instant. -/
def Dtu.reach (d : Dtu) (ns : Nat) : Dtu := { d with time := d.time.reach d.slewMax d.build.timePeriod ns }

/-- DTU_PORT_STATUS as the DTU presents it (R43, R45): 0 while the Uplink Port is unpowered or in reset. -/
def Dtu.portStatus (d : Dtu) : W :=
  if d.ulRstInd then 0
  else pack [(d.link.version / 16, 31, 28), (d.link.version % 16, 27, 24), (d.link.linkState, 2, 0)]

/-- The VC of a class on a DTU link (R343). -/
def vcOf (cls : Nat) : Nat :=
  if cls = 3 ∨ cls = 4 then 1 else if cls = 5 then 2 else if cls = 6 then 3 else 0

/-- A frame queued on a VC (R53): VC 1 holds contributions, which have a queue of their own. -/
def Dtu.queue (d : Dtu) (f : TxFrame) : Dtu :=
  match vcOf f.cls with
  | 2 => { d with link := { d.link with vc2 := d.link.vc2 ++ [f] } }
  | 3 => { d with link := { d.link with vc3 := d.link.vc3 ++ [f] } }
  | _ => { d with link := { d.link with vc0 := d.link.vc0 ++ [f] } }

/-- A frame of no context toward the admitting aggregator. -/
def Dtu.toAgg (d : Dtu) (cls msg : Nat) (body : List W) (plen : Nat) : TxFrame :=
  { cls, msg, dest := d.link.aggMac, ctx := 0xFFFF, gen := 0, plen, body }

/-- The address of a DTU (R339). -/
def dtuMac (die : Nat) : Mac := BitVec.ofNat 48 (packNat [(0x02, 47, 40), (0x44, 39, 32), (die, 19, 0)])

/-- The address of a ZA40 link (R339). -/
def linkMac (agg p : Nat) : Mac :=
  BitVec.ofNat 48 (packNat [(0x02, 47, 40), (0x5A, 39, 32), (agg, 31, 20), (p, 19, 12)])

/-- The "my aggregator" address (R339). -/
def myAggMac : Mac := linkMac 0 0xFF

/-- An address is some ZA40 link's (R339). -/
def isLinkMac (m : Mac) : Bool := decide (bits m.toNat 47 32 = 0x025A ∧ bits m.toNat 19 12 ≤ 81 ∧ bits m.toNat 11 0 = 0)

/-- The first 30 bytes of a frame as they are checked by hcrc, and the hcrc (R341). -/
def hdrBytes (f : Frame) : List Byte :=
  let byte (n : Nat) : Byte := BitVec.ofNat 8 n
  let mac (m : Mac) : List Byte := [5, 4, 3, 2, 1, 0].map (fun k => byte (bits m.toNat (8 * k + 7) (8 * k)))
  let half (n : Nat) : List Byte := [byte (n / 256), byte n]
  mac f.dest ++ mac f.src ++ half f.ethertype.toNat ++
    [f.tver, byte (f.cls.toNat * 16 + f.rsv15.toNat), f.msg, f.rsv17] ++ half f.fabricId.toNat ++ half f.ctx.toNat ++
    [f.gen, f.rsv23] ++ wordBytes f.lseq ++ half f.plen.toNat

/-- hcrc: bits [15:0] of the CRC-32C of bytes 0 to 29 (R341). -/
def frameHcrc (f : Frame) : BitVec 16 := BitVec.ofNat 16 (fld (crc32c (hdrBytes f)) 15 0)

/-- A frame with its hcrc in place. -/
def Frame.sealed (f : Frame) : Frame := { f with hcrc := frameHcrc f }

/-- A waiting frame as it leaves, with the sender's address, version, fabric ID and lseq (R341, R350). -/
def TxFrame.leave (t : TxFrame) (src : Mac) (ethertype fabricId : BitVec 16) (version : Nat) (lseq : W) : Frame :=
  Frame.sealed
    { dest := t.dest, src, ethertype, tver := BitVec.ofNat 8 version, cls := BitVec.ofNat 4 t.cls, rsv15 := 0,
      msg := BitVec.ofNat 8 t.msg, rsv17 := 0, fabricId, ctx := t.ctx, gen := t.gen, rsv23 := 0, lseq,
      plen := BitVec.ofNat 16 t.plen, hcrc := 0, body := t.body }

/-- A class name by its code (R343). -/
def clsLink : Nat := 0
def clsCtrl : Nat := 1
def clsFrost : Nat := 2
def clsRed : Nat := 3
def clsParam : Nat := 4
def clsBulk : Nat := 5
def clsTime : Nat := 6
def clsPeer : Nat := 7

end Sys2Proof.Machine
end

