-- ==== Sys2Proof/Machine/DtuTrace.lean ====
section
/-!
DEFINITION. Traces and compression (R109 to R128): capture, the compressor, blocks, save and restore, and the meanings
of the trace rows.
-/
namespace Sys2Proof.Machine

/-- Reset words of the trace registers in command space (R479). -/
def trcReset (a : Nat) : W :=
  if a = 0x20000 then trcCfgReset
  else if a = 0x20020 then trcSizeReset
  else if a = 0x20044 then 0x8
  else if a = 0x20048 then 0x60
  else if a = 0x2004C then 0x30
  else 0

/-- A trace register in force: DTU_TRC_CFG, DTU_TRC_SIZE, the floors, the taps and the clusters (R117). -/
def Trace.inForce (t : Trace) (a : Nat) : W := regGet trcReset t.force a

def Trace.rawTokens (t : Trace) : Nat := fld (t.inForce 0x20020) 11 0
def Trace.payloadMax (t : Trace) : Nat := fld (t.inForce 0x20020) 31 16
def Trace.level (t : Trace) : Nat := min 3 (fld (t.inForce 0x20000) 30 29)
def Trace.carry (t : Trace) : Bool := bit (t.inForce 0x20000) 28
def Trace.markFrames (t : Trace) : Bool := bit (t.inForce 0x20000) 27
def Trace.flushSlots (t : Trace) : Nat := fld (t.inForce 0x20000) 23 16
def Trace.restartBlocks (t : Trace) : Nat := fld (t.inForce 0x20000) 15 8
def Trace.resumeTokens (t : Trace) : Nat := fld (t.inForce 0x20000) 7 0
def Trace.enabled (t : Trace) : Bool := bit (regGet trcReset t.cfg 0x20000) 31

/-- The floor of class k (R116); class 0 has none. -/
def Trace.floor (t : Trace) (k : Nat) : Nat := if k = 0 then 0 else fld (t.inForce (0x20040 + 4 * k)) 11 0

/-- Raw ring tokens held: from the first byte written to the last byte consumed; 64 records to a token (R115). -/
def Trace.rawHeld (t : Trace) : Nat := (t.rawWritten + 63) / 64 - t.rawRead / 64

def Trace.rawFree (t : Trace) : Nat := t.rawTokens - t.rawHeld

/-- The raw ring has room for a record: a token free, or one partly written. -/
def Trace.hasRoom (t : Trace) : Bool := decide (0 < t.rawFree) || decide (t.rawWritten % 64 ≠ 0)

/-- Some class is being refused (DTU_TRC_STATUS.refusing). -/
def Trace.refusing (t : Trace) : Bool :=
  !t.hasRoom || [1, 2, 3].any (fun k => decide (t.rawFree < t.floor k))

/-- The bytes of records, most significant first (R109). -/
def recBytes (rs : List TraceRec) : List Byte := rs.flatMap bytesOf

/-- One stored DEFLATE block (RFC 1951; R118). -/
def storedBlock (final : Bool) (bs : List Byte) : List Byte :=
  let n := bs.length
  [BitVec.ofNat 8 (b2n final), BitVec.ofNat 8 (n % 256), BitVec.ofNat 8 (n / 256),
   BitVec.ofNat 8 (255 - n % 256), BitVec.ofNat 8 (255 - n / 256)] ++ bs

/-- Data as stored blocks of at most 16,384 bytes, the last one final when asked (R118). -/
def storedBlocks (final : Bool) (bs : List Byte) : List Byte :=
  let cs := chunksOf (bs.length / 16384 + 1) 16384 bs
  let n := cs.length
  ((List.range n).zip cs).flatMap (fun p => storedBlock (final && decide (p.1 + 1 = n)) p.2)

/-- The flush marker: an empty stored block, BFINAL 0 (R121). -/
def flushMark : List Byte := [0, 0, 0, 0xFF, 0xFF]

/-- The end block's payload (R122). -/
def endPayload : List Byte := [0x03, 0x00]

/-- The payload of a block of data (R118, R119, R121). Levels 1 to 3 leave the choice of matches and codes open, a free
value of which only that counts which an RFC 1951 decoder reads back as the data within the limits of R118; where it would
expand, stored blocks are used. -/
def payloadOf (level : Nat) (final : Bool) (history data : List Byte) : List Byte :=
  let stored := storedBlocks final data ++ (if final then [] else flushMark)
  let packed := Config.deflateBytes level final history data
  if level ≠ 0 && deflateSound level final history data packed && decide (packed.length ≤ stored.length) then packed
  else stored

/-- The history the open block's matches may reach (R121). -/
def Trace.openHistory (t : Trace) : List Byte := if t.carry && !t.fresh then t.history else []

/-- The payload the open block would have if it closed now without ending the stream. -/
def Trace.openPayload (t : Trace) (bs : List Byte) : List Byte := payloadOf t.level (!t.carry) t.openHistory bs

/-- The most bytes the open block's payload takes, however it closes: room is kept for the closing bytes (R120). -/
def Trace.openSize (t : Trace) (bs : List Byte) : Nat :=
  max (t.openPayload bs).length (payloadOf t.level true t.openHistory bs).length

/-- Block-ring tokens of a payload (R115). -/
def blockTokens (n : Nat) : Nat := (n + 1023) / 1024

/-- Tokens queued: waiting blocks and the open block; tokens sent: the block whose packet is crossing (R115). -/
def Trace.openTokens (t : Trace) : Nat := if t.openRecs = [] then 0 else blockTokens (t.openSize (recBytes t.openRecs))
def Trace.queuedTokens (t : Trace) : Nat := (t.blocks.map (fun b => blockTokens b.payload.length)).sum + t.openTokens
def Trace.sentTokens (t : Trace) : Nat := (t.sending.map (fun b => blockTokens b.payload.length)).getD 0
def Trace.blockFree (t : Trace) : Nat := 4063 - t.rawTokens - t.queuedTokens - t.sentTokens

/-- The regions whose tokens do not add up: 0 raw ring, 1 block ring (R115, R399). The state area is always 33. -/
def Trace.tokenFaults (t : Trace) : List Nat :=
  (if t.rawHeld + t.rawFree = t.rawTokens then [] else [0]) ++
  (if t.queuedTokens + t.sentTokens + t.blockFree = 4063 - t.rawTokens then [] else [1])

/-- DTU_TRC_CONSUMED: the whole records of the open block, and what was taken of the next one before a stop (R123). -/
def Trace.consumed (t : Trace) : Nat := 16 * t.openRecs.length + t.openPart

/-- DTU_TRC_PRODUCED (R123): the payload without its closing bytes; at a stop for space, all the tokens there were. -/
def Trace.produced (t : Trace) : Nat :=
  if t.starved then 1024 * (t.openTokens + t.blockFree)
  else if t.openRecs = [] then 0
  else (t.openPayload (recBytes t.openRecs)).length - (if t.carry then 5 else 0)

/-- The compressor is stopped, or must stop. -/
def Trace.stopped (t : Trace) : Bool := t.starved || t.fullStop

/-- Records lost since the last LOSS record, one kind added: 0 EVENT, 1 TAP, 2 HOST, 3 other (R110, R116). -/
def Trace.lose (t : Trace) (kind n : Nat) : Trace := { t with losses := modAt t.losses kind (· + n) }

/-- A LOSS record is due before the next captured record (R112): after a loss, or for a cut not yet told of (R125). -/
def Trace.lossDue (t : Trace) : Bool := (t.cut && !t.cutSaid) || t.losses.any (· != 0)

/-- The LOSS record's payload (R110); an unknown loss reads other = 0xFFFF (R125). -/
def Trace.lossPayload (t : Trace) : Nat :=
  packNat [(min 0xFFFF (t.losses.getD 0 0), 63, 48), (min 0xFFFF (t.losses.getD 1 0), 47, 32),
    (min 0xFFFF (t.losses.getD 2 0), 31, 16),
    (if t.cut && !t.cutSaid then 0xFFFF else min 0xFFFF (t.losses.getD 3 0), 15, 0)]

/-- A record as captured: stamp, type, aux, payload (R109, R111). -/
def traceRec (now rtype aux payload : Nat) : TraceRec :=
  [w32 (now % 2 ^ 48 / 65536), pack [(now % 65536, 31, 16), (rtype, 15, 8), (aux, 7, 0)]] ++ twoWords payload

/-- A record is written into the raw ring at an instant. -/
def Trace.write (t : Trace) (ns rtype aux payload : Nat) : Trace :=
  { t with raw := t.raw ++ [{ ns, words := traceRec ns rtype aux payload }], rawWritten := t.rawWritten + 1 }

/-- The LOSS record is written, and the counts start again. -/
def Trace.writeLoss (t : Trace) (ns : Nat) : Trace :=
  { (t.write ns 0x14 0 t.lossPayload) with losses := [0, 0, 0, 0], cutSaid := t.cut }

/-- A record of class k is taken at capture: the ring has room and raw_free is not below its floor (R116). -/
def Trace.admits (t : Trace) (k : Nat) : Bool := t.hasRoom && decide (t.floor k ≤ t.rawFree)

/-- One capture cycle in progress: the DTU and the records it may still take. -/
abbrev CaptureState := Dtu × Nat

/-- What became of a record at capture: taken, refused, or left for a later cycle. -/
inductive CaptureEnd
  | taken | refused | waits
  deriving DecidableEq, Repr

/-- The instant a record is stamped with: that of the cycle, or the one its offer fixed (R111, R112). -/
def Dtu.captureNs (d : Dtu) (o : TraceOffer) : Nat := o.ns.getD d.nowNs

/-- A refused record is counted by its class, and as lost (R116). -/
def Dtu.refuseRec (d : Dtu) (k lossKind : Nat) : Dtu :=
  ({ d with trace := d.trace.lose lossKind 1 }).count (.refused k)

/-- One attempt to capture a record (R112, R113, R116): a LOSS record goes first when one is due, and is one of the four of
the cycle; the floor is tested again after it. -/
def Dtu.capture (k lossKind : Nat) (o : TraceOffer) : CaptureState → CaptureState × CaptureEnd
  | (d, n) =>
    let ns := d.captureNs o
    let wrote (d : Dtu) (n : Nat) : CaptureState × CaptureEnd :=
      (({ d with trace := d.trace.write ns o.rtype o.aux o.payload }, n - 1), .taken)
    if n = 0 then ((d, n), .waits)
    else if !d.trace.admits k then ((d.refuseRec k lossKind, n), .refused)
    else if !d.trace.lossDue then wrote d n
    else
      let d := ({ d with trace := d.trace.writeLoss ns }).count .lossRecords
      if n = 1 then ((d, 0), .waits)
      else if !d.trace.admits k then ((d.refuseRec k lossKind, n - 1), .refused)
      else wrote d (n - 1)

/-- Class 0 records, oldest first (R113). -/
def Dtu.captureClass0 : List TraceOffer → CaptureState → CaptureState
  | [], c => c
  | o :: r, c =>
    match Dtu.capture 0 3 o c with
    | (c, .waits) => c
    | (c, _) => Dtu.captureClass0 r ({ c.1 with trace := { c.1.trace with class0 := c.1.trace.class0.drop 1 } }, c.2)

/-- Every class 0 record that waits is captured, in as many cycles as that takes. -/
def Dtu.captureAll0 (d : Dtu) : Dtu := (Dtu.captureClass0 d.trace.class0 (d, d.trace.class0.length + 1)).1

/-- The HOST record (R113, R114). -/
def Dtu.captureHost (c : CaptureState) : CaptureState :=
  match c.1.trace.host with
  | none => c
  | some o =>
    match Dtu.capture 1 2 o c with
    | (c, .waits) => c
    | (c, .taken) => ({ c.1 with trace := { c.1.trace with host := none } }, c.2)
    | (c, .refused) =>
      ({ c.1 with trace := { c.1.trace with host := none, hostRefused := min 0xFFFF (c.1.trace.hostRefused + 1) } }, c.2)

/-- The observed domain of a strobe and of a tap (R37). -/
def Build.strobeDomain (b : Build) (s : Nat) : Nat := aGetD b.strobeDom s 0
def Build.tapDomain (b : Build) (t : Nat) : Nat := aGetD b.tapDom t 0

/-- The EVENT record of a cell with its since-count (R110). -/
def Dtu.eventOffer (d : Dtu) (cell : Nat) : TraceOffer :=
  { rtype := 0x01, aux := 0, ns := none
    payload := packNat [(cell, 63, 52), (d.build.strobeDomain cell, 51, 48),
      (min 0xFFFFFFFF (aGetD d.trace.events cell 0), 31, 0)] }

/-- EVENT records in ascending cell index (R110, R113): a captured one restarts its since-count. -/
def Dtu.captureEvents : List Nat → CaptureState → CaptureState
  | [], c => c
  | cell :: r, c =>
    match Dtu.capture 2 0 (c.1.eventOffer cell) c with
    | (c, .waits) => c
    | (c, e) =>
      let t := c.1.trace
      let events := if e = .taken then aDel t.events cell else t.events
      Dtu.captureEvents r ({ c.1 with trace := { t with events, dueCells := t.dueCells.filter (· != cell) } }, c.2)

/-- The TAP record of a tap: its since-count and newest sample (R110). -/
def Dtu.tapOffer (d : Dtu) (tap : Nat) : TraceOffer :=
  let v := aGetD d.trace.taps tap (0, 0)
  { rtype := 0x02, aux := 0, ns := none
    payload := packNat [(tap, 63, 58), (d.build.tapDomain tap, 57, 54), (min 0xFFFF v.1, 47, 32), (v.2, 15, 0)] }

/-- TAP records in ascending tap index (R110, R113). -/
def Dtu.captureTaps : List Nat → CaptureState → CaptureState
  | [], c => c
  | tap :: r, c =>
    match Dtu.capture 3 1 (c.1.tapOffer tap) c with
    | (c, .waits) => c
    | (c, e) =>
      let t := c.1.trace
      let taps := if e = .taken then aDel t.taps tap else t.taps
      Dtu.captureTaps r ({ c.1 with trace := { t with taps, dueTaps := t.dueTaps.filter (· != tap) } }, c.2)

/-- The settings as written take force at a block boundary (R117). -/
def Trace.adopt (t : Trace) : Trace := if t.openRecs = [] then { t with force := t.cfg } else t

/-- Another record might push the payload past payload_max (R120): the one that is next, or an empty one when none waits. -/
def Trace.mightPass (t : Trace) : Bool :=
  let next := (t.raw.head?.map RawRec.words).getD [0, 0, 0, 0]
  decide (t.payloadMax < t.openSize (recBytes (t.openRecs ++ [next])))

/-- The block is number restart_blocks of its stream, or seq has reached its end (R120). -/
def Trace.streamFull (t : Trace) : Bool :=
  decide (t.restartBlocks ≠ 0 ∧ t.seq + 1 = t.restartBlocks) || decide (t.seq = 0xFFFFFF)

/-- A closure that waits can be made: every one but the end of a stream, which comes when the records captured before it
are consumed (R122). -/
def Trace.ready (t : Trace) (w : TraceWait) : Bool := w.cause != 4 || decide (w.upTo ≤ t.rawRead)

/-- The causes of the open block's own that hold at a record boundary (R120). -/
def Trace.ownCauses (now : Nat) (t : Trace) : List Nat :=
  if t.openRecs = [] then []
  else
    ([(0, t.mightPass), (1, decide (4096 ≤ t.openRecs.length)),
      (2, decide (t.openFirst + 16384 * t.flushSlots < now)), (8, t.streamFull)].filter Prod.snd).map Prod.fst

/-- The closures that wait and can be made, in ascending cause. -/
def Trace.readyWaits (t : Trace) : List TraceWait := sortBy TraceWait.cause (t.waits.filter t.ready)

/-- The causes that hold at a record boundary (R120). -/
def Trace.causes (now : Nat) (t : Trace) : List Nat := t.ownCauses now ++ t.readyWaits.map TraceWait.cause

/-- The compressor reads: enable is 1, or a stream that was switched off still has records (R122). -/
def Trace.running (t : Trace) : Bool := t.enabled || t.waits.any (fun w => w.cause == 4)

/-- The bytes of a record the compressor had taken when it needed a token beyond the `room` it had (R118, R123): it takes
16, 8 or 4 at a time by its level. -/
def Trace.partAt (t : Trace) (room : Nat) (r : TraceRec) : Nat :=
  let unit := if t.level = 0 then 16 else if t.level = 3 then 4 else 8
  let taken := (List.range (16 / unit)).map (fun i => unit * (i + 1))
  let tooBig (n : Nat) : Bool := decide (room < blockTokens (t.openSize (recBytes t.openRecs ++ (recBytes [r]).take n)))
  (taken.find? tooBig).getD 16

/-- The compressor takes records from the raw ring into the open block until the ring is empty, a cause to close holds at a
record boundary, or no block-ring token is free (R120, R123). -/
def Trace.consume (now : Nat) : Nat → Trace → Trace
  | 0, t => t
  | fuel + 1, t =>
    match t.raw with
    | [] => t
    | r :: rest =>
      if t.stopped || !t.running || (t.openPart == 0 && t.causes now != []) then t
      else
        let t := t.adopt
        let recs := t.openRecs ++ [r.words]
        let room := t.blockFree + t.openTokens
        if room < blockTokens (t.openSize (recBytes recs)) then { t with starved := true, openPart := t.partAt room r.words }
        else
          Trace.consume now fuel
            { t with raw := rest, rawRead := t.rawRead + 1, openRecs := recs, openPart := 0,
                     openFirst := if t.openRecs = [] then r.ns else t.openFirst }

/-- The compressor reads all it can. -/
def Dtu.compress (d : Dtu) : Dtu :=
  { d with trace := d.trace.consume d.nowNs (d.trace.raw.length + 1) }

/-- The LOSS records of a block. -/
def lossRecs (rs : List TraceRec) : List TraceRec := rs.filter (fun r => wf r 1 15 8 == 0x14)

/-- The sum of a block's LOSS counts (R126); unknown when a loss of R125 is among them, which the first LOSS record after a
cut tells. -/
def lostOf (cut : Bool) (rs : List TraceRec) : Nat :=
  if cut && !(lossRecs rs).isEmpty then 0xFFFFFFFF
  else min 0xFFFFFFFE ((lossRecs rs).map (fun r => wf r 2 31 16 + wf r 2 15 0 + wf r 3 31 16 + wf r 3 15 0)).sum

/-- The since-counts restart as a stream starts (R112). -/
def Trace.restartCounts (t : Trace) : Trace := { t with events := [], taps := [], dueCells := [], dueTaps := [] }

/-- A new stream starts (R112, R128). -/
def Dtu.newStream (d : Dtu) : Dtu := ({ d with trace := d.trace.restartCounts }).count .streams

/-- The next block begins stream + 1 at seq 0 with empty history. -/
def Trace.nextStream (t : Trace) : Trace :=
  { t with stream := (t.stream + 1) % 256, seq := 0, fresh := true, history := [] }

/-- The open block closes with a cause; `ends` closes the stream with it (R120, R121, R126). Without a record it is the end
block of R122. -/
def Dtu.closeBlock (d : Dtu) (cause : Nat) (ends : Bool) : Dtu :=
  let t := d.trace
  let data := recBytes t.openRecs
  let payload := if t.openRecs = [] then endPayload else payloadOf t.level (ends || !t.carry) t.openHistory data
  let b : TraceBlock :=
    { stream := t.stream, seq := t.seq, start := t.fresh || !t.carry, final := ends, carry := t.carry, cause,
      records := t.openRecs.length, firstNs := if t.openRecs = [] then 0 else t.openFirst,
      lost := lostOf t.cut t.openRecs, dataCrc := crc32c data, payload }
  let cut := t.cut && b.lost != 0xFFFFFFFF
  let hist := t.openHistory ++ data
  let t := { t with blocks := t.blocks ++ [b], openRecs := [], cut, cutSaid := t.cutSaid && cut }
  let t := if ends then t.nextStream
    else { t with seq := (t.seq + 1) % 2 ^ 24, fresh := !t.carry,
                  history := if t.carry then hist.drop (hist.length - 32768) else [] }
  ({ d with trace := t.adopt }).count .blocksCommitted

/-- A long command of the DTU ends; its DONE_HANDLE is posted by its own row (R374). -/
def Dtu.finish (d : Dtu) (h : W) (r : Result) : Dtu :=
  let longs := modWhere d.cmds.longs (fun l => l.handle == h && l.done.isNone) (fun l => { l with done := some r })
  { d with cmds := { d.cmds with longs := longs } }

/-- A result with a status only. -/
def resultOf (status : Nat) : Result := { status, detail := 0, result0 := 0, payload := [], trunc := false }

/-- The state image is written (R124): header words, window, check. -/
def Dtu.saveImage (d : Dtu) : Dtu :=
  let t := d.trace
  let header := [pack [(1, 31, 24)], pack [(t.stream, 31, 24), (t.seq, 23, 0)],
    pack [(t.level, 31, 30), (b2n t.carry, 29, 29), (b2n t.markFrames, 28, 28), (t.history.length, 15, 0)]]
  let pad := List.replicate (1020 - 12) (0 : Byte)
  let window := t.history ++ List.replicate (32768 - t.history.length) 0
  let im : TraceImage := { valid := true, header, window := t.history, crc := crc32c (bytesOf header ++ pad ++ window) }
  ({ d with trace := { t with image := im } }).count .saves

/-- The image passes its check (R124). -/
def TraceImage.sound (im : TraceImage) : Bool :=
  let pad := List.replicate (1020 - 12) (0 : Byte)
  let window := im.window ++ List.replicate (32768 - im.window.length) 0
  im.valid && im.crc == crc32c (bytesOf im.header ++ pad ++ window) && wf im.header 0 31 0 == 0x01000000

/-- The stream of a state image. -/
def TraceImage.stream (im : TraceImage) : Nat := wf im.header 1 31 24

/-- The stream continues from the image and the image is no longer valid (R124); one saved before its first block still
begins with empty history. -/
def Dtu.loadImage (d : Dtu) : Dtu :=
  let im := d.trace.image
  let seq := wf im.header 1 23 0
  let t := { d.trace with
    stream := im.stream, seq, history := im.window, fresh := decide (seq = 0), image := .none, restored := true }
  ({ d with trace := t }).count .restores

/-- enable written in DTU_TRC_CFG. -/
def Trace.setEnable (t : Trace) (on : Bool) : Trace :=
  { t with cfg := regSet trcReset t.cfg 0x20000 (setFld (regGet trcReset t.cfg 0x20000) 31 31 (b2n on)) }

/-- The end of a stream whose last block did not say it (R122): with carry an end block, which takes a token of the block
ring; the wait goes on while none is free. -/
def Dtu.endStream (d : Dtu) (w : TraceWait) : Dtu :=
  let t := d.trace
  if !t.carry then { d with trace := { t.nextStream with image := .none } }
  else if t.blockFree = 0 then { d with trace := { t with waits := t.waits ++ [w], starved := true } }
  else
    let d := d.closeBlock 4 true
    { d with trace := { d.trace with image := .none } }

/-- What a closure that waited does after the block has closed (R122 to R125): enable = 0 ends the stream, a save writes the
image and sets enable 0, and a command completes. The Bool says that a block with the end flag has just closed. -/
def Dtu.actWait : Dtu × Bool → TraceWait → Dtu × Bool
  | (d, ended), w =>
    let p : Dtu × Bool :=
      if w.cause = 4 then
        (if ended then { d with trace := { d.trace with image := .none } } else d.endStream w, false)
      else if w.cause = 7 then
        let d := d.saveImage
        ({ d with trace := { d.trace.setEnable false with capturing := false } }, ended)
      else (d, ended)
    match w.handle with
    | some h => (p.1.finish h (resultOf 0), p.2)
    | none => p

/-- The closure at a record boundary (R120, R121): the open block closes once, with the lowest cause that holds; the waits
that could be served are, in ascending cause. With carry the block of cause 8 ends its stream and the next one starts. -/
def Dtu.closeNow (d : Dtu) : Dtu :=
  let t := d.trace
  let cs := t.causes d.nowNs
  let ws := t.readyWaits
  let opened := t.openRecs != []
  let off := opened && ws.any (fun w => w.cause == 4)
  let full := opened && t.carry && t.streamFull && !off
  let d := { d with trace := { t with waits := t.waits.filter (fun w => !t.ready w) } }
  let d := if opened && cs != [] then d.closeBlock (cs.foldl min 8) (off || full) else d
  let d := if full then d.newStream else d
  (ws.foldl Dtu.actWait (d, off)).1

/-- The closures that wait are made at the next record boundary, unless the compressor is stopped (R120, R123); one that
ends a stream lets the compressor come to its last record, blocks closing as their content demands (R122). -/
def Dtu.settle : Nat → Dtu → Dtu
  | 0, d => d
  | fuel + 1, d =>
    if d.trace.waits = [] || d.trace.stopped then d
    else
      let d := if d.trace.readyWaits = [] then d.compress else d
      if d.trace.stopped || d.trace.causes d.nowNs == [] then d else Dtu.settle fuel d.closeNow

def Dtu.actWaits (d : Dtu) : Dtu := Dtu.settle (d.trace.raw.length + d.trace.waits.length + 2) d

/-- A closure is asked for. -/
def Dtu.askClose (d : Dtu) (cause : Nat) (handle : Option W) : Dtu :=
  let w : TraceWait := { cause, handle, upTo := d.trace.rawWritten }
  ({ d with trace := { d.trace with waits := d.trace.waits ++ [w] } }).actWaits

/-- The lowest cause that now closes the open block without having been asked for: 0, 1, 2 or 8 (R120). -/
def Dtu.ownCause (d : Dtu) : Option Nat := (d.trace.ownCauses d.nowNs).head?

/-- The stream that ran before still ends, when its last records are consumed (R122). -/
def Trace.ending (t : Trace) : Bool := t.waits.any (fun w => w.cause == 4)

/-- enable written 0 to 1: the restored stream goes on, or a new one starts (R122, R124); a stream that a save left
unfinished is not taken up under its number. -/
def Dtu.traceOn (d : Dtu) : Dtu :=
  let t := { (d.trace.setEnable true).adopt with capturing := true }
  if t.restored then { d with trace := { t with restored := false } }
  else
    let t := if t.ending then t
      else if t.image.valid || t.seq != 0 then t.nextStream
      else { t with fresh := true, history := [] }
    ({ d with trace := t }).newStream

/-- enable written 1 to 0: capture stops, the records captured are consumed, the block closes with cause 4 and the stream
ends (R122). -/
def Dtu.traceOff (d : Dtu) : Dtu :=
  let t := { d.trace.setEnable false with
    capturing := false, class0 := [], host := none, dueCells := [], dueTaps := [] }
  ({ d with trace := t }).askClose 4 none

/-- A save is closing the block, so that enable may not be written 0 (R125). -/
def Trace.saving (t : Trace) : Bool := t.waits.any (fun w => w.cause == 7)

/-- The trace buffer is cleared by a reset, Lull-3 or a failed check (R125): a cut is remembered if a ring held data. After
a failed check the settings, the capture and what waits for a closure go on. -/
def Trace.clear (t : Trace) (keepCfg : Bool) : Trace :=
  let held := t.raw != [] || t.openRecs != [] || t.blocks != [] || t.sending.isSome
  { Trace.initial with
    cut := t.cut || held
    stream := (t.stream + 1) % 256
    hostRefused := t.hostRefused
    cfg := if keepCfg then t.cfg else []
    force := if keepCfg then t.cfg else []
    capturing := keepCfg && t.capturing
    frozen := keepCfg && t.frozen
    waits := if keepCfg then t.waits.filter (fun w => w.cause != 4) else [] }

/-- The check of the trace tokens at a tick (R115, R238): a failed one raises LEDGER naming TRACE_TOKEN and the region, and
the buffer is cleared. -/
def Dtu.auditTokens (d : Dtu) : Dtu :=
  let bad := d.trace.tokenFaults
  if bad = [] then d
  else
    let detail (region : Nat) : Nat := packNat [(Quantity.traceToken.code, 31, 24), (region, 23, 16)]
    let d := bad.foldl (fun d x => d.raise .ledger .trace (detail x)) d
    let d := { d with trace := d.trace.clear true }
    (if d.trace.capturing then d.newStream else d).actWaits

/-- A link reset meets the trace path (R125): the block in transmission is discarded, and with carry its whole stream. The
stream that the packet was of has ended: if it still runs or is saved, the next block begins a new one. -/
def Dtu.traceLinkReset (d : Dtu) : Dtu :=
  match d.trace.sending with
  | none => d
  | some b =>
    let t := d.trace
    let runs := t.stream == b.stream
    let gone := if b.carry then t.blocks.filter (fun x => x.stream == b.stream) else []
    let opened := if b.carry && runs then t.openRecs else []
    let n := b.records + (gone.map (·.records)).sum + opened.length
    let t := { t with
      sending := none
      blocks := if b.carry then t.blocks.filter (fun x => x.stream != b.stream) else t.blocks
      openRecs := if b.carry && runs then [] else t.openRecs
      openPart := if b.carry && runs then 0 else t.openPart
      image := if t.image.stream = b.stream then .none else t.image }
    let t := if runs then t.nextStream else t
    let d := ({ d with trace := t.lose 3 n }).count .blocksDiscarded (1 + gone.length + b2n (opened != []))
    if runs && t.capturing then d.newStream else d

/-- The wrapper's eight words (R126). -/
def TraceBlock.wrapper (b : TraceBlock) (die : Nat) : List W :=
  withCrc ([pack [(1, 31, 28), (b2n b.start, 27, 27), (b2n b.final, 26, 26), (b2n b.carry, 25, 25),
      (b2n (b.lost != 0), 24, 24), (b.cause, 23, 20), (die, 19, 0)],
    pack [(b.stream, 31, 24), (b.seq, 23, 0)], pack [(b.payload.length, 31, 16), (b.records, 15, 0)]] ++
    twoWords b.firstNs ++ [w32 b.lost, b.dataCrc])

/-- The BULK TRACE frame of a block (R126, R345). -/
def Dtu.traceFrame (d : Dtu) (b : TraceBlock) : TxFrame :=
  d.toAgg clsBulk 0x01 (b.wrapper d.dieId ++ wordsOf b.payload) (32 + b.payload.length)

/-- A block's packet has crossed: its tokens are free (R115). -/
def Dtu.blockCrossed (d : Dtu) : Dtu :=
  match d.trace.sending with
  | none => d
  | some _ => ({ d with trace := { d.trace with sending := none } }).count .blocksSent

/-- Events of a cell merged into the core feed its trace since-count; it falls due at each 2^div of them (R112). -/
def Trace.cellEvents (t : Trace) (cell n : Nat) : Trace :=
  let w := t.inForce (0x20400 + 16 * (cell / 64))
  let i := cell % 64
  let m := t.inForce (0x20400 + 16 * (cell / 64) + (if i < 32 then 8 else 4))
  if t.capturing && !t.frozen && bit w 31 && bit m (i % 32) then
    let old := aGetD t.events cell 0
    let div := 2 ^ fld w 27 24
    let t := { t with events := aPut t.events cell (old + n) }
    if old / div < (old + n) / div ∧ !t.dueCells.contains cell then
      { t with dueCells := insertBy id cell t.dueCells } else t
  else t

/-- A sample of a tap feeds its trace since-count (R112, R113). -/
def Trace.tapSample (t : Trace) (tap v : Nat) : Trace :=
  let w := t.inForce (0x20100 + 4 * tap)
  if t.capturing && !t.frozen && bit w 31 then
    let old := (aGetD t.taps tap (0, 0)).1
    let div := 2 ^ fld w 27 24
    let t := { t with taps := aPut t.taps tap (old + 1, v) }
    if old / div < (old + 1) / div ∧ !t.dueTaps.contains tap then
      { t with dueTaps := insertBy id tap t.dueTaps } else t
  else t

/-! ### The rows. -/

/-- TRACE_CAPTURE (R113, R116): one core cycle's capture, then the compressor's reading. -/
def Dtu.traceCapture (d : Dtu) : Dtu :=
  if !d.runs then d
  else if d.trace.capturing && !d.trace.frozen then
    let c := Dtu.captureHost (Dtu.captureClass0 d.trace.class0 (d, 4))
    let c := Dtu.captureEvents c.1.trace.dueCells c
    (Dtu.captureTaps c.1.trace.dueTaps c).1.compress
  else d.compress

def execTraceCapture (s : State) : Answer := .next (s.onDtu Dtu.traceCapture)

/-- TRACE_BLOCK_CLOSE (R120): the open block closes with the lowest cause that holds, and the compressor reads on. -/
def Dtu.traceBlockClose (d : Dtu) : Dtu :=
  if d.trace.stopped || !d.runs then d else d.closeNow.compress.actWaits

def execTraceBlockClose (s : State) : Answer := .next (s.onDtu Dtu.traceBlockClose)

/-- COMPRESSOR_FULL_STOP (R123): the compressor needs block-ring space and none is free. -/
def Dtu.compressorFullStop (d : Dtu) : Dtu :=
  if d.trace.starved && !d.trace.fullStop then
    ({ d with trace := { d.trace with fullStop := true, stopAt := d.nowNs } }).count .fullStops
  else d

def execCompressorFullStop (s : State) : Answer := .next (s.onDtu Dtu.compressorFullStop)

/-- COMPRESSOR_RESUME (R123): block_free has reached resume_tokens; waiting closures are then acted on. -/
def Dtu.compressorResume (d : Dtu) : Dtu :=
  if d.trace.fullStop && decide (d.trace.resumeTokens ≤ d.trace.blockFree) then
    let n := d.nowNs - d.trace.stopAt
    let d := ({ d with trace := { d.trace with fullStop := false, starved := false } }).count .fullStopNs n
    d.compress.actWaits
  else d

def execCompressorResume (s : State) : Answer := .next (s.onDtu Dtu.compressorResume)

end Sys2Proof.Machine
end

