-- ==== Sys2Proof/Machine/DtuLink.lean ====
section
/-!
DEFINITION. The DTU's Uplink Port and Triheud endpoint: beat credits (R53, R54), the header tests (R342), credits
(R350 to R352), link-up (R74, R346, R347), sending (R361) and link resets (R72, R354).
-/
namespace Sys2Proof.Machine

/-- Least beat credits the path must grant before a VC is used (R53). -/
def beatMin (vc : Nat) : Nat := if vc = 2 then 288 else if vc = 3 then 4 else 32

/-- Largest RX packet of a VC, headers included (R53). -/
def rxLimit (vc : Nat) : Nat := if vc = 3 then 128 else 2048

/-- Beats of a packet (R51, R53). -/
def beatsOf (plen : Nat) : Nat := (32 + plen + 31) / 32

/-- The Triheud units a frame takes from its pool: none for CREDIT, none for the link-up messages HELLO and ADMIT while
no CREDIT has come (R350, R352). -/
def unitsTaken (p : Pool) (cls msg plen : Nat) : Nat :=
  if cls = 0 ∧ msg = 3 then 0
  else if cls = 0 ∧ (msg = 1 ∨ msg = 2) ∧ !p.opened then 0
  else creditUnits plen

/-- A frame may leave on its VC now: the port runs, a version is agreed (HELLO needs none), the path's minimum is met, beats
and units are held, the VC is not held, the rate limit allows (R4, R53, R54, R350, R352, R361). -/
def Dtu.canSend (d : Dtu) (cls msg plen : Nat) : Bool :=
  let vc := vcOf cls
  let p := d.link.pools.getD vc .initial
  d.portOn && (decide (cls = 0 ∧ msg = 1) || decide (d.link.version ≠ 0))
  && decide (beatMin vc ≤ d.link.beatSum.getD vc 0) && decide (beatsOf plen ≤ d.link.beatHeld.getD vc 0)
  && decide (unitsTaken p cls msg plen ≤ p.available) && !(p.held && vc == 2)
  && d.link.shaper.allows d.now (wireBytes plen)

/-- The version a frame carries: the sender's highest in HELLO, the agreed one otherwise (R341). -/
def Dtu.txVersion (d : Dtu) (cls msg : Nat) : Nat := if cls = 0 ∧ msg = 1 then 0x32 else d.link.version

/-- The EtherType a frame travels with (R340). -/
def Dtu.txEther (d : Dtu) (cls msg : Nat) : BitVec 16 := if cls = 0 ∧ msg = 1 then 0x88B5 else d.link.ethertype

/-- The stamp of an edge of ul_clk_i from the converter's reading (R175): the FTC of the time clock edge before it, and
`phase` 64ths of a time clock period. -/
def Dtu.stampAt (d : Dtu) (phase : Nat) : Stamp := (d.time.ftc + phase % 64 * d.time.rate / 64) / 2 ^ 32

/-- The body of a TIME_ECHO (R174): its sequence number, and as the predicted arrival the stamp of its sof beat plus
DTU_UL_LAT_TX. The converter's reading of that edge is a free value. -/
def Dtu.echoBody (d : Dtu) (seq : Nat) : List W :=
  let x := d.stampAt (Config.txPhase seq) + d.host.latTx.toNat
  [pack [(0x02, 31, 24), (seq, 15, 0)]] ++ stampWords x ++ [pack [(stampFrac x, 31, 16)]]

/-- A frame starts: its lseq is written, beats, units and the rate limit are charged; the first beat on a VC fixes its
limit; a TIME_ECHO is stamped as its sof beat leaves (R54, R59, R174, R341, R350, R361). -/
def Dtu.put (d : Dtu) (t : TxFrame) : Dtu :=
  let vc := vcOf t.cls
  let l := d.link
  let t := if t.cls = clsTime ∧ t.msg = 0x02 then { t with body := d.echoBody (wf t.body 0 15 0) } else t
  let lseq := l.lseqTx.getD t.cls 0
  let f := t.leave (dtuMac d.dieId) (d.txEther t.cls t.msg) l.fabricId (d.txVersion t.cls t.msg) lseq
  { d with link := { l with
      beatLimit := modAt l.beatLimit vc (fun x => some (x.getD (l.beatSum.getD vc 0)))
      beatHeld := modAt l.beatHeld vc (· - beatsOf t.plen)
      pools := modAt l.pools vc (fun p => { p with sent := p.sent + w32 (unitsTaken p t.cls t.msg t.plen) })
      lseqTx := modAt l.lseqTx t.cls (· + 1)
      shaper := l.shaper.charge d.now (wireBytes t.plen)
      wire := some f } }

/-- One beat of the TX channel (R51, R52): ul_tx_sof_o, ul_tx_eof_o, ul_tx_bytes_o, ul_tx_vc_o and the bytes it carries. -/
structure TxBeat where
  sof : Bool
  eof : Bool
  bytes : Nat
  vc : Nat
  data : List Byte
  deriving DecidableEq, Repr

/-- The bytes of a frame, from the destination address to the end of the payload (R51, R341, R430). -/
def frameBytes (f : Frame) : List Byte :=
  hdrBytes f ++ [BitVec.ofNat 8 (f.hcrc.toNat / 256), BitVec.ofNat 8 f.hcrc.toNat] ++ (bytesOf f.body).take f.plen.toNat

/-- The beats of a frame as it crosses the Uplink Port (R51 to R53): 32 bytes each, 0 standing for 32 of them. -/
def txBeats (f : Frame) : List TxBeat :=
  let bs := frameBytes f
  let n := beatsOf f.plen.toNat
  (List.range n).map (fun k =>
    { sof := k == 0, eof := k + 1 == n, bytes := if k + 1 = n then bs.length % 32 else 0, vc := vcOf f.cls.toNat,
      data := (bs.drop (32 * k)).take 32 })

/-- The beats of the frame last put on the uplink. -/
def Dtu.wireBeats (d : Dtu) : List TxBeat := (d.link.wire.map txBeats).getD []

/-- Nothing waits on a VC, so that a frame put on it keeps its place in the order (R53). -/
def Dtu.vcIdle (d : Dtu) (vc : Nat) : Bool :=
  match vc with
  | 2 => d.link.vc2.isEmpty
  | 3 => d.link.vc3.isEmpty
  | _ => d.link.vc0.isEmpty

/-- A frame leaves at once if it may and nothing waits before it, else it is queued. -/
def Dtu.sendNow (d : Dtu) (t : TxFrame) : Dtu :=
  if d.vcIdle (vcOf t.cls) && d.canSend t.cls t.msg t.plen then d.put t else d.queue t

/-- The messages a DTU may receive (R343, R345). -/
def dtuMayReceive (cls msg : Nat) : Bool :=
  match cls with
  | 0 => decide (1 ≤ msg ∧ msg ≤ 6)
  | 1 => decide (msg = 1)
  | 2 => decide (1 ≤ msg ∧ msg ≤ 4) || decide (msg = 6)
  | 4 => decide (msg = 1)
  | 6 => decide (msg = 1 ∨ msg = 3)
  | _ => false

/-- The largest frame of a class toward a DTU, headers included (R53, R343). -/
def dtuClassLimit (cls : Nat) : Nat := if cls = 0 ∨ cls = 2 then 1024 else if cls = 6 then 128 else 2048

/-- The resident contexts of the DTU: its slots in force and the latched ones (R20, R24, R87). -/
def Dtu.resident (d : Dtu) (ctx gen : Nat) : Bool :=
  let on (e : SlotEntry) : Bool := bit e.w0 31 && decide (fld e.w0 15 0 = ctx ∧ fld e.w0 23 16 = gen)
  d.cells.slots.any (fun c => on c.force) || d.cells.latched.any on

/-- The lseq rule of R350: missing frames are counted, and the next frame is expected. -/
def Dtu.takeLseq (d : Dtu) (cls : Nat) (lseq : W) : Dtu :=
  let diff := (lseq - d.link.lseqRx.getD cls 0).toNat
  let d := { d with link := { d.link with lseqRx := d.link.lseqRx.set cls (lseq + 1) } }
  if 1 ≤ diff ∧ diff < 2 ^ 31 then
    let d := d.count (.lseqGap cls) diff
    if d.frost.windowEnd.isSome then { d with frost := { d.frost with spoiled := true } } else d
  else d

/-- The tests of R342 for a DTU, in order: the counter of the first that fails. -/
def Dtu.headerFault (d : Dtu) (f : Frame) : Option DCnt :=
  let cls := f.cls.toNat
  let msg := f.msg.toNat
  let linkUp := decide (cls = 0 ∧ (msg = 1 ∨ msg = 2))
  let agreed := decide (d.link.version ≠ 0 ∧ f.tver.toNat = d.link.version)
  if !((f.ethertype == if linkUp then 0x88B5 else d.link.ethertype) && f.dest == dtuMac d.dieId) then some .badAddr
  else if f.hcrc != frameHcrc f then some .badHcrc
  else if !(agreed || (cls == 0 && msg == 1) || (cls == 0 && msg == 2 && d.link.linkState == 2)) then some .badTver
  else if f.fabricId != d.link.fabricId && !(linkUp && f.fabricId == 0) then some .fabricMismatch
  else if !dtuMayReceive cls msg || f.rsv15 != 0 || f.rsv17 != 0 || f.rsv23 != 0 then some .classMisuse
  else if decide (4 * f.body.length < f.plen.toNat) || decide (dtuClassLimit cls < 32 + f.plen.toNat) then some .badLen
  else if (cls == 4 || (cls == 1 && f.ctx != 0xFFFF)) && !d.resident f.ctx.toNat f.gen.toNat then some .stale
  else none

/-- A reset of the link asked for with a reason; LINK_RESET is sent and both ends reset (R354). -/
def Dtu.linkReset (d : Dtu) (reason : Option Nat) : Dtu :=
  let d := d.traceLinkReset
  let d := if d.link.linkState = 3 then d.irq 1 else d
  let l := d.link
  let d := { d with
    factory := false
    frost := if d.frost.windowEnd.isSome then { d.frost with spoiled := true } else d.frost
    link := { l with
      linkState := 1, version := 0, beatSum := [0, 0, 0, 0], beatLimit := [none, none, none, none],
      beatHeld := [0, 0, 0, 0], ledgerSaid := [false, false, false, false], slotsUp := 0, resetting := true,
      rxGranted := [0, 0, 0, 0], rxOwed := [128, 128, 128, 128], crdVc := none, crdNext := 0, pools := List.replicate 4 .initial,
      lseqTx := List.replicate 8 0, lseqRx := List.replicate 8 0, peerSeen := false, admitted := false,
      fabricId := 0, badHcrcRun := 0, resetReasonDue := none, creditOwed := true } }
  match reason with
  | some r => d.count (.linkResets r)
  | none => d

/-- A LINK_RESET frame is sent and the link resets (R354). -/
def Dtu.sendLinkReset (d : Dtu) (reason : Nat) : Dtu :=
  let t := d.toAgg clsLink 0x06 [w32 reason] 4
  (if d.canSend t.cls t.msg t.plen then d.put t else d).linkReset (some reason)

/-- A frame arrives at the endpoint: tested, counted, sequenced; its units are owed back (R342, R350, R352). Sixteen
consecutive bad_hcrc reset the link (R354). During a Frost capture window a copy is kept (R430). -/
def Dtu.receive (d : Dtu) (f : Frame) : Dtu × Bool :=
  if !d.portOn then (d, false)
  else match d.headerFault f with
  | some .badAddr => (d.count .badAddr, false)
  | some .badHcrc =>
    let d := d.count .badHcrc
    let d := { d with link := { d.link with badHcrcRun := d.link.badHcrcRun + 1 } }
    (if d.link.badHcrcRun = 16 then d.sendLinkReset 3 else d, false)
  | some .badTver => (d.count .badTver, false)
  | some .fabricMismatch => (d.count .fabricMismatch, false)
  | r =>
    let cls := f.cls.toNat
    let d := { d with link := { d.link with badHcrcRun := 0 } }
    let d := d.takeLseq cls f.lseq
    let units := if cls = 0 ∧ f.msg.toNat = 3 then 0 else creditUnits f.plen.toNat
    let pools := modAt d.link.pools (vcOf cls) (fun p => { p with owed := p.owed ++ [(d.nowNs, units)] })
    let d := { d with link := { d.link with creditOwed := true, pools } }
    let d := match d.frost.windowEnd with
      | none => d
      | some e =>
        if d.nowNs ≤ e ∧ (cls = 1 ∨ cls = 3 ∨ cls = 4) then
          let used := (d.frost.capture.map (fun c => 32 + 4 * c.frame.body.length)).sum
          if used + 32 + f.plen.toNat ≤ 32768 then
            let c : Captured := { link := 0xFF, cls, lseq := f.lseq, frame := f }
            { d with frost := { d.frost with capture := d.frost.capture ++ [c] } }
          else { d with frost := { d.frost with capFull := true } }
        else d
    match r with
    | some c => (d.count c, false)
    | none => (d, true)

/-! ### Beat credits. -/

/-- UL_CREDIT_RETURN (R54): a beat credit comes back; one beyond the limit is ignored and is a ledger failure. A port that
is off or in reset takes none. -/
def Dtu.creditReturn (d : Dtu) (vc : Nat) : Dtu :=
  let l := d.link
  let held := l.beatHeld.getD vc 0
  if !d.portOn then d
  else match l.beatLimit.getD vc none with
  | some lim =>
    if held < lim then { d with link := { l with beatHeld := l.beatHeld.set vc (held + 1) } }
    else (d.irq 10).ledgerUl vc
  | none =>
    { d with link := { l with beatSum := modAt l.beatSum vc (· + 1), beatHeld := l.beatHeld.set vc (held + 1) } }

def execUlCreditReturn (vc : Fin 4) (s : State) : Answer := .next (s.onDtu (·.creditReturn vc))

/-- UL_CREDIT_MIN_TIMEOUT (R54): at the second slot boundary after a link reset the sum on a VC is below its minimum. -/
def Dtu.creditMinTimeout (d : Dtu) (vc : Nat) : Dtu :=
  let l := d.link
  if d.portOn ∧ 2 ≤ l.slotsUp ∧ l.beatSum.getD vc 0 < beatMin vc ∧ l.ledgerSaid.getD vc false = false then
    ({ d with link := { l with ledgerSaid := l.ledgerSaid.set vc true } }.irq 10).ledgerUl vc
  else d

def execUlCreditMinTimeout (vc : Fin 4) (s : State) : Answer := .next (s.onDtu (·.creditMinTimeout vc))

/-- A beat for which no credit was granted (R55): discarded, counted, and a ledger failure as in R54. -/
def Dtu.rxUncredited (d : Dtu) (vc : Nat) : Dtu := ((d.count .rxNoCredit).irq 10).ledgerUl vc

/-- Beats of a packet that has crossed: the path's credits are used, and owed to it again (R53, R54). -/
def Dtu.rxUse (d : Dtu) (vc n : Nat) : Dtu :=
  { d with link := { d.link with rxGranted := modAt d.link.rxGranted vc (· - n), rxOwed := modAt d.link.rxOwed vc (· + n) } }

/-- A whole packet: a beat without a credit is a ledger failure; one that is too long, or that the header tests discard, is
discarded and counted; a sound one is accepted and its message's own row says what it does. -/
def Dtu.rxWhole (d : Dtu) (vc : Nat) (f : Frame) : Dtu :=
  let n := beatsOf f.plen.toNat
  if d.link.rxGranted.getD vc 0 < n then d.rxUncredited vc
  else
    let d := d.rxUse vc n
    if rxLimit vc < 32 + f.plen.toNat then d.count .rxDiscard
    else
      match d.headerFault f with
      | some _ => (d.receive f).1
      | none => d

/-- UL_RX_PACKET (R53, R55): a packet reaches the port. A defect discards and counts it; a beat with sof while a packet was
open discards that packet and begins the packet `f`. -/
def Dtu.rxPacket (d : Dtu) (vc : Nat) (defect : RxDefect) (f : Frame) : Dtu :=
  if !d.portOn then d
  else match defect with
  | .noCredit => d.rxUncredited vc
  | .sofWhileOpen => (d.count .rxDiscard).rxWhole vc f
  | .tooLong => d.count .rxDiscard
  | .shortBeat => d.count .rxDiscard
  | .pathError => d.count .rxDiscard
  | .none => d.rxWhole vc f

/-- One credit is returned to the path in a cycle, the VCs in order 0, 1, 2, 3, repeating (R54). -/
def Dtu.returnCredit (d : Dtu) : Dtu :=
  let l := d.link
  let order := (List.range 4).map (fun i => (l.crdNext + i) % 4)
  match order.find? (fun v => decide (0 < l.rxOwed.getD v 0)) with
  | some v =>
    { d with link := { l with crdVc := some v, crdNext := (v + 1) % 4, rxOwed := modAt l.rxOwed v (· - 1),
                              rxGranted := modAt l.rxGranted v (· + 1) } }
  | none => { d with link := { l with crdVc := none } }

def execUlRxPacket (vc : Fin 4) (defect : RxDefect) (frame : Frame) (s : State) : Answer :=
  .next (s.onDtu (·.rxPacket vc defect frame))

/-! ### Link-up. -/

/-- DTU_IDENT and DTU_VERCAP (R2). -/
def dtuIdent : W := 0x5F100603
def Dtu.vercap (d : Dtu) : W := pack [(0x323014, 31, 8), (d.build.nClusters, 6, 0)]

/-- The HELLO payload (R346). -/
def Dtu.helloBody (d : Dtu) : List W :=
  [dtuIdent, d.vercap] ++ Memory.words d.host.tag 0 8 ++
    [pack [(d.link.ethertype.toNat, 31, 16), (b2n d.link.peerSeen, 15, 15)], d.link.helloSeq]

/-- HELLO_SEND (R74, R78): with the tag sealed and 32 beat credits on VC 0 the first HELLO leaves and link_state becomes 2;
in link_state 2 it is repeated once per 2^20 ns. One for a tag just sealed waits for the slot boundary after it; while a
refusal of R78 holds none leaves, and link_state is 5 again. -/
def Dtu.helloSend (d : Dtu) : Dtu :=
  let l := d.link
  let period := d.nowNs / 2 ^ 20
  let t : TxFrame := { cls := 0, msg := 1, dest := myAggMac, ctx := 0xFFFF, gen := 0, plen := 48, body := d.helloBody }
  if d.host.refused then (if l.linkState = 1 ∧ d.portOn then { d with link := { l with linkState := 5 } } else d)
  else if d.host.sealed && !l.helloWait && decide (32 ≤ l.beatSum.getD 0 0) && d.canSend 0 1 48 &&
      (l.linkState == 1 || (l.linkState == 2 && l.helloPeriod != period)) then
    let d := d.put t
    let first := if l.linkState = 1 then l.helloSeq else l.helloFirst
    { d with link := { d.link with linkState := 2, helloSeq := l.helloSeq + 1, helloFirst := first, helloPeriod := period } }
  else d

def execHelloSend (s : State) : Answer := .next (s.onDtu Dtu.helloSend)

/-- An ADMIT a DTU acts on (R347). -/
def Dtu.admitSound (d : Dtu) (f : Frame) : Bool :=
  let b := f.body
  let res := wf b 0 31 24
  let reason := wf b 0 23 16
  decide (d.link.linkState = 2 ∧ f.plen.toNat = 32)
  && (decide (res = 0 ∧ reason = 0) || decide (res = 1 ∧ 1 ≤ reason ∧ reason ≤ 6))
  && decide (wf b 0 7 0 = 0 ∧ wf b 2 31 28 = 0 ∧ wf b 2 7 0 = 0 ∧ wf b 3 15 0 = 0 ∧ word b 5 = 0 ∧ word b 6 = 0 ∧ word b 7 = 0)
  && decide ((word b 4 - d.link.helloFirst).toNat < (d.link.helloSeq - d.link.helloFirst).toNat)

/-- ADMIT (R347): the version, fabric ID, EtherType and aggregator ID are taken on admission, and the rate and burst
where they are in range; a refusal sets link_state 4 or 5, or leaves link_state 2 for NOT_READY. A refusal for another
reason than the version agrees the version it names (R4; log entry 213). -/
def Dtu.admitMsg (d : Dtu) (f : Frame) : Dtu :=
  let p := d.receive f
  if !p.2 then p.1
  else
    let d := p.1
    let b := f.body
    if !d.admitSound f then d.count .stale
    else
      let reason := wf b 0 23 16
      if wf b 0 31 24 = 0 then
        let rate := wf b 2 15 8
        let burst := wf b 3 31 16
        let ul := d.link.ulRate
        let ul := if 10 ≤ rate ∧ rate ≤ 250 then setFld ul 23 16 rate else ul
        let ul := if 16 ≤ burst ∧ burst ≤ 1024 then setFld ul 15 0 burst else ul
        let sh := { d.link.shaper with enabled := true, rate := fld ul 23 16, burst := 1024 * fld ul 15 0,
                                       v := d.now * fld ul 23 16 }
        let d := { d with
          factory := decide (wf b 1 31 16 = 0xFFFF)
          link := { d.link with
            linkState := 3, version := wf b 0 15 8, fabricId := BitVec.ofNat 16 (wf b 1 31 16),
            ethertype := BitVec.ofNat 16 (wf b 1 15 0), aggId := BitVec.ofNat 12 (wf b 2 27 16), ulRate := ul,
            shaper := sh, admitted := true, aggMac := f.src } }
        d.irq 0
      else if reason = 5 then
        ({ d with link := { d.link with linkState := 4, version := 0 } }.irq 2).raise .versionMismatch .linkRx
          d.link.peerVercap.toNat
      else
        let d := { d with link := { d.link with version := wf b 0 15 8 } }
        if reason = 6 then d
        else { d with link := { d.link with linkState := 5 }, host := { d.host with refused := true } }.irq 3

def execAdmit (frame : Frame) (s : State) : Answer := .next (s.onDtu (·.admitMsg frame))

/-- A HELLO a DTU receives: its sender has been seen (R346). -/
def Dtu.hello (d : Dtu) (f : Frame) : Dtu :=
  let p := d.receive f
  if p.2 ∧ f.plen.toNat = 48 then
    { p.1 with link := { p.1.link with peerSeen := true, peerVercap := word f.body 1 } }
  else p.1

/-! ### Credits, echoes and link resets on the DTU. -/

/-- One pool takes a returned count (R352): the first is the grant; one that would raise the available units above the
grant is ignored, and said so. -/
def Pool.take (p : Pool) (returned : W) : Pool × Bool :=
  if !p.opened then ({ p with opened := true, grant := returned.toNat, returned }, true)
  else if p.grant < (returned - p.sent).toNat then (p, false)
  else ({ p with returned }, true)

/-- CREDIT at a DTU (R351, R352): pools are per VC; VC 2 may be held; hold bits count from version 3.2 on (R349). -/
def Dtu.credit (d : Dtu) (f : Frame) : Dtu :=
  let p := d.receive f
  if !(p.2 && decide (f.plen.toNat = 40)) then p.1
  else
    let d := p.1
    let r := (List.range 4).map (fun vc => (d.link.pools.getD vc .initial).take (word f.body (1 + vc)))
    let beyond := r.countP (fun x => !x.2)
    let hold := decide (0x32 ≤ d.link.version) && bit (word f.body 0) 26
    let now := d.nowNs
    let old := d.link.pools.getD 2 .initial
    let pools := modAt (r.map Prod.fst) 2 (fun q =>
      { q with held := hold, heldSince := if hold && !old.held then now else q.heldSince })
    let d := { d with link := { d.link with pools } }
    let d := if old.held && !hold then d.count (.heldNs 2) (now - old.heldSince) else d
    d.count .creditOver beyond

/-- The units of a pool returned so far, with those of frames that have left the buffer (R352). -/
def Pool.giveBack (p : Pool) : Pool := { p with given := p.given + w32 (p.owed.map Prod.snd).sum, owed := [] }

/-- CREDIT_SEND by a DTU (R350 to R352): 64 units granted on each VC, and what has been returned since. -/
def Dtu.creditSend (d : Dtu) : Dtu :=
  let pools := d.link.pools.map Pool.giveBack
  let d := { d with link := { d.link with pools, creditOwed := false } }
  let body := [0] ++ pools.map (fun p => p.given + 64) ++ [0, 0, 0, 0, 0]
  d.sendNow (d.toAgg clsLink 0x03 body 40)

/-- ECHO at a DTU (R353): the same payload goes back with the residence time in bytes 4 to 7. -/
def Dtu.echo (d : Dtu) (f : Frame) (residence : W) : Dtu :=
  let p := d.receive f
  if p.2 ∧ 8 ≤ f.plen.toNat then
    p.1.sendNow { cls := 0, msg := 0x05, dest := f.src, ctx := 0xFFFF, gen := 0, plen := f.plen.toNat,
                  body := f.body.set 1 residence }
  else p.1

/-- ECHO_REPLY at a DTU (R353): one round trip, the stamp difference less the residence; the last 64 are kept. -/
def Dtu.echoReply (d : Dtu) (f : Frame) (elapsed : W) : Dtu :=
  let p := d.receive f
  if p.2 ∧ 8 ≤ f.plen.toNat ∧ p.1.link.echoes.any (fun e => e.1 == word f.body 0) then
    let l := p.1.link
    let rtt := l.rtt ++ [elapsed.toNat - (word f.body 1).toNat]
    { p.1 with link := { l with echoes := l.echoes.filter (fun e => e.1 != word f.body 0),
                                rtt := rtt.drop (rtt.length - 64) } }
  else p.1

/-- LINK_RESET at a DTU (R354). -/
def Dtu.linkResetFrame (d : Dtu) (f : Frame) : Dtu :=
  let p := d.receive f
  if p.2 ∧ f.plen.toNat = 4 then p.1.linkReset (some (wf f.body 0 7 0)) else p.1

/-! ### What leaves on the Uplink Port. -/

/-- The fault record of a queued message (R151). -/
def Dtu.faultRecordOf (d : Dtu) (m : FaultMsg) : List W :=
  faultRecord m.message m.tNs m.temp m.vcore m.repeats (packNat [(b2n m.internal, 23, 23), (d.dieId, 19, 0)])

/-- The oldest queued fault message, the queues merged by stamp; the internal one first when stamps are equal (R150). -/
def Dtu.oldestFault (d : Dtu) : Option (FaultMsg × Bool) :=
  match d.faults.own, d.faults.port with
  | [], [] => none
  | m :: _, [] => some (m, true)
  | [], m :: _ => some (m, false)
  | a :: _, b :: _ => if a.tNs ≤ b.tNs then some (a, true) else some (b, false)

/-- VC 2 may carry records: the DTU is admitted (R75). -/
def Dtu.mayReport (d : Dtu) : Bool := d.link.admitted && decide (d.link.linkState = 3)

/-- FAULT_RECORD_SEND (R150): the oldest message leaves when VC 2 and the rate limit allow. -/
def Dtu.faultRecordSend (d : Dtu) : Dtu :=
  match d.oldestFault with
  | none => d
  | some (m, own) =>
    if d.mayReport && d.canSend clsBulk 0x04 32 then
      let q := d.faults
      let d := { d with faults := if own then { q with own := q.own.drop 1 } else { q with port := q.port.drop 1 } }
      d.put (d.toAgg clsBulk 0x04 (d.faultRecordOf m) 32)
    else d

def execFaultRecordSend (s : State) : Answer := .next (s.onDtu Dtu.faultRecordSend)

/-- DIGEST_PACKET_SEND (R138, R150): up to 16 queued records leave in one packet, once no fault message and no health record
waits. -/
def Dtu.digestPacketSend (d : Dtu) : Dtu :=
  let rs := d.digests.records.take 16
  let n := 32 * rs.length
  if rs != [] && d.oldestFault.isNone && d.link.vc2.isEmpty && d.mayReport && d.canSend clsBulk 0x02 n then
    let d := { d with digests := { d.digests with records := d.digests.records.drop 16 } }
    d.put (d.toAgg clsBulk 0x02 rs.flatten n)
  else d

def execDigestPacketSend (s : State) : Answer := .next (s.onDtu Dtu.digestPacketSend)

/-- TRACE_BLOCK_SEND (R115, R126): a packet under way has crossed and its tokens are freed; the next block's packet
starts when it may. -/
def Dtu.traceBlockSend (d : Dtu) : Dtu :=
  let d := d.blockCrossed
  match d.trace.blocks with
  | [] => d
  | b :: r =>
    let t := d.traceFrame b
    if d.mayReport && d.canSend t.cls t.msg t.plen then
      ({ d with trace := { d.trace with blocks := r, sending := some b } }).put t
    else d

def execTraceBlockSend (s : State) : Answer := .next (s.onDtu Dtu.traceBlockSend)

/-- The next health record on VC 2. -/
def Dtu.healthSend (d : Dtu) : Dtu :=
  match d.link.vc2 with
  | [] => d
  | t :: r =>
    if d.canSend t.cls t.msg t.plen then ({ d with link := { d.link with vc2 := r } }).put t else d

/-- A contribution leaves on VC 1 (R96, R97); an injected bad crc damages it (R447). -/
def Dtu.contribSend (d : Dtu) : Dtu :=
  match d.cells.sendQueue with
  | [] => d
  | c :: r =>
    if d.mayReport && d.canSend clsRed 0x01 544 then
      let d := { d with cells := { d.cells with sendQueue := r } }
      d.put { cls := clsRed, msg := 0x01, dest := d.link.aggMac, ctx := c.ctx, gen := c.gen, plen := 544, body := c.words }
    else d

/-- FRAME_TRANSMIT of a DTU (R361, R363): VC 3, then VC 0, then VC 1, then VC 2; on VC 2 fault, health and digest
records, then trace blocks. The first frame that may start does. -/
def Dtu.transmit (d : Dtu) : Dtu :=
  let tryHead (q : List TxFrame) : Bool := match q with
    | [] => false
    | t :: _ => d.canSend t.cls t.msg t.plen
  if tryHead d.link.vc3 then
    ({ d with link := { d.link with vc3 := d.link.vc3.drop 1 } }).put (d.link.vc3.headD (d.toAgg 6 0 [] 0))
  else if tryHead d.link.vc0 then
    ({ d with link := { d.link with vc0 := d.link.vc0.drop 1 } }).put (d.link.vc0.headD (d.toAgg 0 0 [] 0))
  else if d.cells.sendQueue != [] && d.mayReport && d.canSend clsRed 0x01 544 then d.contribSend
  else if d.oldestFault.isSome && d.mayReport && d.canSend clsBulk 0x04 32 then d.faultRecordSend
  else if tryHead d.link.vc2 then d.healthSend
  else if d.digests.records != [] then d.digestPacketSend
  else d.traceBlockSend

end Sys2Proof.Machine
end

