-- ==== Sys2Proof/Machine/DtuCells.lean ====
section
/-!
DEFINITION. Counting in the DTU (R80 to R108): cell arithmetic, fronts and merging, configuration, closure,
contributions, bands and the retention store, and the meanings of the Probe Port and closure rows.
-/
namespace Sys2Proof.Machine

/-! ### Configuration words (R81, R90). -/

def cellAddr (n : Nat) : Nat := 0x10000 + 4 * n
def cluAddr (c : Nat) : Nat := 0x14000 + 4 * c

/-- The cell configuration words all reset to 0 (R479). -/
def cellReset (_ : Nat) : W := 0

def cellWord (m : RegMap) (n : Nat) : W := regGet cellReset m (cellAddr n)
def cluWord (m : RegMap) (c : Nat) : W := regGet cellReset m (cluAddr c)

def cellMode (w : W) : Nat := fld w 31 29
def cellCumul (w : W) : Bool := bit w 28
def cellSigned (w : W) : Bool := bit w 27
def cellShift (w : W) : Nat := fld w 26 23
def cellTap (w : W) : Nat := fld w 21 16
def cellMetric (w : W) : Nat := fld w 15 8

/-- A counting mode (R80). -/
def isCounting (mode : Nat) : Bool := decide (1 ≤ mode ∧ mode ≤ 3)

/-- A metric code that R85 lists. -/
def metricListed (m : Nat) : Bool := !(decide (0x05 ≤ m ∧ m ≤ 0x0F) || decide (0x64 ≤ m ∧ m ≤ 0x7F))

/-- Status codes used by register writes (R385). -/
def stOk : Nat := 0x0000
def stReserved : Nat := 0x0001
def stBadParam : Nat := 0x0003

/-- The status a DTU_CELL_CFG word earns (R8, R9, R81). -/
def cellCfgStatus (w : W) : Nat :=
  let mode := cellMode w
  if fld w 22 22 ≠ 0 ∨ fld w 7 0 ≠ 0 then stReserved
  else if 5 ≤ mode ∨ !metricListed (cellMetric w) then stBadParam
  else if cellSigned w ∧ mode ≠ 4 then stBadParam
  else if mode = 2 ∧ cellShift w ≠ 0 then stBadParam
  else if (mode = 0 ∨ mode = 1) ∧ cellTap w ≠ 0 then stBadParam
  else stOk

/-- The observed domain of a cell (R82); none for a cell in mode OFF. -/
def Build.cellDomain (b : Build) (n : Nat) (w : W) : Option Nat :=
  match cellMode w with
  | 0 => none
  | 1 => some (b.strobeDomain n)
  | _ => some (b.tapDomain (cellTap w))

/-! ### Values (R80, R84, R100). -/

/-- A counting value with an amount added; it holds at 2^63 - 1 (R84). -/
def CellVal.addCount (v : CellVal) (n : Nat) : CellVal :=
  let x := v.value + n
  if (2 ^ 63 - 1 : Int) < x then { v with value := 2 ^ 63 - 1, sat := true } else { v with value := x }

/-- A VALUE cell with one sample added: the shifted sample to the sum, the sample itself to the minimum and maximum
(R80, R81, R84). -/
def CellVal.addSample (v : CellVal) (signed : Bool) (w : Nat) (x : BitVec 16) : CellVal :=
  let s : Int := if signed then ofTwos 16 x.toNat else x.toNat
  let sum := v.value + s / 2 ^ w
  let held := clampInt (-(2 ^ 31)) (2 ^ 31 - 1) sum
  { value := held, lo := if v.any then min v.lo s else s, hi := if v.any then max v.hi s else s, any := true,
    sat := v.sat || decide (held ≠ sum) }

/-- The minimum and maximum as they read, with the empty values of R84. -/
def CellVal.minOf (v : CellVal) (signed : Bool) : Int := if v.any then v.lo else if signed then 0x7FFF else 0xFFFF
def CellVal.maxOf (v : CellVal) (signed : Bool) : Int := if v.any then v.hi else if signed then -0x8000 else 0

/-- The two words of a cell in a contribution (R100). -/
def CellVal.words (v : CellVal) (w : W) : List W :=
  match cellMode w with
  | 0 => [0, 0]
  | 4 => [w32 (toTwos 32 v.value),
      pack [(toTwos 16 (v.minOf (cellSigned w)), 31, 16), (toTwos 16 (v.maxOf (cellSigned w)), 15, 0)]]
  | _ => twoWords (toTwos 64 v.value)

/-! ### Fronts and merging (R47 to R49, R91). -/

def FrontRec.empty : FrontRec := { events := 0, samples := [] }
def Front.empty : Front := { older := .empty, newer := .empty }

/-- The domain of a probe source (R37). -/
def Build.sourceDomain (b : Build) : ProbeSource → Nat
  | .strobe s => b.strobeDomain s
  | .tap t => b.tapDomain t

/-- The cells that a source feeds under a configuration (R80, R81). -/
def fedCells (cfg : RegMap) : ProbeSource → List Nat
  | .strobe s => if cellMode (cellWord cfg s) = 1 then [s] else []
  | .tap t => (cfg.filter (fun p => decide (0x10000 ≤ p.1 ∧ p.1 < 0x14000 ∧ 2 ≤ cellMode p.2 ∧ cellTap p.2 = t))).map
      (fun p => (p.1 - 0x10000) / 4)

/-- What one record adds to a cell of a given configuration word (R80). -/
def CellVal.addRec (v : CellVal) (w : W) (r : FrontRec) : CellVal :=
  match cellMode w with
  | 1 => v.addCount (r.events * 2 ^ cellShift w)
  | 2 => v.addCount r.samples.length
  | 3 => v.addCount ((r.samples.map (fun x => x.toNat)).sum * 2 ^ cellShift w)
  | 4 => r.samples.foldl (fun v x => v.addSample (cellSigned w) (cellShift w) x) v
  | _ => v

/-- A record merged into a bank of cell values under a configuration; `only` limits the cells. -/
def mergeRec (cfg : RegMap) (only : Nat → Bool) (values : List (Nat × CellVal)) (src : ProbeSource) (r : FrontRec) :
    List (Nat × CellVal) :=
  if r = .empty then values
  else (fedCells cfg src).foldl (fun vs n =>
    if only n then aPut vs n ((aGetD vs n .empty).addRec (cellWord cfg n) r) else vs) values

/-- A cumul cell whose word did not change at the tick runs on from the frame being closed (R83). -/
def Cells.runsOn (c : Cells) (cl : Closing) (n : Nat) : Bool :=
  let w := cellWord c.force n
  isCounting (cellMode w) && cellCumul w && w == cellWord cl.cfg n

/-- The trace since-counts a merged record feeds (R112). -/
def Trace.feed (t : Trace) (force : RegMap) (src : ProbeSource) (r : FrontRec) : Trace :=
  match src with
  | .strobe s => if r.events ≠ 0 ∧ cellMode (cellWord force s) = 1 then t.cellEvents s r.events else t
  | .tap p => r.samples.foldl (fun t x => t.tapSample p x.toNat) t

/-- One front merged into the core: what belongs to the frame being closed goes to its cells, and to cumul cells that
run on; the rest goes to the running cells (R91). -/
def Dtu.mergeFront (d : Dtu) (src : ProbeSource) (f : Front) : Dtu :=
  let c := d.cells
  let c := match c.closing with
    | none => { c with values := mergeRec c.force (fun _ => true) c.values src f.older }
    | some cl =>
      let open_ (n : Nat) : Bool := decide (cl.next ≤ n / 64) && cl.looped != some (n / 64)
      { c with
        closing := some { cl with cells := mergeRec cl.cfg open_ cl.cells src f.older }
        values := mergeRec c.force (fun n => cl.looped != some (n / 64) && (!open_ n || c.runsOn cl n)) c.values src f.older }
  let c := { c with values := mergeRec c.force (fun n => c.looped != some (n / 64)) c.values src f.newer }
  let t := (d.trace.feed c.force src f.older).feed c.force src f.newer
  { d with cells := c, trace := t }

/-- Every front merged (R47). -/
def Dtu.mergeFronts (d : Dtu) : Dtu :=
  let fs := d.cells.fronts
  fs.foldl (fun d p => d.mergeFront p.1 p.2) { d with cells := { d.cells with fronts := [] } }

/-- A front sampling: records of a domain that has not seen the running frame's marker belong to the frame before
(R49, R91). -/
def Dtu.sampleFront (d : Dtu) (src : ProbeSource) (f : FrontRec → FrontRec) : Dtu :=
  let dom := d.build.sourceDomain src
  let c := d.cells
  let fr := aGetD c.fronts src .empty
  let fr := if c.markers.contains dom then { fr with newer := f fr.newer } else { fr with older := f fr.older }
  { d with cells := { c with fronts := aPut c.fronts src fr, stopped := c.stopped.filter (· != dom) } }

/-- Probe logic samples: the domain is out of reset, it has not seen a Frost's stop marker and the DTU's core runs
(R48, R49, R424, R461). -/
def Dtu.samples (d : Dtu) (dom : Nat) : Bool :=
  !d.cells.held.contains dom && (!d.cells.frozen || d.frost.unseen.contains dom) && d.runs

/-- PROBE_EVENT (R48): one event of a strobe that exists. -/
def Dtu.probeEvent (d : Dtu) (s : Nat) : Dtu :=
  if decide (s / 64 < d.build.nClusters) && d.samples (d.build.strobeDomain s) then
    d.sampleFront (.strobe s) (fun r => { r with events := r.events + 1 })
  else d

def execProbeEvent (strobe : Fin 4096) (s : State) : Answer := .next (s.onDtu (·.probeEvent strobe))

/-- TAP_SAMPLE (R48): one sample of a tap. -/
def Dtu.tapSampled (d : Dtu) (t : Nat) (x : BitVec 16) : Dtu :=
  if d.samples (d.build.tapDomain t) then
    d.sampleFront (.tap t) (fun r => { r with samples := r.samples ++ [x] })
  else d

def execTapSample (tap : Fin 64) (value : BitVec 16) (s : State) : Answer := .next (s.onDtu (·.tapSampled tap value))

/-- The domains the build has (R37). -/
def Dtu.domains (d : Dtu) : List Nat := List.range d.build.nObs

/-- Domains added to a list of domains. -/
def addDoms (l : List Nat) (ds : List Nat) : List Nat := (l ++ ds.filter (fun x => !l.contains x))

/-- A domain's bit of dom_incomplete is set in the frame being closed and in the running one (R94). -/
def Dtu.markBoth (d : Dtu) (ds : List Nat) : Dtu :=
  match d.cells.closing with
  | none => d
  | some cl =>
    let flag := !cl.flagged && ds != []
    let cl := { cl with domIncomplete := addDoms cl.domIncomplete ds, flagged := cl.flagged || flag }
    let d := { d with cells := { d.cells with closing := some cl, domIncomplete := addDoms d.cells.domIncomplete ds } }
    d.count .incompleteFrames (b2n flag)

/-- OBS_CLK_LOST (R40): clk_lost and obs_clk_lost are set and the domain's cells are incomplete while it is stopped, in the
frame being closed too when the clock stopped before it showed that frame's end. -/
def Dtu.obsClkLost (d : Dtu) (dom : Nat) : Dtu :=
  if decide (dom < d.build.nObs) && !d.cells.held.contains dom then
    let d := if d.cells.markers.contains dom then d else d.markBoth [dom]
    let c := d.cells
    let d := { d with
      cells := { c with stopped := addDoms c.stopped [dom], domIncomplete := addDoms c.domIncomplete [dom] }
      host := { d.host with clkLost := d.host.clkLost ||| BitVec.ofNat 16 (2 ^ dom) } }
    d.irq 5
  else d

def execObsClkLost (dom : Fin 16) (s : State) : Answer := .next (s.onDtu (·.obsClkLost dom))


/-! ### Bands (R105 to R107). -/

def BandEntry.enabled (e : BandEntry) : Bool := bit e.w0 31
def BandEntry.field (e : BandEntry) : Nat := fld e.w0 30 29
def BandEntry.cell (e : BandEntry) : Nat := fld e.w0 11 0

/-- A malformed entry: field 3, or a reserved field that is not zero (R106). -/
def BandEntry.malformed (e : BandEntry) : Bool :=
  decide (e.field = 3) || decide (fld e.w0 23 15 ≠ 0) || decide (e.w3 ≠ 0)

/-- The compared quantity: the field shifted and clamped to 32 bits, signed for a signed VALUE cell (R106). -/
def BandEntry.quantity (e : BandEntry) (w : W) (v : CellVal) : Int :=
  let signed := cellMode w == 4 && cellSigned w
  let x : Int := if e.field = 0 then v.value else if e.field = 1 then v.minOf (cellSigned w) else v.maxOf (cellSigned w)
  let y := x / 2 ^ fld e.w0 28 24
  if signed then clampInt (-(2 ^ 31)) (2 ^ 31 - 1) y else clampInt 0 (2 ^ 32 - 1) y

/-- A bound as the same type reads it (R106). -/
def BandEntry.bound (w b : W) : Int := if cellMode w = 4 ∧ cellSigned w then ofTwos 32 b.toNat else b.toNat

/-- What the evaluation of an entry does: skipped (true when also invalid), in band, or out of band high or low. -/
inductive BandOutcome
  | skipped (invalid : Bool)
  | inBand
  | out (high : Bool)
  deriving DecidableEq, Repr

/-- One entry evaluated at the closure of its cell's cluster (R106). -/
def BandEntry.evaluate (e : BandEntry) (w : W) (v : CellVal) (fenced incomplete : Bool) : BandOutcome :=
  if e.malformed then .skipped true
  else if isCounting (cellMode w) && decide (e.field ≠ 0) then .skipped true
  else if cellMode w == 0 || incomplete || fenced then .skipped false
  else
    let q := e.quantity w v
    if q < BandEntry.bound w e.low then .out false
    else if BandEntry.bound w e.high < q then .out true
    else .inBand

/-- The result of evaluating a slot's entries on one cluster. -/
structure BandTally where
  runs : List (Nat × BandRun)
  high : Nat
  low : Nat
  skipped : Nat
  invalid : Nat

/-- The entries of a slot that lie in a cluster, evaluated in order (R106). -/
def BandSet.close (b : BandSet) (cluster : Nat) (cfg : RegMap) (cells : List (Nat × CellVal)) (fenced : Bool)
    (incomplete : Nat → Bool) : BandTally :=
  b.entries.foldl (fun t p =>
    let e := p.2
    if e.enabled && decide (e.cell / 64 = cluster) then
      let w := cellWord cfg e.cell
      match e.evaluate w (aGetD cells e.cell .empty) fenced (incomplete e.cell) with
      | .skipped inv => { t with skipped := t.skipped + 1, invalid := t.invalid + b2n inv }
      | .inBand => { t with runs := aDel t.runs p.1 }
      | .out high =>
        let n := match aGet t.runs p.1 with
          | some r => if r.high = high then r.count + 1 else 1
          | none => 1
        let flagged := decide (fld e.w0 14 12 + 1 ≤ n)
        { t with runs := aPut t.runs p.1 { high, count := n },
                 high := t.high + b2n (flagged && high), low := t.low + b2n (flagged && !high) }
    else t) { runs := b.runs, high := 0, low := 0, skipped := 0, invalid := 0 }

/-- A waiting set takes effect: an unchanged entry keeps its run (R107). -/
def BandSet.adopt (b : BandSet) (derived : Nat) (entries : List (Nat × BandEntry)) : BandSet :=
  let same (i : Nat) : Bool := match aGet b.entries i, aGet entries i with
    | some x, some y => decide (x.cell = y.cell ∧ x.field = y.field ∧ x.low = y.low ∧ x.high = y.high)
    | _, _ => false
  { b with derived := some derived, entries, runs := b.runs.filter (fun r => same r.1), waiting := none }

/-- param_age (R99), in frames begun (R170): 0 without a set; it saturates at 255. -/
def BandSet.age (b : BandSet) (t : TimeUnit) (frame : Nat) : Nat :=
  match b.derived with
  | none => 0
  | some f => min 255 (t.begunFrom f frame)

/-! ### Slots (R87 to R89). -/

def SlotEntry.valid (e : SlotEntry) : Bool := bit e.w0 31
def SlotEntry.ctx (e : SlotEntry) : BitVec 16 := BitVec.ofNat 16 (fld e.w0 15 0)
def SlotEntry.gen (e : SlotEntry) : Byte := BitVec.ofNat 8 (fld e.w0 23 16)

/-- Slot 0 always names context 0x0000 and this die (R87). -/
def Dtu.fixSlot (d : Dtu) (k : Nat) (e : SlotEntry) : SlotEntry :=
  if k = 0 then { w0 := setFld e.w0 15 0 0, w1 := setFld e.w1 19 0 d.dieId } else e

/-- The slots whose front has come copy their pending entry (R88); a front in a skipped range comes at the tick that ends
the skip (R170). -/
def Dtu.turnSlots (d : Dtu) : Dtu :=
  let frame := d.frameNow
  let due (c : CtxSlot) : Bool := c.front != 0 && decide (extendFrame frame c.front.toNat ≤ frame)
  let changed := (List.range 8).filter (fun k =>
    let c := d.cells.slots.getD k .initial
    due c && (c.pending.ctx != c.force.ctx || c.pending.gen != c.force.gen || c.pending.valid != c.force.valid))
  let slots := d.cells.slots.map (fun c => if due c then { c with force := c.pending, front := 0 } else c)
  let latched := (List.range 8).map (fun k => d.fixSlot k (slots.getD k .initial).force)
  { d with
    cells := { d.cells with slots, latched, bands := d.cells.bands.filter (fun p => !changed.contains p.1),
                            paramAge := d.cells.paramAge.filter (fun p => !changed.contains p.1) }
    digests := { d.digests with
      win := d.digests.win.filter (fun p => !changed.contains p.1)
      winWaiting := d.digests.winWaiting.filter (fun p => !changed.contains p.1)
      cache := d.digests.cache.filter (fun p => !changed.contains (wf p.2 2 28 26))
      cacheWaiting := d.digests.cacheWaiting.filter (fun p => !changed.contains (wf p.2 2 28 26)) } }

/-! ### Closure (R93 to R101). -/

/-- The domains that the cells of a cluster use (R93). -/
def Dtu.clusterDomains (d : Dtu) (cfg : RegMap) (c : Nat) : List Nat :=
  ((List.range 64).filterMap (fun i => d.build.cellDomain (64 * c + i) (cellWord cfg (64 * c + i)))).eraseDups

/-- The domains of a cluster whose marker the core has not seen; those marked clk_lost are not waited for (R93). One held in
reset shows no marker and is waited for up to the limit of R94: the rule names OFF cells and clk_lost alone (log entry
210). -/
def Dtu.unseen (d : Dtu) (cfg : RegMap) (c : Nat) : List Nat :=
  (d.clusterDomains cfg c).filter (fun x => !d.cells.markers.contains x && decide (bits d.host.clkLost.toNat x x = 0))

/-- An injection is pending for a code and parameter (R447). -/
def hasInjection (l : List Injection) (code param : Nat) : Bool :=
  l.any (fun i => i.code == code && decide (i.param.toNat = param) && decide (0 < i.n))

/-- One use of an injection. -/
def useInjection (l : List Injection) (code param : Nat) : List Injection :=
  (modWhere l (fun i => i.code == code && decide (i.param.toNat = param)) (fun i => { i with n := i.n - 1 })).filter
    (fun i => decide (0 < i.n))

/-- The sat_bitmap of a cluster, as words [63:32] and [31:0] (R99). -/
def satWords (cells : List (Nat × CellVal)) (c : Nat) : List W :=
  let n := ((List.range 64).map (fun i => if (aGetD cells (64 * c + i) .empty).sat then 2 ^ i else 0)).sum
  twoWords n

/-- The 128 data words of a cluster (R100). -/
def cellData (cfg : RegMap) (cells : List (Nat × CellVal)) (c : Nat) : List W :=
  (List.range 64).flatMap (fun i => (aGetD cells (64 * c + i) .empty).words (cellWord cfg (64 * c + i)))

/-- dom_incomplete as 16 bits (R99). -/
def domBits (ds : List Nat) : Nat := ((List.range 16).map (fun i => if ds.contains i then 2 ^ i else 0)).sum

/-- The header and data of a contribution with its crc in word 7 (R99, R101). -/
def sealContrib (hdr data : List W) : List W := hdr ++ [crcWords (hdr ++ data)] ++ data

/-- One contribution's words (R99). -/
def contribWords (e : SlotEntry) (cluster frame die cfgSeq age high low : Nat) (incomplete fenced frost : Bool)
    (doms : Nat) (sat data : List W) : List W :=
  sealContrib
    ([pack [(e.ctx.toNat, 31, 16), (e.gen.toNat, 15, 8), (cluster, 5, 0)], w32 frame,
      pack [(b2n incomplete, 31, 31), (b2n fenced, 30, 30), (b2n frost, 29, 29), (age, 27, 20), (fld e.w1 19 0, 19, 0)],
      pack [(fld e.w1 31 24, 31, 24), (cfgSeq, 23, 20), (die, 19, 0)],
      pack [(doms, 31, 16), (min 255 high, 15, 8), (min 255 low, 7, 0)]] ++ sat) data

/-- What closing one slot's share of a cluster leaves: the DTU, and the contributions so far (slot, words). -/
def Dtu.closeSlot (cl : Closing) (cluster : Nat) (fenced incomplete : Bool) (sat data : List W)
    (acc : Dtu × List (Nat × List W)) (k : Nat) : Dtu × List (Nat × List W) :=
  let d := acc.1
  let e := cl.slots.getD k .empty
  if e.valid && bit (cluWord cl.cfg cluster) k && d.link.admitted then
    let b := aGetD d.cells.bands k .initial
    let badDom (n : Nat) : Bool := match d.build.cellDomain n (cellWord cl.cfg n) with
      | some x => cl.domIncomplete.contains x
      | none => false
    let t := b.close cluster cl.cfg cl.cells fenced badDom
    let age := b.age d.time cl.frame
    let words := contribWords e cluster cl.frame d.dieId (aGetD cl.cfgSeq cluster 0) age t.high t.low incomplete fenced
      (cl.frost.contains cluster) (domBits cl.domIncomplete) sat data
    let d := { d with cells := { d.cells with
      bands := if b.entries = [] then d.cells.bands else aPut d.cells.bands k { b with runs := t.runs }
      paramAge := aPut d.cells.paramAge k age } }
    let d := ((((d.count .bandSkipped t.skipped).count .bandInvalid t.invalid).count (.flagsLo k) t.low).count
      (.flagsHi k) t.high)
    (d, acc.2 ++ [(k, words)])
  else acc

/-- The retention store takes a closed cluster and its contributions: data frame N overwrites N - 64 (R102). -/
def retain (store : List RetFrame) (frame : Nat) (slots : List SlotEntry) (x : RetCluster) (cs : List (Nat × Nat × List W)) :
    List RetFrame :=
  if store.any (fun r => r.frame == frame) then
    modWhere store (fun r => r.frame == frame) (fun r => { r with clusters := r.clusters ++ [x], contribs := r.contribs ++ cs })
  else store.filter (fun r => r.frame % 64 != frame % 64) ++ [{ frame, slots, clusters := [x], contribs := cs }]

/-- A contribution with a damaged crc (R447, code 0x20). -/
def spoilCrc (ws : List W) : List W := modAt ws 7 (fun w => w ^^^ 1)

/-- The injections of code 0x22 that the closing cluster uses: each of their cells is at its limit (R447). -/
def Dtu.satInjections (d : Dtu) (cl : Closing) : Dtu × Closing :=
  let forced := (List.range 64).filter (fun i => hasInjection d.injections 0x22 (64 * cl.next + i))
  let cells := forced.foldl (fun vs i =>
    let n := 64 * cl.next + i
    let v := aGetD vs n .empty
    aPut vs n { v with value := if cellMode (cellWord cl.cfg n) = 4 then 2 ^ 31 - 1 else 2 ^ 63 - 1, sat := true }) cl.cells
  ({ d with injections := forced.foldl (fun l i => useInjection l 0x22 (64 * cl.next + i)) d.injections }, { cl with cells })

/-- What the served slots of the closing cluster have made leaves: it is queued, unless an injection of code 0x21 holds it, and
retained (R94 to R97, R102, R447). -/
def Dtu.queueClosed (d : Dtu) (cl : Closing) (incomplete fenced : Bool) (sat data : List W) (made : List (Nat × List W)) : Dtu :=
  let c := cl.next
  let held := hasInjection d.injections 0x21 c
  let spoiled := hasInjection d.injections 0x20 c
  let q := made.map (fun p =>
    let e := cl.slots.getD p.1 .empty
    ({ work := d.time.begun, replay := false, ctx := e.ctx, gen := e.gen,
       words := if spoiled then spoilCrc p.2 else p.2 } : QueuedContrib))
  let kept : RetCluster :=
    { cluster := c, cfgSeq := aGetD cl.cfgSeq c 0, incomplete, fenced, frost := cl.frost.contains c,
      doms := domBits cl.domIncomplete, ages := (List.range 8).map (fun k => aGetD d.cells.paramAge k 0), sat, data }
  let satN := (List.range 64).countP (fun i => (aGetD cl.cells (64 * c + i) .empty).sat)
  let d := { d with
    injections := useInjection (useInjection d.injections 0x21 c) 0x20 c
    cells := { d.cells with
      closing := if c + 1 < d.build.nClusters then some { cl with next := c + 1 } else none
      sendQueue := if held then d.cells.sendQueue else d.cells.sendQueue ++ q
      retention := retain d.cells.retention cl.frame cl.slots kept (made.map (fun (p : Nat × List W) => (c, p.1, p.2))) } }
  d.count .satCells (if fenced then 0 else satN)

/-- The words of a closing cluster: its sat_bitmap and its data, zeros where it is fenced (R95, R99, R100). -/
def Closing.shares (cl : Closing) : List W × List W :=
  if bit (cluWord cl.cfg cl.next) 8 then ([0, 0], List.replicate 128 0)
  else (satWords cl.cells cl.next, cellData cl.cfg cl.cells cl.next)

/-- The next cluster closes and one contribution is queued per served slot (R93 to R97). -/
def Dtu.closeCluster (d : Dtu) : Dtu :=
  match d.cells.closing with
  | none => d
  | some cl =>
    let p := d.satInjections cl
    let fenced := bit (cluWord cl.cfg cl.next) 8
    let incomplete := (d.clusterDomains cl.cfg cl.next).any (fun x => cl.domIncomplete.contains x)
    let w := p.2.shares
    let r := (List.range 8).foldl (Dtu.closeSlot p.2 cl.next fenced incomplete w.1 w.2) (p.1, [])
    r.1.queueClosed p.2 incomplete fenced w.1 w.2 r.2

/-- CLUSTER_CLOSE (R93): the cluster is the next in order and every domain its cells use has shown its marker. -/
def Dtu.clusterClose (d : Dtu) (c : Nat) : Dtu :=
  match d.cells.closing with
  | none => d
  | some cl =>
    if cl.next = c ∧ c < d.build.nClusters ∧ d.unseen cl.cfg c = [] ∧ d.runs then d.mergeFronts.closeCluster
    else d

def execClusterClose (cluster : Fin 64) (s : State) : Answer := .next (s.onDtu (·.clusterClose cluster))

/-- A cluster closed at the limit: what the core has not merged of the domains not seen goes to the next data frame
(R94). -/
def Dtu.limitClose (d : Dtu) : Dtu :=
  match d.cells.closing with
  | none => d
  | some cl =>
    let late := d.unseen cl.cfg cl.next
    let carryOn (p : ProbeSource × Front) : ProbeSource × Front :=
      if late.contains (d.build.sourceDomain p.1) then
        (p.1, { older := .empty, newer := { events := p.2.older.events + p.2.newer.events,
                                            samples := p.2.older.samples ++ p.2.newer.samples } })
      else p
    let d := { d with cells := { d.cells with fronts := d.cells.fronts.map carryOn } }
    ((d.markBoth late).mergeFronts.closeCluster).count .closureLimit

/-- CLOSURE_LIMIT (R94): at the start of slot 2 of the work frame a cluster still waiting closes. -/
def Dtu.closureLimitAt (d : Dtu) (c : Nat) : Dtu :=
  match d.cells.closing with
  | none => d
  | some cl =>
    if cl.next = c ∧ c < d.build.nClusters ∧ d.runs then (d.reach (cl.begunAt + 32768)).limitClose else d

def execClosureLimit (cluster : Fin 64) (s : State) : Answer := .next (s.onDtu (·.closureLimitAt cluster))

/-- Every cluster still waiting is closed under R94: none waits past its work frame. -/
def Dtu.closeRest : Nat → Dtu → Dtu
  | 0, d => d
  | n + 1, d => if d.cells.closing.isSome then Dtu.closeRest n d.limitClose else d

/-- Contributions of an ended work frame leave the queue, counted; replays are no live contributions and stay (R97). -/
def Dtu.expireContribs (d : Dtu) : Dtu :=
  let late (q : QueuedContrib) : Bool := !q.replay && decide (q.work < d.time.begun)
  let n := d.cells.sendQueue.countP late
  let d := { d with cells := { d.cells with sendQueue := d.cells.sendQueue.filter (fun q => !late q) } }
  d.count .lateContrib n

/-- CONTRIB_EXPIRY (R97). -/
def execContribExpiry (s : State) : Answer := .next (s.onDtu Dtu.expireContribs)

/-! ### Replay from the retention store (R103). -/

/-- Data frames held, and the oldest (R103, R108). -/
def Dtu.framesHeld (d : Dtu) : Nat := d.cells.retention.length
def Dtu.oldestHeld (d : Dtu) : W :=
  match d.cells.retention.map (fun r => r.frame) with
  | [] => 0xFFFFFFFF
  | f :: fs => w32 (fs.foldl min f)

/-- The retained frame of a number. -/
def findRet (store : List RetFrame) (f : Nat) : Option RetFrame := store.find? (fun r => r.frame == f)

/-- The slot of a retained frame that held a context (R103). -/
def RetFrame.slotOf (r : RetFrame) (ctx : BitVec 16) (gen : Byte) : Option Nat :=
  firstIdx r.slots (fun e => e.valid && e.ctx == ctx && e.gen == gen)

/-- The first named frame, in ascending order, that is not held or did not include the context; at most 65 need be
looked at, since 64 are held (R103). -/
def firstAbsent (store : List RetFrame) (ctx : BitVec 16) (gen : Byte) (last : Nat) : Nat → Nat → Option (Nat × Bool)
  | 0, _ => none
  | fuel + 1, f =>
    if last < f then none
    else match findRet store f with
      | none => some (f, true)
      | some r => if (r.slotOf ctx gen).isSome then firstAbsent store ctx gen last fuel (f + 1) else some (f, false)

/-- A stored contribution as replayed: the replay bit set and crc recomputed (R103). -/
def replayWords (ws : List W) : List W :=
  let hdr := (ws.take 7).set 2 (setFld (word ws 2) 28 28 1)
  sealContrib hdr (ws.drop 8)

/-- What a replay sends: ascending frames, then ascending clusters of the mask (R103). -/
def replayList (store : List RetFrame) (ctx : BitVec 16) (gen : Byte) (first last mask : Nat) :
    List (BitVec 16 × Byte × List W) :=
  let held := sortBy (fun r => r.frame) (store.filter (fun r => decide (first ≤ r.frame ∧ r.frame ≤ last)))
  held.flatMap (fun r => match r.slotOf ctx gen with
    | none => []
    | some k =>
      let cs := r.contribs.filter (fun c => decide (c.2.1 = k) && decide (bits mask c.1 c.1 = 1))
      (sortBy (fun c => c.1) cs).map (fun c => (ctx, gen, replayWords c.2.2)))

/-- The completion of a replay (R103). -/
def Dtu.replayResult (d : Dtu) (r : Replay) : Result :=
  let payload := [w32 r.sent, w32 d.framesHeld, d.oldestHeld]
  match r.failure with
  | none => { status := 0, detail := 0, result0 := r.sent, payload, trunc := false }
  | some (f, gone) => { status := if gone then 0x52 else 0x53, detail := 0, result0 := f % 2 ^ 32, payload, trunc := false }

/-- With no live contribution queued, the next replay packet is handed to VC 1, or the replay ends (R103). -/
def Dtu.feedReplay (d : Dtu) : Dtu :=
  match d.cells.replays with
  | [] => d
  | r :: rs =>
    if d.cells.sendQueue != [] then d
    else match r.left with
      | [] => ({ d with cells := { d.cells with replays := rs } }).finish r.handle (d.replayResult r)
      | x :: xs =>
        let q : QueuedContrib := { work := d.time.begun, replay := true, ctx := x.1, gen := x.2.1, words := x.2.2 }
        ({ d with cells := { d.cells with sendQueue := [q], replays := { r with left := xs, sent := r.sent + 1 } :: rs } }).count
          .replaySent

/-- A RETAIN_REPLAY starts (R103). What it will send is fixed here, though a retained frame may be overwritten before its
contributions leave: the spec does not say (log entry 211). -/
def Dtu.startReplay (d : Dtu) (handle : W) (ctx : BitVec 16) (gen : Byte) (first last mask : Nat) : Dtu :=
  let r : Replay := { handle, left := replayList d.cells.retention ctx gen first last mask, sent := 0,
                      failure := firstAbsent d.cells.retention ctx gen last 65 first }
  ({ d with cells := { d.cells with replays := d.cells.replays ++ [r] } }).feedReplay

/-! ### Register writes that wait for the next tick (R83, R89, R90). -/

/-- The status of the last register write kept, and the DTU otherwise as it is. -/
def Dtu.earn (d : Dtu) (status : Nat) : Dtu := { d with cmds := { d.cmds with status } }

/-- A word of DTU_CELL_CFG written (R81, R83). -/
def Dtu.writeCell (d : Dtu) (n : Nat) (w : W) : Dtu :=
  { d with cells := { d.cells with cfg := regSet cellReset d.cells.cfg (cellAddr n) w } }

/-- CELL_CFG_WRITE (R81, R83): checked, and in force from the next tick. -/
def Dtu.cellCfgWrite (d : Dtu) (n : Nat) (w : W) : Dtu :=
  let st := if d.build.nClusters ≤ n / 64 then stBadParam else cellCfgStatus w
  (if st = stOk then d.writeCell n w else d).earn st

def execCellCfgWrite (cell : Fin 4096) (data : W) (s : State) : Answer := .next (s.onDtu (·.cellCfgWrite cell data))

/-- The RW fields of DTU_CLU_CFG written (R90). -/
def Dtu.writeClu (d : Dtu) (c : Nat) (w : W) : Dtu :=
  { d with cells := { d.cells with cfg := regSet cellReset d.cells.cfg (cluAddr c) (w &&& 0x1FF) } }

/-- CLUSTER_FENCE_WRITE (R95): in force from the next tick. -/
def Dtu.clusterFence (d : Dtu) (c : Nat) (fenced : Bool) : Dtu :=
  if d.build.nClusters ≤ c then d.earn stBadParam
  else (d.writeClu c (setFld (cluWord d.cells.cfg c) 8 8 (b2n fenced))).earn stOk

def execClusterFenceWrite (cluster : Fin 64) (fenced : Bool) (s : State) : Answer :=
  .next (s.onDtu (·.clusterFence cluster fenced))

/-- DTU_CTX_FRONT_WRITE (R87, R89): the pending words and front of a slot; before admission the words in force. A front
not later than the frame in force is rejected; a pending entry for another frame is not overwritten. -/
def Dtu.ctxFrontWrite (d : Dtu) (k : Nat) (w0 w1 front : W) : Dtu :=
  let c := d.cells.slots.getD k .initial
  let put (x : CtxSlot) : Dtu := { d with cells := { d.cells with slots := d.cells.slots.set k x } }
  let e := d.fixSlot k { w0, w1 }
  if fld w0 30 24 ≠ 0 ∨ fld w1 23 20 ≠ 0 then d.earn stReserved
  else if front = 0 then
    if d.link.admitted then d.earn stBadParam
    else (put { c with force := e }).earn stOk
  else if extendFrame d.frameNow front.toNat ≤ d.frameNow then d.earn stBadParam
  else if c.front ≠ 0 ∧ c.front ≠ front then d.earn stBadParam
  else (put { c with pending := e, front }).earn stOk

def execDtuCtxFrontWrite (slot : Fin 8) (w0 w1 front : W) (s : State) : Answer :=
  .next (s.onDtu (·.ctxFrontWrite slot w0 w1 front))

/-! ### Frame reset and cell sample (R92). -/

/-- FRAME_RESET's effect: every cell value, partial record and sat bit in the core; trace since-counts restart (R112). -/
def Dtu.frameReset (d : Dtu) : Dtu :=
  let closing := d.cells.closing.map (fun cl => { cl with cells := [] })
  { d with
    cells := { d.cells with values := [], closing := closing }
    trace := d.trace.restartCounts }

/-- The words CELL_SAMPLE returns for one cell (R92, R100). -/
def Dtu.cellNow (d : Dtu) (n : Nat) : List W := (aGetD d.cells.values n .empty).words (cellWord d.cells.force n)

end Sys2Proof.Machine
end

