-- ==== Sys2Proof/Machine/DtuDigest.lean ====
section
/-!
DEFINITION. Weight digests (R129 to R142), health, throttle and margin (R143 to R148), and fault intake (R149, R150),
with the meanings of their rows.
-/
namespace Sys2Proof.Machine

/-! ### Digest channels. -/

/-- Reset words of the digest and health registers (R479). -/
def digReset (a : Nat) : W := if a = 0x21000 then 0x00001000 else 0
def healthReset (a : Nat) : W :=
  if a = 0x20800 then 0x05502000 else if a = 0x20804 then 0x06900000 else if a = 0x20808 then 0x00042EE0 else 0

/-- Bytes of a full weight block, and weight blocks per full digest block, by width (R129). -/
def leafBytes (width : Nat) : Nat := if width = 0 then 2 ^ 19 else 2 ^ 20
def leavesPer (width : Nat) : Nat := if width = 2 then 2 else if width = 3 then 4 else 1

/-- The header a header beat spells, and whether its reserved fields are zero (R134). -/
def leafHeader (h : List (BitVec 16)) : LeafHeader × Bool :=
  let g (i : Nat) : Nat := (h.getD i 0).toNat
  ({ version := g 0, slot := bits (g 1) 15 13, width := bits (g 1) 12 11, last := decide (bits (g 1) 10 10 = 1),
     leaf := bits (g 1) 9 8, block := bits (g 1) 5 0 * 65536 + g 2, len := bits (g 3) 4 0 * 65536 + g 4 },
   decide (bits (g 1) 7 6 = 0 ∧ bits (g 3) 15 5 = 0) && (List.range 10).all (fun i => g (5 + i) == 0))

/-- A header that opens a leaf (R136). -/
def Dtu.headerSound (d : Dtu) (p : LeafHeader × Bool) : Bool :=
  let h := p.1
  p.2 && (d.cells.latched.getD h.slot .empty).valid
    && decide (1 ≤ h.len ∧ h.len ≤ leafBytes h.width ∧ (h.last = true ∨ h.len = leafBytes h.width)
        ∧ h.leaf < leavesPer h.width)

/-- The window and cache that govern a slot's local check (R141, R142): the window in force at the tick that begins the
record's frame, which may be the frame before the one that runs. -/
def Dtu.localCheck (d : Dtu) (slot version block width frame digest : Nat) : Nat :=
  let w := aGetD (if frame = d.frameNow then d.digests.win else d.digests.winBefore) slot []
  if !bit (word w 2) 31 then 0
  else
    let s := extendFrame frame (wf w 1 31 0)
    let valid := (decide (version = wf w 0 31 16) && decide (s ≤ frame))
      || (decide (version = wf w 0 15 0) && decide (frame < s + wf w 2 15 0))
    if !valid then 3
    else
      match d.digests.cache.find? (fun e => bit (word e.2 2) 31 && decide (wf e.2 2 28 26 = slot ∧ wf e.2 3 31 16 = version
          ∧ wf e.2 2 21 0 = block)) with
      | none => 0
      | some e => if dword e.2 0 = digest ∧ wf e.2 2 30 29 = width then 1 else 2

/-- A digest record is queued, or dropped when 256 wait (R138). With an error no leaf is combined; `last` says that the leaf
which closed the block, and is not one it holds, carried last = 1. -/
def Dtu.queueDigest (d : Dtu) (b : PendingBlock) (cause : Nat) (leaves : List (Nat × Nat × Nat × Bool)) (digest : Nat)
    (last : Bool) : Dtu :=
  let e := d.cells.latched.getD b.slot .empty
  let loc := if cause = 0 then d.localCheck b.slot b.version b.block b.width b.frame digest else 0
  let short := last || b.leaves.any (fun l => l.2.2.2)
  let combined := if cause = 0 then leaves else []
  let rec_ := withCrc ([pack [(1, 31, 28), (b.width, 27, 26), (loc, 25, 24), (b2n short, 22, 22), (b.block, 21, 0)],
    pack [(e.ctx.toNat, 31, 16), (b.version, 15, 0)],
    pack [(e.gen.toNat, 31, 24), (b.chan, 23, 22), (cause, 21, 20), (d.dieId, 19, 0)], w32 b.frame,
    pack [(leaves.length, 31, 28), ((combined.map (fun l => l.2.2.1)).sum, 22, 0)]] ++
    twoWords (if cause = 0 then digest else 0))
  let d := if loc = 1 then d.count .localMatch else if loc = 2 then d.count .localMismatch
    else if loc = 3 then d.count .localInvalid else d
  let d := if cause = 2 then d.count .errDup else if cause = 3 then d.count .errTimeout else d
  if d.digests.records.length < 256 then
    ({ d with digests := { d.digests with records := d.digests.records ++ [rec_] } }).count .blocks
  else d.count .recDrop

/-- A pending block without the one of a key (R137). -/
def sameBlock (slot version block : Nat) (b : PendingBlock) : Bool :=
  decide (b.slot = slot ∧ b.version = version ∧ b.block = block)

/-- A pending block closes with an error: its record has digest zero and its leaves are discarded (R137). -/
def Dtu.closePending (d : Dtu) (b : PendingBlock) (cause : Nat) (last : Bool) : Dtu :=
  let d := { d with digests := { d.digests with
    pendingBlocks := d.digests.pendingBlocks.filter (fun x => !sameBlock b.slot b.version b.block x) } }
  d.queueDigest b cause b.leaves 0 last

/-- How many leaves complete a block (R137). -/
def PendingBlock.need (b : PendingBlock) : Nat :=
  match b.leaves.find? (fun l => l.2.2.2) with
  | some l => l.1 + 1
  | none => leavesPer b.width

/-- A block whose leaves are all present gives its record; otherwise it stays pending (R131, R137). -/
def Dtu.storePending (d : Dtu) (b : PendingBlock) : Dtu :=
  let n := b.need
  let got := sortBy (fun l => l.1) (b.leaves.filter (fun l => decide (l.1 < n)))
  let rest := d.digests.pendingBlocks.filter (fun x => !sameBlock b.slot b.version b.block x)
  if got.length = n then
    ({ d with digests := { d.digests with pendingBlocks := rest } }).queueDigest b 0 got (digestOf (got.map (fun (l : Nat × Nat × Nat × Bool) => l.2.1))) false
  else { d with digests := { d.digests with pendingBlocks := rest ++ [b] } }

/-- The count of frames begun when a frame that runs, or the one before it, began. -/
def Dtu.begunOf (d : Dtu) (frame : Nat) : Nat := if frame = d.frameNow then d.time.begun else d.time.begun - 1

/-- A block is opened for its first leaf, unless 64 are pending (R137). -/
def Dtu.openPending (d : Dtu) (chan frame : Nat) (h : LeafHeader) (v : Nat) : Dtu :=
  if 64 ≤ d.digests.pendingBlocks.length then d.count .pendFull
  else d.storePending { slot := h.slot, version := h.version, block := h.block, width := h.width,
                        leaves := [(h.leaf, v, h.len, h.last)], chan, frame, begun := d.begunOf frame }

/-- A completed leaf finds or opens its block (R137). -/
def Dtu.leafDone (d : Dtu) (chan frame : Nat) (h : LeafHeader) (v : Nat) : Dtu :=
  let d := d.count .leaves
  match d.digests.pendingBlocks.find? (sameBlock h.slot h.version h.block) with
  | none => d.openPending chan frame h v
  | some b =>
    let b := { b with chan, frame }
    if b.width ≠ h.width then d.closePending b 1 h.last
    else if h.last && b.leaves.any (fun l => decide (h.leaf < l.1)) then d.closePending b 1 true
    else if b.leaves.any (fun l => decide (l.1 = h.leaf)) then (d.closePending b 2 false).openPending chan frame h v
    else d.storePending { b with leaves := b.leaves ++ [(h.leaf, v, h.len, h.last)] }

/-- The open leaf of a channel closes unfinished: counted, and its digest block closed with err_cause 1 (R136). -/
def Dtu.dropLeaf (d : Dtu) (chan frame : Nat) : Dtu :=
  match aGet d.digests.openLeaves chan with
  | none => d
  | some l =>
    let d := ({ d with digests := { d.digests with openLeaves := aDel d.digests.openLeaves chan } }).count .framingErr
    let h := l.hdr
    let b := (d.digests.pendingBlocks.find? (sameBlock h.slot h.version h.block)).getD
      { slot := h.slot, version := h.version, block := h.block, width := h.width, leaves := [], chan, frame,
        begun := d.begunOf frame }
    d.closePending { b with chan, frame } 1 h.last

/-- The data frame a domain is in: the one before until it has seen the tick marker (R49). -/
def Dtu.frameOf (d : Dtu) (dom : Nat) : Nat := if d.cells.markers.contains dom then d.frameNow else d.time.prevFrame

/-- The digest channels of an observed domain (R132). -/
def Build.chansOf (b : Build) (dom : Nat) : List Nat := (List.range 4).filter (fun c => b.tapDomain (16 * c) == dom)

/-- OBS_DOMAIN_RESET (R72): asserted, in-flight updates are discarded and the domain's cells are incomplete in every
frame in which it stays so; an open leaf of its channels closes unfinished (R136). -/
def Dtu.obsDomainReset (d : Dtu) (dom : Nat) (asserted : Bool) : Dtu :=
  if d.build.nObs ≤ dom then d
  else
    let c := d.cells
    let c := { c with domIncomplete := addDoms c.domIncomplete [dom] }
    if asserted then
      let fr := c.fronts.filter (fun p => d.build.sourceDomain p.1 != dom)
      let frame := d.frameOf dom
      (d.build.chansOf dom).foldl (fun d k => d.dropLeaf k frame)
        { d with cells := { c with fronts := fr, held := addDoms c.held [dom] } }
    else { d with cells := { c with held := c.held.filter (· != dom) } }

/-- The bytes of a data beat (R135). -/
def beatBytes (h : List (BitVec 16)) : List Byte :=
  (List.range 16).flatMap (fun i => let x := (h.getD i 0).toNat; [BitVec.ofNat 8 (x / 256), BitVec.ofNat 8 x])

/-- DIGEST_BEAT (R133 to R136). Cells that read the channel's taps see the beat as samples too (R132). -/
def Dtu.digestBeat (d : Dtu) (c : Nat) (valid : BitVec 16) (half : List (BitVec 16)) : Dtu :=
  let dom := d.build.tapDomain (16 * c)
  let frame := d.frameOf dom
  let d' := (List.range 16).foldl (fun d m =>
    if bits valid.toNat m m = 1 then d.tapSampled (16 * c + m) (half.getD m 0) else d) d
  if bits d.digests.chanEn c c = 0 ∨ d.cells.held.contains dom ∨ !d.runs then d'
  else
    let d := d'
    if valid = 0 then d
    else if valid = 0x7FFF then
      let p := leafHeader half
      if (aGet d.digests.openLeaves c).isSome then d.dropLeaf c frame
      else if d.headerSound p then
        { d with digests := { d.digests with
          openLeaves := aPut d.digests.openLeaves c { hdr := p.1, taken := 0, crc := 0xFFFFFFFFFFFFFFFF } } }
      else d.count .framingErr
    else if valid = 0xFFFF then
      match aGet d.digests.openLeaves c with
      | none => d
      | some l =>
        let bs := (beatBytes half).take (l.hdr.len - l.taken)
        let crc := crcRun 0xC96C5795D7870F42 l.crc bs
        if l.taken + bs.length < l.hdr.len then
          { d with digests := { d.digests with
            openLeaves := aPut d.digests.openLeaves c { l with taken := l.taken + bs.length, crc } } }
        else
          let d := { d with digests := { d.digests with openLeaves := aDel d.digests.openLeaves c } }
          d.leafDone c frame l.hdr (crc ^^^ 0xFFFFFFFFFFFFFFFF)
    else d.dropLeaf c frame

def execDigestBeat (chan : Fin 4) (valid : BitVec 16) (half : List (BitVec 16)) (s : State) : Answer :=
  .next (s.onDtu (·.digestBeat chan valid half))

/-- DIGEST_PENDING_TIMEOUT (R137): the block is still incomplete after timeout frames beyond its first leaf's. -/
def Dtu.digestTimeout (d : Dtu) (slot version block : Nat) : Dtu :=
  match d.digests.pendingBlocks.find? (sameBlock slot version block) with
  | none => d
  | some b =>
    let timeout := fld (regGet digReset d.digests.cfg 0x21000) 15 8
    if b.begun + timeout < d.time.begun then d.closePending b 3 false else d

def execDigestPendingTimeout (slot : Fin 8) (version : BitVec 16) (block : BitVec 22) (s : State) : Answer :=
  .next (s.onDtu (·.digestTimeout slot version.toNat block.toNat))

/-- Windows and cache entries received take force at a tick; chan_en as written (R107, R132). -/
def Digests.turn (g : Digests) : Digests :=
  { g with
    chanEn := fld (regGet digReset g.cfg 0x21000) 31 28
    win := g.winWaiting.foldl (fun m p => aPut m p.1 p.2) g.win
    winWaiting := []
    cache := g.cacheWaiting.foldl (fun m p => aPut m p.1 p.2) g.cache
    cacheWaiting := [] }

/-! ### Health, throttle and margin. -/

def Dtu.thermCfg (d : Dtu) : W := regGet healthReset d.health.cfg 0x20800
def Dtu.thermCrit (d : Dtu) : W := regGet healthReset d.health.cfg 0x20804
def Dtu.marginCfg (d : Dtu) : W := regGet healthReset d.health.cfg 0x20808

/-- A reading held to its sensor's range: -40 to 150 °C in 1/16 °C, 0.450 to 1.100 V in 1/16 mV (R143). -/
def clampTemp (t : BitVec 16) : BitVec 16 := BitVec.ofNat 16 (toTwos 16 (clampInt (-640) 2400 (ofTwos 16 t.toNat)))
def clampVolt (v : BitVec 16) : BitVec 16 := BitVec.ofNat 16 (max 7200 (min 17600 v.toNat))

/-- The thermal level after a sample (R145): level and below. -/
def thermalLevel (tThrottle tStep tCrit : Int) (level below : Nat) (t : Int) : Nat × Nat :=
  let raw : Nat := if t < tThrottle then 0 else min 7 (1 + ((t - tThrottle) / tStep).toNat)
  let raw := if tCrit ≤ t then 7 else raw
  let p : Nat × Nat := if level < raw then (raw, below)
    else if raw < level then (if below + 1 = 4 then (level - 1, 0) else (level, below + 1))
    else (level, below)
  if p.1 ≤ raw then (p.1, 0) else p

/-- The requests waiting, in the order in which they start: commanded first, then raise-voltage (R147). -/
def marginRank (r : MarginReq) : Nat := (if r.commanded then 0 else 2) + (if r.code = 1 then 0 else 1)

/-- The next waiting request is driven when no handshake is under way (R64, R147). -/
def Dtu.startMargin (d : Dtu) : Dtu :=
  let h := d.health
  if h.driving.isSome || h.acked then d
  else
    match sortBy marginRank h.waiting with
    | [] => d
    | r :: rest => { d with health := { h with driving := some r, waiting := rest, stalled := false, drivenAt := d.nowNs } }

/-- A request enters: it merges with one of its code that waits or is under way, or waits its turn (R147). The second
component says whether it was a request of its own. -/
def Dtu.askMargin (d : Dtu) (code : Nat) (handle : Option W) : Dtu × Bool :=
  let h := d.health
  let hs := handle.toList
  let join (r : MarginReq) : MarginReq := { r with handles := r.handles ++ hs }
  match h.driving with
  | some r =>
    if r.code = code then
      (({ d with health := { h with driving := some (join r) } }).count .marginMerged, false)
    else if h.waiting.any (fun x => x.code == code) then
      (({ d with health := { h with waiting := modWhere h.waiting (fun x => x.code == code) join } }).count .marginMerged, false)
    else
      ({ d with health := { h with waiting := h.waiting ++ [{ code, commanded := handle.isSome, handles := hs }] } }, true)
  | none =>
    if h.waiting.any (fun x => x.code == code) then
      (({ d with health := { h with waiting := modWhere h.waiting (fun x => x.code == code) join } }).count .marginMerged, false)
    else
      let w : MarginReq := { code, commanded := handle.isSome, handles := hs }
      (({ d with health := { h with waiting := h.waiting ++ [w] } }).startMargin, true)

/-- A local request: made only while budget is above 0, which it lowers (R146). -/
def Dtu.localMargin (d : Dtu) (code : Nat) : Dtu :=
  let w := d.marginCfg
  let budget := fld w 27 24
  if budget = 0 then d.count .marginSuppressed
  else
    let p := d.askMargin code none
    if p.2 then
      let h := p.1.health
      ({ p.1 with health := { h with
        cfg := regSet healthReset h.cfg 0x20808 (setFld w 27 24 (budget - 1)), locals := h.locals + 1, lowRun := 0 } }).count
        .marginLocal
    else p.1

/-- HEALTH_SAMPLE (R143, R145, R146, R148): one sample of each sensor, while the core runs. -/
def Dtu.healthSample (d : Dtu) (temp vcore vret : BitVec 16) : Dtu :=
  if !d.runs then d
  else
    let t := clampTemp temp
    let v := clampVolt vcore
    let h := d.health
    let ti := ofTwos 16 t.toNat
    let crit := ofTwos 16 (fld d.thermCrit 31 16)
    let before := ofTwos 16 h.temp.toNat
    let lv := thermalLevel (ofTwos 16 (fld d.thermCfg 31 16)) (fld d.thermCfg 15 8) crit h.level h.below ti
    let mc := d.marginCfg
    let low := decide (v.toNat < fld mc 15 0)
    let run := if low then h.lowRun + 1 else 0
    let d := { d with health := { h with
      temp := t, vcore := v, samples := h.samples ++ [(t, v, clampVolt vret)], level := lv.1, below := lv.2,
      pendingThrottle := max lv.1 (fld d.thermCfg 2 0), lowRun := run } }
    let d := if crit ≤ ti ∧ before < crit - 16 then d.raise .healthCrit .none t.toNat else d
    let d := if run = fld mc 23 16 ∧ low then
        let d := d.raise .supplyLow .none v.toNat
        if bit mc 31 then d.localMargin 1 else d
      else d
    if crit ≤ ti ∧ bit mc 30 then d.localMargin 2 else d

def execHealthSample (temp vcore vret : BitVec 16) (s : State) : Answer :=
  .next (s.onDtu (·.healthSample temp vcore vret))

/-- MARGIN_ACK (R64, R147): the outcome is recorded, margin_done set, 0b00 driven, and commanded requests complete. -/
def Dtu.marginAck (d : Dtu) (nak : Bool) : Dtu :=
  let h := d.health
  match h.driving with
  | none => d
  | some r =>
    if h.acked then d
    else
      let d := { d with health := { h with
        driving := none, acked := true, stalled := false
        acksV := h.acksV + b2n (!nak && r.code == 1), acksC := h.acksC + b2n (!nak && r.code == 2)
        naks := h.naks + b2n nak } }
      let d := if nak then d.count .marginNak else d
      r.handles.foldl (fun d x => d.finish x { status := 0, detail := 0, result0 := b2n nak, payload := [], trunc := false })
        (d.irq 7)

def execMarginAck (nak : Bool) (s : State) : Answer := .next (s.onDtu (·.marginAck nak))

/-- MARGIN_ACK_RELEASE (R64): with margin_ack_i low the next waiting request may start. -/
def Dtu.marginRelease (d : Dtu) : Dtu := ({ d with health := { d.health with acked := false } }).startMargin

def execMarginAckRelease (s : State) : Answer := .next (s.onDtu Dtu.marginRelease)

/-- MARGIN_STALL (R64): one frame has passed without an acknowledgement. -/
def Dtu.marginStall (d : Dtu) : Dtu :=
  if d.health.driving.isSome && !d.health.acked && !d.health.stalled then
    let d := d.reach (d.health.drivenAt + 2 ^ 20)
    ({ d with health := { d.health with stalled := true } }).irq 6
  else d

def execMarginStall (s : State) : Answer := .next (s.onDtu Dtu.marginStall)

/-- DTU_MARGIN_CFG's rules: v_persist from 1 to 64, reserved bits zero. -/
def marginCfgStatus (w : W) : Nat :=
  if fld w 29 28 ≠ 0 then stReserved else if fld w 23 16 = 0 ∨ 64 < fld w 23 16 then stBadParam else stOk

/-- MARGIN_BUDGET_WRITE (R483): the written budget stands. -/
def Dtu.marginBudgetWrite (d : Dtu) (w : W) : Dtu :=
  let st := marginCfgStatus w
  (if st = stOk then { d with health := { d.health with cfg := regSet healthReset d.health.cfg 0x20808 w } } else d).earn st

def execMarginBudgetWrite (data : W) (s : State) : Answer := .next (s.onDtu (·.marginBudgetWrite data))

/-- A mean rounded toward negative infinity (R144). -/
def meanOf (l : List Int) : Int := l.sum / (l.length : Int)

/-- The health record of the data frame that ended (R144). -/
def Dtu.healthRecord (d : Dtu) (frame : Nat) : List W :=
  let h := d.health
  let ts := h.samples.map (fun s => ofTwos 16 s.1.toNat)
  let vs := h.samples.map (fun s => (s.2.1.toNat : Int))
  let rs := h.samples.map (fun s => (s.2.2.toNat : Int))
  let none_ := h.samples.isEmpty
  let tf (x : Int) : Nat := if none_ then 0x8000 else toTwos 16 x
  let vf (x : Int) : Nat := if none_ then 0 else toTwos 16 x
  let least (l : List Int) : Int := l.foldl min (l.headD 0)
  let most (l : List Int) : Int := l.foldl max (l.headD 0)
  let margin := if h.driving.isSome ∨ h.acked then (if h.stalled then 2 else 1) else 0
  withCrc [pack [(1, 31, 28), (h.throttle, 27, 25), (margin, 24, 23), (d.dieId, 19, 0)], w32 frame,
    pack [(tf (most ts), 31, 16), (tf (least ts), 15, 0)],
    pack [(tf (meanOf ts), 31, 16), (min 64 h.samples.length, 15, 0)],
    pack [(vf (least vs), 31, 16), (vf (most vs), 15, 0)],
    pack [(vf (meanOf vs), 31, 16), (vf (least rs), 15, 0)],
    pack [(min 255 h.acksV, 31, 24), (min 255 h.acksC, 23, 16), (min 255 h.naks, 15, 8), (min 255 h.locals, 7, 0)]]

/-- After a tick an admitted DTU queues the health record of the frame that ended, and the frame's samples and counts
start afresh (R144). -/
def Dtu.healthTick (d : Dtu) (frame : Nat) : Dtu :=
  let r := d.healthRecord frame
  let d := { d with health := { d.health with samples := [], acksV := 0, acksC := 0, naks := 0, locals := 0 } }
  if d.mayReport then d.queue (d.toAgg clsBulk 0x03 r 32) else d

/-! ### Fault intake. -/

/-- FAULT_PORT_ACCEPT (R61, R149): a host message is stamped and queued, or merges with an equal one. -/
def Dtu.faultAccept (d : Dtu) (m : BitVec 128) : Dtu :=
  if !d.faultRdy then d
  else
    match mergeFault d.faults.port m with
    | some q => (({ d with faults := { d.faults with port := q } }).count .faultMerged).count .faultAccepted
    | none => ({ d with faults := { d.faults with port := d.faults.port ++ [d.stampFault m false] } }).count .faultAccepted

def execFaultPortAccept (message : BitVec 128) (s : State) : Answer := .next (s.onDtu (·.faultAccept message))

/-- FAULT_DROP_PULSE (R62): one dropped host message counted, fault_overflow set. -/
def Dtu.faultDrop (d : Dtu) : Dtu := ({ d with faults := { d.faults with drops := d.faults.drops + 1 } }).irq 9

def execFaultDropPulse (s : State) : Answer := .next (s.onDtu Dtu.faultDrop)

/-- FAULT_INTAKE_RESET (R72), an edge of fault_rst_n_i: a message half crossed is discarded, the queued ones stay; a command
being whole, none is ever half crossed between two commands. -/
def Dtu.faultIntakeReset (d : Dtu) : Dtu := { d with faults := { d.faults with rst := !d.faults.rst } }

def execFaultIntakeReset (s : State) : Answer := .next (s.onDtu Dtu.faultIntakeReset)

/-- DTU_FAULT_Q (R481). -/
def Dtu.faultQ (d : Dtu) : W :=
  pack [(b2n d.faultRdy, 15, 15), (d.faults.port.length, 13, 8), (d.faults.own.length, 3, 0)]

/-- At a tick the LEDGER faults of the frame and a FAULT_DROP with its drops are raised (R54, R150). -/
def Dtu.faultTick (d : Dtu) : Dtu :=
  let due := d.faults.ledgerDue
  let drops := d.faults.drops
  let d := due.foldl Dtu.raiseMsg { d with faults := { d.faults with ledgerDue := [], drops := 0 } }
  if drops = 0 then d else d.raise .faultDrop .none drops

end Sys2Proof.Machine
end

