-- ==== Sys2Proof/Machine/DtuTime.lean ====
section
/-!
DEFINITION. The DTU's time: samples from the Time Port and from Triheud (R57 to R59, R172, R173), TIME_ECHO (R174),
commanded steps (R167 to R171), triggers (R177 to R179), the Frost stop of its cells (R427) and Lull entry and exit
(R461), which its ticks meet.
-/
namespace Sys2Proof.Machine

/-- The lock threshold of a DTU, ns (R159). -/
def dtuLockThr : Nat := 4

/-- One sample taken by the DTU's time unit (R159 to R163). -/
def Dtu.sample (d : Dtu) (free : Nat) (far : Bool) (offset : Int) : Dtu :=
  d.withTime (d.time.sample d.build.timePeriod d.slewMax d.jumpThr dtuLockThr free far offset)

/-- A missing sample interval. -/
def Dtu.missSample (d : Dtu) (n : Nat) : Dtu := if n = 0 then d else d.withTime (d.time.miss n)

/-- TIME_PORT_WORD (R58, R59): a complete word; one beyond the first between two pulses is counted. -/
def Dtu.timeWord (d : Dtu) (b0 b1 b2 b3 : W) : Dtu :=
  if d.host.timeSrc ≠ 0 ∨ d.power.por then d
  else
    let extra := b2n d.port.word.isSome
    { d with port := { d.port with word := some (2 ^ 32 * b0.toNat + b1.toNat, b2.toNat, b3),
                                   extraWords := d.port.extraWords + extra } }

def execTimePortWord (b0 b1 b2 b3 : W) (s : State) : Answer := .next (s.onDtu (·.timeWord b0 b1 b2 b3))

/-- A Time Port word refused for step = 1 (R172): counted, TIME_JUMP once per run, a missing sample. -/
def Dtu.refuseStepWord (d : Dtu) (offset : Int) : Dtu :=
  let first := !d.port.stepRefusals
  let d := { d with port := { d.port with stepRefusals := true }, time := (d.time.count .stepFlagRefused) }
  let d := { d with time := { d.time with offset := offset } }
  let d := if first then Dtu.timeEvents d.nowNs d [.jump offset] else d
  d.missSample 1

/-- TIME_PORT_SLOT_PULSE (R59, R172): the pulse and the last complete word give one sample; without a word the pulse is
counted and corrects nothing. -/
def Dtu.slotPulse (d : Dtu) (free : Nat) : Dtu :=
  if d.host.timeSrc ≠ 0 ∨ d.power.por then d
  else
    match d.port.word with
    | none => ({ d with port := { d.port with uncorrected := d.port.uncorrected + 1, sampled := true } }).missSample 1
    | some (sec, ns, b3) =>
      let after := d.time.stepped
      let d := { d with port := { d.port with word := none, sampled := true }, time := { d.time with stepped := false } }
      let offset : Int := (d.now : Int) - stampOf sec ns (fld b3 31 16)
      if bit b3 1 && !after then d.refuseStepWord offset
      else
        let d := { d with port := { d.port with stepRefusals := false } }
        if !bit b3 0 && (d.time.state == .locked || d.time.state == .holdover) then d.missSample 1
        else d.sample free (decide (2 ^ 34 ≤ sec)) offset

def execTimePortSlotPulse (s : State) : Answer := .next ((s.onDtu (·.slotPulse s.free)).draw)

/-- The step a TIME_SYNC carries (R171, R173). -/
def Dtu.learnStep (d : Dtu) (b : List W) : Dtu :=
  if wf b 0 21 21 = 1 then
    let f := extendFrame d.frameNow (wf b 5 31 0)
    if d.frameNow < f then { d with time := { d.time with armed := some { frame := f, s := ofTwos 64 (dword b 6) } } } else d
  else d

/-- TIME_SYNC (R173): with Triheud recovery one sample, stamp - DTU_UL_LAT_RX - t; a sequence gap counts its missing slots,
less those already counted as their slots ended; an armed step is learnt whatever the source. -/
def Dtu.timeSync (d : Dtu) (free : Nat) (f : Frame) (phase : BitVec 6) : Dtu :=
  let stamp := d.stampAt phase.toNat
  let p := d.receive f
  let b := f.body
  if !(p.2 && decide (f.plen.toNat = 32 ∧ wf b 0 31 24 = 1)) then p.1
  else
    let d := p.1.learnStep b
    if d.host.timeSrc ≠ 1 then d
    else
      let seq := BitVec.ofNat 16 (wf b 0 15 0)
      let gap := match d.port.lastSeq with
        | none => 0
        | some l => (seq - l - 1).toNat
      let seen := d.port.absent
      let d := { d with port := { d.port with lastSeq := some seq, sampled := true, absent := 0 }
                        time := { d.time with stepped := false } }
      let d := d.missSample (if gap < 32768 then gap - seen else 0)
      let sec := dword b 1
      let offset : Int := (stamp : Int) - d.host.latRx.toNat - stampOf sec (wf b 3 31 0) (wf b 4 31 16)
      let usable := wf b 0 23 22 != 0 || d.time.state == .free || d.time.state == .acquire
      if usable then d.sample free (decide (2 ^ 34 ≤ sec)) offset else d.missSample 1

def execTimeSync (frame : Frame) (phase : BitVec 6) (s : State) : Answer :=
  .next ((s.onDtu (·.timeSync s.free frame phase)).draw)

/-- TIME_CLK_TOLERANCE (R39): time_lost is set and the time is no longer locked. -/
def Dtu.timeClk (d : Dtu) : Dtu :=
  let d := d.irq 4
  if d.time.state = .locked then d.withTime (d.time.enter .holdover) else { d with time := { d.time with run := 0 } }

def execTimeClkTolerance (s : State) : Answer := .next (s.onDtu Dtu.timeClk)

/-- Three intervals have passed without a usable sample (R159): those not yet counted are missing, any run of samples ends,
and LOCKED is left. -/
def Dtu.holdoverEntry (d : Dtu) : Dtu :=
  if d.power.por then d else d.withTime (d.time.miss (3 - d.time.missed))

/-- A slot ends (R159): without a sample in it, it is a missing one. -/
def Dtu.slotEnds (d : Dtu) : Dtu :=
  let sampled := d.port.sampled
  let d := { d with port := { d.port with sampled := false, absent := if sampled then d.port.absent else d.port.absent + 1 } }
  if sampled then d else d.missSample 1

/-- An armed step is applied (R168, R169); a Frost instant in a skipped span is noted (R436). -/
def Dtu.applyStep (d : Dtu) (a : ArmedStep) : Dtu :=
  let before := 2 ^ 20 * d.time.nextFrame
  let d := d.withTime (d.time.applyStep d.slewMax d.build.timePeriod a)
  if d.frost.state = 1 ∧ before < d.frost.t ∧ d.frost.t ≤ d.nowNs then { d with frost := { d.frost with stepped := true } } else d

/-- STEP_APPLY on a DTU. -/
def Dtu.stepNow (d : Dtu) : Dtu :=
  match d.time.stepDue with
  | some a => d.applyStep a
  | none => d

/-- The frame a TIME_ECHO leaves in (R174); it is stamped again as its sof beat leaves. -/
def Dtu.echoFrame (d : Dtu) : TxFrame := d.toAgg clsTime 0x02 (d.echoBody d.port.echoSeq.toNat) 18

/-- In LOCKED, with Triheud recovery, one TIME_ECHO leaves per frame, admitted or not (R174), on a link that agreed
version 3.1 or later (R349). -/
def Dtu.queueEcho (d : Dtu) : Dtu :=
  if d.time.state = .locked ∧ d.host.timeSrc = 1 ∧ 0x31 ≤ d.link.version then
    let t := d.echoFrame
    ({ d with port := { d.port with echoSeq := d.port.echoSeq + 1 } }).sendNow t
  else d

/-! ### Triggers. -/

/-- An instant that the FTC may be moved on to: no tick that is due lies before it. -/
def Dtu.mayReach (d : Dtu) (ns : Nat) : Bool := !d.time.ticking || decide (ns ≤ 2 ^ 20 * d.time.nextFrame)

/-- TRIGGER_FIRE (R177): at the first edge at or after its instant the trigger pulses and rearms or disarms. -/
def Dtu.triggerFire (d : Dtu) (i : Nat) : Dtu :=
  match d.trigs[i]? with
  | none => d
  | some t =>
    if t.enabled && d.mayReach t.next then
      let d := d.reach t.next
      let d := { d with trigs := d.trigs.set i t.fire, trigHigh := d.trigHigh.set i (fld t.w0 27 16) }
      if d.time.state = .locked then d else { d with time := d.time.count .firedUnlocked }
    else d

def execTriggerFire (trig : Fin 4) (s : State) : Answer := .next (s.onDtu (·.triggerFire trig))

/-- The status a trigger word earns (R177, R178): `least` is the shortest period in ns for its width. -/
def triggerStatus (t : Trigger) (i : Nat) (w : W) (reservedOk widthOk : Bool) (least : Nat) : Nat :=
  if i = 0 then
    if !reservedOk then stReserved
    else if !widthOk then stBadParam
    else if bit w 31 && bit w 30 && decide (t.period.toNat < least) then stBadParam
    else stOk
  else stOk

/-- TRIG_PAST (R178, R385). -/
def stTrigPast : Nat := 0x0042

/-- TRIG_ARM (R177, R178): a write to words 0 to 4 of a trigger. -/
def Dtu.trigWrite (d : Dtu) (i k : Nat) (w : W) : Dtu :=
  let t := d.trigs.getD i (.initial 0)
  let least := max 64 (((fld w 27 16 + 1) * d.build.timePeriod + oneNs - 1) / oneNs)
  let st := triggerStatus t k w (decide (fld w 29 28 = 0 ∧ fld w 15 0 = 0)) (decide (fld w 27 16 ≠ 0)) least
  if st ≠ stOk then d.earn st
  else match t.write d.nowNs k w with
    | none => d.earn stTrigPast
    | some t => ({ d with trigs := d.trigs.set i t }).earn stOk

def execTrigArm (trig : Fin 4) (word : Fin 5) (data : W) (s : State) : Answer := .next (s.onDtu (·.trigWrite trig word data))

/-! ### The Frost in a DTU (R424 to R437). -/

/-- The counts of every class at an instant (R429). -/
def Dtu.linkCounts (d : Dtu) : List (Nat × W × W) :=
  (List.range 8).map (fun c => (c, d.link.lseqTx.getD c 0, d.link.lseqRx.getD c 0))

/-- The CELLS entries of a snapshot (R440). -/
def Dtu.snapCells (d : Dtu) : List (Nat × W × List W) :=
  (List.range d.build.nClusters).map (fun c =>
    (c, pack [(c, 31, 26), (aGetD d.cells.cfgSeq c 0, 25, 22), (b2n (bit (cluWord d.cells.force c) 8), 21, 21)],
      satWords d.cells.values c ++ cellData d.cells.force d.cells.values c))

/-- The cells stop (R427): events before the stop are merged, the snapshot is taken, frost_req_o rises, the FROST record
is the last captured and the block closes with cause 6 (R125). A domain stops at the edge at which it sees the stop marker
(R49), which completes the snapshot. In a Lull state nothing stops (R436). -/
def Dtu.frostStop (d : Dtu) (smear : Bool) : Dtu :=
  let running := d.runs
  let d := if running then d.mergeFronts else d
  let snap : DtuSnapshot :=
    { frame := d.frameNow, cells := if running then d.snapCells else [], domains := [], links := d.linkCounts, slots := d.cells.latched }
  let d := { d with frost := { d.frost with
    state := 2, smear, lull := !running, stopNs := d.nowNs, timeState := d.time.state.code,
    snapshot := some snap, capture := [], capFull := false, spoiled := false, cutComplete := false,
    windowEnd := some (d.nowNs + 65536)
    unseen := if running then d.domains.filter (fun x => !d.cells.stopped.contains x && !d.cells.held.contains x) else [] } }
  if running then
    let d := { d with cells := { d.cells with frozen := true, frost := List.range d.build.nClusters } }
    let d := d.offer 0x13 (if smear then 2 else 1) d.frost.t
    let d := d.captureAll0
    let d := if d.trace.capturing then d.askClose 6 none else d
    ({ d with trace := { d.trace with frozen := true } }).irq 8
  else d

/-- FROST_STOP on a DTU (R427, R429): the FTC is at T. -/
def Dtu.frostStopAt (d : Dtu) : Dtu :=
  if d.frost.state = 1 ∧ d.mayReach d.frost.t then (d.reach d.frost.t).frostStop false else d

/-- The cells resume (R435): frost_req_o falls and capture goes on in the same stream; the snapshot stays. -/
def Dtu.thawNow (d : Dtu) : Dtu :=
  if d.frost.state = 2 then
    { d with
      frost := { d.frost with state := 0, thawAt := none, unseen := [] }
      cells := { d.cells with frozen := false }
      trace := { d.trace with frozen := false } }
  else d

/-- THAW_INSTANT on a DTU (R435). -/
def Dtu.thawInstant (d : Dtu) : Dtu :=
  match d.frost.thawAt with
  | none => d
  | some t => if d.mayReach t then (d.reach t).thawNow else d

/-- CAPTURE_WINDOW_END on a DTU (R430, R431): copying ends and its part of the cut is judged. -/
def Dtu.captureEnd (d : Dtu) : Dtu :=
  match d.frost.windowEnd with
  | none => d
  | some e =>
    if d.mayReach e then
      let d := d.reach e
      let f := d.frost
      let whole := !f.smear && !f.lateArm && !f.stepped && !f.capFull && !f.spoiled && decide (f.timeState = 2) && !f.lull
      { d with frost := { f with windowEnd := none, cutComplete := whole } }
    else d

/-! ### Lull states (R68, R125, R461 to R463). -/

/-- The LULL record of a change of state (R110). -/
def Dtu.lullRecord (d : Dtu) (left entered : Nat) : Dtu :=
  (d.offer 0x12 (left * 16 + entered) 0).captureAll0

/-- What every Lull state and reset that clears them empties of the cells (R462): values, partial records, sat bits. -/
def Cells.emptied (c : Cells) : Cells :=
  { c with values := [], fronts := [], closing := none, domIncomplete := c.held ++ c.stopped.filter (fun x => !c.held.contains x) }

/-- What Lull-2 clears of the DTU (R462). -/
def Dtu.clearLull2 (d : Dtu) : Dtu :=
  let n := d.health.waiting.length
  let d := { d with
    cells := d.cells.emptied
    trace := { d.trace with events := [], taps := [], dueCells := [], dueTaps := [] }
    digests := { d.digests with openLeaves := [], pendingBlocks := [], records := [] }
    health := { d.health with waiting := [], throttle := 0 } }
  (d.count .marginDiscarded n).linkReset none

/-- The time unit without its counters, which are status counters (R182, R462). -/
def Dtu.keptTime (d : Dtu) : TimeUnit := { d.time with counters := [] }

/-- What Lull-3 keeps (R462): identity, tag and seal, time unit, triggers, trace_cut. The levels of the inputs are as they
were. DEDUCED (log entry 239): the count of Lull entries is cleared. -/
def Dtu.clearLull3 (d : Dtu) : Dtu :=
  let i := Dtu.initial d.build
  { i with
    host := { i.host with tag := d.host.tag, sealed := d.host.sealed, refused := d.host.refused, refusedWrites := d.host.refusedWrites }
    trace := { d.trace.clear false with capturing := false }
    time := d.keptTime, timeCtl := d.timeCtl, timeServo := d.timeServo, port := d.port, trigs := d.trigs, trigHigh := d.trigHigh
    cells := { i.cells with held := d.cells.held }
    link := { i.link with rst := d.link.rst }
    faults := { i.faults with rst := d.faults.rst }
    power := { d.power with lullEntries := 0 } }

/-- What a requested Lull state asks of the trace path, once: a LULL record, and the block closes with cause 5 (R125). -/
def Dtu.askLull (d : Dtu) (l k : Nat) : Dtu :=
  if d.power.lullAsked || !d.trace.capturing then d
  else
    let d := (d.lullRecord l k).askClose 5 none
    { d with power := { d.power with lullAsked := true } }

/-- A Lull state is entered: lull_rdy_o rises (R68, R461, R462). -/
def Dtu.enterLull (d : Dtu) (k : Nat) : Dtu :=
  let save := d.trace.capturing && k == 2
  let d := if save then
      let d := d.saveImage
      { d with trace := { d.trace with capturing := false } }
    else d
  let d := { d with power := { d.power with
    lull := k, lullRdy := true, lullEntries := min 0xFFFF (d.power.lullEntries + 1), lullInFrame := true,
    traceSaved := save, lullAsked := false } }
  if k = 2 then d.clearLull2 else if k = 3 then d.clearLull3 else d

/-- A requested Lull state is entered once no handshake is under way and the trace block has closed (R125, R147, R461).
DESIGN CHOICE (log entry 181): a request for another Lull state while lull_rdy_o is high enters it directly, and lull_rdy_o
stays high. -/
def Dtu.tryLull (d : Dtu) : Dtu :=
  let k := d.power.lullReq
  let l := d.power.lull
  if k = 0 ∨ k = l ∨ d.health.driving.isSome ∨ d.health.acked then d
  else
    let d := d.askLull l k
    if d.trace.waits.any (fun w => w.cause == 5) then d else d.enterLull k

/-- The inputs of LULL_REQUEST as they now stand. -/
def DtuPower.pins (p : DtuPower) (x : PowerPins) : DtuPower :=
  { p with lullReq := x.req.toNat, lullAsked := p.lullAsked && x.req != 0, pgCore := x.core, pgRet := x.ret }

/-- LULL_REQUEST (R68). -/
def Dtu.lullRequest (d : Dtu) (x : PowerPins) : Dtu := ({ d with power := d.power.pins x }).tryLull

def execLullRequest (target : PowerPins) (s : State) : Answer := .next (s.onDtu (·.lullRequest target))

/-- The supplies that the exit from the Lull state needs are good (R68): the core supply, and the retention supply when
Lull-3 had it off (log entry 220). -/
def DtuPower.suppliesGood (p : DtuPower) : Bool := p.pgCore && (p.pgRet || p.lull != 3)

/-- After Lull-2 the image is restored and enable set again (R125); with the saved stream ended by the link reset that came
with Lull-2, a new one starts. -/
def Dtu.resumeTrace (d : Dtu) : Dtu :=
  let d := if d.trace.image.valid then d.loadImage else d.newStream
  { d with trace := { d.trace with capturing := true, restored := false } }

/-- LULL_EXIT (R68, R125, R463): the supplies having been good for 64 cycles the DTU runs again and lowers lull_rdy_o. DESIGN
CHOICE (log entry 182): events that a probe front still held when Lull-1 was entered are merged afterwards, into the data frame
that then runs. -/
def Dtu.lullExit (d : Dtu) : Dtu :=
  let k := d.power.lull
  if k = 0 ∨ d.power.lullReq ≠ 0 ∨ !d.power.suppliesGood then d
  else
    let saved := d.power.traceSaved
    let clear := d.power.clearAtExit
    let d := { d with power := { d.power with
      lull := 0, lullRdy := false, lullLast := max d.power.lullLast k, traceSaved := false, clearAtExit := false } }
    let d := if saved then d.resumeTrace else d
    let d := if clear then
        { d with cells := { d.cells with values := d.cells.values.filter (fun p =>
            let w := cellWord d.cells.force p.1
            isCounting (cellMode w) && cellCumul w) } }
      else d
    d.lullRecord k 0

def execLullExit (s : State) : Answer := .next (s.onDtu Dtu.lullExit)

end Sys2Proof.Machine
end

