-- ==== Sys2Proof/Machine/DtuTick.lean ====
section
/-!
DEFINITION. What the DTU does at a tick (R83, R88, R93, R98, R166 to R170), at a slot boundary (R29, R45, R145, R361),
at a clock edge, and at its resets (R72, R460 to R463).
-/
namespace Sys2Proof.Machine

/-! ### The tick. -/

/-- The clusters with a configuration word that changes at this tick (R83). -/
def Cells.changedClusters (c : Cells) (n : Nat) : List Nat :=
  (List.range n).filter (fun k => cluWord c.cfg k != cluWord c.force k ||
    (List.range 64).any (fun i => cellWord c.cfg (64 * k + i) != cellWord c.force (64 * k + i)))

/-- The cells as they enter the new data frame: cumul cells whose word is unchanged run on, every other starts from
empty (R80, R83). -/
def Cells.renew (c : Cells) : List (Nat × CellVal) :=
  c.values.filter (fun p =>
    let w := cellWord c.force p.1
    isCounting (cellMode w) && cellCumul w && w == cellWord c.cfg p.1)

/-- A cluster that spent part of the frame in a Lull state is incomplete in every domain (R98). -/
def Dtu.endedDoms (d : Dtu) : List Nat := if d.power.lullInFrame then d.domains else d.cells.domIncomplete

/-- The ended data frame starts to close, and the configuration as written takes force (R83, R88, R91, R93). A stopped
clock that shows the tick's marker has returned, and the frame that begins is its first whole one (R40). -/
def Dtu.startClosing (d : Dtu) (seen : BitVec 16) : Dtu :=
  let c := d.cells
  let doms := d.endedDoms
  let cl : Closing :=
    { frame := d.time.prevFrame, next := 0, begunAt := d.nowNs, cfg := c.force, cfgSeq := c.cfgSeq, slots := c.latched,
      cells := c.values, domIncomplete := doms, frost := c.frost, flagged := doms != [],
      looped := none }
  let seqs := (c.changedClusters d.build.nClusters).foldl (fun m k => aPut m k ((aGetD m k 0 + 1) % 16)) c.cfgSeq
  let values := c.renew
  let stopped := c.stopped.filter (fun x => decide (bits seen.toNat x x = 0))
  let still := c.held ++ stopped.filter (fun x => !c.held.contains x)
  let frost := if c.frozen then List.range d.build.nClusters else []
  let fronts := c.fronts.map (fun (p : ProbeSource × Front) =>
    (p.1, ({ older := { events := p.2.older.events + p.2.newer.events, samples := p.2.older.samples ++ p.2.newer.samples },
             newer := .empty } : Front)))
  let d := { d with cells := { c with
    force := c.cfg, cfgSeq := seqs, closing := some cl, values, fronts, frost, stopped, domIncomplete := still,
    markers := d.domains.filter (fun x => bits seen.toNat x x = 1) } }
  d.count .incompleteFrames (b2n (doms != []))

/-- Band sets that were complete in the frame that ended take effect (R107): a set derived from data frame F takes
effect at the tick after the one that follows it. -/
def Dtu.turnBands (d : Dtu) : Dtu :=
  let turn (b : BandSet) : BandSet := match b.waiting with
    | some (f, es) => if 2 ≤ d.time.begunFrom f d.frameNow then b.adopt f es else b
    | none => b
  { d with cells := { d.cells with bands := d.cells.bands.map (fun p => (p.1, turn p.2)) } }

/-- What a pattern generator feeds a cell in one data frame (R442): 1,024 strobe events and 1,024 samples, 0 to 1,023. -/
def loopPattern : FrontRec := { events := 1024, samples := (List.range 1024).map (BitVec.ofNat 16) }

/-- The cells of a cluster after its pattern. -/
def loopCells (cfg : RegMap) (c : Nat) (start : List (Nat × CellVal)) : List (Nat × CellVal) :=
  (List.range 64).foldl (fun vs i =>
    let n := 64 * c + i
    if cellMode (cellWord cfg n) = 0 then vs else aPut vs n ((aGetD start n .empty).addRec (cellWord cfg n) loopPattern)) start

/-- A LOOP_TEST of depth 1 or 2 at a tick (R442): the frame it waits for begins, or its frame has ended, every cell of its
cluster has counted the pattern, and the mask names the cells that do not hold what their mode gives. -/
def Dtu.loopTick (d : Dtu) (values : List (Nat × CellVal)) : Dtu :=
  match d.cmds.loop with
  | none => d
  | some l =>
    if 2 < l.depth then d
    else if l.started then
      let mask := ((List.range 64).map (fun i => if hasInjection d.injections 0x22 (64 * l.cluster + i) then 2 ^ i else 0)).sum
      let r : Result := { status := 0, detail := 0, result0 := b2n (l.depth == 2 && mask != 0), payload := twoWords mask,
                          trunc := false }
      let unsent := l.depth == 2 && !bit (cluWord d.cells.force l.cluster) 8
      let hold : Injection := { code := 0x21, n := 1, param := w32 l.cluster, payload := [] }
      let inj := if unsent then d.injections ++ [hold] else d.injections
      let closing := d.cells.closing.map (fun cl => { cl with cells := loopCells cl.cfg l.cluster cl.cells, looped := some l.cluster })
      let fed := loopCells d.cells.force l.cluster values
      let runs (n : Nat) : Bool := n / 64 == l.cluster && (aGet d.cells.values n).isSome
      let values := d.cells.values.map (fun (p : Nat × CellVal) => if runs p.1 then (p.1, aGetD fed p.1 .empty) else p)
      let cells := { d.cells with closing := closing, values := values, looped := none }
      ({ d with cells := cells, injections := inj, cmds := { d.cmds with loop := none } }).finish l.handle r
    else
      { d with cells := { d.cells with looped := some l.cluster }, cmds := { d.cmds with loop := some { l with started := true } } }

/-- The tick of a frame in which the core runs (R88, R93, R144, R150, R174, R409). -/
def Dtu.coreTick (d : Dtu) (seen : BitVec 16) : Dtu :=
  let ended := d.cells.values
  let d := { d with digests := { d.digests with winBefore := d.digests.win } }
  let d := (((d.startClosing seen).loopTick ended).turnSlots).turnBands
  let d := { d with digests := d.digests.turn }
  let d := d.auditTokens
  let d := if d.trace.markFrames then d.offer 0x10 0 (packNat [(d.frameNow, 63, 0)]) else d
  let d := (d.healthTick d.time.prevFrame).faultTick.queueEcho
  { d with power := { d.power with lullInFrame := false } }

/-- A frame begins (R29, R98): with the core in a Lull state or in reset nothing closes, what a closing frame had left is
absent, and the cells clear as a Lull state is left. The health counts of the frame that ended go with it (R144). -/
def Dtu.beginFrame (d : Dtu) (seen : BitVec 16) : Dtu :=
  let d := if d.runs then Dtu.closeRest (d.build.nClusters + 1) d else d
  let d := { d with time := d.time.tick d.slewMax d.build.timePeriod }
  if d.runs then
    let d := d.coreTick seen
    { d with hailDue := some d.frameNow }
  else
    { d with power := { d.power with clearAtExit := decide (d.power.lull ≠ 0), lullInFrame := decide (d.power.lull ≠ 0) }
             cells := { d.cells with closing := none }
             health := { d.health with samples := [], acksV := 0, acksC := 0, naks := 0, locals := 0 }, hailDue := none }

/-- DTU_TICK: `seen` names the domains in which the tick marker takes effect with it (R49). An armed step that is due
comes first; one that goes back issues no tick (R168, R169). -/
def Dtu.tick (d : Dtu) (seen : BitVec 16) : Dtu :=
  if !d.time.ticking ∨ d.power.por then d
  else match d.time.stepDue with
    | none => d.beginFrame seen
    | some a =>
      let d := d.applyStep a
      if stepWhole a.s < 0 then d else d.beginFrame seen

def execDtuTick (seen : BitVec 16) (s : State) : Answer := .next (s.onDtu (·.tick seen))

/-! ### Clock edges. -/

/-- A soft reset and a link reset that were under way have ended (R72). -/
def Dtu.resetsEnd (d : Dtu) : Dtu :=
  { d with power := { d.power with soft := false }, link := { d.link with resetting := false } }

/-- A Frost's stop marker takes effect in the domains that have not seen it (R49, R427): what they sampled before it is in
the cells, and the snapshot holds the cells as they then stand. -/
def Dtu.stopSeen (d : Dtu) : Dtu :=
  if d.frost.unseen = [] then d
  else
    let now := d.frost.unseen.map (fun x => (x, d.nowNs))
    let snapshot := d.frost.snapshot.map (fun x => { x with cells := d.snapCells, domains := x.domains ++ now })
    { d with frost := { d.frost with snapshot, unseen := [] } }

/-- One edge of the DTU's clocks with nothing commanded: the FTC advances, trigger pulses run down, a Host Port acknowledge
falls, markers take effect in the running domains, the core merges its fronts, a beat credit goes back, and a trace packet
under way crosses (R41, R47, R49, R54, R115, R154, R177). -/
def Dtu.edge (d : Dtu) : Dtu :=
  if d.power.por then d
  else
    let d := d.resetsEnd
    let d := { d with time := d.time.edge d.slewMax d.build.timePeriod, trigHigh := d.trigHigh.map (· - 1)
                      host := { d.host with ack := false, err := false, rdata := 0 } }
    if d.runs then
      let seen := d.domains.filter (fun x => !d.cells.stopped.contains x && !d.cells.held.contains x)
      let d := { d with cells := { d.cells with markers := addDoms d.cells.markers seen } }
      let d := if d.portOn then d.returnCredit else d
      d.mergeFronts.stopSeen.blockCrossed.tryLull
    else d.tryLull

/-! ### Resets. -/

/-- What a soft reset clears (R462): configuration, counters, queues, traces; time, triggers, retention, tag, seal, the
integration registers and the Frost snapshot stay. The DTU leaves a Frost (R436) and compat5 takes force (R45). -/
def Dtu.softReset (d : Dtu) : Dtu :=
  let i := Dtu.initial d.build
  { i with
    host := { i.host with
      compat5 := d.host.compat5, compat5Active := d.host.compat5, timeSrc := d.host.timeSrc,
      timeSrcNext := d.host.timeSrcNext, latRx := d.host.latRx, latRxNext := d.host.latRxNext, latTx := d.host.latTx,
      latTxNext := d.host.latTxNext, tag := d.host.tag, sealed := d.host.sealed,
      refusedWrites := d.host.refusedWrites, refused := d.host.refused }
    cells := { i.cells with retention := d.cells.retention, held := d.cells.held, domIncomplete := d.cells.held }
    trace := d.trace.clear false
    time := d.keptTime, timeCtl := d.timeCtl, timeServo := d.timeServo, port := d.port, trigs := d.trigs
    trigHigh := d.trigHigh
    frost := { d.frost with state := 0, thawAt := none, windowEnd := none }
    link := { i.link with rst := d.link.rst, resetting := true, helloWait := d.link.helloWait }
    faults := { i.faults with rst := d.faults.rst }
    power := { i.power with rst := d.power.rst, soft := true, pgCore := d.power.pgCore, pgRet := d.power.pgRet,
                            lullReq := d.power.lullReq, lastReset := 2 }
    factory := d.factory, injected := d.injected }

/-- A pin reset (R45, R76, R78, R460, R462): everything outside the always-on domain, and the seal; it lasts until rst_n_i
rises. -/
def Dtu.pinReset (d : Dtu) : Dtu :=
  let i := Dtu.initial d.build
  { i with
    host := { i.host with compat5Active := d.host.compat5, tag := d.host.tag, refusedWrites := d.host.refusedWrites,
                          refused := d.host.refused }
    cells := { i.cells with held := d.cells.held, domIncomplete := d.cells.held }
    trace := d.trace.clear false
    time := d.keptTime, timeCtl := d.timeCtl, timeServo := d.timeServo, port := d.port, trigs := d.trigs, trigHigh := d.trigHigh
    link := { i.link with rst := d.link.rst }
    faults := { i.faults with rst := d.faults.rst }
    power := { i.power with rst := true, por := d.power.por, pgCore := d.power.pgCore, pgRet := d.power.pgRet,
                            lullReq := d.power.lullReq, lastReset := 1 } }

/-- PIN_RESET: rst_n_i falls, or where it was low rises again (log entry 222). -/
def Dtu.rstEdge (d : Dtu) : Dtu := if d.power.rst then { d with power := { d.power with rst := false } } else d.pinReset

def execPinReset (s : State) : Answer := .next (s.onDtu Dtu.rstEdge)

/-- A host power-on reset (R66, R462): the whole DTU, until por_n_i rises. The levels of its other inputs are as they were. -/
def Dtu.powerOnReset (d : Dtu) : Dtu :=
  let i := Dtu.initial d.build
  { i with
    cells := { i.cells with held := d.cells.held, domIncomplete := d.cells.held }
    link := { i.link with rst := d.link.rst }
    faults := { i.faults with rst := d.faults.rst }
    power := { i.power with por := true, rst := d.power.rst, pgCore := d.power.pgCore, pgRet := d.power.pgRet,
                            lullReq := d.power.lullReq } }

/-- HOST_POWER_ON_RESET: por_n_i falls, or where it was low rises again. -/
def Dtu.porEdge (d : Dtu) : Dtu :=
  if d.power.por then { d with power := { d.power with por := false } } else d.powerOnReset

def execHostPowerOnReset (s : State) : Answer := .next (s.onDtu Dtu.porEdge)

/-- UL_PATH_RESET (R72): ul_rst_n_i falls, the Uplink Port resets and stays in reset; where it was low it rises. -/
def Dtu.pathEdge (d : Dtu) : Dtu :=
  if d.link.rst then { d with link := { d.link with rst := false } }
  else
    let d := d.linkReset none
    { d with link := { d.link with rst := true } }

def execUlPathReset (s : State) : Answer := .next (s.onDtu Dtu.pathEdge)

/-! ### The slot boundary. -/

/-- UL_RATE in force from the next slot boundary: an enabled limit of the written rate and burst, its virtual time at
that instant (R360, R361). -/
def Dtu.adoptRate (d : Dtu) : Dtu :=
  let w := d.link.ulRate
  let sh := d.link.shaper
  if fld w 23 16 = sh.rate ∧ 1024 * fld w 15 0 = sh.burst then d
  else { d with link := { d.link with shaper :=
    { enabled := true, rate := fld w 23 16, burst := 1024 * fld w 15 0, v := d.now * fld w 23 16 } } }

/-- A LOOP_TEST of depth 3 runs from the first slot boundary of slots 8 to 55 (R442): the port's own 64 frames come back
as they were sent. -/
def Dtu.loopUplink (d : Dtu) : Dtu :=
  match d.cmds.loop with
  | none => d
  | some l =>
    if l.depth = 3 ∧ 8 ≤ d.time.slot ∧ d.time.slot ≤ 55 then
      ({ d with cmds := { d.cmds with loop := none } }).finish l.handle
        { status := 0, detail := 0, result0 := 0, payload := [64, 0], trunc := false }
    else d

/-- SLOT_BOUNDARY (R29, R45, R54, R145, R460): the FTC comes to the next boundary, unless a tick is due before it; the
changes that wait for one take force. -/
def Dtu.slotBoundary (d : Dtu) : Dtu :=
  let next := d.time.nextSlot
  let d := if d.mayReach next then d.reach next else d
  let d := d.slotEnds.resetsEnd
  let d := { d with
    host := { d.host with timeSrc := d.host.timeSrcNext, latRx := d.host.latRxNext, latTx := d.host.latTxNext }
    link := { d.link with slotsUp := if d.portOn then d.link.slotsUp + 1 else 0 } }
  let d := d.adoptRate
  let d := if d.link.helloWait then ({ d with link := { d.link with helloWait := false } }).helloSend else d
  let d := if d.runs then { d with health := { d.health with throttle := d.health.pendingThrottle } } else d
  let d := d.loopUplink
  if d.power.softDue then d.softReset.tryLull else d.tryLull

def execSlotBoundary (s : State) : Answer := .next (s.onDtu (fun d => if d.power.por then d else d.slotBoundary))

end Sys2Proof.Machine
end

