-- ==== Sys2Proof/Machine/DtuRegs.lean ====
section
/-!
DEFINITION. The DTU's two register spaces (R473 to R483): the Host Port space as read and as written by the host
(R41 to R46, R76, R114), the command space as read and written by commands (R382), and the meanings of their rows.
-/
namespace Sys2Proof.Machine

/-! ### The Host Port space. -/

/-- DTU_HEALTH_NOW (R143). -/
def Dtu.healthNow (d : Dtu) : W := pack [(d.health.temp.toNat, 31, 16), (d.health.vcore.toNat, 15, 0)]

/-- Eight domains to a word (R37). -/
def domWord (dom : Nat → Nat) (limit i : Nat) : W :=
  pack ((List.range 8).map (fun k => (if 8 * i + k < limit then dom (8 * i + k) else 0, 4 * k + 3, 4 * k)))

/-- DTU_OBS_STATUS and DTU_TAG_STATUS (R45). -/
def Dtu.obsStatus (d : Dtu) : W := pack [(d.host.clkLost.toNat, 31, 16), (2 ^ d.build.nObs - 1, 15, 0)]
def Dtu.tagStatus (d : Dtu) : W := pack [(b2n d.host.sealed, 31, 31), (d.host.refusedWrites, 15, 0)]

/-- The word at a byte address of the Host Port space; none where no register lies (R478). A change that waits for a
boundary reads as the value in force until then (R483). -/
def Dtu.hostRead (d : Dtu) (a : Nat) : Option W :=
  if a = 0x00 then some dtuIdent
  else if a = 0x04 then some d.vercap
  else if a = 0x10 then
    some (pack [(b2n d.host.compat5Active, 9, 9), (b2n d.host.compat5, 8, 8), (d.build.nObs - 1, 7, 4)])
  else if a = 0x14 then some (pack [(b2n (d.time.state == .locked), 2, 2), (d.host.timeSrc, 1, 0)])
  else if a = 0x18 then some d.host.latRx
  else if a = 0x1C then some d.host.latTx
  else if a = 0x20 then some 0
  else if a = 0x24 then some d.tagStatus
  else if a = 0x30 then some d.host.irqStatus
  else if a = 0x34 then some d.host.irqEnable
  else if a = 0x40 then some d.obsStatus
  else if a = 0x44 then some d.portStatus
  else if a = 0x50 then some (pack [(d.trace.hostAux.toNat, 7, 0)])
  else if a = 0x54 then some d.trace.hostHi
  else if a = 0x58 then some 0
  else if a = 0x5C then some (pack [(d.trace.hostRefused, 15, 0)])
  else if a = 0x60 then some d.healthNow
  else if 0x100 ≤ a ∧ a < 0x200 then some (Memory.readWord d.host.tag (a - 0x100))
  else if 0x200 ≤ a ∧ a < 0xA00 then some (domWord d.build.strobeDomain (64 * d.build.nClusters) ((a - 0x200) / 4))
  else if 0xA00 ≤ a ∧ a < 0xA20 then some (domWord d.build.tapDomain 64 ((a - 0xA00) / 4))
  else none

/-- The registers in the always-on domain, which answer in every Lull state (R43, R44, R478). -/
def hostAlwaysOn (a : Nat) : Bool :=
  decide (a = 0x00 ∨ a = 0x04 ∨ a = 0x20 ∨ a = 0x24 ∨ a = 0x44 ∨ (0x100 ≤ a ∧ a < 0x200))

/-- DTU_TRC_HOST_LO is written: one HOST record is offered, or refused (R114). DESIGN CHOICE (log entry 184): while a Frost
stops capture the trace path is off for this rule, and the record is refused. -/
def Dtu.hostRecord (d : Dtu) (lo : W) : Dtu :=
  let t := { d.trace with hostLo := lo }
  let beyond := b2n t.host.isSome
  let off := !(t.capturing && !t.frozen)
  let n := if off then 1 else beyond
  let o : TraceOffer := { rtype := 0x03, aux := t.hostAux.toNat, payload := 2 ^ 32 * t.hostHi.toNat + lo.toNat, ns := none }
  { d with trace := { t with
    hostRefused := min 0xFFFF (t.hostRefused + n), host := if off then t.host else some o } }

/-- A word of the tag area is written (R76, R78): the structured words of a sealed tag ignore it and count; a structured
word rewritten, which only a pin reset or a power-on reset makes possible, ends a refusal. -/
def Dtu.tagWrite (d : Dtu) (i : Nat) (w : W) : Dtu :=
  if i < 8 ∧ d.host.sealed then
    { d with host := { d.host with refusedWrites := min 0xFFFF (d.host.refusedWrites + 1) } }
  else { d with host := { d.host with tag := d.host.tag.writeWord (4 * i) w, refused := d.host.refused && decide (8 ≤ i) } }

/-- A Host Port write to a register that answers (R44, R45, R76, R114): the second component is hp_err_o. -/
def Dtu.hostStore (d : Dtu) (a : Nat) (w : W) : Dtu × Bool :=
  if a = 0x10 then ({ d with host := { d.host with compat5 := bit w 8 } }, false)
  else if a = 0x14 then
    if 2 ≤ fld w 1 0 then (d, true) else ({ d with host := { d.host with timeSrcNext := fld w 1 0 } }, false)
  else if a = 0x18 then ({ d with host := { d.host with latRxNext := w } }, false)
  else if a = 0x1C then ({ d with host := { d.host with latTxNext := w } }, false)
  else if a = 0x20 then
    let first := bit w 0 && !d.host.sealed && decide (d.link.linkState = 1)
    ({ d with host := { d.host with sealed := d.host.sealed || bit w 0 }
              link := { d.link with helloWait := d.link.helloWait || first } }, false)
  else if a = 0x30 then ({ d with host := { d.host with irqStatus := d.host.irqStatus &&& ~~~w } }, false)
  else if a = 0x34 then ({ d with host := { d.host with irqEnable := w &&& 0x7FF } }, false)
  else if a = 0x40 then
    ({ d with host := { d.host with clkLost := d.host.clkLost &&& ~~~(BitVec.ofNat 16 (fld w 31 16)) } }, false)
  else if a = 0x50 then ({ d with trace := { d.trace with hostAux := BitVec.ofNat 8 (fld w 7 0) } }, false)
  else if a = 0x54 then ({ d with trace := { d.trace with hostHi := w } }, false)
  else if a = 0x58 then (d.hostRecord w, false)
  else if 0x100 ≤ a ∧ a < 0x200 then (d.tagWrite ((a - 0x100) / 4) w, false)
  else (d, false)

/-- A Host Port register answers: it exists, and it is always on or the core runs (R44). -/
def Dtu.hostAnswers (d : Dtu) (a : Nat) : Bool := (d.hostRead a).isSome && (hostAlwaysOn a || d.runs)

/-- One Host Port access, completed (R41 to R44): the write of a word, or a read. hp_addr_i carries the byte address bits
[15:2]; hp_ack_o, hp_err_o and hp_rdata_o are those of the ack cycle. While por_n_i is low there is no ack. -/
def Dtu.hostAccess (d : Dtu) (addr : Nat) (data : Option W) : Dtu :=
  if d.power.por then d
  else
    let a := addr / 4 * 4
    let answers := d.hostAnswers a
    let p := match data with
      | some w => if answers then d.hostStore a w else (d, true)
      | none => (d, !answers)
    let rdata := if data.isSome || p.2 then 0 else (d.hostRead a).getD 0
    { p.1 with host := { p.1.host with ack := true, err := p.2, rdata } }

/-- One Host Port write. -/
def Dtu.hostWrite (d : Dtu) (addr : Nat) (w : W) : Dtu := d.hostAccess addr (some w)

def execHostPortWrite (addr : BitVec 16) (data : Option W) (s : State) : Answer :=
  .next (s.onDtu (·.hostAccess addr.toNat data))

/-- TAG_AREA_WRITE (R76). -/
def execTagAreaWrite (word : Fin 64) (data : W) (s : State) : Answer :=
  .next (s.onDtu (·.hostWrite (0x100 + 4 * word.val) data))

/-- DTU_TAG_SEAL (R45, R76). -/
def execDtuTagSeal (data : W) (s : State) : Answer := .next (s.onDtu (·.hostWrite 0x20 data))

/-- DTU_TRC_HOST_LO (R114). -/
def execDtuTrcHostLo (data : W) (s : State) : Answer := .next (s.onDtu (·.hostWrite 0x58 data))

/-- IRQ_STATUS_CLEAR (R45): DTU_IRQ_STATUS, or DTU_OBS_STATUS when `obs` says so. -/
def execIrqStatusClear (obs : Bool) (data : W) (s : State) : Answer :=
  .next (s.onDtu (·.hostWrite (if obs then 0x40 else 0x30) data))

/-- TIME_SRC_SELECT (R44, R45). -/
def execTimeSrcSelect (data : W) (s : State) : Answer := .next (s.onDtu (·.hostWrite 0x14 data))

/-- COMPAT5_SELECT (R45). -/
def execCompat5Select (data : W) (s : State) : Answer := .next (s.onDtu (·.hostWrite 0x10 data))

/-- UL_LAT_WRITE (R45, R60). -/
def execUlLatWrite (tx : Bool) (data : W) (s : State) : Answer :=
  .next (s.onDtu (·.hostWrite (if tx then 0x1C else 0x18) data))

/-! ### The command space: spans and reading (R475, R479 to R481). -/

/-- An address of command space that lies in a span of R479. -/
def cmdMapped (a : Nat) : Bool :=
  let inn (lo hi : Nat) : Bool := decide (lo ≤ a ∧ a < hi)
  inn 0x10000 0x14200 || inn 0x18000 0x20024
    || inn 0x20040 0x20050 || inn 0x20100 0x20200 || inn 0x20400 0x20800 || inn 0x20800 0x2080C || inn 0x20900 0x2090C
    || inn 0x20910 0x2091C || inn 0x20940 0x209C0 || inn 0x20A00 0x20A0C || inn 0x20B00 0x20B08
    || inn 0x20C00 0x20C04 || inn 0x20D00 0x20D04 || inn 0x21000 0x21004 || inn 0x21040 0x210C0
    || inn 0x22000 0x26000

/-- A word of a band entry (R105). -/
def BandEntry.word (e : BandEntry) (i : Nat) : W :=
  if i = 0 then e.w0 else if i = 1 then e.low else if i = 2 then e.high else e.w3

/-- DTU_PWR_STATUS. -/
def Dtu.pwrStatus (d : Dtu) : W :=
  pack [(d.power.lastReset, 31, 28), (d.power.lullLast, 27, 26), (d.power.lullEntries, 15, 0)]

/-- DTU_FROST_STATUS. -/
def Dtu.frostStatus (d : Dtu) : W :=
  let f := d.frost
  pack [(f.state, 31, 30), (b2n f.smear, 29, 29), (b2n f.lateArm, 28, 28), (b2n f.cutComplete, 27, 27),
    (b2n d.factory, 26, 26), (d.injected, 15, 0)]

/-- DTU_TRC_STATUS to DTU_TRC_TX (R117). DEDUCED (log entry 183): DTU_TRC_RAW and DTU_TRC_BLK show the free tokens of R115
from reset on, 1,024 and 3,039, though the table gives them reset 0. -/
def Dtu.traceStatus (d : Dtu) (i : Nat) : W :=
  let t := d.trace
  match i with
  | 1 => pack [(b2n t.enabled, 31, 31), (b2n t.fullStop, 30, 30), (b2n t.image.valid, 29, 29), (b2n t.refusing, 28, 28),
      (t.stream, 23, 16)]
  | 2 => pack [(t.seq, 23, 0)]
  | 3 => w32 t.consumed
  | 4 => w32 t.produced
  | 5 => pack [(t.rawHeld, 27, 16), (t.rawFree, 11, 0)]
  | 6 => pack [(t.queuedTokens, 27, 16), (t.blockFree, 11, 0)]
  | _ => pack [(t.sentTokens, 11, 0)]

/-- DTU_CTX[k] word i (R87). -/
def Dtu.ctxWord (d : Dtu) (k i : Nat) : W :=
  let c := d.cells.slots.getD k .initial
  match i with
  | 0 => (d.fixSlot k c.force).w0
  | 1 => (d.fixSlot k c.force).w1
  | 2 => c.front
  | 4 => (d.fixSlot k c.pending).w0
  | 5 => (d.fixSlot k c.pending).w1
  | _ => 0

/-- The word at a mapped byte address of command space. -/
def Dtu.cmdRead (d : Dtu) (a : Nat) : W :=
  if a < 0x14000 then
    let n := (a - 0x10000) / 4
    if n / 64 < d.build.nClusters then cellWord d.cells.cfg n else 0
  else if a < 0x14100 then
    let c := (a - 0x14000) / 4
    if c < d.build.nClusters then setFld (cluWord d.cells.cfg c) 12 9 (aGetD d.cells.cfgSeq c 0) else 0
  else if a < 0x14200 then d.ctxWord ((a - 0x14100) / 32) ((a - 0x14100) / 4 % 8)
  else if a < 0x20000 then
    let b := aGetD d.cells.bands ((a - 0x18000) / 4096) .initial
    (aGetD b.entries ((a - 0x18000) % 4096 / 16) { w0 := 0, low := 0, high := 0, w3 := 0 }).word (a / 4 % 4)
  else if 0x20004 ≤ a ∧ a < 0x20020 then d.traceStatus ((a - 0x20000) / 4)
  else if a < 0x20800 then regGet trcReset d.trace.cfg a
  else if a < 0x20900 then regGet healthReset d.health.cfg a
  else if a = 0x20900 then d.timeCtl
  else if a = 0x20904 then d.timeServo
  else if a = 0x20908 then d.time.stateWord 0
  else if a < 0x20940 then d.time.stepWord ((a - 0x20910) / 4)
  else if a < 0x20A00 then (d.trigs.getD ((a - 0x20940) / 32) (.initial 0)).word (a / 4 % 8)
  else if a = 0x20A00 then pack [(d.link.shaper.rate, 23, 16), (d.link.shaper.burst / 1024, 15, 0)]
  else if a = 0x20A04 then pack [(d.link.fabricId.toNat, 31, 16), (d.link.ethertype.toNat, 15, 0)]
  else if a = 0x20A08 then pack [(d.link.aggId.toNat, 11, 0)]
  else if a = 0x20B00 then d.frostStatus
  else if a = 0x20B04 then d.frost.frostId
  else if a = 0x20C00 then d.faultQ
  else if a = 0x20D00 then d.pwrStatus
  else if a = 0x21000 then regGet digReset d.digests.cfg a
  else if a < 0x22000 then word (aGetD d.digests.win ((a - 0x21040) / 16) []) (a / 4 % 4)
  else word (aGetD d.digests.cache ((a - 0x22000) / 16) []) (a / 4 % 4)

/-! ### Writing the command space (R8, R9, R117, R132, R177, R181, R361, R382). -/

/-- TRACE_BUSY (R125). -/
def stTraceBusy : Nat := 0x0051

/-- The status a DTU_TRC_CFG word earns (R117, R125). -/
def Dtu.trcCfgStatus (d : Dtu) (w : W) : Nat :=
  let t := d.trace
  let old := regGet trcReset t.cfg 0x20000
  if fld w 26 24 ≠ 0 then stReserved
  else if fld w 23 16 = 0 ∨ 64 < fld w 23 16 ∨ fld w 7 0 = 0 then stBadParam
  else if bit old 31 && bit w 28 != bit old 28 then stBadParam
  else if bit old 31 && !bit w 31 && t.saving then stTraceBusy
  else stOk

/-- The status a DTU_TRC_SIZE word earns (R117). -/
def Dtu.trcSizeStatus (d : Dtu) (w : W) : Nat :=
  let t := d.trace
  let change := fld w 11 0 ≠ fld (regGet trcReset t.cfg 0x20020) 11 0
  let data := t.raw != [] || t.openRecs != [] || t.blocks != [] || t.sending.isSome
  if fld w 15 12 ≠ 0 then stReserved
  else if fld w 31 16 < 1024 ∨ 9152 < fld w 31 16 ∨ fld w 11 0 < 256 ∨ 3072 < fld w 11 0 then stBadParam
  else if change ∧ (t.enabled ∨ data) then stBadParam
  else stOk

/-- The status a DTU_TRC_CLASS, _TAP or _CLU word earns (R112, R116). -/
def Dtu.trcOtherStatus (d : Dtu) (a : Nat) (w : W) : Nat :=
  if a < 0x20050 then
    if a = 0x20040 then stOk
    else if fld w 31 12 ≠ 0 then stReserved
    else if fld (regGet trcReset d.trace.cfg 0x20020) 11 0 ≤ fld w 11 0 then stBadParam else stOk
  else if a < 0x20400 ∨ a / 4 % 4 = 0 then (if fld w 30 28 ≠ 0 ∨ fld w 23 0 ≠ 0 then stReserved else stOk)
  else if a / 4 % 4 = 3 then (if w ≠ 0 then stReserved else stOk)
  else stOk

/-- The trace registers are written: enable acts at once, floors and taps too, the rest at a block boundary (R117,
R122). -/
def Dtu.trcWrite (d : Dtu) (a : Nat) (w : W) : Dtu :=
  if a = 0x20000 then
    let was := d.trace.enabled
    let t := d.trace
    let d := { d with trace := { t with cfg := regSet trcReset t.cfg a (setFld w 31 31 (b2n was)) }.adopt }
    if bit w 31 && !was then d.traceOn else if !bit w 31 && was then d.traceOff else d
  else if a = 0x20040 then d
  else { d with trace := { d.trace with cfg := regSet trcReset d.trace.cfg a w }.adopt }

/-- A digest channel may be enabled: its 16 taps lie in one domain (R132). -/
def Build.oneDomain (b : Build) (c : Nat) : Bool :=
  (List.range 16).all (fun m => b.tapDomain (16 * c + m) == b.tapDomain (16 * c))

/-- The status a digest or health configuration word earns. -/
def Dtu.digStatus (d : Dtu) (w : W) : Nat :=
  if fld w 27 16 ≠ 0 ∨ fld w 7 0 ≠ 0 then stReserved
  else if fld w 15 8 = 0 then stBadParam
  else if (List.range 4).any (fun c => bit w (28 + c) && !d.build.oneDomain c) then stBadParam
  else stOk

def healthStatus (a : Nat) (w : W) : Nat :=
  if a = 0x20800 then (if fld w 7 3 ≠ 0 then stReserved else if fld w 15 8 = 0 then stBadParam else stOk)
  else if a = 0x20804 then (if fld w 15 0 ≠ 0 then stReserved else stOk)
  else marginCfgStatus w

/-- The status TIME_CTL and TIME_SERVO words earn (R181), on either unit. -/
def timeCtlStatus (w : W) : Nat :=
  if fld w 31 30 ≠ 0 then stReserved else if fld w 29 0 < 64 ∨ 1000000000 < fld w 29 0 then stBadParam else stOk
def timeServoStatus (w : W) : Nat :=
  if fld w 31 10 ≠ 0 then stReserved else if fld w 9 0 = 0 ∨ 1000 < fld w 9 0 then stBadParam else stOk

/-- The status a DTU_UL_RATE word earns (R361). -/
def ulRateStatus (w : W) : Nat :=
  if fld w 31 24 ≠ 0 then stReserved
  else if fld w 23 16 < 10 ∨ 250 < fld w 23 16 ∨ fld w 15 0 < 16 ∨ 1024 < fld w 15 0 then stBadParam
  else stOk

/-- A window or cache word written to its entry, in force from the next tick (R141, R142). -/
def Dtu.digEntryWrite (d : Dtu) (a : Nat) (w : W) : Dtu × Nat :=
  let g := d.digests
  let i := a / 4 % 4
  if a < 0x22000 then
    let k := (a - 0x21040) / 16
    let old := (aGet g.winWaiting k).getD (aGetD g.win k [0, 0, 0, 0])
    if (i = 2 ∧ fld w 30 16 ≠ 0) ∨ (i = 3 ∧ w ≠ 0) then (d, stReserved)
    else ({ d with digests := { g with winWaiting := aPut g.winWaiting k (old.set i w) } }, stOk)
  else
    let e := (a - 0x22000) / 16
    let old := (aGet g.cacheWaiting e).getD (aGetD g.cache e [0, 0, 0, 0])
    if (i = 2 ∧ fld w 25 22 ≠ 0) ∨ (i = 3 ∧ fld w 15 0 ≠ 0) then (d, stReserved)
    else ({ d with digests := { g with cacheWaiting := aPut g.cacheWaiting e (old.set i w) } }, stOk)

/-- A word of DTU_CTX written alone (R87, R89): the words in force only before admission. -/
def Dtu.ctxWordWrite (d : Dtu) (a : Nat) (w : W) : Dtu × Nat :=
  let k := (a - 0x14100) / 32
  let i := (a - 0x14100) / 4 % 8
  let c := d.cells.slots.getD k .initial
  let put (x : CtxSlot) : Dtu := { d with cells := { d.cells with slots := d.cells.slots.set k x } }
  if (i = 0 ∨ i = 4) ∧ fld w 30 24 ≠ 0 then (d, stReserved)
  else if (i = 1 ∨ i = 5) ∧ fld w 23 20 ≠ 0 then (d, stReserved)
  else if i ≤ 1 then
    if d.link.admitted then (d, stBadParam)
    else (put { c with force := d.fixSlot k (if i = 0 then { c.force with w0 := w } else { c.force with w1 := w }) }, stOk)
  else if i = 2 then
    if extendFrame d.frameNow w.toNat ≤ d.frameNow then (d, stBadParam) else (put { c with front := w }, stOk)
  else if i = 4 ∨ i = 5 then
    (put { c with pending := d.fixSlot k (if i = 4 then { c.pending with w0 := w } else { c.pending with w1 := w }) }, stOk)
  else if w ≠ 0 then (d, stReserved)
  else (d, stOk)

/-- One word of command space written by a command: the DTU after it and the status it earns; a word that earns another
status than OK changes nothing (R382). RO words ignore what is written. -/
def Dtu.cmdWrite (d : Dtu) (a : Nat) (w : W) : Dtu × Nat :=
  let keep (d' : Dtu) (st : Nat) : Dtu × Nat := if st = stOk then (d', stOk) else (d, st)
  let earned (d' : Dtu) : Dtu × Nat := (d', d'.cmds.status)
  if a < 0x14000 then earned (d.cellCfgWrite ((a - 0x10000) / 4) w)
  else if a < 0x14100 then
    let c := (a - 0x14000) / 4
    keep (d.writeClu c w) (if d.build.nClusters ≤ c then stBadParam else if fld w 31 13 ≠ 0 then stReserved else stOk)
  else if a < 0x14200 then d.ctxWordWrite a w
  else if a < 0x20000 then (d, stOk)
  else if a = 0x20000 then keep (d.trcWrite a w) (d.trcCfgStatus w)
  else if a < 0x20020 then (d, stOk)
  else if a = 0x20020 then keep (d.trcWrite a w) (d.trcSizeStatus w)
  else if a < 0x20800 then keep (d.trcWrite a w) (d.trcOtherStatus a w)
  else if a < 0x20900 then
    keep { d with health := { d.health with cfg := regSet healthReset d.health.cfg a w } } (healthStatus a w)
  else if a = 0x20900 then keep { d with timeCtl := w } (timeCtlStatus w)
  else if a = 0x20904 then keep { d with timeServo := w } (timeServoStatus w)
  else if a < 0x20940 then (d, stOk)
  else if a < 0x20A00 then
    let k := a / 4 % 8
    if k < 5 then earned (d.trigWrite ((a - 0x20940) / 32) k w)
    else if k = 7 ∧ w ≠ 0 then (d, stReserved) else (d, stOk)
  else if a = 0x20A00 then keep { d with link := { d.link with ulRate := w } } (ulRateStatus w)
  else if a = 0x21000 then
    keep { d with digests := { d.digests with cfg := regSet digReset d.digests.cfg a w } } (d.digStatus w)
  else if a < 0x21000 then (d, stOk)
  else d.digEntryWrite a w

/-- The words of a REG_WRITE taken as if written in one cycle: the last word first, so that a trigger or the trace path
is armed from the words as they then stand (R178, R382). The second component is the status and index of the first word
that would be rejected. -/
def Dtu.cmdWrites (d : Dtu) : List (Nat × Nat × W) → Dtu × Option (Nat × Nat)
  | [] => (d, none)
  | (i, a, w) :: r =>
    let p := Dtu.cmdWrites d r
    let q := p.1.cmdWrite a w
    if q.2 = stOk then (q.1, p.2) else (p.1, some (q.2, i))

/-- TRACE_ENABLE (R122, R125): enable alone. -/
def Dtu.traceEnable (d : Dtu) (on : Bool) : Dtu :=
  let w := setFld (regGet trcReset d.trace.cfg 0x20000) 31 31 (b2n on)
  let p := d.cmdWrite 0x20000 w
  p.1.earn p.2

def execTraceEnable (on : Bool) (s : State) : Answer := .next (s.onDtu (·.traceEnable on))

/-- UL_RATE_WRITE (R361). -/
def Dtu.ulRateWrite (d : Dtu) (w : W) : Dtu :=
  let p := d.cmdWrite 0x20A00 w
  p.1.earn p.2

def execUlRateWrite (data : W) (s : State) : Answer := .next (s.onDtu (·.ulRateWrite data))

end Sys2Proof.Machine
end

