-- ==== Sys2Proof/Machine/DtuFrost.lean ====
section
/-!
DEFINITION. What reaches a DTU of a Frost (R424 to R441), its Hail (R408, R409), and its parameter packets (R233 to
R235).
-/
namespace Sys2Proof.Machine

/-! ### Frost messages (R437). -/

/-- The 32 bytes of a Frost message. -/
def frostBody (frostId : W) (full : Bool) (acked instant sections offset : Nat) : List W :=
  [frostId, pack [(b2n full, 31, 30), (acked, 23, 16)]] ++ twoWords instant ++ [w32 sections, w32 offset, 0, 0]

/-- A DTU's ACK of a Frost message (R426, R433, R435). -/
def Dtu.frostAck (d : Dtu) (frostId : W) (full : Bool) (msg : Nat) : Dtu :=
  d.sendNow (d.toAgg clsFrost 0x05 (frostBody frostId full msg 0 0 0) 32)

/-- A sound Frost message of 32 bytes: its mode and reserved fields hold listed values (R437). -/
def frostSound (f : Frame) : Bool :=
  let b := f.body
  decide (32 ≤ f.plen.toNat ∧ wf b 1 31 30 ≤ 1 ∧ wf b 1 29 24 = 0 ∧ wf b 1 15 0 = 0 ∧ word b 6 = 0 ∧ word b 7 = 0)

/-- A Frost armed afresh: the snapshot and the frames of the last one go (R435). -/
def Dtu.armed (d : Dtu) (frostId : W) (full : Bool) (t : Nat) : Dtu :=
  { d with frost := { DtuFrost.initial with state := 1, full, frostId, t, seen := d.frost.seen } }

/-- ARM (R426): armed for T, or stopped at once with late_arm when T has passed; acknowledged. While another Frost is
armed or in force it has no effect (R424; log entry 212). -/
def Dtu.arm (d : Dtu) (f : Frame) : Dtu :=
  let p := d.receive f
  if !(p.2 && frostSound f) then p.1
  else
    let d := p.1
    let id := word f.body 0
    let full := decide (wf f.body 1 31 30 = 1)
    let t := dword f.body 2
    if d.frost.state = 0 then
      let d := d.armed id full t
      let d := if t ≤ d.nowNs then
          ({ d with frost := { d.frost with lateArm := true } }).frostStop false
        else d
      d.frostAck id full 0x01
    else if d.frost.frostId = id then d.frostAck id full 0x01
    else d

def execArm (frame : Frame) (s : State) : Answer := .next (s.onDtu (·.arm frame))

/-- CANCEL (R426): an armed Frost of that frost_id is disarmed. -/
def Dtu.cancel (d : Dtu) (f : Frame) : Dtu :=
  let p := d.receive f
  if !(p.2 && frostSound f) then p.1
  else
    let d := p.1
    let id := word f.body 0
    if d.frost.frostId = id ∧ d.frost.state ≤ 1 then
      ({ d with frost := { d.frost with state := 0 } }).frostAck id d.frost.full 0x02
    else d

def execCancel (frame : Frame) (s : State) : Answer := .next (s.onDtu (·.cancel frame))

/-- NOW at a DTU (R433, R434): a frost_id not yet seen stops it at once, replacing an armed Frost; a repeat is discarded
and acknowledged again. -/
def Dtu.stopNow (d : Dtu) (f : Frame) : Dtu :=
  let p := d.receive f
  if !(p.2 && frostSound f) then p.1
  else
    let d := p.1
    let id := word f.body 0
    let full := decide (wf f.body 1 31 30 = 1)
    if d.frost.seen.contains id then d.frostAck id full 0x03
    else
      let d := { d with frost := { d.frost with seen := d.frost.seen ++ [id] } }
      if d.frost.state = 2 then d.frostAck id full 0x03
      else ((d.armed id full d.nowNs).frostStop true).frostAck id full 0x03

/-- THAW (R435): now, or at T2; acknowledged. Without that Frost it has no effect. -/
def Dtu.thaw (d : Dtu) (f : Frame) : Dtu :=
  let p := d.receive f
  if !(p.2 && frostSound f) then p.1
  else
    let d := p.1
    let id := word f.body 0
    let t2 := dword f.body 2
    if d.frost.frostId ≠ id ∨ d.frost.state = 1 then d
    else
      let d := if d.frost.state = 2 then
          if t2 ≤ d.nowNs then d.thawNow else { d with frost := { d.frost with thawAt := some t2 } }
        else d
      d.frostAck id d.frost.full 0x04

def execThaw (frame : Frame) (s : State) : Answer := .next (s.onDtu (·.thaw frame))

/-! ### Scan-out (R440, R441). -/

/-- A section: its 16-byte header and body. -/
def scanSection (stype count : Nat) (body : List W) : List W :=
  [pack [(stype, 31, 24), (count, 23, 0)], w32 (4 * body.length), 0, crcWords body] ++ body

/-- One INFLIGHT entry, padded to 16 bytes (R440). -/
def inflightEntry (c : Captured) : List W :=
  let bs := frameBytes c.frame
  let ws := [pack [(c.link, 31, 24), (c.cls, 23, 20), (bs.length, 15, 0)], c.lseq] ++ wordsOf bs
  ws ++ List.replicate ((4 - ws.length % 4) % 4) 0

/-- The 32-byte header of a scan-out: unit 1 for a DTU and 2 for a ZA40; `total` counts units of 16 bytes. -/
def scanHeader (unit flags ident : Nat) (frostId : W) (tReq stopNs total timeState n : Nat) : List W :=
  withCrc ([pack [(1, 31, 28), (unit, 27, 26), (flags, 25, 21), (ident, 19, 0)], frostId] ++ twoWords tReq ++
    twoWords stopNs ++ [pack [(total, 31, 8), (timeState, 7, 6), (n, 5, 0)]])

/-- The five flags of word 0. -/
def scanFlags (smear lateArm cutComplete stepped lull : Bool) : Nat :=
  packNat [(b2n smear, 4, 4), (b2n lateArm, 3, 3), (b2n cutComplete, 2, 2), (b2n stepped, 1, 1), (b2n lull, 0, 0)]

/-- The sections of a DTU that a mask selects, ascending. -/
def Dtu.scanSections (d : Dtu) (snap : DtuSnapshot) (mask : Nat) : List (List W) :=
  let cells := snap.cells.map (fun c => [c.2.1, w32 snap.frame] ++ c.2.2)
  let doms := d.domains.map (fun x =>
    let seen := aGet snap.domains x
    [pack [(x, 31, 28), (b2n seen.isSome, 27, 27)], 0] ++ twoWords (seen.getD 0))
  let links := snap.links.map (fun l => [pack [(0xFF, 31, 24), (l.1, 23, 20), (d.link.aggId.toNat, 19, 0)], l.2.1, l.2.2, 0])
  let flight := d.frost.capture.map inflightEntry
  let slots := snap.slots.map (fun e => [e.w0, e.w1])
  let on (i : Nat) : Bool := decide (bits mask i i = 1)
  (if on 1 && !d.frost.lull then [scanSection 1 cells.length cells.flatten] else []) ++
  (if on 2 then [scanSection 2 doms.length doms.flatten] else []) ++
  (if on 3 then [scanSection 3 links.length links.flatten] else []) ++
  (if on 4 then [scanSection 4 flight.length flight.flatten] else []) ++
  (if on 5 then [scanSection 5 slots.length slots.flatten] else [])

/-- The whole scan-out of the DTU for a frost_id; empty when its snapshot is not held (R435). -/
def Dtu.scanOut (d : Dtu) (frostId : W) (mask : Nat) : List W :=
  match d.frost.snapshot with
  | none => []
  | some snap =>
    if d.frost.frostId ≠ frostId then []
    else
      let ss := d.scanSections snap mask
      let f := d.frost
      let total := (32 + 4 * (ss.map List.length).sum) / 16
      scanHeader 1 (scanFlags f.smear f.lateArm f.cutComplete f.stepped f.lull) d.dieId frostId
        (if f.smear then 0 else f.t) f.stopNs total f.timeState ss.length ++ ss.flatten

/-- The SCAN_DATA frames from a byte offset on, then SCAN_END with the total (R441). -/
def scanFrames (mk : Nat → List W → Nat → TxFrame) (frostId : W) (data : List W) (offset : Nat) : List TxFrame :=
  let total := 4 * data.length
  let rest := data.drop (offset / 4)
  let parts := chunksOf (rest.length + 1) 240 rest
  ((List.range parts.length).zip parts).map (fun p =>
    mk 0x07 (frostBody frostId false 0 0 0 (offset / 4 * 4 + 960 * p.1) ++ p.2) (32 + 4 * p.2.length)) ++
    [mk 0x08 (frostBody frostId false 0 0 0 total) 32]

/-- SCAN_REQ (R441). -/
def Dtu.scanReq (d : Dtu) (f : Frame) : Dtu :=
  let p := d.receive f
  if !(p.2 && frostSound f) then p.1
  else
    let d := p.1
    let id := word f.body 0
    let data := d.scanOut id (wf f.body 4 31 0)
    (scanFrames (fun m b n => d.toAgg clsFrost m b n) id data (wf f.body 5 31 0)).foldl Dtu.queue d

def execScanReq (frame : Frame) (s : State) : Answer := .next (s.onDtu (·.scanReq frame))

/-! ### The Hail (R408, R409). -/

/-- One use of the injections of a code. -/
def spendInjection (l : List Injection) (code : Nat) : List Injection :=
  let used := modWhere l (fun i => i.code == code) (fun i => { i with n := i.n - 1 })
  used.filter (fun i => decide (0 < i.n))

/-- HAIL_SEND of a DTU: admitted, in LOCKED and out of Lull it sends the Hail of the frame once (R409); an injection
suppresses it (R447). -/
def Dtu.hailSend (d : Dtu) : Dtu :=
  match d.hailDue with
  | none => d
  | some n =>
    if !(d.mayReport && d.time.state == .locked && d.runs) then d
    else
      let d := { d with hailDue := none }
      if d.injections.any (fun i => i.code == 0x24) then
        { d with injections := spendInjection d.injections 0x24 }
      else
        let body := [pack [(1, 31, 28), (1, 27, 24), (d.time.state.code, 23, 22), (b2n d.cells.frozen, 21, 21),
            (d.hailSeq.toNat, 15, 0)], pack [(d.dieId, 19, 0)], w32 n,
          pack [(d.health.temp.toNat, 31, 16), (d.health.vcore.toNat, 15, 0)],
          pack [(d.faults.port.length + d.faults.own.length, 31, 16)], 0, 0, 0]
        ({ d with hailSeq := d.hailSeq + 1 }).sendNow (d.toAgg clsCtrl 0x03 body 32)

/-! ### Parameter packets (R233 to R235). -/

/-- A PARAM packet that is not malformed (R235). -/
def paramSound (b : List W) (plen : Nat) : Bool :=
  let kind := wf b 0 27 24
  let part := wf b 1 23 16
  let first := wf b 4 31 16
  let count := wf b 4 15 0
  let len := plen - 32
  let body := (b.drop 8).take (len / 4)
  let shape := match kind with
    | 0 => decide (wf b 1 15 8 = 3 ∧ part < 3 ∧ first = 124 * part ∧ count = (if part = 2 then 8 else 124) ∧ len = 16 * count)
    | 1 => decide (wf b 1 15 8 = 1 ∧ part = 0 ∧ len = 0)
    | 2 => decide (wf b 1 15 8 = 1 ∧ part = 0 ∧ len = 16) && decide (wf body 2 30 16 = 0 ∧ word body 3 = 0)
    | 3 => decide (wf b 1 15 8 = 1 ∧ part = 0 ∧ count ≤ 124 ∧ first + count ≤ 1024 ∧ len = 16 * count)
        && (List.range count).all (fun i => decide (wf body (4 * i + 2) 25 22 = 0 ∧ wf body (4 * i + 3) 15 0 = 0))
    | _ => false
  decide (32 ≤ plen ∧ wf b 0 31 28 = 1 ∧ wf b 0 20 16 = 0 ∧ wf b 1 7 0 = 0 ∧ word b 5 = 0 ∧ word b 6 = 0) && shape

/-- A PARAM packet's crc: header bytes 0 to 27, then the body (R233). -/
def paramCrc (b : List W) (plen : Nat) : W := crcWords (b.take 7 ++ (b.drop 8).take ((plen - 32) / 4))

/-- The entries of a BAND part. -/
def bandEntries (b : List W) (first count : Nat) : List (Nat × BandEntry) :=
  (List.range count).map (fun i =>
    let o := 8 + 4 * i
    (first + i, ({ w0 := word b o, low := word b (o + 1), high := word b (o + 2), w3 := word b (o + 3) } : BandEntry)))

/-- The newest derived frame among a set in force and a complete one waiting; none without either (R107). -/
def BandSet.newest (b : BandSet) : Option Nat :=
  match b.waiting, b.derived with
  | some (f, _), some g => some (max f g)
  | some (f, _), none => some f
  | none, g => g

/-- A set is too old to be taken (R107). -/
def BandSet.stale (b : BandSet) (f : Nat) : Bool := match b.newest with
  | some g => decide (f ≤ g)
  | none => false

/-- One BAND part (R235): none when it is discarded as stale. -/
def BandSet.takePart (b : BandSet) (f part : Nat) (es : List (Nat × BandEntry)) : Option BandSet :=
  let held := (b.parts.map (fun p => p.1)).foldl max 0
  if b.stale f || (b.parts != [] && decide (f < held)) then none
  else
    let old := if b.parts != [] && decide (held < f) then [] else b.parts.filter (fun p => p.2.1 != part)
    let parts := old ++ [(f, part, es)]
    if parts.length = 3 then
      let all := (sortBy (fun (p : Nat × Nat × List (Nat × BandEntry)) => p.2.1) parts).flatMap (fun p => p.2.2)
      some { b with waiting := some (f, all), parts := [] }
    else some { b with parts }

/-- BAND_CONFIRM (R235): the pending set or the one in force becomes a set derived from a newer frame. -/
def BandSet.confirm (b : BandSet) (base f : Nat) : Option BandSet :=
  match b.waiting with
  | some (g, es) =>
    if g = base then (if f ≤ g then none else some { b with waiting := some (f, es) })
    else if b.derived = some base ∧ !b.stale f then some { b with waiting := some (f, b.entries) } else none
  | none => if b.derived = some base ∧ !b.stale f then some { b with waiting := some (f, b.entries) } else none

/-- PARAM (R235). -/
def Dtu.param (d : Dtu) (f : Frame) : Dtu :=
  let p := d.receive f
  if !p.2 then p.1
  else
    let d := p.1
    let b := f.body
    let plen := f.plen.toNat
    let slot := wf b 0 23 21
    let e := d.fixSlot slot (d.cells.slots.getD slot .initial).force
    let named := e.valid && decide (e.ctx.toNat = wf b 0 15 0 ∧ e.gen.toNat = wf b 1 31 24)
    if word b 7 != paramCrc b plen || !named || !paramSound b plen then d.count .stale
    else
      let derived := extendFrame d.frameNow (wf b 2 31 0)
      let put (bs : BandSet) : Dtu := { d with cells := { d.cells with bands := aPut d.cells.bands slot bs } }
      let old := aGetD d.cells.bands slot .initial
      let count := wf b 4 15 0
      let first := wf b 4 31 16
      match wf b 0 27 24 with
      | 0 => match old.takePart derived (wf b 1 23 16) (bandEntries b first count) with
        | some bs => put bs
        | none => d.count .bandStale
      | 1 => match old.confirm (extendFrame d.frameNow (wf b 3 31 0)) derived with
        | some bs => put bs
        | none => d.count .bandStale
      | 2 => { d with digests := { d.digests with winWaiting := aPut d.digests.winWaiting slot ((b.drop 8).take 4) } }
      | _ =>
        let es := (List.range count).map (fun i => (first + i, (b.drop (8 + 4 * i)).take 4))
        { d with digests := { d.digests with
          cacheWaiting := es.foldl (fun m (x : Nat × List W) => aPut m x.1 x.2) d.digests.cacheWaiting } }

def execParam (frame : Frame) (s : State) : Answer := .next (s.onDtu (·.param frame))

end Sys2Proof.Machine
end

