-- ==== Sys2Proof/Machine/Husk.lean ====
section
/-!
DEFINITION. The Husk as both units read it (R367 to R369, R379), and the completion record (R373).
-/
namespace Sys2Proof.Machine

/-! ### Fields of a Husk (R367). The names carry no namespace of `HuskCmd`, a type of Syntax.lean. -/

def huskMajor (h : HuskCmd) : Nat := bits h.w0hi.toNat 15 12
def huskMinor (h : HuskCmd) : Nat := bits h.w0hi.toNat 11 8
def huskChained (h : HuskCmd) : Bool := decide (bits h.w0hi.toNat 7 7 = 1)
def huskRetry (h : HuskCmd) : Bool := decide (bits h.w0hi.toNat 6 6 = 1)
def huskCtx (h : HuskCmd) : Nat := fld h.w1 31 16
def huskGen (h : HuskCmd) : Nat := fld h.w1 15 8
def huskTkind (h : HuskCmd) : Nat := fld h.w2 31 28
def huskTarget (h : HuskCmd) : Nat := fld h.w2 19 0
def huskTag (h : HuskCmd) : W := h.w3
def huskHandle (h : HuskCmd) : W := h.w4
def huskP0 (h : HuskCmd) : Nat := h.w5.toNat
def huskP1 (h : HuskCmd) : Nat := h.w6.toNat

/-- Word 0 with the opcode of the row. -/
def huskW0 (op : Opcode) (h : HuskCmd) : W := pack [(h.w0hi.toNat, 31, 16), (op.code, 15, 0)]

/-- Header words 0 to 6. -/
def huskWords (op : Opcode) (h : HuskCmd) : List W := [huskW0 op h, h.w1, h.w2, h.w3, h.w4, h.w5, h.w6]

/-- The crc the header should carry (R367). -/
def huskCrc (op : Opcode) (h : HuskCmd) : W := crcWords (huskWords op h ++ h.payload)

/-- The bytes a retry must repeat: everything but the retry bit and the crc (R377). -/
def huskBytes (op : Opcode) (h : HuskCmd) : List W := setFld (huskW0 op h) 22 22 0 :: (huskWords op h).drop 1 ++ h.payload

/-- The chain extension and the payload of the opcode itself (R379). -/
def huskExt (h : HuskCmd) : List W := if huskChained h then h.payload.take 8 else []
def huskPay (h : HuskCmd) : List W := if huskChained h then h.payload.drop 8 else h.payload

/-- The chain a Husk carries. -/
def huskChain (h : HuskCmd) : Chain :=
  let e := huskExt h
  { waitEn := bit (word e 0) 31, sigEn := bit (word e 0) 30, sigAny := bit (word e 0) 29, waitObj := wf e 0 16 0,
    waitV := dword e 1, sigObj := wf e 3 16 0, sigAdd := wf e 4 31 0 }

/-- The Husk as a CTRL frame to a unit (R368). -/
def huskFrame (op : Opcode) (h : HuskCmd) (dest : Mac) (ethertype : BitVec 16) (version : Nat) (fabricId : BitVec 16)
    (lseq : W) : Frame :=
  Frame.sealed
    { dest, src := h.req.addr, ethertype, tver := BitVec.ofNat 8 version, cls := 1, rsv15 := 0, msg := 1, rsv17 := 0,
      fabricId, ctx := h.thCtx, gen := h.thGen, rsv23 := 0, lseq, plen := BitVec.ofNat 16 (32 + 4 * h.payload.length),
      hcrc := 0, body := huskWords op h ++ [h.crc] ++ h.payload }

/-- The form of the command: FEAT_PLAN is long in its last part, and a chained command always (R374, R383). -/
def huskLong (op : Opcode) (h : HuskCmd) : Bool :=
  huskChained h || op.isLong || (op == .featPlan && bit h.w6 31)

/-! ### Reserved fields of the parameters and payloads (R8, R369, R381, R422, R438, R471). -/

/-- The bits of param0 and param1 that an opcode leaves zero. -/
def paramReserved (op : Opcode) : Nat × Nat :=
  let all := 0xFFFFFFFF
  match op with
  | .status => (0, 0xFFFFFFFE)
  | .regRead => (0, 0x0FFFFF00)
  | .regWrite => (0, 0x0FFFFF00)
  | .tagWrite => (0, 0)
  | .cellSample => (0, all)
  | .linkResetCmd => (0, all)
  | .retainReplay => (0, 0)
  | .margin => (0, all)
  | .timeStep => (0, all)
  | .ctxAdmit => (0, all)
  | .ctxTeardown => (0, all)
  | .membership => (0, 0)
  | .podPlan => (0, all)
  | .featPlan => (0, 0x30000000)
  | .detPlan => (0, all)
  | .detReset => (0, 0xFFFFFFFE)
  | .syncAlloc => (0, all)
  | .syncFree => (0, 0)
  | .syncSet => (0, all)
  | .syncAdd => (0, 0)
  | .syncWait => (0, all)
  | .syncBind => (0, 0x0FFFFFF0)
  | .syncRead => (0, 0)
  | .modelLoad => (0, 0xFFFFFFF0)
  | .modelQuery => (0, 0x7FFFFF00)
  | .featWrite => (0, 0)
  | .weightSwap => (0, 0)
  | .digestLoad => (0, 0)
  | .resultHistory => (0, 0)
  | .subscribe => (0xFFFFFFE0, all)
  | .seedPair => (0, all)
  | .frostArm => (0, 0xFFFFFFFE)
  | .frostCancel => (0, all)
  | .frostNow => (0, 0xFFFFFFFE)
  | .frostThaw => (0, all)
  | .scanOut => (0, 0)
  | .loopTest => (0, 0)
  | .selfTest => (0x0FFF0000, all)
  | .faultInject => (0, 0)
  | .fence => (0x0FFF0000, 0xFFF00000)
  | .unfence => (0x0FFF0000, 0xFFF00000)
  | .readmit => (0xFFF00000, all)
  | .liveClaim => (0, all)
  | .liveQuery => (0, 0)
  | .rackSet => (0, all)
  | .ckptPut => (0, 0x7FFF0000)
  | .ckptGet => (0xFFFFF000, all)
  | .rebuild => (0, 0xFFFFF000)
  | .faultLog => (0, 0)
  | .lullHold => (0xFFF00000, 0xFFFFFFFC)
  | .lullRelease => (0xFFF00000, all)
  | .zaLull => (0xFFFFFFFC, 0)
  | .zaReset => (0, 0)
  | .pwrLimit => (0, 0)
  | .ident => (all, all)
  | .handleQuery => (all, all)
  | .handleCancel => (all, all)
  | .softReset => (all, all)
  | .frameReset => (all, all)
  | .traceFlush => (all, all)
  | .traceSave => (all, all)
  | .traceRestore => (all, all)
  | .timeResync => (all, all)
  | .ctxQuota => (all, all)
  | .frostQuery => (all, all)
  | .zaWake => (all, all)

/-- The reserved fields that repeat in every entry of a payload: entry size in words, and (byte in the entry, word, high
bit, low bit). -/
def entryReserved (op : Opcode) : Nat × List (Nat × Nat × Nat × Nat) :=
  match op with
  | .membership => (2, [(0, 0, 29, 8)])
  | .detReset => (1, [(0, 0, 31, 27)])
  | .modelQuery => (1, [(0, 0, 31, 27)])
  | .digestLoad => (4, [(8, 2, 28, 23), (14, 3, 15, 0)])
  | .scanOut => (1, [(0, 0, 31, 20)])
  | .liveClaim => (1, [(0, 0, 29, 20)])
  | .rackSet => (1, [(0, 0, 30, 24), (2, 0, 15, 12)])
  | _ => (1, [])

/-- The reserved fields at fixed places of a payload: (byte, word, high bit, low bit). Words 4 to 12 of ZA_CTX are those
of R195. -/
def fixedReserved (op : Opcode) : List (Nat × Nat × Nat × Nat) :=
  let ctxWords := [(0, 0, 31, 26), (2, 0, 15, 10), (4, 1, 31, 18), (8, 2, 31, 17), (14, 3, 15, 2), (28, 7, 31, 16)]
  match op with
  | .ctxAdmit => ctxWords
  | .ctxQuota => ctxWords
  | .modelLoad => [(6, 1, 15, 0)]
  | .rebuild => [(2, 0, 15, 0)]
  | .featWrite => [(0, 0, 31, 27)]
  | .podPlan => (List.range 16).flatMap (fun i =>
      [(8 + 16 * i + 1, 2 + 4 * i, 19, 12), (8 + 16 * i + 8, 4 + 4 * i, 31, 0), (8 + 16 * i + 12, 5 + 4 * i, 31, 0)])
  | _ => []

/-- The offsets, from byte 0 of the Husk, of the reserved fields that are not zero, in ascending order. -/
def reservedOffsets (op : Opcode) (h : HuskCmd) : List Nat :=
  let m := paramReserved op
  let e := huskExt h
  let p := huskPay h
  let base := if huskChained h then 64 else 32
  let per := entryReserved op
  let header : List (Nat × Nat) :=
    [(1, bits h.w0hi.toNat 5 0), (7, fld h.w1 7 0), (8, fld h.w2 27 20),
     (9, if huskTkind h = 0 then huskTarget h else if huskTkind h = 2 then fld h.w2 19 12 else 0),
     (20, if op = .linkResetCmd ∧ huskTkind h = 1 then huskP0 h else huskP0 h &&& m.1), (24, huskP1 h &&& m.2),
     (26, if op = .featPlan then fld h.w6 15 13 else 0),
     (32, wf e 0 28 17), (44, wf e 3 31 17), (52, wf e 5 31 0), (56, wf e 6 31 0), (60, wf e 7 31 0)]
  let entries := (List.range (p.length / per.1)).flatMap (fun i =>
    per.2.map (fun f => (base + 4 * per.1 * i + f.1, wf p (per.1 * i + f.2.1) f.2.2.1 f.2.2.2)))
  let fixed := (fixedReserved op).map (fun f => (base + f.1, wf p f.2.1 f.2.2.1 f.2.2.2))
  let pad : List (Nat × Nat) := match op with
    | .cellSample => if huskP0 h % 2 = 1 then [(base + 2 * huskP0 h, wf p (huskP0 h / 2) 15 0)] else []
    | _ => []
  sortBy id (((header ++ entries ++ fixed ++ pad).filter (fun x => x.2 != 0)).map Prod.fst)

/-! ### Payload lengths (R368, R369). -/

/-- A number of words that holds `n` bytes. -/
def wordsFor (n : Nat) : Nat := (n + 3) / 4

/-- The payload of the opcode, in words, fits it: the counts of the parameters decide where they name one. -/
def lengthFits (op : Opcode) (h : HuskCmd) : Bool :=
  let n := (huskPay h).length
  let p0 := huskP0 h
  let p1 := huskP1 h
  (!huskChained h || decide (8 ≤ h.payload.length)) &&
  match op with
  | .regWrite => decide (n = p1 % 256)
  | .tagWrite => decide (n = wordsFor p1)
  | .cellSample => decide (n = wordsFor (2 * p0))
  | .retainReplay => decide (n = 2)
  | .timeStep => decide (n = 2)
  | .ctxAdmit => decide (n = 9)
  | .ctxQuota => decide (n = 9)
  | .membership => decide (n = 2 * p1)
  | .podPlan => decide (n = 2114)
  | .featPlan => decide (n % 4 = 0 ∧ n ≤ 2048)
  | .detPlan => decide (n % 8 = 0 ∧ n ≤ 256)
  | .detReset => if p1 % 2 = 1 then decide (n = 0) else decide (1 ≤ n ∧ n ≤ 256)
  | .syncSet => decide (n = 2)
  | .syncWait => decide (n = 2)
  | .modelLoad => decide (n = 8)
  | .modelQuery => decide (1 ≤ n ∧ n ≤ 64)
  | .featWrite => decide (n = 1 + p1 % 65536)
  | .weightSwap => decide (n = 1)
  | .digestLoad => decide (n = 4 * p1)
  | .frostArm => decide (n = 2)
  | .frostThaw => decide (n = 2)
  | .scanOut => true
  | .faultInject => decide (n = 4) || (decide (n = 0) && decide (fld h.w5 31 24 ≠ 0x01 ∧ fld h.w5 31 24 ≠ 0x25))
  | .liveClaim => decide (n = p0)
  | .rackSet => decide (n = p0)
  | .ckptPut => true
  | .rebuild => decide (n = 1)
  | _ => decide (n = 0)

/-! ### Status codes (R385, R423, R439, R472). -/

def stBadOpcode : Nat := 0x0002
def stBadLength : Nat := 0x0004
def stBadTarget : Nat := 0x0005
def stVersion : Nat := 0x0006
def stBringup : Nat := 0x0007
def stNoContext : Nat := 0x0008
def stCtxTorn : Nat := 0x0009
def stTagReused : Nat := 0x000A
def stHandleUnknown : Nat := 0x000B
def stHandleRunning : Nat := 0x000C
def stCancelled : Nat := 0x000D
def stDtuBusy : Nat := 0x000E
def stTargetTimeout : Nat := 0x000F
def stAbandoned : Nat := 0x0010
def stMgmtBusy : Nat := 0x0011
def stCtxExists : Nat := 0x0012
def stFrontEarly : Nat := 0x0020
def stFrontConflict : Nat := 0x0021
def stQuotaFull : Nat := 0x0022
def stQuotaReached : Nat := 0x0023
def stSchedFull : Nat := 0x0024
def stSyncOwner : Nat := 0x0030
def stSyncFreed : Nat := 0x0031
def stSyncFrag : Nat := 0x0032
def stTimeResyncBusy : Nat := 0x0040
def stTimeStepBack : Nat := 0x0041
def stTraceImage : Nat := 0x0050
def stRetainGone : Nat := 0x0052
def stRetainNoctx : Nat := 0x0053
def stDigestOverlap : Nat := 0x0060
def stCellmapConflict : Nat := 0x0061
def stFeatPlan : Nat := 0x0062
def stDetPlan : Nat := 0x0063
def stDetectFull : Nat := 0x0064
def stEnsFormat : Nat := 0x0070
def stFeatFormat : Nat := 0x0071
def stModelFormat : Nat := 0x0072
def stModelFit : Nat := 0x0073
def stModelCost : Nat := 0x0074
def stModelBusy : Nat := 0x0075
def stModelGone : Nat := 0x0076
def stModelFetch : Nat := 0x0077
def stRowGone : Nat := 0x0078
def stSeedbankDomain : Nat := 0x0080
def stSeedbankBusy : Nat := 0x0081
def stGclFormat : Nat := 0x0090
def stGclQuota : Nat := 0x0091
def stPortBusy : Nat := 0x0092
def stUnitTestFail : Nat := 0x0110
def stNotFenced : Nat := 0x0111
def stNotAlive : Nat := 0x0112
def stFenceLast : Nat := 0x0113
def stFenceRefused : Nat := 0x0114
def stNotRm : Nat := 0x0115
def stCkptNone : Nat := 0x0116
def stRebuildBusy : Nat := 0x0117
def stFrostEarly : Nat := 0x0120
def stFrostBusy : Nat := 0x0121
def stFrostNone : Nat := 0x0122
def stScanGone : Nat := 0x0123
def stLoopRefused : Nat := 0x0124
def stTestMode : Nat := 0x0125
def stLullMember : Nat := 0x0130
def stLullBusy : Nat := 0x0131
def stResetRefused : Nat := 0x0132
def stLullState : Nat := 0x0133
def stLullHeld : Nat := 0x0134

/-- A result with a detail, or with result0, or with a payload. -/
def failDetail (status detail : Nat) : Result := { status, detail, result0 := 0, payload := [], trunc := false }
def failValue (status result0 : Nat) : Result := { status, detail := 0, result0, payload := [], trunc := false }
def okPayload (payload : List W) : Result := { status := stOk, detail := 0, result0 := 0, payload, trunc := false }
def okValue (result0 : Nat) : Result := { status := stOk, detail := 0, result0, payload := [], trunc := false }

/-- A BAD_PARAM about param0 or param1: the byte offset of the value (R385). -/
def badP0 : Result := failDetail stBadParam 20
def badP1 : Result := failDetail stBadParam 24

/-! ### The tests that need no unit's state (R369). -/

/-- The first tests: version, opcode, reserved fields. `allowed` says that the opcode is allowed in the unit's mode. -/
def huskForm (op : Opcode) (h : HuskCmd) (allowed : Bool) : Option Result :=
  if huskMajor h ≠ 1 ∨ 4 < huskMinor h then some (resultOf stVersion)
  else if !allowed then some (resultOf stBadOpcode)
  else match reservedOffsets op h with
    | o :: _ => some (failDetail stReserved o)
    | [] => none

/-! ### Completions (R373). -/

/-- A completion record of an opcode number. -/
def completionOf (ckind code : Nat) (w1 tag handle : W) (frame : Nat) (r : Result) (sigLost : Bool) : List W :=
  let hdr := [pack [(1, 31, 28), (ckind, 27, 26), (b2n r.trunc, 25, 25), (b2n sigLost, 24, 24), (code, 15, 0)],
    w1 &&& 0xFFFFFF00, tag, if ckind = 0 then 0 else handle, pack [(r.status, 31, 16), (r.detail, 15, 0)], w32 frame,
    w32 r.result0]
  hdr ++ [crcWords (hdr ++ r.payload)] ++ r.payload

/-- A completion record. -/
def completion (ckind : Nat) (op : Opcode) (w1 tag handle : W) (frame : Nat) (r : Result) (sigLost : Bool) : List W :=
  completionOf ckind op.code w1 tag handle frame r sigLost

/-- The status of a completion record. -/
def completionStatus (c : List W) : Nat := wf c 4 31 16

/-- A result whose payload is cut to what a reply can carry (R368). -/
def Result.cut (r : Result) (words : Nat) : Result :=
  if words < r.payload.length then { r with payload := r.payload.take words, trunc := true } else r

/-! ### Retry caches (R377). -/

/-- What the cache says of a command: nothing known, a retry to be answered again, or a tag reused. -/
inductive CacheHit
  | fresh
  | replay (reply : List W)
  | reused
  deriving DecidableEq, Repr

def lookupTag (cache : List CacheEntry) (req : Requester) (op : Opcode) (h : HuskCmd) : CacheHit :=
  if huskTag h = 0 then .fresh
  else match cache.find? (fun e => e.req == req && e.tag == huskTag h) with
    | none => .fresh
    | some e => if huskRetry h && e.bytes == huskBytes op h then .replay e.reply else .reused

/-- A reply stored under its requester and tag; at most `cap` entries, the oldest dropped. -/
def storeTag (cache : List CacheEntry) (cap : Nat) (e : CacheEntry) : List CacheEntry :=
  if e.tag = 0 then cache
  else
    let c := cache.filter (fun x => !(x.req == e.req && x.tag == e.tag)) ++ [e]
    c.drop (c.length - cap)

/-- The DONE_HANDLE record replaces the stored ACCEPTED (R377). -/
def updateTag (cache : List CacheEntry) (handle : W) (reply : List W) : List CacheEntry :=
  modWhere cache (fun e => e.handle == handle && e.handle != 0) (fun e => { e with reply })

/-! ### STATUS records (R384). -/

/-- A status record: kind, context and generation, then its words. -/
def statusRecord (kind ctx gen : Nat) (ws : List W) : List W :=
  [pack [(kind, 31, 24), (8 + 4 * ws.length, 15, 0)], pack [(ctx, 31, 16), (gen, 15, 8)]] ++ ws

/-- The records of a reply that fit in so many words, those left out naming their kinds (R384). -/
def fitRecords (room : Nat) (rs : List (Nat × List W)) : List W × Nat :=
  let p := rs.foldl (fun (acc : List W × List Nat) r =>
    if acc.1.length + r.2.length ≤ room then (acc.1 ++ r.2, acc.2) else (acc.1, acc.2 ++ [r.1])) ([], [])
  (p.1, (p.2.eraseDups.map (fun k => 2 ^ k)).sum)

/-- Counters with those of a record cleared (R384). -/
def clearCounters {κ : Type} [DecidableEq κ] (m : List (κ × Nat)) (ks : List κ) : List (κ × Nat) :=
  m.filter (fun p => !ks.contains p.1)

end Sys2Proof.Machine
end

