-- ==== Sys2Proof/Machine/DtuHusk.lean ====
section
/-!
DEFINITION. Commands in a DTU: the tests of R369 as a DTU makes them, replies, the opcodes it accepts, and its posted
completions (R367 to R386, R442, R447).
-/
namespace Sys2Proof.Machine

/-! ### Status records of the DTU (R108, R128, R152, R182, R384). -/

/-- The counters of the DTU's records 2, 3 and 4, in order. -/
def dtuCounters (kind : Nat) : List DCnt :=
  let eight := List.range 8
  match kind with
  | 2 => [.lateContrib, .closureLimit, .incompleteFrames, .satCells, .replaySent, .bandSkipped, .bandInvalid, .bandStale] ++
      eight.map .flagsLo ++ eight.map .flagsHi
  | 3 => (List.range 4).map .refused ++ [.lossRecords, .fullStops, .fullStopNs, .blocksCommitted, .blocksSent,
      .blocksDiscarded, .streams, .saves, .restores, .restoreFailed]
  | 4 => [.leaves, .blocks, .framingErr, .errDup, .errTimeout, .pendFull, .recDrop, .localMatch, .localMismatch,
      .localInvalid, .marginLocal, .marginCmd, .marginNak, .marginMerged, .marginSuppressed, .marginDiscarded,
      .faultAccepted, .faultMerged, .internalDrop]
  | _ => []

/-- The words of one record of the DTU. -/
def Dtu.recordWords (d : Dtu) (kind : Nat) : List W :=
  let counts := (dtuCounters kind).map (fun c => w32 (aGetD d.counters c 0))
  match kind with
  | 0 => [dtuIdent, d.vercap, d.portStatus, d.time.stateWord 0, d.host.irqStatus, d.tagStatus, d.obsStatus, d.traceStatus 1]
  | 1 => Memory.words d.host.tag 0 64
  | 2 => counts ++ (List.range 8).map (fun k => w32 (aGetD d.cells.paramAge k 0)) ++ [w32 d.framesHeld, d.oldestHeld]
  | 5 => d.time.record 0 []
  | _ => counts

/-- STATUS of a DTU (R384, R386). -/
def Dtu.statusReply (d : Dtu) (mask : Nat) (clear : Bool) : Dtu × Result :=
  let top := if d.link.admitted then 6 else 2
  let kinds := (List.range top).filter (fun k => decide (bits mask k k = 1))
  let p := fitRecords 240 (kinds.map (fun k => (k, statusRecord k 0xFFFF 0 (d.recordWords k))))
  let given := kinds.filter (fun k => decide (bits p.2 k k = 0))
  let d := if clear then
      { d with counters := clearCounters d.counters (given.flatMap dtuCounters),
               time := if given.contains 5 then { d.time with counters := [] } else d.time }
    else d
  (d, { status := stOk, detail := 0, result0 := p.2, payload := p.1, trunc := p.2 != 0 })

/-! ### The bodies of the DTU's opcodes. Each answers the DTU and, when the command ends here, its result. -/

/-- What a body answers: none when a long command has been accepted and goes on. -/
abbrev DtuBody := Dtu × Option Result

/-- The addresses a REG_READ or REG_WRITE names. -/
def regAddrs (h : HuskCmd) : List Nat := (List.range (huskP1 h % 256)).map (fun i => huskP0 h + 4 * i)

/-- The first address of a list that is not mapped or not aligned (R475). -/
def firstUnmapped (mapped : Nat → Bool) (as : List Nat) : Option Nat := as.find? (fun a => !(mapped a && a % 4 == 0))

/-- The register-access tests both opcodes share: words 1 to 128, a space that exists, mapped addresses. -/
def Dtu.regTest (d : Dtu) (h : HuskCmd) (writing : Bool) : Option Result :=
  let space := fld h.w6 31 28
  let n := huskP1 h % 256
  if n = 0 ∨ 128 < n ∨ 1 < space ∨ (writing ∧ space = 0) then some badP1
  else
    let mapped (a : Nat) : Bool := if space = 1 then cmdMapped a else (d.hostRead a).isSome
    match firstUnmapped mapped (regAddrs h) with
    | some a => some { status := stBadParam, detail := 20, result0 := a, payload := [], trunc := false }
    | none => none

/-- REG_READ (R473, R475, R476). -/
def Dtu.regRead (d : Dtu) (h : HuskCmd) : DtuBody :=
  match d.regTest h false with
  | some r => (d, some r)
  | none =>
    let one (a : Nat) : W := if fld h.w6 31 28 = 1 then d.cmdRead a else (d.hostRead a).getD 0
    (d, some (okPayload ((regAddrs h).map one)))

/-- REG_WRITE (R382, R473). -/
def Dtu.regWrite (d : Dtu) (h : HuskCmd) : DtuBody :=
  match d.regTest h true with
  | some r => (d, some r)
  | none =>
    let as := regAddrs h
    let ws := (List.range as.length).map (fun i => (i, as.getD i 0, word (huskPay h) i))
    match d.cmdWrites ws with
    | (_, some (st, i)) => (d.earn st, some (failDetail st i))
    | (d', none) => (d'.earn stOk, some (resultOf stOk))

/-- CELL_SAMPLE (R92): k is the core cycle, a free value. -/
def Dtu.cellSample (d : Dtu) (free : Nat) (h : HuskCmd) : DtuBody :=
  let n := huskP0 h
  if n = 0 ∨ 64 < n then (d, some badP0)
  else
    let ids := (List.range n).map (fun i => wf (huskPay h) (i / 2) (if i % 2 = 0 then 31 else 15) (if i % 2 = 0 then 16 else 0))
    match firstIdx ids (fun x => decide (64 * d.build.nClusters ≤ x)) with
    | some i => (d, some (failDetail stBadParam (32 + 2 * i)))
    | none => (d, some { status := stOk, detail := 0, result0 := (Config.freeWord free).toNat,
                         payload := ids.flatMap d.cellNow, trunc := false })

/-- RETAIN_REPLAY (R103). -/
def Dtu.retainReplay (d : Dtu) (h : HuskCmd) (handle : W) : DtuBody :=
  let first := extendFrame d.frameNow (huskP0 h)
  let last := extendFrame d.frameNow (huskP1 h)
  if last < first then (d, some badP1)
  else (d.startReplay handle (BitVec.ofNat 16 (huskCtx h)) (BitVec.ofNat 8 (huskGen h)) first last (dword (huskPay h) 0), none)

/-- MARGIN (R146, R147). -/
def Dtu.marginCmd (d : Dtu) (h : HuskCmd) (handle : W) : DtuBody :=
  let code := huskP0 h
  if code ≠ 1 ∧ code ≠ 2 then (d, some badP0)
  else
    let p := d.askMargin code (some handle)
    (if p.2 then p.1.count .marginCmd else p.1, none)

/-- TRACE_RESTORE (R124, R125): only while enable = 0 and the image is valid. -/
def Dtu.traceRestore (d : Dtu) (handle : W) : DtuBody :=
  if d.trace.enabled then (d, some (resultOf stTraceBusy))
  else if d.trace.image.sound && !d.trace.ending then (d.loadImage.finish handle (resultOf stOk), none)
  else
    (({ d with trace := { d.trace with image := .none } }).count .restoreFailed, some (resultOf stTraceImage))

/-- TIME_RESYNC (R165): only slot 0 valid. -/
def Dtu.timeResync (d : Dtu) : DtuBody :=
  let busy := (List.range 8).any (fun k => k != 0 && (d.cells.slots.getD k .initial).force.valid)
  if busy then (d, some (resultOf stTimeResyncBusy)) else ({ d with time := d.time.resync }, some (resultOf stOk))

/-- LOOP_TEST to a DTU (R442). -/
def Dtu.loopTest (d : Dtu) (h : HuskCmd) (handle : W) : DtuBody :=
  let depth := huskP0 h
  let c := huskP1 h
  if depth = 0 ∨ 4 < depth then (d, some badP0)
  else if depth ≤ 2 ∧ d.build.nClusters ≤ c then (d, some badP1)
  else if d.cmds.loop.isSome then (d, some (resultOf stLoopRefused))
  else if depth ≤ 2 ∧ !bit (cluWord d.cells.force c) 8 ∧ !d.factory then (d, some (resultOf stLoopRefused))
  else if depth = 3 ∧ d.frost.state = 2 then (d, some (resultOf stLoopRefused))
  else
    let d := { d with cmds := { d.cmds with loop := some { handle, depth, cluster := c, started := false } } }
    if depth = 4 then
      let ids := (List.range 64).map (fun i => w32 (0xEC000000 + i))
      let d := ids.foldl (fun d i => d.queue (d.toAgg clsLink 0x04 [i, 0] 8)) d
      ({ d with link := { d.link with echoes := ids.map (fun i => (i, d.nowNs)), rtt := [] } }, none)
    else (d, none)

/-- FAULT_INJECT to a DTU (R447). -/
def Dtu.faultInject (d : Dtu) (h : HuskCmd) : DtuBody :=
  let code := fld h.w5 31 24
  let n := fld h.w5 23 0
  let add (inj : Injection) : Dtu := { d with injections := if inj.n = 0 then d.injections else d.injections ++ [inj] }
  let counted (x : Dtu) : DtuBody := ({ x with injected := min 0xFFFF (x.injected + 1) }, some (resultOf stOk))
  match code with
  | 0x20 => if d.build.nClusters ≤ huskP1 h then (d, some badP1) else counted (add { code, n, param := h.w6, payload := [] })
  | 0x21 => if d.build.nClusters ≤ huskP1 h then (d, some badP1) else counted (add { code, n, param := h.w6, payload := [] })
  | 0x22 => if 64 * d.build.nClusters ≤ n then (d, some badP0) else counted (add { code, n := 1, param := w32 n, payload := [] })
  | 0x23 => if 3 < huskP1 h then (d, some badP1) else counted (d.creditReturn (huskP1 h))
  | 0x24 => counted (add { code, n, param := 0, payload := [] })
  | 0x25 =>
    let p := huskPay h
    counted (d.raiseMsg (BitVec.ofNat 128 (dword p 0 * 2 ^ 64 + dword p 2)))
  | _ => (d, some badP0)

/-- The effect of an opcode on the DTU; opcodes that only a ZA40 accepts never reach it. -/
def Dtu.runOp (d : Dtu) (free : Nat) (op : Opcode) (h : HuskCmd) (handle : W) : DtuBody :=
  match op with
  | .ident => (d, some (okPayload ([dtuIdent, d.vercap] ++ Memory.words d.host.tag 0 8)))
  | .status => let p := d.statusReply (huskP0 h) (bit h.w6 0); (p.1, some p.2)
  | .regRead => d.regRead h
  | .regWrite => d.regWrite h
  | .softReset => ({ d with power := { d.power with softDue := true } }, some (resultOf stOk))
  | .frameReset => (d.frameReset, some (okValue (Config.freeWord free).toNat))
  | .cellSample => d.cellSample free h
  | .linkResetCmd => (d, some (resultOf stOk))
  | .retainReplay => d.retainReplay h handle
  | .margin => d.marginCmd h handle
  | .traceFlush => (d.askClose 3 (some handle), none)
  | .traceSave => (d.askClose 7 (some handle), none)
  | .traceRestore => d.traceRestore handle
  | .timeResync => d.timeResync
  | .frostQuery => (d, some (okPayload [d.frostStatus]))
  | .loopTest => d.loopTest h handle
  | .faultInject => d.faultInject h
  | _ => (d, some (resultOf stBadOpcode))

/-! ### Reception and reply. -/

/-- A reply leaves on VC 0, in the Husk's context when that is resident (R368). -/
def Dtu.sendReply (d : Dtu) (dest : Mac) (w1 : W) (rec_ : List W) : Dtu :=
  let ctx := fld w1 31 16
  let gen := fld w1 15 8
  let res := d.resident ctx gen
  d.sendNow { cls := clsCtrl, msg := 0x02, dest, ctx := if res then BitVec.ofNat 16 ctx else 0xFFFF,
              gen := if res then BitVec.ofNat 8 gen else 0, plen := 4 * rec_.length, body := rec_ }

/-- The DTU executes only Husks of the aggregator that admitted it; before, those of any ZA40 link (R371). -/
def Dtu.huskFrom (d : Dtu) (req : Requester) : Bool :=
  !req.keomon && (if d.link.admitted then req.addr == d.link.aggMac else isLinkMac req.addr)

/-- The tests of R369 from version to context, as a DTU makes them: the first failure. -/
def Dtu.huskTests (d : Dtu) (op : Opcode) (h : HuskCmd) : Option Result :=
  let allowed := op.units.1 && (op != .faultInject || d.factory)
  match huskForm op h allowed with
  | some r => some r
  | none =>
    let ctxOk := (h.thCtx == 0xFFFF || (h.thCtx.toNat == huskCtx h && h.thGen.toNat == huskGen h)) &&
      (if huskCtx h = 0xFFFF then huskGen h == 0 else d.resident (huskCtx h) (huskGen h))
    if !d.link.admitted ∧ op ≠ .ident ∧ op ≠ .status then some (resultOf stBringup)
    else if !(decide (huskTkind h = 0) || decide (huskTkind h = 1 ∧ huskTarget h = d.dieId)) then some (resultOf stBadTarget)
    else if 496 < h.payload.length ∨ !lengthFits op h then some (resultOf stBadLength)
    else if !ctxOk then some (resultOf stNoContext)
    else none

/-- A reply that is made here and now, kept for a retry. -/
def Dtu.replyNow (d : Dtu) (op : Opcode) (h : HuskCmd) (ckind : Nat) (handle : W) (r : Result) (cache : Bool) : Dtu :=
  let rec_ := completion ckind op h.w1 (huskTag h) handle d.frameNow (r.cut 240) false
  let e : CacheEntry := { req := h.req, tag := huskTag h, bytes := huskBytes op h, reply := rec_, handle, at_ := d.time.begun }
  let d := if cache then { d with cmds := { d.cmds with cache := storeTag d.cmds.cache 32 e } } else d
  d.sendReply h.req.addr h.w1 rec_

/-- A command that has passed the tests runs (R374, R380). A chained Husk is never executed by a DTU; a 17th long one is
refused (R372). -/
def Dtu.huskRun (d : Dtu) (free : Nat) (op : Opcode) (h : HuskCmd) : Dtu :=
  if huskChained h then d.replyNow op h 0 0 (failDetail stBadParam 1) true
  else if op.isLong then
    if 16 ≤ d.cmds.longs.length then d.replyNow op h 0 0 (resultOf stDtuBusy) true
    else
      let handle := huskHandle h
      let ref : CmdRef := { op, req := h.req, w1 := h.w1, tag := huskTag h }
      let before := d.cmds.longs
      let mine : DtuLong := { handle, cmd := ref, done := none }
      let d : Dtu := { d with cmds := { d.cmds with longs := before ++ [mine] } }
      match d.runOp free op h handle with
      | (d, some r) =>
        let d : Dtu := { d with cmds := { d.cmds with longs := before } }
        d.replyNow op h 0 0 r true
      | (d, none) => d.replyNow op h 1 handle (resultOf stOk) true
  else
    let p := d.runOp free op h 0
    let d := p.1.replyNow op h 0 0 (p.2.getD (resultOf stOk)) true
    if op = .linkResetCmd then d.sendLinkReset 2 else d

/-- A Husk reaches a DTU (R367 to R381). -/
def Dtu.husk (d : Dtu) (free : Nat) (op : Opcode) (h : HuskCmd) : Dtu :=
  let f := huskFrame op h (dtuMac d.dieId) d.link.ethertype d.link.version d.link.fabricId (d.link.lseqRx.getD 1 0)
  let p := d.receive f
  if !p.2 then p.1
  else
    let d := p.1
    if !d.huskFrom h.req then d.count .badAddr
    else if h.crc ≠ huskCrc op h then d.count .huskCrc
    else match d.huskTests op h with
      | some r => d.replyNow op h 0 0 r false
      | none =>
        match lookupTag d.cmds.cache h.req op h with
        | .replay reply => d.sendReply h.req.addr h.w1 reply
        | .reused => d.replyNow op h 0 0 (resultOf stTagReused) false
        | .fresh => d.huskRun free op h

/-- The DTU posts the DONE_HANDLE of a long command whose work has ended (R374). -/
def Dtu.postDone (d : Dtu) (handle : W) : Dtu :=
  match d.cmds.longs.find? (fun l => l.handle == handle && l.done.isSome) with
  | none => d
  | some l =>
    let r := (l.done.getD (resultOf stOk)).cut 240
    let rec_ := completion 2 l.cmd.op l.cmd.w1 l.cmd.tag handle d.frameNow r false
    let d := { d with cmds := { d.cmds with
      longs := d.cmds.longs.filter (fun x => !(x.handle == handle && x.done.isSome))
      cache := updateTag d.cmds.cache handle rec_ } }
    d.sendReply l.cmd.req.addr l.cmd.w1 rec_

/-- A LOOP_TEST of depth 4 ends when its 64 replies are back: least and greatest round trip (R442). -/
def Dtu.loopEcho (d : Dtu) : Dtu :=
  match d.cmds.loop with
  | none => d
  | some l =>
    if l.depth = 4 ∧ d.link.echoes = [] then
      let least := d.link.rtt.foldl min (d.link.rtt.headD 0)
      let most := d.link.rtt.foldl max 0
      let d : Dtu := { d with cmds := { d.cmds with loop := none } }
      d.finish l.handle (okPayload [w32 least, w32 most])
    else d

/-- What leaves a DTU next (R97, R103, R361): contributions whose work frame has ended are gone, and a replay feeds an empty
VC 1 queue before and after. -/
def Dtu.transmitNext (d : Dtu) : Dtu := (d.expireContribs.feedReplay.transmit).feedReplay

end Sys2Proof.Machine
end

