-- ==== Sys2Proof/Machine/Image.lean ====
section
/-!
DEFINITION. Model images: header and section table, ensembles, weights and programs, and the checks that a fetched image must
pass (R254 to R256, R279 to R288, R300).
-/
namespace Sys2Proof.Machine

/-! ### The container (R279, R280). -/

/-- An entry of the section table. -/
structure Sect where
  idx : Nat
  kind : Nat                       -- 1 ENSEMBLE; 2 WEIGHTS; 3 PROGRAM
  direct : Bool
  off : Nat
  len : Nat
  crc : W
  deriving DecidableEq, Repr

def sectAt (img : List W) (s : Nat) : Sect :=
  let t := (img.drop (16 + 4 * s)).take 4
  { idx := s, kind := wf t 0 31 28, direct := bit (word t 0) 27, off := (word t 1).toNat, len := (word t 2).toNat, crc := word t 3 }

def sectsOf (img : List W) : List Sect := (List.range (wf img 1 15 8)).map (sectAt img)

/-- The words of a section; weights may end within their last one (R283). -/
def Sect.words (s : Sect) (img : List W) : List W :=
  (img.drop (s.off / 4)).take (if s.kind = 2 then (s.len + 3) / 4 else s.len / 4)

/-- The CRC-32C of the section's bytes (R280). -/
def Sect.crcOf (s : Sect) (img : List W) : W := crc32c ((bytesOf ((img.drop (s.off / 4)).take ((s.len + 3) / 4))).take s.len)

/-- The words of section i of an image. -/
def sectWords (img : List W) (i : Nat) : List W := (sectAt img i).words img

def imgModelId (img : List W) : W := word img 2
def imgVersion (img : List W) : Nat := wf img 3 31 16

/-- The form of header and section table (R279, R280, R300). -/
def imageForm (img : List W) : Bool :=
  let n := wf img 1 15 8
  let table := (img.drop 16).take (4 * n)
  let ss := sectsOf img
  let len := (word img 4).toNat
  word img 0 == 0x4B4D4931 && decide (wf img 1 31 16 = 1 ∧ 1 ≤ n ∧ n ≤ 16 ∧ wf img 1 7 0 = 0 ∧ wf img 3 15 0 = 0 ∧ imgVersion img ≠ 0)
  && decide (len = 4 * img.length ∧ len % 16 = 0 ∧ 128 ≤ len)
  && (List.range 10).all (fun i => word img (5 + i) == 0)
  && word img 15 == crcWords (img.take 15 ++ table)
  && ss.all (fun s => decide (1 ≤ s.kind ∧ s.kind ≤ 3 ∧ s.off % 16 = 0 ∧ s.off + s.len ≤ len ∧ 64 + 16 * n ≤ s.off)
      && decide (wf ((img.drop (16 + 4 * s.idx)).take 4) 0 26 0 = 0) && !(s.kind == 2 && s.direct))
  && (ss.zip (ss.drop 1)).all (fun (p : Sect × Sect) => decide (p.1.off + p.1.len ≤ p.2.off))
  && ss.all (fun s => s.crc == s.crcOf img)

/-! ### Ensembles (R254 to R256). -/

def ensKind (w : List W) : Nat := wf w 0 27 27
def ensLink (w : List W) : Nat := wf w 0 26 24
def ensOuts (w : List W) : Nat := wf w 0 23 20 + 1
def ensDepth (w : List W) : Nat := wf w 0 19 15
def ensTrees (w : List W) : Nat := wf w 1 16 0
def ensNodes (w : List W) : Nat := wf w 2 24 0
def ensFeats (w : List W) : Nat := wf w 3 12 0

/-- A count of words padded to 16 bytes. -/
def pad4 (n : Nat) : Nat := (n + 3) / 4 * 4

def ensBase (w : List W) (o : Nat) : W := word w (8 + o)
def ensTree (w : List W) (t : Nat) : W := word w (8 + pad4 (ensOuts w) + t)
def ensRoot (w : List W) (t : Nat) : Nat := fld (ensTree w t) 23 0
def ensOutOf (w : List W) (t : Nat) : Nat := fld (ensTree w t) 31 28
def ensNode (w : List W) (i : Nat) : List W := (w.drop (8 + pad4 (ensOuts w) + pad4 (ensTrees w) + 4 * i)).take 4
def ensWords (w : List W) : Nat := 8 + pad4 (ensOuts w) + pad4 (ensTrees w) + 4 * ensNodes w

def nodeType (n : List W) : Nat := wf n 0 31 30
def nodeFmt (n : List W) : Nat := wf n 0 28 27
def nodeFeature (n : List W) : Nat := wf n 0 11 0
def nodeLeft (n : List W) : Nat := wf n 2 23 0

/-- A binary32 pattern is a NaN, or finite. -/
def isNaN32 (w : W) : Bool := decide (fld w 30 23 = 255 ∧ fld w 22 0 ≠ 0)
def isFinite32 (w : W) : Bool := decide (fld w 30 23 ≠ 255)

/-- One node by itself (R255, R256). -/
def nodeForm (n : List W) (i nodes feats : Nat) : Bool :=
  let t := nodeType n
  if t = 2 then
    decide (wf n 0 29 0 = 0 ∧ word n 2 = 0 ∧ word n 3 = 0) && isFinite32 (word n 1)
  else
    decide (t ≤ 1 ∧ wf n 0 26 12 = 0 ∧ wf n 2 31 24 = 0 ∧ i < nodeLeft n ∧ nodeLeft n + 1 < nodes ∧ nodeFeature n < feats) &&
      (if t = 0 then decide (nodeFmt n ≤ 2 ∧ word n 3 = 0) && !(nodeFmt n == 0 && isNaN32 (word n 1)) else decide (nodeFmt n = 3))

/-- The splits on the longest path from a node; a split's children lie above it, so `fuel` nodes suffice. -/
def splitsBelow (w : List W) : Nat → Nat → Nat
  | 0, _ => 0
  | f + 1, i =>
    let n := ensNode w i
    if nodeType n = 2 then 0 else 1 + max (splitsBelow w f (nodeLeft n)) (splitsBelow w f (nodeLeft n + 1))

/-- The first node or word of an ensemble that breaks R256. -/
def ensFault (w : List W) : Option Nat :=
  let outs := ensOuts w
  let trees := ensTrees w
  let nodes := ensNodes w
  if wf w 0 31 28 ≠ 1 ∨ 4 < ensLink w ∨ ensDepth w = 0 ∨ 24 < ensDepth w ∨ wf w 0 14 0 ≠ 0 ∨ (ensLink w = 2 ∧ outs < 2) then some 0
  else if wf w 1 31 17 ≠ 0 ∨ trees = 0 ∨ 65536 < trees then some 1
  else if wf w 2 31 25 ≠ 0 ∨ nodes < 3 ∨ 16777216 < nodes ∨ w.length < ensWords w then some 2
  else if wf w 3 31 13 ≠ 0 ∨ ensFeats w = 0 ∨ 4096 < ensFeats w then some 3
  else
    let tree := (List.range trees).find? (fun t =>
      !decide (ensOutOf w t < outs ∧ ensRoot w t < nodes ∧ fld (ensTree w t) 27 24 = 0))
    let lone := (List.range 4).find? (fun i => word w (4 + i) != 0)
    let roots := (List.range trees).map (ensRoot w)
    let splits := (List.range nodes).filter (fun i => nodeType (ensNode w i) ≤ 1)
    let named := roots ++ splits.flatMap (fun i => [nodeLeft (ensNode w i), nodeLeft (ensNode w i) + 1])
    let shape := (List.range nodes).find? (fun i => !nodeForm (ensNode w i) i nodes (ensFeats w) || named.count i != 1)
    let deep := roots.find? (fun r => decide (ensDepth w < splitsBelow w nodes r))
    match lone, tree, shape, deep with
    | some i, _, _, _ => some (4 + i)
    | none, some t, _, _ => some (8 + pad4 outs + t)
    | none, none, some i, _ => some i
    | none, none, none, d => d

/-- The check of an ensemble against the descriptors of the plan of its kind, each four words: the first node at fault (R256). -/
def ensPlanFault (w : List W) (plan : List (List W)) : Option Nat :=
  if plan.length < ensFeats w then some 3
  else (List.range (ensNodes w)).find? (fun i =>
    let n := ensNode w i
    nodeType n != 2 && nodeFmt n != wf (plan.getD (nodeFeature n) []) 0 26 25)

/-! ### Weights (R283). -/

def wgtFmt (w : List W) : Nat := wf w 0 27 24
def wgtRows (w : List W) : Nat := wf w 1 31 16
def wgtCols (w : List W) : Nat := wf w 1 15 0

/-- The bytes a weights section holds after its header. -/
def wgtBytes (w : List W) : Nat :=
  let kb := (wgtRows w + 31) / 32
  let scales := (wgtCols w * kb + 15) / 16 * 16
  match wgtFmt w with
  | 3 => scales + wgtCols w * kb * 16
  | 4 => 2 * wgtRows w * wgtCols w
  | 5 => 4 * wgtRows w * wgtCols w
  | _ => scales + wgtCols w * kb * 32

/-- The words of a WEIGHTS section of `len` bytes obey R283. -/
def wgtForm (w : List W) (len : Nat) : Bool :=
  decide (wf w 0 31 28 = 1 ∧ wgtFmt w ≤ 5 ∧ wf w 0 23 0 = 0 ∧ 1 ≤ wgtRows w ∧ wgtRows w ≤ 4096 ∧ 1 ≤ wgtCols w ∧ wgtCols w ≤ 4096)
  && (List.range 6).all (fun i => word w (2 + i) == 0) && decide (32 + wgtBytes w ≤ len)

/-- KiB of a weight area that a section takes. -/
def wgtKib (w : List W) : Nat := (4 * w.length + 1023) / 1024

/-! ### Programs (R284 to R288). -/

def prgKind (w : List W) : Nat := wf w 0 27 27
def prgPre (w : List W) : Bool := bit (word w 0) 26
def prgTiles (w : List W) : Nat := wf w 0 25 21 + 1
def prgOuts (w : List W) : Nat := wf w 0 20 17 + 1
def prgOps (w : List W) : Nat := wf w 0 10 0
def prgLayout (w : List W) : Nat := wf w 1 31 16
def prgState (w : List W) : Nat := wf w 1 15 0

/-- One operation (R285). -/
structure PrgOp where
  code : Nat
  func : Nat
  sect : Nat
  out : Nat
  a : Nat
  b : Nat
  c : W
  n : Nat
  k : Nat                          -- or `first`
  deriving DecidableEq, Repr

def prgOp (w : List W) (i : Nat) : PrgOp :=
  let o := (w.drop (8 + 4 * i)).take 4
  { code := wf o 0 31 24, func := wf o 0 23 20, sect := wf o 0 19 16, out := wf o 1 31 16, a := wf o 1 15 0, b := wf o 2 31 16,
    c := word o 2, n := wf o 3 31 20, k := wf o 3 19 8 }

def prgAll (w : List W) : List PrgOp := (List.range (prgOps w)).map (prgOp w)

/-- The tensors an operation reads and the one it writes, each (offset, columns) in units of 256 bytes. -/
def PrgOp.reads (o : PrgOp) : List (Nat × Nat) :=
  match o.code with
  | 0x03 => [(o.a, o.n)]
  | 0x04 => [(o.a, o.n)]
  | 0x05 => [(o.a, o.k)]
  | 0x06 => [(o.a, o.n)]
  | 0x07 => [(o.a, o.n), (o.b, o.n)]
  | 0x08 => [(o.a, o.n), (o.b, o.n)]
  | 0x09 => [(o.a, o.n), (o.b, o.n)]
  | 0x0A => [(o.a, o.n)]
  | 0x0B => [(o.a, o.n)]
  | 0x0D => [(o.a, o.n)]
  | 0x0E => [(o.a, o.n)]
  | _ => []

def PrgOp.writes (o : PrgOp) : List (Nat × Nat) :=
  if o.code = 0x0B then [(o.out, 1)]
  else if [0x01, 0x02, 0x05, 0x06, 0x07, 0x08, 0x09, 0x0A, 0x0C].contains o.code then [(o.out, o.n)] else []

def funcMax (code : Nat) : Nat :=
  match code with
  | 0x04 => 15
  | 0x05 => 1
  | 0x06 => 5
  | 0x0B => 3
  | _ => 0

/-- One operation obeys R285 to R287, but for the counts of EMIT; `feats` is the descriptor count of the plan of the kind and
`external` says which columns are EXTERNAL. -/
def opForm (img prog : List W) (feats : Nat) (external : Nat → Bool) (i : Nat) : Bool :=
  let w := (prog.drop (8 + 4 * i)).take 4
  let o := prgOp prog i
  let clash (x y : Nat × Nat) : Bool := decide (x.1 < y.1 + y.2 ∧ y.1 < x.1 + x.2)
  let usesB := [0x05, 0x07, 0x08, 0x09].contains o.code

  let ws := sectWords img o.sect
  decide (1 ≤ o.code ∧ o.code ≤ 0x0E ∧ o.func ≤ funcMax o.code ∧ wf w 0 15 0 = 0 ∧ wf w 3 7 0 = 0 ∧ 1 ≤ o.n ∧ o.n ≤ 2048)
  && (!usesB || decide (wf w 2 15 0 = 0))
  && (o.reads ++ o.writes).all (fun t => decide (t.1 + t.2 ≤ 2048))
  && o.writes.all (fun x => o.reads.all (fun y => !clash x y))
  && (match o.code with
    | 0x01 => decide (o.k + o.n ≤ feats)
    | 0x02 => decide (4 * (o.k + o.n) ≤ prgState prog)
    | 0x03 => decide (4 * (o.k + o.n) ≤ prgState prog)
    | 0x04 => decide (4 * (o.k + (o.func + 1) * o.n) ≤ prgState prog)
    | 0x05 => decide (o.sect < (sectsOf img).length ∧ (sectAt img o.sect).kind = 2 ∧ wgtRows ws = o.k ∧ wgtCols ws = o.n) &&
        (o.func == 0 || (decide (o.b < (sectsOf img).length ∧ (sectAt img o.b).kind = 2) &&
          decide (wgtFmt (sectWords img o.b) = 5 ∧ wgtRows (sectWords img o.b) = 1 ∧ wgtCols (sectWords img o.b) = o.n)))
    | 0x0C => !prgPre prog && decide (o.sect < (sectsOf img).length ∧ (sectAt img o.sect).kind = 1 ∧
        ensKind ws = prgKind prog ∧ ensOuts ws = o.n)
    | 0x0D => prgPre prog && (List.range o.n).all (fun j => external (o.k + j))
    | 0x0E => !prgPre prog && decide (o.n = prgOuts prog)
    | _ => true)

/-- The first operation of a program that breaks R287; a fault of its header or of its EMIT count names operation 0. -/
def prgFault (img prog : List W) (feats : Nat) (external : Nat → Bool) : Option Nat :=
  let n := prgOps prog
  let emits := (prgAll prog).countP (fun o => o.code == 0x0E)
  if wf prog 0 31 28 ≠ 1 ∨ wf prog 0 16 11 ≠ 0 ∨ n = 0 ∨ 1024 < n ∨ prog.length < 8 + 4 * n ∨ 4096 < prgState prog ∨
      prgState prog % 16 ≠ 0 ∨ (prgState prog = 0 ∧ prgLayout prog ≠ 0) ∨ (List.range 6).any (fun i => word prog (2 + i) != 0) then some 0
  else match (List.range n).find? (fun i => !opForm img prog feats external i) with
    | some i => some i
    | none => if emits = b2n (!prgPre prog) then none else some 0

/-- The cost of an operation in tile-cycles, by the format of its weights (R288). -/
def opCost (img : List W) (o : PrgOp) : Nat :=
  match o.code with
  | 0x05 =>
    let fmt := wgtFmt (sectWords img o.sect)
    (o.n + 63) / 64 * (if fmt = 3 then (o.k + 1) / 2 else if fmt = 4 then 4 * o.k else o.k) + 64
  | 0x01 => (o.n + 15) / 16 + 64
  | 0x02 => (o.n + 15) / 16 + 64
  | 0x03 => (o.n + 15) / 16 + 64
  | 0x04 => (o.n * (o.func + 1) + 15) / 16 + 64
  | 0x0D => (o.n + 15) / 16 + 64
  | 0x0C => 16
  | _ => (o.n + 63) / 64 + 16

/-- c_b of a program. -/
def batchCost (img prog : List W) : Nat := ((prgAll prog).map (opCost img)).sum

/-- The sections of weights and biases that a program uses. -/
def prgWeights (prog : List W) : List Nat :=
  ((prgAll prog).flatMap (fun o => if o.code = 0x05 then (if o.func = 1 then [o.sect, o.b] else [o.sect]) else [])).eraseDups

/-- KiB of weight area that a program needs on each of its tiles (R273, R283). -/
def prgKib (img prog : List W) : Nat := ((prgWeights prog).map (fun i => wgtKib (sectWords img i))).sum

/-- Pages of 2 MiB that a length takes. -/
def pagesOf (bytes : Nat) : Nat := (bytes + 2 ^ 21 - 1) / 2 ^ 21

/-- Pages of per-entity state a set of sections takes (R295). -/
def imgStatePages (img : List W) (detCost : Nat) : Nat :=
  (((sectsOf img).filter (fun s => s.kind == 3)).map (fun s =>
    let p := s.words img
    if prgState p = 0 then 0 else pagesOf ((16 + prgState p) * detCost))).sum

end Sys2Proof.Machine
end

