-- ==== Sys2Proof/Machine/PodRec.lean ====
section
/-!
DEFINITION. The arithmetic of reduction and its record: sections, BS16, combining, the tree, coding and decoding
(R211, R215 to R218, R222 to R225).
-/
namespace Sys2Proof.Machine

/-! ### What a cell is under a Pod plan. -/

/-- The mode, signed, w and metric bits of a cell of the cell map (R381): 0 where the plan leaves it OFF. -/
def PodPlan.cellBits (p : PodPlan) (n : Nat) : Nat := aGetD p.cells n 0

def PodPlan.mode (p : PodPlan) (n : Nat) : Nat := bits (p.cellBits n) 15 13
def PodPlan.isSigned (p : PodPlan) (n : Nat) : Bool := decide (bits (p.cellBits n) 12 12 = 1)

/-- What combining needs to know of a cell: 0 OFF, 1 counting, 2 VALUE unsigned, 3 VALUE signed. -/
def PodPlan.kindOf (p : PodPlan) (n : Nat) : Nat :=
  match p.mode n with
  | 0 => 0
  | 4 => if p.isSigned n then 3 else 2
  | _ => 1

/-- The 64 cells of a cluster. -/
def PodPlan.kinds (p : PodPlan) (c : Nat) : List Nat := (List.range 64).map (fun i => p.kindOf (64 * c + i))

/-- vmask of a block (R216). -/
def vmaskOf (kinds : List Nat) (b : Nat) : Nat :=
  ((List.range 16).map (fun j => if 2 ≤ kinds.getD (16 * b + j) 0 then 2 ^ j else 0)).sum

/-- A block in which no cell is VALUE (R219). -/
def blockEmpty (kinds : List Nat) (b : Nat) : Bool := decide (vmaskOf kinds b = 0)

/-! ### BS16 (R216 to R218). -/

/-- sat24: the value held, and whether it was. -/
def sat24 (q : Int) : Int × Bool :=
  let c := clampInt (-(2 ^ 23)) (2 ^ 23 - 1) q
  (c, decide (c ≠ q))

/-- to_mant of R217: nearest, ties to even. -/
def toMant (v : Int) (p : Nat) : Int × Bool :=
  if p ≤ 23 then sat24 (v * 2 ^ (23 - p))
  else
    let s := p - 23
    let q := v / 2 ^ s
    let r := v - q * 2 ^ s
    let half : Int := 2 ^ (s - 1)
    sat24 (if half < r ∨ (r = half ∧ q % 2 = 1) then q + 1 else q)

/-- The magnitude exponent: the smallest x with |v| < 2^x (R217). -/
def magExp (v : Int) : Nat := if v = 0 then 0 else Nat.log2 v.natAbs + 1

/-- Two blocks of one exponent (R218). -/
def Bs16.combine (a b : Bs16) : Bs16 :=
  let r := a.m.zipWith (fun x y => sat24 (x + y)) b.m
  { a with m := r.map Prod.fst, ovf := a.ovf || b.ovf || r.any Prod.snd }

/-- The 13 words of a block (R216). -/
def Bs16.words (b : Bs16) : List W :=
  pack [(b.exp, 31, 24), (b2n b.ovf, 23, 23), (b.vmask, 15, 0)] ::
    wordsOf (b.m.flatMap (fun m =>
      let t := toTwos 24 m
      [BitVec.ofNat 8 (t / 65536), BitVec.ofNat 8 (t / 256), BitVec.ofNat 8 t]))

/-- A block read from its words. -/
def bs16Of (ws : List W) : Bs16 :=
  { exp := wf ws 0 31 24, ovf := bit (word ws 0) 23, vmask := wf ws 0 15 0
    m := (List.range 16).map (fun j =>
      ofTwos 24 (byteAt ws (4 + 3 * j) * 65536 + byteAt ws (5 + 3 * j) * 256 + byteAt ws (6 + 3 * j))) }

/-! ### Sections (R215). -/

/-- Held at 2^63 - 1 (R215). -/
def hold63 (n : Nat) : Nat := min n (2 ^ 63 - 1)

/-- The empty extremes of a VALUE cell as its 64 bits carry them (R84). -/
def emptyExt (kind : Nat) : Nat := if kind = 3 then 0x7FFF8000 else if kind = 2 then 0xFFFF0000 else 0

/-- The identity of every section (R215). -/
def Sections.identity (kinds : List Nat) (exps : List Nat) : Sections :=
  { sum := List.replicate 64 0, ext := kinds.map emptyExt,
    blocks := (List.range 4).map (fun b =>
      { exp := exps.getD b 0, ovf := false, vmask := vmaskOf kinds b, m := List.replicate 16 0 }),
    xmax := [0, 0, 0, 0], satUnion := 0, hist := List.replicate 16 0, tally := [0, 0, 0, 0, 0, 0, 0, -32768] }

/-- The extremes of one cell combined. -/
def combineExt (kind a b : Nat) : Nat :=
  if kind ≤ 1 then max a b
  else
    let rd (x : Nat) : Int := if kind = 3 then ofTwos 16 x else (x % 65536 : Nat)
    let lo := min (rd (a / 65536)) (rd (b / 65536))
    let hi := max (rd a) (rd b)
    toTwos 16 lo * 65536 + toTwos 16 hi

/-- Two inputs combined, the left one first; whether a sum was held (R215). -/
def Sections.combine (kinds : List Nat) (a b : Sections) : Sections × Bool :=
  let sums := a.sum.zipWith (· + ·) b.sum
  let bins := a.hist.zipWith (· + ·) b.hist
  let ts := (a.tally.take 7).zipWith (· + ·) (b.tally.take 7)
  let beyond (l : List Nat) : Bool := l.any (fun x => decide (2 ^ 63 - 1 < x))
  ({ sum := sums.map hold63
     ext := (kinds.zip (a.ext.zip b.ext)).map (fun (p : Nat × Nat × Nat) => combineExt p.1 p.2.1 p.2.2)
     blocks := a.blocks.zipWith Bs16.combine b.blocks
     xmax := a.xmax.zipWith max b.xmax
     satUnion := a.satUnion ||| b.satUnion
     hist := bins.map hold63
     tally := ts.map (fun x => min x (2 ^ 63 - 1)) ++ [max (a.tally.getD 7 (-32768)) (b.tally.getD 7 (-32768))] },
    beyond sums)

/-! ### Contributions as inputs (R99, R100, R217). -/

/-- Fields of a contribution. -/
def cCtx (ws : List W) : Nat := wf ws 0 31 16
def cGen (ws : List W) : Nat := wf ws 0 15 8
def cCluster (ws : List W) : Nat := wf ws 0 5 0
def cIncomplete (ws : List W) : Bool := bit (word ws 2) 31
def cFenced (ws : List W) : Bool := bit (word ws 2) 30
def cFrost (ws : List W) : Bool := bit (word ws 2) 29
def cReplay (ws : List W) : Bool := bit (word ws 2) 28
def cAge (ws : List W) : Nat := wf ws 2 27 20
def cRank (ws : List W) : Nat := wf ws 2 19 0
def cCfgSeq (ws : List W) : Nat := wf ws 3 23 20
def cDie (ws : List W) : Nat := wf ws 3 19 0
def cDoms (ws : List W) : Nat := wf ws 4 31 16
def cFlagHi (ws : List W) : Nat := wf ws 4 15 8
def cFlagLo (ws : List W) : Nat := wf ws 4 7 0
def cSat (ws : List W) : Nat := dword ws 5
def cCell (ws : List W) (i : Nat) : Nat := dword ws (8 + 2 * i)

/-- crc of a contribution holds (R101). -/
def cSound (ws : List W) : Bool := word ws 7 == crcWords (ws.take 7 ++ ws.drop 8)

/-- The signed sum of a VALUE cell. -/
def cValue (ws : List W) (i : Nat) : Int := ofTwos 32 (cCell ws i / 2 ^ 32)

/-- A contribution as the CELL input of its Pod (R215, R217). -/
def cellInput (kinds exps : List Nat) (ws : List W) : Sections :=
  let idx := List.range 64
  let block (b : Nat) : Bs16 :=
    let r := (List.range 16).map (fun j =>
      if 2 ≤ kinds.getD (16 * b + j) 0 then toMant (cValue ws (16 * b + j)) (exps.getD b 0) else ((0 : Int), false))
    { exp := exps.getD b 0, ovf := r.any Prod.snd, vmask := vmaskOf kinds b, m := r.map Prod.fst }
  let biggest (b : Nat) : Nat := ((List.range 16).map (fun j =>
      if 2 ≤ kinds.getD (16 * b + j) 0 then magExp (cValue ws (16 * b + j)) else 0)).foldl max 0
  { Sections.identity kinds exps with
    sum := idx.map (fun i => if kinds.getD i 0 = 1 then cCell ws i else 0)
    ext := idx.map (fun i => match kinds.getD i 0 with
      | 0 => 0
      | 1 => cCell ws i
      | _ => cCell ws i % 2 ^ 32)
    blocks := (List.range 4).map block
    xmax := (List.range 4).map biggest
    satUnion := cSat ws }

/-- The fenced input of R95 and R406 carries no cell: the identity, present. -/
def fencedInput (kinds exps : List Nat) (ws : List W) : Sections :=
  { Sections.identity kinds exps with satUnion := cSat ws }

/-! ### HIST (R225). -/

def histEnabled (d : List W) : Bool := bit (word d 0) 31
def histField (d : List W) : Nat := wf d 0 30 29
def histShift (d : List W) : Nat := wf d 0 28 24
def histWlog (d : List W) : Nat := wf d 0 23 20
def histCell (d : List W) : Nat := wf d 0 11 0

/-- The field of a cell of a contribution as a number (R106, R225): value or sum, minimum, maximum. -/
def cField (kind : Nat) (ws : List W) (i field : Nat) : Int :=
  if kind ≤ 1 then (cCell ws i : Nat)
  else
    let rd (x : Nat) : Int := if kind = 3 then ofTwos 16 x else (x % 65536 : Nat)
    if field = 0 then cValue ws i else if field = 1 then rd (cCell ws i / 65536) else rd (cCell ws i)

/-- The bin of a contribution under a descriptor (R106, R225): q is shifted and clamped to 32 bits of its type. -/
def histBin (d : List W) (kind : Nat) (ws : List W) : Nat :=
  let x := cField kind ws (histCell d % 64) (histField d) / 2 ^ histShift d
  let q := if kind = 3 then clampInt (-(2 ^ 31)) (2 ^ 31 - 1) x else clampInt 0 (2 ^ 32 - 1) x
  let base : Int := if kind = 3 then ofTwos 32 (word d 1).toNat else ((word d 1).toNat : Int)
  let y := q - base
  if y < 0 then 0 else min 15 (y.toNat / 2 ^ histWlog d)

/-- A contribution as a HIST input. -/
def histInput (kinds exps : List Nat) (d : List W) (ws : List W) : Sections :=
  let b := histBin d (kinds.getD (histCell d % 64) 0) ws
  { Sections.identity kinds exps with
    hist := (List.range 16).map (fun i => if !cFenced ws && decide (i = b) then 1 else 0) }

/-! ### The tree (R211). -/

/-- One height: pairs combined left then right, an odd last input passed up unchanged. -/
def treeRound {α : Type} (f : α → α → α) : List α → List α
  | a :: b :: r => f a b :: treeRound f r
  | l => l

/-- The tree over inputs in position order; at most `fuel` heights. -/
def treeFold {α : Type} (f : α → α → α) : Nat → List α → List α
  | 0, l => l
  | n + 1, l => if l.length ≤ 1 then l else treeFold f n (treeRound f l)

/-- ceil(log2 n), 0 for n at most 1. -/
def clog2 (n : Nat) : Nat := if n ≤ 1 then 0 else Nat.log2 (n - 1) + 1

/-! ### Absence entries (R224). -/

/-- Entries in ascending (height, node_index); one node's are one entry. -/
def mergeAbsences (a b : List Absence) : List Absence :=
  sortBy (fun (e : Absence) => e.height * 4096 + e.node) (a ++ b)

/-- The ten words of an entry. -/
def Absence.words (e : Absence) : List W :=
  [pack [(e.height, 31, 28), (e.node, 27, 16), (e.causes, 7, 0)], pack [(e.count, 31, 16)]] ++
    (List.range 8).map (fun i => w32 (e.bitmap / 2 ^ (32 * (7 - i))))

def absenceOf (ws : List W) : Absence :=
  { height := wf ws 0 31 28, node := wf ws 0 27 16, causes := wf ws 0 7 0, count := wf ws 1 31 16,
    bitmap := ((List.range 8).map (fun i => (word ws (2 + i)).toNat * 2 ^ (32 * (7 - i)))).sum }

/-! ### Combining two records of one key (R212, R215, R222, R223). -/

/-- Some block overflowed (R218). -/
def PodRec.overflow (r : PodRec) : Bool := r.sec.blocks.any (·.ovf)

/-- Two child results: the left one first. `height` and `node` name the node that combines. -/
def PodRec.combine (kinds : List Nat) (height node : Nat) (a b : PodRec) : PodRec :=
  let s := Sections.combine kinds a.sec b.sec
  { a with
    height, node, sec := s.1
    fenced := a.fenced || b.fenced, incomplete := a.incomplete || b.incomplete, frost := a.frost || b.frost
    anySat := a.anySat || b.anySat || s.2
    expected := a.expected + b.expected, present := a.present + b.present
    entries := mergeAbsences a.entries b.entries, trunc := a.trunc || b.trunc
    digest := if a.kind = 0 then crcPair a.digest b.digest else 0 }

/-! ### The record's words (R222, R223). -/

/-- The payload by kind. -/
def PodRec.payload (r : PodRec) : List W :=
  match r.kind with
  | 0 => r.sec.sum.flatMap twoWords ++ r.sec.ext.flatMap twoWords ++ r.sec.blocks.flatMap Bs16.words ++
      [pack [(r.sec.xmax.getD 0 0, 31, 24), (r.sec.xmax.getD 1 0, 23, 16), (r.sec.xmax.getD 2 0, 15, 8),
        (r.sec.xmax.getD 3 0, 7, 0)]] ++ twoWords r.sec.satUnion ++ [0]
  | 1 => r.sec.hist.flatMap twoWords
  | _ => r.sec.tally.flatMap (fun t => twoWords (toTwos 64 t))

/-- Four values of 8 bits in one word, block 0 first. -/
def fourBytes (l : List Nat) : W :=
  pack [(l.getD 0 0, 31, 24), (l.getD 1 0, 23, 16), (l.getD 2 0, 15, 8), (l.getD 3 0, 7, 0)]

def fourOf (w : W) : List Nat := [fld w 31 24, fld w 23 16, fld w 15 8, fld w 7 0]

/-- The header words 0 to 14. -/
def PodRec.header (r : PodRec) : List W :=
  let p := r.payload
  [pack [(1, 31, 28), (r.kind, 27, 26), (b2n r.final, 25, 25), (r.gen, 23, 16), (r.ctx, 15, 0)], w32 r.frame, w32 r.epoch,
    pack [(r.index, 31, 16), (r.index % 16, 15, 12)], w32 r.seq,
    pack [(r.height, 31, 28), (r.node, 27, 16), (r.rerun, 15, 12)],
    pack [(b2n r.late, 31, 31), (b2n r.overflow, 30, 30), (b2n (r.trunc || decide (64 < r.entries.length)), 29, 29),
      (b2n r.fenced, 28, 28), (b2n r.incomplete, 27, 27), (b2n r.frost, 26, 26), (b2n r.anySat, 25, 25)],
    w32 r.expected, w32 r.present, pack [(min 64 r.entries.length, 31, 16), (4 * p.length, 15, 0)]] ++
    twoWords r.digest ++ [fourBytes r.nextExp, fourBytes r.bump, 0]

/-- The whole record: header with its crc, payload, at most 64 absence entries. -/
def PodRec.words (r : PodRec) : List W :=
  let tail := r.payload ++ (r.entries.take 64).flatMap Absence.words
  r.header ++ [crcWords (r.header ++ tail)] ++ tail

/-- crc of a record holds (R222). -/
def recSound (ws : List W) : Bool := word ws 15 == crcWords (ws.take 15 ++ ws.drop 16)

/-- What the header of a record says (R222), its sections and absence entries apart. -/
def recHead (ws : List W) : PodRec :=
  let flag (i : Nat) : Bool := bit (word ws 6) i
  { kind := wf ws 0 27 26, final := bit (word ws 0) 25, ctx := wf ws 0 15 0, gen := wf ws 0 23 16, frame := (word ws 1).toNat,
    epoch := (word ws 2).toNat, index := wf ws 3 31 16, seq := (word ws 4).toNat, height := wf ws 5 31 28,
    node := wf ws 5 27 16, rerun := wf ws 5 15 12, late := flag 31, trunc := flag 29, fenced := flag 28,
    incomplete := flag 27, frost := flag 26, anySat := flag 25, expected := (word ws 7).toNat,
    present := (word ws 8).toNat, entries := [], digest := dword ws 10, nextExp := fourOf (word ws 12), bump := fourOf (word ws 13)
    sec := .identity [] [] }

/-- A record read from its words; its form must be that of R222. -/
def podRecOf (ws : List W) : Option PodRec :=
  let kind := wf ws 0 27 26
  let n := wf ws 9 31 16
  let plen := if kind = 0 then 312 else if kind = 1 then 32 else 16
  if wf ws 0 31 28 ≠ 1 ∨ kind = 3 ∨ 64 < n ∨ wf ws 9 15 0 ≠ 4 * plen ∨ ws.length < 16 + plen + 10 * n then none
  else
    let p := ws.drop 16
    let nums (k from_ : Nat) : List Nat := (List.range k).map (fun i => dword p (from_ + 2 * i))
    let sec : Sections :=
      { sum := if kind = 0 then nums 64 0 else List.replicate 64 0
        ext := if kind = 0 then nums 64 128 else List.replicate 64 0
        blocks := if kind = 0 then (List.range 4).map (fun b => bs16Of (p.drop (256 + 13 * b))) else []
        xmax := if kind = 0 then fourOf (word p 308) else [0, 0, 0, 0]
        satUnion := if kind = 0 then dword p 309 else 0
        hist := if kind = 1 then nums 16 0 else List.replicate 16 0
        tally := if kind = 2 then (nums 8 0).map (fun x => ofTwos 64 x) else [] }
    some { recHead ws with entries := (List.range n).map (fun i => absenceOf (p.drop (plen + 10 * i))), sec }

end Sys2Proof.Machine
end

