-- ==== Sys2Proof/Machine/PodTree.lean ====
section
/-!
DEFINITION. Membership and plans at a frame, tray positions and aggregator ranks, the tray node, the nodes of the fabric
tree and the exponents (R21 to R26, R207 to R213, R219, R222 to R226, R407).
-/
namespace Sys2Proof.Machine

/-! ### Membership and plans at a frame (R24, R26). -/

/-- One accepted change applied to a membership. -/
def applyChange (ms : List Member) (c : Change) : List Member :=
  match c.op with
  | 0 => ms ++ [{ rank := c.rank, die := c.die }]
  | 1 => ms.filter (fun m => m.rank != c.rank)
  | _ => ms.map (fun m => if m.rank = c.rank then { m with die := c.die } else m)

/-- The membership that will stand at a frame, as accepted so far. -/
def Ctx.membersAt (c : Ctx) (f : Nat) : List Member :=
  (sortBy (fun (x : Change) => x.front) (c.changes.filter (fun x => decide (x.front ≤ f)))).foldl applyChange c.members

/-- The Fronts by a frame that change the membership, its start apart: the epoch rises once for each (R23, R26). -/
def Ctx.rises (c : Ctx) (f : Nat) : Nat :=
  ((c.changes.map (·.front)).filter (fun x => decide (x ≤ f ∧ c.start < x))).eraseDups.length

/-- The epoch that will stand at a frame, as accepted so far. -/
def Ctx.epochAt (c : Ctx) (f : Nat) : Nat := (if c.state = .admitted then 1 else c.epoch) + c.rises f

/-- A Pod plan read from the words of its command (R208, R381): mask, sixteen descriptors, the cell map. -/
def podPlanOf (ws : List W) : PodPlan :=
  { mask := dword ws 0
    hists := (List.range 16).map (fun i => (ws.drop (2 + 4 * i)).take 4)
    cells := ((List.range 4096).map (fun n => (n, wf ws (66 + n / 2) (if n % 2 = 0 then 31 else 15) (if n % 2 = 0 then 16 else 0)))).filter
      (fun (p : Nat × Nat) => decide (bits p.2 15 13 ≠ 0)) }

/-- The latest plan of a kind due by a frame, in front order. -/
def Ctx.planDue (c : Ctx) (k : PlanKind) (f : Nat) : Option PendingPlan :=
  ((sortBy (fun (x : PendingPlan) => x.front) (c.pending.filter (fun x => x.kind == k && decide (x.front ≤ f)))).reverse).head?

/-- The Pod plan that will be in force for a frame. -/
def Ctx.podAt (c : Ctx) (f : Nat) : PodPlan :=
  match c.planDue .pod f with
  | some p => podPlanOf p.words
  | none => c.plans.pod

/-! ### Positions and ranks (R21). -/

/-- The tray's members in tray position order: those of its dies, by ascending context rank. -/
def CtxView.tray (v : CtxView) : List Member :=
  sortBy (fun (m : Member) => m.rank) (v.members.filter (fun m => (aGet v.masks m.die).isSome))

/-- The tray position of a die. -/
def CtxView.position (v : CtxView) (die : Nat) : Option Nat := firstIdx v.tray (fun m => m.die == die)

/-- The rank of a die in the frame. -/
def CtxView.rankOf (v : CtxView) (die : Nat) : Option Nat := (v.members.find? (fun m => m.die == die)).map (·.rank)

/-- The aggregators that host a member, in aggregator rank order. -/
def aggsOf (hostOf : Nat → Nat) (ms : List Member) : List Nat :=
  ((sortBy (fun (m : Member) => m.rank) ms).map (fun m => hostOf m.die)).eraseDups

/-- A contribution of a die to cluster c is expected (R208). -/
def CtxView.expects (v : CtxView) (die c : Nat) : Bool := decide (bits (aGetD v.masks die 0) c c = 1)

/-- The Pod indices that exist in a data frame (R207). -/
def PodPlan.indices (p : PodPlan) : List Nat :=
  (List.range 64).filter (fun c => decide (bits p.mask c c = 1)) ++
    ((List.range 16).filter (fun h => histEnabled (p.hists.getD h []))).map (· + 64) ++ [80]

/-- Pods of each channel in a data frame (R209). -/
def PodPlan.perChannel (p : PodPlan) : List Nat :=
  (List.range 16).map (fun ch => (p.indices.filter (fun i => i % 16 == ch)).length)

/-- The sequence number of a Pod (R209). -/
def CtxView.seqOf (v : CtxView) (i : Nat) : Nat :=
  (v.base.getD (i % 16) 0 + ((v.plans.pod.indices.filter (fun j => j % 16 == i % 16 && decide (j < i))).length)) % 2 ^ 32

/-- The kind of a Pod (R207). -/
def podKind (i : Nat) : Nat := if i < 64 then 0 else if i < 80 then 1 else 2

/-- The cluster whose contributions a Pod takes; none for TALLY. -/
def CtxView.podCluster (v : CtxView) (i : Nat) : Option Nat :=
  if i < 64 then some i else if i < 80 then some (histCell (v.plans.pod.hists.getD (i - 64) []) / 64) else none

/-! ### The tray node (R211, R222 to R226). -/

/-- An input of the tray tree: its sections, a held sum, its digest. -/
structure TrayInput where
  sec : Sections
  held : Bool
  digest : Nat
  deriving DecidableEq, Repr

def TrayInput.combine (kinds : List Nat) (a b : TrayInput) : TrayInput :=
  let s := Sections.combine kinds a.sec b.sec
  { sec := s.1, held := a.held || b.held || s.2, digest := crcPair a.digest b.digest }

/-- What the tray holds for an expected input: absent causes, or the contribution. -/
def FrameWork.inputOf (w : FrameWork) (die c : Nat) : Nat × Option Contribution :=
  if w.dead.contains (die, c) then (8, none)
  else match w.contribs.find? (fun x => x.die == die && x.cluster == c) with
    | none => (1, none)
    | some x => match x.taken with
      | .present => (0, some x)
      | .absent k => (2 ^ k, none)

/-- The counts of a TALLY Pod in the tray (R223). -/
def FrameWork.tallyOf (w : FrameWork) : Sections :=
  let es := w.evidence.filter (fun e => (w.view.position e.die).isSome)
  let sum (f : DieEvidence → Nat) : Int := ((es.map f).sum : Nat)
  let base := Sections.identity [] []
  { base with tally := [sum (·.matched), sum (·.mismatch), sum (·.invalid), sum (·.unchecked), sum (·.framing), sum (·.health),
      sum (·.faults), (es.filterMap (·.tMax)).foldl max (-32768)] }

/-- The tray result of a Pod from the inputs present (R211, R222, R223). `rank` is the aggregator rank. -/
def FrameWork.trayRecord (w : FrameWork) (rank : Nat) (p : Pod) : PodRec :=
  let v := w.view
  let base : PodRec :=
    { kind := podKind p.index, final := false, ctx := w.ctx, gen := w.gen, frame := w.frame, epoch := v.epoch,
      index := p.index, seq := p.seq, height := 0, node := rank, rerun := p.rerun, late := decide (p.rerun ≠ 0) || w.abandoned,
      trunc := false, fenced := false, incomplete := false, frost := false, anySat := false, expected := 0, present := 0,
      entries := [], digest := 0, nextExp := [0, 0, 0, 0], bump := [0, 0, 0, 0], sec := .identity [] [] }
  match v.podCluster p.index with
  | none =>
    let n := v.tray.length
    { base with sec := w.tallyOf, expected := n, present := n }
  | some c =>
    let kinds := v.plans.pod.kinds c
    let members := v.tray
    let take (m : Member) : Bool × Nat × Option Contribution :=
      if v.expects m.die c then (true, w.inputOf m.die c) else (false, 0, none)
    let ins := members.map take
    let section_ (x : Contribution) : Sections :=
      if p.index < 64 then
        if cFenced x.words then fencedInput kinds p.exps x.words else cellInput kinds p.exps x.words
      else histInput kinds p.exps (v.plans.pod.hists.getD (p.index - 64) []) x.words
    let none_ : TrayInput := { sec := .identity kinds p.exps, held := false, digest := 0 }
    let input (i : Bool × Nat × Option Contribution) : TrayInput :=
      match i.2.2 with
      | none => none_
      | some x => { sec := section_ x, held := false, digest := crc64xz (bytesOf (x.words.drop 8)) }
    let top := (treeFold (TrayInput.combine kinds) members.length (ins.map input)).headD none_
    let there := ins.filterMap (fun i => i.2.2)
    let gone := ((List.range ins.length).zip ins).filter (fun (q : Nat × Bool × Nat × Option Contribution) => q.2.1 && q.2.2.2.isNone)
    let entry : Absence :=
      { height := 0, node := rank, causes := (gone.map (fun q => q.2.2.1)).foldl (· ||| ·) 0, count := gone.length,
        bitmap := (gone.map (fun q => 2 ^ q.1)).sum }
    { base with
      sec := top.sec, digest := if p.index < 64 then top.digest else 0, anySat := top.held
      fenced := there.any (fun x => cFenced x.words), incomplete := there.any (fun x => cIncomplete x.words)
      frost := there.any (fun x => cFrost x.words)
      expected := ins.countP (·.1), present := there.length
      entries := if gone.isEmpty then [] else [entry] }

/-- Every expected input of the Pod has arrived or is known to be absent. -/
def FrameWork.trayReady (w : FrameWork) (p : Pod) : Bool :=
  match w.view.podCluster p.index with
  | none => false
  | some c => w.view.tray.all (fun m => !w.view.expects m.die c || decide ((w.inputOf m.die c).1 ≠ 1))

/-! ### The fabric tree (R212, R213, R407). -/

/-- The fabric tree of a context in a frame: aggregators in rank order, those fenced, and our own ID. -/
structure FabTree where
  aggs : List Nat
  fenced : List Nat
  own : Nat
  deriving DecidableEq, Repr

def FabTree.rank (t : FabTree) : Nat := (firstIdx t.aggs (· == t.own)).getD 0
def FabTree.height (t : FabTree) : Nat := clog2 t.aggs.length

/-- The ranks under a node. -/
def FabTree.span (t : FabTree) (h i : Nat) : List Nat :=
  (List.range t.aggs.length).filter (fun r => decide (i * 2 ^ h ≤ r ∧ r < (i + 1) * 2 ^ h))

/-- The standing host of a node: the unfenced aggregator of lowest rank under it (R407); without a fence that is the host
of R212. -/
def FabTree.host (t : FabTree) (h i : Nat) : Option Nat :=
  ((t.span h i).map (fun r => t.aggs.getD r 0)).find? (fun a => !t.fenced.contains a)

/-- We host the node of a height on our own path. -/
def FabTree.hosts (t : FabTree) (h : Nat) : Bool := t.host h (t.rank / 2 ^ h) == some t.own

/-- The other child of a node on our path exists. -/
def FabTree.sibling (t : FabTree) (h : Nat) : Option Nat :=
  let j := t.rank / 2 ^ (h - 1)
  let k := if j % 2 = 0 then j + 1 else j - 1
  if (t.span (h - 1) k).isEmpty then none else some k

/-- The aggregator a child result of height h comes from, when somebody unfenced stands for it. -/
def FabTree.childHost (t : FabTree) (h : Nat) : Option Nat := (t.sibling h).bind (fun k => t.host (h - 1) k)

/-- The height of the highest node we host. -/
def FabTree.top (t : FabTree) : Nat := ((List.range (t.height + 1)).filter t.hosts).foldl max 0

/-- Members of the frame that the aggregators under a node host. -/
def FabTree.membersUnder (t : FabTree) (hostOf : Nat → Nat) (ms : List Member) (h i : Nat) : Nat :=
  let under := (t.span h i).map (fun r => t.aggs.getD r 0)
  ms.countP (fun m => under.contains (hostOf m.die))

/-- An absent child as an input of its node (R222, R224, R226). -/
def absentChild (t : FabTree) (hostOf : Nat → Nat) (w : FrameWork) (p : Pod) (h cause : Nat) : PodRec :=
  let kinds := match w.view.podCluster p.index with
    | some c => w.view.plans.pod.kinds c
    | none => []
  let k := (t.sibling h).getD 0
  { kind := podKind p.index, final := false, ctx := w.ctx, gen := w.gen, frame := w.frame, epoch := w.view.epoch,
    index := p.index, seq := p.seq, height := h, node := k / 2, rerun := p.rerun, late := false, trunc := false,
    fenced := false, incomplete := false, frost := false, anySat := false,
    expected := t.membersUnder hostOf w.view.members (h - 1) k, present := 0,
    entries := [{ height := h, node := k / 2, causes := 2 ^ cause, count := 1, bitmap := 2 ^ (k % 2) }], digest := 0,
    nextExp := [0, 0, 0, 0], bump := [0, 0, 0, 0], sec := .identity kinds p.exps }

/-- Our result of height h - 1 combined with the other child at height h, the lower ranks on the left. -/
def joinChild (t : FabTree) (w : FrameWork) (p : Pod) (h : Nat) (mine other : PodRec) : PodRec :=
  let kinds := match w.view.podCluster p.index with
    | some c => w.view.plans.pod.kinds c
    | none => []
  let right := decide ((t.rank / 2 ^ (h - 1)) % 2 = 1)
  let r := if right then PodRec.combine kinds h (t.rank / 2 ^ h) other mine else PodRec.combine kinds h (t.rank / 2 ^ h) mine other
  { r with late := mine.late || other.late }

/-- The result climbs from its height as far as the children held allow (R212, R31): its new height. One that a node without a right
child passes up stays as it is. -/
def climb (t : FabTree) (hostOf : Nat → Nat) (w : FrameWork) (p : Pod) : Nat → Nat → PodRec → Nat × PodRec
  | 0, h, r => (h, r)
  | fuel + 1, h, r =>
    if t.height ≤ h then (h, r)
    else if !t.hosts (h + 1) then (h, r)
    else match t.sibling (h + 1) with
      | none => climb t hostOf w p fuel (h + 1) r
      | some _ =>
        match t.childHost (h + 1) with
        | none => climb t hostOf w p fuel (h + 1) (joinChild t w p (h + 1) r (absentChild t hostOf w p (h + 1) 0))
        | some _ =>
          match p.children.find? (fun c => c.height == h + 1) with
          | none => (h, r)
          | some c =>
            let other := match c.result with
              | some x => x
              | none => absentChild t hostOf w p (h + 1) c.cause
            climb t hostOf w p fuel (h + 1) (joinChild t w p (h + 1) r other)

/-- The children wholly fenced that a result has passed on its way from a height to another (R407). -/
def FabTree.fencedBetween (t : FabTree) (lo hi : Nat) : Nat :=
  (List.range hi).countP (fun k => decide (lo ≤ k) && (t.sibling (k + 1)).isSome && (t.childHost (k + 1)).isNone)

/-- A record as it leaves its node: one of a HIST Pod carries the digest that its cluster's CELL Pod has there, or 0 (R223). -/
def FrameWork.carry (w : FrameWork) (p : Pod) (height : Nat) (r : PodRec) : PodRec :=
  if r.kind ≠ 1 then r
  else
    let cell := (w.view.podCluster p.index).bind (fun c => w.pods.find? (fun q => q.index == c && q.rerun == 0))
    { r with digest := ((cell.filter (fun q => q.ownHeight == height)).bind (·.own)).elim 0 (·.digest) }

/-! ### Exponents (R219). -/

def hOf (members : Nat) : Nat := clog2 members + 2
def pMax (members : Nat) : Nat := 32 + hOf members

/-- next_exp and bump of a final CELL result of data frame M (R219): the plan and the members of M + 2. -/
def PodRec.agree (r : PodRec) (exps : List Nat) (later : PodPlan) (members : Nat) : PodRec :=
  if r.kind ≠ 0 then { r with final := true }
  else
    let kinds := later.kinds r.index
    { r with
      final := true
      nextExp := (List.range 4).map (fun b =>
        if blockEmpty kinds b then 0 else min (r.sec.xmax.getD b 0 + hOf members) (pMax members))
      bump := (List.range 4).map (fun b =>
        if (r.sec.blocks.map (·.ovf)).getD b false then exps.getD b 0 + 4 else 0) }

/-- P of the four blocks of a CELL Pod for data frame N, and the blocks taken at Pmax for want of a final (R219). -/
def agreedExps (v : CtxView) (start index : Nat) (emptyBefore : Nat → Bool) (final2 final1 : Option PodRec) :
    List Nat × Nat :=
  let m := v.members.length
  let kinds := v.plans.pod.kinds index
  let one (b : Nat) : Nat × Nat :=
    if blockEmpty kinds b then (0, 0)
    else if v.frame < start + 2 ∨ emptyBefore b then (pMax m, 0)
    else match final2, final1 with
      | some f2, some f1 => (min (pMax m) (max (f2.nextExp.getD b 0) (f1.bump.getD b 0)), 0)
      | _, _ => (pMax m, 1)
  let r := (List.range 4).map one
  (r.map Prod.fst, (r.map Prod.snd).sum)

/-- The exponents of a rerun (R221): min(P + 4, Pmax) in every block that holds a VALUE cell, then Pmax. -/
def rerunExps (exps : List Nat) (members rerun : Nat) : List Nat :=
  exps.map (fun p => if p = 0 then 0 else if rerun ≤ 1 then min (p + 4) (pMax members) else pMax members)

end Sys2Proof.Machine
end

