-- ==== Sys2Proof/Machine/ZaBase.lean ====
section
/-!
DEFINITION. What the commands of the ZA40 share: its time, registers and counters, contexts, dies and links, and the frames it
queues (R337 to R345, R357 to R360, R363, R413).
-/
namespace Sys2Proof.Machine

/-! ### Time, registers, counters. -/

def Za.frameNow (z : Za) : Nat := z.time.frameNow
def Za.nowNs (z : Za) : Nat := z.time.ns
def Za.now (z : Za) : Stamp := z.time.stamp

/-- A register word of the management space that writes may change. -/
def Za.reg (z : Za) (a : Nat) : W := regGet zaResetWord z.regs a
def Za.setReg (z : Za) (a : Nat) (w : W) : Za := { z with regs := regSet zaResetWord z.regs a w }

/-- jump_thr and slew_max (R181). -/
def Za.jumpThr (z : Za) : Nat := fld (z.reg 0x3000) 29 0
def Za.slewMax (z : Za) : Nat := fld (z.reg 0x3004) 9 0

/-- A status counter, `n` added; it saturates at 2^32 - 1. -/
def Za.count (z : Za) (c : ZCnt) (n : Nat := 1) : Za := { z with counters := bump z.counters c n }

def Za.cnt (z : Za) (c : ZCnt) : Nat := aGetD z.counters c 0

/-- The compute die is up and runs its firmware (R206, R458). -/
def Za.running (z : Za) : Bool := z.power.powered && !z.power.pinLow && decide (z.boot.phase = 4)

/-- Frozen by a FULL Frost (R424, R432). -/
def Za.frozenFull (z : Za) : Bool := decide (z.frost.state = 2) && z.frost.full

/-- The engines run: firmware, no FULL Frost, no Lull state. -/
def Za.enginesRun (z : Za) : Bool := z.running && !z.frozenFull && decide (z.power.lull = 0)

/-- Factory test mode (R445). -/
def Za.factory (z : Za) : Bool := z.power.strap

/-! ### Contexts. -/

def Za.ctx? (z : Za) (e : Nat) : Option Ctx := aGet z.ctxs e
def Za.modCtx (z : Za) (e : Nat) (f : Ctx → Ctx) : Za :=
  match z.ctx? e with
  | some c => { z with ctxs := aPut z.ctxs e (f c) }
  | none => z

/-- The entry of a resident context ID and generation (R17, R20). -/
def Za.entryOf (z : Za) (id gen : Nat) : Option Nat :=
  (z.ctxs.find? (fun (p : Nat × Ctx) => p.2.id == id && p.2.gen == gen)).map Prod.fst

/-- Job contexts resident here. -/
def Za.jobs (z : Za) : List (Nat × Ctx) := z.ctxs.filter (fun (p : Nat × Ctx) => p.1 != 0)

/-- The work of a context's data frame. -/
def Za.work? (z : Za) (e f : Nat) : Option FrameWork := z.works.find? (fun w => w.entry == e && w.frame == f)

/-- The work of a context in the running work frame: the newest. -/
def Za.work (z : Za) (e : Nat) : Option FrameWork := (z.works.filter (fun w => w.entry == e && !w.abandoned)).getLast?

def Za.modWork (z : Za) (e f : Nat) (g : FrameWork → FrameWork) : Za :=
  { z with works := modWhere z.works (fun w => w.entry == e && w.frame == f) g }

/-! ### Dies. -/

def Za.die? (z : Za) (die : Nat) : Option DieEntry := z.dies.find? (fun d => d.die == die)
def Za.modDie (z : Za) (die : Nat) (f : DieEntry → DieEntry) : Za :=
  { z with dies := modWhere z.dies (fun d => d.die == die) f }

/-- The aggregator that hosts a die: ourselves for the dies of our tray. -/
def Za.hostOf (z : Za) (die : Nat) : Nat :=
  if (z.die? die).isSome then z.aggId else Config.hostOf die % 4096

/-- The dies of the tray admitted and not fenced. -/
def Za.liveDies (z : Za) : List DieEntry := z.dies.filter (fun d => d.admitted && d.fenced.isNone)

/-! ### Ports and links (R337). -/

def portOf (p : Nat) : Nat := if p < 80 then p / 2 else p - 40
def Za.portW0 (z : Za) (P : Nat) : W := z.reg (0x8100 + 16 * P)
def Za.portSplit (z : Za) (P : Nat) : Bool := decide (P < 40) && bit (z.portW0 P) 30

/-- The link of the optical port that the boot ROM has powered for a source (R205). -/
def Za.bootOptical (z : Za) (p : Nat) : Bool :=
  decide ((z.boot.phase = 2 ∨ z.boot.phase = 3) ∧ z.boot.source = 2 ∧ p = 2 * z.boot.port)

/-- The face of a link: management ports are COLLECTOR; the upper half exists only on a split port. -/
def Za.face (z : Za) (p : Nat) : Nat :=
  if 80 ≤ p then 3
  else if z.bootOptical p then 2
  else if p % 2 = 0 then fld (z.portW0 (portOf p)) 23 22
  else if z.portSplit (portOf p) then fld (z.portW0 (portOf p)) 21 20 else 0

/-- The optics of a port are powered: those of the management ports always, the others by groups of five (R450, R466). -/
def Za.opticsOn (z : Za) (P : Nat) : Bool := decide (40 ≤ P) || z.power.rails.contains (7 + P / 5)

/-- The port of a link is on and powered, and the link exists on it. -/
def Za.linkOn (z : Za) (p : Nat) : Bool :=
  z.bootOptical p || z.opticsOn (portOf p) &&
    decide (p < 82) && bit (z.portW0 (portOf p)) 31 && (decide (80 ≤ p) || decide (p % 2 = 0) || z.portSplit (portOf p))

/-- The rate of a link in thousandths of a byte per ns. -/
def Za.rate1000 (z : Za) (p : Nat) : Nat := if 80 ≤ p then 3125 else if z.portSplit (portOf p) then 50000 else 100000

def Za.link (z : Za) (p : Nat) : ZaLink := aGetD z.links p .initial
def Za.modLink (z : Za) (p : Nat) (f : ZaLink → ZaLink) : Za := { z with links := aPut z.links p (f (z.link p)) }

/-- A link is up and not looped. -/
def Za.linkUp (z : Za) (p : Nat) : Bool := z.linkOn p && decide ((z.link p).state = 3)

/-- The links of a face that are up. -/
def Za.upLinks (z : Za) (face : Nat) : List Nat := (List.range 82).filter (fun p => z.face p == face && z.linkUp p)

/-- The endpoint pair a frame belongs to: a DTU's, or the link's own. -/
def Za.endOf (z : Za) (p : Nat) (die : Option Nat) : Endpoint :=
  match die.bind z.die? with
  | some d => d.ends
  | none => (z.link p).ends

def Za.modEnd (z : Za) (p : Nat) (die : Option Nat) (f : Endpoint → Endpoint) : Za :=
  match die.bind z.die? with
  | some d => z.modDie d.die (fun x => { x with ends := f x.ends })
  | none => z.modLink p (fun l => { l with ends := f l.ends })

/-- The pool a frame of a class uses: per VC on a DTU pair, per class otherwise (R350). -/
def poolOf (die : Option Nat) (cls : Nat) : Nat := if die.isSome then vcOf cls else cls

/-! ### Sending. -/

/-- A frame queued on a link: a class that had nothing waiting wakes its shaper (R359). -/
def Za.enqueue (z : Za) (p : Nat) (die : Option Nat) (f : TxFrame) : Za :=
  z.modLink p (fun l =>
    let idle := l.queue.all (fun q => q.frame.cls != f.cls)
    let shapers := if idle then modAt l.shapers f.cls (fun sh => sh.wake z.now) else l.shapers
    { l with shapers, queue := l.queue ++ [{ frame := f, at_ := z.nowNs, die }] })

/-- The frame of a message. -/
def mkTx (cls msg : Nat) (dest : Mac) (ctx gen plen : Nat) (body : List W) : TxFrame :=
  { cls, msg, dest, ctx := BitVec.ofNat 16 ctx, gen := BitVec.ofNat 8 gen, plen, body }

/-- A message of whole words. -/
def mkTxWords (cls msg : Nat) (dest : Mac) (ctx gen : Nat) (body : List W) : TxFrame :=
  mkTx cls msg dest ctx gen (4 * body.length) body

/-- A die stands under a LULL_HOLD (R464). -/
def Za.isHeld (z : Za) (d : DieEntry) : Bool := d.hold != 0 && decide (d.holdFrom ≤ z.frameNow)

/-- A frame to a DTU of the tray; one under a hold is sent only LINK and TIME frames (R464). -/
def Za.toDie (z : Za) (die cls msg ctx gen plen : Nat) (body : List W) : Za :=
  match z.die? die with
  | some d => if z.isHeld d ∧ cls ≠ 0 ∧ cls ≠ 6 then z else z.enqueue d.link (some die) (mkTx cls msg (dtuMac die) ctx gen plen body)
  | none => z

/-- The link toward an aggregator: the neighbour's, or a route (R344). -/
def Za.linkToward (z : Za) (agg : Nat) : Nat :=
  match (z.upLinks 2).find? (fun p => (z.link p).peerAgg == agg) with
  | some p => p
  | none => Config.nextHop agg % 82

/-- The address that names an aggregator on a link. -/
def Za.addrOf (z : Za) (p agg : Nat) : Mac :=
  match (z.link p).peer with
  | some m => if (z.link p).peerAgg = agg then m else linkMac agg (Config.aggLink agg % 82)
  | none => linkMac agg (Config.aggLink agg % 82)

/-- A class is used on links of a face (R343): RED and PARAM stay off COLLECTOR links, PEER off DTU links. -/
def faceCarries (face cls : Nat) : Bool :=
  match cls with
  | 3 => face == 1 || face == 2
  | 4 => face == 1
  | 7 => face == 2 || face == 3
  | _ => true

/-- A frame to another aggregator. One whose next hop lies on another tree is discarded and counted (R344; log entry 233). -/
def Za.toAgg (z : Za) (agg cls msg ctx gen plen : Nat) (body : List W) : Za :=
  let p := z.linkToward agg
  if faceCarries (z.face p) cls then z.enqueue p none (mkTx cls msg (z.addrOf p agg) ctx gen plen body)
  else z.count (.link .classMisuse p 0)

/-- ZA_TH_DEST (R339). -/
def Za.collectorMac (z : Za) : Mac := BitVec.ofNat 48 (fld (z.reg 0x8008) 15 0 * 2 ^ 32 + (z.reg 0x800C).toNat)

/-- The address of the unit at the far end of a link, as the ZA40 sends to it. -/
def Za.peerMac (z : Za) (p : Nat) : Mac :=
  if z.face p = 3 then z.collectorMac else ((z.link p).peer).getD myAggMac

/-- A frame to the peer of a link. -/
def Za.toPeer (z : Za) (p cls msg plen : Nat) (body : List W) : Za :=
  z.enqueue p none (mkTx cls msg (z.peerMac p) 0xFFFF 0 plen body)

/-- A frame to every COLLECTOR link that is up. -/
def Za.toCollectors (z : Za) (cls msg ctx gen plen : Nat) (body : List W) : Za :=
  (z.upLinks 3).foldl (fun z p => z.enqueue p none (mkTx cls msg z.collectorMac ctx gen plen body)) z

/-- A keomon frame for the host: its type and body; seq counts them (R388, R389). -/
def Za.toHost (z : Za) (kind : Nat) (body : List Byte) : Za :=
  { z with keomon := { z.keomon with txSeq := (z.keomon.txSeq + 1) % 256, out := z.keomon.out ++ [(kind, body)] } }

/-- A frame to whoever sent a command: keomon carries records in frames of its own; link 82 is this unit itself. -/
def Za.toRequester (z : Za) (req : Requester) (ctx gen : Nat) (rec_ : List W) : Za :=
  if req.link = 82 then z
  else if req.keomon then z.toHost 2 (bytesOf rec_)
  else
    let die := if z.face req.link = 1 then (z.dies.find? (fun d => dtuMac d.die == req.addr)).map (·.die) else none
    z.enqueue req.link die (mkTxWords clsCtrl 0x02 req.addr ctx gen rec_)

/-- A record put into FORWARD in the order of R363; the region keeps arrival order within a rank. -/
def Za.forwardPut (z : Za) (r : ForwardRec) : Za :=
  { z with forward := { z.forward with waiting := insertBy (fun (x : ForwardRec) => x.rank) r z.forward.waiting } }

/-- The BULK message code of a rank of FORWARD (R345). -/
def bulkMsg (rank : Nat) : Nat :=
  match rank with
  | 0 => 0x04
  | 1 => 0x05
  | 2 => 0x03
  | 3 => 0x02
  | _ => 0x01

/-- The rank in FORWARD of a BULK message code (R363). -/
def bulkRank (msg : Nat) : Nat :=
  match msg with
  | 4 => 0
  | 5 => 1
  | 3 => 2
  | 2 => 3
  | _ => 4

/-- A record for a subscriber of a context: its kind's bit of SUBSCRIBE must be set (R381). The message travels as the frame
that carries the record; keomon has one frame type for records (log entry 141). -/
def Za.toSubscribers (z : Za) (e kind cls msg : Nat) (body : List W) : Za :=
  match z.ctx? e with
  | none => z
  | some c =>
    (c.subs.filter (fun (s : Mac × Bool × Nat) => decide (bits s.2.2 kind kind = 1))).foldl (fun z s =>
      if s.2.1 then z.toHost 2 (bytesOf body)
      else (z.upLinks 3).foldl (fun z p => z.enqueue p none (mkTxWords cls msg s.1 c.id c.gen body)) z) z

/-! ### The rack (R413). -/

/-- Candidates that are not DEAD, in order of (priority, aggregator ID). -/
def Rack.candidates (r : Rack) : List RackUnit :=
  sortBy (fun (u : RackUnit) => u.priority * 4096 + u.agg) (r.units.filter (fun u => u.candidate && u.live != 3))

/-- The Region Manager as this ZA40 sees it, and the standby. -/
def Za.rmId (z : Za) : Nat :=
  match z.rack.deferTo with
  | some a => a
  | none => ((z.rack.candidates.head?).map (·.agg)).getD 0
def Za.standbyId (z : Za) : Nat := (((z.rack.candidates.filter (fun u => u.agg != z.rmId)).head?).map (·.agg)).getD 0

/-- This ZA40 acts as Region Manager. -/
def Za.isRm (z : Za) : Bool := z.rack.acting && !z.rack.units.isEmpty

/-- Role: 0 tray, 1 Region Manager, 2 standby. -/
def Za.role (z : Za) : Nat :=
  if z.rack.units.isEmpty then 0 else if z.isRm then 1 else if z.standbyId = z.aggId then 2 else 0

/-! ### Holdings and the context table (R195). -/

def Za.podsHeld (z : Za) (e : Nat) : Nat :=
  ((z.works.filter (fun w => w.entry == e)).map (fun w => w.pods.countP (·.slotted))).sum

def Za.syncHeld (z : Za) (c : Ctx) : Nat := z.syncs.countP (fun (p : Nat × SyncObj) => p.2.ctx == c.id && p.2.gen == c.gen)

/-- The context a handle is held for; none for the reserved handles (R196, R416). -/
def handleCtx (h : Handle) : Option (Nat × Nat) :=
  let id := fld h.cmd.w1 31 16
  let reserved := [Opcode.ctxAdmit, .ctxTeardown, .fence, .unfence, .readmit, .rebuild].contains h.cmd.op
  if id = 0xFFFF ∨ id = 0 ∨ reserved then none else some (id, fld h.cmd.w1 15 8)

def Za.handlesHeld (z : Za) (c : Ctx) : Nat := z.cmds.handles.countP (fun h => handleCtx h == some (c.id, c.gen))

/-- The handles outstanding for commands that name a context; those of the fabric context are reserved ones. -/
def Za.handlesOut (z : Za) (e : Nat) (c : Ctx) : Nat :=
  if e = 0 then z.cmds.handles.countP (fun h => decide (fld h.cmd.w1 31 16 = c.id ∧ fld h.cmd.w1 15 8 = c.gen)) else z.handlesHeld c

/-- The sixteen words of ZA_CTX[e]. -/
def Za.ctxWords (z : Za) (e : Nat) : List W :=
  match z.ctx? e with
  | none => List.replicate 16 0
  | some c =>
    [pack [(c.state.code, 31, 29), (c.gen, 23, 16), (c.id, 15, 0)], w32 c.epoch, w32 c.start, w32 (c.stop.getD 0),
      pack [(c.q.podMax, 25, 16), (c.q.podMin, 9, 0)], pack [(c.q.sync, 17, 0)], pack [(c.q.handles, 16, 0)],
      pack [(c.q.modelPages, 31, 16), (c.q.digestTables, 1, 0)], w32 c.q.ensCost, w32 c.q.tensorCost, w32 c.q.featCost,
      pack [(c.q.detCost, 15, 0)], pack [(c.q.ctlMin, 31, 16), (c.q.redMin, 15, 0)], pack [(z.podsHeld e, 25, 16)],
      pack [(z.syncHeld c, 17, 0)], pack [(z.handlesOut e c, 16, 0)]]

/-- The fabric tree of a view as this aggregator sees it (R407). -/
def Za.tree (z : Za) (v : CtxView) : FabTree :=
  { aggs := aggsOf z.hostOf v.members
    fenced := (z.rack.fencedAggs.filter (fun (p : Nat × Nat) => decide (p.2 ≤ z.time.begun))).map Prod.fst
    own := z.aggId }

end Sys2Proof.Machine
end

