-- ==== Sys2Proof/Machine/ZaStop.lean ====
section
/-!
DEFINITION. The Frost stop of the ZA40 (R427 to R434) and the raising of its faults (R393 to R398), which may issue one.
-/
namespace Sys2Proof.Machine

/-- The work of a long command has ended: its handle keeps the result for DONE_HANDLE (R374). -/
def Za.finish (z : Za) (handle : W) (r : Result) : Za :=
  if handle = 0 then z
  else
    { z with cmds := { z.cmds with
        handles := modWhere z.cmds.handles (fun h => h.handle == handle && h.done.isNone) (fun h => { h with done := some r }) } }

/-! ### The stop. -/

/-- The measured round trip of an endpoint pair: the largest of the last 64, 10,000 ns before the first (R353). -/
def Endpoint.roundTrip (e : Endpoint) : Nat := if e.rtt.isEmpty then 10000 else e.rtt.foldl max 0

/-- The endpoint pairs of a link: (peer, endpoint); DTUs are named by their die, other peers by aggregator. -/
def Za.pairs (z : Za) (p : Nat) : List (Nat × Endpoint) :=
  if z.face p = 1 then (z.dies.filter (fun d => d.link == p)).map (fun d => (d.die, d.ends))
  else [((z.link p).peerAgg, (z.link p).ends)]

/-- The round trip of a port: the largest of its pairs. -/
def Za.portRtt (z : Za) (p : Nat) : Nat := ((z.pairs p).map (fun e => e.2.roundTrip)).foldl max 0

/-- The counts of R429 for every link that takes part (R436: a looped port does not). -/
def Za.linkCounts (z : Za) : List (Nat × Nat × Nat × W × W) :=
  ((List.range 82).filter (fun p => z.linkOn p && decide (z.face p ≠ 0) && (z.link p).looped == 0)).flatMap (fun p =>
    (z.pairs p).flatMap (fun e => (List.range 8).map (fun c => (p, c, e.1, e.2.lseqTx.getD c 0, e.2.lseqRx.getD c 0))))

/-- The partial of a Pod as it stands. -/
def Za.partialNow (z : Za) (w : FrameWork) (p : Pod) : PodRec :=
  match p.own with
  | some r => r
  | none => match p.tray with
    | some r => r
    | none => w.trayRecord (z.tree w.view).rank p

/-- What a stop records (R429, R432). -/
def Za.snapshotNow (z : Za) : ZaSnapshot :=
  let full := z.frost.full
  { frame := z.frameNow, links := z.linkCounts
    pods := if full then z.works.flatMap (fun w =>
      (w.pods.filter (fun p => p.slotted)).map (fun p => ((z.partialNow w p).words).take 16)) else []
    syncs := if full then z.syncs.map (fun (s : Nat × SyncObj) => (s.1, s.2.overflow, s.2.value)) else []
    ctxs := if full then z.ctxs.map (fun (c : Nat × Ctx) => z.ctxWords c.1) else [] }

/-- The ZA40 stops (R428, R429): the counts are taken, the capture windows open. -/
def Za.stop (z : Za) (smear : Bool) : Za :=
  let window := ((List.range 82).map z.portRtt).foldl max 0 + 32768
  { z with frost := { z.frost with
      state := 2, smear, stopNs := z.nowNs, t := if smear then z.nowNs else z.frost.t, timeState := z.time.state.code
      snapshot := some z.snapshotNow, capture := [], capFull := false, spoiled := false, cutComplete := false
      windowEnd := some (z.nowNs + window) } }

/-- A Frost armed afresh: what the last one held goes (R435); the capture area takes its size (R430). -/
def Za.armed (z : Za) (frostId : W) (full : Bool) (t : Nat) : Za :=
  { z with frost := { ZaFrost.initial with
      state := 1, full, frostId, t, seen := z.frost.seen, capMib := fld (z.reg 0xA000) 9 0 } }

/-- The dies a Frost message goes to: those admitted and not fenced (R426). -/
def Za.frostDies (z : Za) : List Nat := z.liveDies.map (·.die)

/-- A Frost message to some DTUs. -/
def Za.frostSend (z : Za) (msg : Nat) (dies : List Nat) (instant : Nat) : Za :=
  dies.foldl (fun z die => z.toDie die clsFrost msg 0xFFFF 0 32 (frostBody z.frost.frostId z.frost.full 0 instant 0 0)) z

/-- A message begins to be repeated to the DTUs until each has acknowledged (R426, R433, R435). -/
def Za.frostBegin (z : Za) (msg instant : Nat) : Za :=
  let dies := z.frostDies
  let z := { z with frost := { z.frost with message := msg, targets := dies, acked := [], instant } }
  z.frostSend msg dies instant

/-- FROST_ARM's result: DTUs armed and not armed (R426). -/
def Za.armCounts (z : Za) : Result :=
  let n := z.frost.acked.length
  okValue (packNat [(n, 31, 16), (z.frost.targets.length - n, 15, 0)])

/-- Stop now (R433): an armed Frost is replaced, the unit stops, and NOW floods every link but the one it came in on. -/
def Za.stopNow (z : Za) (frostId : W) (full : Bool) (except : Option Nat) : Za :=
  let z := z.finish z.frost.armHandle z.armCounts
  let z := { z with frost := { z.frost with seen := z.frost.seen ++ [frostId] } }
  let z := (z.armed frostId full z.nowNs).stop true
  let z := z.frostBegin 0x03 z.nowNs
  ((z.upLinks 2).filter (fun p => except != some p)).foldl (fun z p =>
    z.toPeer p clsFrost 0x03 32 (frostBody frostId full 0 z.frost.stopNs 0 0)) z

/-! ### Faults of this ZA40. -/

/-- The quadrant of the unit a fault names, or 4 for the spine (R396). -/
def faultPlace (unitKind unit : Nat) : Nat :=
  match unitKind with
  | 3 => unit / 1024
  | 4 => unit / 8
  | 5 => unit / 4
  | 6 => unit
  | _ => 4

/-- A message held for its record (R396). The temperature is in the format of R143. -/
def Za.holdFault (z : Za) (m : BitVec 128) (ext : List W) : HeldFault :=
  let place := faultPlace (msgUnitKind m) (msgUnit m)
  { message := m, tNs := z.nowNs, temp := BitVec.ofNat 16 (16 * z.power.temps.getD place 0),
    vcore := Config.railReading (msgUnitKind m) (msgUnit m), repeats := 1, ext }

/-- An extension of exactly eight words (R398). -/
def extWords (ws : List W) : List W := (ws ++ List.replicate 8 0).take 8

/-- An entry of the fault log: 4,096 at most, the oldest dropped (R398). -/
def Za.logFault (z : Za) (record ext : List W) : Za :=
  { z with faultLog := ({ record, ext := extWords ext } :: z.faultLog).take 4096 }

/-- A record leaves (R396): into the fault log, toward the collectors, and to the Region Manager from DEGRADED on. -/
def Za.sendFault (z : Za) (f : HeldFault) : Za :=
  let rec_ := faultRecord f.message f.tNs f.temp f.vcore f.repeats (packNat [(1, 23, 23), (z.aggId, 11, 0)])
  let z := z.logFault rec_ f.ext
  let z := z.forwardPut { rank := 0, die := 0, ctx := 0xFFFF, gen := 0, words := rec_, plen := 32 }
  if 2 ≤ msgSeverity f.message ∧ !z.rack.units.isEmpty ∧ z.rmId ≠ z.aggId then
    z.toAgg z.rmId clsBulk 0x04 0xFFFF 0 32 rec_
  else z

/-- Every record held leaves at the tick (R396). -/
def Za.sendFaults (z : Za) : Za :=
  let held := z.faults
  held.foldl Za.sendFault { z with faults := [] }

/-- A fault is raised (R396): held until the next tick and merged with an identical one; FATAL leaves at once and a warm reset
follows (R392). A kind that ZA_FROST_CFG names stops the fabric (R434). -/
def Za.raiseMsg (z : Za) (m : BitVec 128) (ext : List W) : Za :=
  let z :=
    if msgSeverity m = 3 then
      let z := z.sendFault (z.holdFault m ext)
      { z with power := { z.power with warmDue := true } }
    else if z.faults.any (fun f => f.message == m) then
      { z with faults := modWhere z.faults (fun f => f.message == m) (fun f => { f with repeats := min 255 (f.repeats + 1) }) }
    else { z with faults := z.faults ++ [z.holdFault m ext] }
  let cfg := z.reg 0xA000
  if fld cfg 31 16 ≠ 0 ∧ fld cfg 31 16 = msgKind m ∧ z.frost.state ≠ 2 then
    z.stopNow (Config.autoFrostId z.nowNs) (bit cfg 15) none
  else z

def Za.raiseF (z : Za) (f : FaultFields) (ext : List W := []) : Za := z.raiseMsg f.message ext

/-- A fault with the default severity, of no context (R395). -/
def Za.raise (z : Za) (kind : FaultKind) (unitKind : UnitKind) (unit : Nat) (op : FaultOp) (subject detail : Nat)
    (ext : List W := []) : Za :=
  z.raiseF (faultOf kind unitKind unit op subject detail) ext

/-- A fault that names a context (R392). -/
def Za.raiseCtx (z : Za) (kind : FaultKind) (unitKind : UnitKind) (unit : Nat) (op : FaultOp) (c : Ctx)
    (subject detail : Nat) (ext : List W := []) : Za :=
  z.raiseF { faultOf kind unitKind unit op subject detail with ctx := c.id, gen := c.gen } ext

/-- FENCE: the unit fenced, the kind that caused it, what was lost, and from which data frame; a die's claim stands in the bits that
no kind of this spec uses (R398 to R401, R411; log entry 51). -/
def Za.raiseFence (z : Za) (unitKind : UnitKind) (unit subject cause loss frame : Nat) (claim : Nat := 0) : Za :=
  z.raise .fence unitKind unit .none subject (packNat [(claim, 31, 28), (cause, 27, 16), (loss, 15, 0)]) [w32 frame, w32 cause]

/-- FAULT_RAISE (R396): a fault of the given message is raised. -/
def execFaultRaise (message : BitVec 128) (s : State) : Answer :=
  .next (if s.za.running then s.onZa (fun z => z.raiseMsg message []) else s)

end Sys2Proof.Machine
end

