-- ==== Sys2Proof/Machine/ZaCmd.lean ====
section
/-!
DEFINITION. The books of commands in the ZA40: sync objects and waits, handles, replies, DONE_HANDLE and the relays to DTUs
(R191 to R193, R371 to R380).
-/
namespace Sys2Proof.Machine

/-! ### Sync objects (R191 to R193). -/

def Za.sync? (z : Za) (i : Nat) : Option SyncObj := aGet z.syncs i

/-- A value raised by n, held at 2^64 - 1 with the sticky overflow bit (R191). -/
def SyncObj.add (o : SyncObj) (n : Nat) : SyncObj :=
  if 2 ^ 64 ≤ o.value + n then { o with value := 2 ^ 64 - 1, overflow := true } else { o with value := o.value + n }

/-- The waits on an object that its value meets are over, in ascending order of v, then of arrival (R193): a SYNC_WAIT
completes; a chained command waits only for CHAIN_RELEASE. -/
def Za.testWaits (z : Za) (i : Nat) : Za :=
  match z.sync? i with
  | none => z
  | some o =>
    let met := sortBy (fun (w : Wait) => w.v) (sortBy (fun (w : Wait) => w.order)
      (z.waits.filter (fun w => w.obj == i && decide (w.v ≤ o.value))))
    let z := { z with waits := z.waits.filter (fun w => !(w.obj == i && decide (w.v ≤ o.value))) }
    met.foldl (fun z w =>
      if z.cmds.handles.any (fun h => h.handle == w.handle && !h.parked) then z.finish w.handle (resultOf stOk) else z) z

/-- An object changed, and its waits tested (R193). -/
def Za.modSync (z : Za) (i : Nat) (f : SyncObj → SyncObj) : Za :=
  match z.sync? i with
  | none => z
  | some o => ({ z with syncs := aPut z.syncs i (f o) }).testWaits i

/-- A named handle has completed: each object bound to it gains 1, whatever context owns it (R192). -/
def Za.handleEvent (z : Za) (h : W) : Za :=
  ((z.syncs.filter (fun (p : Nat × SyncObj) => p.2.source == some (.handle h))).map Prod.fst).foldl (fun z i => z.modSync i (·.add 1)) z

/-- One occurrence of an event source of a context: each object bound to it gains 1 (R192). -/
def Za.event (z : Za) (id gen : Nat) (src : SyncSource) (n : Nat := 1) : Za :=
  if n = 0 then z
  else
    ((z.syncs.filter (fun (p : Nat × SyncObj) => p.2.ctx == id && p.2.gen == gen && p.2.source == some src)).map Prod.fst).foldl
      (fun z i => z.modSync i (fun o => o.add n)) z

/-! ### Handles (R375, R376). -/

def Za.handle? (z : Za) (h : W) : Option Handle := z.cmds.handles.find? (fun x => x.handle == h)

/-- A handle is PARKED while its wait stands, a SYNC_WAIT's own or that of a chain (R191, R376, R380). -/
def Za.isParked (z : Za) (h : Handle) : Bool := z.waits.any (fun w => w.handle == h.handle)

/-- The index to issue next: the lowest one neither outstanding nor retained; failing that, that of the oldest retained
record (R375). -/
def Za.freeIndex (z : Za) : Option Nat :=
  let out := z.cmds.handles.map (fun h => fld h.handle 15 0)
  let kept := z.cmds.retained.map (fun r => fld r.handle 15 0)
  match (List.range (min 65536 (out.length + kept.length + 1))).find? (fun i => !out.contains i && !kept.contains i) with
  | some i => some i
  | none => kept.head?

/-- The hseq an index carries when it is next issued (R375). Its first is 0, for index 0 it is 1 (log entry 50). -/
def nextHseq (books : List (Nat × Nat)) (i : Nat) : Nat :=
  let n := match aGet books i with
    | some s => (s + 1) % 65536
    | none => 0
  if i = 0 ∧ n = 0 then 1 else n

/-- A new handle is issued (R375). -/
def Za.issue (z : Za) (i : Nat) : Za × W :=
  let s := nextHseq z.cmds.hseq i
  let h := pack [(s, 31, 16), (i, 15, 0)]
  ({ z with cmds := { z.cmds with hseq := aPut z.cmds.hseq i s, retained := z.cmds.retained.filter (fun r => fld r.handle 15 0 != i) } }, h)

/-! ### Replies. -/

/-- The Triheud context of a reply: the command's when it is resident (R368). -/
def Za.replyCtx (z : Za) (w1 : W) : Nat × Nat :=
  if (z.entryOf (fld w1 31 16) (fld w1 15 8)).isSome then (fld w1 31 16, fld w1 15 8) else (0xFFFF, 0)

/-- A completion record leaves for its requester. -/
def Za.sendRecord (z : Za) (req : Requester) (w1 : W) (rec_ : List W) : Za :=
  let c := z.replyCtx w1
  z.toRequester req c.1 c.2 rec_

/-- The largest result payload of a reply, in words: 9,152 bytes on a port, 2,016 on keomon (R368, R389). -/
def replyRoom (req : Requester) : Nat := if req.keomon then 504 else 2288

/-- A reply made here and now (R373, R374), kept in the retry cache where the command was accepted (R377). -/
def Za.replyNow (z : Za) (op : Opcode) (h : HuskCmd) (ckind : Nat) (handle : W) (r : Result) (cache : Bool) : Za :=
  let rec_ := completion ckind op h.w1 (huskTag h) handle z.frameNow (r.cut (replyRoom h.req)) false
  let e : CacheEntry := { req := h.req, tag := huskTag h, bytes := huskBytes op h, reply := rec_, handle, at_ := z.time.begun }
  let z := if cache then { z with cmds := { z.cmds with cache := storeTag z.cmds.cache 16384 e } } else z
  z.sendRecord h.req h.w1 rec_

/-- A chain's signal as its completion is posted (R380): applied, not called for, or lost. -/
def Za.signal (z : Za) (h : Handle) (r : Result) : Za × Bool :=
  match h.chain with
  | none => (z, false)
  | some c =>
    if !c.sigEn || !(c.sigAny || r.status == stOk) then (z, false)
    else
      let owned := match z.sync? c.sigObj with
        | some o => decide (o.ctx = fld h.cmd.w1 31 16 ∧ o.gen = fld h.cmd.w1 15 8)
        | none => false
      let live := match z.entryOf (fld h.cmd.w1 31 16) (fld h.cmd.w1 15 8) with
        | some e => (z.ctx? e).any (fun x => x.state == .admitted || x.state == .active)
        | none => false
      if owned && live then (z.modSync c.sigObj (fun o => o.add c.sigAdd), false) else (z, true)

/-- DONE_HANDLE of a finished long command is posted: its signal first, then the record, retained for 64 frames; the handle
is free (R374, R376, R380). -/
def Za.postDone (z : Za) (handle : W) : Za :=
  match z.cmds.handles.find? (fun h => h.handle == handle && h.done.isSome) with
  | none => z
  | some h =>
    let r := h.done.getD (resultOf stOk)
    let p := z.signal h r
    let z := p.1
    let cut := r.cut (replyRoom h.cmd.req)
    let rec_ := completion 2 h.cmd.op h.cmd.w1 h.cmd.tag handle z.frameNow cut p.2
    let short := completion 2 h.cmd.op h.cmd.w1 h.cmd.tag handle z.frameNow (r.cut 256) p.2
    let kept := z.cmds.retained ++ [{ handle, record := short, posted := z.time.begun }]
    let z := { z with cmds := { z.cmds with
      handles := z.cmds.handles.filter (fun x => x.handle != handle)
      retained := kept.drop (kept.length - 16384)
      cache := updateTag z.cmds.cache handle rec_ } }
    let z := z.handleEvent handle
    z.sendRecord h.cmd.req h.cmd.w1 rec_

/-- Every handle of a test ends with a result; a parked one no longer waits, and signals only where it may (R380). -/
def Za.finishWhere (z : Za) (p : Handle → Bool) (signals : Bool) (r : Result) : Za :=
  let mine := z.cmds.handles.filter (fun h => p h && h.done.isNone)
  let z := { z with waits := z.waits.filter (fun w => !mine.any (fun h => h.handle == w.handle)) }
  { z with cmds := { z.cmds with
      handles := modWhere z.cmds.handles (fun h => p h && h.done.isNone) (fun h =>
        { h with done := some r, chain := if signals then h.chain else none }) } }

/-! ### Relays (R371, R372). -/

/-- Long commands a DTU holds: relayed and not yet completed. -/
def Za.longsAt (z : Za) (die : Nat) : Nat :=
  z.cmds.handles.countP (fun h => h.relay == some die && h.done.isNone && h.cmd.op.isLong && !h.parked &&
    !(z.cmds.queued.any (fun q => q.handle == h.handle)))

/-- The requester of a command of the ZA40's own to a DTU (R95, R420): no link has this number, and nobody is answered. -/
def ownRequester : Requester := { link := 82, addr := 0, keomon := false }

/-- A Husk leaves for a DTU on VC 0 with our address, a tag of ours, the chain cleared and its extension removed
(R371, R380). -/
def Za.relay (z : Za) (die : Nat) (op : Opcode) (h : HuskCmd) (handle : W) (cache : Bool) : Za :=
  let tag := z.cmds.nextTag
  let w0 := setFld (setFld (huskW0 op h) 23 23 0) 22 22 0
  let pay := huskPay h
  let hdr := [w0, h.w1, h.w2, tag, if handle = 0 then h.w4 else handle, h.w5, h.w6]
  let body := hdr ++ [crcWords (hdr ++ pay)] ++ pay
  let ref : CmdRef := { op, req := h.req, w1 := h.w1, tag := huskTag h }
  let r : Relay := { ownTag := tag, die, cmd := ref, handle, sentAt := z.time.begun, husk := h, cache }
  let z := { z with cmds := { z.cmds with nextTag := if tag + 1 = 0 then 1 else tag + 1, relays := z.cmds.relays ++ [r] } }
  let onDie := match z.die? die with
    | some d => d.slots.any (fun s => s.ctx == huskCtx h && s.gen == huskGen h)
    | none => false
  z.toDie die clsCtrl 0x01 (if onDie then huskCtx h else 0xFFFF) (if onDie then huskGen h else 0) (4 * body.length) body

/-- A long command for a DTU that holds fewer than 16 goes at once, else it waits for one to end (R372). -/
def Za.relayLong (z : Za) (die : Nat) (op : Opcode) (h : HuskCmd) (handle : W) : Za :=
  if z.longsAt die ≤ 16 ∧ !(z.cmds.queued.any (fun q => q.die == die)) then z.relay die op h handle true
  else { z with cmds := { z.cmds with queued := z.cmds.queued ++ [{ die, handle, husk := h, op }] } }

/-- A DTU's link leaves state up, is reset, or the DTU is readmitted: its outstanding handles end with ABANDONED (R372). -/
def Za.abandonDie (z : Za) (die : Nat) : Za :=
  let z := { z with cmds := { z.cmds with
    queued := z.cmds.queued.filter (fun q => q.die != die)
    relays := z.cmds.relays.filter (fun r => !(r.die == die && r.handle != 0)) } }
  z.finishWhere (fun h => h.relay == some die && !h.parked) true (resultOf stAbandoned)

/-- A completion for the requester of a relayed command: its own tag and the words of the reply (R371). -/
def Za.relayReply (z : Za) (r : Relay) (res : Result) : Za :=
  let rec_ := completion 0 r.cmd.op r.cmd.w1 r.cmd.tag 0 z.frameNow (res.cut (replyRoom r.cmd.req)) false
  let z := { z with cmds := { z.cmds with
    relays := z.cmds.relays.filter (fun x => x.ownTag != r.ownTag)
    cache := modWhere z.cmds.cache (fun e => e.req == r.cmd.req && e.tag == r.cmd.tag && r.cache) (fun e => { e with reply := rec_ }) } }
  z.sendRecord r.cmd.req r.cmd.w1 rec_

end Sys2Proof.Machine
end

