-- ==== Sys2Proof/Machine/ZaSlots.lean ====
section
/-!
DEFINITION. The context slots of the tray's DTUs as the admitting aggregator assigns and writes them, and its own commands to a DTU
(R17, R18, R27, R87, R89, R95).
-/
namespace Sys2Proof.Machine

/-! ### Commands of the tray's own to a DTU. -/

def ownHusk (die p0 p1 : Nat) (payload : List W) (ctx : W) : HuskCmd :=
  { side := .dtu, req := ownRequester, thCtx := 0xFFFF, thGen := 0, w0hi := 0x1400, w1 := ctx
    w2 := pack [(1, 31, 28), (die, 19, 0)], w3 := 0, w4 := 0, w5 := w32 p0, w6 := w32 p1, crc := 0, payload }

/-- A write of words of the DTU command space (R89, R95, R381). -/
def Za.ownWrite (z : Za) (die addr : Nat) (ws : List W) : Za :=
  z.relay die .regWrite (ownHusk die addr (0x10000000 + ws.length) ws 0xFFFF0000) 0 false

/-! ### The books of slots. -/

/-- A slot is in use for some frame from `f` on. -/
def DtuSlot.busyFrom (s : DtuSlot) (f : Nat) : Bool := match s.last with
  | some l => decide (f < l)
  | none => true

/-- The entry is the one of its slot in force in frame `f`. -/
def DtuSlot.holds (s : DtuSlot) (f : Nat) : Bool := decide (s.first ≤ f) && s.busyFrom f

/-- The slot that serves a context on a die in frame `f`. -/
def DieEntry.slotOf (d : DieEntry) (ctx gen f : Nat) : Option DtuSlot :=
  d.slots.find? (fun s => s.ctx == ctx && s.gen == gen && s.holds f)

/-- The lowest of slots 1 to 7 that no context uses from a frame on. -/
def DieEntry.freeSlot (d : DieEntry) (f : Nat) : Option Nat :=
  ((List.range 8).drop 1).find? (fun k => !(d.slots.any (fun s => s.slot == k && s.busyFrom f)))

/-- The slot a context would take on a die: slot 0 is the fabric context's (R87). -/
def DieEntry.slotFor (d : DieEntry) (ctx f : Nat) : Option Nat := if ctx = 0 then some 0 else d.freeSlot f

/-- A context's slot on a die ends at a Front. -/
def Za.endSlot (z : Za) (die ctx gen f : Nat) : Za :=
  z.modDie die (fun d => { d with
    slots := modWhere d.slots (fun s => s.ctx == ctx && s.gen == gen && s.busyFrom f) (fun s => { s with last := some f }) })

/-- A context takes a slot on a die of the tray from a Front on; the entry that ends there stays in the books for the frames before
the Front (R24, R27). In slot 0 the rank is the die ID. -/
def Za.takeSlot (z : Za) (die ctx gen rank f : Nat) : Za :=
  match (z.die? die).bind (fun d => d.slotFor ctx f) with
  | none => z
  | some k => z.modDie die (fun x => { x with
      slots := x.slots ++ [{ slot := k, ctx, gen, rank := if ctx = 0 then die else rank, first := f, last := none }] })

/-! ### Writing DTU_CTX (R89). -/

/-- Words 4 and 5 of a slot for a Front: the outcome of all changes that fall there. -/
def Za.ctxEntryWords (z : Za) (d : DieEntry) (k f : Nat) : List W :=
  match d.slots.find? (fun s => s.slot == k && s.holds f) with
  | some s =>
    let epoch := ((z.entryOf s.ctx s.gen).bind z.ctx?).elim 0 (·.epochAt f)
    [pack [(1, 31, 31), (s.gen, 23, 16), (s.ctx, 15, 0)], pack [(epoch, 31, 24), (s.rank, 19, 0)]]
  | none => [0, 0]

/-- The pending words, then front; the write waits while the slot's front names another frame, and while the DTU may not be
commanded. -/
def Za.writeSlot (z : Za) (die : Nat) (x : Nat × Nat) : Za :=
  match z.die? die with
  | none => z
  | some d =>
    if d.admitted ∧ !z.isHeld d ∧ !d.slotPend.any (fun (p : Nat × Nat) => p.1 == x.1 && p.2 != x.2) then
      let a := 0x14100 + 32 * x.1
      let z := (z.ownWrite die (a + 16) (z.ctxEntryWords d x.1 x.2)).ownWrite die (a + 8) [w32 x.2]
      z.modDie die (fun y => { y with slotDue := y.slotDue.filter (· != x), slotPend := (y.slotPend ++ [x]).eraseDups })
    else z

/-- What is due is written, the earliest Front of a slot first. -/
def Za.writeSlots (z : Za) (die : Nat) : Za :=
  match z.die? die with
  | none => z
  | some d => (sortBy (fun (x : Nat × Nat) => x.2) d.slotDue).foldl (fun z x => z.writeSlot die x) z

/-- A change of a context at a Front makes its slots on a die due there; words already written for a later Front are made anew. -/
def DieEntry.slotChange (d : DieEntry) (ctx gen f : Nat) : DieEntry :=
  let mine := d.slots.filter (fun s => s.ctx == ctx && s.gen == gen && s.last.all (fun l => decide (f ≤ l)))
  let due := mine.flatMap (fun s =>
    (if s.first ≤ f then [(s.slot, f)] else []) ++ d.slotPend.filter (fun (p : Nat × Nat) => p.1 == s.slot && decide (f < p.2)))
  { d with slotDue := (d.slotDue ++ due).eraseDups }

/-- The changes of a context at a Front go to every DTU of the tray that it concerns. -/
def Za.slotChanges (z : Za) (ctx gen f : Nat) : Za :=
  (z.dies.map (·.die)).foldl (fun z die => (z.modDie die (fun d => d.slotChange ctx gen f)).writeSlots die)  z

/-- At a tick the fronts that have come no longer wait, and a change whose own Front has passed unwritten takes the earliest that a
command could name (R25). -/
def DieEntry.slotFronts (d : DieEntry) (now next : Nat) : DieEntry :=
  { d with
    slotPend := d.slotPend.filter (fun (p : Nat × Nat) => decide (now < p.2))
    slotDue := (d.slotDue.map (fun (p : Nat × Nat) => if p.2 ≤ now then (p.1, next) else p)).eraseDups }

end Sys2Proof.Machine
end

