-- ==== Sys2Proof/Machine/ZaLinks.lean ====
section
/-!
DEFINITION. The Triheud endpoints of the ZA40: reception and its tests, policing, link-up, admission of DTUs, credits, echoes,
resets and transmission (R340 to R362, R365, R406).
-/
namespace Sys2Proof.Machine

/-! ### The tests of R342. -/

/-- ZA_IDENT and ZA_VERCAP (R3). -/
def zaIdent : W := 0x2A40B012
def zaVercap : W := 0x32201400

/-- The highest version two vercap words share (R4): major in [7:4], minor in [3:0]; none when their ranges do not meet. -/
def settle (a b : W) : Option Nat :=
  let hi := min (fld a 31 24) (fld b 31 24)
  let lo := max (fld a 23 16) (fld b 23 16)
  if lo ≤ hi then some hi else none

/-- A unit is a DTU-5 part: a Finlos DTU of block version 5 (R1, R3). -/
def isDtu5 (ident : W) : Bool := fld ident 31 16 == 0x5F10 && fld ident 15 8 == 5

/-- The version the ZA40 settles on with a unit: below 3.0 with DTU-5 parts only (R3, R4, R349; log entry 234). -/
def zaSettle (ident vercap : W) : Option Nat := (settle zaVercap vercap).filter (fun v => decide (0x30 ≤ v) || isDtu5 ident)

/-- The die a frame on a DTU-facing link comes from (R339). -/
def srcDie (f : Frame) : Option Nat :=
  if bits f.src.toNat 47 32 = 0x0244 ∧ bits f.src.toNat 31 20 = 0 then some (bits f.src.toNat 19 0) else none

/-- The DTU endpoint a frame belongs to, on a DTU-facing link. -/
def Za.fromDie (z : Za) (p : Nat) (f : Frame) : Option Nat :=
  if z.face p = 1 then (srcDie f).filter (fun d => (z.die? d).any (fun e => e.link == p)) else none

/-- The messages that may arrive on a face (R343, R345). -/
def zaMayReceive (face cls msg : Nat) : Bool :=
  match face, cls with
  | 1, 0 => decide (msg = 1 ∨ (3 ≤ msg ∧ msg ≤ 6))
  | 1, 1 => decide (msg = 2 ∨ msg = 3)
  | 1, 2 => decide (msg = 3 ∨ msg = 5 ∨ msg = 7 ∨ msg = 8)
  | 1, 3 => decide (msg = 1)
  | 1, 5 => decide (1 ≤ msg ∧ msg ≤ 4)
  | 1, 6 => decide (msg = 2)
  | 2, 0 => decide (msg = 1 ∨ (3 ≤ msg ∧ msg ≤ 6))
  | 2, 1 => decide (1 ≤ msg ∧ msg ≤ 3)
  | 2, 2 => decide (msg = 3 ∨ msg = 7 ∨ msg = 8)
  | 2, 3 => decide (msg = 2 ∨ msg = 3)
  | 2, 5 => decide (1 ≤ msg ∧ msg ≤ 5)
  | 2, 6 => decide (msg = 3)
  | 2, 7 => decide ((1 ≤ msg ∧ msg ≤ 4) ∨ msg = 0x10 ∨ msg = 0x20)
  | 3, 0 => decide (msg = 1 ∨ (3 ≤ msg ∧ msg ≤ 6))
  | 3, 1 => decide (1 ≤ msg ∧ msg ≤ 3)
  | 3, 2 => decide (msg = 3 ∨ msg = 7 ∨ msg = 8)
  | 3, 5 => decide (1 ≤ msg ∧ msg ≤ 5)
  | 3, 6 => decide (msg = 3)
  | 3, 7 => decide ((1 ≤ msg ∧ msg ≤ 4) ∨ msg = 0x10 ∨ msg = 0x20)
  | _, _ => false

/-- The largest frame of a class, headers included (R343). -/
def zaClassLimit (cls : Nat) : Nat := if cls = 0 ∨ cls = 2 then 1024 else if cls = 6 then 128 else 9216

/-- The version agreed with the sender of a frame: a DTU's own, or the link's. -/
def Za.agreed (z : Za) (p : Nat) (die : Option Nat) : Nat :=
  match die.bind z.die? with
  | some d => d.version
  | none => (z.link p).version

/-- The sender of a frame is a DTU that is not admitted on this link, whose frames carry fabric ID 0x0000 (R341; log entry 191). -/
def Za.unadmitted (z : Za) (p : Nat) (f : Frame) : Bool :=
  z.face p == 1 && !(srcDie f).any (fun d => (z.die? d).any (fun e => e.admitted && e.link == p))

/-- The tests of R342 in order: the counter of the first that fails. Without an agreed version no frame but HELLO passes (R4);
at state 5 only HELLO and FETCH of fabric 0x0000 do (R348). Frames of Triheud 2.x carry no hcrc (R349). -/
def Za.headerFault (z : Za) (p : Nat) (f : Frame) : Option LinkCnt :=
  let cls := f.cls.toNat
  let msg := f.msg.toNat
  let die := z.fromDie p f
  let v := z.agreed p die
  let hello := decide (cls = 0 ∧ msg = 1)
  let admission := decide (cls = 0 ∧ (msg = 1 ∨ msg = 2))
  let fetch := decide (cls = 7 ∧ 1 ≤ msg ∧ msg ≤ 4)
  if !((f.ethertype == if admission then 0x88B5 else (z.link p).ether) &&
      (f.dest == linkMac z.aggId p || f.dest == myAggMac)) then some .badAddr
  else if f.hcrc != frameHcrc f && !(v / 16 == 2 && f.hcrc == 0) then some .badHcrc
  else if !((v != 0 && f.tver.toNat == v) || hello) then some .badTver
  else if f.fabricId.toNat != z.fabricId && !((admission || fetch || z.unadmitted p f) && f.fabricId == 0) then
    some .fabricMismatch
  else if (z.link p).state == 5 && !hello && !(fetch && f.fabricId == 0) then some .fabricMismatch
  else if !zaMayReceive (z.face p) cls msg || f.rsv15 != 0 || f.rsv17 != 0 || f.rsv23 != 0 then some .classMisuse
  else if decide (4 * f.body.length < f.plen.toNat) || decide (zaClassLimit cls < 32 + f.plen.toNat) then some .badLen
  else if (cls == 3 || ((cls == 1 || cls == 5 || cls == 7) && f.ctx != 0xFFFF)) &&
      (z.entryOf f.ctx.toNat f.gen.toNat).isNone then some .stale
  else none

/-! ### Counting what arrives. -/

/-- The lseq rule of R350 on an endpoint pair; a gap in a capture window spoils the cut (R431). -/
def Za.takeLseq (z : Za) (p : Nat) (die : Option Nat) (cls : Nat) (lseq : W) : Za :=
  let two := z.agreed p die / 16 == 2
  let want := (z.endOf p die).lseqRx.getD cls 0
  let diff := if two then 0 else (lseq - want).toNat
  let z := z.modEnd p die (fun e => { e with lseqRx := e.lseqRx.set cls ((if two then want else lseq) + 1) })
  if 1 ≤ diff ∧ diff < 2 ^ 31 then
    let z := z.count (.link .lseqGap p cls) diff
    if z.frost.windowEnd.isSome then { z with frost := { z.frost with spoiled := true } } else z
  else z

/-- Units of a frame under a version: 128 bytes each in Triheud 2.x (R349, R350). -/
def unitsOf (version plen : Nat) : Nat := if version / 16 = 2 then (32 + plen + 127) / 128 else creditUnits plen

/-- A copy is kept in the capture window of the port (R430). -/
def Za.capture (z : Za) (p cls : Nat) (f : Frame) : Za :=
  if z.frost.windowEnd.isSome ∧ (cls = 1 ∨ cls = 3 ∨ cls = 4) ∧ z.nowNs ≤ z.frost.stopNs + z.portRtt p + 32768 then
    let used := (z.frost.capture.map (fun c => 32 + 4 * c.frame.body.length)).sum
    if used + 32 + f.plen.toNat ≤ 2 ^ 20 * z.frost.capMib then
      { z with frost := { z.frost with capture := z.frost.capture ++ [{ link := p, cls, lseq := f.lseq, frame := f }] } }
    else { z with frost := { z.frost with capFull := true } }
  else z

/-- The flow a frame belongs to (R362): a DTU, or BULK or PEER of another link; 8 and above name dies. -/
def flowOf (die : Option Nat) (cls : Nat) : Option Nat :=
  match die with
  | some d => some (8 + d)
  | none => if cls = 5 ∨ cls = 7 then some cls else none

/-- Policing on arrival (R362): a frame that is not allowed is dropped and leaves V unchanged. True: it passes. -/
def Za.police (z : Za) (p : Nat) (die : Option Nat) (cls plen : Nat) : Za × Bool :=
  let bytes := wireBytes plen
  match flowOf die cls with
  | none => (z, true)
  | some flow =>
    let sh : Option Shaper := match die.bind z.die? with
      | some d => some { d.policer with rate := d.rate, burst := d.burst + 1024 * fld (z.reg 0x8000) 7 0, enabled := d.admitted }
      | none => (aGet (z.link p).policers cls)
    match sh with
    | none => (z, true)
    | some sh =>
      if sh.rate = 0 ∨ sh.allows z.now bytes then
        let sh := if sh.rate = 0 then sh else sh.charge z.now bytes
        (match die with
          | some d => z.modDie d (fun x => { x with policer := sh })
          | none => z.modLink p (fun l => { l with policers := aPut l.policers cls sh }), true)
      else
        let z := z.count (.link .policeDrop p (if flow < 8 then cls else 8 + 8 * (flow - 8) + cls))
        let mark (r : Nat × Nat × Bool) : Nat × Nat × Bool := (r.1, r.2.1, true)
        let z := z.modLink p (fun l =>
          if l.policeRuns.any (fun r => r.1 == flow) then
            { l with policeRuns := modWhere l.policeRuns (fun r => r.1 == flow) mark }
          else { l with policeRuns := l.policeRuns ++ [(flow, 0, true)] })
        (z, false)

/-! ### Link-down (R354, R365, R395). -/

/-- A LOOP_TEST ends with what has come back (R443). What the PCS has corrected is not the model's to know. -/
def Za.endTest (z : Za) (t : LinkTest) : Za :=
  let z : Za := { z with tests := z.tests.filter (fun x => x.handle != t.handle) }
  z.finish t.handle (okPayload [w32 t.sent, w32 t.returned, w32 t.differing, Config.fecCorrected z.nowNs,
    w32 (t.rtts.foldl min (t.rtts.headD 0)), w32 (t.rtts.foldl max 0)])

/-- The endpoint pair of a DTU starts again: frames for it are discarded, credits and lseq go to zero, its outstanding
handles are abandoned, and it is admitted afresh (R72, R354, R372). -/
def Za.dieDown (z : Za) (die : Nat) : Za :=
  match z.die? die with
  | none => z
  | some d =>
    let z := z.modLink d.link (fun l => { l with queue := l.queue.filter (fun q => q.die != some die) })
    let z := if z.frost.windowEnd.isSome then { z with frost := { z.frost with spoiled := true } } else z
    let z := z.modDie die (fun x => { x with
      admitted := false, timeSync := false, version := 0, ends := .initial 4, echo := { count := 0, sum := 0, mean := x.echo.mean } })
    z.abandonDie die

/-- A ZA40 or COLLECTOR link starts again at HELLO; every DTU on a DTU-facing one is down. -/
def Za.linkRestart (z : Za) (p : Nat) : Za :=
  let z := ((z.dies.filter (fun d => d.link == p)).map (·.die)).foldl Za.dieDown z
  let z := if z.frost.windowEnd.isSome then { z with frost := { z.frost with spoiled := true } } else z
  let z : Za := { z with serving := z.serving.filter (fun s => s.link != p) }
  let z := (z.tests.filter (fun t => t.link == p)).foldl Za.endTest z
  let loop := fld (z.portW0 (portOf p)) 29 27
  z.modLink p (fun l => { l with
    state := if !z.linkOn p || z.face p == 0 then 0 else if loop != 0 then 6 else if z.face p = 1 then 3 else 1
    looped := if z.linkOn p then loop else 0
    version := 0, peer := none, peerAgg := 0, peerFabric := 0, peerVercap := 0, peerRack := 0, helloSeen := false,
    peerSeen := false, credited := false, ends := .initial 8, queue := [], badHcrcRun := 0
    strays := [], ether := BitVec.ofNat 16 (fld (z.reg 0x8000) 31 16) })

/-- LINK_RESET is sent on a pair and the pair starts again (R354). -/
def Za.sendLinkReset (z : Za) (p : Nat) (die : Option Nat) (reason : Nat) : Za :=
  let z := z.count (.link .linkResets p reason)
  let ver := z.agreed p die
  let frame (dest : Mac) : Queued :=
    { frame := { mkTxWords clsLink 0x06 dest 0xFFFF 0 [w32 reason] with ver := some ver }, at_ := z.nowNs, die := none }
  match die with
  | some d => (z.dieDown d).modLink p (fun l => { l with queue := l.queue ++ [frame (dtuMac d)] })
  | none =>
    let dst := z.peerMac p
    (z.linkRestart p).modLink p (fun l => { l with queue := l.queue ++ [frame dst] })

/-! ### Reception. -/

/-- A frame arrives on a link: tested, counted, sequenced, policed; its units are owed back (R342, R350, R352, R362). Sixteen
consecutive bad_hcrc reset the link (R354). A fenced die is heard only in LINK, HAIL, HEALTH and FAULT frames (R406). -/
def Za.receive (z : Za) (p : Nat) (f : Frame) : Za × Bool :=
  if !z.linkOn p || !z.power.powered || z.power.pinLow || z.face p == 0 then (z, false)
  else if (z.link p).state = 6 then (z, false)
  else
    let cls := f.cls.toNat
    let msg := f.msg.toNat
    let die := z.fromDie p f
    match z.headerFault p f with
    | some .badAddr => (z.count (.link .badAddr p 0), false)
    | some .badHcrc =>
      let z := (z.count (.link .badHcrc p 0)).modLink p (fun l => { l with badHcrcRun := l.badHcrcRun + 1 })
      (if (z.link p).badHcrcRun = 16 then z.sendLinkReset p die 3 else z, false)
    | some .badTver => (z.count (.link .badTver p 0), false)
    | some .fabricMismatch => (z.count (.link .fabricMismatch p 0), false)
    | r =>
      let z := z.modLink p (fun l => { l with badHcrcRun := 0 })
      let z := z.takeLseq p die cls f.lseq
      let units := if cls = 0 ∧ msg = 3 then 0 else unitsOf (z.agreed p die) f.plen.toNat
      let z := z.modEnd p die (fun e => { e with
        creditDue := true
        pools := modAt e.pools (poolOf die cls) (fun q => { q with owed := q.owed ++ [(z.nowNs, units)] }) })
      let z := z.capture p cls f
      let fenced := match die.bind z.die? with
        | some d => d.fenced.isSome && !(cls == 0 || (cls == 1 && msg == 3) || (cls == 5 && (msg == 3 || msg == 4)))
        | none => false
      match r with
      | some c => (z.count (.link c p 0), false)
      | none =>
        if fenced then (z.count (.link .stale p 0), false)
        else z.police p die cls f.plen.toNat

/-! ### HELLO and ADMIT (R346 to R348, R77, R78). -/

/-- A HELLO of ours (R346). -/
def Za.helloBody (z : Za) (p : Nat) : List W :=
  [zaIdent, zaVercap] ++ Memory.words z.tag 0 8 ++
    [pack [(fld (z.reg 0x8000) 31 16, 31, 16), (b2n (z.link p).helloSeen, 15, 15), (z.rackId, 11, 0)], (z.link p).helloSeq]

/-- One HELLO leaves on a link that faces no DTU (R348). -/
def Za.sendHello (z : Za) (p : Nat) : Za :=
  let z := z.toPeer p clsLink 0x01 48 (z.helloBody p)
  z.modLink p (fun l => { l with helloSeq := l.helloSeq + 1 })

/-- The link comes up once the peer has said that it has seen us and has sent its first CREDIT (R348). -/
def Za.linkProgress (z : Za) (p : Nat) : Za :=
  z.modLink p (fun l =>
    if l.version = 0 then l
    else if l.peerFabric ≠ 0 ∧ z.fabricId ≠ 0 ∧ l.peerFabric ≠ z.fabricId then { l with state := 5 }
    else if l.peerSeen && l.credited then { l with state := 3 }
    else { l with state := 2 })

/-- HELLO from a ZA40 or a COLLECTOR (R348). -/
def Za.helloPeer (z : Za) (p : Nat) (f : Frame) : Za :=
  let b := f.body
  let fresh := (z.link p).peer != some f.src
  let z := z.modLink p (fun l => { l with
    peer := some f.src, peerAgg := bits f.src.toNat 31 20, peerFabric := f.fabricId.toNat, peerVercap := word b 1,
    peerRack := wf b 10 11 0, helloSeen := true, peerSeen := bit (word b 10) 15 })
  match zaSettle (word b 0) (word b 1) with
  | some v =>
    (z.modLink p (fun l => { l with version := v })).linkProgress p
  | none =>
    let said := (z.link p).state = 4 ∧ !fresh
    let z := z.modLink p (fun l => { l with version := 0, state := 4 })
    if said then z
    else z.raise .versionMismatch .link p .linkRx (bits f.src.toNat 31 20) (word b 1).toNat

/-- The first reason of R78, R4 or R160 against admitting a DTU on a link; 0 admits. `tag` is its tag bytes 0x00 to 0x1F, `ident` and
`vercap` are the words before them in its HELLO.
DESIGN CHOICE (log entry 189): where several hold at once the reason given is the first in the order of R347, 1 to 6. -/
def Za.admitReason (z : Za) (p die : Nat) (tag : List W) (ident vercap : W) : Nat :=
  let half := wf tag 1 7 6
  let here := if p % 2 = 1 then 2 else if z.portSplit (portOf p) then 1 else 0
  let reserved := decide (wf tag 0 30 20 ≠ 0 ∨ wf tag 1 31 24 ≠ 0 ∨ wf tag 1 5 0 ≠ 0 ∨ half = 3 ∨ wf tag 2 15 8 ≠ 0 ∨
    3 < wf tag 2 7 0) || (tag.drop 4).any (· != 0)
  if !bit (word tag 0) 31 then 1
  else if reserved then 2
  else if wf tag 1 15 8 ≠ portOf p ∨ half ≠ here then 3
  else if z.dies.any (fun d => d.admitted && !(d.die == die && d.link == p) &&
      (wf d.tag 0 19 0 == wf tag 0 19 0 || wf d.tag 1 23 16 == wf tag 1 23 16)) then 4
  else if (zaSettle ident vercap).isNone then 5
  else if !z.time.ticking then 6
  else match z.die? die with
    | some d => if d.fenced.isSome && !d.readmitDue then 6 else 0
    | none => 0

/-- An entry for a DTU heard for the first time. -/
def DieEntry.fresh (die p : Nat) : DieEntry :=
  { die, link := p, tag := [], vercap := 0, version := 0, admitted := false, timeSync := false, syncSeq := 0,
    echo := { count := 0, sum := 0, mean := none }, ends := .initial 4, rate := 0, burst := 0,
    policer := { enabled := false, rate := 0, burst := 0, v := 0 }, bulkHeld := false, slots := [], cfg := [], cfgFrame := [],
    cfgDue := [], live := 0, missed := 0, onTime := 0, hailed := false, hailDue := false, claim := 0, claimRun := 0,
    claimSaid := false, fenced := none, fencedClusters := [], admGen := 1, hold := 0, holdFrom := 0, holdEnds := false, sentBands := [],
    paramAge := [], cache := [], blocks := [], wins := [], absences := [], readmitDue := false, slotDue := [], slotPend := [] }

/-- A DTU that is admitted joins the fabric context at the Front current + 2, unless it will be a member there; its slots are written
for that frame (R17, R24, R89). -/
def Za.joinFabric (z : Za) (die : Nat) : Za :=
  match z.ctx? 0 with
  | none => z
  | some c =>
    let f := z.time.plusTwo
    let z := z.modDie die (fun d => { d with
      slotDue := (d.slotDue ++ (d.slots.filter (fun s => s.holds f)).map (fun s => (s.slot, f))).eraseDups })
    if (c.membersAt f).any (fun m => m.die == die || m.rank == die) then z.writeSlots die
    else
      let z := z.modCtx 0 (fun x => { x with changes := x.changes ++ [{ front := f, op := 0, rank := die, die, handle := 0 }] })
      ((z.takeSlot die c.id c.gen die f).slotChanges c.id c.gen f).writeSlots die

/-- HELLO from a DTU: its tag is read, TIME_SYNC begins, and ADMIT answers (R78, R160, R173, R347). -/
def Za.helloDie (z : Za) (p : Nat) (f : Frame) : Za :=
  match srcDie f with
  | none => z
  | some die =>
    let b := f.body
    let tag := (b.drop 2).take 8
    let vercap := word b 1
    let z := z.modLink p (fun l => { l with state := 3 })
    let z := match z.die? die with
      | none => { z with dies := insertBy (fun (d : DieEntry) => d.die) (DieEntry.fresh die p) z.dies }
      | some d => if d.admitted && d.link == p then z.dieDown die else z
    let reason := z.admitReason p die tag (word b 0) vercap
    let other := match z.die? die with
      | some d => d.admitted && d.link != p
      | none => false
    let version := (zaSettle (word b 0) vercap).getD 0
    let rate := 10 + Config.admitRate die % 241
    let burst := 16 + Config.admitBurst die % 1009
    let body : List W :=
      [pack [(b2n (reason != 0), 31, 24), (reason, 23, 16), (version, 15, 8)],
        pack [(z.fabricId, 31, 16), (fld (z.reg 0x8000) 31 16, 15, 0)], pack [(z.aggId, 27, 16), (rate, 15, 8)],
        pack [(burst, 31, 16)], word b 11, 0, 0, 0]
    let z : Za := if other then z.modLink p (fun l => { l with version, strays := aPut l.strays die 0 }) else z.modDie die (fun d => { d with
      link := p, tag, vercap, version, timeSync := version != 0, ends := { d.ends with
        lseqRx := d.ends.lseqRx.set 0 (f.lseq + 1) } })
    let z : Za := if reason = 5 then z.raise .versionMismatch .link p .linkRx die vercap.toNat else z
    let z : Za := if reason = 0 then
        let z := z.modDie die (fun d => { d with
          admitted := true, rate, burst := 1024 * burst, policer := { enabled := true, rate, burst := 1024 * burst, v := z.now * rate },
          bulkHeld := z.forward.hold, live := 1, missed := 0, onTime := 0, hailed := false, hailDue := false, fenced := none,
          readmitDue := false, holdEnds := d.hold != 0,
          slots := if d.readmitDue then d.slots.filter (fun s => s.slot == 0) else d.slots })
        z.joinFabric die
      else z
    let z : Za := if reason = 0 then
        z.finishWhere (fun h => h.cmd.op == .readmit && decide (huskP0 h.husk = die)) true (resultOf stOk)
      else z
    let z : Za := z.enqueue p (if other then none else some die) (mkTx clsLink 0x02 (dtuMac die) 0xFFFF 0 32 body)
    if reason = 0 ∧ z.frost.state = 1 ∧ z.nowNs < z.frost.t then
      let z := { z with frost := { z.frost with targets := z.frost.targets ++ [die] } }
      z.frostSend 0x01 [die] z.frost.t
    else z

/-- A HELLO of another fabric on a link that faces no DTU: it is discarded and counted (R12, R342), and what it says of its
sender holds the link at state 5 (R348; log entry 192). -/
def Za.foreignHello (z : Za) (p : Nat) (f : Frame) : Bool :=
  z.headerFault p f == some .fabricMismatch && z.face p != 1 &&
    decide (f.cls = 0 ∧ f.msg = 1 ∧ f.plen.toNat = 48 ∧ 12 ≤ f.body.length)

/-- HELLO at the ZA40. -/
def Za.hello (z : Za) (p : Nat) (f : Frame) : Za :=
  let r := z.receive p f
  if z.foreignHello p f && (z.link p).state != 6 then r.1.helloPeer p f
  else if !(r.2 && decide (f.plen.toNat = 48)) then r.1
  else if z.face p = 1 then r.1.helloDie p f
  else r.1.helloPeer p f

/-! ### Credits (R350 to R352). -/

/-- What this receiver grants: per VC to a DTU, per class to others (R350). -/
def zaGrants (die : Bool) : List Nat := if die then [128, 512, 512, 16] else [16, 256, 16, 2048, 0, 1024, 16, 2048]

/-- CREDIT from a DTU refused as a duplicate: of its counts those of VC 0 and VC 3 open the pools of LINK and TIME (R173,
R350). -/
def Za.strayCredit (z : Za) (p : Nat) (f : Frame) : Za :=
  if (srcDie f).any (fun d => (aGet (z.link p).strays d).isSome) then
    let open_ (l : List Pool) (cls vc : Nat) : List Pool := modAt l cls (fun q => (q.take (word f.body (1 + vc))).1)
    z.modEnd p none (fun e => { e with pools := open_ (open_ e.pools clsLink 0) clsTime 3 })
  else z

/-- CREDIT at the ZA40: pools take the returned counts; BULK, PEER and VC 2 may be held from version 3.2 on. -/
def Za.credit (z : Za) (p : Nat) (f : Frame) : Za :=
  let q := z.receive p f
  let die := z.fromDie p f
  if !(q.2 && decide (f.plen.toNat = 40)) then q.1
  else if z.face p == 1 && die.isNone then q.1.strayCredit p f
  else
    let z := q.1
    let e := z.endOf p die
    let n := if die.isSome then 4 else 8
    let r := (List.range n).map (fun c => (e.pools.getD c .initial).take (word f.body (1 + c)))
    let beyond := (List.range n).filter (fun c => !((r.map Prod.snd).getD c true))
    let mayHold (c : Nat) : Bool := decide (0x32 ≤ z.agreed p die) && (if die.isSome then c == 2 else c == 5 || c == 7)
    let hold (c : Nat) : Bool := mayHold c && bit (word f.body 0) (24 + c)
    let now := z.nowNs
    let pools := ((List.range n).zip (r.map Prod.fst)).map (fun (x : Nat × Pool) =>
      { x.2 with held := hold x.1, heldSince := if hold x.1 && !x.2.held then now else x.2.heldSince })
    let z := (List.range n).foldl (fun z c =>
      let old := e.pools.getD c .initial
      if old.held && !hold c then z.count (.link .heldNs p c) (now - old.heldSince) else z) z
    let z := beyond.foldl (fun z c => z.count (.link .creditOver p c)) z
    let z := z.modEnd p die (fun x => { x with pools })
    if die.isSome then z else (z.modLink p (fun l => { l with credited := true })).linkProgress p

/-- An injection of a code for a class on a link (R447): its remaining uses and its parameter. -/
def Za.injection (z : Za) (code p cls : Nat) : Option Injection :=
  z.injections.find? (fun i => i.code == code && decide (fld i.param 15 8 = p ∧ fld i.param 3 0 = cls))

/-- An injection of a code for the unit that its parameter names. -/
def Za.injectionAt (z : Za) (code param : Nat) : Option Injection :=
  z.injections.find? (fun i => i.code == code && i.param.toNat == param)

/-- One use of an injection is spent. -/
def Za.spend (z : Za) (i : Injection) : Za :=
  let used := modWhere z.injections (fun x => x == i) (fun x => { x with n := x.n - 1 })
  { z with injections := used.filter (fun x => decide (0 < x.n)) }

/-- CREDIT_SEND: what has left the buffers is returned beside the grants, with the hold in force. -/
def Za.creditSend (z : Za) (p : Nat) (die : Option Nat) : Za :=
  let e := z.endOf p die
  let v := z.agreed p die
  let pools := e.pools.map Pool.giveBack
  let grants := zaGrants die.isSome
  let extra (c : Nat) : Nat := match z.injection 0x06 p c with
    | some i => i.n
    | none => 0
  let counts := ((List.range pools.length).zip pools).map (fun (x : Nat × Pool) => x.2.given + w32 (grants.getD x.1 0 + extra x.1))
  let held := decide (0x32 ≤ v) && (match die.bind z.die? with
    | some d => d.bulkHeld
    | none => (z.link p).bulkHeld)
  let hold := if held then (if die.isSome then 4 else 32) else 0
  let body := [pack [(hold, 31, 24)]] ++ counts ++ List.replicate (9 - counts.length) 0
  let z := z.modEnd p die (fun x => { x with pools, creditDue := false })
  let z := { z with injections := z.injections.filter (fun i => !(i.code == 0x06 && decide (fld i.param 15 8 = p))) }
  match die with
  | some d => z.enqueue p die (mkTx clsLink 0x03 (dtuMac d) 0xFFFF 0 40 body)
  | none => z.toPeer p clsLink 0x03 40 body

/-! ### Echoes and resets (R353, R354). -/

/-- ECHO at the ZA40: the same payload goes back with the residence time in bytes 4 to 7. -/
def Za.echo (z : Za) (p : Nat) (f : Frame) (residence : W) : Za :=
  let q := z.receive p f
  if q.2 ∧ 8 ≤ f.plen.toNat then
    q.1.enqueue p (q.1.fromDie p f) (mkTx clsLink 0x05 f.src 0xFFFF 0 f.plen.toNat (f.body.set 1 residence))
  else q.1

/-- PRBS-31 (x^31 + x^28 + 1) words, for the frames of a LOOP_TEST (R443). -/
def prbsBit (s : Nat) : Nat := bits s 30 30 ^^^ bits s 27 27
def prbsWord : Nat → Nat → Nat → Nat × Nat
  | 0, s, w => (s, w)
  | n + 1, s, w => let b := prbsBit s
                   prbsWord n ((2 * s + b) % 2 ^ 31) (2 * w + b)
def prbsWords : Nat → Nat → List W
  | 0, _ => []
  | n + 1, s => let r := prbsWord 32 s 0
                w32 r.2 :: prbsWords n r.1

/-- The payload of frame k of a LOOP_TEST: its echo_id, then 984 bytes (R353, R443). -/
def loopFrame (k : Nat) : List W := [w32 (0xED000000 + k), 0] ++ prbsWords 246 (k % (2 ^ 31 - 1) + 1)

/-- A returned frame of a LOOP_TEST is compared with what was sent; the last one ends the test (R443). -/
def Za.loopReturn (z : Za) (p : Nat) (f : Frame) (trip : Nat) : Za :=
  match z.tests.find? (fun t => t.link == p && decide (t.returned < t.frames)) with
  | none => z
  | some t =>
    let k := (word f.body 0).toNat - 0xED000000
    let diff := (((bytesOf (f.body.drop 2)).zip (bytesOf ((loopFrame k).drop 2))).countP (fun x => x.1 != x.2))
    let t' : LinkTest := { t with returned := t.returned + 1, differing := t.differing + diff, rtts := t.rtts ++ [trip] }
    let z := { z with tests := modWhere z.tests (fun x => x.handle == t.handle) (fun _ => t') }
    if t'.returned < t'.frames then z else z.endTest t'

/-- ECHO_REPLY at the ZA40: one round trip, the stamp difference less the residence; the last 64 are kept (R353). -/
def Za.echoReply (z : Za) (p : Nat) (f : Frame) (elapsed : W) : Za :=
  let q := z.receive p f
  let z := q.1
  let die := z.fromDie p f
  let e := z.endOf p die
  let id := word f.body 0
  if q.2 ∧ 8 ≤ f.plen.toNat ∧ e.echoes.any (fun x => x.1 == id) then
    let trip := elapsed.toNat - (word f.body 1).toNat
    let rtt := e.rtt ++ [trip]
    let z := z.modEnd p die (fun x => { x with echoes := x.echoes.filter (fun y => y.1 != id), rtt := rtt.drop (rtt.length - 64) })
    if 0xED000000 ≤ id.toNat then z.loopReturn p f trip else z
  else z

/-- On a looped link the port's own ECHO frames come back as they were sent (R443). -/
def Za.echoLooped (z : Za) (p : Nat) (f : Frame) (elapsed : W) : Za :=
  if (z.link p).state = 6 ∧ z.linkOn p ∧ f.msg.toNat = 4 ∧ 0xED000000 ≤ (word f.body 0).toNat then z.loopReturn p f elapsed.toNat
  else z

/-- LINK_RESET at the ZA40 (R354). -/
def Za.linkResetFrame (z : Za) (p : Nat) (f : Frame) : Za :=
  let q := z.receive p f
  if q.2 ∧ f.plen.toNat = 4 ∧ wf f.body 0 31 8 = 0 then
    let z := q.1.count (.link .linkResets p (wf f.body 0 7 0))
    match z.fromDie p f with
    | some d => z.dieDown d
    | none => if z.face p = 1 then z else z.linkRestart p
  else q.1

/-! ### Transmission (R357 to R360). -/

/-- The version and the EtherType a frame of ours carries (R340, R341). -/
def Za.txVersion (z : Za) (p : Nat) (q : Queued) : Nat :=
  if q.frame.cls = 0 ∧ q.frame.msg = 1 then 0x32
  else if q.frame.cls = 0 ∧ q.frame.msg = 2 then
    (if wf q.frame.body 0 15 8 = 0 then 0x32 else wf q.frame.body 0 15 8)
  else q.frame.ver.getD (z.agreed p q.die)

/-- The fabric ID a frame of ours carries (R341, R348): 0x0000 in ADMIT and toward a DTU not admitted, and in the FETCH frames
of a link held at state 5. -/
def Za.txFabric (z : Za) (p : Nat) (q : Queued) : Nat :=
  let f := q.frame
  let known := match q.die.bind z.die? with
    | some d => d.admitted
    | none => z.face p != 1
  if !known || (f.cls == 0 && f.msg == 2) || ((z.link p).state == 5 && f.cls == 7 && decide (f.msg ≤ 4)) then 0 else z.fabricId

/-- The bytes of allowance a frame may charge (R358): CTRL and FROST to ctl_min, RED and PARAM to red_min. -/
def Za.allowance (z : Za) (p : Nat) (f : TxFrame) : Option (Bool × Nat × Nat) :=
  let entry := if f.ctx = 0xFFFF then 0 else (z.entryOf f.ctx.toNat f.gen.toNat).getD 0
  if f.cls = 1 ∨ f.cls = 2 then some (false, entry, aGetD (z.link p).ctlAllow entry 0)
  else if f.cls = 3 ∨ f.cls = 4 then some (true, entry, aGetD (z.link p).redAllow entry 0)
  else none

/-- The credit units a frame uses (R346, R350, R352): none for CREDIT and LINK_RESET, for HELLO and ADMIT before the first CREDIT, and on
a looped port, where nobody grants any (log entry 142). -/
def Za.unitsFor (z : Za) (p : Nat) (q : Queued) (pool : Pool) : Nat :=
  let c := q.frame.cls
  let m := q.frame.msg
  if (z.link p).state = 6 ∨ (c = 0 ∧ ((m = 1 ∨ m = 2) ∧ !pool.opened ∨ m = 3 ∨ m = 6)) then 0 else unitsOf (z.agreed p q.die) q.frame.plen

/-- A frame of a class may start now (R357): the link carries it, its gate is and stays open, its pool holds the units and is
not held, its shaper allows it. -/
def Za.mayStart (z : Za) (p : Nat) (q : Queued) : Bool :=
  let l := z.link p
  let c := q.frame.cls
  let bytes := wireBytes q.frame.plen
  let up := if c = 0 then (l.state != 0 && (l.state != 6 || q.frame.msg == 4)) &&
      (l.state == 6 || q.frame.msg == 1 || q.frame.msg == 2 || q.frame.ver.isSome || z.agreed p q.die != 0)
    else (l.state == 3 && (q.die.bind z.die?).all (fun d => d.version != 0)) || (l.state == 5 && c == 7 && q.frame.msg ≤ 4)
  let open_ := l.gates.openFor c (z.nowNs % 2 ^ l.gates.cycleLog2)
  let e := z.endOf p q.die
  let pool := e.pools.getD (poolOf q.die c) .initial
  let units := z.unitsFor p q pool
  z.linkOn p && up && decide (0 < open_ ∧ bytes * 1000 ≤ open_ * z.rate1000 p) && decide (units ≤ pool.available) &&
    !(pool.held && (if q.die.isSome then poolOf q.die c == 2 else c == 5 || c == 7)) &&
    (l.shapers.getD c { enabled := false, rate := 0, burst := 0, v := 0 }).allows z.now bytes

/-- A frame that can never fit a span of its class (R357). -/
def Za.neverFits (z : Za) (p : Nat) (q : Queued) : Bool :=
  decide ((z.link p).gates.longest q.frame.cls * z.rate1000 p < wireBytes q.frame.plen * 1000)

/-- The order of classes among frames that qualify (R357). -/
def classOrder : List Nat := [2, 0, 6, 1, 3, 4, 7, 5]

/-- The first frames of each endpoint, class and context: what may leave without overtaking its like. -/
def heads : List Queued → List Queued → List Queued
  | [], acc => acc
  | q :: r, acc =>
    if acc.any (fun x => x.die == q.die && x.frame.cls == q.frame.cls && x.frame.ctx == q.frame.ctx) then heads r acc
    else heads r (acc ++ [q])

/-- The frame that leaves next, if any may: by class, then those whose allowance covers them, in arrival order (R358). -/
def Za.pick (z : Za) (p : Nat) : Option Queued :=
  let ready := (heads (z.link p).queue []).filter (z.mayStart p)
  classOrder.findSome? (fun c =>
    let mine := ready.filter (fun q => q.frame.cls == c)
    match mine.find? (fun q => (z.allowance p q.frame).any (fun a => decide (wireBytes q.frame.plen ≤ a.2.2))) with
    | some q => some q
    | none => mine.head?)

/-- The fields that a TIME message carries of its departure (R173, R180). -/
def stampBody (f : TxFrame) (now : Stamp) : List W :=
  if f.cls = 6 ∧ f.msg = 1 then
    (((f.body.set 1 (w32 (stampSec now / 2 ^ 32))).set 2 (w32 (stampSec now))).set 3 (w32 (stampNs now))).set 4
      (pack [(stampFrac now, 31, 16)])
  else if f.cls = 6 ∧ f.msg = 3 then
    ((f.body.set 3 (w32 (now / 65536 / 2 ^ 32))).set 4 (w32 (now / 65536))).set 5 (pack [(stampFrac now, 31, 16)])
  else f.body

/-- A frame is put on the link: sequence number, units, shaper and allowance are charged (R341, R350, R358, R359). Injections
spoil its hcrc or lose it (R447). -/
def Za.put (z : Za) (p : Nat) (q : Queued) : Za :=
  let c := q.frame.cls
  let e := z.endOf p q.die
  let v := z.txVersion p q
  let two := z.agreed p q.die / 16 == 2
  let ether : BitVec 16 := if c = 0 ∧ (q.frame.msg = 1 ∨ q.frame.msg = 2) then 0x88B5 else (z.link p).ether
  let t := { q.frame with body := stampBody q.frame z.now }
  let f := t.leave (t.via.getD (linkMac z.aggId p)) ether (BitVec.ofNat 16 (z.txFabric p q)) v (if two then 0 else e.lseqTx.getD c 0)
  let f := if two then { f with hcrc := 0 } else f
  let bad := z.injection 0x04 p c
  let lost := z.injection 0x05 p c
  let f := if bad.isSome then { f with hcrc := f.hcrc ^^^ 1 } else f
  let pool := e.pools.getD (poolOf q.die c) .initial
  let units := z.unitsFor p q pool
  let bytes := wireBytes q.frame.plen
  let charge (m : List (Nat × Nat)) (entry : Nat) : List (Nat × Nat) :=
    if bytes ≤ aGetD m entry 0 then aPut m entry (aGetD m entry 0 - bytes) else m
  let allow := z.allowance p q.frame
  let z := z.modEnd p q.die (fun x => { x with
    lseqTx := modAt x.lseqTx c (· + 1)
    pools := modAt x.pools (poolOf q.die c) (fun y => { y with sent := y.sent + w32 units })
    echoes := if c = 0 ∧ q.frame.msg = 4 then x.echoes ++ [(word q.frame.body 0, z.nowNs)] else x.echoes })
  let z := z.modLink p (fun l => { l with
    shapers := modAt l.shapers c (fun sh => sh.charge z.now bytes)
    ctlAllow := match allow with
      | some (false, entry, _) => charge l.ctlAllow entry
      | _ => l.ctlAllow
    redAllow := match allow with
      | some (true, entry, _) => charge l.redAllow entry
      | _ => l.redAllow
    wire := if lost.isSome then l.wire else some f })
  let z := match bad with
    | some i => z.spend i
    | none => z
  match lost with
  | some i => z.spend i
  | none => z

/-! ### Images served (R206, R299, R364). -/

/-- The length of the image a fetch is served from, and its bytes from an offset: at most 8,192. -/
def Za.servedFrom (z : Za) (s : Serving) : Option (Nat × List Byte) :=
  match s.model with
  | none => some (z.boot.running.length, (z.boot.running.drop s.offset).take 8192)
  | some m =>
    let area := (z.models.find? (fun x => x.entry == m.1 && x.slot == m.2)).bind (fun x => (x.cur.toList ++ x.oth.toList).find? (fun a =>
      (a.state == .current || a.state == .ready || a.state == .retiring) && a.modelId == word s.hdr 3 && a.version == wf s.hdr 4 31 16 &&
        a.digest == dword s.hdr 5))
    area.map (fun a => (a.imageLen, ((bytesOf ((a.image.drop (s.offset / 4)).take 2049)).drop (s.offset % 4)).take 8192))

/-- A frame of the exchange of R364: the request's words, then word 7 and the data. -/
def Za.fetchFrame (z : Za) (p : Nat) (dest : Mac) (msg : Nat) (hdr : List W) (w7 : Nat) (data : List Byte) : Za :=
  z.enqueue p none (mkTx clsPeer msg dest 0xFFFF 0 (32 + data.length) (hdr.take 7 ++ [w32 w7] ++ wordsOf data))

/-- The next chunk of one fetch joins the queue when none of its chunks waits there; the last one ends it. -/
def Za.nextChunk (z : Za) (p : Nat) (s : Serving) : Za :=
  let waits := (z.link p).queue.any (fun q => q.frame.cls == clsPeer && q.frame.msg == 4 && q.frame.dest == s.peer && word q.frame.body 1 == s.fetchId)
  let same (x : Serving) : Bool := x.peer == s.peer && x.link == p && x.fetchId == s.fetchId
  if waits then z
  else match z.servedFrom s with
    | none => { z with serving := z.serving.filter (fun x => !same x) }
    | some r =>
      let z := if r.2.isEmpty then z else z.fetchFrame p s.peer 0x04 s.hdr s.offset r.2
      let next := s.offset + r.2.length
      if r.2.isEmpty ∨ r.1 ≤ next then
        let z : Za := { z with serving := z.serving.filter (fun x => !same x) }
        match s.model with
        | some m => z.count (.ten .served m.1)
        | none => z
      else { z with serving := modWhere z.serving same (fun x => { x with offset := next }) }

/-- The fetches served on a link are kept supplied. -/
def Za.topUp (z : Za) (p : Nat) : Za := (z.serving.filter (fun s => s.link == p)).foldl (fun z s => z.nextChunk p s) z

/-- The far end of a LOOP_TEST: a looped port itself, the first DTU of a link that faces DTUs, the link's peer. -/
def Za.testPeer (z : Za) (p : Nat) : Option (Option Nat × Mac) :=
  if (z.link p).state = 6 then some (none, linkMac z.aggId p)
  else if z.face p = 1 then (z.dies.find? (fun d => d.admitted && d.link == p)).map (fun d => (some d.die, dtuMac d.die))
  else some (none, z.peerMac p)

/-- The next ECHO of a LOOP_TEST joins the queue when none of its frames waits there (R443). -/
def Za.feedTest (z : Za) (p : Nat) : Za :=
  let waits := (z.link p).queue.any (fun q => q.frame.cls == clsLink && q.frame.msg == 4 && decide (0xED000000 ≤ (word q.frame.body 0).toNat))
  match z.tests.find? (fun t => t.link == p && decide (t.sent < t.frames)), z.testPeer p with
  | some t, some dst =>
    if waits then z
    else
      let z := z.enqueue p dst.1 (mkTx clsLink 0x04 dst.2 0xFFFF 0 992 (loopFrame t.sent))
      { z with tests := modWhere z.tests (fun x => x.handle == t.handle) (fun x => { x with sent := x.sent + 1 }) }
  | _, _ => z

/-- FRAME_TRANSMIT of the ZA40: frames that can never fit are discarded; the first that may start leaves. A COLLECTOR link
with no other BULK empties the FORWARD region in its order (R363). -/
def Za.transmit (z : Za) (p : Nat) : Za :=
  let z := (z.topUp p).feedTest p
  let gone := (z.link p).queue.filter (z.neverFits p)
  let z := z.count (.link .gateOversize p 0) gone.length
  let z := z.modLink p (fun l => { l with queue := l.queue.filter (fun q => !gone.contains q) })
  match z.pick p with
  | some q => (z.modLink p (fun l => { l with queue := l.queue.erase q })).put p q
  | none =>
    match z.forward.waiting with
    | [] => z
    | r :: rest =>
      let resident := (z.entryOf r.ctx r.gen).isSome
      let t := mkTx clsBulk (bulkMsg r.rank) z.collectorMac (if resident then r.ctx else 0xFFFF) (if resident then r.gen else 0)
        r.plen r.words
      let q : Queued := { frame := t, at_ := z.nowNs, die := none }
      if z.face p = 3 ∧ z.mayStart p q then ({ z with forward := { z.forward with waiting := rest } }).put p q else z

end Sys2Proof.Machine
end

