-- ==== Sys2Proof/Machine/ZaQuota.lean ====
section
/-!
DEFINITION. Quotas and capacities of the ZA40: the sums of R196, the planning window of R199 with the reductions of R201 and
R455, and the link windows of R358.
-/
namespace Sys2Proof.Machine

/-! ### Model areas (R296). -/

def ModelSlot.areas (m : ModelSlot) : List ModelArea := m.cur.toList ++ m.oth.toList

def Za.areasOf (z : Za) (e : Nat) : List ModelArea := (z.models.filter (fun m => m.entry == e)).flatMap ModelSlot.areas
def Za.areas (z : Za) : List ModelArea := z.models.flatMap ModelSlot.areas

def Za.slot? (z : Za) (e s : Nat) : Option ModelSlot := z.models.find? (fun m => m.entry == e && m.slot == s)

/-- The MODEL pages of an area: its whole image (R296). -/
def ModelArea.pages (a : ModelArea) : Nat := pagesOf a.imageLen

def Za.modelPages (z : Za) (e : Nat) : Nat := ((z.areasOf e).map ModelArea.pages).sum

/-- Node-store pages free (R257). -/
def Za.nodePagesFree (z : Za) : Nat := 3072 - (z.areas.map (·.nodePages)).sum

/-- KiB of the weight area of a tile in use (R273). -/
def ModelArea.kibOn (a : ModelArea) (t : Nat) : Nat :=
  ((a.tiles.filter (fun (x : Nat × List Nat) => x.2.contains t)).map (fun x => prgKib a.image (sectWords a.image x.1))).sum

def Za.tileFree (z : Za) (t : Nat) : Nat := 1536 - (z.areas.map (fun a => a.kibOn t)).sum

/-- Tiles that a program may run on: not fenced, nor in a fenced quadrant (R401). -/
def Za.tileLive (z : Za) (t : Nat) : Bool := !z.fences.tiles.contains t && !z.fences.quadrants.contains (t / 8)
def Za.liveTiles (z : Za) : List Nat := (List.range 32).filter z.tileLive

/-! ### Capacities (R199, R201, R455). -/

/-- A share of an engine's capacity that the throttle step leaves: (16 - step) sixteenths, rounded down. -/
def Za.throttled (z : Za) (n : Nat) : Nat := n * (16 - z.power.step) / 16

def Za.quadrantsLeft (z : Za) : Nat := (List.range 4).countP (fun q => !z.fences.quadrants.contains q)

def Za.featCap (z : Za) : Nat := z.throttled 838860
def Za.ensCap (z : Za) : Nat := z.throttled (214748364 * z.quadrantsLeft / 4)
def Za.tensorCap (z : Za) : Nat := z.throttled (2097152 * z.quadrantsLeft / 4)
def Za.detCap (z : Za) : Nat := z.throttled 52428

/-- The declared visits of an entry; while it holds a spilled ensemble they count fourfold (R199, R258; log entry 62). -/
def Za.ensDeclared (z : Za) (e : Nat) (q : Quotas) : Nat := if (z.areasOf e).any (fun a => !a.spilled.isEmpty) then 4 * q.ensCost else q.ensCost

/-- The checker interval k (R271). -/
def Za.checkEvery (z : Za) : Nat := 2 ^ z.chkLog2

/-- The quotas of every entry not FREE, an entry's own replaced by those asked for. -/
def Za.quotasWith (z : Za) (e : Nat) (q : Quotas) : List (Nat × Quotas) :=
  ((z.ctxs.filter (fun (p : Nat × Ctx) => p.1 != e)).map (fun p => (p.1, p.2.q))) ++ [(e, q)]

def Za.quotasNow (z : Za) : List (Nat × Quotas) := z.ctxs.map (fun (p : Nat × Ctx) => (p.1, p.2.q))

def sumOf (qs : List (Nat × Quotas)) (f : Quotas → Nat) : Nat := (qs.map (fun (p : Nat × Quotas) => f p.2)).sum

/-- The Ensemble load of R199 at a checker interval. -/
def Za.ensLoad (z : Za) (k : Nat) (qs : List (Nat × Quotas)) : Nat :=
  let sum := (qs.map (fun (p : Nat × Quotas) => z.ensDeclared p.1 p.2)).sum
  sum + (sum + k - 1) / k

/-- The first part of the planning window, from 1, whose capacity the costs exceed (R199). -/
def Za.schedFault (z : Za) (k : Nat) (qs : List (Nat × Quotas)) : Option Nat :=
  if z.featCap < sumOf qs (·.featCost) then some 1
  else if z.ensCap < z.ensLoad k qs then some 2
  else if z.tensorCap < sumOf qs (·.tensorCost) then some 3
  else if z.detCap < sumOf qs (·.detCost) then some 4
  else none

/-- The resident costs exceed the capacities as they stand: SCHED_DEGRADED (R201). -/
def Za.schedDegraded (z : Za) : Bool := (z.schedFault z.checkEvery z.quotasNow).isSome

/-! ### Link windows (R358). -/

/-- The capacity of the windows with some gates on one link, in KiB. -/
def Za.windowKib (z : Za) (g : GateList) (gates p : Nat) : Nat := g.capacity gates (z.rate1000 p)

/-- The enabled optical links whose face carries Keora traffic. -/
def Za.opticalLinks (z : Za) : List Nat := (List.range 80).filter (fun p => z.linkOn p && z.face p != 0)

/-- The least capacity over the optical links, or none where no link is enabled (log entry 63). -/
def Za.leastWindow (z : Za) (gates : Nat) : Option Nat :=
  (z.opticalLinks.map (fun p => z.windowKib (((z.link p).gatesNext).getD (z.link p).gates) gates p)).min?

/-- The first sum of R196, in table order from 1, that does not hold. -/
def Za.quotaFault (z : Za) (qs : List (Nat × Quotas)) : Option Nat :=
  let beyond (cap : Option Nat) (n : Nat) : Bool := match cap with
    | some c => decide (c < n)
    | none => false
  if 256 < sumOf qs (·.podMin) then some 1
  else if 131072 < sumOf qs (·.sync) then some 2
  else if 64512 < sumOf qs (·.handles) then some 3
  else if 16384 < sumOf qs (·.modelPages) then some 4
  else if 768 < sumOf qs (·.digestTables) then some 5
  else if beyond (z.leastWindow 0x47) (sumOf qs (·.ctlMin)) || beyond (z.leastWindow 0x18) (sumOf qs (·.redMin)) then some 6
  else none

/-- A gate list committed on an optical link must leave room for what is admitted (R358). -/
def Za.gclFits (z : Za) (p : Nat) (g : GateList) : Bool :=
  decide (80 ≤ p) || !z.linkOn p || z.face p == 0 ||
    decide (sumOf z.quotasNow (·.ctlMin) ≤ z.windowKib g 0x47 p ∧ sumOf z.quotasNow (·.redMin) ≤ z.windowKib g 0x18 p)

/-! ### Holdings that a quota may not fall below (R196). -/

def Za.digestTablesHeld (c : Ctx) : Nat := c.tables.length

/-- The first row of R196's table whose new quota lies below what the context holds. -/
def Za.quotaReached (z : Za) (e : Nat) (c : Ctx) (q : Quotas) : Option Nat :=
  if q.podMax < z.podsHeld e then some 1
  else if q.sync < z.syncHeld c then some 2
  else if e ≠ 0 ∧ q.handles < z.handlesHeld c then some 3
  else if q.modelPages < z.modelPages e then some 4
  else if q.digestTables < Za.digestTablesHeld c then some 5
  else none

/-- The quotas in words 4 to 12 of an entry, as CTX_ADMIT and CTX_QUOTA carry them (R195, R381). -/
def quotasOf (ws : List W) : Quotas :=
  { podMax := wf ws 0 25 16, podMin := wf ws 0 9 0, sync := wf ws 1 17 0, handles := wf ws 2 16 0, modelPages := wf ws 3 31 16,
    digestTables := wf ws 3 1 0, ensCost := (word ws 4).toNat, tensorCost := (word ws 5).toNat, featCost := (word ws 6).toNat,
    detCost := wf ws 7 15 0, ctlMin := wf ws 8 31 16, redMin := wf ws 8 15 0 }

/-- The form of quotas (R195, R196): the byte offset, in the payload, of the field at fault. -/
def quotaForm (q : Quotas) : Option Nat :=
  if 256 < q.podMax then some 0 else if q.podMax < q.podMin then some 2 else if 2 < q.digestTables then some 15 else none

/-- The quotas of the fabric context as firmware creates it (R196). -/
def fabricQuotas : Quotas :=
  { podMax := 64, podMin := 16, sync := 1024, handles := 0, modelPages := 256, digestTables := 0, ensCost := 0, tensorCost := 0,
    featCost := 0, detCost := 0, ctlMin := 0, redMin := 0 }

end Sys2Proof.Machine
end

