-- ==== Sys2Proof/Machine/ZaRegs.lean ====
section
/-!
DEFINITION. The management space of the ZA40 (R474 to R477, R482): which words it has, what they read as, and what a write
to each does (R8, R9, R158, R178, R180, R181, R190, R271, R339, R356, R358, R360, R362, R365).
-/
namespace Sys2Proof.Machine

/-! ### Spans (R482). -/

/-- The words that answer in every boot phase (R206). -/
def zaBootMapped (a : Nat) : Bool :=
  decide (a = 0 ∨ a = 4 ∨ a = 0x10 ∨ a = 0x18 ∨ (0x100 ≤ a ∧ a < 0x200))

/-- An address lies in a span of R482. -/
def zaMapped (a : Nat) : Bool :=
  let inn (lo hi : Nat) : Bool := decide (lo ≤ a ∧ a < hi)
  zaBootMapped a || inn 0x2000 0x2008 || inn 0x3000 0x300C || inn 0x3010 0x301C || inn 0x3020 0x3024 || inn 0x3100 0x3620
    || inn 0x3800 0x3A00 || inn 0x5000 0x500C || inn 0x5100 0x5300 || inn 0x6000 0x600C || inn 0x7000 0x7010
    || inn 0x8000 0x8004 || inn 0x8008 0x8010 || inn 0x8100 0x83A0 || inn 0x9000 0x9018 || inn 0x9400 0x9800
    || inn 0xA000 0xA00C || inn 0xA010 0xA018 || inn 0xA020 0xA024 || inn 0xB000 0xB010 || inn 0xB040 0xB080
    || inn 0x10000 0x20000 || inn 0x40000 0x45200 || inn 0x50000 0x51480 || inn 0x60000 0x61480 || inn 0x200000 0x300000

/-- An address answers in the unit's boot phase. -/
def Za.mapped (z : Za) (a : Nat) : Bool := if z.boot.phase = 4 then zaMapped a else zaBootMapped a

/-! ### Status words. -/

/-- ZA_BOOT_STATUS (R206). -/
def Za.bootStatus (z : Za) : W :=
  let b := z.boot
  pack [(b.phase, 31, 28), (b.source, 27, 24), (b.port, 23, 16), (b.attempts, 15, 8), (b.lastError, 7, 0)]

/-- ZA_FW_VERSION: that of the running image, 0 while the ROM runs (R206). -/
def Za.fwVersion (z : Za) : W := if z.boot.phase = 4 then z.boot.fwVersion else 0

/-- ZA_MEM_ECC_STATUS (R190). -/
def Za.eccStatus (z : Za) : W :=
  pack [(min 0xFFFF z.ecc.corrected, 31, 16), (min 0xFF z.ecc.uncorrectable, 15, 8), (min 0xFF (z.ecc.retired.foldl max 0), 7, 0)]

/-- A PTP port runs (R155, R158); never one that faces a DTU (R156). -/
def Za.ptpOn (z : Za) (p : Nat) : Bool :=
  bit (z.reg 0x3020) 31 && bit (z.reg (0x310C + 16 * p)) 31 && z.face p != 1

def Za.ptpPort (z : Za) (p : Nat) : PtpPort := aGetD z.ptp.ports p .initial

/-- port_state: a port that runs and has heard nothing is listening. -/
def Za.ptpState (z : Za) (p : Nat) : Nat := if z.ptpOn p then max 1 (z.ptpPort p).state else 0

/-- ZA_ENS_STATUS (R271). -/
def Za.ensStatus (z : Za) : W :=
  let quads (l : List Nat) : Nat := (l.map (2 ^ ·)).sum
  pack [(quads z.fences.quadrants, 31, 28), (quads z.fences.suspect, 27, 24), (b2n z.fences.checkLost, 23, 23),
    (z.fences.lanes.length, 12, 0)]

/-- ZA_ENS_PAGES. -/
def Za.ensPages (z : Za) : W :=
  pack [(z.nodePagesFree, 27, 16), ((z.areas.map (fun a => a.spilled.length)).sum, 11, 0)]

/-- Words of 32 bits of a set. -/
def maskWord (l : List Nat) (i : Nat) : W := w32 ((l.filter (fun x => x / 32 == i)).map (fun x => 2 ^ (x % 32))).sum

/-- ZA_SEED_STATUS (R333). -/
def Za.seedLag (z : Za) : Nat := match z.seed with
  | some s => s.lastDone - s.committed
  | none => 0
def Za.seedStatus (z : Za) : W :=
  match z.seed with
  | some s => pack [(1, 31, 31), (b2n s.valid, 30, 30), (b2n s.resync, 29, 29), (b2n z.seedHeld.isSome, 28, 28),
      (s.partner, 23, 12), (min 4095 z.seedLag, 11, 0)]
  | none => pack [(b2n z.seedHeld.isSome, 28, 28)]

/-- ZA_PORT[P] words 1 and 2. -/
def Za.portWord (z : Za) (P i : Nat) : W :=
  let lo := if P < 40 then 2 * P else P + 40
  let hi := 2 * P + 1
  let two := z.portSplit P
  let lstate (p : Nat) : Nat := if !z.linkOn p || z.face p == 0 then 0 else (z.link p).state
  let lver (p : Nat) : Nat := if z.linkOn p then (z.link p).version else 0
  let rtt (p : Nat) : Nat := min 0xFFFF (((z.pairs p).map (fun e => e.2.rtt.foldl max 0)).foldl max 0 / 16)
  match i with
  | 1 => pack [(lstate lo, 31, 28), (if two then lstate hi else 0, 27, 24), (lver lo, 23, 16), (if two then lver hi else 0, 15, 8),
      (z.dies.countP (fun d => d.admitted && portOf d.link == P), 7, 0)]
  | 2 => pack [(rtt lo, 31, 16), (if two then rtt hi else 0, 15, 0)]
  | _ => 0

/-- ZA_RM_CFG to ZA_QMARGIN (R413). -/
def Za.rackWord (z : Za) (a : Nat) : W :=
  let own := z.rack.units.find? (fun u => u.agg == z.aggId)
  if a = 0x9000 then
    pack [(b2n (own.any (·.candidate)), 31, 31), (z.rack.units.length, 30, 24), ((own.map (·.priority)).getD 0, 23, 16), (z.rack.limit, 15, 0)]
  else if a = 0x9004 then pack [(z.role, 31, 30), (z.rmId, 23, 12), (z.standbyId, 11, 0)]
  else if a = 0x9008 then w32 z.rack.ownDone
  else if a = 0x900C then match z.rebuild with
    | some r => pack [(r.phase, 31, 28), (r.baseKind, 27, 26), (r.failed, 11, 0)]
    | none => 0
  else if a = 0x9010 then
    pack [((z.fences.channels.map (2 ^ ·)).sum, 31, 16), ((z.fences.cores.map (2 ^ ·)).sum, 13, 8), ((z.fences.quadrants.map (2 ^ ·)).sum, 3, 0)]
  else pack [(z.fences.margin.getD 3 0, 15, 12), (z.fences.margin.getD 2 0, 11, 8), (z.fences.margin.getD 1 0, 7, 4), (z.fences.margin.getD 0 0, 3, 0)]

/-- The tray site of a die (R77). -/
def DieEntry.site (d : DieEntry) : Nat := wf d.tag 1 23 16

/-- ZA_LIVE[s] (R410 to R412). -/
def Za.liveWord (z : Za) (s : Nat) : W :=
  match z.dies.find? (fun d => d.tag != [] && d.site == s) with
  | none => 0
  | some d => pack [(d.live, 31, 30), (b2n d.fenced.isSome, 29, 29), (d.claim, 28, 26), (d.admGen, 25, 18), (min 15 d.missed, 17, 14),
      (min 15 d.onTime, 13, 10)]

/-- ZA_FROST_STATUS (R425 to R431). -/
def Za.frostStatus (z : Za) : W :=
  let f := z.frost
  pack [(f.state, 31, 30), (b2n f.full, 29, 29), (b2n f.smear, 28, 28), (b2n f.cutComplete, 27, 27), (b2n f.capFull, 26, 26),
    (f.acked.length, 8, 0)]

/-- ZA_PWR_STATUS (R449, R455). -/
def Za.pwrStatus (z : Za) : W :=
  let p := z.power
  pack [(p.pin, 31, 22), (p.step, 21, 18), (b2n p.warn, 17, 17), (b2n p.capLimit, 16, 16), (b2n p.thermalLimit, 15, 15),
    (p.lull, 14, 12), (p.lastReset, 11, 8), (p.temps.foldl max 0, 7, 0)]

/-- ZA_MODEL_SLOT[e, s] (R311). -/
def AreaState.other : AreaState → Nat
  | .fetching => 1
  | .verifying => 2
  | .placing => 3
  | .ready => 4
  | .retiring => 5
  | .repairing => 6
  | .current => 0
  | .expelled => 0

def Za.slotWords (z : Za) (e s : Nat) : List W :=
  match z.slot? e s with
  | none => List.replicate 16 0
  | some m =>
    let cur := m.cur
    let oth := m.oth
    let digest (a : Option ModelArea) : List W := twoWords ((a.map (·.digest)).getD 0)
    let repair := cur.filter (fun a => a.state != .current && a.state != .expelled)
    let coming : Option ModelArea := match repair with
      | some a => some a
      | none => oth
    let source := (coming.bind (·.fetch)).map (·.source)
    let kind := match source with
      | some (.agg _) => 1
      | some .software => 2
      | none => 0
    let src := match source with
      | some (.agg i) => i
      | _ => 0
    let chunks := match coming with
      | some a => if 4 * a.image.length = a.imageLen then (a.imageLen + 2 ^ 20 - 1) / 2 ^ 20 else 4 * a.image.length / 2 ^ 20
      | none => 0
    let det := ((z.ctx? e).map (·.q.detCost)).getD 0
    let pages := (m.areas.map (fun a => a.pages + imgStatePages a.image det)).sum
    let state := match cur with
      | some a => if a.state = .current then 1 else 2
      | none => 0
    [pack [(state, 31, 28), (if repair.isSome then 6 else (oth.map (fun a => a.state.other)).getD 0, 27, 24), ((cur.map (·.version)).getD 0, 15, 0)],
      ((cur.map (·.modelId)).getD 0)] ++ digest cur ++
    [pack [((oth.map (·.version)).getD 0, 31, 16)], (oth.map (·.modelId)).getD 0] ++ digest oth ++
    [w32 ((oth.map (·.front)).getD 0), pack [(pages, 31, 16), ((m.areas.map (·.nodePages)).sum, 11, 0)], w32 m.agree,
      pack [(src, 31, 20), (kind, 19, 16), (chunks, 12, 0)], 0, 0, 0, 0]

/-- The word at a mapped address of the management space (R476): WO and reserved words read zero. -/
def Za.mgmtRead (z : Za) (a : Nat) : W :=
  if a = 0 then zaIdent
  else if a = 4 then zaVercap
  else if a = 0x10 then z.bootStatus
  else if a = 0x18 then z.fwVersion
  else if a < 0x200 then z.tag.readWord (a - 0x100)
  else if a = 0x2004 then z.eccStatus
  else if a = 0x3008 then z.time.stateWord (z.ptp.parent.getD 0xFF)
  else if 0x3010 ≤ a ∧ a < 0x3020 then z.time.stepWord ((a - 0x3010) / 4)
  else if 0x3100 ≤ a ∧ a < 0x3800 then
    let p := (a - 0x3100) / 16
    if a % 16 = 12 then setFld (z.reg a) 30 28 (z.ptpState p) else z.reg a
  else if 0x3800 ≤ a ∧ a < 0x3A00 then (z.marks.getD ((a - 0x3800) / 32) (.initial 0)).word (a / 4 % 8)
  else if a = 0x5004 then z.ensStatus
  else if a = 0x5008 then z.ensPages
  else if 0x5100 ≤ a ∧ a < 0x5300 then maskWord z.fences.lanes ((a - 0x5100) / 4)
  else if a = 0x6000 then pack [((z.fences.quadrants.map (2 ^ ·)).sum, 31, 28), (z.fences.tiles.length, 5, 0)]
  else if a = 0x6004 then maskWord z.fences.tiles 0
  else if a = 0x6008 then w32 (z.liveTiles.map z.tileFree).sum
  else if a = 0x7000 then z.seedStatus
  else if a = 0x7004 then pack [((z.seedHeld.map (·.primary)).getD 0, 23, 12)]
  else if a = 0x7008 then w32 ((z.seedHeld.map (·.committed)).getD 0)
  else if 0x8100 ≤ a ∧ a < 0x83A0 ∧ a % 16 ≠ 0 then z.portWord ((a - 0x8100) / 16) (a / 4 % 4)
  else if 0x9000 ≤ a ∧ a < 0x9400 then z.rackWord a
  else if 0x9400 ≤ a ∧ a < 0x9800 then z.liveWord ((a - 0x9400) / 4)
  else if a = 0xA004 then z.frostStatus
  else if a = 0xA008 then z.frost.frostId
  else if a = 0xA010 then w32 (z.frost.t / 2 ^ 32)
  else if a = 0xA014 then w32 z.frost.t
  else if a = 0xA020 then pack [(b2n z.factory, 31, 31), (z.injected, 15, 0)]
  else if a = 0xB000 then z.power.cfg
  else if a = 0xB004 then pack [(z.power.vin.toNat, 31, 16), (z.power.iin.toNat, 15, 0)]
  else if a = 0xB008 then z.pwrStatus
  else if a = 0xB00C then pack [(z.power.temps.getD 3 0, 31, 24), (z.power.temps.getD 2 0, 23, 16), (z.power.temps.getD 1 0, 15, 8),
    (z.power.temps.getD 0 0, 7, 0)]
  else if 0xB040 ≤ a ∧ a < 0xB080 then
    let e := z.power.events.getD ((a - 0xB040) / 8) (0, 0)
    if a % 8 = 0 then e.1 else e.2
  else if 0x10000 ≤ a ∧ a < 0x20000 then word (z.ctxWords ((a - 0x10000) / 64)) (a / 4 % 16)
  else if 0x40000 ≤ a ∧ a < 0x45200 then
    if a % 256 = 0 then setFld (z.reg a) 31 31 (b2n ((z.link ((a - 0x40000) / 256)).gatesNext).isSome) else z.reg a
  else if 0x200000 ≤ a then
    let i := (a - 0x200000) / 64
    word (z.slotWords (i / 16) (i % 16)) (a / 4 % 16)
  else z.reg a

/-- A read of ZA_MEM_ECC_STATUS clears what it returns (R476). -/
def Za.eccClear (z : Za) : Za := { z with ecc := { z.ecc with corrected := 0, uncorrectable := 0 } }

/-! ### Writes. -/

/-- What a write answers: the unit after it and the status it earns. -/
abbrev RegWrite := Za × Nat

def Za.earn (z : Za) (status : Nat) : Za := { z with cmds := { z.cmds with regStatus := status } }

/-- A register word kept as written, when it earns OK. -/
def Za.keep (z : Za) (a : Nat) (w : W) (status : Nat) : RegWrite := if status = stOk then (z.setReg a w, stOk) else (z, status)

/-- The form of a plain register word: its reserved bits and the ranges of its fields. -/
def zaPlainStatus (a : Nat) (w : W) : Nat :=
  let rsv (mask : Nat) : Bool := w.toNat &&& mask != 0
  let inn (n lo hi : Nat) : Bool := decide (lo ≤ n ∧ n ≤ hi)
  if a = 0x2000 then (if rsv 0x7FFFFF00 then stReserved else if inn (fld w 7 0) 1 64 then stOk else stBadParam)
  else if a = 0x3000 then timeCtlStatus w
  else if a = 0x3004 then timeServoStatus w
  else if a = 0x3020 then (if rsv 0x3F000000 then stReserved else if 128 ≤ fld w 23 16 then stBadParam else stOk)
  else if a = 0x700C then (if rsv 0xFFFFFE00 then stReserved else if inn (fld w 8 0) 1 256 then stOk else stBadParam)
  else if a = 0x8000 then
    (if rsv 0x0000FF00 then stReserved else if fld w 31 16 < 0x600 ∨ fld w 31 16 = 0x88F7 then stBadParam else stOk)
  else if a = 0x8008 then (if rsv 0xFFFF0000 then stReserved else stOk)
  else if a = 0xA000 then
    (if rsv 0x7C00 then stReserved else if fld w 9 0 < 16 ∨ inn (fld w 31 16) 0x29 0x7FFF then stBadParam else stOk)
  else if a = 0xB000 then
    (if rsv 0x3FFF then stReserved else if inn (fld w 31 22) 400 820 && inn (fld w 21 14) 70 105 then stOk else stBadParam)
  else stOk

/-- ZA_ENS_CFG (R271): in force from the next tick, and refused where the load would then not fit. -/
def Za.ensCfgStatus (z : Za) (w : W) : Nat :=
  if fld w 31 4 ≠ 0 then stReserved
  else if fld w 3 0 < 3 ∨ 10 < fld w 3 0 then stBadParam
  else if z.ensCap < z.ensLoad (2 ^ fld w 3 0) z.quotasNow then stSchedFull
  else stOk

/-- A word of ZA_PTP_PORT (R158). -/
def Za.ptpWrite (z : Za) (a : Nat) (w : W) : RegWrite :=
  let p := (a - 0x3100) / 16
  if a % 16 ≠ 12 then z.keep a w stOk
  else if fld w 27 0 ≠ 0 then (z, stReserved)
  else if bit w 31 && decide (p < 80 ∧ p % 2 = 1) && !z.portSplit (portOf p) then (z, stBadParam)
  else
    let off := !bit w 31 && z.ptp.parent == some p
    let z := z.setReg a (pack [(fld w 31 31, 31, 31)])
    (if off then { z with ptp := { z.ptp with parent := none } } else z, stOk)

/-- A word of ZA_MARK (R178, R180). -/
def Za.markWrite (z : Za) (i k : Nat) (w : W) : RegWrite :=
  let t := z.marks.getD i (.initial 0)
  let sound := decide (fld w 29 16 = 0 ∧ fld w 5 0 = 0)
  let st := triggerStatus t k w sound (decide (fld w 15 8 ≤ 39 ∧ fld w 7 6 ≠ 3)) 16384
  if st ≠ stOk then (z, st)
  else match t.write z.nowNs k w with
    | none => (z, stTrigPast)
    | some t => ({ z with marks := z.marks.set i t }, stOk)

/-- The links of a port. -/
def linksOf (P : Nat) : List Nat := if P < 40 then [2 * P, 2 * P + 1] else [P + 40]

/-- The port carries something that a loop would cut off (R365). -/
def Za.portBusy (z : Za) (P : Nat) : Bool :=
  let toward (a : Nat) : Bool := a != z.aggId && portOf (z.linkToward a) == P
  let members := z.jobs.flatMap (fun (c : Nat × Ctx) => c.2.members.map (fun m => (c.1, m.die)))
  z.dies.any (fun d => portOf d.link == P && members.any (fun x => x.2 == d.die))
  || z.seed.any (fun s => toward s.partner) || z.seedHeld.any (fun s => toward s.primary)
  || (z.models.any (fun m => (members.filter (fun x => x.1 == m.entry)).any (fun x => toward (z.hostOf x.2))))
  || (!z.rack.units.isEmpty && (if z.isRm then z.rack.units.any (fun u => toward u.agg) else toward z.rmId))
  || z.ptp.parent.any (fun p => portOf p == P)

/-- The status a word 0 of ZA_PORT earns (R337, R365). -/
def Za.portStatus (z : Za) (P : Nat) (w : W) : Nat :=
  let old := z.portW0 P
  let mgmt := decide (40 ≤ P)
  if fld w 26 24 ≠ 0 ∨ fld w 19 0 ≠ 0 then stReserved
  else if !mgmt && bit w 30 != bit old 30 && bit old 31 then stBadParam
  else if 5 ≤ fld w 29 27 ∨ (mgmt ∧ (fld w 29 27 ≠ 0 ∨ fld w 23 22 ≠ 3)) then stBadParam
  else if fld w 29 27 ≠ 0 ∧ fld w 29 27 ≠ fld old 29 27 ∧ z.portBusy P then stPortBusy
  else stOk

/-- A write of word 0 of ZA_PORT: a change of enable, split, face or loop restarts the port's links. -/
def Za.portWrite (z : Za) (P : Nat) (w : W) : RegWrite :=
  let st := z.portStatus P w
  if st ≠ stOk then (z, st)
  else
    let w' := if 40 ≤ P then setFld (setFld w 30 30 0) 21 20 0 else w
    let changed := w' != z.portW0 P
    let z := z.setReg (0x8100 + 16 * P) w'
    (if changed then (linksOf P).foldl Za.linkRestart z else z, stOk)

/-- The pending list of a link (R356). -/
def Za.pendingGates (z : Za) (p : Nat) (w0 : W) : GateList :=
  { cycleLog2 := fld w0 19 16
    entries := (List.range (fld w0 5 0)).map (fun i =>
      let e := z.reg (0x40000 + 256 * p + 4 + 4 * i)
      (fld e 31 24, fld e 11 0)) }

/-- Word 0 of ZA_GCL (R356, R358): commit checks the pending list, which then applies at the next tick. -/
def Za.gclWrite (z : Za) (p : Nat) (w : W) : RegWrite :=
  let a := 0x40000 + 256 * p
  let g := z.pendingGates p w
  if fld w 30 20 ≠ 0 ∨ fld w 15 6 ≠ 0 then (z, stReserved)
  else if bit w 31 then
    if fld w 5 0 > 32 ∨ !g.wf (decide (80 ≤ p)) then (z, stGclFormat)
    else if !z.gclFits p g then (z, stGclQuota)
    else ((z.setReg a (setFld w 31 31 0)).modLink p (fun l => { l with gatesNext := some g }), stOk)
  else if fld w 19 16 < 10 ∨ 14 < fld w 19 16 ∨ fld w 5 0 < 2 ∨ 32 < fld w 5 0 then (z, stBadParam)
  else ((z.setReg a w).modLink p (fun l => { l with gatesNext := none }), stOk)

/-- An entry word of ZA_GCL. -/
def Za.gclEntryWrite (z : Za) (a : Nat) (w : W) : RegWrite :=
  if 132 ≤ a % 256 then (z, if w = 0 then stOk else stReserved)
  else z.keep a w (if fld w 23 12 ≠ 0 then stReserved else if fld w 11 0 = 0 then stBadParam else stOk)

/-- The status a word of ZA_SHAPE or ZA_POLICE earns. -/
def rateStatus (police : Bool) (k : Nat) (w : W) : Nat :=
  if k = 1 then (if fld w 31 16 ≠ 0 then stReserved else if fld w 15 0 < 16 then stBadParam else stOk)
  else if fld w 29 10 ≠ 0 ∨ (police ∧ bit w 30) then stReserved
  else if 1000 < fld w 9 0 ∨ (!police ∧ bit w 31 ∧ fld w 9 0 = 0) then stBadParam
  else stOk

/-- A shaper as its two register words give it. -/
def Za.shaperRegs (z : Za) (base p c : Nat) : Bool × Nat × Nat :=
  let w0 := z.reg (base + 64 * p + 8 * c)
  (bit w0 31, fld w0 9 0, 1024 * fld (z.reg (base + 64 * p + 8 * c + 4)) 15 0)

/-- A word of ZA_SHAPE (R360), in force from the next slot boundary. -/
def Za.shapeWrite (z : Za) (a : Nat) (w : W) : RegWrite := z.keep a w (rateStatus false (a / 4 % 2) w)

/-- A word of ZA_POLICE (R362): a policer that is off, or whose rate is 0, lets everything pass. -/
def Za.policeWrite (z : Za) (a : Nat) (w : W) : RegWrite :=
  let p := (a - 0x60000) / 64
  let c := a / 8 % 8
  match z.keep a w (rateStatus true (a / 4 % 2) w) with
  | (z, st) =>
    let r := z.shaperRegs 0x60000 p c
    let sh : Shaper := { enabled := r.1, rate := r.2.1, burst := r.2.2, v := z.now * r.2.1 }
    (if st = stOk then z.modLink p (fun l => { l with policers := aPut l.policers c sh }) else z, st)

/-- A word of the tag area (R7, R482): the serial is not written, which is counted. DESIGN CHOICE (log entry 190): once for
each word. -/
def Za.tagWordWrite (z : Za) (a : Nat) (w : W) : RegWrite :=
  if a < 0x110 then (z.count (.misc .tagIgnored), stOk) else ({ z with tag := z.tag.writeWord (a - 0x100) w }, stOk)

/-- One word of the management space written by a command; a word that earns another status than OK changes nothing (R382). RO
words ignore what is written. -/
def Za.mgmtWrite (z : Za) (a : Nat) (w : W) : RegWrite :=
  if a < 0x100 then (z, stOk)
  else if a < 0x200 then z.tagWordWrite a w
  else if [0x2000, 0x3000, 0x3004, 0x3020, 0x700C, 0x8000, 0x8008, 0x800C, 0xA000].contains a then z.keep a w (zaPlainStatus a w)
  else if 0x3100 ≤ a ∧ a < 0x3800 then z.ptpWrite a w
  else if 0x3800 ≤ a ∧ a < 0x3A00 then
    if a / 4 % 8 < 5 then z.markWrite ((a - 0x3800) / 32) (a / 4 % 8) w
    else (z, if a / 4 % 8 = 7 ∧ w ≠ 0 then stReserved else stOk)
  else if a = 0x5000 then z.keep a w (z.ensCfgStatus w)
  else if 0x8100 ≤ a ∧ a < 0x83A0 then
    if a % 16 = 0 then z.portWrite ((a - 0x8100) / 16) w else (z, if a % 16 = 12 ∧ w ≠ 0 then stReserved else stOk)
  else if a = 0x9000 then ({ z with rack := { z.rack with limit := fld w 15 0 } }, stOk)
  else if a = 0xB000 then
    let st := zaPlainStatus a w
    (if st = stOk then { z with power := { z.power with cfg := w, cfgNext := none } } else z, st)
  else if 0x40000 ≤ a ∧ a < 0x45200 then
    if a % 256 = 0 then z.gclWrite ((a - 0x40000) / 256) w else z.gclEntryWrite a w
  else if 0x50000 ≤ a ∧ a < 0x51480 then z.shapeWrite a w
  else if 0x60000 ≤ a ∧ a < 0x61480 then z.policeWrite a w
  else (z, stOk)

/-- The words of a REG_WRITE taken as if written in one cycle: the last first, so that a commit or an arming sees the others
(R178, R356, R382). The second component is the status and index of the first word that would be rejected. -/
def Za.mgmtWrites (z : Za) : List (Nat × Nat × W) → Za × Option (Nat × Nat)
  | [] => (z, none)
  | (i, a, w) :: r =>
    let p := Za.mgmtWrites z r
    let q := p.1.mgmtWrite a w
    if q.2 = stOk then (q.1, p.2) else (p.1, some (q.2, i))

/-- A register-write row: one word, written by a command of the management space; nothing happens where the address is not
mapped. -/
def Za.rowWrite (z : Za) (a : Nat) (w : W) : Za :=
  if !z.running || !z.mapped a then z
  else
    let q := z.mgmtWrite a w
    q.1.earn q.2

/-- GCL_COMMIT (R356, R358). -/
def execGclCommit (link : Fin 82) (data : W) (s : State) : Answer := .next (s.onZa (·.rowWrite (0x40000 + 256 * link.val) data))

/-- SHAPER_CHANGE (R360). -/
def execShaperChange (link : Fin 82) (cls : Fin 8) (word : Fin 2) (data : W) (s : State) : Answer :=
  .next (s.onZa (·.rowWrite (0x50000 + 64 * link.val + 8 * cls.val + 4 * word.val) data))

/-- PORT_CONFIG_WRITE (R365). -/
def execPortConfigWrite (port : Fin 42) (data : W) (s : State) : Answer := .next (s.onZa (·.rowWrite (0x8100 + 16 * port.val) data))

/-- MARK_ARM (R180). -/
def execMarkArm (mark : Fin 16) (word : Fin 5) (data : W) (s : State) : Answer :=
  .next (s.onZa (·.rowWrite (0x3800 + 32 * mark.val + 4 * word.val) data))

/-- ECC_STATUS_READ (R476). -/
def execEccStatusRead (s : State) : Answer := .next (if s.za.running then s.onZa Za.eccClear else s)

end Sys2Proof.Machine
end

