-- ==== Sys2Proof/Machine/LinkCmds.lean ====
section
/-!
DEFINITION. The link-level commands of both units, and the ZA40's link losses and FORWARD fill (R72, R346 to R354, R357, R363,
R395).
-/
namespace Sys2Proof.Machine

/-- A command for the unit it names. -/
def State.onSide (s : State) (side : Side) (f : Dtu → Dtu) (g : Za → Za) : State :=
  match side with
  | .dtu => s.onDtu f
  | .za => s.onZa g

/-- HELLO (R346, R348, R78). -/
def execHello (side : Side) (link : Fin 82) (frame : Frame) (s : State) : Answer :=
  .next (s.onSide side (·.hello frame) (·.hello link.val frame))

/-- CREDIT (R350 to R352). -/
def execCredit (side : Side) (link : Fin 82) (frame : Frame) (s : State) : Answer :=
  .next (s.onSide side (·.credit frame) (·.credit link.val frame))

/-- CREDIT_SEND (R352): on a DTU-facing link the die names the pair. -/
def Za.creditSendRow (z : Za) (p die : Nat) : Za :=
  if !z.linkOn p || z.face p == 0 || (z.link p).state == 6 then z
  else if z.face p = 1 then
    match z.die? die with
    | some d => if d.link = p then z.creditSend p (some die) else z
    | none => z
  else z.creditSend p none

def execCreditSend (side : Side) (link : Fin 82) (die : BitVec 20) (s : State) : Answer :=
  .next (s.onSide side Dtu.creditSend (·.creditSendRow link.val die.toNat))

/-- ECHO (R353). -/
def execEcho (side : Side) (link : Fin 82) (frame : Frame) (residence : W) (s : State) : Answer :=
  .next (s.onSide side (·.echo frame residence) (·.echo link.val frame residence))

/-- ECHO_REPLY (R353, R442, R443): on a looped link the frame is the port's own ECHO come back. -/
def execEchoReply (side : Side) (link : Fin 82) (frame : Frame) (elapsed : W) (s : State) : Answer :=
  .next (s.onSide side (fun d => (d.echoReply frame elapsed).loopEcho)
    (fun z => if (z.link link.val).state = 6 then z.echoLooped link.val frame elapsed else z.echoReply link.val frame elapsed))

/-- LINK_RESET (R354). -/
def execLinkReset (side : Side) (link : Fin 82) (frame : Frame) (s : State) : Answer :=
  .next (s.onSide side (·.linkResetFrame frame) (·.linkResetFrame link.val frame))

/-! ### PTP frames (R155 to R157). -/

def Za.ptpLat (z : Za) (p i : Nat) : W := regGet zaResetWord z.ptp.lat (0x3100 + 16 * p + 4 * i)

/-- Half of the declared asymmetry. -/
def Za.asym (z : Za) (p : Nat) : Int := ofTwos 32 (z.ptpLat p 2).toNat / 2

def Za.ingress (z : Za) (p : Nat) (x : Stamp) : Int := (x : Int) - (z.ptpLat p 0).toNat + z.asym p
def Za.egress (z : Za) (p : Nat) (x : Stamp) : Int := (x : Int) + (z.ptpLat p 1).toNat - z.asym p

def Za.modPtp (z : Za) (p : Nat) (f : PtpPort → PtpPort) : Za :=
  { z with ptp := { z.ptp with ports := aPut z.ptp.ports p (f (z.ptpPort p)) } }

def Za.ptpRuns (z : Za) (p : Nat) : Bool := z.running && z.ptpOn p && z.linkOn p

/-- Wire bytes of a PTP frame: its Ethernet header and the length that IEEE 1588-2019 gives the message. -/
def PtpOut.bytes (m : PtpOut) : Nat :=
  match m with
  | .sync _ => 84
  | .followUp _ _ => 84
  | .delayReq _ => 84
  | .delayResp _ _ _ => 92
  | .announce _ _ => 102

/-- A PTP frame joins the TIME class of its port (R156): a class that had nothing waiting wakes its shaper (R359). -/
def Za.ptpSend (z : Za) (p : Nat) (m : PtpOut) : Za :=
  let idle := (z.ptpPort p).out.isEmpty && (z.link p).queue.all (fun q => q.frame.cls != clsTime)
  let z := if idle then z.modLink p (fun l => { l with shapers := modAt l.shapers clsTime (fun sh => sh.wake z.now) }) else z
  z.modPtp p (fun q => { q with out := q.out ++ [(z.nowNs, m)] })

/-- The PTP frame at the head of its port may start: the TIME gate is and stays open and the shaper allows it (R357). Credits
are Triheud's and are not asked. -/
def Za.ptpMay (z : Za) (p : Nat) (m : PtpOut) : Bool :=
  let l := z.link p
  let open_ := l.gates.openFor clsTime (z.nowNs % 2 ^ l.gates.cycleLog2)
  z.ptpRuns p && decide (0 < open_ ∧ m.bytes * 1000 ≤ open_ * z.rate1000 p) &&
    (l.shapers.getD clsTime { enabled := false, rate := 0, burst := 0, v := 0 }).allows z.now m.bytes

/-- No Triheud frame that may start goes before it: none of FROST or LINK, none of TIME queued earlier (R357). -/
def Za.ptpFirst (z : Za) (p at_ : Nat) : Bool :=
  match z.pick p with
  | none => true
  | some q => q.frame.cls != clsFrost && q.frame.cls != clsLink && !(q.frame.cls == clsTime && decide (q.at_ < at_))

/-- A PTP frame leaves. A Sync takes its egress stamp as it passes the reference plane, which its Follow_Up carries; a
Delay_Req takes the stamp that its Delay_Resp is set against (R155, R157). -/
def Za.ptpLeave (z : Za) (p : Nat) (m : PtpOut) : Za :=
  let z := z.modLink p (fun l => { l with shapers := modAt l.shapers clsTime (fun sh => sh.charge z.now m.bytes) })
  let z := z.modPtp p (fun q => { q with out := q.out.drop 1, wire := some m })
  match m with
  | .sync seq => z.ptpSend p (.followUp seq (z.egress p z.now).toNat)
  | .delayReq seq => z.modPtp p (fun q => { q with delayAt := some (seq, z.now) })
  | .followUp _ _ => z
  | .delayResp _ _ _ => z
  | .announce _ _ => z

/-- FRAME_TRANSMIT of the ZA40: a link carries PTP frames in the TIME class beside Triheud's (R156). -/
def Za.transmitNext (z : Za) (p : Nat) : Za :=
  match (z.ptpPort p).out with
  | [] => z.transmit p
  | x :: _ => if z.ptpMay p x.2 && z.ptpFirst p x.1 then z.ptpLeave p x.2 else z.transmit p

/-- FRAME_TRANSMIT (R357, R361). -/
def execFrameTransmit (side : Side) (link : Fin 82) (s : State) : Answer :=
  .next (s.onSide side Dtu.transmitNext (·.transmitNext link.val))

/-- DTU_LINK_STATE_CHANGE (R72, R372). -/
def execDtuLinkStateChange (die : BitVec 20) (s : State) : Answer := .next (s.onZa (·.dieDown die.toNat))

/-- LINK_LOST (R395): the link's DTUs are down, and it no longer carries the PTP parent. -/
def Za.linkLost (z : Za) (p : Nat) : Za :=
  if !z.linkUp p then z
  else
    let z := z.linkRestart p
    let z := if z.ptp.parent = some p then { z with ptp := { z.ptp with parent := none } } else z
    z.raise .linkLost .link p .none 0 0

def execLinkLost (link : Fin 82) (s : State) : Answer := .next (s.onZa (·.linkLost link.val))

/-- FORWARD_FILL_CHANGE (R363): drops and holds begin and end at their thresholds; a hold that changes is due in a CREDIT. -/
def Za.forwardFill (z : Za) (f : Nat) : Za :=
  let w := z.forward
  let drop := if 75 ≤ f then true else if f < 70 then false else w.traceDrop
  let hold := if 90 ≤ f then true else if f < 80 then false else w.hold
  let w : Forward := { w with percent := f, traceDrop := drop, hold, full := decide (f = 100) }
  let due (e : Endpoint) (changed : Bool) : Endpoint := { e with creditDue := e.creditDue || changed }
  let dies := z.dies.map (fun d => { d with bulkHeld := hold, ends := due d.ends (d.bulkHeld != hold) })
  let z := { z with forward := w, dies }
  ((List.range 82).filter (fun p => z.face p == 2)).foldl (fun z p =>
    z.modLink p (fun l => { l with bulkHeld := hold, ends := due l.ends (l.bulkHeld != hold) })) z

def execForwardFillChange (percent : Fin 101) (s : State) : Answer :=
  .next (if s.za.running then s.onZa (·.forwardFill percent.val) else s)

end Sys2Proof.Machine
end

