-- ==== Sys2Proof/Machine/ZaTime.lean ====
section
/-!
DEFINITION. Network time in the ZA40: the PTP engine, parents and samples, TIME_SYNC and TIME_ECHO, steps and markers (R153 to
R174, R179, R180).
-/
namespace Sys2Proof.Machine

/-- The FTC reaches an instant. -/
def Za.reach (z : Za) (ns : Nat) : Za := { z with time := z.time.reach z.slewMax zaNominal ns }

/-- An instant the FTC may be moved on to: no tick that is due lies before it. -/
def Za.mayReach (z : Za) (ns : Nat) : Bool := !z.time.ticking || decide (ns ≤ 2 ^ 20 * z.time.nextFrame)

/-- Markers after the FTC was stepped forward over instants (R179). -/
def Za.stepMarks (z : Za) : Za :=
  let r := z.marks.map (fun t => t.stepOver z.nowNs)
  { z with marks := r.map Prod.fst, time := z.time.count .trigSkipped (r.map Prod.snd).sum }

/-- What a change of the time unit raises in a ZA40 (R163, R179, R484). -/
def Za.timeEvents (z : Za) : List TimeEvent → Za
  | [] => z
  | .jump off :: r =>
    let ns := toTwos 32 (clampInt (-(2 ^ 31 - 1)) (2 ^ 31 - 1) (Int.tdiv off 65536))
    (z.raise .timeJump .timeUnit (z.ptp.parent.getD 0xFF) .timeSample 0 ns).timeEvents r
  | .step _ :: r => (z.stepMarks).timeEvents r
  | .holdover :: r => z.timeEvents r
  | .lock :: r => z.timeEvents r

/-- The ZA40 with its time unit changed and what that raises. -/
def Za.withTime (z : Za) (p : TimeUnit × List TimeEvent) : Za := { z with time := p.1 }.timeEvents p.2

/-- The lock threshold of a ZA40 (R159). -/
def zaLock : Nat := 2

/-- One edge of the time clock with nothing commanded (R154). -/
def Za.edge (z : Za) : Za := if z.power.powered then { z with time := z.time.edge z.slewMax zaNominal } else z


/-! ### The best master clock (R155). -/

def Za.slaveOnly (z : Za) : Bool := bit (z.reg 0x3020) 30

/-- Our own data set: clockClass 255 where we are slave only. -/
def Za.ownData (z : Za) : AnnounceData :=
  { priority1 := BitVec.ofNat 8 (fld (z.reg 0x3020) 15 8)
    clockClass := if z.slaveOnly then 255 else BitVec.ofNat 8 (Config.clockQuality 0)
    clockAccuracy := BitVec.ofNat 8 (Config.clockQuality 1), variance := BitVec.ofNat 16 (Config.clockQuality 2)
    priority2 := BitVec.ofNat 8 (fld (z.reg 0x3020) 7 0), gmIdentity := Config.clockIdentity, stepsRemoved := 0
    identity := Config.clockIdentity, utcOffset := z.time.utcOffset, ptpScale := false }

/-- The outcome of a comparison: which is better, and whether only by topology. -/
inductive Better
  | first | firstByTopology | second | secondByTopology
  deriving DecidableEq, Repr

/-- The attributes compared before topology, in their order. -/
def dataKey (d : AnnounceData) : List Nat :=
  [d.priority1.toNat, d.clockClass.toNat, d.clockAccuracy.toNat, d.variance.toNat, d.priority2.toNat, d.gmIdentity.toNat]

def lexLess : List Nat → List Nat → Bool
  | a :: as, b :: bs => decide (a < b) || (a == b && lexLess as bs)
  | _, _ => false

/-- The default data set comparison; the receivers of both are ours, on ports `pa` and `pb`. -/
def compareData (a b : AnnounceData) (pa pb : Nat) : Better :=
  let own := Config.clockIdentity.toNat
  if a.gmIdentity ≠ b.gmIdentity then (if lexLess (dataKey a) (dataKey b) then .first else .second)
  else
    let sa := a.stepsRemoved.toNat
    let sb := b.stepsRemoved.toNat
    if sb + 1 < sa then .second
    else if sa + 1 < sb then .first
    else if sb < sa then (if own < a.identity.toNat then .second else .secondByTopology)
    else if sa < sb then (if own < b.identity.toNat then .first else .firstByTopology)
    else if a.identity.toNat < b.identity.toNat then .firstByTopology
    else if b.identity.toNat < a.identity.toNat then .secondByTopology
    else if pa ≤ pb then .firstByTopology else .secondByTopology

/-- The ports on which a master is announced. -/
def Za.announced (z : Za) : List (Nat × AnnounceData) :=
  (List.range 82).filterMap (fun p => if z.ptpOn p then ((z.ptpPort p).best).map (fun d => (p, d)) else none)

/-- Ebest: the best of them. -/
def Za.bestPort (z : Za) : Option (Nat × AnnounceData) :=
  match z.announced with
  | [] => none
  | x :: r => some (r.foldl (fun (b : Nat × AnnounceData) y =>
      match compareData b.2 y.2 b.1 y.1 with
      | .first => b
      | .firstByTopology => b
      | .second => y
      | .secondByTopology => y) x)

/-- The state decision of a port (R155, R158): 1 listening, 2 master, 3 slave, 4 passive. -/
def Za.decide_ (z : Za) (best : Option (Nat × AnnounceData)) (p : Nat) : Nat :=
  match best with
  | none => if z.slaveOnly then 1 else 2
  | some b =>
    let ownBetter := match compareData z.ownData b.2 p b.1 with
      | .first => true
      | .firstByTopology => true
      | .second => false
      | .secondByTopology => false
    if !z.slaveOnly && ownBetter then 2
    else if b.1 = p then 3
    else match (z.ptpPort p).best with
      | none => 2
      | some d => match compareData b.2 d b.1 p with
        | .firstByTopology => 4
        | .first => 2
        | .second => 2
        | .secondByTopology => 2


/-- The algorithm re-runs: every port takes its state; a parent that is announced no more is followed no more. -/
def Za.runBmc (z : Za) : Za :=
  let best := z.bestPort
  let z := ((List.range 82).filter z.ptpOn).foldl (fun z p => z.modPtp p (fun q => { q with state := z.decide_ best p })) z
  match z.ptp.parent with
  | some p => if ((z.ptpPort p).best).isNone || !z.ptpOn p then { z with ptp := { z.ptp with parent := none } } else z
  | none => z

/-! ### PTP messages. -/

/-- One sample from the parent port (R159 to R163); an injection offsets it by n ns (R447). -/
def Za.sample (z : Za) (free : Nat) (far : Bool) (offset : Int) : Za :=
  let inj := z.injections.find? (fun i => i.code == 0x08)
  let offset := offset + (inj.map (fun i => (65536 * i.n : Nat))).getD 0
  let z : Za := match inj with
    | some i => { z with injections := z.injections.erase i }
    | none => z
  z.withTime (z.time.sample zaNominal z.slewMax z.jumpThr zaLock free far offset)

/-- The master followed: it is our parent, on this port and by its identity (R164). -/
def Za.isParent (z : Za) (p : Nat) (source : BitVec 64) : Bool := z.ptp.parent == some p && z.ptp.parentId == source

/-- A Sync whose origin time is known: slave minus master, and a sample when it came from the parent. Before the first delay
measurement the delay is a free value. -/
def Za.syncDone (z : Za) (free p : Nat) (source : BitVec 64) (origin : Stamp) (ingress : Stamp) : Za :=
  let step := z.ingress p ingress - origin
  let z := z.modPtp p (fun q => { q with sync := none, syncStep := some step })
  let delay := ((z.ptpPort p).delay).getD (Config.freeInt free)
  if z.isParent p source then
    let z := z.sample free (decide (2 ^ 34 ≤ stampSec origin)) (step - delay)
    { z with ptp := { z.ptp with sampled := true } }
  else z

/-- ZA_PTP_CFG.domain (R155, R158). -/
def Za.ptpDomain (z : Za) : Nat := fld (z.reg 0x3020) 23 16

/-- PTP_MESSAGE (R155, R157): `source` is the clockIdentity of its sender. A message of another domain is ignored. -/
def Za.ptpMessage (z : Za) (free p : Nat) (domain : Byte) (source : BitVec 64) (m : PtpMsg) : Za :=
  if !z.ptpRuns p || domain.toNat != z.ptpDomain then z
  else
    match m with
    | .sync _ false origin ingress => z.syncDone free p source origin ingress
    | .sync seq true _ ingress => z.modPtp p (fun q => { q with sync := some (seq, ingress) })
    | .followUp seq origin =>
      match (z.ptpPort p).sync with
      | some (s, ingress) => if s = seq then z.syncDone free p source origin ingress else z
      | none => z
    | .delayReq seq ingress =>
      if (z.ptpPort p).state = 2 then
        let received := (z.ingress p ingress).toNat
        (z.modPtp p (fun q => { q with served := some (seq, received) })).ptpSend p (.delayResp seq source received)
      else z
    | .delayResp seq received =>
      match (z.ptpPort p).delayAt, (z.ptpPort p).syncStep with
      | some (s, sent), some step =>
        if s = seq then z.modPtp p (fun q => { q with delayAt := none, delay := some ((step + (received : Int) - z.egress p sent) / 2) }) else z
      | _, _ => z
    | .announce data =>
      let z := z.modPtp p (fun q => { q with best := some data })
      let z := if z.ptp.parent = some p then { z with time := { z.time with utcOffset := data.utcOffset } } else z
      z.runBmc
    | .other => z.count (.misc .ptpIgnored)

def execPtpMessage (port : Fin 82) (message : PtpFrame) (s : State) : Answer :=
  .next ((s.onZa (·.ptpMessage s.free port.val message.domain message.source message.msg)).draw)

/-- ANNOUNCE_RECEIPT_TIMEOUT (R155). -/
def Za.announceTimeout (z : Za) (p : Nat) : Za :=
  if z.ptpRuns p then (z.modPtp p (fun q => { q with best := none })).runBmc else z

def execAnnounceReceiptTimeout (port : Fin 82) (s : State) : Answer := .next (s.onZa (·.announceTimeout port.val))

/-- What we announce: the data set of the parent we follow, one step further, or our own. -/
def Za.announcing (z : Za) : AnnounceData :=
  match z.ptp.parent.bind (fun p => (z.ptpPort p).best) with
  | some d => { d with stepsRemoved := d.stepsRemoved + 1, identity := Config.clockIdentity, utcOffset := z.time.utcOffset }
  | none => z.ownData

/-- A Sync interval of the parent that ends without a sample is a missing one (R159, R182). -/
def Za.intervalEnds (z : Za) (p : Nat) : Za :=
  if z.ptp.parent = some p then
    let z := if z.ptp.sampled then z else z.withTime z.time.miss
    { z with ptp := { z.ptp with sampled := false } }
  else z

/-- PTP_SYNC_INTERVAL (R155): a master port sends Sync, whose Follow_Up comes as it has left, and an Announce in every 32nd
interval; the slave port sends Delay_Req. -/
def Za.ptpInterval (z : Za) (p : Nat) : Za :=
  if !z.ptpRuns p then z
  else
    let z := z.intervalEnds p
    let q := z.ptpPort p
    match q.state with
    | 2 =>
      let z := z.modPtp p (fun x => { x with syncSeq := x.syncSeq + 1 })
      let z := if q.syncSeq.toNat % 32 = 0 then z.ptpSend p (.announce (q.syncSeq / 32) z.announcing) else z
      z.ptpSend p (.sync q.syncSeq)
    | 3 => (z.modPtp p (fun x => { x with delaySeq := x.delaySeq + 1 })).ptpSend p (.delayReq q.delaySeq)
    | _ => z

def execPtpSyncInterval (port : Fin 82) (s : State) : Answer := .next (s.onZa (·.ptpInterval port.val))

/-- PARENT_CHANGE (R164): `offset` is the worst of the new parent's first eight samples. A unit whose FTC no sample has set
follows without a test; a refusal is reported once. -/
def Za.parentChange (z : Za) (p : Nat) (identity : BitVec 64) (offset : Int) : Za :=
  let due := match z.bestPort with
    | some b => b.1 == p && b.2.identity == identity && !(z.ptp.parent == some p && z.ptp.parentId == identity)
    | none => false
  if !z.ptpRuns p || !due then z
  else
    let limit : Nat := 65536 * z.jumpThr + z.time.residual.natAbs / 2 ^ 32
    if !z.time.isSet || decide (offset.natAbs ≤ limit) then
      let utc := (((z.ptpPort p).best).map (·.utcOffset)).getD z.time.utcOffset
      { z with ptp := { z.ptp with parent := some p, parentId := identity, refused := none },
               time := { z.time with utcOffset := utc } }
    else
      let again := z.ptp.refused == some identity
      let old := z.ptp.parentId
      let z := { z with ptp := { z.ptp with parent := none, refused := some identity }, time := { z.time with run := 0 } }
      let z := if z.time.state = .locked then z.withTime (z.time.enter .holdover) else z
      if again then z
      else
        ({ z with time := z.time.count .refusedMaster }).raise .timeMaster .timeUnit 0 .none 0 0
          (twoWords old.toNat ++ twoWords identity.toNat)

def execParentChange (port : Fin 82) (identity : BitVec 64) (offset : Int) (s : State) : Answer :=
  .next (s.onZa (·.parentChange port.val identity offset))

/-- TIME_HOLDOVER_ENTRY (R159): three intervals have passed without a usable sample: those not yet counted are missing, any run
of samples ends, and LOCKED is left. -/
def Za.holdoverEntry (z : Za) : Za :=
  if z.power.powered then z.withTime (z.time.miss (3 - z.time.missed)) else z

def execTimeHoldoverEntry (side : Side) (s : State) : Answer := .next (s.onSide side Dtu.holdoverEntry Za.holdoverEntry)

/-! ### Commanded steps (R167 to R170). -/

def Za.applyStep (z : Za) (a : ArmedStep) : Za :=
  let before := 2 ^ 20 * z.time.nextFrame
  let z := z.withTime (z.time.applyStep z.slewMax zaNominal a)
  if z.frost.state = 1 ∧ before < z.frost.t ∧ z.frost.t ≤ z.nowNs then { z with frost := { z.frost with stepped := true } } else z

def Za.stepNow (z : Za) : Za :=
  match z.time.stepDue with
  | some a => if z.power.powered then z.applyStep a else z
  | none => z

/-- STEP_APPLY (R168, R169). -/
def execStepApply (side : Side) (s : State) : Answer := .next (s.onSide side Dtu.stepNow Za.stepNow)

/-! ### Time into DTUs (R173, R174). -/

/-- TIME_SYNC as it is queued: its departure stamp is filled in as it leaves. -/
def Za.timeSyncBody (z : Za) (d : DieEntry) : List W :=
  let armed := if d.admitted then z.time.armed else none
  let flags := pack [(0x01, 31, 24), (b2n (z.time.state == .locked), 23, 23), (b2n (z.time.state == .holdover), 22, 22),
    (b2n armed.isSome, 21, 21), (d.syncSeq.toNat, 15, 0)]
  [flags, 0, 0, 0, 0] ++ (match armed with
    | some a => [w32 a.frame] ++ twoWords (toTwos 64 a.s)
    | none => [0, 0, 0])

/-- A DTU refused as a duplicate is sent TIME_SYNC on the link on which it said HELLO, though its die ID is admitted on another
(R173). -/
def Za.straySync (z : Za) (die p : Nat) : Za :=
  match aGet (z.link p).strays die with
  | none => z
  | some seq =>
    if z.running && z.linkUp p then
      let body := z.timeSyncBody { DieEntry.fresh die p with syncSeq := seq }
      (z.enqueue p none (mkTxWords clsTime 0x01 (dtuMac die) 0xFFFF 0 body)).modLink p (fun l => { l with
        strays := aPut l.strays die (seq + 1) })
    else z

/-- TIME_SYNC_SEND (R173). -/
def Za.timeSyncSend (z : Za) (die : Nat) : Za :=
  let z := (List.range 82).foldl (fun z p => if (z.link p).strays.isEmpty then z else z.straySync die p) z
  match z.die? die with
  | none => z
  | some d =>
    if z.running && d.timeSync && z.linkUp d.link then
      (z.toDie die clsTime 0x01 0xFFFF 0 32 (z.timeSyncBody d)).modDie die (fun x => { x with syncSeq := x.syncSeq + 1 })
    else z

def execTimeSyncSend (die : BitVec 20) (s : State) : Answer := .next (s.onZa (·.timeSyncSend die.toNat))

/-- TIME_ECHO (R174): `stamp` is the reference-plane stamp of its arrival; every 64 give a mean, and one beyond 4 ns a fault. -/
def Za.timeEcho (z : Za) (p : Nat) (f : Frame) (stamp : Stamp) : Za :=
  let r := z.receive p f
  match r.2, r.1.fromDie p f with
  | true, some die =>
    let z := r.1
    let b := f.body
    if wf b 0 31 24 ≠ 2 ∨ f.plen.toNat < 18 then z
    else
      let d : Int := (stamp : Int) - (stampOf (dword b 1) (word b 3).toNat (wf b 4 31 16) : Nat)
      let e := ((z.die? die).map (·.echo)).getD { count := 0, sum := 0, mean := none }
      let sum := e.sum + d
      if e.count + 1 < 64 then z.modDie die (fun x => { x with echo := { e with count := e.count + 1, sum } })
      else
        let mean := Int.tdiv sum 64
        let z := z.modDie die (fun x => { x with echo := { count := 0, sum := 0, mean := some mean } })
        if 4 * 65536 < mean.natAbs then
          z.raise .timePath .dtu 0 .none die (toTwos 32 (quarterNs (2 ^ 31 - 1) mean))
        else z
  | _, _ => r.1

def execTimeEcho (link : Fin 82) (frame : Frame) (stamp : Stamp) (s : State) : Answer :=
  .next (s.onZa (·.timeEcho link.val frame stamp))

/-! ### Markers (R180). -/

/-- Whom a marker's message goes to: the unit at the far end of its port, the first DTU of one that faces DTUs. -/
def Za.markPeer (z : Za) (p : Nat) : Option Nat × Mac :=
  if z.face p = 1 then
    match z.dies.find? (fun d => d.link == p) with
    | some d => (some d.die, dtuMac d.die)
    | none => (none, z.peerMac p)
  else (none, z.peerMac p)

/-- TIME_MARK: at its instant a marker fires and rearms or disarms; its message leaves as the next reserved control window
opens. One that may not start there waits in the TIME class, and is stamped as it leaves. A marker whose port is down is
dropped (R180); with a cycle of at most 2^14 ns a window always opens within a frame. -/
def Za.timeMark (z : Za) (i : Nat) : Za :=
  match z.marks[i]? with
  | none => z
  | some t =>
    if !(z.running && t.enabled && z.mayReach t.next) then z
    else
      let z := z.reach t.next
      let fired := t.fire
      let z := { z with marks := z.marks.set i fired }
      let locked := decide (z.time.state = .locked)
      let z := if locked then z else { z with time := z.time.count .firedUnlocked }
      let half := fld t.w0 7 6
      let p := 2 * fld t.w0 15 8 + (if half = 2 then 1 else 0)
      let cycle := 2 ^ (z.link p).gates.cycleLog2
      let opens := (z.nowNs + cycle - 1) / cycle * cycle
      let head := pack [(0x03, 31, 24), (i, 23, 20), (b2n (!locked), 19, 19), (fired.seq.toNat, 15, 0)]
      let peer := z.markPeer p
      let frame := mkTxWords clsTime 0x03 peer.2 0xFFFF 0 ([head] ++ twoWords t.next ++ [0, 0, 0, 0, 0])
      let q : Queued := { frame, at_ := z.nowNs, die := peer.1 }
      let later := z.reach opens
      if !z.linkUp p then { z with time := z.time.count .markDropped }
      else if z.mayReach opens && later.mayStart p q then later.put p q
      else z.enqueue p peer.1 frame

def execTimeMark (mark : Fin 16) (s : State) : Answer := .next (s.onZa (·.timeMark mark.val))

end Sys2Proof.Machine
end

