-- ==== Sys2Proof/Machine/ZaSync.lean ====
section
/-!
DEFINITION. What the opcode bodies of the ZA40 share, and the bodies of the sync object opcodes (R191 to R193, R381).
-/
namespace Sys2Proof.Machine

/-- What a body answers: none when a long command has been accepted and goes on. -/
abbrev ZaBody := Za × Option Result

/-- A body that ends here with a failure and no effect. -/
def Za.refuse (z : Za) (r : Result) : ZaBody := (z, some r)

/-- A short body that ends with OK. -/
def Za.ok (z : Za) : ZaBody := (z, some (resultOf stOk))

/-- The byte of the Husk at which byte k of the opcode's own payload lies. -/
def payOff (h : HuskCmd) (k : Nat) : Nat := (if huskChained h then 64 else 32) + k

/-- BAD_PARAM about byte k of the payload. -/
def badPay (h : HuskCmd) (k : Nat) : Result := failDetail stBadParam (payOff h k)

/-- The command's context, which must be resident. -/
def Za.cmdCtx (z : Za) (h : HuskCmd) : Option (Nat × Ctx) :=
  (z.entryOf (huskCtx h) (huskGen h)).bind (fun e => (z.ctx? e).map (fun c => (e, c)))

/-- A body that acts on the command's context. -/
def Za.withCtx (z : Za) (h : HuskCmd) (f : Nat → Ctx → ZaBody) : ZaBody :=
  match z.cmdCtx h with
  | some p => f p.1 p.2
  | none => z.refuse (resultOf stNoContext)

/-- The earliest Front a command may name (R25). -/
def Za.earliest (z : Za) (c : Ctx) : Nat :=
  let f := z.time.plusTwo
  if c.state = .admitted then max f c.start else f

/-- A frame named by its low 32 bits (R154). -/
def Za.frameOf (z : Za) (lo : Nat) : Nat := extendFrame z.frameNow lo

/-! ### Sync objects. -/

/-- The object a command names, when its context owns it (R191). -/
def Za.ownObj (z : Za) (h : HuskCmd) (i : Nat) : Option SyncObj :=
  (z.sync? i).filter (fun o => o.ctx == huskCtx h && o.gen == huskGen h)

/-- The lowest free objects. -/
def Za.freeObjs (z : Za) (n : Nat) : List Nat :=
  let held := z.syncs.map Prod.fst
  ((List.range (min 131072 (held.length + n))).filter (fun i => !held.contains i)).take n

/-- Runs of consecutive indexes: (first, count). -/
def runsOf (l : List Nat) : List (Nat × Nat) :=
  (l.foldl (fun (acc : List (Nat × Nat)) i =>
    match acc with
    | (f, n) :: r => if f + n = i then (f, n + 1) :: r else (i, 1) :: (f, n) :: r
    | [] => [(i, 1)]) []).reverse

/-- SYNC_ALLOC (R191, R381). -/
def Za.syncAlloc (z : Za) (h : HuskCmd) : ZaBody :=
  z.withCtx h (fun _ c =>
    let n := huskP0 h
    if n = 0 ∨ 4096 < n then z.refuse badP0
    else if c.q.sync < z.syncHeld c + n ∨ 131072 < z.syncs.length + n then z.refuse (failDetail stQuotaReached 2)
    else
      let objs := z.freeObjs n
      let runs := runsOf objs
      if 2048 < runs.length then z.refuse (failValue stSyncFrag ((runs.getD 2048 (0, 0)).1))
      else
        let fresh : SyncObj := { value := 0, overflow := false, ctx := c.id, gen := c.gen, source := none }
        ({ z with syncs := z.syncs ++ objs.map (fun i => (i, fresh)) },
          some (okPayload (runs.map (fun r => pack [(r.1, 29, 13), (r.2 - 1, 12, 0)])))))

/-- SYNC_FREE (R191): waits parked on the objects end with SYNC_FREED. -/
def Za.syncFree (z : Za) (h : HuskCmd) : ZaBody :=
  let objs := (List.range (huskP1 h)).map (huskP0 h + ·)
  if huskP1 h = 0 then z.refuse badP1
  else if 131072 < huskP0 h + huskP1 h then z.refuse badP1
  else match objs.find? (fun i => (z.ownObj h i).isNone) with
    | some i => z.refuse (failValue stSyncOwner i)
    | none =>
      let z := objs.foldl (fun z i =>
        let on := (z.waits.filter (fun w => w.obj == i)).map (·.handle)
        z.finishWhere (fun x => on.contains x.handle) true (failValue stSyncFreed i)) z
      ({ z with syncs := z.syncs.filter (fun (p : Nat × SyncObj) => !objs.contains p.1) }).ok

/-- SYNC_SET (R191, R193). -/
def Za.syncSet (z : Za) (h : HuskCmd) : ZaBody :=
  match z.ownObj h (huskP0 h) with
  | none => z.refuse (failValue stSyncOwner (huskP0 h))
  | some _ => (z.modSync (huskP0 h) (fun o => { o with value := dword (huskPay h) 0 })).ok

/-- SYNC_ADD (R191). -/
def Za.syncAdd (z : Za) (h : HuskCmd) : ZaBody :=
  match z.ownObj h (huskP0 h) with
  | none => z.refuse (failValue stSyncOwner (huskP0 h))
  | some _ => if huskP1 h = 0 then z.refuse badP1 else (z.modSync (huskP0 h) (fun o => o.add (huskP1 h))).ok

/-- SYNC_WAIT (R191): parks until the value reaches v. -/
def Za.syncWait (z : Za) (h : HuskCmd) (handle : W) : ZaBody :=
  match z.ownObj h (huskP0 h) with
  | none => z.refuse (failValue stSyncOwner (huskP0 h))
  | some o =>
    let v := dword (huskPay h) 0
    if v ≤ o.value then (z.finish handle (resultOf stOk), none)
    else ({ z with waits := z.waits ++ [{ handle, obj := huskP0 h, v, order := z.cmds.order }] }, none)

/-- The source a SYNC_BIND names (R192). -/
def bindSource (h : HuskCmd) : Option (Option SyncSource) :=
  match fld h.w6 31 28 with
  | 0 => some none
  | 1 => some (some (.channel (fld h.w6 3 0)))
  | 2 => some (some .tick)
  | 3 => some (some .scoring)
  | 4 => some (some .front)
  | 5 => some (some (.handle (huskHandle h)))
  | _ => none

/-- SYNC_BIND (R192): at most 16 objects of a context on one source. -/
def Za.syncBind (z : Za) (h : HuskCmd) : ZaBody :=
  match z.ownObj h (huskP0 h), bindSource h with
  | none, _ => z.refuse (failValue stSyncOwner (huskP0 h))
  | _, none => z.refuse badP1
  | some o, some src =>
    let others := z.syncs.countP (fun (p : Nat × SyncObj) => p.1 != huskP0 h && p.2.ctx == o.ctx && p.2.gen == o.gen && p.2.source == src)
    let known := match src with
      | some (.handle x) => (z.handle? x).isSome
      | _ => true
    if !known then z.refuse (resultOf stHandleUnknown)
    else if src.isSome ∧ 16 ≤ others then z.refuse badP1
    else ({ z with syncs := aPut z.syncs (huskP0 h) { o with source := src } }).ok

/-- SYNC_READ (R193, R381). -/
def Za.syncRead (z : Za) (h : HuskCmd) : ZaBody :=
  let n := huskP1 h
  let objs := (List.range n).map (huskP0 h + ·)
  if n = 0 ∨ 64 < n then z.refuse badP1
  else match objs.find? (fun i => (z.ownObj h i).isNone) with
    | some i => z.refuse (failValue stSyncOwner i)
    | none => (z, some (okPayload (objs.flatMap (fun i =>
        match z.sync? i with
        | some o => twoWords o.value ++ [pack [(b2n o.overflow, 31, 31)], 0]
        | none => []))))

end Sys2Proof.Machine
end

