-- ==== Sys2Proof/Machine/ZaCtxCmds.lean ====
section
/-!
DEFINITION. The bodies of the context opcodes: admission, teardown, quotas, membership, Pod plans, weight swaps, digest tables,
subscriptions, and the time opcodes (R17 to R28, R139, R140, R165, R167, R196, R207, R208, R225, R370, R381).
-/
namespace Sys2Proof.Machine

/-! ### Admission, teardown, quotas. -/

/-- The context test of CTX_ADMIT (R370), with S. -/
def Za.admitTest (z : Za) (id gen s : Nat) : Option Result :=
  let same := z.ctxs.filter (fun (p : Nat × Ctx) => p.2.id == id)
  let live (c : Ctx) : Bool := c.state == .admitted || c.state == .active
  if gen = 0 then some (failDetail stBadParam 6)
  else if id = 0xFFFF then some (failDetail stBadParam 4)
  else if same.any (fun p => live p.2 || p.2.gen == gen) then some (resultOf stCtxExists)
  else
    let earliest := (same.map (fun p => (p.2.stop.getD 0) + 2)).foldl max 0
    if s < earliest then some (failValue stFrontEarly (earliest % 2 ^ 32)) else none

/-- A context as admission makes it (R23, R195). -/
def Ctx.fresh (id gen start : Nat) (q : Quotas) (handle : W) : Ctx :=
  { id, gen, state := .admitted, epoch := 0, start, stop := none, admitHandle := handle, tearHandle := 0, q, members := [],
    changes := [], plans := .empty, pending := [], staging := [], views := [], base := List.replicate 16 0,
    next := List.replicate 16 0, held := [], skipped := [], single := none, swaps := [], tables := [], subs := [], overruns := [], childRuns := [] }

/-- The lowest FREE entry of the context table for a job. -/
def Za.freeEntry (z : Za) : Option Nat := ((List.range 1024).drop 1).find? (fun e => (z.ctx? e).isNone)

/-- CTX_ADMIT (R25, R196, R199, R370). -/
def Za.ctxAdmit (z : Za) (h : HuskCmd) (handle : W) : ZaBody :=
  let s := z.frameOf (huskP0 h)
  let q := quotasOf (huskPay h)
  match z.admitTest (huskCtx h) (huskGen h) s with
  | some r => z.refuse r
  | none =>
    if s < z.time.plusTwo then z.refuse (failValue stFrontEarly (z.time.plusTwo % 2 ^ 32))
    else match quotaForm q with
      | some k => z.refuse (badPay h k)
      | none => match z.freeEntry with
        | none => z.refuse (resultOf stQuotaFull)
        | some e =>
          let qs := z.quotasWith e q
          match z.quotaFault qs, z.schedFault z.checkEvery qs with
          | some k, _ => z.refuse (failDetail stQuotaFull k)
          | none, some k => z.refuse (failDetail stSchedFull k)
          | none, none => ({ z with ctxs := aPut z.ctxs e (Ctx.fresh (huskCtx h) (huskGen h) s q handle) }, none)

/-- CTX_TEARDOWN (R28). -/
def Za.ctxTeardown (z : Za) (h : HuskCmd) (handle : W) : ZaBody :=
  z.withCtx h (fun e c =>
    let d := z.frameOf (huskP0 h)
    if c.id = 0 then z.refuse (failDetail stBadParam 4)
    else if c.stop.isSome then z.refuse badP0
    else if d < z.earliest c then z.refuse (failValue stFrontEarly (z.earliest c % 2 ^ 32))
    else
      let z := z.modCtx e (fun x => { x with stop := some d, tearHandle := handle })
      let z := z.dies.foldl (fun z x => z.endSlot x.die c.id c.gen d) z
      (z.slotChanges c.id c.gen d, none))

/-- CTX_QUOTA (R196). -/
def Za.ctxQuota (z : Za) (h : HuskCmd) : ZaBody :=
  z.withCtx h (fun e c =>
    let q := quotasOf (huskPay h)
    let qs := z.quotasWith e q
    let raises := decide (c.q.ensCost < q.ensCost ∨ c.q.tensorCost < q.tensorCost ∨ c.q.featCost < q.featCost ∨ c.q.detCost < q.detCost)
    match quotaForm q, z.quotaFault qs, z.schedFault z.checkEvery qs with
    | some k, _, _ => z.refuse (badPay h k)
    | none, some k, _ => z.refuse (failDetail stQuotaFull k)
    | none, none, fault =>
      if raises ∧ fault.isSome then z.refuse (failDetail stSchedFull (fault.getD 0))
      else match z.quotaReached e c q with
        | some k => z.refuse (failDetail stQuotaReached k)
        | none => (z.modCtx e (fun x => { x with q })).ok)

/-! ### Membership (R24 to R27). -/

/-- One entry of a MEMBERSHIP command. -/
structure MemberEntry where
  op : Nat
  rank : Nat
  die : Nat
  deriving DecidableEq, Repr

/-- [63:62] op, [39:20] rank, [19:0] die. -/
def memberEntries (h : HuskCmd) : List MemberEntry :=
  (List.range (huskP1 h)).map (fun i =>
    let x := dword (huskPay h) (2 * i)
    { op := bits x 63 62, rank := bits x 39 20, die := bits x 19 0 })

/-- The first entry that R26 rejects, against the membership that will stand. Whether a die would have two ranks is judged on the
membership that the whole command leaves, so one command may move a die from one rank to another (DESIGN CHOICE, log 195). -/
def entryFault (standing : List Member) (es : List MemberEntry) : Option Nat :=
  let result := es.foldl (fun ms e => applyChange ms { front := 0, op := e.op, rank := e.rank, die := e.die, handle := 0 }) standing
  firstIdx es (fun e =>
    let held := standing.any (fun m => m.rank == e.rank)
    decide (e.op = 3) || (decide (e.op = 0) && held) || (decide (e.op ≠ 0) && !held)
      || decide (1 < es.countP (fun x => x.rank == e.rank))
      || (decide (e.op ≠ 1) && decide (1 < result.countP (fun m => m.die == e.die))))

/-- The slots that entries which leave or move end (R89). -/
def Za.endEntry (z : Za) (c : Ctx) (f : Nat) (standing : List Member) (e : MemberEntry) : Za :=
  match (standing.filter (fun _ => e.op != 0)).find? (fun m => m.rank == e.rank) with
  | some m => z.endSlot m.die c.id c.gen f
  | none => z

/-- The slots that entries which join or move take, once those that end have ended. -/
def Za.slotEntry (z : Za) (c : Ctx) (f : Nat) (e : MemberEntry) : Za :=
  if e.op = 1 then z else z.takeSlot e.die c.id c.gen e.rank f

/-- MEMBERSHIP (R25, R26). A die of this tray that would serve more than eight contexts can join no other (R18). Where a rank is
already changed for the same F and an entry is faulty as well, FRONT_CONFLICT is the answer (DESIGN CHOICE, log 196). -/
def Za.membership (z : Za) (h : HuskCmd) (handle : W) : ZaBody :=
  z.withCtx h (fun e c =>
    let f := if huskP0 h = 0 then z.earliest c else z.frameOf (huskP0 h)
    let es := memberEntries h
    let standing := c.membersAt f
    let clash := es.find? (fun x => c.changes.any (fun y => y.front == f && y.rank == x.rank))
    let ended := es.foldl (fun z x => z.endEntry c f standing x) z
    let full := firstIdx es (fun x => x.op != 1 && (ended.die? x.die).any (fun d => (d.slotFor c.id f).isNone))
    if huskP1 h = 0 then z.refuse badP1
    else if f < z.earliest c then z.refuse (failValue stFrontEarly (z.earliest c % 2 ^ 32))
    else match clash, entryFault standing es, full with
      | some x, _, _ => z.refuse (failValue stFrontConflict x.rank)
      | none, some i, _ => z.refuse (badPay h (8 * i))
      | none, none, some i => z.refuse (badPay h (8 * i))
      | none, none, none =>
        let changes := es.map (fun (x : MemberEntry) => ({ front := f, op := x.op, rank := x.rank, die := x.die, handle } : Change))
        let z := es.foldl (fun z x => z.slotEntry c f x) (ended.modCtx e (fun x => { x with changes := x.changes ++ changes }))
        (z.slotChanges c.id c.gen f, none))

/-! ### Plans at a Front (R26). -/

/-- A plan accepted for a Front, once it has passed its own checks. -/
def Za.acceptPlan (z : Za) (e : Nat) (c : Ctx) (kind : PlanKind) (f : Nat) (words : List W) (handle : W) : ZaBody :=
  if f < z.earliest c then z.refuse (failValue stFrontEarly (z.earliest c % 2 ^ 32))
  else if c.pending.any (fun p => p.kind == kind && p.front == f) then z.refuse (resultOf stFrontConflict)
  else (z.modCtx e (fun x => { x with pending := x.pending ++ [{ kind, front := f, words, handle }] }), none)

/-- The word DTU_CELL_CFG would have for 16 bits of a cell map, cumul and tap apart (R81). -/
def mapCellForm (x : Nat) : Nat :=
  let mode := bits x 15 13
  let metric := bits x 7 0
  if 5 ≤ mode ∨ !metricListed metric then stBadParam
  else if bits x 12 12 = 1 ∧ mode ≠ 4 then stBadParam
  else if mode = 2 ∧ bits x 11 8 ≠ 0 then stBadParam
  else stOk

/-- A HIST descriptor that R225 refuses. -/
def histFault (p : PodPlan) (d : List W) : Bool :=
  histEnabled d &&
    (decide (bits p.mask (histCell d / 64) (histCell d / 64) = 0) || p.mode (histCell d) == 0 || histField d == 3
      || (decide (1 ≤ histField d ∧ histField d ≤ 2) && isCounting (p.mode (histCell d))))

/-- POD_PLAN (R208, R225). -/
def Za.podPlan (z : Za) (h : HuskCmd) (handle : W) : ZaBody :=
  z.withCtx h (fun e c =>
    let ws := huskPay h
    let p := podPlanOf ws
    let cellBad := (List.range 4096).find? (fun n =>
      mapCellForm (wf ws (66 + n / 2) (if n % 2 = 0 then 31 else 15) (if n % 2 = 0 then 16 else 0)) != stOk)
    let histBad := firstIdx p.hists (histFault p)
    match histBad, cellBad with
    | some i, _ => z.refuse (badPay h (8 + 16 * i))
    | none, some n => z.refuse (badPay h (264 + 2 * n))
    | none, none => z.acceptPlan e c .pod (z.frameOf (huskP0 h)) ws handle)

/-! ### ctx_mask writes against the cell map (R208, R371). -/

/-- A cell of a cluster differs from the cell map of a plan. -/
def cellDiffers (p : PodPlan) (w : W) (n : Nat) : Bool :=
  let x := p.cellBits n
  let off := decide (cellMode w = 0 ∧ bits x 15 13 = 0)
  !off && decide (cellMode w ≠ bits x 15 13 ∨ b2n (cellSigned w) ≠ bits x 12 12 ∨ cellShift w ≠ bits x 11 8 ∨ cellMetric w ≠ bits x 7 0)

/-- The first cell of a cluster whose configuration conflicts with the plan of some context whose bit the mask sets, for the
data frame that the write first governs. -/
def Za.maskConflict (z : Za) (d : DieEntry) (cfg : RegMap) (c mask : Nat) : Option Nat :=
  let f := z.frameNow + 1
  let ctxs := (d.slots.filter (fun s => decide (bits mask s.slot s.slot = 1) && s.busyFrom f)).filterMap (fun s => (z.entryOf s.ctx s.gen).bind z.ctx?)
  ((List.range 64).map (64 * c + ·)).find? (fun n => ctxs.any (fun x => cellDiffers (x.podAt f) (cellWord cfg n) n))

/-- An address of DTU_CELL_CFG or DTU_CLU_CFG, and its cluster (R81, R83). -/
def cellSpace (a : Nat) : Bool := decide (0x10000 ≤ a ∧ a < 0x14100)
def clusterOfAddr (a : Nat) : Nat := if a < 0x14000 then (a - 0x10000) / 256 else (a - 0x14000) / 4

/-- A register write of ours completed on a DTU: our books of its cells, and the cluster whose cfg_seq the change will advance
(R83). -/
def DieEntry.wrote (d : DieEntry) (begun a : Nat) (w : W) : DieEntry :=
  let w := if 0x14000 ≤ a then w &&& 0x1FF else w
  if cellSpace a ∧ regGet cellReset d.cfg a ≠ w then
    { d with cfg := regSet cellReset d.cfg a w, cfgDue := (d.cfgDue ++ [(clusterOfAddr a, begun)]).eraseDups }
  else d

/-- CTX_MASK_WRITE (R208): the tray that serves the DTU checks the cell map; the DTU takes the mask at its next tick. -/
def State.ctxMaskWrite (s : State) (c mask : Nat) : State :=
  let die := (s.za.die? s.dtu.dieId).filter (·.admitted)
  let w := setFld (cluWord s.dtu.cells.cfg c) 7 0 mask
  match die.bind (fun d => s.za.maskConflict d d.cfg c mask) with
  | some _ => s.onZa (·.earn stCellmapConflict)
  | none =>
    let p := s.dtu.cmdWrite (cluAddr c) w
    let s := s.onDtu (fun _ => p.1.earn p.2)
    if p.2 = stOk ∧ die.isSome then
      s.onZa (fun z => (z.modDie s.dtu.dieId (fun d => d.wrote z.time.begun (cluAddr c) w)).earn stOk)
    else s

def execCtxMaskWrite (cluster : Fin 64) (mask : BitVec 8) (s : State) : Answer := .next (s.ctxMaskWrite cluster.val mask.toNat)

/-! ### Weight versions (R139, R140). -/

/-- A weight swap is declared (R139). -/
def Za.declareSwap (z : Za) (h : HuskCmd) : ZaBody :=
  z.withCtx h (fun e c =>
    let s := z.frameOf (huskP0 h)
    let o := huskP1 h
    let early := c.swaps.any (fun x => decide (z.frameNow < x.first + x.overlap))
    if 65535 < o then z.refuse badP1
    else if s < z.earliest c then z.refuse (failValue stFrontEarly (z.earliest c % 2 ^ 32))
    else if early then z.refuse (resultOf stDigestOverlap)
    else
      let w : Swap := { first := s, overlap := o, va := wf (huskPay h) 0 31 16, vb := wf (huskPay h) 0 15 0, ended := none }
      (z.modCtx e (fun x => { x with swaps := w :: x.swaps })).ok)

/-- The swap that decides which versions are valid: the latest declared. A context with a single version holds V_a = V_b, valid in
every frame; that version is the one of the first entry loaded (R139; DESIGN CHOICE, log 197). -/
def Ctx.window (c : Ctx) : Option Swap :=
  match c.swaps with
  | [] => c.single.map (fun v => { first := 0, overlap := 0, va := v, vb := v, ended := none })
  | s :: _ => some s

/-- A version is valid at a frame (R139). -/
def Ctx.versionValid (c : Ctx) (v f : Nat) : Bool :=
  match c.window with
  | none => false
  | some s => (decide (s.first ≤ f) && v == s.vb) || (decide (f < s.first + s.overlap) && v == s.va) || (s.va == s.vb && v == s.va)

/-- DIGEST_LOAD (R140): each entry goes into the table of its own weight_version; a new table counts against the quota. -/
def Za.digestLoad (z : Za) (h : HuskCmd) : ZaBody :=
  z.withCtx h (fun e c =>
    let n := huskP1 h
    let first := huskP0 h
    if n = 0 ∨ 512 < n then z.refuse badP1
    else if 2 ^ 22 < first + n then z.refuse badP0
    else
      let entries := (List.range n).map (fun i => (huskPay h |>.drop (4 * i)).take 4)
      let version (x : List W) : Nat := wf x 3 31 16
      let versions := (c.tables.map Prod.fst ++ entries.map version).eraseDups
      if min 2 c.q.digestTables < versions.length then z.refuse (failDetail stQuotaReached 5)
      else
        let put (ts : List (Nat × List (Nat × List W))) (p : Nat × List W) : List (Nat × List (Nat × List W)) :=
          let v := version p.2
          let t := aGetD ts v []
          aPut ts v (if bit (word p.2 2) 31 then aPut t (first + p.1) p.2 else aDel t (first + p.1))
        (z.modCtx e (fun x => { x with
          tables := ((List.range n).zip entries).foldl put x.tables, single := some (x.single.getD (version (entries.headD []))) })).ok)

/-- SUBSCRIBE (R381): the requester's own address; a mask of 0 ends its subscription. -/
def Za.subscribe (z : Za) (h : HuskCmd) : ZaBody :=
  z.withCtx h (fun e _ =>
    (z.modCtx e (fun x =>
      let rest := x.subs.filter (fun (s : Mac × Bool × Nat) => !(s.1 == h.req.addr && s.2.1 == h.req.keomon))
      { x with subs := if huskP0 h = 0 then rest else rest ++ [(h.req.addr, h.req.keomon, huskP0 h)] })).ok)

/-! ### Time (R165, R167). -/

/-- TIME_RESYNC: only while no job context is hosted. -/
def Za.timeResync (z : Za) : ZaBody :=
  if z.jobs.isEmpty then ({ z with time := z.time.resync }).ok else z.refuse (resultOf stTimeResyncBusy)

/-- TIME_STEP. -/
def Za.timeStep (z : Za) (h : HuskCmd) : ZaBody :=
  let f := z.frameOf (huskP0 h)
  let s := ofTwos 64 (dword (huskPay h) 0)
  if 2 ^ 40 ≤ s.natAbs then z.refuse (badPay h 0)
  else if f < z.time.plusTwo then z.refuse (failValue stFrontEarly (z.time.plusTwo % 2 ^ 32))
  else if stepWhole s < 0 ∧ !z.jobs.isEmpty then z.refuse (resultOf stTimeStepBack)
  else ({ z with time := { z.time with armed := some { frame := f, s } }, ptp := { z.ptp with refused := none } }).ok

end Sys2Proof.Machine
end

