-- ==== Sys2Proof/Machine/Boot.lean ====
section
/-!
DEFINITION. The boot ROM: its sources, the transfer of a firmware image, its verification and the start of firmware (R203 to R206,
R364, R390).
-/
namespace Sys2Proof.Machine

/-! ### The image (R203, R204). -/

def imgByte (img : List Byte) (i : Nat) : Nat := (img.getD i 0).toNat
def imgWord (img : List Byte) (i : Nat) : Nat :=
  imgByte img i * 2 ^ 24 + imgByte img (i + 1) * 2 ^ 16 + imgByte img (i + 2) * 2 ^ 8 + imgByte img (i + 3)

def fwBodyLen (img : List Byte) : Nat := imgWord img 12

/-- The reserved bytes of the header. -/
def fwReserved : List Nat :=
  [6, 7, 17, 18, 19] ++ (List.range 72).map (· + 56) ++ (List.range 64).map (· + 192)

/-- The SHA-256 of a public key is one of the two in mask ROM. -/
def vendorKeyHeld (key : List Byte) : Bool :=
  let h := natBE (sha256.hash key)
  h == (Config.vendorHash false).toNat || h == (Config.vendorHash true).toNat

/-- The first reason to reject an image, as last_error codes it; 0 accepts. -/
def fwFault (img : List Byte) : Nat :=
  if img.length < 256 ∨ imgWord img 0 ≠ 0x4B465731 ∨ imgByte img 4 * 256 + imgByte img 5 ≠ 1 ∨ fwReserved.any (fun i => imgByte img i != 0) then 3
  else if fwBodyLen img < 4096 ∨ 6291456 < fwBodyLen img ∨ img.length ≠ 256 + fwBodyLen img ∨ 0x12 < imgByte img 16 then 4
  else if !vendorKeyHeld ((img.drop 24).take 32) then 5
  else if !edVerify ((img.drop 24).take 32) (img.take 128 ++ img.drop 256) ((img.drop 128).take 64) then 6
  else 0

/-- ZA_FW_VERSION of an image. -/
def fwVersionOf (img : List Byte) : W := w32 (imgWord img 8)

/-! ### Sources (R205). -/

/-- The sources in order: (code, optical port). The stack copy stands at a warm reset that kept it. -/
def Za.bootSources (z : Za) : List (Nat × Nat) :=
  (if z.power.firmwareKept then [(4, 0)] else []) ++ [(0, 0), (1, 0)] ++
    ((List.range 40).filter Config.bootNeighbour).map (fun P => (2, P)) ++ [(3, 0)]

/-- The link a port source uses. -/
def bootLinkOf (source port : Nat) : Option Nat :=
  match source with
  | 0 => some 80
  | 1 => some 81
  | 2 => some (2 * port)
  | _ => none

/-- The header of a firmware fetch. -/
def fwHdr (fetchId : W) : List W := [pack [(1, 31, 28)], fetchId, 0, 0, 0, 0, 0]

/-- FETCH_REQ for the firmware from the first byte missing. -/
def Za.bootAsk (z : Za) : Za :=
  match bootLinkOf z.boot.source z.boot.port with
  | some p => z.fetchFrame p myAggMac 0x01 (fwHdr z.boot.fetchId) z.boot.image.length []
  | none => z

/-- The ROM turns to its next source, or waits out the round. -/
def Za.bootNext (z : Za) : Za :=
  match z.bootSources.find? (fun s => !z.boot.tried.contains s) with
  | none => { z with boot := { z.boot with phase := 5 } }
  | some s =>
    let b : Boot := { z.boot with
      phase := if s.1 = 4 then 3 else 2, source := s.1, port := if s.1 = 2 then s.2 else 0, attempts := min 255 (z.boot.attempts + 1)
      tried := z.boot.tried ++ [s], offered := false, gaps := 0, fetchId := z.boot.fetchId + 1
      image := if s.1 = 4 then z.boot.running else [], length := if s.1 = 4 then z.boot.running.length else 0 }
    let rails := [0, 5] ++ (if s.1 = 2 then [7 + s.2 / 5] else [])
    let z : Za := { z with boot := b, power := { z.power with rails } }
    match bootLinkOf b.source b.port with
    | some p =>
      let z := if (z.link p).state = 0 then (z.linkRestart p).sendHello p else z
      z.bootAsk
    | none => z

/-- The source in use has failed. -/
def Za.bootFail (z : Za) (error : Nat) : Za := { z with boot := { z.boot with lastError := error } }.bootNext

/-- The ROM starts: a new round of sources (R205). -/
def Za.bootStart (z : Za) : Za := { z with boot := { z.boot with tried := [] } }.bootNext

/-- More image bytes at an offset, from the source in use: the last one begins the verification. -/
def Za.bootBytes (z : Za) (offset : Nat) (bs : List Byte) : Za :=
  let have_ := z.boot.image.length
  let new := (bs.drop (have_ - offset)).take (z.boot.length - have_)
  if have_ < offset ∨ new.isEmpty then z
  else
    let image := z.boot.image ++ new
    { z with boot := { z.boot with image, phase := if image.length = z.boot.length then 3 else z.boot.phase } }

/-! ### Frames of the ports (R364). -/

/-- A frame of the firmware exchange that is this ROM's: from its source's link, with its fetch_id. -/
def Za.bootFrame (z : Za) (p : Nat) (f : Frame) : Bool :=
  z.boot.phase == 2 && bootLinkOf z.boot.source z.boot.port == some p && f.body.take 7 == fwHdr z.boot.fetchId

def Za.bootOffer (z : Za) (f : Frame) : Za :=
  if z.boot.offered then z else { z with boot := { z.boot with offered := true, length := (word f.body 7).toNat } }

/-- A chunk: a gap is asked for again, and the fifth one is a stall. -/
def Za.bootChunk (z : Za) (f : Frame) : Za :=
  let at_ := (word f.body 7).toNat
  if !z.boot.offered then z
  else if z.boot.image.length < at_ then
    let z : Za := { z with boot := { z.boot with gaps := z.boot.gaps + 1 } }
    if 5 ≤ z.boot.gaps then z.bootFail 2 else z.bootAsk
  else z.bootBytes at_ (((bytesOf f.body).take f.plen.toNat).drop 32)

/-! ### The rows. -/

/-- BOOT_SOURCE_TIMEOUT: no offer in time, or a stalled transfer. -/
def Za.bootTimeout (z : Za) (stalled : Bool) : Za :=
  if z.boot.phase ≠ 2 ∨ z.boot.offered ≠ stalled ∨ !z.power.powered then z else z.bootFail (if stalled then 2 else 1)

def execBootSourceTimeout (stalled : Bool) (s : State) : Answer := .next (s.onZa (·.bootTimeout stalled))

/-- BOOT_ROUND_WAIT: one second after a round without an image, a new round starts. -/
def Za.bootRound (z : Za) : Za := if z.boot.phase = 5 ∧ z.power.powered then z.bootStart else z

def execBootRoundWait (s : State) : Answer := .next (s.onZa Za.bootRound)

/-- Firmware starts: it brings up the stacks and every other rail, keeps a copy of the image, creates the fabric context and starts
the links that are on (R17, R196, R204, R348, R451). A ZA_WAKE from Lull-3 ends (R467, R471). -/
def Za.startFirmware (z : Za) : Za :=
  let b : Boot := { z.boot with phase := 4, lastError := 0, fwVersion := fwVersionOf z.boot.image, running := z.boot.image, image := [] }
  let wake := (z.power.lullTo.map (fun l => l.2.2)).getD 0
  let lat (m : RegMap) : RegMap := m.filter (fun r => !decide (0x3100 ≤ r.1 ∧ r.1 < 0x3620 ∧ r.1 % 16 < 8))
  let z : Za := { z with
    regs := lat z.regs, ptp := { z.ptp with lat := lat z.ptp.lat }
    boot := b, ctxs := aPut z.ctxs 0 (Ctx.fresh 0 1 0 fabricQuotas 0), fabricId := if z.factory then 0xFFFF else z.fabricId
    power := { z.power with rails := List.range 15, lullTo := none } }
  let links := (List.range 82).filter (fun p => z.linkOn p && decide ((z.link p).state = 0))
  (links.foldl Za.linkRestart z).finish wake (resultOf stOk)

/-- IMAGE_VERIFY (R204). -/
def Za.imageVerify (z : Za) : Za :=
  if z.boot.phase ≠ 3 ∨ !z.power.powered then z
  else match fwFault z.boot.image with
    | 0 => z.startFirmware
    | k => z.bootFail k

def execImageVerify (s : State) : Answer := .next (s.onZa Za.imageVerify)

/-! ### keomon (R390). -/

/-- LOAD_REQ: the ROM answers within its window. -/
def Za.loadReq (z : Za) (length : Nat) : Za :=
  if z.boot.phase = 2 ∧ z.boot.source = 3 ∧ !z.boot.offered ∧ z.power.powered then
    ({ z with boot := { z.boot with offered := true, length } } : Za).toHost 5 []
  else z

def execLoadReq (length : W) (s : State) : Answer := .next (s.onZa (·.loadReq length.toNat))

/-- LOAD_DATA: LOAD_ACK names the next offset needed. -/
def Za.loadData (z : Za) (offset : Nat) (bs : List Byte) : Za :=
  if z.boot.phase = 2 ∧ z.boot.source = 3 ∧ z.boot.offered ∧ bs.length ≤ 1024 ∧ z.power.powered then
    let z := z.bootBytes offset bs
    z.toHost 7 (wordBytes (w32 z.boot.image.length))
  else z

def execLoadData (offset : W) (bytes : List Byte) (s : State) : Answer := .next (s.onZa (·.loadData offset.toNat bytes))

end Sys2Proof.Machine
end

