-- ==== Sys2Proof/Machine/Float.lean ====
section
/-!
DEFINITION. Floating point: binary64, binary32 and the narrower formats as exact dyadic numbers with one rounding to nearest,
ties to even (R216, R242, R248, R264, R275 to R278, R317).
-/
namespace Sys2Proof.Machine

/-- A floating-point datum: a NaN, an infinity, or (-1)^neg times m times 2^e. -/
inductive Flt
  | nan
  | inf (neg : Bool)
  | fin (neg : Bool) (m : Nat) (e : Int)
  deriving DecidableEq, Repr

/-- A format: its precision in bits, the exponent of its smallest unit, its largest exponent. -/
structure FltFmt where
  p : Nat
  lo : Int
  hi : Int
  deriving DecidableEq, Repr

def fmt64 : FltFmt := { p := 53, lo := -1074, hi := 1023 }
def fmt32 : FltFmt := { p := 24, lo := -149, hi := 127 }
def fmtBf16 : FltFmt := { p := 8, lo := -133, hi := 127 }
def fmtE4m3 : FltFmt := { p := 4, lo := -9, hi := 8 }
def fmtE5m2 : FltFmt := { p := 3, lo := -16, hi := 15 }
def fmtE2m1 : FltFmt := { p := 2, lo := -1, hi := 2 }

def Flt.zero : Flt := .fin false 0 0

/-- m 2^e, with more below it when `sticky`, rounded once to a format: nearest, ties to even; too large gives infinity. -/
def FltFmt.round (f : FltFmt) (neg : Bool) (m : Nat) (e : Int) (sticky : Bool) : Flt :=
  if m = 0 then .fin neg 0 0
  else
    let q : Int := max (e + Nat.log2 m - ((f.p : Int) - 1)) f.lo
    let m' : Nat :=
      if q ≤ e then m * 2 ^ (e - q).toNat
      else
        let s := (q - e).toNat
        let h := m / 2 ^ s
        let r := m % 2 ^ s
        let half := 2 ^ (s - 1)
        if half < r ∨ (r = half ∧ (sticky ∨ h % 2 = 1)) then h + 1 else h
    if m' ≠ 0 ∧ f.hi < q + Nat.log2 m' then .inf neg else .fin neg m' q

/-- A datum brought into a format. -/
def Flt.roundTo (f : FltFmt) : Flt → Flt
  | .nan => .nan
  | .inf n => .inf n
  | .fin n m e => f.round n m e false

def Flt.isNaN : Flt → Bool
  | .nan => true
  | _ => false

def Flt.isZero : Flt → Bool
  | .fin _ 0 _ => true
  | _ => false

def Flt.isNeg : Flt → Bool
  | .nan => false
  | .inf n => n
  | .fin n _ _ => n

def Flt.neg : Flt → Flt
  | .nan => .nan
  | .inf n => .inf (!n)
  | .fin n m e => .fin (!n) m e

def Flt.abs : Flt → Flt
  | .nan => .nan
  | .inf _ => .inf false
  | .fin _ m e => .fin false m e

/-- A whole number in a format. -/
def Flt.ofInt (f : FltFmt) (i : Int) : Flt := f.round (decide (i < 0)) i.natAbs 0 false

/-- The signed mantissa of a finite datum at an exponent no larger than its own. -/
def signedAt (n : Bool) (m : Nat) (e at_ : Int) : Int :=
  let v : Int := (m * 2 ^ (e - at_).toNat : Nat)
  if n then -v else v

/-- Addition, one rounding. -/
def Flt.add (f : FltFmt) : Flt → Flt → Flt
  | .nan, _ => .nan
  | _, .nan => .nan
  | .inf a, .inf b => if a = b then .inf a else .nan
  | .inf a, _ => .inf a
  | _, .inf b => .inf b
  | .fin na ma ea, .fin nb mb eb =>
    let e := min ea eb
    let s := signedAt na ma ea e + signedAt nb mb eb e
    if s = 0 then .fin (na && nb && ma == 0 && mb == 0) 0 0 else f.round (decide (s < 0)) s.natAbs e false

def Flt.sub (f : FltFmt) (a b : Flt) : Flt := Flt.add f a b.neg

/-- Multiplication, one rounding. -/
def Flt.mul (f : FltFmt) : Flt → Flt → Flt
  | .nan, _ => .nan
  | _, .nan => .nan
  | .inf a, .inf b => .inf (a != b)
  | .inf a, .fin nb mb _ => if mb = 0 then .nan else .inf (a != nb)
  | .fin na ma _, .inf b => if ma = 0 then .nan else .inf (na != b)
  | .fin na ma ea, .fin nb mb eb => f.round (na != nb) (ma * mb) (ea + eb) false

/-- Division, one rounding. -/
def Flt.div (f : FltFmt) : Flt → Flt → Flt
  | .nan, _ => .nan
  | _, .nan => .nan
  | .inf _, .inf _ => .nan
  | .inf a, .fin nb _ _ => .inf (a != nb)
  | .fin na _ _, .inf b => .fin (na != b) 0 0
  | .fin na ma ea, .fin nb mb eb =>
    if mb = 0 then (if ma = 0 then .nan else .inf (na != nb))
    else
      let k := 4 + f.p + Nat.log2 mb
      f.round (na != nb) (ma * 2 ^ k / mb) (ea - k - eb) (decide (ma * 2 ^ k % mb ≠ 0))

/-- The integer square root by bits: the largest r with r * r at most n, r below 2^fuel. -/
def isqrt : Nat → Nat → Nat → Nat
  | 0, _, r => r
  | b + 1, n, r => let c := r + 2 ^ b
                   isqrt b n (if c * c ≤ n then c else r)

/-- Square root, one rounding. -/
def Flt.sqrt (f : FltFmt) : Flt → Flt
  | .nan => .nan
  | .inf n => if n then .nan else .inf false
  | .fin n m e =>
    if m = 0 then .fin n 0 0
    else if n then .nan
    else
      let k : Nat := 2 * (f.p + 3) + (if e % 2 = 0 then 0 else 1)
      let x := m * 2 ^ k
      let r := isqrt (Nat.log2 x / 2 + 1) x 0
      f.round false r ((e - k) / 2) (decide (r * r ≠ x))

/-- Numeric order: a < b; false with a NaN. Zeros are equal. -/
def Flt.lt : Flt → Flt → Bool
  | .nan, _ => false
  | _, .nan => false
  | .inf a, .inf b => a && !b
  | .inf a, .fin _ _ _ => a
  | .fin _ _ _, .inf b => !b
  | .fin na ma ea, .fin nb mb eb => let e := min ea eb
                                    decide (signedAt na ma ea e < signedAt nb mb eb e)

/-- The nearest whole number, ties to even; infinities answer none. -/
def Flt.nearest : Flt → Option Int
  | .fin n m e =>
    let v : Nat :=
      if 0 ≤ e then m * 2 ^ e.toNat
      else
        let s := (-e).toNat
        let h := m / 2 ^ s
        let r := m % 2 ^ s
        if 2 ^ (s - 1) < r ∨ (r = 2 ^ (s - 1) ∧ h % 2 = 1) then h + 1 else h
    some (if n then -(v : Int) else (v : Int))
  | _ => none

/-- floor(log2) of a finite magnitude that is not zero. -/
def Flt.exponent : Flt → Int
  | .fin _ m e => e + Nat.log2 m
  | _ => 0

/-! ### Bit patterns. -/

/-- A pattern of `eb` exponent bits and `p - 1` fraction bits, read as IEEE 754 does. -/
def fltOf (f : FltFmt) (eb n : Nat) : Flt :=
  let fb := f.p - 1
  let neg := decide (bits n (eb + fb) (eb + fb) = 1)
  let ex := n / 2 ^ fb % 2 ^ eb
  let fr := n % 2 ^ fb
  if ex = 2 ^ eb - 1 then (if fr = 0 then .inf neg else .nan)
  else if ex = 0 then .fin neg fr f.lo
  else .fin neg (2 ^ fb + fr) (f.lo + (ex - 1 : Nat))

/-- The pattern of a datum that the format holds; a NaN is the canonical one. -/
def fltBits (f : FltFmt) (eb : Nat) : Flt → Nat
  | .nan => (2 ^ eb - 1) * 2 ^ (f.p - 1) + 2 ^ (f.p - 2)
  | .inf n => b2n n * 2 ^ (eb + f.p - 1) + (2 ^ eb - 1) * 2 ^ (f.p - 1)
  | .fin n m e =>
    let fb := f.p - 1
    let sign := b2n n * 2 ^ (eb + fb)
    if m = 0 then sign
    else
      let x := e + Nat.log2 m
      if x < f.lo + fb then sign + m * 2 ^ (e - f.lo).toNat
      else
        let mant := if (Nat.log2 m) ≤ fb then m * 2 ^ (fb - Nat.log2 m) else m / 2 ^ (Nat.log2 m - fb)
        sign + (x - f.lo - fb + 1).toNat * 2 ^ fb + mant % 2 ^ fb

def of64 (n : Nat) : Flt := fltOf fmt64 11 n
def bits64 (x : Flt) : Nat := fltBits fmt64 11 x
def of32 (w : W) : Flt := fltOf fmt32 8 w.toNat
def bits32 (x : Flt) : W := BitVec.ofNat 32 (fltBits fmt32 8 x)
def of16 (n : Nat) : Flt := fltOf fmtBf16 8 n

/-- A datum as the binary32 word nearest to it. -/
def round32 (x : Flt) : W := bits32 (x.roundTo fmt32)

end Sys2Proof.Machine
end

