-- ==== Sys2Proof/Machine/Elementary.lean ====
section
/-!
DEFINITION. LOG2, exp, the logistic function and tanh: each result lies within one unit in the last place of the exact value, and
which of the data there it is the spec leaves open (R248, R265, R278).
-/
namespace Sys2Proof.Machine

/-! ### One unit in the last place. -/

/-- A datum of a format within one unit of the exact value (-1)^neg m 2^e: of the two that enclose it, or of the three when the format
holds it (log 86). -/
def FltFmt.near (f : FltFmt) (pick : Fin 3) (neg : Bool) (m : Nat) (e : Int) : Flt :=
  let q : Int := max (e + Nat.log2 m - ((f.p : Int) - 1)) f.lo
  let s := (q - e).toNat
  let h : Nat := m * 2 ^ (e - q).toNat / 2 ^ s
  let i : Int := if m * 2 ^ (e - q).toNat % 2 ^ s = 0 then (h : Int) + pick.val - 1 else (h : Int) + (pick.val % 2 : Nat)
  f.round (neg != decide (i < 0)) i.natAbs q false

/-! ### Fixed point. -/

/-- The bits below the point: every datum of binary64 and of binary32 is a whole number of its units. -/
def fixBits : Nat := 1280

/-- ln 2: the sum of 1 / (n 2^n). -/
def fixLn2 : Nat := ((List.range 1400).map (fun n => 2 ^ fixBits / ((n + 1) * 2 ^ (n + 1)))).sum

/-- A finite datum in units of 2^-fixBits. -/
def fixOf (neg : Bool) (m : Nat) (e : Int) : Int :=
  let v : Nat := m * 2 ^ (e + fixBits).toNat / 2 ^ (-(e + fixBits)).toNat
  if neg then -(v : Int) else v

/-- exp of a fixed-point number as mantissa and exponent: 2^k times the series of the remainder. -/
def fixExp (x : Int) : Nat × Int :=
  let k := x / fixLn2
  let r := (x - k * fixLn2).toNat
  let terms := (List.range 240).foldl (fun (p : Nat × Nat) n => (p.1 + p.2, p.2 * r / 2 ^ fixBits / (n + 1))) (0, 2 ^ fixBits)
  (terms.1, k - fixBits)

/-- Just above zero, and just below one: where exp has gone beyond every format. -/
def justAbove0 : Nat × Int := (1, -5000)
def justBelow1 : Nat × Int := (2 ^ 5000 - 1, -5000)

/-- Beyond 4,096 in magnitude. -/
def farOut (m : Nat) (e : Int) : Bool := decide (m ≠ 0 ∧ 12 ≤ e + Nat.log2 m)

/-- exp(x) of a finite datum. -/
def expOf (neg : Bool) (m : Nat) (e : Int) : Nat × Int :=
  if farOut m e then (if neg then justAbove0 else (1, 5000)) else fixExp (fixOf neg m e)

/-- 1 / (1 + exp(-x)) of a finite datum. -/
def logisticOf (neg : Bool) (m : Nat) (e : Int) : Nat × Int :=
  if farOut m e then (if neg then justAbove0 else justBelow1)
  else
    let t := fixExp (-(fixOf neg m e))
    (2 ^ (9000 + (-t.2).toNat) / (2 ^ (-t.2).toNat + t.1 * 2 ^ t.2.toNat), -9000)

/-- tanh of a magnitude: (exp(2x) - 1) / (exp(2x) + 1). -/
def tanhOf (m : Nat) (e : Int) : Nat × Int :=
  if m ≠ 0 ∧ 8 ≤ e + Nat.log2 m then justBelow1
  else
    let t := fixExp (2 * fixOf false m e)
    let one := 2 ^ (-t.2).toNat
    ((t.1 - one) * 2 ^ 1500 / (t.1 + one), -1500)

/-- One bit of the logarithm of y / 2^512 in [1, 2): the square of y, halved where it reaches 2. -/
def log2Step (p : Nat × Nat) : Nat × Nat :=
  let y := p.2 * p.2 / 2 ^ 512
  if 2 ^ 513 ≤ y then (2 * p.1 + 1, y / 2) else (2 * p.1, y)

/-- log2 of a magnitude that is not zero, in units of 2^-256. -/
def log2Of (m : Nat) (e : Int) : Int :=
  let n := Nat.log2 m
  let frac := ((List.range 256).foldl (fun p _ => log2Step p) (0, m * 2 ^ (512 - n) / 2 ^ (n - 512))).1
  (e + n) * 2 ^ 256 + frac

/-! ### The functions. -/

/-- LOG2 of a datum above zero (R248). -/
def Flt.log2 (x : Flt) : Flt :=
  match x with
  | .inf false => .inf false
  | .fin false m e => let v := log2Of m e; fmt64.near (Config.ulpPick 0 (bits64 x)) (decide (v < 0)) v.natAbs (-256)
  | _ => .nan

def Flt.exp (f : FltFmt) (pick : Fin 3) (x : Flt) : Flt :=
  match x with
  | .nan => .nan
  | .inf true => .zero
  | .inf false => .inf false
  | .fin n m e => let r := expOf n m e; f.near pick false r.1 r.2

def Flt.logistic (f : FltFmt) (pick : Fin 3) (x : Flt) : Flt :=
  match x with
  | .nan => .nan
  | .inf true => .zero
  | .inf false => .fin false 1 0
  | .fin n m e => let r := logisticOf n m e; f.near pick false r.1 r.2

def Flt.tanh (f : FltFmt) (pick : Fin 3) (x : Flt) : Flt :=
  match x with
  | .nan => .nan
  | .inf n => .fin n 1 0
  | .fin n m e => let r := tanhOf m e; f.near pick n r.1 r.2

/-- exp and the logistic function in binary64 (R265). -/
def Flt.exp64 (x : Flt) : Flt := x.exp fmt64 (Config.ulpPick 1 (bits64 x))
def Flt.logistic64 (x : Flt) : Flt := x.logistic fmt64 (Config.ulpPick 2 (bits64 x))

/-- SIGMOID, TANH and EXP in binary32 (R278). -/
def Flt.sigmoid32 (x : Flt) : Flt := x.logistic fmt32 (Config.ulpPick 3 (bits32 x).toNat)
def Flt.tanh32 (x : Flt) : Flt := x.tanh fmt32 (Config.ulpPick 4 (bits32 x).toNat)
def Flt.exp32 (x : Flt) : Flt := x.exp fmt32 (Config.ulpPick 5 (bits32 x).toNat)

end Sys2Proof.Machine
end

