-- ==== Sys2Proof/Machine/Reduction.lean ====
section
/-!
DEFINITION. The Reduction Engine at work: the work of a data frame, contributions, the tray and fabric nodes, finals, slots,
reruns and delivery in order (R207 to R232, R30, R31, R103, R197, R406).
-/
namespace Sys2Proof.Machine

/-! ### Time within the work frame. -/

/-- Nanoseconds since the tick that began the running frame. -/
def Za.sinceTick (z : Za) : Nat := z.nowNs - 2 ^ 20 * z.frameNow

/-- The FTC moves on to an instant of the running frame, if it lies ahead. -/
def Za.untilNs (z : Za) (ns : Nat) : Za :=
  let t := 2 ^ 20 * z.frameNow + ns
  if z.nowNs < t ∧ z.mayReach t then z.reach t else z

/-- An instant of the running frame has come, or the FTC may be moved on to it. -/
def Za.dueAt (z : Za) (ns : Nat) : Bool := z.time.ticking && (decide (ns ≤ z.sinceTick) || z.mayReach (2 ^ 20 * z.frameNow + ns))

/-- The deadline of a contribution and of a child result of height h (R30). -/
def trayDeadlineNs : Nat := 917504
def nodeDeadlineNs (h : Nat) : Nat := trayDeadlineNs + 4096 * h

/-! ### Pod slots (R197, R228). -/

/-- Unreserved slots in use: what each context holds beyond its pod_min. -/
def Za.podsBeyond (z : Za) : Nat := (z.ctxs.map (fun (p : Nat × Ctx) => z.podsHeld p.1 - p.2.q.podMin)).sum

/-- A context may take one more slot. -/
def Za.mayTakeSlot (z : Za) (e : Nat) (c : Ctx) : Bool :=
  let held := z.podsHeld e
  decide (held < c.q.podMax) &&
    (decide (held < c.q.podMin) || decide (z.podsBeyond < 256 - (z.ctxs.map (fun (p : Nat × Ctx) => p.2.q.podMin)).sum))

/-! ### Finals kept (R224). -/

/-- The first-run final of a Pod index in a data frame. -/
def Za.finalOf (z : Za) (e frame index : Nat) : Option PodRec :=
  (z.kept.find? (fun k => k.entry == e && k.result.frame % 2 ^ 32 == frame % 2 ^ 32 && k.result.index == index && k.result.rerun == 0)).map
    (·.result)

/-- The view of the data frame that began a number of frames before another, if it was this context's. -/
def Ctx.viewBack (c : Ctx) (v : CtxView) (n : Nat) : Option CtxView := c.views.find? (fun u => decide (u.begun + n = v.begun))

/-- P of a Pod's four blocks, and how many were taken at Pmax for want of a final (R219). -/
def Za.podExps (z : Za) (e : Nat) (c : Ctx) (v : CtxView) (index : Nat) : List Nat × Nat :=
  if 64 ≤ index then ([0, 0, 0, 0], 0)
  else
    let before := c.viewBack v 2
    let empty (b : Nat) : Bool := match before with
      | some u => blockEmpty (u.plans.pod.kinds index) b
      | none => true
    let final (n : Nat) : Option PodRec := (c.viewBack v n).bind (fun u => z.finalOf e u.frame index)
    agreedExps v c.start index empty (final 2) (final 1)

/-! ### Sending results (R212, R213, R222). -/

/-- A record to another aggregator. -/
def Za.sendRed (z : Za) (agg msg ctx gen : Nat) (ws : List W) : Za := z.toAgg agg clsRed msg ctx gen (4 * ws.length) ws

/-- The aggregators a final goes down to from here: the other children of the nodes we host. -/
def FabTree.downTo (t : FabTree) : List Nat :=
  ((List.range t.top).map (fun h => h + 1)).filterMap (fun h => if t.hosts h then t.childHost h else none)

/-- The root is ours. -/
def FabTree.atRoot (t : FabTree) : Bool := t.host t.height 0 == some t.own

/-! ### Delivery in order (R230 to R232). -/

/-- The words of a record with its late flag set. -/
def markLate (ws : List W) : List W :=
  let hdr := (ws.take 15).set 6 (setFld (word ws 6) 31 31 1)
  let tail := ws.drop 16
  hdr ++ [crcWords (hdr ++ tail)] ++ tail

/-- A final result to its subscribers: late ones to those who took late results (R33). -/
def Za.deliverOut (z : Za) (e : Nat) (ws : List W) : Za :=
  z.toSubscribers e (if bit (word ws 6) 31 then 4 else 0) clsRed 0x03 ws

/-- next moves past one seq: sync objects bound to the channel gain 1 (R232). -/
def Za.passSeq (z : Za) (e ch : Nat) : Za :=
  match z.ctx? e with
  | none => z
  | some c =>
    (z.modCtx e (fun x => { x with next := modAt x.next ch (fun n => (n + 1) % 2 ^ 32) })).event c.id c.gen (.channel ch)

/-- Held results that continue the sequence are delivered. -/
def Za.drainHeld (e ch : Nat) : Nat → Za → Za
  | 0, z => z
  | n + 1, z =>
    match z.ctx? e with
    | none => z
    | some c =>
      match c.held.find? (fun (p : Nat × Nat × List W) => p.1 == ch && p.2.1 == c.next.getD ch 0) with
      | none => z
      | some p =>
        let z := z.modCtx e (fun x => { x with held := x.held.filter (fun (q : Nat × Nat × List W) => !(q.1 == ch && q.2.1 == p.2.1)) })
        Za.drainHeld e ch n ((z.deliverOut e p.2.2).passSeq e ch)

/-- The lowest missing seq is skipped (R231). -/
def Za.skipSeq (z : Za) (e ch : Nat) : Za :=
  match z.ctx? e with
  | none => z
  | some c =>
    let seq := c.next.getD ch 0
    let z := z.modCtx e (fun x => { x with skipped := x.skipped ++ [(ch, seq)] })
    Za.drainHeld e ch 65 ((z.count (.red .reorderSkip e)).passSeq e ch)

/-- How far a seq lies ahead of the next one of its window. -/
def Za.ahead (z : Za) (e ch seq : Nat) : Nat := match z.ctx? e with
  | some c => (seq + 2 ^ 32 - c.next.getD ch 0) % 2 ^ 32
  | none => 0

/-- The lowest missing seqs are skipped, one by one, until a result fits its window. -/
def Za.makeRoom (e ch seq : Nat) : Nat → Za → Za
  | 0, z => z
  | n + 1, z => if z.ahead e ch seq ≤ 64 then z else Za.makeRoom e ch seq n ((z.count (.red .reorderFull e)).skipSeq e ch)

/-- A result enters the reorder window of its channel (R231). -/
def Za.reorder (z : Za) (e : Nat) (r : PodRec) : Za :=
  let ch := r.index % 16
  let d := z.ahead e ch r.seq
  let z := if 64 < d ∧ d < 2 ^ 31 then Za.makeRoom e ch r.seq (d - 64) z else z
  let d := z.ahead e ch r.seq
  match z.ctx? e with
  | none => z
  | some c =>
    if d = 0 then Za.drainHeld e ch 65 ((z.deliverOut e r.words).passSeq e ch)
    else if d < 2 ^ 31 then
      if c.held.any (fun (p : Nat × Nat × List W) => p.1 == ch && p.2.1 == r.seq) then z.count (.red .reorderDup e)
      else z.modCtx e (fun x => { x with held := x.held ++ [(ch, r.seq, r.words)] })
    else if c.skipped.contains (ch, r.seq) then
      let z := z.modCtx e (fun x => { x with skipped := x.skipped.filter (· != (ch, r.seq)) })
      z.deliverOut e (markLate r.words)
    else z.count (.red .reorderDup e)

/-- A final result at this aggregator: kept for 64 frames, counted, delivered (R224, R230, R231). A rerun's goes at once to those
who took late results (R221). -/
def Za.deliver (z : Za) (e : Nat) (r : PodRec) : Za :=
  let z := { z with kept := { entry := e, begun := z.time.begun, result := r } :: z.kept }
  let z := if r.overflow then z.count (.red .overflow e) else z
  if r.rerun ≠ 0 then z.deliverOut e (markLate r.words) else z.reorder e r

/-! ### A Pod at this aggregator. -/

/-- Late items of a phase, with the deadline missed (R34). -/
def addLate (phase n deadline : Nat) : List (Nat × Nat × Nat) → List (Nat × Nat × Nat)
  | [] => [(phase, n, deadline)]
  | x :: r => if x.1 = phase then (phase, x.2.1 + n, min x.2.2 deadline) :: r else x :: addLate phase n deadline r

def Za.lateItem (z : Za) (e f phase n deadline : Nat) : Za :=
  if n = 0 then z else z.modWork e f (fun w => { w with late := addLate phase n deadline w.late })

/-- Fully reduced results are due at every hosting aggregator (R30). -/
def finalDeadlineNs : Nat := 1000000

/-- A Pod of a work, named by its index and run. -/
def FrameWork.pod? (w : FrameWork) (i rerun : Nat) : Option Pod := w.pods.find? (fun p => p.index == i && p.rerun == rerun)

def Za.modPod (z : Za) (e f i rerun : Nat) (g : Pod → Pod) : Za :=
  z.modWork e f (fun w => { w with pods := modWhere w.pods (fun p => p.index == i && p.rerun == rerun) g })

/-- Every result owed has been sent: the slot is free (R228). -/
def Pod.close (p : Pod) : Pod := { p with done := true, slotted := false }

/-- The final of a Pod is known here: it goes down the tree and is delivered (R213, R230). -/
def Za.finalHere (z : Za) (e : Nat) (w : FrameWork) (t : FabTree) (p : Pod) (r : PodRec) : Za :=
  let r := { r with late := r.late || w.abandoned }
  let z := t.downTo.foldl (fun z a => z.sendRed a 0x03 w.ctx w.gen r.words) z
  let late := p.rerun == 0 && decide (finalDeadlineNs < z.sinceTick)
  let z := z.modPod e w.frame p.index p.rerun (fun x => { x.close with final := some r, finalLate := late || w.abandoned })
  (z.lateItem e w.frame 3 (b2n (late && !w.abandoned)) finalDeadlineNs).deliver e r

/-- The tray inputs of a Pod that are absent for a cause (R224, R239). -/
def FrameWork.absentBy (w : FrameWork) (p : Pod) (cause : Nat) : Nat :=
  match w.view.podCluster p.index with
  | none => 0
  | some c => w.view.tray.countP (fun m => w.view.expects m.die c && (w.inputOf m.die c).1 == cause)

/-- Absences of a closed tray node are counted by cause (R239). -/
def Za.countAbsent (z : Za) (e : Nat) (w : FrameWork) (p : Pod) : Za :=
  if p.rerun ≠ 0 then z
  else
    let add (z : Za) (x : RedCnt × Nat) : Za := z.count (.red x.1 e) (w.absentBy p x.2)
    [(RedCnt.absentMissing, 1), (.absentCrc, 2), (.absentConfig, 4), (.absentMemory, 8)].foldl add z

/-- The agreed exponents of the final: those of the plan and members of two data frames on (R219). -/
def Za.sealFinal (z : Za) (e : Nat) (w : FrameWork) (p : Pod) (r : PodRec) : PodRec :=
  match z.ctx? e with
  | none => { r with final := true }
  | some c =>
    let f := z.time.after (z.time.after w.frame)
    r.agree p.exps (c.podAt f) (c.membersAt f).length

/-- A Pod goes as far as its inputs allow: the tray node closes, the result climbs, leaves for its parent, or is final
(R31, R212, R229). A rerun closes its tray node at once: its inputs are held (R221). Under a FULL Frost nothing moves (R432). -/
def Za.progressPod (z : Za) (e f i rerun : Nat) : Za :=
  match (z.work? e f).filter (fun _ => !z.frozenFull) with
  | none => z
  | some w =>
    match w.pod? i rerun with
    | none => z
    | some p =>
      let t := z.tree w.view
      let ready := p.rerun != 0 || w.closed || (p.slotted && w.trayReady p)
      if p.sentUp || p.final.isSome || (p.tray.isNone && !ready) then z
      else
        let z := if p.tray.isNone then z.countAbsent e w p else z
        let tray := p.tray.getD (w.trayRecord t.rank p)
        let from_ := p.own.getD tray
        let hosting := p.slotted || p.rerun != 0 || w.abandoned || !(decide (1 ≤ t.height) && t.hosts 1)
        let r := if hosting then climb t z.hostOf w p 13 p.ownHeight from_ else (p.ownHeight, from_)
        let z := z.count (.red .absentMissing e) (if p.rerun = 0 then t.fencedBetween p.ownHeight r.1 else 0)
        let z := z.modPod e f i rerun (fun x => { x with tray := some tray, own := some r.2, ownHeight := r.1 })
        let out := w.carry p r.1 r.2
        if r.1 = t.height ∧ t.atRoot then z.finalHere e w t p (z.sealFinal e w p out)
        else if hosting ∧ !t.hosts (r.1 + 1) then
          match t.host (r.1 + 1) (t.rank / 2 ^ (r.1 + 1)) with
          | none => z
          | some a =>
            let z := z.sendRed a 0x02 w.ctx w.gen out.words
            z.modPod e f i rerun (fun x => if t.downTo.isEmpty then { x.close with sentUp := true } else { x with sentUp := true })
        else z

/-- Every Pod of a work goes on. -/
def Za.progress (z : Za) (e f : Nat) : Za :=
  match z.work? e f with
  | none => z
  | some w => (w.pods.map (fun p => (p.index, p.rerun))).foldl (fun z k => z.progressPod e f k.1 k.2) z

/-! ### Fenced dies (R406). -/

/-- The contribution the tray makes for a fenced die. -/
def standInWords (w : FrameWork) (d : DieEntry) (c : Nat) : List W :=
  let rank := (w.view.rankOf d.die).getD 0
  let hdr := [pack [(w.ctx, 31, 16), (w.gen, 15, 8), (c, 5, 0)], w32 w.frame, pack [(1, 30, 30), (rank, 19, 0)],
    pack [(w.view.epoch, 31, 24), (aGetD d.cfgFrame c 0, 23, 20), (d.die, 19, 0)], 0, 0, 0]
  let cells := List.replicate 128 (0 : W)
  hdr ++ [crcWords (hdr ++ cells)] ++ cells

/-- A fenced die's expected inputs not yet taken are taken as present at once. -/
def FrameWork.standIn (w : FrameWork) (d : DieEntry) : FrameWork :=
  if d.fenced.any (fun x => decide (x ≤ w.frame)) ∧ (w.view.position d.die).isSome then
    let mine := (List.range 64).filter (fun c => w.view.expects d.die c)
    let kept := w.contribs.filter (fun x => x.die != d.die)
    let new (c : Nat) : Contribution :=
      { die := d.die, cluster := c, taken := .present, standIn := true, words := standInWords w d c, arrival := 0 }
    { w with contribs := kept ++ mine.map new }
  else w

/-! ### Evidence from records (R141, R246). -/

/-- Evidence of a die with one record added. -/
def DieEvidence.add (e : DieEvidence) (k : NoteKind) : DieEvidence :=
  match k with
  | .mismatch => { e with mismatch := e.mismatch + 1 }
  | .matched => { e with matched := e.matched + 1 }
  | .invalid => { e with invalid := e.invalid + 1 }
  | .unchecked => { e with unchecked := e.unchecked + 1 }
  | .framing => { e with framing := e.framing + 1 }
  | .fault => { e with faults := e.faults + 1 }
  | .health t => { e with health := e.health + 1, tMax := t }

def DieEvidence.fresh (die : Nat) : DieEvidence :=
  { die, mismatch := 0, matched := 0, invalid := 0, unchecked := 0, framing := 0, health := 0, tMax := none, faults := 0 }

/-- A record of a member die of the work's data frame and, for a digest record, of its context. -/
def FrameWork.note (w : FrameWork) (n : Note) : FrameWork :=
  let mine : Bool := match n.ctx with
    | some c => c == (w.ctx, w.gen)
    | none => true
  if !mine ∨ n.frame ≠ w.frame ∨ (w.view.position n.die).isNone ∨ w.closed then w
  else if w.evidence.any (fun e => e.die == n.die) then
    { w with evidence := modWhere w.evidence (fun e => e.die == n.die) (fun e => e.add n.kind) }
  else { w with evidence := w.evidence ++ [(DieEvidence.fresh n.die).add n.kind] }

/-! ### The work of a data frame begins (R198 step 7, R219, R228). -/

/-- The work of the data frame of a view. -/
def FrameWork.fresh (e : Nat) (c : Ctx) (v : CtxView) (begun : Nat) : FrameWork :=
  { entry := e, ctx := c.id, gen := c.gen, frame := v.frame, begun, view := v, contribs := [], dead := [], closed := false, judged := [],
    pods := [], evidence := [], external := [], rows := [], items := [], disputes := [], disputesMade := 0, marked := [],
    preDone := [], batches := [], scores := [], scored := false, withheld := [], detected := false, bands := [], params := [], marginal := 0,
    late := [], abandoned := false }

/-- One Pod key asks for its slot (R228, R229). -/
def Za.openPod (z : Za) (e : Nat) (c : Ctx) (v : CtxView) (i : Nat) : Za :=
  let x := z.podExps e c v i
  let grant := z.mayTakeSlot e c
  let p : Pod :=
    { index := i, seq := v.seqOf i, slotted := grant, waited := !grant, exps := x.1, rerun := 0, tray := none, children := [],
      own := none, ownHeight := 0, sentUp := false, final := none, finalLate := false, done := false }
  let z := z.modWork e v.frame (fun w => { w with pods := w.pods ++ [p] })
  (z.count (.red .scaleFallback e) x.2).count (.red .podWait e) (b2n (!grant))

/-- A context's work frame begins on the data frame of a view; after a step back the work takes the place of an older one. -/
def Za.beginWork (z : Za) (e : Nat) (c : Ctx) (v : CtxView) : Za :=
  let mine := z.externals.filter (fun x => x.ctx == c.id && x.gen == c.gen && x.frame == v.frame)
  let w : FrameWork := { FrameWork.fresh e c v z.time.begun with external := mine.map (fun x => (x.key, x.column, x.value)) }
  let w := z.dies.foldl FrameWork.standIn w
  let w := (z.notes.filter (fun n => n.frame == v.frame)).foldl FrameWork.note w
  let z := { z with works := z.works.filter (fun (x : FrameWork) => !(x.entry == e && x.frame == v.frame)) ++ [w] }
  (v.plans.pod.indices.foldl (fun z i => z.openPod e c v i) z).progress e v.frame

/-! ### Contributions (R103, R226). -/

/-- The command under way for which a DTU replays a contribution (R103). -/
def Za.replayOf (z : Za) (c : Ctx) (die : Nat) (ws : List W) : Option Handle :=
  let frame := z.frameOf (word ws 1).toNat
  z.cmds.handles.find? (fun h => h.cmd.op == .retainReplay && h.relay == some die && h.done.isNone && huskCtx h.husk == c.id &&
    huskGen h.husk == c.gen && decide (z.frameOf (huskP0 h.husk) ≤ frame ∧ frame ≤ z.frameOf (huskP1 h.husk)) &&
    decide (bits (dword (huskPay h.husk) 0) (cCluster ws) (cCluster ws) = 1))

/-- A replayed contribution for another requester passes to it as it came. -/
def Za.passReplay (z : Za) (req : Requester) (c : Ctx) (ws : List W) : Za :=
  if req.keomon then z.toHost 2 (bytesOf ws) else z.enqueue req.link none (mkTxWords clsRed 0x01 req.addr c.id c.gen ws)

/-- A replayed contribution goes to the rebuild that asked for it (R420), or to the requester of the replay; it is in no live Pod. -/
def Za.takeReplay (z : Za) (e : Nat) (c : Ctx) (die : Nat) (ws : List W) : Za :=
  match (z.replayOf c die ws).filter (fun h => h.cmd.req.link != 82), z.rebuild with
  | some h, _ => z.passReplay h.cmd.req c ws
  | none, none => z
  | none, some rb =>
    let frame := z.frameOf (word ws 1).toNat
    if !rb.asked ∨ !cSound ws ∨ cDie ws ≠ die then z
    else
      let x : Contribution :=
        { die, cluster := cCluster ws, taken := .present, standIn := false, words := ws, arrival := 0 }
      match z.work? e frame with
      | some _ => z.modWork e frame (fun w => { w with contribs := w.contribs ++ [x] })
      | none =>
        let v : CtxView :=
          { frame, begun := 0, epoch := c.epoch, members := c.membersAt rb.front, plans := c.plans, masks := [], base := [], pins := [] }
        let w := FrameWork.fresh e c v 0
        let w : FrameWork := { w with contribs := [x], closed := true, abandoned := true }
        { z with works := z.works ++ [w] }

/-- The tests of R226 on a contribution that arrived `ns` after the tick. -/
def Za.contribution (z : Za) (die ns : Nat) (ws : List W) : Za :=
  match z.entryOf (cCtx ws) (cGen ws) with
  | none => z.count (.link .stale (((z.die? die).map (·.link)).getD 0) 0)
  | some e =>
    match z.ctx? e with
    | none => z
    | some c =>
      if cReplay ws then z.takeReplay e c die ws
      else match z.work e with
        | none => z.count (.red .wrongFrame e)
        | some w =>
          let key := cCluster ws
          let expect := match z.die? die with
            | some d => aGetD d.cfgFrame key 0
            | none => 0
          let put (k : Taken) : Za :=
            let x : Contribution := { die, cluster := key, taken := k, standIn := false, words := ws, arrival := ns }
            let z := z.modDie die (fun d => { d with
              paramAge := match d.slotOf w.ctx w.gen w.frame with
                | some s =>
                  if k == .absent 1 then d.paramAge
                  else if cAge ws = 0 then aDel d.paramAge s.slot
                  else aPut d.paramAge s.slot (w.frame - cAge ws)
                | none => d.paramAge })
            (z.modWork e w.frame (fun x' => { x' with contribs := x'.contribs ++ [x] })).progress e w.frame
          if (word ws 1).toNat ≠ w.frame % 2 ^ 32 then z.count (.red .wrongFrame e)
          else if cDie ws ≠ die ∨ w.view.rankOf die ≠ some (cRank ws) then z.count (.red .misroute e)
          else if w.contribs.any (fun x => x.die == die && x.cluster == key) then z.count (.red .duplicate e)
          else if trayDeadlineNs < ns ∨ w.closed then
            (z.lateItem e w.frame 1 1 trayDeadlineNs).count (.red .lateArrival e)
          else if !cSound ws then put (.absent 1)
          else if cCfgSeq ws ≠ expect then put (.absent 2)
          else put .present

/-- The Reduction Engine takes frames in: under a FULL Frost it only stages them (R432). -/
def Za.reducing (z : Za) : Bool := z.running && decide (z.power.lull = 0)

/-- CONTRIB (R226). -/
def Za.contrib (z : Za) (p : Nat) (f : Frame) (arrival : Nat) : Za :=
  let r := z.receive p f
  let z := r.1.untilNs arrival
  match z.fromDie p f with
  | some die =>
    if r.2 ∧ f.cls = 3 ∧ f.msg = 1 ∧ f.plen.toNat = 544 ∧ z.reducing then z.contribution die arrival (f.body.take 136) else z
  | none => z

def execContrib (link : Fin 82) (frame : Frame) (arrival : Nat) (s : State) : Answer :=
  .next (s.onZa (fun z => z.contrib link.val frame arrival))

/-! ### The tray deadline (R31, R227, R229). -/

/-- The causes for which a die was absent from the Pods of a work. -/
def FrameWork.causesOf (w : FrameWork) (die : Nat) : Nat :=
  let clusters := (w.view.plans.pod.indices.filterMap w.view.podCluster).eraseDups
  ((clusters.filter (fun c => w.view.expects die c)).map (fun c => (w.inputOf die c).1)).foldl (· ||| ·) 0

/-- The frames of a run that ends with a work's data frame, as the fault log carries them. -/
def Ctx.threeFrames (c : Ctx) (v : CtxView) : List W :=
  [w32 (((c.viewBack v 2).map (·.frame)).getD (v.frame - 2)), w32 (((c.viewBack v 1).map (·.frame)).getD (v.frame - 1)), w32 v.frame]

/-- The absence run of one die (R227). -/
def Za.absenceRun (z : Za) (e : Nat) (c : Ctx) (w : FrameWork) (die : Nat) : Za :=
  let causes := w.causesOf die
  let old := ((z.die? die).bind (fun d => aGet d.absences e)).getD (0, 0)
  let run := if causes = 0 then 0 else old.1 + 1
  let seen := if causes = 0 then 0 else old.2 ||| causes
  let z := z.modDie die (fun d => { d with absences := if run = 0 then aDel d.absences e else aPut d.absences e (run, seen) })
  if run = 3 then
    z.raiseCtx .absentPersist .dtu 0 .none c die 0 (c.threeFrames w.view ++ [pack [(seen, 31, 24)]])
  else z

/-- TRAY_DEADLINE: missing inputs become absent, every tray node closes. -/
def Za.trayDeadline (z : Za) (e : Nat) : Za :=
  match z.work e, z.ctx? e with
  | some w, some c =>
    if w.closed ∨ !z.enginesRun ∨ !z.dueAt trayDeadlineNs then z
    else
      let z := z.untilNs trayDeadlineNs
      let z := z.modWork e w.frame (fun x => { x with closed := true })
      let z := (w.view.tray.map (·.die)).foldl (fun z d => z.absenceRun e c w d) z
      z.progress e w.frame
  | _, _ => z

def execTrayDeadline (entry : Fin 1024) (s : State) : Answer := .next (s.onZa (fun z => z.trayDeadline entry.val))

/-! ### Partial results (R212, R220, R222). -/

/-- The height at which a record comes in as the other child: its leftmost rank is that of the child (R212). -/
def FabTree.childHeight (t : FabTree) (height node : Nat) : Option Nat :=
  ((List.range (t.top + 1)).drop 1).find? (fun h =>
    t.hosts h && decide (height < h) && (t.sibling h).any (fun k => k * 2 ^ (h - 1) == node * 2 ^ height))

/-- What a child record is taken for: present, or absent with a cause code of R224. -/
def childCause (p : Pod) (r : PodRec) (sound : Bool) : Nat :=
  if !sound then 1
  else if r.kind = 0 ∧ r.sec.blocks.map (·.exp) ≠ p.exps then 4
  else 0

/-- PARTIAL at its node. One whose crc fails is known by its header alone (R222). -/
def Za.partialIn (z : Za) (ns : Nat) (ws : List W) : Za :=
  match if recSound ws then podRecOf ws else some (recHead ws) with
  | none => z
  | some r =>
    match (z.entryOf r.ctx r.gen).bind (fun e => (z.works.find? (fun w => w.entry == e && w.frame % 2 ^ 32 == r.frame)).map (fun w => (e, w))) with
    | none => z
    | some (e, w) =>
      let t := z.tree w.view
      match w.pod? r.index r.rerun, t.childHeight r.height r.node with
      | some p, some h =>
        let tooLate := decide (p.rerun = 0 ∧ nodeDeadlineNs h < ns) && decide (w.begun = z.time.begun)
        let here := p.children.find? (fun c => c.height == h)
        if here.any (fun c => c.result.isSome || c.cause != 0) then z
        else if tooLate ∨ (p.rerun = 0 ∧ here.isSome) then z.lateItem e w.frame 2 1 (nodeDeadlineNs h)
        else if here.isSome then z
        else
          let cause := childCause p r (recSound ws)
          let child : ChildIn := { height := h, cause, result := if cause = 0 then some r else none }
          let z := z.modPod e w.frame p.index p.rerun (fun x => { x with children := x.children ++ [child] })
          let z := if cause = 1 then z.count (.red .absentCrc e) else if cause = 4 then z.count (.red .absentScale e) else z
          z.progressPod e w.frame p.index p.rerun
      | _, _ => z

/-- A result of a context and generation that are not resident here (R20). -/
def Za.staleRecord (z : Za) (ws : List W) : Bool := (z.entryOf (recHead ws).ctx (recHead ws).gen).isNone

/-- A message of the RED class from another ZA40; one of no resident context is discarded and counted on its port. -/
def Za.redFrame (z : Za) (p : Nat) (f : Frame) (msg : Nat) (g : Za → List W → Za) : Za :=
  let r := z.receive p f
  if r.2 ∧ f.cls = 3 ∧ f.msg.toNat = msg ∧ 64 ≤ f.plen.toNat ∧ r.1.reducing then
    let ws := f.body.take (f.plen.toNat / 4)
    if r.1.staleRecord ws then r.1.count (.link .stale p 0) else g r.1 ws
  else r.1

def execPartialResult (link : Fin 82) (frame : Frame) (arrival : Nat) (s : State) : Answer :=
  .next (s.onZa (fun z => (z.untilNs arrival).redFrame link.val frame 2 (fun z ws => z.partialIn arrival ws)))

/-- A child's absences: a run of three is reported (R227). -/
def Za.childRun (z : Za) (e : Nat) (c : Ctx) (w : FrameWork) (t : FabTree) (h : Nat) : Za :=
  let gone := w.pods.filterMap (fun p => if p.rerun ≠ 0 then none else
    match p.children.find? (fun (x : ChildIn) => x.height == h) with
    | some x => if x.result.isSome then none else some (2 ^ x.cause)
    | none => some 1)
  let causes := gone.foldl (· ||| ·) 0
  let old := (aGet c.childRuns h).getD (0, 0)
  let run := if causes = 0 then 0 else old.1 + 1
  let seen := if causes = 0 then 0 else old.2 ||| causes
  let z := z.modCtx e (fun x => { x with childRuns := if run = 0 then aDel x.childRuns h else aPut x.childRuns h (run, seen) })
  match t.childHost h with
  | some a =>
    if run = 3 then
      z.raiseCtx .trayAbsent .za40 a .none c ((firstIdx t.aggs (· == a)).getD 0) 0 (c.threeFrames w.view ++ [pack [(seen, 31, 24)]])
    else z
  | none => z

/-- The child of a height is judged once for a work: a frame without absence ends its run (R227). -/
def Za.judgeChild (z : Za) (e f h : Nat) : Za :=
  match z.work? e f, z.ctx? e with
  | some w, some c =>
    if w.judged.contains h then z
    else (z.childRun e c w (z.tree w.view) h).modWork e f (fun x => { x with judged := x.judged ++ [h] })
  | _, _ => z

/-- FABRIC_NODE_DEADLINE: the missing child of a height becomes absent in every Pod (R31). -/
def Za.nodeDeadline (z : Za) (e h : Nat) : Za :=
  match z.work e with
  | some w =>
    let t := z.tree w.view
    if h = 0 ∨ t.top < h ∨ !t.hosts h ∨ (t.childHost h).isNone ∨ !z.enginesRun ∨ !z.dueAt (nodeDeadlineNs h) then z
    else
      let z := z.untilNs (nodeDeadlineNs h)
      let waits (p : Pod) : Bool := p.rerun == 0 && p.children.all (fun x => x.height != h)
      let n := w.pods.countP waits
      let z := z.modWork e w.frame (fun x =>
        { x with pods := modWhere x.pods waits (fun p => { p with children := p.children ++ [{ height := h, cause := 0, result := none }] }) })
      let z := z.count (.red .absentMissing e) n
      (z.judgeChild e w.frame h).progress e w.frame
  | none => z

def execFabricNodeDeadline (entry : Fin 1024) (height : Fin 13) (s : State) : Answer :=
  .next (s.onZa (fun z => z.nodeDeadline entry.val height.val))

/-! ### Final results (R213). -/

/-- A final goes on to the hosts of the right children below, also where its work is no longer held (R213). -/
def Za.finalDown (z : Za) (v : Option CtxView) (r : PodRec) : Za :=
  match v with
  | some v => (z.tree v).downTo.foldl (fun z a => z.sendRed a 0x03 r.ctx r.gen r.words) z
  | none => z

/-- FINAL at this aggregator. A record whose crc fails counts as not received (R222); under a FULL Frost it is staged (R432). -/
def Za.finalIn (z : Za) (ws : List W) : Za :=
  match podRecOf ws with
  | none => z
  | some r =>
    if z.frozenFull then { z with staged := z.staged ++ [ws] }
    else if !recSound ws ∨ !r.final then z
    else match z.entryOf r.ctx r.gen with
      | none => z
      | some e =>
        match z.works.find? (fun w => w.entry == e && w.frame % 2 ^ 32 == r.frame) with
        | none =>
          let r := { r with late := true }
          (z.finalDown ((z.ctx? e).bind (fun c => c.views.find? (fun v => v.frame % 2 ^ 32 == r.frame))) r).deliver e r
        | some w =>
          match w.pod? r.index r.rerun with
          | some p => if p.final.isSome then z.count (.red .reorderDup e) else z.finalHere e w (z.tree w.view) p r
          | none =>
            let r := if r.rerun = 0 then { r with late := r.late || w.abandoned } else r
            (z.finalDown (some w.view) r).deliver e r

/-- At thaw the engines take up the work frame in progress, with what was staged (R432). -/
def Za.takeUp (z : Za) : Za :=
  let waiting := z.staged
  let z := waiting.foldl Za.finalIn { z with staged := [] }
  (z.works.map (fun w => (w.entry, w.frame))).foldl (fun z k => z.progress k.1 k.2) z

def execFinalResult (link : Fin 82) (frame : Frame) (s : State) : Answer :=
  .next (s.onZa (fun z => z.redFrame link.val frame 3 (fun z ws => z.finalIn ws)))

/-! ### Skips, slots, reruns. -/

/-- The seq below which every key's frame after its work frame has ended (R231). -/
def Za.expiredSeq (z : Za) (c : Ctx) (ch : Nat) : Nat :=
  match ((c.views.filter (fun v => decide (z.time.begun ≤ v.begun + 2))).getLast?) with
  | some v => v.base.getD ch 0 % 2 ^ 32
  | none => c.base.getD ch 0 % 2 ^ 32

/-- Seqs skipped up to a limit. -/
def Za.skipTo (e ch : Nat) : Nat → Nat → Za → Za
  | 0, _, z => z
  | n + 1, limit, z =>
    match z.ctx? e with
    | none => z
    | some c =>
      let d := (limit + 2 ^ 32 - c.next.getD ch 0) % 2 ^ 32
      if d = 0 ∨ 2 ^ 31 ≤ d then z else Za.skipTo e ch n limit (z.skipSeq e ch)

/-- REORDER_SKIP_EXPIRY. -/
def Za.reorderSkip (z : Za) (e ch : Nat) : Za :=
  match z.ctx? e with
  | none => z
  | some c =>
    let limit := z.expiredSeq c ch
    let d := (limit + 2 ^ 32 - c.next.getD ch 0) % 2 ^ 32
    if z.enginesRun ∧ d < 2 ^ 31 then Za.skipTo e ch d limit z else z

def execReorderSkipExpiry (entry : Fin 1024) (chan : Fin 16) (s : State) : Answer :=
  .next (s.onZa (fun z => z.reorderSkip entry.val chan.val))

/-- POD_SLOT_GRANT (R229): the first waiting key of the context takes a slot and merges what was staged. -/
def Za.slotGrant (z : Za) (e : Nat) : Za :=
  match z.ctx? e, z.work e with
  | some c, some w =>
    match w.pods.find? (fun p => p.waited && !p.slotted && !p.done && p.rerun == 0) with
    | none => z
    | some p =>
      if z.enginesRun ∧ z.mayTakeSlot e c then
        (z.modPod e w.frame p.index 0 (fun x => { x with slotted := true })).progressPod e w.frame p.index 0
      else z
  | _, _ => z

def execPodSlotGrant (entry : Fin 1024) (s : State) : Answer := .next (s.onZa (fun z => z.slotGrant entry.val))

/-- POD_RERUN (R221): an overflowed key runs again on the inputs of its first run, in the work frame after its own; once more at
Pmax when that overflows too. Children absent in the first run stay absent. -/
def Za.podRerun (z : Za) (e f i : Nat) : Za :=
  match z.work? e f with
  | none => z
  | some w =>
    match w.pods.getLast?.bind (fun _ => (w.pods.filter (fun p => p.index == i)).getLast?) with
    | none => z
    | some p =>
      let beyond := (p.final.map PodRec.overflow).getD false
      let inTime := decide (w.begun + 1 ≤ z.time.begun) && decide (z.time.begun ≤ w.begun + 2) &&
        (p.rerun != 0 || z.time.begun == w.begun + 1)
      if !beyond ∨ 2 ≤ p.rerun ∨ !inTime ∨ !z.enginesRun then z
      else
        let q : Pod := { p with
          rerun := p.rerun + 1, slotted := false, waited := false, exps := rerunExps p.exps w.view.members.length (p.rerun + 1)
          tray := none, children := p.children.filter (fun c => c.result.isNone), own := none, ownHeight := 0, sentUp := false
          final := none, finalLate := false, done := false }
        let z := z.modWork e f (fun x => { x with pods := x.pods ++ [q] })
        (z.count (.red .reruns e)).progressPod e f i q.rerun

def execPodRerun (entry : Fin 1024) (frameNo : Nat) (podIndex : Fin 81) (s : State) : Answer :=
  .next (s.onZa (fun z => z.podRerun entry.val frameNo podIndex.val))

/-- RESULT_HISTORY (R224): the record's header and its complete list of absence entries. -/
def Za.resultHistory (z : Za) (h : HuskCmd) : ZaBody :=
  z.withCtx h (fun e _ =>
    match z.kept.find? (fun k => k.entry == e && k.result.frame % 2 ^ 32 == huskP0 h && k.result.index == huskP1 h) with
    | some k => (z, some (okPayload ((k.result.words.take 16) ++ k.result.entries.flatMap Absence.words)))
    | none => z.refuse badP0)

end Sys2Proof.Machine
end

