-- ==== Sys2Proof/Machine/Fences.lean ====
section
/-!
DEFINITION. Fencing a unit: lanes, tiles, channels, quadrants, links, cores, clusters and dies, with escalation and margining
(R95, R202, R270, R399 to R406).
-/
namespace Sys2Proof.Machine

/-! ### Quadrants. -/

def Za.quadLive (z : Za) (q : Nat) : Bool := !z.fences.quadrants.contains q
def Za.laneLive (z : Za) (l : Nat) : Bool := !z.fences.lanes.contains l && z.quadLive (l / 1024)

/-- The next unfenced quadrant after q, in the order of R210 and R267. -/
def Za.nextQuad (z : Za) (q : Nat) : Option Nat := ([1, 2, 3].map (fun i => (q + i) % 4)).find? z.quadLive

/-- With one quadrant left no item is checked: ENS_CHECK_LOST, once (R270). -/
def Za.checkLoss (z : Za) : Za :=
  if z.quadrantsLeft ≤ 1 ∧ !z.fences.checkLost then
    { z with fences := { z.fences with checkLost := true } }.raise .ensCheckLost .za40 z.aggId .none 0 0
  else if 1 < z.quadrantsLeft then { z with fences := { z.fences with checkLost := false } } else z

/-- The code of what caused a fence: 0 when a command did. -/
def causeCode (cause : Option FaultKind) : Nat := (cause.map FaultKind.code).getD 0

/-- A quadrant is fenced for a cause; the last one never is: the fault is FATAL and a warm reset follows (R402). -/
def Za.fenceQuadrant (z : Za) (q : Nat) (cause : Option FaultKind) : Za :=
  if !z.quadLive q then z
  else if z.quadrantsLeft ≤ 1 then match cause with
    | some k => z.raiseF { faultOf k .quadrant q .none 0 0 with severity := 3 }
    | none => z
  else
    let z : Za := { z with fences := { z.fences with quadrants := z.fences.quadrants ++ [q] } }
    (z.raiseFence .quadrant q 0 (causeCode cause) 0xF z.frameNow).checkLoss

/-- ENS_QUADRANT: the quadrant is suspect, and its supply rises by a step; at four steps it is fenced (R405). -/
def Za.ensQuadrant (z : Za) (q : Nat) : Za :=
  let z := z.raise .ensQuadrant .quadrant q .none 0 0
  let z : Za := { z with fences := { z.fences with suspect := (z.fences.suspect ++ [q]).eraseDups } }
  if z.fences.margin.getD q 0 < 4 then { z with fences := { z.fences with margin := modAt z.fences.margin q (· + 1) } }
  else (z.raise .marginLimit .quadrant q .none 0 0).fenceQuadrant q (some .marginLimit)

/-- A lane is fenced; more than 256 in a quadrant fence it (R268, R402). -/
def Za.fenceLane (z : Za) (l loss frame : Nat) (cause : Option FaultKind := some .ensLane) : Za :=
  if z.fences.lanes.contains l then z
  else
    let z : Za := { z with fences := { z.fences with lanes := z.fences.lanes ++ [l] } }
    let z := z.raiseFence .lane l 0 (causeCode cause) loss frame
    if 256 < z.fences.lanes.countP (fun x => decide (x / 1024 = l / 1024)) then z.fenceQuadrant (l / 1024) cause else z

/-- A tile is fenced; more than four in a quadrant fence it. -/
def Za.fenceTile (z : Za) (t : Nat) (cause : Option FaultKind) : Za :=
  if z.fences.tiles.contains t then z
  else
    let z : Za := { z with fences := { z.fences with tiles := z.fences.tiles ++ [t] } }
    let z := z.raiseFence .tile t 0 (causeCode cause) 2 z.frameNow
    if 4 < z.fences.tiles.countP (fun x => decide (x / 8 = t / 8)) then z.fenceQuadrant (t / 8) cause else z

/-- A reduction channel is fenced; two in a quadrant fence it. -/
def Za.fenceChannel (z : Za) (c : Nat) (cause : Option FaultKind) : Za :=
  if z.fences.channels.contains c then z
  else
    let z : Za := { z with fences := { z.fences with channels := z.fences.channels ++ [c] } }
    let z := z.raiseFence .channel c 0 (causeCode cause) 4 z.frameNow
    if 2 ≤ z.fences.channels.countP (fun x => decide (x / 4 = c / 4)) then z.fenceQuadrant (c / 4) cause else z

/-- A link is fenced: traffic, and the time source when it carried the PTP parent (R400). -/
def Za.fenceLink (z : Za) (p : Nat) (cause : Option FaultKind := some .ledger) : Za :=
  if z.fences.links.contains p then z
  else
    let z : Za := { z with fences := { z.fences with links := z.fences.links ++ [p] } }
    let loss := 2 ^ 7 + (if z.ptp.parent = some p then 2 ^ 8 else 0)
    (z.raiseFence .link p 0 (causeCode cause) loss z.frameNow).linkRestart p

/-- The core that carries a fenced core's duties besides its own (R202). -/
def corePartner (c : Nat) : Nat := [5, 2, 1, 4, 3, 0].getD c 0

/-- A management core is fenced: its partner carries both cores' duties, and where those are serving firmware that stops. The second
fenced core of a pair is MGMT_LOST, after which a warm reset follows (R202). -/
def Za.fenceCore (z : Za) (c : Nat) (cause : Option FaultKind) : Za :=
  if z.fences.cores.contains c then z
  else
    let z : Za := { z with fences := { z.fences with cores := z.fences.cores ++ [c] } }
    let z := z.raiseFence .core c 0 (causeCode cause) (2 ^ 9) z.frameNow
    let z : Za := if c = 0 ∨ c = 5 then { z with serving := z.serving.filter (fun s => s.model.isSome) } else z
    if z.fences.cores.contains (corePartner c) then z.raise .mgmtLost .core c .none 0 0 else z

/-! ### Requests to the Region Manager (R415). -/

/-- A command of our own to another aggregator. -/
def Za.commandTo (z : Za) (agg : Nat) (op : Opcode) (handle : W) (p0 p1 : Nat) (payload : List W) : Za :=
  let tag := z.cmds.nextTag
  let hdr := [pack [(1, 31, 28), (4, 27, 24), (op.code, 15, 0)], 0xFFFF0000, pack [(2, 31, 28), (agg, 11, 0)], tag, handle, w32 p0, w32 p1]
  let body := hdr ++ [crcWords (hdr ++ payload)] ++ payload
  { z with cmds := { z.cmds with nextTag := if tag + 1 = 0 then 1 else tag + 1 } }.toAgg agg clsCtrl 0x01 0xFFFF 0 (4 * body.length) body

/-- A fence of a die or a cluster is asked for: we decide it as Region Manager, or with no rack at all (log entry 101); otherwise the
request goes to the Region Manager as a FENCE command. -/
def Za.askFence (z : Za) (u : UnitName) (handle : W) : Za :=
  let ask : FenceAsk := { unit := u, lift := false, granted := false, applied := none, handle }
  if z.rack.units.isEmpty ∨ z.isRm then
    let recent := z.rack.grants.filter (fun f => decide (z.time.begun < f + 4096))
    if recent.length < z.rack.limit then
      { z with rack := { z.rack with grants := recent ++ [z.time.begun] }, asks := z.asks ++ [{ ask with granted := true }] }
    else
      let kind : UnitKind := if u.kind = 1 then .cluster else .dtu
      (z.raise .fenceRefused kind u.unit .none u.die 0).finish handle (resultOf stFenceRefused)
  else
    { z with asks := z.asks ++ [ask] }.commandTo z.rmId .fence 0 (packNat [(u.kind, 31, 28), (u.unit, 15, 0)]) u.die []

/-- A fence asked for on such a request is of a die or a cluster (R415). -/
def askable (u : UnitName) : Bool := u.kind == 1 || u.kind == 2

/-! ### Dies and clusters. -/

/-- A handle is taken for a long command (R375). -/
def Za.take (z : Za) (op : Opcode) (h : HuskCmd) (chain : Option Chain) (parked : Bool) (relay : Option Nat) : Option (Za × W) :=
  z.freeIndex.map (fun i =>
    let p := z.issue i
    let ref : CmdRef := { op, req := h.req, w1 := h.w1, tag := huskTag h }
    let x : Handle := { handle := p.2, cmd := ref, husk := h, parked, chain, relay, order := p.1.cmds.order, done := none }
    let z := p.1
    ({ z with cmds := { z.cmds with handles := z.cmds.handles ++ [x], order := z.cmds.order + 1 } }, p.2))

/-- A long command of the tray's own to a DTU (R320, R372, R420). -/
def Za.ownLong (z : Za) (die : Nat) (op : Opcode) (p0 p1 : Nat) (payload : List W) (ctx : W) : Za :=
  let h := ownHusk die p0 p1 payload ctx
  match z.take op h none false (some die) with
  | some p => p.1.relayLong die op h p.2
  | none => z

/-- The word of DTU_CLU_CFG with its fenced bit (R90, R95). -/
def fencedWord (w : W) (on : Bool) : W := setFld w 8 8 (b2n on)

/-- A cluster is fenced, or its fence is lifted, from the next tick (R95, R400, R404). -/
def Za.setCluster (z : Za) (die c : Nat) (on : Bool) (cause : Nat) : Za :=
  match z.die? die with
  | none => z
  | some d =>
    let had := d.fencedClusters.contains c
    let z := z.modDie die (fun x => { x with
      fencedClusters := if on then (x.fencedClusters ++ [c]).eraseDups else x.fencedClusters.filter (· != c) })
    let z := z.ownWrite die (cluAddr c) [fencedWord (cluWord d.cfg c) on]
    if on && !had then z.raiseFence .cluster c die cause (2 ^ 4) (z.frameNow + 1) d.claim else z

/-- The entities of a die are being scored. -/
def Za.scoringDie (z : Za) (die : Nat) : Bool :=
  z.works.any (fun w => !w.abandoned && !w.detected && (w.view.position die).isSome && !w.view.pins.isEmpty)

/-- What fencing a die loses (R400). -/
def Za.dieLoss (z : Za) (die : Nat) : Nat := 2 ^ 5 + (if z.scoringDie die then 2 ^ 6 else 0)

/-- A die is fenced from a frame on (R400, R406). -/
def Za.fenceDie (z : Za) (die cause frame : Nat) : Za :=
  match z.die? die with
  | none => z
  | some d =>
    if d.fenced.isSome then z
    else
      let loss := z.dieLoss die
      let z := z.modDie die (fun x => { x with fenced := some frame })
      z.raiseFence .dtu 0 die cause loss frame d.claim

/-! ### The view of a data frame (R208, R240). -/

/-- The clusters of a die whose ctx_mask holds a context's slot bit in a frame. -/
def DieEntry.maskOf (d : DieEntry) (c : Ctx) (f : Nat) : Nat :=
  match d.slotOf c.id c.gen f with
  | none => 0
  | some s => ((List.range 64).map (fun k => if bits (fld (cluWord d.cfg k) 7 0) s.slot s.slot = 1 then 2 ^ k else 0)).sum

/-- A feature plan as it will stand at a frame, in descriptors of four words. -/
def Ctx.featAt (c : Ctx) (tile : Bool) (f : Nat) : List (List W) :=
  match c.planDue (if tile then .tile else .die) f with
  | some p => (List.range (p.words.length / 4)).map (fun i => (p.words.drop (4 * i)).take 4)
  | none => if tile then c.plans.tile else c.plans.die

/-- The detector plan as it will stand at a frame, in descriptors of eight words. -/
def Ctx.detAt (c : Ctx) (f : Nat) : List (List W) :=
  match c.planDue .det f with
  | some p => (List.range (p.words.length / 8)).map (fun i => (p.words.drop (8 * i)).take 8)
  | none => c.plans.det

/-- What stands for a data frame as far as is known now. -/
def Za.viewAt (z : Za) (c : Ctx) (f begun : Nat) : CtxView :=
  let plans : Plans := { c.plans with pod := c.podAt f, die := c.featAt false f, tile := c.featAt true f, det := c.detAt f }
  { frame := f, begun, epoch := c.epoch, members := c.membersAt f, plans, masks := z.dies.map (fun d => (d.die, d.maskOf c f))
    base := c.base, pins := [] }

end Sys2Proof.Machine
end

