-- ==== Sys2Proof/Machine/Features.lean ====
section
/-!
DEFINITION. The Feature Stage: entities, encodings, descriptors, rows, and the commands that set plans and write EXTERNAL columns
(R13, R240 to R253, R383).
-/
namespace Sys2Proof.Machine

/-! ### Entities (R13, R240). -/

/-- A die entity, or the tile of a cluster. -/
structure Entity where
  tile : Bool
  die : Nat
  cluster : Nat
  deriving DecidableEq, Repr

def Entity.key (n : Entity) : W := pack [(b2n n.tile, 26, 26), (if n.tile then n.cluster else 0, 25, 20), (n.die, 19, 0)]

/-- The entities of the tray in a data frame, in index order. -/
def CtxView.entities (v : CtxView) (tile : Bool) : List Entity :=
  if !tile then v.tray.map (fun m => { tile := false, die := m.die, cluster := 0 })
  else v.tray.flatMap (fun m =>
    ((List.range 64).filter (fun c => decide (bits v.plans.pod.mask c c = 1) && v.expects m.die c)).map (fun c =>
      { tile := true, die := m.die, cluster := c }))

/-- The plan of a kind, and its sequence number. -/
def CtxView.featPlan (v : CtxView) (tile : Bool) : List (List W) := if tile then v.plans.tile else v.plans.die
def CtxView.featSeq (v : CtxView) (tile : Bool) : Nat := if tile then v.plans.tileSeq else v.plans.dieSeq

/-! ### Encodings (R242). -/

/-- An operand: missing, a raw NaN, or a number. -/
inductive Opnd
  | missing
  | raw
  | num (x : Flt)
  deriving DecidableEq, Repr

def missingWord (fmt : Nat) : W := if fmt = 1 then 0x80000000 else 0xFFFFFFFF

/-- An encoded value read in its format. -/
def readAs (fmt : Nat) (w : W) : Opnd :=
  if w = missingWord fmt then .missing
  else match fmt with
    | 0 => if isNaN32 w then .raw else .num (of32 w)
    | 1 => .num (Flt.ofInt fmt64 (ofTwos 32 w.toNat))
    | _ => .num (Flt.ofInt fmt64 w.toNat)

/-- A whole number clamped to the range of its format. -/
def clampWord (fmt : Nat) (x : Flt) : W :=
  let lo : Int := if fmt = 1 then -(2 ^ 31) + 1 else 0
  let hi : Int := if fmt = 1 then 2 ^ 31 - 1 else 2 ^ 32 - 2
  let v := match x.nearest with
    | some i => clampInt lo hi i
    | none => if x.isNeg then lo else hi
  w32 (toTwos 32 v)

/-! ### Descriptors (R243 to R247). -/

def dEnable (d : List W) : Bool := bit (word d 0) 31
def dOp (d : List W) : Nat := wf d 0 30 27
def dFmt (d : List W) : Nat := wf d 0 26 25
def dA (d : List W) : W := word d 1
def dB (d : List W) : W := word d 2
def dC (d : List W) : W := word d 3

def oSrc (o : W) : Nat := fld o 31 28
def oField (o : W) : Nat := fld o 27 24
def oHist (o : W) : Nat := fld o 23 20
def oBin (o : W) : Nat := fld o 19 16
def oIndex (o : W) : Nat := fld o 11 0

/-- Operations of two operands. -/
def opTwo (op : Nat) : Bool := decide (1 ≤ op ∧ op ≤ 4) || decide (7 ≤ op ∧ op ≤ 9)

/-- The operand words that a descriptor uses. -/
def dOperands (d : List W) : List W := if !dEnable d then [] else if opTwo (dOp d) then [dA d, dB d] else [dA d]

/-- A column that takes EXTERNAL values (R253). -/
def dExternal (d : List W) : Bool := dEnable d && decide (oSrc (dA d) = 7)

/-! ### Sources (R245, R246, R249). -/

/-- The cell of a LOCAL or FLEET operand. -/
def Entity.cell (n : Entity) (o : W) : Nat := if n.tile then 64 * n.cluster + oIndex o % 64 else oIndex o

/-- The Pod a FLEET operand reads. -/
def Entity.pod (n : Entity) (o : W) : Nat := if oField o = 6 then 64 + oHist o else n.cell o / 64

/-- The final of a Pod's first run, when it arrived in time for the rows (R251). -/
def FrameWork.final (w : FrameWork) (i : Nat) : Option PodRec := (w.pod? i 0).bind (fun p => if p.finalLate then none else p.final)

/-- The contribution of an entity's die in a cluster, when present. -/
def FrameWork.present (w : FrameWork) (die c : Nat) : Option Contribution := (w.inputOf die c).2

/-- A LOCAL operand. `dom` names the observed domain of a cell of a die. -/
def FrameWork.localOpnd (w : FrameWork) (dom : Nat → Nat → Nat) (n : Entity) (o : W) : Opnd :=
  let cell := n.cell o
  let kind := w.view.plans.pod.kindOf cell
  match w.present n.die (cell / 64) with
  | none => .missing
  | some x =>
    if cFenced x.words ∨ kind = 0 ∨ bits (cSat x.words) (cell % 64) (cell % 64) = 1 ∨ bits (cDoms x.words) (dom n.die cell) (dom n.die cell) = 1 then
      .missing
    else .num (Flt.ofInt fmt64 (cField kind x.words (cell % 64) (oField o)))

/-- A FLEET operand. -/
def FrameWork.fleetOpnd (w : FrameWork) (n : Entity) (o : W) : Opnd :=
  let cell := n.cell o
  let p := w.view.plans.pod
  let kind := p.kindOf cell
  let i := cell % 64
  match w.final (n.pod o) with
  | none => .missing
  | some r =>
    let int (x : Int) : Opnd := .num (Flt.ofInt fmt64 x)
    let ext := r.sec.ext.getD i 0
    let typed (x : Nat) : Int := if kind = 3 then ofTwos 16 x else (x % 65536 : Nat)
    let element : Opnd := match r.sec.blocks[i / 16]? with
      | none => .missing
      | some b =>
        let m := b.m.getD (i % 16) 0
        if b.ovf ∨ b.exp = 0 then .missing else .num (.fin (decide (m < 0)) m.natAbs ((b.exp : Int) - 23))
    if oField o = 6 then int (r.sec.hist.getD (oBin o) 0)
    else if kind = 0 then .missing
    else match oField o with
      | 0 => if kind = 1 then int (r.sec.sum.getD i 0) else element
      | 1 => if kind = 1 then int ext else int (typed (ext / 65536))
      | 2 => int (typed ext)
      | 3 => element
      | 4 => int r.present
      | _ => int r.expected

/-- The clusters whose contributions speak for an entity. -/
def FrameWork.entityClusters (w : FrameWork) (n : Entity) : List Nat :=
  if n.tile then [n.cluster] else (List.range 64).filter (fun c => w.view.expects n.die c)

/-- An EVIDENCE operand: `run` is the die's absence run. -/
def FrameWork.evidenceOpnd (w : FrameWork) (run : Nat) (n : Entity) (code : Nat) : Opnd :=
  let int (x : Int) : Opnd := .num (Flt.ofInt fmt64 x)
  let ev := w.evidence.find? (fun e => e.die == n.die)
  let get (f : DieEvidence → Nat) : Opnd := int ((ev.map f).getD 0)
  let mine := w.contribs.filter (fun x => x.die == n.die && x.taken == .present && !x.standIn)
  let here := mine.filter (fun x => (w.entityClusters n).contains x.cluster)
  let latest := here.foldl (fun (a : Option Contribution) x => match a with
    | some y => if y.arrival ≤ x.arrival then some x else a
    | none => some x) none
  match code with
  | 0 => int (b2n (w.causesOf n.die != 0))
  | 1 => int (if w.causesOf n.die = 0 then 0 else run)
  | 2 => get (·.matched)
  | 3 => get (·.mismatch)
  | 4 => get (·.invalid)
  | 5 => get (·.unchecked)
  | 6 => match ev.bind (·.tMax) with
    | some t => int t
    | none => .missing
  | 7 => get (·.faults)
  | 8 => int ((mine.map (fun x => cFlagLo x.words)).sum : Nat)
  | 9 => int ((mine.map (fun x => cFlagHi x.words)).sum : Nat)
  | 10 => match latest with
    | some x => int x.arrival
    | none => .missing
  | 11 => int (b2n (here.any (fun x => cIncomplete x.words)))
  | _ => match mine.getLast? with
    | some x => int (cAge x.words)
    | none => .missing

/-- What evaluating rows needs beside the work: cell domains, absence runs, the previous row of an entity, and whether FLEET
results may be used (R420). -/
structure FeatEnv where
  dom : Nat → Nat → Nat
  run : Nat → Nat
  prev : Bool → W → Option FeatRow
  fleet : Bool

/-- One operand of descriptor i of an entity's row; `done` holds the features before it. -/
def FrameWork.operand (w : FrameWork) (v : FeatEnv) (plan : List (List W)) (n : Entity) (done : List W) (i : Nat) (d : List W)
    (o : W) : Opnd :=
  let fmtOf (j : Nat) : Nat := dFmt (plan.getD j [])
  match oSrc o with
  | 1 => w.localOpnd v.dom n o
  | 2 => if v.fleet then w.fleetOpnd n o else .missing
  | 3 => w.evidenceOpnd (v.run n.die) n (oIndex o)
  | 4 => readAs (fmtOf (oIndex o)) (done.getD (oIndex o) 0)
  | 5 => match v.prev n.tile n.key with
    | some r => if r.valid ∧ r.planSeq = w.view.featSeq n.tile then readAs (fmtOf (oIndex o)) (r.values.getD (oIndex o) 0) else .missing
    | none => .missing
  | 6 => .num (of32 (dC d))
  | 7 => match w.external.find? (fun (x : W × Nat × W) => x.1 == n.key && x.2.1 == i) with
    | some x => readAs (dFmt d) x.2.2
    | none => .missing
  | _ => .missing

/-! ### Operations (R247 to R249). -/

/-- The operation on two numbers (one of them unused by one-operand operations): none where it is missing by R247. -/
def featOp (op : Nat) (a b c : Flt) : Option Flt :=
  match op with
  | 0 => some a
  | 1 => some (Flt.add fmt64 a b)
  | 2 => some (Flt.sub fmt64 a b)
  | 3 => some (Flt.mul fmt64 a b)
  | 4 => if b.isZero then none else some (Flt.div fmt64 a b)
  | 5 => if Flt.lt .zero a then some a.log2 else none
  | 6 => some (Flt.mul fmt64 a c)
  | 7 => some (if Flt.lt b a then b else a)
  | 8 => some (if Flt.lt a b then b else a)
  | _ => some (Flt.sub fmt64 a b).abs

/-- A feature: its word, and whether it counts in nan_to_int or in arith_missing. -/
def featValue (d : List W) (ops : List Opnd) : W × Nat × Nat :=
  let fmt := dFmt d
  let lost : W := missingWord fmt
  if !dEnable d ∨ ops.contains .missing then (lost, 0, 0)
  else if ops.contains .raw then (if fmt = 0 then (0x7FC00000, 0, 0) else (lost, 1, 0))
  else
    let get (i : Nat) : Flt := match ops[i]? with
      | some (.num x) => x
      | _ => .zero
    match featOp (dOp d) (get 0) (get 1) (of32 (dC d)) with
    | none => (lost, 0, 0)
    | some .nan => (lost, 0, 1)
    | some x => (if fmt = 0 then round32 x else clampWord fmt x, 0, 0)

/-- The features of an entity's row, in descriptor order, each with its counts of R249. -/
def FrameWork.rowFeatures (w : FrameWork) (v : FeatEnv) (plan : List (List W)) (n : Entity) : List (W × Nat × Nat) :=
  ((List.range plan.length).zip plan).foldl (fun (acc : List (W × Nat × Nat)) (p : Nat × List W) =>
    acc ++ [featValue p.2 ((dOperands p.2).map (w.operand v plan n (acc.map Prod.fst) p.1 p.2))]) []

/-- The values of a row, and what it counts in nan_to_int and in arith_missing (R249). -/
def FrameWork.rowValues (w : FrameWork) (v : FeatEnv) (plan : List (List W)) (n : Entity) : List W × Nat × Nat :=
  let fs := w.rowFeatures v plan n
  (fs.map Prod.fst, (fs.map (·.2.1)).sum, (fs.map (·.2.2)).sum)

/-! ### Rows (R241, R251). -/

/-- The operands of a source that a plan uses. -/
def planOperands (plan : List (List W)) (src : Nat) : List W := (plan.flatMap dOperands).filter (fun o => oSrc o == src)

/-- The clusters a row reads by LOCAL operands. -/
def localClusters (plan : List (List W)) (n : Entity) : List Nat := ((planOperands plan 1).map (fun o => n.cell o / 64)).eraseDups

/-- The Pods a row reads. -/
def fleetPods (plan : List (List W)) (n : Entity) : List Nat := ((planOperands plan 2).map n.pod).eraseDups

/-- LOCAL and EVIDENCE are available (R251). -/
def FrameWork.localReady (w : FrameWork) (plan : List (List W)) (n : Entity) : Bool :=
  ((planOperands plan 1).isEmpty && (planOperands plan 3).isEmpty) || w.closed ||
    (List.range 64).all (fun c => !w.view.expects n.die c || (w.present n.die c).isSome)

/-- The row of an entity. -/
def FrameWork.makeRow (w : FrameWork) (v : FeatEnv) (plan : List (List W)) (n : Entity) (index : Nat) : FeatRow × Nat × Nat :=
  let r := w.rowValues v plan n
  let used := localClusters plan n
  let there := used.filterMap (w.present n.die)
  ({ tile := n.tile, entity := index, key := n.key, frame := w.frame, valid := true
     absent := used.any (fun c => (w.present n.die c).isNone), incomplete := there.any (fun x => cIncomplete x.words)
     fenced := there.any (fun x => cFenced x.words), frost := there.any (fun x => cFrost x.words)
     fleetLate := !v.fleet || (fleetPods plan n).any (fun i => (w.final i).isNone), planSeq := w.view.featSeq n.tile
     values := r.1, taken := false }, r.2)

/-- The 16-byte header and the values of a row (R241). -/
def FeatRow.words (r : FeatRow) (plan : List (List W)) : List W :=
  let lost := ((List.range r.values.length).zip r.values).countP (fun (p : Nat × W) => p.2 == missingWord (dFmt (plan.getD p.1 [])))
  [r.key, w32 r.frame, pack [(b2n r.valid, 31, 31), (b2n r.absent, 30, 30), (b2n r.incomplete, 29, 29), (b2n r.fenced, 28, 28),
    (b2n r.frost, 27, 27), (b2n r.fleetLate, 26, 26), (lost, 12, 0)], pack [(r.planSeq, 31, 16), (r.values.length, 15, 0)]] ++ r.values

/-- A row of a work. -/
def FrameWork.row? (w : FrameWork) (tile : Bool) (key : W) : Option FeatRow := w.rows.find? (fun r => r.tile == tile && r.key == key)

/-- The absence run of a die as the replayed frames show it (R420). -/
def Za.replayRun (z : Za) (e : Nat) (w : FrameWork) (die : Nat) : Nat :=
  let absent (i : Nat) : Bool := z.works.any (fun x =>
    x.entry == e && x.begun == 0 && decide (x.frame + i = w.frame) && x.causesOf die != 0)
  ((List.range 64).takeWhile absent).length

/-- The environment of a work; that of a replayed frame has `begun` 0 and no FLEET results (R420). -/
def Za.featEnv (z : Za) (dom : Nat → Nat → Nat) (e : Nat) (w : FrameWork) : FeatEnv :=
  let before := (z.works.filter (fun x => x.entry == e &&
    (if w.begun = 0 then decide (x.begun = 0 ∧ x.frame + 1 = w.frame) else decide (x.begun + 1 = w.begun)))).getLast?
  { dom, run := fun die => if w.begun = 0 then z.replayRun e w die else ((z.die? die).bind (fun d => aGet d.absences e)).elim 0 Prod.fst
    prev := fun tile key => before.bind (fun x => x.row? tile key), fleet := w.begun != 0 }

/-- FEATURE_ROW: the row of one entity is written once its sources are available. -/
def Za.featureRow (z : Za) (dom : Nat → Nat → Nat) (e : Nat) (tile : Bool) (index : Nat) : Za :=
  match z.work e with
  | none => z
  | some w =>
    let plan := w.view.featPlan tile
    match (w.view.entities tile)[index]? with
    | none => z
    | some n =>
      let finals := w.begun == 0 || (fleetPods plan n).all (fun i => (w.final i).isSome)
      if plan.isEmpty ∨ (w.row? tile n.key).isSome ∨ !z.enginesRun ∨ !w.localReady plan n ∨ !(finals || z.dueAt 1000000) then z
      else
        let z := if finals then z else z.untilNs 1000000
        let r := w.makeRow (z.featEnv dom e w) plan n index
        let z := z.modWork e w.frame (fun x => { x with rows := x.rows ++ [r.1] })
        ((z.count (.ens .rowsWritten e)).count (.ens .nanToInt e) r.2.1).count (.ens .arithMissing e) r.2.2

/-- The observed domain of a cell as the tray knows it: our own DTU's by its build, another's not by this spec. -/
def State.cellDom (s : State) (die n : Nat) : Nat :=
  if die = s.dtu.dieId then
    match s.za.die? die with
    | some d => (s.dtu.build.cellDomain n (cellWord d.cfg n)).getD 0
    | none => 0
  else Config.obsDomain die n % 16

def execFeatureRow (entry : Fin 1024) (tile : Bool) (entity : Nat) (s : State) : Answer :=
  .next (s.onZa (fun z => z.featureRow s.cellDom entry.val tile entity))

/-! ### EXTERNAL columns (R253, R290). -/

/-- Values for EXTERNAL columns of one entity's row: those of a row already taken are discarded and counted. A row already written
takes the new values where they, or features computed from them, stand, and counts what becomes missing so (R249). -/
def Za.writeExternal (z : Za) (dom : Nat → Nat → Nat) (e f : Nat) (key : W) (first : Nat) (ws : List W) : Za :=
  match z.work? e f with
  | none => z
  | some w =>
    let tile := bit key 26
    let plan := w.view.featPlan tile
    if (w.row? tile key).any (·.taken) then z.count (.ens .extLate e)
    else
      let new := (List.range ws.length).map (fun i => (key, first + i, ws.getD i 0))
      let kept := w.external.filter (fun (x : W × Nat × W) => !(x.1 == key && decide (first ≤ x.2.1 ∧ x.2.1 < first + ws.length)))
      let w' : FrameWork := { w with external := kept ++ new }
      let z := z.modWork e f (fun x => { x with external := w'.external })
      match w.row? tile key, (w.view.entities tile).find? (fun n => n.key == key) with
      | some _, some n =>
        let pairs := (w.rowFeatures (z.featEnv dom e w) plan n).zip (w'.rowFeatures (z.featEnv dom e w') plan n)
        let z := z.modWork e f (fun y => { y with
          rows := modWhere y.rows (fun q => q.tile == tile && q.key == key) (fun q => { q with values := pairs.map (·.2.1) }) })
        (z.count (.ens .nanToInt e) (pairs.map (fun p => p.2.2.1 - p.1.2.1)).sum).count (.ens .arithMissing e)
          (pairs.map (fun p => p.2.2.2 - p.1.2.2)).sum
      | _, _ => z

/-- Values for a data frame whose work has not begun wait for it; of two for a column the later stands. -/
def Za.keepExternal (z : Za) (c : Ctx) (f : Nat) (key : W) (first : Nat) (ws : List W) : Za :=
  let mine (x : ExtValue) : Bool := x.ctx == c.id && x.gen == c.gen && x.frame == f && x.key == key &&
    decide (first ≤ x.column ∧ x.column < first + ws.length)
  let new := (List.range ws.length).map (fun i =>
    ({ ctx := c.id, gen := c.gen, frame := f, key, column := first + i, value := ws.getD i 0 } : ExtValue))
  { z with externals := z.externals.filter (fun x => !mine x) ++ new }

/-- FEAT_WRITE (R253). A write for a frame whose work is over is late; one for a frame whose work has not begun is kept for it. -/
def Za.featWrite (z : Za) (dom : Nat → Nat → Nat) (h : HuskCmd) : ZaBody :=
  z.withCtx h (fun e c =>
    let f := z.frameOf (huskP0 h)
    let first := bits (huskP1 h) 31 16
    let n := bits (huskP1 h) 15 0
    let key := word (huskPay h) 0
    let tile := bit key 26
    let plan := match z.work? e f, c.views.find? (fun v => v.frame == f) with
      | some w, _ => w.view.featPlan tile
      | none, some v => v.featPlan tile
      | none, none => if tile then c.plans.tile else c.plans.die
    let bad := (List.range n).any (fun i => !dExternal (plan.getD (first + i) []))
    if n = 0 ∨ 64 < n ∨ bad then z.refuse badP1
    else if !tile ∧ fld key 25 20 ≠ 0 then z.refuse (badPay h 0)
    else if (z.work? e f).isNone then
      (if z.frameNow ≤ f then z.keepExternal c f key first ((huskPay h).drop 1) else z.count (.ens .extLate e)).ok
    else (z.writeExternal dom e f key first ((huskPay h).drop 1)).ok)

/-! ### Feature plans (R250, R383). -/

/-- An operand word obeys R244, R245 and R250 for descriptor i of a plan. FLEET field 1 of a counting cell, which R245 gives a value,
is refused as R250 says (log 209). -/
def operandForm (pod : PodPlan) (tile : Bool) (i : Nat) (o : W) (second : Bool) : Bool :=
  let index := oIndex o
  let field := oField o
  let plain := decide (oHist o = 0 ∧ oBin o = 0)
  let counting (n : Nat) : Bool := pod.kindOf n == 1
  let inTile := !tile || decide (index < 64)
  -- a tile plan names a cell of every cluster alike: it is counting when some cluster's cell is
  let isCounting_ := if tile then (List.range 64).any (fun c => counting (64 * c + index)) else counting index
  decide (fld o 15 12 = 0) &&
  match oSrc o with
  | 0 => second && o == 0
  | 1 => plain && decide (field ≤ 2) && inTile && !(decide (1 ≤ field) && isCounting_)
  | 2 =>
    if field = 6 then decide (index = 0) && histEnabled (pod.hists.getD (oHist o) [])
    else plain && decide (field ≤ 5) && inTile && !(decide (1 ≤ field ∧ field ≤ 3) && isCounting_)
  | 3 => plain && decide (field = 0 ∧ index ≤ 12)
  | 4 => plain && decide (field = 0 ∧ index < i)
  | 5 => plain && decide (field = 0)
  | 6 => plain && decide (field = 0 ∧ index = 0)
  | 7 => plain && decide (field = 0 ∧ index = 0)
  | _ => false

/-- A descriptor obeys R250. -/
def descForm (pod : PodPlan) (tile : Bool) (i : Nat) (d : List W) : Bool :=
  decide (dOp d ≤ 9 ∧ wf d 0 24 0 = 0) && operandForm pod tile i (dA d) false &&
    (if opTwo (dOp d) then oSrc (dB d) != 0 && operandForm pod tile i (dB d) true else dB d == 0) &&
    !isNaN32 (dC d)

/-- The first descriptor of a plan that R250 refuses. -/
def featPlanFault (pod : PodPlan) (tile : Bool) (plan : List (List W)) : Option Nat :=
  if 4096 < plan.length then some 4096
  else (List.range plan.length).find? (fun i => !descForm pod tile i (plan.getD i []))

/-- The words of a plan as descriptors. -/
def descsOf (n : Nat) (ws : List W) : List (List W) := (List.range (ws.length / n)).map (fun i => (ws.drop (n * i)).take n)

/-- The first section of an image that a feature plan of a kind breaks: an ensemble by R256, a program by R287 (section, place,
ensemble). -/
def imagePlanFault (img : List W) (tile : Bool) (plan : List (List W)) : Option (Nat × Nat × Bool) :=
  ((List.range (sectsOf img).length).findSome? (fun i =>
    let s := sectAt img i
    let w := sectWords img i
    if s.kind = 1 ∧ ensKind w = b2n tile then (ensPlanFault w plan).map (fun k => (i, k, true))
    else if s.kind = 3 ∧ prgKind w = b2n tile then
      (prgFault img w plan.length (fun c => dExternal (plan.getD c []))).map (fun k => (i, k, false))
    else none))

/-- FEAT_PLAN (R250, R256, R383). A part that announces more than 4,096 descriptors is refused at once (log 208). -/
def Za.featPlan (z : Za) (h : HuskCmd) (handle : W) : ZaBody :=
  z.withCtx h (fun e c =>
    let p1 := huskP1 h
    let last := decide (bits p1 31 31 = 1)
    let tile := decide (bits p1 30 30 = 1)
    let first := bits p1 27 16
    let total := bits p1 12 0
    let f := z.frameOf (huskP0 h)
    let rest := c.staging.filter (fun s => s.tile != tile)
    let before := c.staging.find? (fun s => s.tile == tile)
    let held : Option (List W) :=
      if first = 0 then some []
      else before.bind (fun s => if s.front = f ∧ s.total = total ∧ s.words.length = 4 * first then some s.words else none)
    let drop := z.modCtx e (fun x => { x with staging := rest })
    match held with
    | none => drop.refuse badP1
    | some ws =>
      let all := ws ++ huskPay h
      if 4096 < total then drop.refuse (failValue stFeatPlan 4096)
      else if 4 * total < all.length ∨ (last ∧ all.length ≠ 4 * total) then drop.refuse badP1
      else if !last then
        (z.modCtx e (fun x => { x with staging := rest ++ [{ tile, front := f, total, words := all, at_ := z.time.begun }] })).ok
      else
        let plan := descsOf 4 all
        let bad := (z.areasOf e).findSome? (fun a => imagePlanFault a.image tile plan)
        match featPlanFault (c.podAt f) tile plan, bad with
        | some i, _ => drop.refuse (failValue stFeatPlan i)
        | none, some b => drop.refuse { status := stFeatFormat, detail := b.1, result0 := b.2.1, payload := [], trunc := false }
        | none, none =>
          let r := drop.acceptPlan e c (if tile then .tile else .die) f all handle
          r)

/-- FEAT_PLAN_STAGING_EXPIRY (R383): 64 frames after its last part. -/
def Za.stagingExpiry (z : Za) (e : Nat) (tile : Bool) : Za :=
  z.modCtx e (fun c => { c with staging := c.staging.filter (fun s => !(s.tile == tile && decide (s.at_ + 64 ≤ z.time.begun))) })

def execFeatPlanStagingExpiry (entry : Fin 1024) (tile : Bool) (s : State) : Answer :=
  .next (s.onZa (fun z => z.stagingExpiry entry.val tile))

end Sys2Proof.Machine
end

