-- ==== Sys2Proof/Machine/Ensembles.lean ====
section
/-!
DEFINITION. The Ensemble Engine: the sections a frame is scored with, walks on lanes, checks and arbitration, summation and the
release of scores (R254 to R271, R289 to R291, R310).
-/
namespace Sys2Proof.Machine

/-! ### The sections of a data frame (R280, R282, R301). -/

/-- A section of a pinned image. -/
structure Sec where
  slot : Nat
  idx : Nat
  kind : Nat                       -- 1 ENSEMBLE; 3 PROGRAM
  direct : Bool
  words : List W
  img : List W
  version : Nat
  spilled : Bool
  deriving DecidableEq, Repr

def Sec.score (s : Sec) : Nat := 16 * s.slot + s.idx
def Sec.tile (s : Sec) : Bool := if s.kind = 1 then ensKind s.words == 1 else prgKind s.words == 1
def Sec.outs (s : Sec) : Nat := if s.kind = 1 then ensOuts s.words else prgOuts s.words

/-- The area of a slot that holds a version and may be scored with; an expelled one still for the frames pinned before (R310). -/
def Za.areaOf (z : Za) (e slot : Nat) (id : W) (version : Nat) : Option ModelArea :=
  (z.slot? e slot).bind (fun m => m.areas.find? (fun a =>
    a.modelId == id && a.version == version && (a.state == .current || a.state == .ready || a.state == .retiring || a.state == .expelled)))

/-- The ENSEMBLE and PROGRAM sections of an area. -/
def ModelArea.secs (a : ModelArea) (slot : Nat) : List Sec :=
  ((sectsOf a.image).filter (fun s => s.kind != 2)).map (fun s =>
    { slot, idx := s.idx, kind := s.kind, direct := s.direct, words := s.words a.image, img := a.image, version := a.version,
      spilled := a.spilled.contains s.idx })

/-- The sections that a work is scored with: those of its pins. -/
def Za.secs (z : Za) (w : FrameWork) : List Sec :=
  (w.view.pins.filter (fun (p : Nat × W × Nat × Bool) => p.2.2.2)).flatMap (fun p =>
    match z.areaOf w.entry p.1 p.2.1 p.2.2.1 with
    | some a => a.secs p.1
    | none => [])

/-- The ensemble sections that a program calls. -/
def Sec.calls (s : Sec) : List Nat := ((prgAll s.words).filter (fun o => o.code == 0x0C)).map (·.sect)

/-- The ensembles that are walked for every row: direct ones, and those that a direct POST program calls (R291). -/
def walked (ss : List Sec) : List Sec :=
  ss.filter (fun s => s.kind == 1 && (s.direct ||
    ss.any (fun p => p.kind == 3 && p.direct && p.slot == s.slot && p.calls.contains s.idx)))

/-- Direct programs of a phase. -/
def programs (ss : List Sec) (pre : Bool) : List Sec := ss.filter (fun s => s.kind == 3 && s.direct && prgPre s.words == pre)

/-! ### Walks (R259 to R262). -/

/-- How a walk ended: leaf node, its value, and what was counted. -/
structure Walk where
  leaf : Nat
  value : W
  visits : Nat
  miss : Nat
  nan : Nat
  cat : Nat
  deriving DecidableEq, Repr

/-- The side a split takes: left, and whether the value was missing, a raw NaN, or a category out of range. -/
def splitSide (n : List W) (x : W) : Bool × Bool × Bool × Bool :=
  let fmt := nodeFmt n
  let missRight := bit (word n 0) 29
  if x = missingWord fmt then (!missRight, true, false, false)
  else if nodeType n = 1 then
    let v := x.toNat
    if 64 ≤ v then (false, false, false, true)
    else (decide (bits ((word n 1).toNat * 2 ^ 32 + (word n 3).toNat) v v = 1), false, false, false)
  else match fmt with
    | 0 => if isNaN32 x then (false, false, true, false) else (Flt.lt (of32 x) (of32 (word n 1)), false, false, false)
    | 1 => (decide (ofTwos 32 x.toNat < ofTwos 32 (word n 1).toNat), false, false, false)
    | _ => (decide (x.toNat < (word n 1).toNat), false, false, false)

/-- The walk from a node: at most `fuel` splits. -/
def walkFrom (ens row : List W) : Nat → Nat → Walk
  | 0, i => { leaf := i, value := word (ensNode ens i) 1, visits := 1, miss := 0, nan := 0, cat := 0 }
  | n + 1, i =>
    let nd := ensNode ens i
    if nodeType nd = 2 then { leaf := i, value := word nd 1, visits := 1, miss := 0, nan := 0, cat := 0 }
    else
      let s := splitSide nd (word row (nodeFeature nd))
      let r := walkFrom ens row n (if s.1 then nodeLeft nd else nodeLeft nd + 1)
      { r with visits := r.visits + 1, miss := r.miss + b2n s.2.1, nan := r.nan + b2n s.2.2.1, cat := r.cat + b2n s.2.2.2 }

/-- The walk of a tree over a row. -/
def walkTree (ens row : List W) (t : Nat) : Walk := walkFrom ens row (ensDepth ens) (ensRoot ens t)

/-- The leaf beside the one that a walk reaches: none when the root is the leaf. -/
def siblingLeaf (ens row : List W) : Nat → Nat → Option Nat
  | 0, _ => none
  | n + 1, i =>
    let nd := ensNode ens i
    if nodeType nd = 2 then none
    else
      let left := (splitSide nd (word row (nodeFeature nd))).1
      let next := if left then nodeLeft nd else nodeLeft nd + 1
      let other := if left then nodeLeft nd + 1 else nodeLeft nd
      match siblingLeaf ens row n next with
      | some x => some x
      | none => some (walkFrom ens row n other).leaf

/-- A walk whose lane reached another leaf. -/
def Walk.upset (w : Walk) (ens : List W) (leaf : Option Nat) : Walk :=
  match leaf with
  | some i => { w with leaf := i, value := word (ensNode ens i) 1 }
  | none => w

/-! ### Sums and links (R264, R265). -/

/-- The raw sum of an output: base, then the leaf values of its trees in ascending tree index. -/
def rawSum (ens : List W) (leafOf : Nat → W) (o : Nat) : Flt :=
  ((List.range (ensTrees ens)).filter (fun t => ensOutOf ens t == o)).foldl (fun s t => Flt.add fmt64 s (of32 (leafOf t)))
    (of32 (ensBase ens o))

/-- The outputs after the link function. -/
def linkOuts (ens : List W) (sums : List Flt) : List W :=
  let one := Flt.ofInt fmt64 1
  match ensLink ens with
  | 1 => sums.map (fun s => round32 s.logistic64)
  | 2 =>
    let top := sums.foldl (fun m s => if Flt.lt m s then s else m) (sums.headD .zero)
    let es := sums.map (fun s => (Flt.sub fmt64 s top).exp64)
    let total := (es.drop 1).foldl (Flt.add fmt64) (es.headD one)
    es.map (fun x => round32 (Flt.div fmt64 x total))
  | 3 => sums.map (fun s => round32 s.exp64)
  | 4 => ((List.range sums.length).zip sums).map (fun (p : Nat × Flt) =>
      let base := of32 (ensBase ens p.1)
      let n := (List.range (ensTrees ens)).countP (fun t => ensOutOf ens t == p.1)
      round32 (Flt.add fmt64 base (Flt.div fmt64 (Flt.sub fmt64 p.2 base) (Flt.ofInt fmt64 n))))
  | _ => sums.map round32

/-- The outputs of an ensemble from its leaf values. -/
def ensOutputs (ens : List W) (leafOf : Nat → W) : List W := linkOuts ens ((List.range (ensOuts ens)).map (rawSum ens leafOf))

/-- An ensemble over a row on the scalar path, with its counts (R305). -/
def scoreRow (ens row : List W) : List W × Nat × Nat :=
  let ws := (List.range (ensTrees ens)).map (walkTree ens row)
  (ensOutputs ens (fun t => ((ws.map (·.value))[t]?).getD 0), (ws.map (·.miss)).sum, (ws.map (·.nan)).sum)

/-! ### Score records (R266, R294). -/

/-- A record with no outputs: zeros unless its status is 0, 1 or 5. -/
def Score.words (s : Score) : List W :=
  let shown := s.status == 0 || s.status == 1 || s.status == 5
  [s.key, w32 s.frame, pack [(s.index, 31, 24), (s.out.length - 1, 23, 20), (s.status, 19, 16), (s.version, 15, 0)],
    pack [(b2n s.unchecked, 31, 31), (min s.miss 0x7FFF, 30, 16), (min s.nan 0xFFFF, 15, 0)]] ++
    (if shown then s.out else s.out.map (fun _ => 0))

/-! ### Items on lanes (R262, R263, R267). -/

/-- The work of a context whose scores are being made: the running one, or else the latest left open. -/
def Za.scoring (z : Za) (e : Nat) : Option FrameWork :=
  match z.work e with
  | some w => if w.scored then ((z.works.filter (fun x => x.entry == e && x.abandoned && !x.scored && x.begun != 0)).getLast?) else some w
  | none => (z.works.filter (fun x => x.entry == e && x.abandoned && !x.scored && x.begun != 0)).getLast?

/-- PRE programs of a kind have completed on an entity's row (R290). -/
def FrameWork.preDoneOn (w : FrameWork) (ss : List Sec) (tile : Bool) (entity : Nat) : Bool :=
  (programs ss true).all (fun s => s.tile != tile || w.preDone.contains (s.score, entity / 64))

/-- An item of a frame is checked while two quadrants are left (R267, R270). -/
def Za.checkDue (z : Za) (w : FrameWork) (s : Sec) (entity tree : Nat) : Bool :=
  decide ((entity * ensTrees s.words + tree) % z.checkEvery = w.frame % z.checkEvery) && decide (2 ≤ z.quadrantsLeft)

/-- The checker lane for a primary lane: the unfenced one of the next unfenced quadrant, from the same place on (log entry 91). -/
def Za.checkerFor (z : Za) (lane : Nat) : Option Nat :=
  (z.nextQuad (lane / 1024)).bind (fun q =>
    ((List.range 1024).map (fun i => 1024 * q + (lane + i) % 1024)).find? z.laneLive)

/-- The item of a walk. -/
def FrameWork.item? (w : FrameWork) (score entity tree : Nat) : Option ItemDone :=
  w.items.find? (fun x => x.score == score && x.entity == entity && x.tree == tree)

def FrameWork.modItem (w : FrameWork) (x : ItemDone) (f : ItemDone → ItemDone) : FrameWork :=
  { w with items := modWhere w.items (fun y => y.score == x.score && y.entity == x.entity && y.tree == x.tree) f }

/-- An entity's status for an ensemble set apart (R268, R269). -/
def FrameWork.mark (w : FrameWork) (score entity status : Nat) : FrameWork :=
  { w with marked := w.marked.filter (fun m => !(m.score == score && m.entity == entity)) ++ [{ score, entity, status }] }

/-- A lane under injection returns the sibling leaf on a checked walk (R447), which spends one use. -/
def Za.laneUpset (z : Za) (lane : Nat) (s : Sec) (row : List W) (tree : Nat) (u : Option Nat) : Za × Option Nat :=
  match z.injectionAt 0x02 lane with
  | some i => (z.spend i, siblingLeaf s.words row (ensDepth s.words) (ensRoot s.words tree))
  | none => (z, u)

/-- The disagreements of a frame that the arbitration queue has taken, of all contexts (R269). -/
def Za.disputesOf (z : Za) (w : FrameWork) : Nat := ((z.works.filter (fun x => x.begun == w.begun)).map (·.disputesMade)).sum

/-- The second walk of a checked item, and what its outcome leads to (R267, R269). -/
def Za.checkItem (z : Za) (e : Nat) (c : Ctx) (w : FrameWork) (s : Sec) (x : ItemDone) (sound : Walk) (u : WalkUpset) : Za :=
  match z.checkerFor x.lane with
  | none => z
  | some l =>
    let row := ((w.rows.find? (fun r => r.tile == s.tile && r.entity == x.entity)).map (·.values)).getD []
    let p := z.laneUpset l s row x.tree u.checker
    let z := p.1
    let k := sound.upset s.words p.2
    let z := (z.count (.ens .checks e)).count (if s.spilled then .ens .visitsSpilled e else .ens .visits e) k.visits
    let z := z.modWork e w.frame (fun y => y.modItem x (fun i => { i with checkLane := some l }))
    if k.leaf = x.leaf ∧ k.value = x.value ∧ k.miss = x.miss ∧ k.nan = x.nan then
      { z with fences := { z.fences with lanePass := aPut (aPut z.fences.lanePass x.lane w.frame) l w.frame } }
    else
      let z := z.count (.ens .disagreements e)
      if z.disputesOf w < 16 then
        let d : Dispute :=
          { score := x.score, entity := x.entity, tree := x.tree, lane := x.lane, checkLane := l, leaf := x.leaf,
            checkLeaf := k.leaf, refLeaf := (sound.upset s.words u.reference).leaf }
        z.modWork e w.frame (fun y => { y with disputes := y.disputes ++ [d], disputesMade := y.disputesMade + 1 })
      else
        let z := (z.modWork e w.frame (fun y => y.mark x.score x.entity 4)).count (.ens .backlog e)
        if z.fences.backlogSaid.contains w.begun then z
        else
          let z := z.raiseCtx .ensBacklog .context e .none c 0 0
          { z with fences := { z.fences with backlogSaid := z.fences.backlogSaid ++ [w.begun] } }

/-- ENSEMBLE_ITEM: one walk on a lane, and its check where one is due. An item walked whose check is still owed is checked. -/
def Za.ensembleItem (z : Za) (e score entity tree lane : Nat) (u : WalkUpset) : Za :=
  match z.scoring e, z.ctx? e with
  | some w, some c =>
    let ss := z.secs w
    match (walked ss).find? (fun s => s.score == score) with
    | none => z
    | some s =>
      match w.rows.find? (fun r => r.tile == s.tile && r.entity == entity) with
      | none => z
      | some row =>
        let ok := row.valid && decide (tree < ensTrees s.words) && z.laneLive lane && w.preDoneOn ss s.tile entity && z.enginesRun
        if !ok then z
        else
          let sound := walkTree s.words row.values tree
          let due := z.checkDue w s entity tree
          match w.item? score entity tree with
          | some x => if due ∧ x.checkLane.isNone then z.checkItem e c w s x sound u else z
          | none =>
            let p := if due then z.laneUpset lane s row.values tree u.primary else (z, u.primary)
            let z := p.1
            let k := sound.upset s.words p.2
            let x : ItemDone :=
              { score, entity, tree, lane, checkLane := none, leaf := k.leaf, value := k.value, miss := k.miss, nan := k.nan }
            let z := z.modWork e w.frame (fun y => { y with
              items := y.items ++ [x], rows := modWhere y.rows (fun r => r.tile == s.tile && r.entity == entity) (fun r => { r with taken := true })
              marginal := y.marginal + k.visits })
            let z := (z.count (.ens .items e)).count (if s.spilled then .ens .visitsSpilled e else .ens .visits e) k.visits
            let z := ((z.count (.ens .missTaken e) k.miss).count (.ens .nanSeen e) k.nan).count (.ens .catRange e) k.cat
            if due then z.checkItem e c w s x sound u else z
  | _, _ => z

def execEnsembleItem (entry : Fin 1024) (score : Fin 256) (entity tree : Nat) (lane : Fin 4096) (upset : WalkUpset) (s : State) : Answer :=
  .next (s.onZa (fun z => z.ensembleItem entry.val score.val entity tree lane.val upset))

/-! ### Arbitration (R268, R269). -/

/-- ENS_LANE about one lane, and its fence. -/
def Za.laneFault (z : Za) (c : Ctx) (w : FrameWork) (item : Nat) (d : Dispute) (lane loss : Nat) : Za :=
  let ext := [w32 w.frame, w32 item, w32 d.leaf, w32 d.checkLeaf, w32 d.refLeaf, w32 (aGetD z.fences.lanePass lane 0)]
  (z.raiseCtx .ensLane .lane lane .none c 0 0 ext).fenceLane lane loss w.frame

/-- Items that a fenced lane had checked in this frame, of whatever context, are owed another check. -/
def Za.recheck (z : Za) (lane : Nat) : Za :=
  let free (w : FrameWork) : FrameWork :=
    { w with items := modWhere w.items (fun x => x.checkLane == some lane) (fun x => { x with checkLane := none }) }
  { z with works := modWhere z.works (fun w => !w.scored) free }

/-- Entities of a work, each (tile, index), are scored afresh, with status RESCORED: their walks, and the batches that hold them while
the work frame runs (R189, R268). -/
def Za.rescore (z : Za) (e : Nat) (w : FrameWork) (hit : List (Bool × Nat)) : Za :=
  let ss := walked (z.secs w)
  let posts := programs (z.secs w) false
  let tileOf (score : Nat) : Bool := (ss.find? (fun s => s.score == score)).any Sec.tile
  let mine (x : ItemDone) : Bool := hit.contains (tileOf x.score, x.entity)
  let again (score j : Nat) : Bool :=
    !w.abandoned && posts.any (fun s => s.score == score && hit.any (fun h => h.1 == s.tile && h.2 / 64 == j))
  let z := z.modWork e w.frame (fun y =>
    let y := { y with
      items := y.items.filter (fun x => !mine x), batches := y.batches.filter (fun (b : Nat × Nat) => !again b.1 b.2)
      scores := y.scores.filter (fun x => !again x.index (x.entity / 64)) }
    hit.foldl (fun (y : FrameWork) h =>
      ((ss ++ posts).filter (fun s => s.tile == h.1)).foldl (fun (y : FrameWork) s => y.mark s.score h.2 1) y) y)
  z.count (.ens .rescored e) hit.length

/-- The entities with an item completed on a fenced lane in this frame, of whatever context, are scored afresh. -/
def Za.rescoreLane (z : Za) (lane : Nat) : Za :=
  (z.works.filter (fun w => !w.scored)).foldl (fun z w =>
    let ss := walked (z.secs w)
    let tileOf (score : Nat) : Bool := (ss.find? (fun s => s.score == score)).any Sec.tile
    let hit := ((w.items.filter (fun x => x.lane == lane)).map (fun x => (tileOf x.score, x.entity))).eraseDups
    if hit.isEmpty then z else z.rescore w.entry w hit) z

/-- CHECK_ARBITRATION: the oldest disagreement is decided by the majority of three; one that touches a lane already fenced is
not arbitrated, and its item is walked again. -/
def Za.arbitrate (z : Za) (e : Nat) : Za :=
  match z.scoring e, z.ctx? e with
  | some w, some c =>
    match w.disputes with
    | [] => z
    | d :: rest =>
      if !z.enginesRun then z
      else
        let trees := ((walked (z.secs w)).find? (fun s => s.score == d.score)).elim 0 (fun s => ensTrees s.words)
        let item := d.entity * trees + d.tree
        let same (x : ItemDone) : Bool := x.score == d.score && x.entity == d.entity && x.tree == d.tree
        let z := z.modWork e w.frame (fun y => { y with disputes := rest })
        if !z.laneLive d.lane then z.modWork e w.frame (fun y => { y with items := y.items.filter (fun x => !same x) })
        else if !z.laneLive d.checkLane then
          z.modWork e w.frame (fun y => { y with items := modWhere y.items same (fun x => { x with checkLane := none }) })
        else
          let z := z.count (.ens .arbitrated e)
          if d.refLeaf = d.leaf then (z.laneFault c w item d d.checkLane 1).recheck d.checkLane
          else if d.refLeaf = d.checkLeaf then ((z.laneFault c w item d d.lane 1).recheck d.lane).rescoreLane d.lane
          else
            let z := (z.laneFault c w item d d.lane (1 + 2 ^ 6)).laneFault c w item d d.checkLane (1 + 2 ^ 6)
            let z := (z.modWork e w.frame (fun y => y.mark d.score d.entity 3)).count (.ens .unscoredSplit e)
            ([d.lane / 1024, d.checkLane / 1024].eraseDups).foldl Za.ensQuadrant z
  | _, _ => z

def execCheckArbitration (entry : Fin 1024) (s : State) : Answer := .next (s.onZa (fun z => z.arbitrate entry.val))

/-! ### Release (R263, R266, R310). -/

/-- The kinds of entity that a set of sections scores. -/
def kindsScored (ss : List Sec) : List Bool := ((walked ss ++ programs ss true ++ programs ss false).map Sec.tile).eraseDups

/-- Batches of a kind in a frame. -/
def FrameWork.batchesOf (w : FrameWork) (tile : Bool) : List Nat := List.range (((w.view.entities tile).length + 63) / 64)

/-- Every row, item, check, arbitration and batch of a frame is done. -/
def Za.frameDone (z : Za) (w : FrameWork) : Bool :=
  let ss := z.secs w
  let rows := (kindsScored ss).all (fun t => w.abandoned || decide ((w.rows.countP (fun r => r.tile == t)) = (w.view.entities t).length))
  let items := (walked ss).all (fun s => (w.rows.filter (fun r => r.tile == s.tile && r.valid)).all (fun r =>
    (List.range (ensTrees s.words)).all (fun t => match w.item? s.score r.entity t with
      | some x => !z.checkDue w s r.entity t || x.checkLane.isSome
      | none => false)))
  let batches := w.abandoned || (programs ss false).all (fun s => (w.batchesOf s.tile).all (fun b => w.batches.contains (s.score, b))) &&
    (programs ss true).all (fun s => (w.batchesOf s.tile).all (fun b => w.preDone.contains (s.score, b)))
  rows && items && batches && w.disputes.isEmpty

/-- The score of an entity by a direct ensemble. -/
def Za.ensScore (z : Za) (w : FrameWork) (s : Sec) (index : Nat) (key : W) : Score :=
  let row := w.rows.find? (fun r => r.tile == s.tile && r.entity == index)
  let its := w.items.filter (fun x => x.score == s.score && x.entity == index)
  let marked := (w.marked.find? (fun m => m.score == s.score && m.entity == index)).elim 0 (·.status)
  let status := if !(row.any (·.valid)) then 2 else if w.abandoned && marked ≤ 1 then 5 else marked
  let leaf (t : Nat) : W := (its.find? (fun x => x.tree == t)).elim 0 (·.value)
  { index := s.score, entity := index, tile := s.tile, key, frame := w.frame, status, version := s.version
    unchecked := decide (z.quadrantsLeft ≤ 1), miss := (its.map (·.miss)).sum, nan := (its.map (·.nan)).sum
    out := if status = 2 then List.replicate s.outs 0 else ensOutputs s.words leaf }

/-- Score records of a frame to their subscribers: those of late work, or of a slot held late, only to late ones. -/
def Za.postScores (z : Za) (e : Nat) (ss : List Score) : Za :=
  ss.foldl (fun z s => z.toSubscribers e (if s.status = 5 then 4 else 1) clsBulk 0x05 s.words) z

/-- SCORING_COMPLETE: the scores of a frame are released once everything of it is done and no verdict is awaited. -/
def Za.scoringComplete (z : Za) (e : Nat) : Za :=
  match z.scoring e with
  | none => z
  | some w =>
    if !z.frameDone w ∨ w.withheld.any (fun (x : Nat × Nat) => x.2 == 0) ∨ !z.enginesRun then z
    else
      let ens := ((z.secs w).filter (fun s => s.kind == 1 && s.direct)).flatMap (fun s =>
        ((List.range (w.view.entities s.tile).length).zip (w.view.entities s.tile)).map (fun (p : Nat × Entity) =>
          z.ensScore w s p.1 p.2.key))
      let lateSlot (i : Nat) : Bool := w.withheld.any (fun (x : Nat × Nat) => x.1 == i / 16 && x.2 == 1)
      let all := (ens ++ w.scores).map (fun s => if lateSlot s.index ∧ s.status ≤ 1 then { s with status := 5 } else s)
      let z := z.modWork e w.frame (fun y => { y with scores := all, scored := true })
      let z := z.count (.ens .scoresLate e) (all.countP (fun s => s.status == 5))
      z.postScores e all

def execScoringComplete (entry : Fin 1024) (s : State) : Answer := .next (s.onZa (fun z => z.scoringComplete entry.val))

end Sys2Proof.Machine
end

