-- ==== Sys2Proof/Machine/SeedItems.lean ====
section
/-!
DEFINITION. What the Seedbank mirrors: detector records, program state, contexts, plans and models as items (R328, R330).
-/
namespace Sys2Proof.Machine

/-- The eight words of a record. -/
def DetRec.words (r : DetRec) : List W :=
  let ws := twoWords r.m ++ twoWords r.v ++
    [pack [(r.state.code, 31, 29), (b2n r.latched, 28, 28), (r.runDir, 27, 26), (r.run, 25, 20), (r.clearRun, 19, 12),
      (r.warmLeft, 11, 4)], w32 r.lastFrame, pack [(r.version, 31, 16), (r.nObs, 15, 0)]]
  ws ++ [crcWords (r.key :: ws)]

/-- The state a code names. -/
def detStateOf : Nat → DetState
  | 0 => .warmup
  | 1 => .normal
  | 2 => .suspect
  | _ => .confirmed

/-- A record read from its words. -/
def detRecOf (entry det : Nat) (key : W) (lastFrame : Nat) (ws : List W) : DetRec :=
  { entry, det, key, m := dword ws 0, v := dword ws 2, state := detStateOf (wf ws 4 31 29), latched := bit (word ws 4) 28
    runDir := wf ws 4 27 26, run := wf ws 4 25 20, clearRun := wf ws 4 19 12, warmLeft := wf ws 4 11 4, lastFrame
    version := wf ws 6 31 16, nObs := wf ws 6 15 0, posted := wf ws 4 31 29 }

/-- Words padded to a multiple of 16 bytes. -/
def pad16 (ws : List W) : List W := ws ++ List.replicate ((4 - ws.length % 4) % 4) 0

/-- The code of an area's state in a MODEL item: that of ZA_MODEL_SLOT, then 7 current and 8 expelled (log entry 122). -/
def AreaState.mirrored : AreaState → Nat
  | .current => 7
  | .expelled => 8
  | s => s.other

/-- The items of one context's entry, plans and models. -/
def Za.ctxItems (z : Za) (e : Nat) (c : Ctx) : List SeedItem :=
  let item (cls index : Nat) (key : W) (data : List W) : SeedItem := { cls, index, ctx := c.id, gen := c.gen, key, delete := false, data }
  let plan (index : Nat) (ws : List W) : List SeedItem := if ws = [] then [] else [item 1 index 0 ws]
  let kind : PlanKind → Nat
    | .pod => 0
    | .die => 1
    | .tile => 2
    | .det => 3
  let area (s k : Nat) (a : Option ModelArea) : List SeedItem := match a with
    | none => []
    | some a => [item 2 s (w32 k) ([a.modelId, w32 a.version] ++ twoWords a.digest ++ [w32 a.state.mirrored, w32 a.front, 0, 0])]
  [item 0 0 0 (pad16 ((z.ctxWords e).take 13))] ++ plan 0 c.plans.podWords ++ plan 1 c.plans.die.flatten ++ plan 2 c.plans.tile.flatten ++
    plan 3 c.plans.det.flatten ++ c.pending.map (fun p => item 1 (kind p.kind) (w32 p.front) p.words) ++
    (z.models.filter (fun m => m.entry == e)).flatMap (fun m => area m.slot 0 m.cur ++ area m.slot 1 m.oth)

/-- A program's state as its record (R295). -/
def ProgState.record (p : ProgState) : List W :=
  let hdr := [p.key, w32 p.lastFrame, pack [(p.layout, 31, 16), (4 * p.words.length, 15, 0)]]
  hdr ++ [crcWords (hdr ++ p.words)] ++ p.words

/-- Everything the mirror holds, as it stands. -/
def Za.seedItems (z : Za) : List SeedItem :=
  let named (e : Nat) : Option (Nat × Nat) := (z.ctx? e).map (fun c => (c.id, c.gen))
  z.ctxs.flatMap (fun (p : Nat × Ctx) => z.ctxItems p.1 p.2) ++
    z.detRecs.filterMap (fun r => (named r.entry).map (fun n =>
      ({ cls := 3, index := r.det, ctx := n.1, gen := n.2, key := r.key, delete := false, data := r.words } : SeedItem))) ++
    z.progState.filterMap (fun p => (named p.entry).map (fun n =>
      ({ cls := 4, index := p.score, ctx := n.1, gen := n.2, key := p.key, delete := false, data := p.record } : SeedItem)))

end Sys2Proof.Machine
end

