-- ==== Sys2Proof/Machine/Detectors.lean ====
section
/-!
DEFINITION. The Detector Stage: detector plans, observations, baselines, states, verdicts, band sets and the parameters returned to
DTUs (R233 to R236, R313 to R328).
-/
namespace Sys2Proof.Machine

/-! ### Descriptors (R313). -/

def detOn (d : List W) : Bool := bit (word d 0) 31
def detKind (d : List W) : Nat := wf d 0 30 29
def detTile (d : List W) : Bool := bit (word d 0) 28
def detRef (d : List W) : Nat := wf d 0 27 26            -- 0 SELF; 1 PEER; 2 ABS
def detDir (d : List W) : Nat := wf d 0 25 24
def detAction (d : List W) : Nat := wf d 0 23 22
def detAdapt (d : List W) : Bool := bit (word d 0) 21
def detSwapReset (d : List W) : Bool := bit (word d 0) 20
def detDigest (d : List W) : Bool := bit (word d 0) 19
def detAbsent (d : List W) : Bool := bit (word d 0) 18
def detSrc (d : List W) : Nat := wf d 1 31 30
def detScore (d : List W) : Nat := wf d 1 27 20
def detOut (d : List W) : Nat := wf d 1 19 16
def detIndex (d : List W) : Nat := wf d 1 11 0
def detAlpha (d : List W) : Nat := wf d 2 31 28
def detWarmup (d : List W) : Nat := wf d 2 27 20
def detSuspectN (d : List W) : Nat := wf d 2 19 14
def detConfirmN (d : List W) : Nat := wf d 2 13 8
def detClearN (d : List W) : Nat := wf d 2 7 0
def detHi (d : List W) : Flt := of32 (word d 3)
def detLo (d : List W) : Flt := of32 (word d 4)
def detFloor (d : List W) : Flt := of32 (word d 5)
def detBand (d : List W) : Bool := bit (word d 6) 31
def detBandShift (d : List W) : Nat := wf d 6 30 26
def detBandK (d : List W) : Nat := wf d 6 25 18
def detBandPersist (d : List W) : Nat := wf d 6 17 15

/-- A plan's descriptor, all zeros past its end. -/
def detDesc (plan : List (List W)) (i : Nat) : List W := plan.getD i (List.replicate 8 0)

/-- The enabled descriptors of a plan, ascending. -/
def detEnabled (plan : List (List W)) : List Nat := (List.range plan.length).filter (fun i => detOn (detDesc plan i))

/-! ### Checks of a plan (R314, R328). -/

/-- A feature that a band can follow: an enabled COPY of one LOCAL operand. -/
def copiesLocal (d : List W) : Bool := dEnable d && dOp d == 0 && oSrc (dA d) == 1

/-- A descriptor that R314 refuses, against the feature plan of its kind. -/
def detBad (feats : List (List W)) (d : List W) : Bool :=
  let var := word d 5
  decide (detKind d = 3 ∨ detRef d = 3 ∨ detDir d = 0 ∨ detAction d = 3 ∨ detSrc d = 3)
  || decide (wf d 0 17 0 ≠ 0 ∨ wf d 1 29 28 ≠ 0 ∨ wf d 1 15 12 ≠ 0 ∨ wf d 6 14 0 ≠ 0 ∨ word d 7 ≠ 0)
  || decide (detSrc d = 1 ∧ detIndex d ≠ 0) || decide (detSrc d = 2 ∧ 12 < detIndex d)
  || decide (detAlpha d = 0 ∨ detSuspectN d = 0 ∨ detConfirmN d < detSuspectN d ∨ detClearN d = 0)
  || isNaN32 (word d 3) || isNaN32 (word d 4) || !isFinite32 var || (bit var 31 && decide (fld var 30 0 ≠ 0))
  || decide (detSrc d = 0 ∧ feats.length ≤ detIndex d)
  || (detDigest d && (detKind d != 2 || detTile d)) || (detAbsent d && detKind d != 0)
  || decide (detWarmup d ≠ 0 ∧ detRef d ≠ 0)
  || (detBand d && (detSrc d != 0 || !copiesLocal (feats.getD (detIndex d) []) || (detBandK d == 0 && detRef d != 2)))

/-- Entity passes of a plan in a frame (R314). -/
def detPasses (v : CtxView) (plan : List (List W)) : Nat :=
  ([false, true].map (fun t =>
    let ds := (detEnabled plan).filter (fun i => detTile (detDesc plan i) == t)
    if ds.isEmpty then 0
    else (v.entities t).length * (if ds.any (fun i => detRef (detDesc plan i) == 1) then 2 else 1))).sum

/-- Detector pages of a context (R328). -/
def detPages (detCost d : Nat) : Nat := pagesOf (32 * detCost * d)

/-- Pages of DETECT_STATE in use when one context's plan is replaced (R295, R314). -/
def Za.statePages (z : Za) (e : Nat) (plan : List (List W)) : Nat :=
  (z.ctxs.map (fun (p : Nat × Ctx) =>
    let ds := if p.1 = e then plan else p.2.plans.det
    detPages p.2.q.detCost (detEnabled ds).length + ((z.areasOf p.1).map (fun a => imgStatePages a.image p.2.q.detCost)).sum)).sum

/-- DET_PLAN (R314, R381). -/
def Za.detPlan (z : Za) (h : HuskCmd) (handle : W) : ZaBody :=
  z.withCtx h (fun e c =>
    let f := z.frameOf (huskP0 h)
    let plan := descsOf 8 (huskPay h)
    match firstIdx plan (fun d => detBad (c.featAt (detTile d) f) d) with
    | some i => z.refuse (failValue stDetPlan i)
    | none =>
      if c.q.detCost < detPasses (z.viewAt c f 0) plan then z.refuse (failDetail stSchedFull 4)
      else if 3968 < z.statePages e plan then z.refuse (resultOf stDetectFull)
      else z.acceptPlan e c .det f (huskPay h) handle)

/-! ### Records (R325, R328). -/

/-- A record at its start. -/
def DetRec.fresh (entry det : Nat) (key : W) (d : List W) (frame : Nat) : DetRec :=
  { entry, det, key, m := 0, v := 0, state := if detWarmup d = 0 then .normal else .warmup, latched := false, runDir := 0, run := 0,
    clearRun := 0, warmLeft := detWarmup d, lastFrame := frame, version := 0, nObs := 0, posted := 0 }

/-- A record restarts; a latched one keeps its state. -/
def DetRec.restart (r : DetRec) (d : List W) : DetRec :=
  { r with m := 0, v := 0, nObs := 0, warmLeft := detWarmup d, run := 0, runDir := 0, clearRun := 0
           state := if r.latched then r.state else if detWarmup d = 0 then .normal else .warmup }

/-- A record is SUSPECT or CONFIRMED. -/
def DetRec.marked (r : DetRec) : Bool := r.state == .suspect || r.state == .confirmed

/-! ### Observations (R315 to R317). -/

inductive DetOutcome
  | none
  | inBand
  | out (high : Bool) (cause : Nat)      -- cause as its bit in a verdict record
  | confirm (cause : Nat)
  deriving DecidableEq, Repr

/-- What a work offers a detector: evidence operands and feature plans of the view, the frame's scores. -/
structure DetEnv where
  run : Nat → Nat                        -- absence run of a die
  pending : Nat → W → Bool               -- a restore of (detector, key) is pending (R335)

/-- The outcome that is decided before x is read. -/
def FrameWork.detEarly (w : FrameWork) (v : DetEnv) (d : List W) (n : Entity) : Option DetOutcome :=
  let positive (code : Nat) : Bool := match w.evidenceOpnd (v.run n.die) n code with
    | .num x => Flt.lt .zero x
    | _ => false
  if detDigest d && positive 3 then some (.confirm 2)
  else if detDigest d && positive 4 then some (.out true 3)
  else if detAbsent d && positive 0 then some (.out true 1)
  else Option.none

/-- The input x, and the model version of the score read. -/
def FrameWork.detInput (w : FrameWork) (v : DetEnv) (d : List W) (n : Entity) : Option Flt × Nat :=
  let num : Opnd → Option Flt
    | .num x => if x.isNaN then Option.none else some x
    | _ => Option.none
  match detSrc d with
  | 0 =>
    let plan := w.view.featPlan n.tile
    match w.row? n.tile n.key with
    | some r => if r.valid then (num (readAs (dFmt (plan.getD (detIndex d) [])) (r.values.getD (detIndex d) 0xFFFFFFFF)), 0) else (Option.none, 0)
    | Option.none => (Option.none, 0)
  | 1 =>
    match w.scores.find? (fun s => s.index == detScore d && s.tile == n.tile && s.key == n.key && decide (s.status ≤ 1)) with
    | some s => match s.out[detOut d]? with
      | some o => (if isNaN32 o then Option.none else some (of32 o), s.version)
      | Option.none => (Option.none, s.version)
    | Option.none => (Option.none, 0)
  | _ => (num (w.evidenceOpnd (v.run n.die) n (detIndex d)), 0)

def Flt.isFinite : Flt → Bool
  | .fin _ _ _ => true
  | _ => false

/-- The frame's mean and variance of a PEER detector; none below eight values. -/
def FrameWork.peerStats (w : FrameWork) (v : DetEnv) (d : List W) : Option (Flt × Flt) :=
  let xs := (w.view.entities (detTile d)).filterMap (fun n =>
    if (w.detEarly v d n).isSome then Option.none else (w.detInput v d n).1.filter Flt.isFinite)
  if xs.length < 8 then Option.none
  else
    let count := Flt.ofInt fmt64 xs.length
    let mean := Flt.div fmt64 (xs.foldl (Flt.add fmt64) .zero) count
    let square (x : Flt) : Flt := let t := Flt.sub fmt64 x mean
                                  Flt.mul fmt64 t t
    some (mean, Flt.div fmt64 (xs.foldl (fun a x => Flt.add fmt64 a (square x)) .zero) count)

/-- z of an input against a mean and a variance. -/
def detZ (x m v floor : Flt) : Flt :=
  let s := Flt.add fmt64 v floor
  if s.isZero then
    (if Flt.lt m x then .inf false else if Flt.lt x m then .inf true else .zero)
  else Flt.div fmt64 (Flt.sub fmt64 x m) (Flt.sqrt fmt64 s)

/-- The outcome of a z. -/
def detJudge (d : List W) (z : Flt) : DetOutcome :=
  if detDir d % 2 = 1 ∧ Flt.lt (detHi d) z then .out true 0
  else if 2 ≤ detDir d ∧ Flt.lt z (detLo d) then .out false 0
  else .inBand

/-! ### Baselines and states (R318, R319). -/

/-- The baseline after a finite x. -/
def DetRec.learn (r : DetRec) (d : List W) (x : Flt) : DetRec :=
  let n := min (r.nObs + 1) 65535
  if r.nObs = 0 then { r with m := bits64 x, v := 0, nObs := n }
  else
    let a : Flt := .fin false 1 (-(detAlpha d : Int))
    let dlt := Flt.sub fmt64 x (of64 r.m)
    let step := Flt.mul fmt64 a dlt
    let m := Flt.add fmt64 (of64 r.m) step
    let v := Flt.mul fmt64 (Flt.sub fmt64 (Flt.ofInt fmt64 1) a) (Flt.add fmt64 (of64 r.v) (Flt.mul fmt64 step dlt))
    { r with m := bits64 m, v := bits64 v, nObs := n }

/-- The record after an outcome, and the run field a verdict posted now carries. -/
def DetRec.step (r : DetRec) (d : List W) : DetOutcome → DetRec × Nat
  | .none => (r, r.run)
  | .confirm _ =>
    ({ r with run := detConfirmN d, runDir := 1, clearRun := 0, state := .confirmed, latched := true }, detConfirmN d)
  | .out high _ =>
    let dir := if high then 1 else 2
    let run := min ((if dir = r.runDir then r.run else 0) + 1) 63
    let state : DetState :=
      if detConfirmN d ≤ run then .confirmed
      else if detSuspectN d ≤ run ∧ r.state = .normal then .suspect else r.state
    ({ r with run, runDir := dir, clearRun := 0, state }, run)
  | .inBand =>
    let clear := if r.marked then min (r.clearRun + 1) 255 else r.clearRun
    if r.marked ∧ detClearN d ≤ clear ∧ !r.latched then
      ({ r with run := 0, runDir := 0, clearRun := 0, state := .normal }, clear)
    else ({ r with run := 0, runDir := 0, clearRun := clear }, if r.state = .normal then clear else 0)

/-! ### Verdicts (R320 to R322). -/

/-- A number as a verdict carries it. -/
def verdictNum : Option Flt → W
  | some x => if x.isNaN then 0xFFFFFFFF else round32 x
  | Option.none => 0xFFFFFFFF

/-- The words of a verdict record. -/
def verdictWords (c : Ctx) (frame : Nat) (d : List W) (r : DetRec) (state prev causes run version : Nat) (x zv : W) : List W :=
  withCrc [pack [(1, 31, 28), (detKind d, 27, 26), (state, 25, 23), (prev, 22, 20), (r.det, 19, 15), (detAction d, 14, 13),
      (b2n r.latched, 12, 12)], r.key, pack [(c.id, 31, 16), (c.gen, 15, 8)], w32 frame,
    pack [(causes, 31, 24), (run, 23, 16), (version, 15, 0)], x, zv]

/-- A verdict is posted: into FORWARD, to subscribers, and to the Region Manager. -/
def Za.postVerdict (z : Za) (e : Nat) (c : Ctx) (key : W) (state action : Nat) (ws : List W) : Za :=
  let z := z.count (.det .verdicts e)
  let z := z.forwardPut { rank := 1, die := fld key 19 0, ctx := c.id, gen := c.gen, words := ws, plen := 32 }
  let z := z.toSubscribers e 2 clsBulk 0x05 ws
  if state = 3 ∧ action ≠ 0 ∧ !z.rack.units.isEmpty ∧ z.rmId ≠ z.aggId then z.toAgg z.rmId clsBulk 0x05 c.id c.gen 32 ws else z

/-- The action of a detector, requested as its record enters CONFIRMED. -/
def Za.detAct (z : Za) (e : Nat) (d : List W) (key : W) : Za :=
  let die := fld key 19 0
  match detAction d with
  | 1 => (z.ownLong die .margin 1 0 [] 0xFFFF0000).count (.det .actionsMargin e)
  | 2 =>
    let u : UnitName := if detTile d then { kind := 1, unit := fld key 25 20, die } else { kind := 2, unit := 0, die }
    (z.askFence u 0).count (.det .actionsFence e)
  | _ => z

/-- A record changed in the books. -/
def Za.putRec (z : Za) (r : DetRec) : Za :=
  let same (x : DetRec) : Bool := x.entry == r.entry && x.det == r.det && x.key == r.key
  { z with detRecs := if z.detRecs.any same then modWhere z.detRecs same (fun _ => r) else z.detRecs ++ [r] }

/-- A record restarts for a cause (5 RESTART, 6 RESET, 7 RESTORED); from SUSPECT or CONFIRMED that is posted. -/
def Za.restartRec (z : Za) (e : Nat) (c : Ctx) (frame cause : Nat) (d : List W) (r : DetRec) (live : Bool) : Za × DetRec :=
  let n := r.restart d
  let z := z.count (.det .restarts e)
  if r.marked ∧ live then
    let n : DetRec := { n with posted := n.state.code }
    (z.postVerdict e c r.key n.state.code (detAction d)
      (verdictWords c frame d n n.state.code r.state.code (2 ^ cause) 0 0 0xFFFFFFFF 0xFFFFFFFF), n)
  else (z, n)

/-! ### The run of a data frame (R323 to R325). -/

/-- The view a record was last written under: that of its data frame, or the oldest kept. -/
def Ctx.viewOfRec (c : Ctx) (r : DetRec) : Option CtxView :=
  match c.views.find? (fun v => v.frame == r.lastFrame) with
  | some v => some v
  | Option.none => c.views.getLast?

/-- A plan change restarts a record (R325). -/
def recStale (before now : CtxView) (r : DetRec) : Bool :=
  let d := detDesc now.plans.det r.det
  let t := bit r.key 26
  (detDesc before.plans.det r.det).take 7 != d.take 7
    || (detSrc d == 0 && (before.featPlan t).getD (detIndex d) [] != (now.featPlan t).getD (detIndex d) [])

/-- Records whose entity has left or whose descriptor has changed are dealt with before the frame is observed. -/
def Za.settleRec (z : Za) (e : Nat) (c : Ctx) (w : FrameWork) (live : Bool) (r : DetRec) : Za :=
  let v := w.view
  let d := detDesc v.plans.det r.det
  let t := bit r.key 26
  let drop (z : Za) : Za := { z with detRecs := z.detRecs.filter (fun x => !(x.entry == e && x.det == r.det && x.key == r.key)) }
  if !((v.entities t).any (fun n => n.key == r.key)) then
    let z := drop z
    if r.marked ∧ live then
      (z.postVerdict e c r.key 4 (detAction d)
        (verdictWords c w.frame d r 4 r.state.code 0 r.run 0 0xFFFFFFFF 0xFFFFFFFF)).count (.det .left e)
    else z
  else if (c.viewOfRec r).any (fun u => recStale u v r) then
    let p := z.restartRec e c w.frame 5 d r live
    if detOn d ∧ detTile d = t then p.1.putRec p.2 else drop p.1
  else z

/-- One observation of one detector (R316 to R322). -/
def Za.observe (z : Za) (e : Nat) (c : Ctx) (w : FrameWork) (v : DetEnv) (live : Bool) (i : Nat) (n : Entity) : Za :=
  let d := detDesc w.view.plans.det i
  let key := n.key
  let r := (z.detRecs.find? (fun x => x.entry == e && x.det == i && x.key == key)).getD (DetRec.fresh e i key d w.frame)
  let early := w.detEarly v d n
  let held := v.pending i key
  let input := w.detInput v d n
  let version := if detSrc d = 1 ∧ early.isNone then input.2 else 0
  let swapped := detSwapReset d && version != 0 && r.version != 0 && version != r.version
  let p := if swapped then z.restartRec e c w.frame 5 d r live else (z, r)
  let z := p.1
  let r : DetRec := { p.2 with version := if version = 0 then p.2.version else version, lastFrame := w.frame }
  let peer := if detRef d = 1 ∧ live then w.peerStats v d else Option.none
  let few := detRef d == 1 && peer.isNone
  let x := if early.isSome ∨ held then Option.none else input.1
  let warming := decide (0 < r.warmLeft)
  let base := if detRef d = 1 then peer.getD (.zero, .zero) else (of64 r.m, of64 r.v)
  let zv := if few ∨ warming then Option.none
    else x.map (fun x => if detRef d = 2 then x else detZ x base.1 base.2 (detFloor d))
  let raw : DetOutcome := if few ∨ held then .none else match early with
    | some o => o
    | Option.none => match zv with
      | some q => detJudge d q
      | Option.none => .none
  let out : DetOutcome := if warming then (match raw with
    | .confirm k => .confirm k
    | _ => .none) else raw
  let learns : Bool := match out with
    | .inBand => true
    | .out _ 0 => detAdapt d
    | _ => false
  let finite := x.filter Flt.isFinite
  let q := r.step d out
  let after : DetRec := match finite with
    | some f =>
      if detRef d = 0 ∧ (warming ∨ learns) then
        let s := q.1.learn d f
        if warming then
          { s with warmLeft := s.warmLeft - 1, state := if s.warmLeft = 1 ∧ s.state = .warmup then .normal else s.state }
        else s
      else q.1
    | Option.none => q.1
  let z := ((z.count (.det .observations e)).count (.det .obsNone e) (b2n (out == .none))).count (.det .peerSmall e) (b2n few)
  let changed := q.1.state != r.state
  let refresh := decide (w.frame % 64 = 32) && after.marked && live
  let cause := match out with
    | .none => 0
    | .inBand => 1
    | .out _ k => 2 ^ k
    | .confirm k => 2 ^ k
  let z := z.count (.det .latched e) (b2n (q.1.latched && !r.latched))
  let z := if changed then
      z.count (.det (match q.1.state with
        | .suspect => .toSuspect
        | .confirmed => .toConfirmed
        | _ => .toNormal) e)
    else z
  let z := z.count (.det .refreshes e) (b2n refresh)
  let post := (changed || refresh) && live
  let after : DetRec := { after with posted := if post then after.state.code else r.posted }
  let z := z.putRec after
  if !post then z
  else
    let xw := match finite with
      | some f => round32 f
      | Option.none => 0xFFFFFFFF
    let zw := if detRef d = 2 then (if zv.isNone then 0xFFFFFFFF else xw) else verdictNum zv
    let z := z.postVerdict e c key after.state.code (detAction d)
      (verdictWords c w.frame d after after.state.code r.state.code (cause + (if refresh then 16 else 0)) q.2 version xw zw)
    if changed ∧ after.state = .confirmed then z.detAct e d key else z

/-- The detectors of a data frame: `live` posts verdicts and requests actions. -/
def Za.detect (z : Za) (e : Nat) (c : Ctx) (w : FrameWork) (v : DetEnv) (live : Bool) : Za :=
  let z := (z.detRecs.filter (fun r => r.entry == e)).foldl (fun z r => z.settleRec e c w live r) z
  let on := detEnabled w.view.plans.det
  let passes := [false, true].flatMap (fun t =>
    (w.view.entities t).flatMap (fun n => (on.filter (fun i => detTile (detDesc w.view.plans.det i) == t)).map (fun i => (n, i))))
  passes.foldl (fun z (p : Entity × Nat) => z.observe e c w v live p.2 p.1) z

/-- The environment of a live run. -/
def Za.detEnv (z : Za) (e : Nat) (c : Ctx) : DetEnv :=
  { run := fun die => ((z.die? die).bind (fun d => aGet d.absences e)).elim 0 Prod.fst
    pending := fun i key => z.restores.any (fun r =>
      r.names.any (fun n => n.cls == 3 && n.index == i && n.ctx == c.id && n.gen == c.gen && n.key == key)) }

/-- DETECTOR_RUN. -/
def Za.detectorRun (z : Za) (e : Nat) : Za :=
  match z.work e, z.ctx? e with
  | some w, some c =>
    if !w.scored ∨ w.detected ∨ !z.enginesRun then z
    else
      let replay := w.begun == 0
      let env : DetEnv := if replay then { z.detEnv e c with run := z.replayRun e w } else z.detEnv e c
      let z := z.detect e c w env (!replay)
      let z := z.modWork e w.frame (fun x => { x with detected := true, abandoned := x.abandoned || replay })
      if replay then z
      else
        let now := (w.frame, z.seedItems)
        let seed := z.seed.map (fun s => { s with due := s.due.filter (fun x => x.1 != w.frame) ++ [now], lastDone := max s.lastDone w.frame })
        ({ z with seed } : Za).event c.id c.gen .scoring
  | _, _ => z

def execDetectorRun (entry : Fin 1024) (s : State) : Answer := .next (s.onZa (fun z => z.detectorRun entry.val))

/-- DET_RESET (R325): the records named restart, and their latches go. -/
def Za.detReset (z : Za) (h : HuskCmd) : ZaBody :=
  z.withCtx h (fun e c =>
    let i := huskP0 h
    let every := huskP1 h % 2 == 1
    let keys := huskPay h
    let bad := firstIdx keys (fun k => !bit k 26 && decide (fld k 25 20 ≠ 0))
    if 31 < i then z.refuse badP0
    else match bad with
      | some k => z.refuse (badPay h (4 * k))
      | Option.none =>
        let mine := z.detRecs.filter (fun r => r.entry == e && r.det == i && (every || keys.contains r.key))
        let d := detDesc c.plans.det i
        (mine.foldl (fun z r =>
          let p := z.restartRec e c z.frameNow 6 d { r with latched := false } true
          p.1.putRec p.2) z).ok)

/-! ### Band sets (R326). -/

/-- floor or ceil of a number divided by 2^shift, clamped to a type. -/
def boundOf (x : Flt) (shift : Nat) (up signed : Bool) : W :=
  let lo : Int := if signed then -(2 ^ 31) else 0
  let hi : Int := if signed then 2 ^ 31 - 1 else 2 ^ 32 - 1
  let v : Int := match x with
    | .fin n m e =>
      let i : Int := if n then -(m : Int) else m
      let e' : Int := e - shift
      if 0 ≤ e' then i * (2 ^ e'.toNat : Nat)
      else
        let k : Int := (2 ^ (-e').toNat : Nat)
        if up then -((-i) / k) else i / k
    | .inf n => if n then lo else hi
    | .nan => 0
  w32 (toTwos 32 (clampInt lo hi v))

/-- The band entry of a detector for an entity. -/
def FrameWork.bandEntry (w : FrameWork) (v : DetEnv) (rec_ : Option DetRec) (d : List W) (n : Entity) : List W :=
  let feat := (w.view.featPlan n.tile).getD (detIndex d) []
  if !copiesLocal feat then [0, 0, 0, 0]
  else
    let o := dA feat
    let cell := n.cell o
    let pod := w.view.plans.pod
    let signed := pod.mode cell == 4 && decide (bits (pod.cellBits cell) 12 12 = 1)
    let range (m var : Flt) : Flt × Flt :=
      let t := Flt.mul fmt64 (.fin false (detBandK d) (-4)) (Flt.sqrt fmt64 (Flt.add fmt64 var (detFloor d)))
      (Flt.sub fmt64 m t, Flt.add fmt64 m t)
    let b : Option (Flt × Flt) := match detRef d with
      | 2 => some (detLo d, detHi d)
      | 1 => (w.peerStats v d).map (fun s => range s.1 s.2)
      | _ => (rec_.filter (fun r => r.warmLeft == 0 && r.nObs != 0)).map (fun r => range (of64 r.m) (of64 r.v))
    let warm := rec_.any (fun r => decide (0 < r.warmLeft))
    let s := detBandShift d
    match b with
    | some p => [pack [(b2n !warm, 31, 31), (oField o, 30, 29), (s, 28, 24), (detBandPersist d, 14, 12), (cell, 11, 0)],
        boundOf p.1 s false signed, boundOf p.2 s true signed, 0]
    | Option.none => [pack [(0, 31, 31), (oField o, 30, 29), (s, 28, 24), (detBandPersist d, 14, 12), (cell, 11, 0)], 0, 0, 0]

/-- BAND_DERIVE: core 4 derives the band set of every member DTU of the tray. -/
def Za.bandDerive (z : Za) (e : Nat) : Za :=
  match z.work e, z.ctx? e with
  | some w, some c =>
    if !w.detected ∨ !w.bands.isEmpty ∨ !z.enginesRun ∨ z.fences.cores.contains 4 then z
    else
      let v := z.detEnv e c
      let plan := w.view.plans.det
      let on := (detEnabled plan).filter (fun i => detBand (detDesc plan i))
      (w.view.tray.map (·.die)).foldl (fun z die =>
        let entries := on.flatMap (fun i =>
          let d := detDesc plan i
          ((w.view.entities (detTile d)).filter (fun n => n.die == die)).map (fun n =>
            w.bandEntry v (z.detRecs.find? (fun r => r.entry == e && r.det == i && r.key == n.key)) d n))
        let kept := entries.take 256
        let full := kept ++ List.replicate (256 - kept.length) [0, 0, 0, 0]
        let z := z.modWork e w.frame (fun x => { x with bands := x.bands ++ [(die, full)] })
        (z.count (.det .bandSets e)).count (.det .bandTrunc e) (entries.length - 256)) z
  | _, _ => z

def execBandDerive (entry : Fin 1024) (s : State) : Answer := .next (s.onZa (fun z => z.bandDerive entry.val))

/-! ### Parameters to a DTU (R233 to R236, R327). -/

/-- A PARAM packet for a DTU. -/
def Za.paramOut (z : Za) (die kind slot part parts frame base first count : Nat) (c : Ctx) (body : List W) : Za :=
  let hdr := [pack [(1, 31, 28), (kind, 27, 24), (slot, 23, 21), (c.id, 15, 0)], pack [(c.gen, 31, 24), (part, 23, 16), (parts, 15, 8)],
    w32 frame, w32 base, pack [(first, 31, 16), (count, 15, 0)], 0, 0]
  let ws := hdr ++ [crcWords (hdr ++ body)] ++ body
  z.toDie die clsParam 0x01 c.id c.gen (4 * ws.length) ws

/-- The band set of a slot: in full when an entry differs or the DTU does not hold it, else a confirmation. -/
def Za.sendBands (z : Za) (e : Nat) (c : Ctx) (frame : Nat) (d : DieEntry) (slot : Nat) (set : List (List W)) : Za :=
  let held := aGet d.paramAge slot
  let z' := z.modDie d.die (fun x => { x with
    sentBands := x.sentBands.filter (fun (s : Nat × Nat × List (List W)) => s.1 != slot) ++ [(slot, frame, set)] })
  match d.sentBands.find? (fun (s : Nat × Nat × List (List W)) => s.1 == slot) with
  | some last =>
    if last.2.2 = set ∧ held = some last.2.1 then
      (z'.paramOut d.die 1 slot 0 1 frame last.2.1 0 0 c []).count (.red .paramConfirm e)
    else sendAll z'
  | Option.none => sendAll z'
where
  sendAll (z : Za) : Za :=
    let part (z : Za) (p first n : Nat) : Za := z.paramOut d.die 0 slot p 3 frame 0 first n c ((set.drop first).take n).flatten
    (part (part (part z 0 0 124) 1 124 124) 2 248 8).count (.red .paramFull e)

/-- The weight swap window of a slot, when it differs from what was last sent (R139, R141). -/
def Za.sendWindow (z : Za) (c : Ctx) (frame : Nat) (d : DieEntry) (slot : Nat) : Za :=
  match c.window with
  | none => z
  | some s =>
    let now := (slot, s.va, s.vb, s.first, s.overlap)
    if d.wins.contains now then z
    else
      let body := [pack [(s.vb, 31, 16), (s.va, 15, 0)], w32 s.first, pack [(1, 31, 31), (s.overlap, 15, 0)], 0]
      (z.modDie d.die (fun x => { x with wins := x.wins.filter (fun (y : Nat × Nat × Nat × Nat × Nat) => y.1 != slot) ++ [now] })).paramOut
        d.die 2 slot 0 1 frame 0 0 1 c body

/-- WEIGHT_SWAP (R139): the members of the tray have the new window in the work frame in which it is accepted (R236). -/
def Za.weightSwap (z : Za) (h : HuskCmd) : ZaBody :=
  let r := z.declareSwap h
  match (r.1.cmdCtx h).filter (fun _ => r.2.any (fun x => x.status == stOk)) with
  | some (e, _) =>
    let send (z : Za) (d : DieEntry) : Za :=
      match z.ctx? e with
      | some c => match d.slotOf c.id c.gen z.frameNow with
        | some s => if d.admitted ∧ d.fenced.isNone ∧ z.enginesRun then z.sendWindow c z.frameNow d s.slot else z
        | Option.none => z
      | Option.none => z
    (r.1.dies.foldl send r.1, r.2)
  | Option.none => r

/-- The cache entry of a block in a version: digest, width, slot, index, version (R140, R141). -/
def cacheWords (slot version block : Nat) (entry : List W) : List W :=
  [word entry 0, word entry 1, pack [(1, 31, 31), (wf entry 2 30 29, 30, 29), (slot, 28, 26), (block, 21, 0)], pack [(version, 31, 16)]]

/-- A place in a DTU's cache for an entry: a free one, or that of the entry least recently matched. -/
def cachePlace (cache : List (Nat × List W × Nat)) : Nat :=
  match (List.range (min 1024 (cache.length + 1))).find? (fun i => !cache.any (fun (x : Nat × List W × Nat) => x.1 == i)) with
  | some i => i
  | Option.none => ((sortBy (fun (x : Nat × List W × Nat) => x.2.2) cache).head?).elim 0 Prod.fst

/-- The cache of a DTU filled for the blocks a slot completed in the last 64 frames: the new cache and the places changed. -/
def Za.fillCache (z : Za) (c : Ctx) (d : DieEntry) (slot : Nat) : List (Nat × List W × Nat) × List Nat :=
  let blocks := (d.blocks.filter (fun (b : Nat × Nat × Nat) => b.1 == slot && decide (z.time.begun ≤ b.2.2 + 64))).map (fun b => b.2.1)
  let want := blocks.eraseDups.flatMap (fun b =>
    c.tables.filterMap (fun (t : Nat × List (Nat × List W)) =>
      if c.versionValid t.1 z.frameNow then (aGet t.2 b).map (fun x => cacheWords slot t.1 b x) else Option.none))
  want.foldl (fun (acc : List (Nat × List W × Nat) × List Nat) ws =>
    let same (x : Nat × List W × Nat) : Bool := (x.2.1.drop 2).map (fun k => setFld k 30 29 0) == (ws.drop 2).map (fun k => setFld k 30 29 0)
    match acc.1.find? same with
    | some x => if x.2.1 = ws then acc else (modWhere acc.1 same (fun y => (y.1, ws, y.2.2)), acc.2 ++ [x.1])
    | Option.none =>
      let i := cachePlace acc.1
      (acc.1.filter (fun (x : Nat × List W × Nat) => x.1 != i) ++ [(i, ws, z.time.begun)], acc.2 ++ [i])) (d.cache, [])

/-- Runs of at most 124 entries. -/
def cacheRuns (places : List Nat) : List (Nat × Nat) :=
  (runsOf (sortBy id places.eraseDups)).flatMap (fun r => (List.range ((r.2 + 123) / 124)).map (fun k => (r.1 + 124 * k, min 124 (r.2 - 124 * k))))

/-- The changes of a DTU's digest cache. -/
def Za.sendCache (z : Za) (e : Nat) (c : Ctx) (frame : Nat) (d : DieEntry) (slot : Nat) : Za :=
  let p := z.fillCache c d slot
  let z := z.modDie d.die (fun x => { x with cache := p.1 })
  (cacheRuns p.2).foldl (fun z r =>
    let body := (List.range r.2).flatMap (fun k => ((p.1.find? (fun (x : Nat × List W × Nat) => x.1 == r.1 + k)).map (·.2.1)).getD [0, 0, 0, 0])
    (z.paramOut d.die 3 slot 0 1 frame 0 r.1 r.2 c body).count (.det .cacheChanges e) r.2) z

/-- A context in a lower slot of a DTU has parameters for it that have not left (R236). -/
def Za.lowerWaits (z : Za) (d : DieEntry) (slot : Nat) : Bool :=
  (d.slots.filter (fun s => decide (s.slot < slot) && s.busyFrom z.frameNow)).any (fun s =>
    ((z.entryOf s.ctx s.gen).bind z.work).any (fun w =>
      w.bands.any (fun (b : Nat × List (List W)) => b.1 == d.die) && !w.params.contains d.die))

/-- PARAM_SEND: the parameters of one context for one DTU, in ascending slot order: those of a lower slot that are ready go first. -/
def Za.paramSend (z : Za) (e die : Nat) : Za :=
  match z.work e, z.ctx? e, z.die? die with
  | some w, some c, some d =>
    let lower := d.slots.filter (fun s => s.busyFrom z.frameNow)
    match w.bands.find? (fun (b : Nat × List (List W)) => b.1 == die), lower.find? (fun s => s.ctx == c.id && s.gen == c.gen) with
    | some b, some s =>
      if w.params.contains die ∨ !d.admitted ∨ d.fenced.isSome ∨ !z.enginesRun ∨ z.lowerWaits d s.slot then z
      else
        let z := z.modWork e w.frame (fun x => { x with params := x.params ++ [die] })
        ((z.sendBands e c w.frame d s.slot b.2).sendWindow c w.frame d s.slot).sendCache e c w.frame d s.slot
    | _, _ => z
  | _, _, _ => z

def execParamSend (entry : Fin 1024) (die : BitVec 20) (s : State) : Answer := .next (s.onZa (fun z => z.paramSend entry.val die.toNat))

end Sys2Proof.Machine
end

