-- ==== Sys2Proof/Machine/Tensor.lean ====
section
/-!
DEFINITION. The Tensor Engine: formats, conversion, MATMUL, operations, programs over batches and their state (R273 to R278,
R284 to R295).
-/
namespace Sys2Proof.Machine

/-! ### Element formats (R275, R276). -/

/-- An element code of an MX format. -/
def elemOf (fmt code : Nat) : Flt :=
  match fmt with
  | 0 =>
    let ex := bits code 6 3
    let fr := bits code 2 0
    let neg := decide (bits code 7 7 = 1)
    if ex = 15 ∧ fr = 7 then .nan else if ex = 0 then .fin neg fr (-9) else .fin neg (8 + fr) ((ex : Int) - 10)
  | 1 => fltOf fmtE5m2 5 code
  | 2 => let v := ofTwos 8 code
         .fin (decide (v < 0)) v.natAbs (-6)
  | _ =>
    let ex := bits code 2 1
    let fr := bits code 0 0
    let neg := decide (bits code 3 3 = 1)
    if ex = 0 then .fin neg fr (-1) else .fin neg (2 + fr) ((ex : Int) - 2)

/-- emax_elem and the largest magnitudes, positive and negative, of an MX format. -/
def elemMax (fmt : Nat) : Int × Flt × Flt :=
  match fmt with
  | 0 => (8, .fin false 448 0, .fin true 448 0)
  | 1 => (15, .fin false 57344 0, .fin true 57344 0)
  | 2 => (0, .fin false 127 (-6), .fin true 128 (-6))
  | _ => (2, .fin false 6 0, .fin true 6 0)

/-- A scaled value rounded to an element, saturating (R276). -/
def toElem (fmt : Nat) (x : Flt) : Flt :=
  let r : Flt := match fmt with
    | 0 => x.roundTo fmtE4m3
    | 1 => x.roundTo fmtE5m2
    | 2 => match x with
      | .fin n m e => match (Flt.fin n m (e + 6)).nearest with
        | some i => .fin n i.natAbs (-6)
        | none => x
      | _ => x
    | _ => x.roundTo fmtE2m1
  let top := elemMax fmt
  if Flt.lt top.2.1 r then top.2.1 else if Flt.lt r top.2.2 then top.2.2 else r

/-- A datum times 2^k. -/
def Flt.scale (k : Int) : Flt → Flt
  | .fin n m e => .fin n m (e + k)
  | x => x

/-- A block of activations as it enters the array: the scale's exponent (none is NaN) and the elements (R276). -/
def convertBlock (fmt : Nat) (xs : List Flt) : Option Int × List Flt :=
  if xs.any (fun x => match x with | .fin _ _ _ => false | _ => true) then (none, xs)
  else
    let top := xs.foldl (fun m x => if Flt.lt m x.abs then x.abs else m) .zero
    if top.isZero then (some (-127), xs.map (fun _ => .zero))
    else
      let k := clampInt (-127) 127 (top.exponent - (elemMax fmt).1)
      (some k, xs.map (fun x => toElem fmt (x.scale (-k))))

/-- An exact sum; a NaN or opposed infinities give a NaN (R277). -/
def exactAdd : Flt → Flt → Flt
  | .nan, _ => .nan
  | _, .nan => .nan
  | .inf a, .inf b => if a = b then .inf a else .nan
  | .inf a, _ => .inf a
  | _, .inf b => .inf b
  | .fin na ma ea, .fin nb mb eb =>
    let e := min ea eb
    let s := signedAt na ma ea e + signedAt nb mb eb e
    .fin (decide (s < 0)) s.natAbs e

/-- An exact product. -/
def exactMul : Flt → Flt → Flt
  | .fin na ma ea, .fin nb mb eb => .fin (na != nb) (ma * mb) (ea + eb)
  | a, b => Flt.mul fmt64 a b

/-! ### Weights as placed (R283). -/

/-- Scale code of column c, block b. -/
def wgtScale (w : List W) (c b : Nat) : Nat := byteAt w (32 + c * ((wgtRows w + 31) / 32) + b)

/-- Element j of block b of column c. -/
def wgtElem (w : List W) (c b j : Nat) : Flt :=
  let kb := (wgtRows w + 31) / 32
  let base := 32 + (wgtCols w * kb + 15) / 16 * 16
  let i := (c * kb + b) * 32 + j
  if wgtFmt w = 3 then
    let x := byteAt w (base + i / 2)
    elemOf 3 (if i % 2 = 0 then x % 16 else x / 16)
  else elemOf (wgtFmt w) (byteAt w (base + i))

/-- Row k of column c of a bf16 or fp32 section. -/
def wgtPlain (w : List W) (c k : Nat) : Flt :=
  let i := c * wgtRows w + k
  if wgtFmt w = 4 then of16 (halfAt w (32 + 2 * i)) else of32 (word w (8 + i))

/-- One element of a MATMUL's output: a batch row against column c (R277). -/
def matElem (w : List W) (row : List Flt) (c : Nat) (bias : Flt) : Flt :=
  let k := wgtRows w
  let at_ (i : Nat) : Flt := if i < k then (row[i]?).getD .zero else .zero
  if wgtFmt w ≤ 3 then
    (List.range ((k + 31) / 32)).foldl (fun acc b =>
      let a := convertBlock (wgtFmt w) ((List.range 32).map (fun j => at_ (32 * b + j)))
      let p : Flt := match a.1 with
        | none => .nan
        | some sa =>
          if wgtScale w c b = 255 then .nan
          else
            let sum := (List.range 32).foldl (fun s j => exactAdd s (exactMul ((a.2[j]?).getD .zero) (wgtElem w c b j))) .zero
            (sum.scale (sa + (wgtScale w c b : Int) - 127)).roundTo fmt32
      Flt.add fmt32 acc p) bias
  else
    (List.range k).foldl (fun acc i =>
      let x := wgtPlain w c i
      let p := if wgtFmt w = 4 then exactMul ((at_ i).roundTo fmtBf16) x else of32 (Config.fp32Product (bits32 (at_ i)) (bits32 x))
      Flt.add fmt32 acc p) bias

/-! ### A batch under way. -/

/-- The activation area by columns of 64 values, the rows and states of the batch, and what it has made. -/
structure Batch where
  cols : List (Nat × List W)
  rows : List FeatRow
  state : List (List W)
  calls : List (Nat × List (List W))   -- ensemble section, outputs per entity
  out : List (List W)
  ext : List (W × Nat × List W)
  miss : List Nat
  deriving DecidableEq, Repr

/-- Column c of the area, 64 values. -/
def Batch.col (b : Batch) (c : Nat) : List W := aGetD b.cols c ((List.range 64).map (Config.staleActivation c))

/-- Value of entity r in column c. -/
def Batch.at_ (b : Batch) (c r : Nat) : W := ((b.col c)[r]?).getD 0

/-- Columns from an offset written, entity by entity; rows beyond the batch are zero. -/
def Batch.write (b : Batch) (out n : Nat) (f : Nat → Nat → W) : Batch :=
  let len := b.rows.length
  { b with cols := (List.range n).foldl (fun m j =>
      aPut m (out + j) ((List.range 64).map (fun r => if r < len then f r j else 0))) b.cols }

/-- A function of ACT (R278, R286). -/
def actOf (func : Nat) (x : Flt) : Flt :=
  match func with
  | 0 => if x.isNaN then .nan else if Flt.lt .zero x then x else .zero
  | 1 => x.sigmoid32
  | 2 => x.tanh32
  | 3 => x.exp32
  | 4 => Flt.mul fmt32 x x
  | _ => x.abs

/-- RED over values in ascending column order; MEAN's multiplication by 1 / n is rounded once (R286; log entry 227). -/
def redOf (func : Nat) (xs : List Flt) : Flt :=
  match func with
  | 0 => (xs.drop 1).foldl (Flt.add fmt32) (xs.headD .zero)
  | 1 => let sq := xs.map (fun x => Flt.mul fmt32 x x)
         (sq.drop 1).foldl (Flt.add fmt32) (sq.headD .zero)
  | 2 => xs.foldl (fun m x => if m.isNaN ∨ x.isNaN then .nan else if Flt.lt m x then x else m) (xs.headD .zero)
  | _ =>
    Flt.div fmt32 ((xs.drop 1).foldl (Flt.add fmt32) (xs.headD .zero)) (Flt.ofInt fmt32 xs.length)

/-- A feature as fp32: a missing value takes a constant (R286). -/
def rowWord (fmt : Nat) (lost x : W) : W :=
  match readAs fmt x with
  | .missing => lost
  | .raw => 0x7FC00000
  | .num v => round32 v

/-- PUSH on a state: the form of `L` rows of `n` words moves one place older (R286). -/
def pushState (st : List W) (first n L : Nat) (new : List W) : List W :=
  st.take first ++ ((st.drop first).take (n * L)).drop n ++ new ++ st.drop (first + n * L)

/-- One operation on a batch (R286). -/
def Batch.run (img : List W) (plan : List (List W)) (b : Batch) (o : PrgOp) : Batch :=
  let x (r j : Nat) : Flt := of32 (b.at_ (o.a + j) r)
  let y (r j : Nat) : Flt := of32 (b.at_ (o.b + j) r)
  let rows := b.rows.length
  match o.code with
  | 0x01 =>
    let raw (r j : Nat) : W := ((b.rows[r]?).elim [] (·.values)).getD (o.k + j) 0
    let fmt (j : Nat) : Nat := dFmt (plan.getD (o.k + j) [])
    let lost (r : Nat) : Nat := (List.range o.n).countP (fun j => raw r j == missingWord (fmt j))
    let b := { b with miss := (List.range rows).map (fun r => b.miss.getD r 0 + lost r) }
    b.write o.out o.n (fun r j => rowWord (fmt j) o.c (raw r j))
  | 0x02 => b.write o.out o.n (fun r j => ((b.state[r]?).getD []).getD (o.k + j) 0)
  | 0x03 =>
    { b with state := (List.range rows).map (fun r =>
        let st := (b.state[r]?).getD []
        st.take o.k ++ (List.range o.n).map (fun j => b.at_ (o.a + j) r) ++ st.drop (o.k + o.n)) }
  | 0x04 =>
    { b with state := (List.range rows).map (fun r =>
        pushState ((b.state[r]?).getD []) o.k o.n (o.func + 1) ((List.range o.n).map (fun j => b.at_ (o.a + j) r))) }
  | 0x05 =>
    let w := sectWords img o.sect
    let bias (c : Nat) : Flt := if o.func = 1 then of32 (word (sectWords img o.b) (8 + c)) else .zero
    let row (r : Nat) : List Flt := (List.range o.k).map (x r)
    b.write o.out o.n (fun r c => bits32 (matElem w (row r) c (bias c)))
  | 0x06 => b.write o.out o.n (fun r j => bits32 (actOf o.func (x r j)))
  | 0x07 => b.write o.out o.n (fun r j => bits32 (Flt.add fmt32 (x r j) (y r j)))
  | 0x08 => b.write o.out o.n (fun r j => bits32 (Flt.sub fmt32 (x r j) (y r j)))
  | 0x09 => b.write o.out o.n (fun r j => bits32 (Flt.mul fmt32 (x r j) (y r j)))
  | 0x0A => b.write o.out o.n (fun r j => bits32 (Flt.mul fmt32 (x r j) (of32 o.c)))
  | 0x0B => b.write o.out 1 (fun r _ => bits32 (redOf o.func ((List.range o.n).map (x r))))
  | 0x0C => b.write o.out o.n (fun r j => ((((aGetD b.calls o.sect [])[r]?).getD []).getD j 0))
  | 0x0D =>
    { b with ext := b.ext ++ ((List.range rows).zip b.rows).map (fun (p : Nat × FeatRow) =>
        (p.2.key, o.k, (List.range o.n).map (fun j => b.at_ (o.a + j) p.1))) }
  | 0x0E => { b with out := (List.range rows).map (fun r => (List.range o.n).map (fun j => b.at_ (o.a + j) r)) }
  | _ => b

/-! ### State (R295). -/

/-- The state of an entity for a program in data frame N, and whether it was found reset: the previous data frame must have
written it. -/
def Za.progStateOf (z : Za) (e : Nat) (s : Sec) (key : W) (prev : Nat) : List W × Bool :=
  let n := prgState s.words / 4
  match z.progState.find? (fun p => p.entry == e && p.score == s.score && p.key == key) with
  | some p =>
    if p.lastFrame = prev ∧ p.layout = prgLayout s.words ∧ p.words.length = n then (p.words, false) else (List.replicate n 0, true)
  | none => (List.replicate n 0, true)

/-- The states a batch leaves. -/
def Za.keepStates (z : Za) (e : Nat) (s : Sec) (frame : Nat) (rows : List FeatRow) (st : List (List W)) : Za :=
  ((rows.zip st)).foldl (fun z (p : FeatRow × List W) =>
    let new : ProgState := { entry := e, score := s.score, key := p.1.key, lastFrame := frame, layout := prgLayout s.words, words := p.2 }
    { z with progState := z.progState.filter (fun q => !(q.entry == e && q.score == s.score && q.key == p.1.key)) ++ [new] }) z

/-- Operations that read a state, or write one (R295). -/
def readsState (p : List W) : Bool := (prgAll p).any (fun o => o.code == 2 || o.code == 4)
def writesState (p : List W) : Bool := (prgAll p).any (fun o => o.code == 3 || o.code == 4)

/-! ### Batches (R289 to R294). -/

/-- The outputs of an ensemble for the entities of a batch, from the walks of the frame. -/
def FrameWork.callOut (w : FrameWork) (s : Sec) (rows : List FeatRow) : List (List W) :=
  rows.map (fun r => ensOutputs s.words (fun t => ((w.item? s.score r.entity t).elim 0 (·.value))))

/-- Every walk a batch waits for has been made and stands. -/
def FrameWork.callsReady (w : FrameWork) (called : List Sec) (rows : List FeatRow) : Bool :=
  w.disputes.isEmpty && called.all (fun s => rows.all (fun r =>
    (List.range (ensTrees s.words)).all (fun t => (w.item? s.score r.entity t).isSome)))

/-- A tile holds a program's weights and may run it (R289, R292). -/
def Za.tileHolds (z : Za) (e : Nat) (s : Sec) (tile : Nat) : Bool :=
  z.tileLive tile && (z.areasOf e).any (fun a => a.version == s.version && a.tiles.any (fun (t : Nat × List Nat) => t.1 == s.idx && t.2.contains tile))

/-- An error of a tile's weight area: a rerun, TILE_ERROR, and at the second within 64 frames the tile's fence (R292, R402). -/
def Za.tileError (z : Za) (e tile : Nat) : Za :=
  let again := (aGet z.fences.tileErrors tile).any (fun f => decide (z.time.begun < f + 64))
  let z := z.count (.ten .reruns e)
  let z := { z with fences := { z.fences with tileErrors := aPut z.fences.tileErrors tile z.time.begun } }
  let z := z.raiseF { faultOf .tileError .tile tile .none 0 0 with severity := if again then 2 else 1 }
  if again then z.fenceTile tile (some .tileError) else z

/-- The data frame before a work's, by the context's views. -/
def Ctx.prevFrame (c : Ctx) (w : FrameWork) : Nat := ((c.viewBack w.view 1).map (·.frame)).getD (w.frame - 1)

/-- The batch of a program run over its rows. -/
def Za.batchOf (z : Za) (e : Nat) (c : Ctx) (w : FrameWork) (s : Sec) (called : List Sec) (rows : List FeatRow) : Batch × Nat :=
  let st := rows.map (fun r => z.progStateOf e s r.key (c.prevFrame w))
  let b : Batch :=
    { cols := [], rows, state := st.map Prod.fst, calls := called.map (fun x => (x.idx, w.callOut x rows)), out := [], ext := [], miss := [] }
  ((prgAll s.words).foldl (Batch.run s.img (w.view.featPlan s.tile)) b, if readsState s.words then st.countP (·.2) else 0)

/-- The records a batch emits, for valid rows and for those that are not (R266, R294). -/
def emitScores (w : FrameWork) (s : Sec) (b : Batch) (invalid : List FeatRow) : List Score :=
  let base (r : FeatRow) : Score :=
    { index := s.score, entity := r.entity, tile := s.tile, key := r.key, frame := w.frame, status := 2, version := s.version,
      unchecked := false, miss := 0, nan := 0, out := List.replicate s.outs 0 }
  ((List.range b.rows.length).zip b.rows).map (fun (p : Nat × FeatRow) =>
    let out := (b.out[p.1]?).getD (List.replicate s.outs 0)
    let again := w.marked.any (fun m => m.score == s.score && m.entity == p.2.entity && m.status == 1)
    { base p.2 with status := b2n again, miss := b.miss.getD p.1 0, nan := out.countP isNaN32, out }) ++ invalid.map base

/-- PROGRAM_BATCH: one batch of a direct program on a tile. -/
def Za.programBatch (z : Za) (dom : Nat → Nat → Nat) (e score j tile : Nat) (error : Bool) : Za :=
  match z.work e, z.ctx? e with
  | some w, some c =>
    let ss := z.secs w
    match ss.find? (fun s => s.score == score && s.kind == 3 && s.direct) with
    | none => z
    | some s =>
      let pre := prgPre s.words
      let mine := w.rows.filter (fun r => r.tile == s.tile && decide (r.entity / 64 = j))
      let want := ((List.range (w.view.entities s.tile).length).filter (fun i => decide (i / 64 = j))).length
      let good := mine.filter (·.valid)
      let called := (walked ss).filter (fun x => x.slot == s.slot && s.calls.contains x.idx)
      let done := if pre then w.preDone.contains (score, j) else w.batches.contains (score, j)
      let ready := decide (0 < want) && decide (mine.length = want) && !done && z.enginesRun && !w.scored && z.tileHolds e s tile &&
        (pre || ((programs ss true).all (fun p => p.tile != s.tile || w.preDone.contains (p.score, j)) && w.callsReady called good))
      if !ready then z
      else
        let inj := z.injectionAt 0x03 tile
        let z := match inj with
          | some i => z.spend i
          | none => z
        let z := if error || inj.isSome then z.tileError e tile else z
        if !z.tileLive tile then z
        else
          let r := z.batchOf e c w s called (sortBy (fun (x : FeatRow) => x.entity) good)
          let b := r.1
          let cost := batchCost s.img s.words
          let z := ((z.count (.ten .batches e)).count (.ten .tileCycles e) cost).count (.ten .stateReset e) r.2
          let z := if writesState s.words then z.keepStates e s w.frame b.rows b.state else z
          if pre then
            let z := b.ext.foldl (fun z (x : W × Nat × List W) => z.writeExternal dom e w.frame x.1 x.2.1 x.2.2) z
            z.modWork e w.frame (fun y => { y with preDone := y.preDone ++ [(score, j)], marginal := y.marginal + cost })
          else
            let out := emitScores w s b (mine.filter (fun x => !x.valid))
            let z := z.count (.ten .nanOut e) (out.map (·.nan)).sum
            z.modWork e w.frame (fun y => { y with
              batches := y.batches ++ [(score, j)], scores := y.scores ++ out, marginal := y.marginal + cost
              rows := modWhere y.rows (fun r => r.tile == s.tile && decide (r.entity / 64 = j)) (fun r => { r with taken := true }) })
  | _, _ => z

def execProgramBatch (entry : Fin 1024) (score : Fin 256) (batch : Nat) (tile : Fin 32) (weightError : Bool) (s : State) : Answer :=
  .next (s.onZa (fun z => z.programBatch s.cellDom entry.val score.val batch tile.val weightError))

end Sys2Proof.Machine
end

