-- ==== Sys2Proof/Machine/Models.lean ====
section
/-!
DEFINITION. Residency of model images: loads, fetches and what is served, verification, placement, queries, and the comparison of
replicas (R292, R293, R296 to R310, R364).
-/
namespace Sys2Proof.Machine

/-! ### Slots and areas (R296, R297, R310). -/

def ModelSlot.empty (e s : Nat) : ModelSlot :=
  { entry := e, slot := s, cur := none, oth := none, agree := 0, passOf := none, passDone := none, passLeft := 0 }

def Za.modSlot (z : Za) (e s : Nat) (f : ModelSlot → ModelSlot) : Za :=
  let same (m : ModelSlot) : Bool := m.entry == e && m.slot == s
  let models := if z.models.any same then modWhere z.models same f else z.models ++ [f (ModelSlot.empty e s)]
  { z with models := models.filter (fun m => m.cur.isSome || m.oth.isSome) }

/-- A repair runs in the current area: its copy was expelled and is being replaced. -/
def ModelSlot.repairs (m : ModelSlot) : Bool := m.cur.any (fun a => a.state != .current && a.state != .expelled)

/-- The area that an image is coming into. -/
def ModelSlot.coming (m : ModelSlot) : Option ModelArea := if m.repairs then m.cur else m.oth
def ModelSlot.setComing (m : ModelSlot) (a : Option ModelArea) : ModelSlot :=
  if m.repairs then { m with cur := a } else { m with oth := a }

def Za.coming (z : Za) (e s : Nat) : Option ModelArea := (z.slot? e s).bind (·.coming)
def Za.modComing (z : Za) (e s : Nat) (f : ModelArea → ModelArea) : Za :=
  z.modSlot e s (fun m => m.setComing (m.coming.map f))

/-- An image is expected from a source. -/
def ModelArea.fetching (a : ModelArea) : Bool := a.state == .fetching || a.state == .repairing

/-- A load ends without effect: its area is empty again. -/
def Za.dropLoad (z : Za) (e s : Nat) (r : Result) : Za :=
  let handle := ((z.coming e s).map (·.handle)).getD 0
  (z.modSlot e s (fun m => m.setComing none)).finish handle r

/-! ### Fetching (R298, R364). -/

/-- The header of a model fetch. -/
def modelHdr (c : Ctx) (slot : Nat) (a : ModelArea) (fetchId : W) : List W :=
  [pack [(1, 31, 28), (1, 27, 24)], fetchId, pack [(c.id, 31, 16), (c.gen, 15, 8), (slot, 7, 4)], a.modelId, pack [(a.version, 31, 16)]] ++
    twoWords a.digest

/-- FETCH_REQ to a source, from the first byte missing. -/
def Za.askImage (z : Za) (c : Ctx) (slot : Nat) (a : ModelArea) (f : ModelFetch) (offset : Nat) : Za :=
  let body := modelHdr c slot a f.fetchId ++ [w32 offset]
  match f.source with
  | .agg i => z.toAgg i clsPeer 0x01 0xFFFF 0 32 body
  | .software => z.toCollectors clsPeer 0x01 0xFFFF 0 32 body

/-- The next source is tried; when every one has failed the slot is empty again. -/
def Za.nextImageSource (z : Za) (e s : Nat) : Za :=
  match z.coming e s, z.ctx? e with
  | some a, some c =>
    match (a.fetch.map (·.left)).getD [] with
    | [] =>
      let z := (z.count (.ten .fetchFail e)).raiseCtx .modelFetch .context e .none c 0 0
      z.dropLoad e s (resultOf stModelFetch)
    | x :: rest =>
      let f : ModelFetch := { fetchId := z.fetchId, source := x, left := rest, offered := false, gaps := 0 }
      let a : ModelArea := { a with
        fetch := some f, image := [], imageLen := if a.handle = 0 then a.imageLen else 0
        state := if a.state = .verifying then (if a.handle = 0 then .repairing else .fetching) else a.state }
      let z : Za := { z with fetchId := z.fetchId + 1 }
      (z.modComing e s (fun _ => a)).askImage c s a f 0
  | _, _ => z

/-- The sources of an image: those named, the other hosts of the context by rank, fabric software. -/
def Za.imageSources (z : Za) (c : Ctx) (named : List Nat) : List FetchSource :=
  let hosts := (aggsOf z.hostOf c.members).filter (fun a => a != z.aggId && !named.contains a)
  (named ++ hosts).map FetchSource.agg ++ [.software]

/-- MODEL_LOAD (R296 to R298, R302, R381). -/
def Za.modelLoad (z : Za) (h : HuskCmd) (handle : W) : ZaBody :=
  z.withCtx h (fun e c =>
    let ws := huskPay h
    let s := huskP1 h % 16
    let f := z.frameOf (huskP0 h)
    let q : Quotas := { c.q with
      ensCost := if word ws 6 = 0 then c.q.ensCost else (word ws 6).toNat
      tensorCost := if word ws 7 = 0 then c.q.tensorCost else (word ws 7).toNat }
    let raises := decide (c.q.ensCost < q.ensCost ∨ c.q.tensorCost < q.tensorCost)
    let fault := z.schedFault z.checkEvery (z.quotasWith e q)
    let halves := [wf ws 4 31 16, wf ws 4 15 0, wf ws 5 31 16, wf ws 5 15 0]
    if halves.any (fun x => decide (4095 < x)) then z.refuse (badPay h (16 + 2 * halves.findIdx (fun x => decide (4095 < x))))
    else if f < z.earliest c then z.refuse (failValue stFrontEarly (z.earliest c % 2 ^ 32))
    else if (z.slot? e s).any (fun m => m.oth.isSome || m.repairs) then z.refuse (resultOf stModelBusy)
    else if raises ∧ fault.isSome then z.refuse (failDetail stSchedFull (fault.getD 0))
    else
      let named := halves.filter (· != 0)
      let fetch : ModelFetch := { fetchId := 0, source := .software, left := z.imageSources c named, offered := false, gaps := 0 }
      let a : ModelArea :=
        { state := .fetching, modelId := word ws 0, version := wf ws 1 31 16, digest := dword ws 2, image := [], imageLen := 0, front := f,
          handle, deferred := false, retireAt := 0, fetch := some fetch, nodePages := 0, spilled := [], tiles := [], since := 0 }
      let z := (z.modCtx e (fun x => { x with q })).count (.ten .loads e)
      ((z.modSlot e s (fun m => { m with oth := some a })).nextImageSource e s, none))

/-- The slot that a frame of the exchange belongs to. -/
def Za.fetchSlot (z : Za) (f : Frame) : Option (Nat × Nat) :=
  (z.models.find? (fun m => m.coming.any (fun a => a.fetching && a.fetch.any (fun x => x.fetchId == word f.body 1)) &&
    (z.ctx? m.entry).any (fun c => m.coming.any (fun a => f.body.take 7 == modelHdr c m.slot a (word f.body 1))))).map (fun m => (m.entry, m.slot))

/-- A model offer: its pages count against the quota (R296). -/
def Za.imageOffer (z : Za) (f : Frame) : Za :=
  match z.fetchSlot f with
  | none => z
  | some (e, s) =>
    match z.coming e s, z.ctx? e with
    | some a, some c =>
      let n := (word f.body 7).toNat
      if a.fetch.any (·.offered) then z
      else if a.handle ≠ 0 ∧ c.q.modelPages < z.modelPages e + pagesOf n then z.dropLoad e s (failDetail stQuotaReached 4)
      else z.modComing e s (fun x => { x with imageLen := n, fetch := x.fetch.map (fun y => { y with offered := true }) })
    | _, _ => z

/-- A model chunk: it extends the image, or shows a gap that is asked for again; the fifth gap is a stall (R300, R364). -/
def Za.imageChunk (z : Za) (f : Frame) : Za :=
  match z.fetchSlot f with
  | none => z
  | some (e, s) =>
    match z.coming e s, z.ctx? e with
    | some a, some c =>
      match a.fetch with
      | none => z
      | some x =>
        let at_ := (word f.body 7).toNat
        let have_ := 4 * a.image.length
        if !x.offered ∨ a.imageLen ≤ have_ then z
        else if have_ < at_ then
          let x' : ModelFetch := { x with gaps := x.gaps + 1 }
          if 5 ≤ x'.gaps then z.nextImageSource e s
          else (z.modComing e s (fun y => { y with fetch := some x' })).askImage c s a x' have_
        else
          let data := ((bytesOf f.body).take f.plen.toNat).drop 32
          let new := (data.drop (have_ - at_)).take (a.imageLen - have_)
          let new := if have_ + new.length = a.imageLen then new else new.take (new.length / 4 * 4)
          let image := a.image ++ wordsOf new
          let full := decide (a.imageLen ≤ have_ + new.length)
          z.modComing e s (fun y => { y with image, state := if full then .verifying else y.state })
    | _, _ => z

/-! ### What is served (R206, R299). -/

/-- A request well formed. -/
def fetchForm (f : Frame) : Bool :=
  let b := f.body
  decide (f.plen.toNat ≥ 32 ∧ wf b 0 31 28 = 1 ∧ wf b 0 27 24 ≤ 1 ∧ wf b 0 23 0 = 0) &&
    (if wf b 0 27 24 = 0 then (b.drop 2).take 5 == [0, 0, 0, 0, 0] else decide (wf b 2 3 0 = 0 ∧ wf b 4 15 0 = 0))

/-- Why a request is declined: 1 busy, 2 not held, 3 the digest differs. -/
def Za.declineWhy (z : Za) (p : Nat) (f : Frame) : Option Nat :=
  let b := f.body
  if wf b 0 27 24 = 0 then
    if z.face p ≠ 2 then some 2
    else if z.fences.cores.contains 5 ∨ z.fences.cores.contains 0 then some 1
    else if 4 ≤ z.serving.countP (fun s => s.model.isNone) then some 1 else none
  else
    match z.entryOf (wf b 2 31 16) (wf b 2 15 8) with
    | none => some 2
    | some e =>
      let areas := ((z.slot? e (wf b 2 7 4)).map (·.areas)).getD []
      let held := areas.filter (fun a => (a.state == .current || a.state == .ready || a.state == .retiring) &&
        a.modelId == word b 3 && a.version == wf b 4 31 16)
      if held.isEmpty then some 2
      else if !(held.any (fun a => a.digest == dword b 5)) then some 3
      else if 8 ≤ z.serving.countP (fun s => s.model.isSome) then some 1 else none

/-- FETCH_REQ: an offer or a decline; a request repeated resumes at its offset. -/
def Za.fetchReq (z : Za) (p : Nat) (f : Frame) : Za :=
  let b := f.body
  let same (s : Serving) : Bool := s.peer == f.src && s.link == p && s.hdr == b.take 7
  let offset := (word b 7).toNat
  if !fetchForm f ∨ !z.running then z
  else if z.serving.any same then
    ({ z with serving := modWhere z.serving same (fun s => { s with offset }) } : Za)
  else match z.declineWhy p f with
    | some k => z.fetchFrame p f.src 0x03 b k []
    | none =>
      let model := if wf b 0 27 24 = 0 then none else (z.entryOf (wf b 2 31 16) (wf b 2 15 8)).map (fun e => (e, wf b 2 7 4))
      let s : Serving := { peer := f.src, link := p, fetchId := word b 1, model, offset, hdr := b.take 7 }
      match z.servedFrom s with
      | none => z.fetchFrame p f.src 0x03 b 2 []
      | some r => ({ z with serving := z.serving ++ [s] } : Za).fetchFrame p f.src 0x02 b r.1 []

/-- A frame of the exchange arrives: what it leads to. -/
def Za.fetchRow (z : Za) (p : Nat) (f : Frame) (msg : Nat) (g : Za → Za) : Za :=
  let r := z.receive p f
  if r.2 ∧ f.cls = 7 ∧ f.msg.toNat = msg ∧ fetchForm f then g r.1 else r.1

def execFetchReq (link : Fin 82) (frame : Frame) (s : State) : Answer :=
  .next (s.onZa (fun z => z.fetchRow link.val frame 1 (fun z => z.fetchReq link.val frame)))

/-- A firmware frame goes to the ROM, a model frame to its slot. -/
def Za.fetchSplit (z : Za) (p : Nat) (f : Frame) (boot model : Za → Za) : Za :=
  if wf f.body 0 27 24 = 0 then (if z.bootFrame p f then boot z else z) else if z.running then model z else z

def execFetchOffer (link : Fin 82) (frame : Frame) (s : State) : Answer :=
  .next (s.onZa (fun z => z.fetchRow link.val frame 2 (fun z => z.fetchSplit link.val frame (·.bootOffer frame) (·.imageOffer frame))))

def execFetchDecline (link : Fin 82) (frame : Frame) (s : State) : Answer :=
  .next (s.onZa (fun z => z.fetchRow link.val frame 3 (fun z => z.fetchSplit link.val frame (·.bootFail 1)
    (fun z => match z.fetchSlot frame with
      | some k => z.nextImageSource k.1 k.2
      | none => z))))

def execFetchChunk (link : Fin 82) (frame : Frame) (s : State) : Answer :=
  .next (s.onZa (fun z => z.fetchRow link.val frame 4 (fun z => z.fetchSplit link.val frame (·.bootChunk frame) (·.imageChunk frame))))

/-- FETCH_SOURCE_TIMEOUT: no offer, or a stalled transfer (R298). -/
def Za.fetchTimeout (z : Za) (e s : Nat) : Za :=
  if (z.coming e s).any ModelArea.fetching ∧ z.enginesRun then z.nextImageSource e s else z

def execFetchSourceTimeout (entry : Fin 1024) (slot : Fin 16) (s : State) : Answer :=
  .next (s.onZa (fun z => z.fetchTimeout entry.val slot.val))

/-! ### Verification and placement (R292, R293, R300). -/

/-- The first failure of an image with the right digest. -/
def imageFault (c : Ctx) (a : ModelArea) : Option Result :=
  let bad (status detail value : Nat) : Option Result := some { status, detail, result0 := value, payload := [], trunc := false }
  let img := a.image
  if !imageForm img ∨ imgModelId img ≠ a.modelId ∨ imgVersion img ≠ a.version then bad stModelFormat 0 0
  else (sectsOf img).findSome? (fun x =>
    let w := x.words img
    match x.kind with
    | 1 =>
      match ensFault w, ensPlanFault w (c.featAt (ensKind w == 1) a.front) with
      | some n, _ => bad stEnsFormat x.idx n
      | none, some n => bad stFeatFormat x.idx n
      | none, none => none
    | 2 => if wgtForm w x.len then none else bad stModelFormat x.idx 0
    | _ =>
      let plan := c.featAt (prgKind w == 1) a.front
      match prgFault img w plan.length (fun k => dExternal (plan.getD k [])) with
      | some n => bad stModelFormat x.idx n
      | none => none)

/-- ceil(det_cost / 64) × c_b of the direct programs of an image (R293). -/
def programCost (det : Nat) (img : List W) : Nat :=
  (((sectsOf img).filter (fun x => x.kind == 3 && x.direct)).map (fun x => (det + 63) / 64 * batchCost img (x.words img))).sum

/-- The tensor cost of a context's models once an image stands in its slot. -/
def Za.modelCost (z : Za) (e s det : Nat) (img : List W) : Nat :=
  programCost det img + ((z.models.filter (fun m => m.entry == e && m.slot != s)).map (fun m => (m.cur.map (fun a => programCost det a.image)).getD 0)).sum

/-- Tiles for a program, round robin over the quadrants, `used` KiB already promised on each (R292). -/
def Za.pickTiles (z : Za) (used : List (Nat × Nat)) (kib n : Nat) : Option (List Nat) :=
  let order := (List.range 8).flatMap (fun i => (List.range 4).map (fun q => 8 * q + i))
  let free := order.filter (fun t => z.tileLive t && decide (kib + aGetD used t 0 ≤ z.tileFree t))
  if free.length < n then none else some (free.take n)

/-- The tiles of every program of an image, or the section that does not fit. -/
def Za.placeTiles (z : Za) (det : Nat) (img : List W) : List Sect → List (Nat × Nat) → List (Nat × List Nat) → (List (Nat × List Nat)) ⊕ Nat
  | [], _, acc => .inl acc
  | x :: r, used, acc =>
    let w := x.words img
    let n := prgTiles w
    let kib := prgKib img w
    if 65536 < ((det + 63) / 64 + n - 1) / n * batchCost img w then .inr x.idx
    else match z.pickTiles used kib n with
      | none => .inr x.idx
      | some ts => z.placeTiles det img r (ts.foldl (fun u t => aPut u t (aGetD u t 0 + kib)) used) (acc ++ [(x.idx, ts)])

/-- Node pages for the ensembles of an image; those that find too few are spilled (R257, R258). -/
def placeNodes (free : Nat) (img : List W) : List Sect → Nat × List Nat → Nat × List Nat
  | [], acc => acc
  | x :: r, acc =>
    let n := (ensNodes (x.words img) + 2047) / 2048
    placeNodes free img r (if acc.1 + n ≤ free then (acc.1 + n, acc.2) else (acc.1, acc.2 ++ [x.idx]))

/-- MODEL_VERIFY. -/
def Za.modelVerify (z : Za) (e s : Nat) : Za :=
  match z.coming e s, z.ctx? e with
  | some a, some c =>
    if a.state ≠ .verifying ∨ !z.enginesRun then z
    else if imageDigest ((bytesOf a.image).take a.imageLen) ≠ a.digest then
      let src := match a.fetch.map (·.source) with
        | some (.agg i) => i
        | _ => 0xFFFFF
      ((z.count (.ten .badSource e)).raiseCtx .modelBadSource .context e .none c src 0).nextImageSource e s
    else
      let det := c.q.detCost
      let progs := (sectsOf a.image).filter (fun x => x.kind == 3)
      match imageFault c a, z.placeTiles det a.image progs [] [] with
      | some r, _ => z.dropLoad e s r
      | none, place =>
        if a.handle ≠ 0 ∧ c.q.tensorCost < z.modelCost e s det a.image then z.dropLoad e s (resultOf stModelCost)
        else if a.handle ≠ 0 ∧ 3968 < z.statePages e c.plans.det then z.dropLoad e s (resultOf stDetectFull)
        else match place with
          | .inr i => z.dropLoad e s (failDetail stModelFit i)
          | .inl tiles =>
            let free := z.nodePagesFree + a.nodePages
            let nodes := placeNodes free a.image ((sectsOf a.image).filter (fun x => x.kind == 1)) (0, [])
            z.modComing e s (fun x => { x with state := .placing, tiles, nodePages := nodes.1, spilled := nodes.2, fetch := none })
  | _, _ => z

def execModelVerify (entry : Fin 1024) (slot : Fin 16) (s : State) : Answer := .next (s.onZa (fun z => z.modelVerify entry.val slot.val))

/-- MODEL_PLACED: the area is READY; a repair's becomes CURRENT at the next tick (R310). -/
def Za.modelPlaced (z : Za) (e s : Nat) : Za :=
  if (z.coming e s).any (fun a => a.state == .placing) ∧ z.enginesRun then z.modComing e s (fun a => { a with state := .ready }) else z

def execModelPlaced (entry : Fin 1024) (slot : Fin 16) (s : State) : Answer := .next (s.onZa (fun z => z.modelPlaced entry.val slot.val))

/-! ### Queries (R305, R381). -/

/-- A program run over rows outside a frame's batches: state is read and never written. -/
def Za.queryProgram (z : Za) (e : Nat) (s : Sec) (a : ModelArea) (plan : List (List W)) (rows : List FeatRow) : List (List W × Nat) :=
  let called := (a.secs s.slot).filter (fun x => x.kind == 1 && s.calls.contains x.idx)
  let b : Batch :=
    { cols := [], rows, state := rows.map (fun r => (z.progStateOf e s r.key (r.frame - 1)).1)
      calls := called.map (fun x => (x.idx, rows.map (fun r => (scoreRow x.words r.values).1))), out := [], ext := [], miss := [] }
  let b := (prgAll s.words).foldl (Batch.run a.image plan) b
  (List.range rows.length).map (fun i => ((b.out[i]?).getD (List.replicate s.outs 0), b.miss.getD i 0))

/-- The score records of a query. -/
def Za.queryScores (z : Za) (e : Nat) (s : Sec) (a : ModelArea) (plan : List (List W)) (rows : List FeatRow) : List W :=
  let base (r : FeatRow) : Score :=
    { index := s.score, entity := r.entity, tile := s.tile, key := r.key, frame := r.frame, status := if r.valid then 0 else 2, version := s.version
      unchecked := decide (z.quadrantsLeft ≤ 1), miss := 0, nan := 0, out := List.replicate s.outs 0 }
  let good := rows.filter (·.valid)
  let ran := if s.kind = 3 then z.queryProgram e s a plan good else []
  rows.flatMap (fun r =>
    let x : Score :=
      if !r.valid then base r
      else if s.kind = 1 then
        let y := scoreRow s.words r.values
        { base r with out := y.1, miss := y.2.1, nan := y.2.2 }
      else match firstIdx good (fun q => q.key == r.key) with
        | some i => { base r with out := (ran.getD i ([], 0)).1, miss := (ran.getD i ([], 0)).2, nan := (ran.getD i ([], 0)).1.countP isNaN32 }
        | none => base r
    x.words)

/-- MODEL_QUERY: it runs at the pin of the frame it names, or at the version now CURRENT. -/
def Za.modelQuery (z : Za) (h : HuskCmd) (handle : W) : ZaBody :=
  z.withCtx h (fun e c =>
    let p1 := huskP1 h
    let named := decide (bits p1 31 31 = 1)
    let slot := bits p1 7 4
    let idx := bits p1 3 0
    let f := z.frameOf (huskP0 h)
    let keys := huskPay h
    let area : Option ModelArea :=
      if named then
        ((c.views.find? (fun v => v.frame == f)).bind (fun v => v.pins.find? (fun (p : Nat × W × Nat × Bool) => p.1 == slot))).bind (fun p =>
          (z.areaOf e slot p.2.1 p.2.2.1).filter (fun a => a.state != .expelled))
      else ((z.slot? e slot).bind (·.cur)).filter (fun a => a.state == .current)
    let rowOf (t : Bool) (k : W) : Option FeatRow :=
      if named then (z.work? e f).bind (fun w => w.row? t k)
      else (((z.works.filter (fun w => w.entry == e)).filterMap (fun w => (w.row? t k).filter (·.valid)))).getLast?
    match area with
    | none => z.refuse (resultOf stModelGone)
    | some a =>
      match (a.secs slot).find? (fun s => s.idx == idx) with
      | none => z.refuse badP1
      | some s =>
        match firstIdx keys (fun k => bit k 26 != s.tile) with
        | some i => z.refuse (badPay h (4 * i))
        | none =>
          if s.kind = 3 ∧ prgPre s.words then z.refuse badP1
          else
            let rows := keys.map (rowOf s.tile)
            if rows.any (·.isNone) then (z.finish handle (resultOf stRowGone), none)
            else
              let plan := match (if named then z.work? e f else none) with
                | some w => w.view.featPlan s.tile
                | none => if s.tile then c.plans.tile else c.plans.die
              let r : Result := { okPayload (z.queryScores e s a plan (rows.filterMap id)) with result0 := s.version }
              (z.finish handle r, none))

/-! ### Replicas (R306 to R310). -/

/-- The digest that a pass over a copy yields. -/
def ModelArea.passDigest (a : ModelArea) : Nat := imageDigest ((bytesOf a.image).take a.imageLen)

/-- REPORT and VERDICT records (R308). -/
def replicaWords (kind slot : Nat) (c : Ctx) (agg outcome : Nat) (selfFail : Bool) (a : ModelArea) (frame value : Nat) : List W :=
  withCrc ([pack [(1, 31, 28), (kind, 27, 24), (slot, 23, 20), (c.id, 15, 0)],
    pack [(c.gen, 31, 24), (agg, 23, 12), (outcome, 11, 8), (b2n selfFail, 7, 7)], a.modelId, pack [(a.version, 31, 16)], w32 frame] ++
    twoWords value)

/-- A record of the right form. -/
def replicaForm (ws : List W) (kind : Nat) : Bool :=
  decide (wf ws 0 31 28 = 1 ∧ wf ws 0 27 24 = kind ∧ wf ws 0 19 16 = 0 ∧ wf ws 1 6 0 = 0 ∧ wf ws 3 15 0 = 0) && word ws 7 == crcWords (ws.take 7)
    && (if kind = 0 then decide (wf ws 1 11 8 = 0) else decide (wf ws 1 11 8 ≤ 2) && !bit (word ws 1) 7)

/-- The members of a slot's group, ascending rank: the unfenced hosts of the context; the first collects. -/
def Za.replicaGroup (z : Za) (v : CtxView) : List Nat :=
  (z.tree v).aggs.filter (fun a => !(z.tree v).fenced.contains a)

/-- A holder's verdict (R310). -/
def Za.applyVerdict (z : Za) (e s frame outcome : Nat) : Za :=
  match z.slot? e s, z.ctx? e, z.work? e frame with
  | some m, some c, some w =>
    match m.cur with
    | none => z
    | some a =>
      if !(w.withheld.any (fun (x : Nat × Nat) => x.1 == s && x.2 == 0)) then z
      else
        let expelled := outcome == 1 || (outcome == 2 && a.passDigest != a.digest)
        let rest := w.withheld.filter (fun (x : Nat × Nat) => x.1 != s)
        if expelled then
          let first := if m.agree = 0 then a.since else m.agree + 1
          let z := z.modWork e frame (fun x => { x with withheld := rest ++ [(s, 1)] })
          let z := z.modSlot e s (fun m => { m with cur := m.cur.map (fun a => { a with state := .expelled }) })
          (z.count (.ten .expulsions e)).raiseCtx .modelExpelled .context e .none c s
            (packNat [(frame % 65536, 31, 16), (max first a.since % 65536, 15, 0)])
        else
          let z := z.modWork e frame (fun x => { x with withheld := rest })
          if outcome = 0 then z.modSlot e s (fun m => { m with agree := frame }) else z
  | _, _, _ => z

/-- The collector decides (R309): the value of more than half of the reports governs. Every member of the group has a verdict; one
that has not reported differs from nothing. -/
def Za.decideReplica (z : Za) (r : Replica) : Za :=
  let z : Za := { z with replicas := z.replicas.filter (fun x => !(x.entry == r.entry && x.slot == r.slot && x.frame == r.frame)) }
  match z.ctx? r.entry, (z.slot? r.entry r.slot).bind (·.cur) with
  | some c, some a =>
    let n := r.reports.length
    let govern := (r.reports.map (fun x => x.2.1)).find? (fun v => decide (n < 2 * (r.reports.countP (fun x => x.2.1 == v))))
    let z := if govern.isNone then (z.count (.ten .noMajority r.entry)).raiseCtx .modelSplit .context r.entry .none c 0 0 else z
    let group := ((c.views.find? (fun v => v.frame == r.frame)).map z.replicaGroup).getD []
    let silent := (group.filter (fun m => r.reports.all (fun x => x.1 != m))).map (fun m => (m, govern.getD 0, false))
    (r.reports ++ silent).foldl (fun z x =>
      let outcome := match govern with
        | none => 2
        | some v => if x.2.1 ≠ v ∨ x.2.2 then 1 else 0
      if x.1 = z.aggId then z.applyVerdict r.entry r.slot r.frame outcome
      else
        let ws := replicaWords 1 r.slot c z.aggId outcome false a r.frame (govern.getD 0)
        z.toAgg x.1 clsPeer 0x10 c.id c.gen 32 ws) z
  | _, _ => z

/-- A report joins what the collector holds; with every member's the group is decided. -/
def Za.takeReport (z : Za) (e s frame agg value : Nat) (selfFail : Bool) : Za :=
  match z.ctx? e with
  | none => z
  | some c =>
    match c.views.find? (fun v => v.frame == frame) with
    | none => z
    | some v =>
      let group := z.replicaGroup v
      let same (x : Replica) : Bool := x.entry == e && x.slot == s && x.frame == frame
      let old : Replica := (z.replicas.find? same).getD { entry := e, slot := s, frame, begun := z.time.begun, reports := [] }
      if !group.contains agg ∨ old.reports.any (fun x => x.1 == agg) then z
      else
        let r : Replica := { old with reports := old.reports ++ [(agg, value, selfFail)] }
        let z : Za := { z with replicas := z.replicas.filter (fun x => !same x) ++ [r] }
        if group.all (fun a => r.reports.any (fun x => x.1 == a)) then z.decideReplica r else z

/-- REPLICA_REPORT. -/
def Za.replicaReport (z : Za) (ws : List W) : Za :=
  match z.entryOf (wf ws 0 15 0) (wf ws 1 31 24) with
  | none => z
  | some e =>
    let s := wf ws 0 23 20
    let frame := z.frameOf (word ws 4).toNat
    let holds := ((z.slot? e s).bind (·.cur)).any (fun a => a.modelId == word ws 2 && a.version == wf ws 3 31 16)
    if replicaForm ws 0 ∧ holds ∧ frame % 64 = 0 ∧ (z.work e).any (fun w => w.frame == frame) ∧ z.nowNs % 2 ^ 20 < trayDeadlineNs ∧
        z.enginesRun then
      z.takeReport e s frame (wf ws 1 23 12) (dword ws 5) (bit (word ws 1) 7)
    else z

/-- The link a frame comes in by where its row names none: the one its destination names (R339). -/
def frameLink (f : Frame) : Nat := bits f.dest.toNat 19 12

/-- A REPLICA record of the group. -/
def Za.replicaFrame (z : Za) (f : Frame) (g : Za → List W → Za) : Za :=
  let p := frameLink f
  let r := z.receive p f
  if r.2 ∧ f.cls = 7 ∧ f.msg = 0x10 ∧ f.plen.toNat = 32 then g r.1 (f.body.take 8) else r.1

def execReplicaReport (frame : Frame) (s : State) : Answer := .next (s.onZa (fun z => z.replicaFrame frame Za.replicaReport))

/-- REPLICA_COLLECT_TIMEOUT: at 917,504 ns of the work frame the members heard decide. -/
def Za.replicaTimeout (z : Za) (e s : Nat) : Za :=
  match z.replicas.find? (fun r => r.entry == e && r.slot == s) with
  | some r => if z.dueAt trayDeadlineNs ∧ z.enginesRun then (z.untilNs trayDeadlineNs).decideReplica r else z
  | none => z

def execReplicaCollectTimeout (entry : Fin 1024) (slot : Fin 16) (s : State) : Answer :=
  .next (s.onZa (fun z => z.replicaTimeout entry.val slot.val))

/-- REPLICA_VERDICT. -/
def Za.replicaVerdict (z : Za) (ws : List W) : Za :=
  match z.entryOf (wf ws 0 15 0) (wf ws 1 31 24) with
  | none => z
  | some e =>
    let s := wf ws 0 23 20
    let holds := ((z.slot? e s).bind (·.cur)).any (fun a => a.modelId == word ws 2 && a.version == wf ws 3 31 16)
    if replicaForm ws 1 ∧ holds ∧ z.enginesRun then z.applyVerdict e s (z.frameOf (word ws 4).toNat) (wf ws 1 11 8) else z

def execReplicaVerdict (frame : Frame) (s : State) : Answer := .next (s.onZa (fun z => z.replicaFrame frame Za.replicaVerdict))

/-- A holder whose pass is complete reports, at the tick of the work frame after a comparison frame (R307). -/
def Za.reportReplica (z : Za) (e : Nat) (c : Ctx) (v : CtxView) (m : ModelSlot) : Za :=
  match m.cur with
  | none => z
  | some a =>
    if v.frame % 64 ≠ 0 ∨ a.state ≠ .current ∨ m.passDone ≠ some a.version then z
    else
      let value := a.passDigest
      let bad := value != a.digest
      let z := (z.modWork e v.frame (fun w => { w with withheld := w.withheld ++ [(m.slot, 0)] })).count (.ten .comparisons e)
      match (z.replicaGroup v).head? with
      | none => z
      | some k =>
        if k = z.aggId then z.takeReport e m.slot v.frame z.aggId value bad
        else z.toAgg k clsPeer 0x10 c.id c.gen 32 (replicaWords 0 m.slot c z.aggId 0 bad a v.frame value)

/-- An expelled copy is fetched again from the next tick on (R310), once no load is coming into the slot's other area. -/
def Za.startRepair (z : Za) (e s : Nat) : Za :=
  match z.ctx? e, (z.slot? e s).bind (·.cur) with
  | some c, some a =>
    if a.state ≠ .expelled ∨ (z.slot? e s).any (fun m => m.oth.any (fun o => o.state != .ready && o.state != .retiring)) then z
    else
      let fetch : ModelFetch := { fetchId := 0, source := .software, left := z.imageSources c [], offered := false, gaps := 0 }
      let a : ModelArea := { a with state := .repairing, image := [], fetch := some fetch, handle := 0, nodePages := 0, spilled := [], tiles := [] }
      (z.modSlot e s (fun m => { m with cur := some a })).nextImageSource e s
  | _, _ => z

end Sys2Proof.Machine
end

