-- ==== Sys2Proof/Machine/ZaBulk.lean ====
section
/-!
DEFINITION. BULK frames as a ZA40 takes them: digest records judged, health and fault records tallied, everything queued in
FORWARD (R141, R246, R327, R363, R394, R396, R398).
-/
namespace Sys2Proof.Machine

/-- A note goes to the works of its data frame, or waits for a frame whose work has not begun. -/
def Za.note (z : Za) (n : Note) : Za :=
  let works := z.works.map (fun (w : FrameWork) => if w.abandoned then w else w.note n)
  let notes := if z.frameNow ≤ n.frame then z.notes ++ [n] else z.notes
  { z with works, notes }

/-- The aggregator's result for a digest record (R141), and the context table's entry. -/
def digestResult (c : Ctx) (frame : Nat) (ws : List W) : NoteKind :=
  let version := wf ws 1 15 0
  if wf ws 2 21 20 ≠ 0 then .framing
  else if !c.versionValid version frame then .invalid
  else match aGet (aGetD c.tables version []) (wf ws 0 21 0) with
    | none => .unchecked
    | some x =>
      if bit (word x 2) 31 then
        if dword x 0 = dword ws 5 ∧ wf x 2 30 29 = wf ws 0 27 26 ∧ wf x 2 22 0 = wf ws 4 22 0 then .matched else .mismatch
      else .unchecked

/-- A digest record of a die: judged, noted, and its block remembered for the die's cache (R141, R327). -/
def Za.digestRecord (z : Za) (die : Nat) (ws : List W) : Za :=
  let id := wf ws 1 31 16
  let gen := wf ws 2 31 24
  if word ws 7 ≠ crcWords (ws.take 7) ∨ wf ws 2 19 0 ≠ die then z
  else match (z.entryOf id gen).bind z.ctx? with
    | none => z
    | some c =>
      let frame := z.frameOf (word ws 3).toNat
      let r := digestResult c frame ws
      let z := z.note { die, frame, ctx := some (id, gen), kind := r }
      let block := wf ws 0 21 0
      let slot := ((z.die? die).bind (fun d => d.slotOf id gen frame)).map (·.slot)
      match slot with
      | none => z
      | some k =>
        let mine (x : Nat × List W × Nat) : Bool :=
          wf x.2.1 2 28 26 == k && wf x.2.1 2 21 0 == block && wf x.2.1 3 31 16 == wf ws 1 15 0
        let now := z.time.begun
        z.modDie die (fun d => { d with
          blocks := if r = .framing then d.blocks
            else d.blocks.filter (fun (b : Nat × Nat × Nat) => !(b.1 == k && b.2.1 == block)) ++ [(k, block, now)]
          cache := if r = .matched then modWhere d.cache mine (fun x => (x.1, x.2.1, now)) else d.cache })

/-- A health record of a die (R246). -/
def Za.healthRecord (z : Za) (die : Nat) (ws : List W) : Za :=
  if word ws 7 ≠ crcWords (ws.take 7) ∨ wf ws 0 19 0 ≠ die then z
  else
    let t := wf ws 2 31 16
    z.note { die, frame := z.frameOf (word ws 1).toNat, ctx := none, kind := .health (if t = 0x8000 then none else some (ofTwos 16 t)) }

/-- LEDGER of UL_CREDIT from a die (R403): the second within 64 frames makes the tray command its link reset. -/
def Za.creditLedger (z : Za) (die : Nat) (ws : List W) (m : BitVec 128) : Za :=
  if wf ws 7 23 23 = 1 ∧ msgKind m = FaultKind.ledger.code ∧ msgDetail m / 2 ^ 24 = Quantity.ulCredit.code then
    let seen := z.fences.ledgers.any (fun (l : Quantity × Nat × Nat) => l.1 == .ulCredit && l.2.1 == die && decide (z.time.begun < l.2.2 + 64))
    let rest := z.fences.ledgers.filter (fun (l : Quantity × Nat × Nat) => !(l.1 == .ulCredit && l.2.1 == die))
    if seen ∨ 2 ≤ wf ws 7 31 24 then
      let z : Za := { z with fences := { z.fences with ledgers := rest } }
      let p := ((z.die? die).map (·.link)).getD 0
      let vc := msgDetail m / 2 ^ 16 % 256
      let z := z.relay die .linkResetCmd (ownHusk die 0 0 [] 0xFFFF0000) 0 false
      z.raise .dtuLinkLedger .link p .audit die (packNat [(Quantity.ulCredit.code, 31, 24), (vc, 23, 16)]) [0, 0, 0, 0, pack [(vc, 31, 16)]]
    else { z with fences := { z.fences with ledgers := rest ++ [(.ulCredit, die, z.time.begun)] } }
  else z

/-- A fault record of a die (R394, R396, R398): logged, noted, and from DEGRADED on sent to the Region Manager. -/
def Za.dieFault (z : Za) (die : Nat) (ws : List W) : Za :=
  let m : BitVec 128 := BitVec.ofNat 128 (dword ws 0 * 2 ^ 64 + dword ws 2)
  let z := (z.logFault ws []).creditLedger die ws m
  let z := z.note { die, frame := dword ws 4 / 2 ^ 20, ctx := none, kind := .fault }
  let z := if wf ws 7 23 23 = 0 ∧ !hostMsgWf m die then z.raise .hostMalformed .dtu 0 .none die 0 else z
  if 2 ≤ msgSeverity m ∧ !z.rack.units.isEmpty ∧ z.rmId ≠ z.aggId then z.toAgg z.rmId clsBulk 0x04 0xFFFF 0 32 ws else z

/-- What a BULK frame of a die tells the tray. -/
def Za.bulkRecords (z : Za) (die : Nat) (f : Frame) : Za :=
  match f.msg.toNat with
  | 2 => ((List.range (f.plen.toNat / 32)).map (fun i => (f.body.drop (8 * i)).take 8)).foldl (fun z ws => z.digestRecord die ws) z
  | 3 => z.healthRecord die (f.body.take 8)
  | 4 => z.dieFault die (f.body.take 8)
  | _ => z

/-- The wrapper of a TRACE frame holds its hdr_crc, the CRC-32C of its first 28 bytes (R126, R127). -/
def traceSound (f : Frame) : Bool := word f.body 7 == crcWords (f.body.take 7)

/-- A BULK frame is dropped at the fills of R363: the counter it goes to. -/
def Za.bulkDrop (z : Za) (p : Nat) (die : Option Nat) (f : Frame) : Option LinkCnt :=
  if z.forward.full ∨ (z.forward.hold ∧ z.agreed p die < 0x32) then some .fwdBulkDrop
  else if z.forward.traceDrop ∧ f.msg = 1 then some .fwdTraceDrop else none

/-- BULK_FRAME (R363). DESIGN CHOICE (log entry 193): a TRACE frame whose hdr_crc fails is counted and goes no further. -/
def Za.bulkFrame (z : Za) (p : Nat) (f : Frame) : Za :=
  let r := z.receive p f
  if !r.2 ∨ f.cls ≠ 5 ∨ !r.1.running then r.1
  else
    let z := r.1
    let die := z.fromDie p f
    if f.msg = 1 ∧ !traceSound f then z.count (.misc .traceBadHdr)
    else match z.bulkDrop p die f with
    | some .fwdTraceDrop => z.count (.link .fwdTraceDrop p (die.getD 0))
    | some c => z.count (.link c p 0)
    | none =>
      let z := match die with
        | some d => z.bulkRecords d f
        | none => z
      z.forwardPut { rank := bulkRank f.msg.toNat, die := die.getD 0, ctx := f.ctx.toNat, gen := f.gen.toNat,
                     words := f.body, plen := f.plen.toNat }

def execBulkFrame (link : Fin 82) (frame : Frame) (s : State) : Answer := .next (s.onZa (·.bulkFrame link.val frame))

end Sys2Proof.Machine
end

