-- ==== Sys2Proof/Machine/Seedbank.lean ====
section
/-!
DEFINITION. The Seedbank: the mirror a ZA40 sends, the mirror it holds, and restores from it (R329 to R335).
-/
namespace Sys2Proof.Machine

/-! ### Items as words (R331). -/

/-- The words of an item, or of its header alone. -/
def SeedItem.header (i : SeedItem) : List W :=
  [pack [(i.cls, 31, 28), (i.index, 27, 20), (i.ctx, 15, 0)], pack [(i.gen, 31, 24), (4 * i.data.length, 15, 0)], i.key,
    pack [(b2n i.delete, 31, 31)]]

def SeedItem.words (i : SeedItem) : List W := i.header ++ pad16 i.data

def SeedName.item (n : SeedName) : SeedItem :=
  { cls := n.cls, index := n.index, ctx := n.ctx, gen := n.gen, key := n.key, delete := false, data := [] }

/-- The items that words spell, at most `fuel` of them; `bare` headers carry no data. -/
def parseItems (bare : Bool) : Nat → List W → List SeedItem
  | 0, _ => []
  | n + 1, ws =>
    if ws.length < 4 then []
    else
      let len := if bare then 0 else wf ws 1 15 0 / 4
      let i : SeedItem :=
        { cls := wf ws 0 31 28, index := wf ws 0 27 20, ctx := wf ws 0 15 0, gen := wf ws 1 31 24, key := word ws 2
          delete := bit (word ws 3) 31, data := (ws.drop 4).take len }
      i :: parseItems bare n (ws.drop (4 + (len + 3) / 4 * 4))

/-! ### Messages (R331). -/

/-- A Seedbank message: kind, data frame, place, items, digest. -/
def Za.seedMsg (z : Za) (dst kind frame seq n : Nat) (body : List W) (digest : Nat) : Za :=
  let hdr := [pack [(1, 31, 28), (kind, 27, 24), (z.aggId, 23, 12)], w32 frame, w32 seq, pack [(n, 31, 16)]] ++ twoWords digest ++ [0]
  let ws := hdr ++ [crcWords (hdr ++ body)] ++ body
  z.toAgg dst clsPeer 0x20 0xFFFF 0 (4 * ws.length) ws

/-- Items cut into messages of at most 9,152 bytes; one that is larger goes alone (log entry 122). -/
def seedParts (items : List SeedItem) : List (List SeedItem) :=
  let p := items.foldl (fun (acc : List (List SeedItem) × List SeedItem × Nat) i =>
    let n := i.words.length
    if acc.2.1 ≠ [] ∧ 2288 < acc.2.2 + n then (acc.1 ++ [acc.2.1], [i], n) else (acc.1, acc.2.1 ++ [i], acc.2.2 + n)) ([], [], 0)
  if p.2.1 = [] then p.1 else p.1 ++ [p.2.1]

/-- The digest of an update: the leaves are the DELTAs' items in order. -/
def seedDigest (parts : List (List SeedItem)) : Nat := digestOf (parts.map (fun p => crc64xz (bytesOf (p.flatMap SeedItem.words))))

/-- Messages of one kind that carry items. -/
def Za.seedSend (z : Za) (dst kind frame : Nat) (parts : List (List SeedItem)) : Za :=
  ((List.range parts.length).zip parts).foldl (fun z (p : Nat × List SeedItem) =>
    z.seedMsg dst kind frame p.1 p.2.length (p.2.flatMap SeedItem.words) 0) z

/-- A Seedbank message that has arrived sound, and the link's view of it. -/
def Za.seedFrame (z : Za) (f : Frame) (g : Za → List W → Za) : Za :=
  let r := z.receive (frameLink f) f
  let n := f.plen.toNat / 4
  let ws := f.body.take n
  let sound := decide (8 ≤ n ∧ wf ws 0 31 28 = 1 ∧ word ws 7 = crcWords (ws.take 7 ++ ws.drop 8))
  if r.2 ∧ f.cls = 7 ∧ f.msg = 0x20 ∧ sound ∧ r.1.running then g r.1 ws else r.1

def sKind (ws : List W) : Nat := wf ws 0 27 24
def sFrom (ws : List W) : Nat := wf ws 0 23 12
def sItems (bare : Bool) (ws : List W) : List SeedItem := parseItems bare (wf ws 3 31 16) (ws.drop 8)

/-! ### The primary (R329, R332 to R334). -/

/-- The rack of an aggregator as far as this ZA40 knows it. -/
def Za.sameRack (z : Za) (agg : Nat) : Bool :=
  agg == z.aggId || z.rack.units.any (fun u => u.agg == agg) ||
    (z.upLinks 2).any (fun p => (z.link p).peerAgg == agg && (z.link p).peerRack == z.rackId)

/-- SEED_PAIR (R329, R333). -/
def Za.seedPair (z : Za) (h : HuskCmd) (handle : W) : ZaBody :=
  let a := huskP0 h
  if 4095 < a then z.refuse badP0
  else if z.sameRack a then z.refuse (resultOf stSeedbankDomain)
  else
    let s : SeedPrimary :=
      { partner := a, valid := false, resync := true, resyncEnd := none, handle, dirty := [], flight := [], due := [], lastDone := z.frameNow,
        committed := z.frameNow, lastAck := z.time.begun, lagSaid := false, mirror := [] }
    let old := (z.seed.map (·.handle)).getD 0
    (({ z with seed := some s }).finish old (resultOf stCancelled), none)

/-- SEED_RESYNC (R333): RESYNC_BEGIN, every item, RESYNC_END. -/
def Za.seedResync (z : Za) : Za :=
  match z.seed with
  | none => z
  | some s =>
    if !s.resync ∨ !z.running then z
    else
      let f := s.lastDone
      let items := z.seedItems
      let parts := seedParts items
      let z := z.seedMsg s.partner 4 f 0 0 [] 0
      let z := z.seedSend s.partner 0 f parts
      let z := z.seedMsg s.partner 5 f parts.length 0 [] 0
      { z with seed := some { s with resync := false, resyncEnd := some f, mirror := items, dirty := [], due := [] } }

def execSeedResync (s : State) : Answer := .next (s.onZa Za.seedResync)

/-- The items that differ from what was last sent, the ones that are no more as deletions, and the dirty ones. -/
def SeedPrimary.dirtyItems (s : SeedPrimary) (now : List SeedItem) : List SeedItem :=
  let changed := now.filter (fun i => !s.mirror.contains i || s.dirty.contains i.name)
  let gone := (s.mirror.map SeedItem.name ++ s.dirty).eraseDups.filter (fun n => !now.any (fun i => i.name == n))
  changed ++ gone.map (fun n => { n.item with delete := true })

/-- SEED_UPDATE_SEND (R332): the oldest data frame whose detectors have completed, every dirty item at its state after that frame; three
frames on it is abandoned. -/
def Za.seedUpdate (z : Za) : Za :=
  match z.seed with
  | none => z
  | some s => match s.due with
    | [] => z
    | (n, now) :: rest =>
      if s.resync ∨ !z.enginesRun then z
      else
        let items := s.dirtyItems now
        let names := items.map SeedItem.name
        if 3 ≤ z.time.begunFrom n z.frameNow then
          { z with seed := some { s with due := rest, dirty := (s.dirty ++ names).eraseDups, mirror := now } }.count (.det .seedAbandoned 0)
        else
          let parts := seedParts items
          let z := z.seedSend s.partner 0 n parts
          let z := z.seedMsg s.partner 1 n parts.length 0 [] (seedDigest parts)
          let z := (z.count (.det .seedUpdates 0)).count (.det .seedItems 0) items.length
          { z with seed := some { s with due := rest, dirty := names, mirror := now, flight := s.flight ++ [(n, items)] } }

def execSeedUpdateSend (s : State) : Answer := .next (s.onZa Za.seedUpdate)

/-- SEED_ACK (R332, R333). -/
def Za.seedAck (z : Za) (ws : List W) : Za :=
  match z.seed with
  | none => z
  | some s =>
    if sFrom ws ≠ s.partner ∨ sKind ws ≠ 2 then z
    else
      let n := z.frameOf (word ws 1).toNat
      let sent := (s.flight.filter (fun (p : Nat × List SeedItem) => p.1 == n)).flatMap Prod.snd
      let now := z.seedItems
      let kept (i : SeedItem) : Bool := if i.delete then !now.any (fun x => x.name == i.name) else now.contains i
      let clean := (sent.filter kept).map SeedItem.name
      let done := s.resyncEnd.isSome && !s.valid
      let z := if done then z.finish s.handle (resultOf stOk) else z
      let s : SeedPrimary := { s with
        committed := max s.committed n, lastAck := z.time.begun, flight := s.flight.filter (fun (p : Nat × List SeedItem) => p.1 != n)
        dirty := s.dirty.filter (fun x => !clean.contains x), valid := s.valid || s.resyncEnd.isSome, resyncEnd := none
        handle := if done then 0 else s.handle }
      ({ z with seed := some s }).count (.det .seedAcks 0)

def execSeedAck (frame : Frame) (s : State) : Answer := .next (s.onZa (fun z => z.seedFrame frame Za.seedAck))

/-- The base of a rebuild is awaited from the partner (R419). -/
def Rebuild.baseOpen (rb : Rebuild) : Bool := rb.phase == 1 && rb.baseKind == 0

/-- The rebuild from the partner stops, its items are discarded, and the last complete checkpoint is asked for (R419): our own, when
we are the Region Manager. -/
def Za.baseFromRm (z : Za) : Za :=
  match z.rebuild with
  | none => z
  | some rb =>
    let rb : Rebuild := { rb with phase := 2, items := [], baseKind := 0 }
    let z : Za := { z with rebuild := some rb }
    if z.rack.units.isEmpty then z
    else if z.isRm then
      match (z.rack.held.filter (fun c => c.agg == rb.failed && c.complete)).getLast? with
      | some c =>
        let items := (List.range c.parts.length).map (fun i => (i, parseItems false 65536 (aGetD c.parts i [])))
        { z with rebuild := some { rb with items, baseKind := 2, base := c.frame } }
      | none => z
    else z.commandTo z.rmId .ckptGet 0 rb.failed 0 []

/-- SEED_NACK (R332, R334). An empty one for no update of ours, before the mirror is valid, says that the partner holds another
primary's mirror (log entry 124). -/
def Za.seedNack (z : Za) (ws : List W) : Za :=
  if sKind ws = 3 ∧ z.rebuild.any (fun rb => rb.baseOpen && rb.partner == sFrom ws) then z.baseFromRm
  else match z.seed with
  | none => z
  | some s =>
    if sFrom ws ≠ s.partner ∨ sKind ws ≠ 3 then z
    else
      let z := z.count (.det .seedNacks 0)
      let n := z.frameOf (word ws 1).toNat
      let items := sItems true ws
      if items = [] ∧ !s.valid ∧ !(s.flight.any (fun (p : Nat × List SeedItem) => p.1 == n)) then
        { z with seed := none }.finish s.handle (resultOf stSeedbankBusy)
      else
        let lost := if items = [] then ((s.flight.filter (fun (p : Nat × List SeedItem) => p.1 == n)).flatMap Prod.snd).map SeedItem.name
          else items.map SeedItem.name
        { z with seed := some { s with
            dirty := (s.dirty ++ lost).eraseDups, flight := s.flight.filter (fun (p : Nat × List SeedItem) => p.1 != n) } }

def execSeedNack (frame : Frame) (s : State) : Answer := .next (s.onZa (fun z => z.seedFrame frame Za.seedNack))

/-- SEEDBANK_LOST (R333): 64 frames have passed without an ACK. -/
def Za.seedLost (z : Za) : Za :=
  match z.seed with
  | none => z
  | some s =>
    if s.lastAck + 64 ≤ z.time.begun ∧ z.running then
      (({ z with seed := none }).raise .seedbankLost .za40 z.aggId .none 0 0).finish s.handle (resultOf stTargetTimeout)
    else z

def execSeedbankLost (s : State) : Answer := .next (s.onZa Za.seedLost)

/-- A lag above 8 is reported once per run (R333). -/
def Za.seedLagCheck (z : Za) : Za :=
  match z.seed with
  | none => z
  | some s =>
    if 8 < z.seedLag ∧ !s.lagSaid then
      { z with seed := some { s with lagSaid := true } }.raise .seedbankLag .za40 z.aggId .none 0 0
    else if z.seedLag ≤ 8 then { z with seed := some { s with lagSaid := false } } else z

/-! ### The partner (R332 to R334). -/

/-- Items with an update applied at once. -/
def applyItems (held : List SeedItem) (new : List SeedItem) : List SeedItem :=
  held.filter (fun i => !new.any (fun x => x.name == i.name)) ++ new.filter (fun i => !i.delete)

/-- The stage in msg_seq order, when its messages are 0 to n - 1. -/
def SeedHeld.staged (h : SeedHeld) (n : Nat) : Option (List (List SeedItem)) :=
  let parts := (List.range n).filterMap (fun i => aGet h.stage i)
  if h.stage.length = n ∧ parts.length = n then some parts else none

/-- SEED_DELTA (R332, R333): DELTA is staged; RESYNC_BEGIN starts a mirror afresh, RESYNC_END applies what came since. -/
def Za.seedDelta (z : Za) (ws : List W) : Za :=
  let a := sFrom ws
  let n := z.frameOf (word ws 1).toNat
  match sKind ws with
  | 4 =>
    let busy := z.seedHeld.any (fun h => h.primary != a && !h.read)
    if busy then z.seedMsg a 3 n 0 0 [] 0
    else { z with seedHeld := some { primary := a, committed := 0, items := [], damaged := [], stage := [], stageFrame := n,
                                     resync := true, read := false } }
  | 0 =>
    { z with seedHeld := z.seedHeld.map (fun h =>
        if h.primary ≠ a then h
        else
          let before := if h.stageFrame = n ∨ h.resync then h.stage else []
          { h with stageFrame := n, stage := aPut before (word ws 2).toNat (sItems false ws) }) }
  | 5 =>
    { z with seedHeld := z.seedHeld.map (fun h =>
        if h.primary ≠ a ∨ !h.resync then h
        else { h with items := applyItems h.items (h.stage.flatMap Prod.snd), stage := [], resync := false, committed := n }) }
  | _ => z

def execSeedDelta (frame : Frame) (s : State) : Answer := .next (s.onZa (fun z => z.seedFrame frame Za.seedDelta))

/-- A COMMIT ends a RESTORE_DATA set that a rebuild has asked for (R419): its count and digest must match. -/
def Za.rebuildCommit (z : Za) (ws : List W) (rb : Rebuild) : Za :=
  let n := (word ws 2).toNat
  let parts := (List.range n).filterMap (fun i => aGet rb.items i)
  if rb.items.length = n ∧ parts.length = n ∧ seedDigest parts = dword ws 4 then
    { z with rebuild := some { rb with baseKind := 1, base := z.frameOf (word ws 1).toNat } }
  else z.baseFromRm

/-- SEED_COMMIT (R332). -/
def Za.seedCommit (z : Za) (ws : List W) : Za :=
  let a := sFrom ws
  let n := z.frameOf (word ws 1).toNat
  if sKind ws ≠ 1 then z
  else match z.rebuild.filter (fun rb => rb.baseOpen && rb.partner == a) with
    | some rb => z.rebuildCommit ws rb
    | none =>
      match z.seedHeld.filter (fun h => h.primary == a) with
      | none => z
      | some h =>
        let count := (word ws 2).toNat
        match h.staged count with
        | some parts =>
          if seedDigest parts = dword ws 4 ∧ (count = 0 ∨ h.stageFrame = n) then
            let new := parts.flatten
            let h : SeedHeld := { h with
              items := applyItems h.items new, committed := n, stage := []
              damaged := h.damaged.filter (fun d => !new.any (fun i => i.name == d)) }
            { z with seedHeld := some h }.seedMsg a 2 n 0 0 [] 0
          else { z with seedHeld := some { h with stage := [] } }.seedMsg a 3 n 0 0 [] 0
        | none => { z with seedHeld := some { h with stage := [] } }.seedMsg a 3 n 0 0 [] 0

def execSeedCommit (frame : Frame) (s : State) : Answer := .next (s.onZa (fun z => z.seedFrame frame Za.seedCommit))

/-- An item held is found damaged (R189, R334): the primary is told. -/
def Za.seedDamage (z : Za) (n : SeedName) : Za :=
  match z.seedHeld with
  | none => z
  | some h =>
    let z : Za := { z with seedHeld := some { h with damaged := (h.damaged ++ [n]).eraseDups } }
    z.seedMsg h.primary 3 h.committed 0 1 n.item.header 0

/-! ### Restoring (R335, R419). -/

/-- Records are asked back from the partner; unpaired, they restart with nobody asked. -/
def Za.askRestore (z : Za) (names : List SeedName) : Za :=
  let z : Za := { z with restores := z.restores ++ [{ names, begun := z.time.begun }] }
  match z.seed with
  | some s => z.seedMsg s.partner 6 z.frameNow 0 names.length (names.flatMap (fun n => n.item.header)) 0
  | none => z

/-- RESTORE_REQ: the items named as committed; none named asks for all of them, with a COMMIT (R419). -/
def Za.restoreReq (z : Za) (ws : List W) : Za :=
  if sKind ws ≠ 6 then z
  else match z.seedHeld with
    | none => z
    | some h =>
      let a := sFrom ws
      let names := (sItems true ws).map SeedItem.name
      let sound := h.items.filter (fun i => !h.damaged.contains i.name)
      if names = [] then
        let parts := seedParts sound
        let z := z.seedSend a 7 h.committed parts
        let z := z.seedMsg a 1 h.committed parts.length 0 [] (seedDigest parts)
        { z with seedHeld := some { h with read := true } }
      else if a = h.primary then z.seedSend a 7 h.committed (seedParts (sound.filter (fun i => names.contains i.name))) else z

def execRestoreReq (frame : Frame) (s : State) : Answer := .next (s.onZa (fun z => z.seedFrame frame Za.restoreReq))

/-- One item put back into its record; a live detector whose state is not the one last posted says so. -/
def Za.restoreItem (z : Za) (live : Bool) (i : SeedItem) : Za :=
  match z.entryOf i.ctx i.gen with
  | none => z
  | some e => match z.ctx? e, i.cls with
    | some c, 3 =>
      let old := z.detRecs.find? (fun r => r.entry == e && r.det == i.index && r.key == i.key)
      let r := detRecOf e i.index i.key (z.frameOf (word i.data 5).toNat) i.data
      let posted := (old.map (·.posted)).getD 0
      let z := z.count (.det .restores e)
      let d := detDesc c.plans.det i.index
      let z := if r.state.code = posted ∨ !live then z
        else z.postVerdict e c i.key r.state.code (detAction d)
          (verdictWords c z.frameNow d r r.state.code posted (2 ^ 7) 0 0 0xFFFFFFFF 0xFFFFFFFF)
      z.putRec { r with posted := r.state.code }
    | some _, 4 =>
      let p : ProgState := { entry := e, score := i.index, key := i.key, lastFrame := z.frameOf (word i.data 1).toNat
                             layout := wf i.data 2 31 16, words := i.data.drop 4 }
      { z with progState := z.progState.filter (fun q => !(q.entry == e && q.score == i.index && q.key == i.key)) ++ [p] }
    | _, _ => z

/-- RESTORE_DATA: what a restore asked for, or part of a rebuild's base. -/
def Za.restoreData (z : Za) (ws : List W) : Za :=
  if sKind ws ≠ 7 then z
  else
    let a := sFrom ws
    let items := sItems false ws
    match z.rebuild.filter (fun rb => rb.baseOpen && rb.partner == a) with
    | some rb =>
      let fresh := (aGet rb.items (word ws 2).toNat).isNone
      { z with rebuild := some { rb with items := aPut rb.items (word ws 2).toNat items, idle := if fresh then 0 else rb.idle } }
    | none =>
      let asked := if z.seed.any (fun s => s.partner == a) then z.restores.flatMap (·.names) else []
      let mine := items.filter (fun i => asked.contains i.name)
      let got := mine.map SeedItem.name
      let left := z.restores.map (fun r => { r with names := r.names.filter (fun n => !got.contains n) })
      let z : Za := { z with restores := left.filter (fun r => r.names != []) }
      mine.foldl (fun z i => z.restoreItem true i) z

def execRestoreData (frame : Frame) (s : State) : Answer := .next (s.onZa (fun z => z.seedFrame frame Za.restoreData))

/-- Items still unanswered at the tick that ends their work frame restart with cause RESTORED (R335). -/
def Za.restoreExpire (z : Za) : Za :=
  let late := z.restores.filter (fun r => decide (r.begun < z.time.begun))
  let z : Za := { z with restores := z.restores.filter (fun r => !decide (r.begun < z.time.begun)) }
  (late.flatMap (·.names)).foldl (fun z n =>
    match (z.entryOf n.ctx n.gen).bind (fun e => (z.ctx? e).map (fun c => (e, c))) with
    | none => z
    | some p =>
      let z := z.count (.det .stateReset p.1)
      if n.cls = 3 then
        match z.detRecs.find? (fun r => r.entry == p.1 && r.det == n.index && r.key == n.key) with
        | none => z
        | some r =>
          let q := z.restartRec p.1 p.2 z.frameNow 7 (detDesc p.2.plans.det n.index) r true
          q.1.putRec q.2
      else { z with progState := z.progState.filter (fun q => !(q.entry == p.1 && q.score == n.index && q.key == n.key)) }) z

end Sys2Proof.Machine
end

