-- ==== Sys2Proof/Machine/Rack.lean ====
section
/-!
DEFINITION. Hails and liveness, Region Managers, fence commands, readmission, claims and checkpoints (R400 to R417, R422, R444).
-/
namespace Sys2Proof.Machine

/-! ### Hails (R408, R409). -/

/-- Some unit of this ZA40 is fenced. -/
def Za.someFenced (z : Za) : Bool :=
  let f := z.fences
  !(f.lanes.isEmpty && f.tiles.isEmpty && f.channels.isEmpty && f.quadrants.isEmpty && f.cores.isEmpty && f.links.isEmpty)

/-- The Hail of this ZA40 for a frame: its hottest quadrant, and the spine rail as the row reads it. -/
def Za.hailWords (z : Za) (frame : Nat) (vcore : BitVec 16) : List W :=
  let hot := (z.power.temps.take 4).foldl max 0
  [pack [(1, 31, 28), (2, 27, 24), (z.time.state.code, 23, 22), (b2n (z.frost.state == 2), 21, 21), (b2n z.someFenced, 20, 20),
      (z.hailSeq.toNat, 15, 0)], pack [(z.rackId, 23, 12), (z.aggId, 11, 0)], w32 frame, pack [(16 * hot, 31, 16), (vcore.toNat, 15, 0)],
    pack [(z.ctxs.length, 31, 16), (z.role, 15, 14), (z.admGen, 7, 0)], pack [(z.rmId, 27, 16)], 0, 0]

/-- A Hail to a candidate: on management port 0 in Lull-3, and in Lull-2 where the optical path is down (R466). -/
def Za.hailTo (z : Za) (agg : Nat) (ws : List W) : Za :=
  if z.power.lull = 3 ∨ (z.power.lull = 2 ∧ !z.linkUp (z.linkToward agg)) then
    z.enqueue 80 none (mkTx clsCtrl 0x03 (linkMac agg 80) 0xFFFF 0 32 ws)
  else z.toAgg agg clsCtrl 0x03 0xFFFF 0 32 ws

/-- HAIL_SEND of a ZA40: to every other candidate of its rack; a Region Manager also tells the collectors. An
injection suppresses it (R447). -/
def Za.hailSend (z : Za) (vcore : BitVec 16) : Za :=
  match z.hailDue with
  | none => z
  | some n =>
    if !z.running then z
    else
      let ws := z.hailWords n vcore
      let quiet := z.injectionAt 0x07 0
      let z := match quiet with
        | some i => z.spend i
        | none => z
      let dst := if quiet.isSome then [] else (z.rack.units.filter (fun u => u.candidate && u.agg != z.aggId)).map (·.agg)
      let z := dst.foldl (fun z a => z.hailTo a ws) z
      let z := if z.isRm && quiet.isNone then z.toCollectors clsCtrl 0x03 0xFFFF 0 32 ws else z
      { z with hailDue := none, hailSeq := z.hailSeq + 1 }

def execHailSend (side : Side) (_temp vcore : BitVec 16) (s : State) : Answer :=
  .next (s.onSide side Dtu.hailSend (·.hailSend vcore))

/-- HAIL (R409): on time while its frame runs and has not been evaluated. -/
def Za.hail (z : Za) (p : Nat) (f : Frame) : Za :=
  let r := z.receive p f
  let ws := f.body
  let z := r.1
  let now := decide (z.frameOf (word ws 2).toNat = z.frameNow ∧ z.hailEval < z.time.begun)
  if !r.2 ∨ f.cls ≠ 1 ∨ f.msg ≠ 3 ∨ f.plen ≠ 32 ∨ wf ws 0 31 28 ≠ 1 ∨ !now then z
  else match wf ws 0 27 24, z.fromDie p f with
    | 1, some die =>
    if wf ws 1 19 0 = die then
      z.modDie die (fun d => { d with hailed := true, hold := if d.holdEnds then 0 else d.hold, holdEnds := false })
    else z
    | 2, none =>
      { z with rack := { z.rack with
          units := modWhere z.rack.units (fun u => u.agg == wf ws 1 11 0) (fun u => { u with hailed := true, namesRm := wf ws 5 27 16 }) } }
    | _, _ => z

def execHail (link : Fin 82) (frame : Frame) (s : State) : Answer := .next (s.onZa (·.hail link.val frame))

/-! ### Liveness (R410, R411). -/

/-- The detail of a liveness fault: the claim and the count of missed Hails. -/
def liveDetail (claim missed : Nat) : Nat := packNat [(claim, 31, 28), (min missed 255, 7, 0)]

/-- A die's state after the Hail of a frame was awaited, and the frame from which a fence would hold. -/
def Za.watchDie (z : Za) (n : Nat) (locked : Nat → Bool) (die : Nat) : Za :=
  match z.die? die with
  | none => z
  | some d =>
    if !d.admitted then z.modDie die (fun x => { x with hailed := false, hailDue := false })
    else if !d.hailDue then z.modDie die (fun x => { x with hailed := false, hailDue := true })
    else
      let z := z.modDie die (fun x => { x with hailed := false })
      let held := d.hold != 0 && decide (d.holdFrom ≤ n)
      if d.hailed then
        let z := z.modDie die (fun x => { x with missed := 0, onTime := x.onTime + 1, live := if x.live = 2 then 1 else x.live })
        if d.live = 3 then z.count (.misc .proofOfLife) else z
      else if held ∨ !locked die then z
      else
        let missed := d.missed + 1
        let z := z.modDie die (fun x => { x with missed, onTime := 0 })
        if d.live = 1 ∧ 3 ≤ missed then
          (z.modDie die (fun x => { x with live := 2 })).raise .hailSuspect .dtu 0 .none die (liveDetail d.claim missed)
        else if d.live = 2 ∧ 8 ≤ missed then
          let z := (z.modDie die (fun x => { x with live := 3 })).raise .hailDead .dtu 0 .none die (liveDetail d.claim missed)
          let z := if d.claim = 1 then z.raise .claimConflict .dtu 0 .none die 0 else z
          z.fenceDie die FaultKind.hailDead.code (n + 1)
        else z

/-- A claim of DEAD or HUNG that stands for eight frames against an ALIVE die (R411). -/
def Za.claimCheck (z : Za) (die : Nat) : Za :=
  match z.die? die with
  | none => z
  | some d =>
    if 2 ≤ d.claim ∧ d.live = 1 then
      let z := z.modDie die (fun x => { x with claimRun := x.claimRun + 1, claimSaid := x.claimSaid || decide (8 ≤ d.claimRun + 1) })
      if 8 ≤ d.claimRun + 1 ∧ !d.claimSaid then z.raise .claimConflict .dtu 0 .none die 0 else z
    else z.modDie die (fun x => { x with claimRun := 0, claimSaid := false })

/-- A ZA40 of the rack after a Hail of its was awaited: a candidate watches the others; the Region Manager reports and fences,
and the standby the Region Manager. -/
def Za.watchUnit (z : Za) (agg : Nat) : Za :=
  match z.rack.units.find? (fun u => u.agg == agg) with
  | none => z
  | some u =>
    let put (z : Za) (f : RackUnit → RackUnit) : Za :=
      { z with rack := { z.rack with units := modWhere z.rack.units (fun x => x.agg == agg) f } }
    let decides := z.isRm || (decide (z.role = 2) && agg == z.rmId)
    let wasRm := z.rmId
    if u.hailed then
      let z := put z (fun x => { x with missed := 0, live := if x.live = 2 then 1 else x.live })
      if u.live = 3 then z.count (.misc .proofOfLife) else z
    else
      let missed := u.missed + 1
      let z := put z (fun x => { x with missed })
      if u.live = 1 ∧ 3 ≤ missed then
        let z := put z (fun x => { x with live := 2 })
        if decides then z.raise .hailSuspect .za40 agg .none 0 (liveDetail 0 missed) else z
      else if u.live = 2 ∧ 8 ≤ missed then
        let standby := decide (z.role = 2) && agg == wasRm
        let z := put z (fun x => { x with live := 3 })
        let z := if decides then
            (z.raise .hailDead .za40 agg .none 0 (liveDetail 0 missed)).raiseFence .za40 agg 0 FaultKind.hailDead.code
              (2 ^ 5 + 2 ^ 6 + 2 ^ 10 + 2 ^ 11 + 2 ^ 12 + 2 ^ 13) (z.frameNow + 1)
          else z
        if standby then { z with rack := { z.rack with failover := true } } else z
      else z

/-- The role after the rack's Hails of a frame (R413): the first candidate acts unless most Hails name another, to whom it
defers. -/
def Za.settleRole (z : Za) : Za :=
  let own := { z.rack with deferTo := none }
  let first := (own.candidates.head?).any (fun u => u.agg == z.aggId)
  let heard := z.rack.units.filter (fun u => u.hailed && u.agg != z.aggId)
  let other := heard.filter (fun u => u.namesRm != z.aggId)
  let votes (a : Nat) : Nat := other.countP (fun u => u.namesRm == a)
  let most := (other.map (·.namesRm)).foldl (fun (b : Option Nat) a => match b with
    | some x => if votes x < votes a then some a else b
    | none => some a) none
  if !first then { z with rack := { z.rack with acting := false, deferTo := none } }
  else if heard.length < 2 * other.length then { z with rack := { z.rack with acting := false, deferTo := most } }
  else { z with rack := { z.rack with acting := z.rack.acting || !z.rack.failover, deferTo := none } }

/-- HAIL_EVALUATE (R409, R410): once per frame, at its end. -/
def Za.hailEvaluate (z : Za) (locked : Nat → Bool) : Za :=
  if !z.running || !z.time.ticking || decide (z.time.begun ≤ z.hailEval) then z
  else
    let n := z.frameNow
    let z := (z.dies.map (·.die)).foldl (fun z d => (z.watchDie n locked d).claimCheck d) z
    let watches := z.rack.units.any (fun u => u.agg == z.aggId && u.candidate)
    let z := if watches then ((z.rack.units.filter (fun u => u.agg != z.aggId)).map (·.agg)).foldl Za.watchUnit z else z
    let z := z.settleRole
    { z with hailEval := z.time.begun, rack := { z.rack with units := z.rack.units.map (fun u => { u with hailed := false }) } }

/-- Our own DTU's time state is seen; of any other admitted DTU a Hail is expected (log entry 128). -/
def execHailEvaluate (s : State) : Answer :=
  let locked (die : Nat) : Bool := decide (die ≠ s.dtu.dieId) || s.dtu.time.state == .locked
  .next (s.onZa (·.hailEvaluate locked))

/-- RM_FAILOVER (R414): the standby takes over at the tick after it declared the Region Manager DEAD. -/
def Za.rmFailover (z : Za) : Za :=
  if z.rack.failover ∧ z.running then
    { z with rack := { z.rack with failover := false, acting := true } }.raise .rmFailover .za40 z.aggId .none 0 0
  else z

def execRmFailover (s : State) : Answer := .next (s.onZa Za.rmFailover)

/-- LIVE_CLAIM (R411). -/
def Za.liveClaim (z : Za) (h : HuskCmd) : ZaBody :=
  let n := huskP0 h
  let es := (huskPay h).map (fun w => (fld w 31 30, fld w 19 0))
  if n = 0 ∨ 256 < n then z.refuse badP0
  else if es.any (fun e => (z.die? e.2).isNone) then z.refuse (resultOf stBadTarget)
  else
    (es.foldl (fun z e => z.modDie e.2 (fun d =>
      if d.claim = e.1 then d else { d with claim := e.1, claimRun := 0, claimSaid := false })) z).ok

/-- LIVE_QUERY (R422). -/
def Za.liveQuery (z : Za) (h : HuskCmd) : ZaBody :=
  let a := huskP0 h
  let n := huskP1 h
  if 255 < a then z.refuse badP0
  else if n = 0 ∨ 256 < a + n then z.refuse badP1
  else (z, some (okPayload ((List.range n).map (fun i => z.liveWord (a + i)))))

/-- RACK_SET (R413): what is known of a unit that stays in the table is kept. -/
def Za.rackSet (z : Za) (h : HuskCmd) : ZaBody :=
  let n := huskP0 h
  if n = 0 ∨ 64 < n then z.refuse badP0
  else
    let unit (w : W) : RackUnit :=
      let agg := fld w 11 0
      let old := z.rack.units.find? (fun u => u.agg == agg)
      { agg, candidate := bit w 31, priority := fld w 23 16, live := (old.map (·.live)).getD 1, missed := (old.map (·.missed)).getD 0
        hailed := old.any (·.hailed), namesRm := (old.map (·.namesRm)).getD 0 }
    let units := (huskPay h).map unit
    let r : Rack := { z.rack with units, deferTo := none }
    let first := (r.candidates.head?).any (fun u => u.agg == z.aggId)
    ({ z with rack := { r with acting := first, failover := false } }).ok

/-! ### Fences on command (R399 to R404, R415, R422). -/

/-- The unit that param0 and param1 name. -/
def unitOf (h : HuskCmd) : UnitName := { kind := bits (huskP0 h) 31 28, unit := bits (huskP0 h) 15 0, die := bits (huskP1 h) 19 0 }

/-- A unit that a fence can name on its tray exists. -/
def unitExists (u : UnitName) : Bool :=
  match u.kind with
  | 1 => decide (u.unit < 64)
  | 2 => decide (u.unit = 0)
  | 3 => decide (u.unit < 4096)
  | 4 => decide (u.unit < 32)
  | 5 => decide (u.unit < 16)
  | 6 => decide (u.unit < 4)
  | 7 => decide (u.unit < 82)
  | 9 => decide (u.unit < 6)
  | _ => false

/-- A unit is fenced now. -/
def Za.isFenced (z : Za) (u : UnitName) : Bool :=
  match u.kind with
  | 1 => (z.die? u.die).any (fun d => d.fencedClusters.contains u.unit)
  | 2 => (z.die? u.die).any (fun d => d.fenced.isSome)
  | 3 => z.fences.lanes.contains u.unit
  | 4 => z.fences.tiles.contains u.unit
  | 5 => z.fences.channels.contains u.unit
  | 6 => z.fences.quadrants.contains u.unit
  | 7 => z.fences.links.contains u.unit
  | 9 => z.fences.cores.contains u.unit
  | _ => false

/-- A unit of the ZA40 itself is fenced on command, and what that loses. -/
def Za.fenceOwn (z : Za) (u : UnitName) : Za × Nat :=
  match u.kind with
  | 3 => (z.fenceLane u.unit 1 z.frameNow none, 1)
  | 4 => (z.fenceTile u.unit none, 2)
  | 5 => (z.fenceChannel u.unit none, 4)
  | 6 => (z.fenceQuadrant u.unit none, 0xF)
  | 7 => (z.fenceLink u.unit none, 2 ^ 7 + (if z.ptp.parent = some u.unit then 2 ^ 8 else 0))
  | _ => (z.fenceCore u.unit none, 2 ^ 9)

/-- FENCE (R415, R422). A die or cluster of our tray is asked for, unless this is the Region Manager's grant of what we asked; one of
another tray is ours to decide as Region Manager, and the grant goes to that tray as a FENCE command. -/
def Za.fenceCmd (z : Za) (h : HuskCmd) (handle : W) : ZaBody :=
  let u := unitOf h
  let from_ := bits h.req.addr.toNat 31 20
  if !unitExists u then z.refuse badP0
  else if askable u then
    if (z.die? u.die).isSome then
      if z.isFenced u then (z.finish handle (okValue 0), none)
      else if !h.req.keomon ∧ from_ = z.rmId ∧ z.asks.any (fun a => a.unit == u && !a.granted && !a.lift) then
        ({ z with asks := modWhere z.asks (fun a => a.unit == u && !a.lift) (fun a => { a with granted := true }) ++
            [{ unit := u, lift := false, granted := true, applied := none, handle }] }, none)
      else (z.askFence u handle, none)
    else if z.isRm ∧ !h.req.keomon then
      let recent := z.rack.grants.filter (fun f => decide (z.time.begun < f + 4096))
      if recent.length < z.rack.limit then
        let z : Za := { z with rack := { z.rack with grants := recent ++ [z.time.begun] } }
        ((z.commandTo from_ .fence 0 (huskP0 h) (huskP1 h) []).finish handle (resultOf stOk), none)
      else
        let kind : UnitKind := if u.kind = 1 then .cluster else .dtu
        ((z.raise .fenceRefused kind u.unit .none u.die 0).finish handle (resultOf stFenceRefused), none)
    else z.refuse (resultOf stBadTarget)
  else if z.isFenced u then (z.finish handle (okValue 0), none)
  else if u.kind = 6 ∧ z.quadrantsLeft ≤ 1 then z.refuse (resultOf stFenceLast)
  else
    let p := z.fenceOwn u
    (p.1.finish handle (okValue p.2), none)

/-- The Region Manager's refusal of a fence we asked for. -/
def Za.fenceRefused (z : Za) (die : Nat) : Za :=
  let mine := z.asks.filter (fun a => a.unit.die == die && !a.granted && !a.lift)
  let z : Za := { z with asks := z.asks.filter (fun a => !mine.contains a) }
  mine.foldl (fun z a => z.finish a.handle (resultOf stFenceRefused)) z

/-- UNFENCE (R404, R405): a lane, tile, channel or quadrant once its self-test has passed, a cluster at once, each from the next
tick. -/
def Za.unfence (z : Za) (free : Nat) (h : HuskCmd) (handle : W) : ZaBody :=
  let u := unitOf h
  if !unitExists u ∨ !([1, 3, 4, 5, 6].contains u.kind) then z.refuse badP0
  else if u.kind = 1 ∧ (z.die? u.die).isNone then z.refuse (resultOf stBadTarget)
  else if !z.isFenced u then z.refuse (resultOf stNotFenced)
  else if u.kind ≠ 1 ∧ !Config.selfTestPasses free then (z.finish handle (resultOf stUnitTestFail), none)
  else ({ z with asks := z.asks ++ [{ unit := u, lift := true, granted := true, applied := none, handle }] }, none)

/-- SELF_TEST (R444): of a fenced lane, tile, channel or quadrant; the fence stays. -/
def Za.selfTest (z : Za) (free : Nat) (h : HuskCmd) (handle : W) : ZaBody :=
  let u := unitOf h
  if !unitExists u ∨ !([3, 4, 5, 6].contains u.kind) then z.refuse badP0
  else if !z.isFenced u then z.refuse (resultOf stNotFenced)
  else (z.finish handle (resultOf (if Config.selfTestPasses free then stOk else stUnitTestFail)), none)

/-- A fence of a unit of the ZA40 is lifted; a quadrant's margin steps go (R405). -/
def Za.liftOwn (z : Za) (u : UnitName) : Za :=
  let f := z.fences
  let f : Fences := match u.kind with
    | 3 => { f with lanes := f.lanes.filter (· != u.unit) }
    | 4 => { f with tiles := f.tiles.filter (· != u.unit) }
    | 5 => { f with channels := f.channels.filter (· != u.unit) }
    | _ => { f with quadrants := f.quadrants.filter (· != u.unit), suspect := f.suspect.filter (· != u.unit), margin := f.margin.set u.unit 0 }
  { z with fences := f }.checkLoss

/-- At a tick every grant is carried out (R415): a die is fenced, a cluster's register is written and takes effect a tick later, a
lifted fence goes. -/
def Za.carryOut (z : Za) : Za :=
  let due := z.asks.filter (fun a => a.granted)
  let z : Za := { z with asks := z.asks.filter (fun a => !a.granted) }
  due.foldl (fun z a =>
    let u := a.unit
    match a.applied, u.kind with
    | some loss, _ => z.finish a.handle (okValue loss)
    | none, 1 => { z.setCluster u.die u.unit (!a.lift) 0 with asks := z.asks ++ [{ a with applied := some (if a.lift then 0 else 2 ^ 4) }] }
    | none, 2 =>
      let loss := z.dieLoss u.die
      (z.fenceDie u.die 0 z.frameNow).finish a.handle (okValue loss)
    | none, _ => (z.liftOwn u).finish a.handle (resultOf stOk)) z

/-- READMIT (R412): the die's admission generation advances, its link is reset, and its next HELLO admits it; its detector records
start afresh. The handle ends there. -/
def Za.readmit (z : Za) (h : HuskCmd) : ZaBody :=
  let die := huskP0 h
  match z.die? die with
  | none => z.refuse (resultOf stBadTarget)
  | some d =>
    if d.fenced.isNone then z.refuse (resultOf stNotFenced)
    else if d.onTime < 8 then z.refuse (resultOf stNotAlive)
    else
      let z := z.modDie die (fun x => { x with admGen := if x.admGen = 0xFF then 1 else x.admGen + 1, readmitDue := true })
      let z : Za := { z with detRecs := z.detRecs.filter (fun r => decide (fld r.key 19 0 ≠ die)) }
      (z.relay die .linkResetCmd (ownHusk die 0 0 [] 0xFFFF0000) 0 false, none)

/-- FENCE_NOTICE (R407): the fenced aggregator's results are absent from the next tick on; a rebuild from it stops (R419). -/
def Za.fenceNotice (z : Za) (agg : Nat) : Za :=
  if !z.running ∨ agg = z.aggId ∨ z.rack.fencedAggs.any (fun (p : Nat × Nat) => p.1 == agg) then z
  else
    let z : Za := { z with rack := { z.rack with fencedAggs := z.rack.fencedAggs ++ [(agg, z.time.begun + 1)] } }
    if z.rebuild.any (fun rb => rb.baseOpen && rb.partner == agg) then z.baseFromRm else z

def execFenceNotice (agg : BitVec 12) (s : State) : Answer := .next (s.onZa (·.fenceNotice agg.toNat))

/-- FAULT_LOG (R398, R422). -/
def Za.faultLogCmd (z : Za) (h : HuskCmd) : ZaBody :=
  let n := huskP1 h
  if n = 0 ∨ 32 < n then z.refuse badP1
  else (z, some (okPayload ((((z.faultLog).drop (huskP0 h)).take n).flatMap (fun e => e.record ++ e.ext))))

/-! ### Checkpoints (R417). -/

/-- The frame of the checkpoint now due. -/
def Za.ckptFrame (z : Za) : Nat := (z.frameNow - 1) / 4096 * 4096

/-- The parts of a checkpoint, and the digest that ends the last. -/
def ckptParts (items : List SeedItem) : List (List W) :=
  let parts := seedParts items
  let digest := twoWords (seedDigest parts)
  let bodies := if parts = [] then [[]] else parts.map (fun p => p.flatMap SeedItem.words)
  ((List.range bodies.length).zip bodies).map (fun (p : Nat × List W) => if p.1 + 1 = bodies.length then p.2 ++ digest else p.2)

/-- Parts sent as CKPT_PUT commands; `owner` is the checkpoint's aggregator where it is not the sender (log entry 135). -/
def Za.ckptSend (z : Za) (dst owner frame : Nat) (parts : List (List W)) : Za :=
  ((List.range parts.length).zip parts).foldl (fun z (p : Nat × List W) =>
    z.commandTo dst .ckptPut (w32 owner) (frame % 2 ^ 32) (packNat [(b2n (p.1 + 1 == parts.length), 31, 31), (p.1, 15, 0)]) p.2) z

/-- A part is held; the last one's digest decides whether the checkpoint is complete, which drops the one before. -/
def Za.ckptStore (z : Za) (agg frame part : Nat) (last : Bool) (ws : List W) : Za :=
  let body := if last then ws.take (ws.length - 2) else ws
  let mine (c : Checkpoint) : Bool := c.agg == agg && c.frame == frame
  let c := (z.rack.held.find? mine).getD { agg, frame, complete := false, said := false, parts := [] }
  let parts := aPut c.parts part body
  let all := (List.range (part + 1)).filterMap (fun i => aGet parts i)
  let leaves := if part = 0 ∧ body = [] then [] else all.map (fun p => crc64xz (bytesOf p))
  let complete := c.complete || (last && decide (all.length = part + 1) && digestOf leaves == dword ws (ws.length - 2))
  let rest := z.rack.held.filter (fun x => !mine x && !(complete && x.agg == agg && decide (x.frame < frame)))
  { z with rack := { z.rack with held := rest ++ [{ c with parts, complete }] } }

/-- CHECKPOINT (R417): once the detectors of frame C have completed, the items are copied and sent to the Region Manager. -/
def Za.checkpoint (z : Za) : Za :=
  let c := z.ckptFrame
  let waits := z.works.any (fun w => w.frame == c && !w.detected && !w.abandoned)
  if !z.enginesRun ∨ !z.time.ticking ∨ c = 0 ∨ c + 1024 < z.frameNow ∨ waits ∨ z.rack.own.any (fun p => decide (c ≤ p.1)) then z
  else
    let items := z.seedItems
    let parts := ckptParts items
    let z : Za := { z with rack := { z.rack with own := some (c, items) } }
    if z.rack.units.isEmpty then z
    else
      let z : Za := { z with rack := { z.rack with ownDone := c } }
      if z.isRm then
        let z := ((List.range parts.length).zip parts).foldl (fun z (p : Nat × List W) =>
          z.ckptStore z.aggId c p.1 (p.1 + 1 == parts.length) p.2) z
        if z.standbyId = 0 ∨ z.standbyId = z.aggId then z else z.ckptSend z.standbyId z.aggId c parts
      else z.ckptSend z.rmId 0 c parts

def execCheckpoint (s : State) : Answer := .next (s.onZa Za.checkpoint)

/-- CKPT_PUT (R417, R419): taken by a rebuild that asked for it, by the Region Manager, which forwards it to the standby, and by the
standby. -/
def Za.ckptPut (z : Za) (h : HuskCmd) : ZaBody :=
  let from_ := bits h.req.addr.toNat 31 20
  let frame := z.frameOf (huskP0 h)
  let last := decide (bits (huskP1 h) 31 31 = 1)
  let part := bits (huskP1 h) 15 0
  let ws := huskPay h
  let owner := if huskHandle h = 0 then from_ else fld (huskHandle h) 11 0
  match z.rebuild.filter (fun rb => rb.phase == 2 && rb.baseKind == 0 && from_ == z.rmId && owner == rb.failed) with
  | some rb =>
    let body := if last then ws.take (ws.length - 2) else ws
    let items := aPut rb.items part (parseItems false 65536 body)
    let parts := (List.range (part + 1)).filterMap (fun i => aGet items i)
    let sound := last && decide (parts.length = part + 1) && seedDigest (parts.filter (fun p => !p.isEmpty)) == dword ws (ws.length - 2)
    ({ z with rebuild := some { rb with items, baseKind := if sound then 2 else 0, base := if sound then frame else rb.base } }).ok
  | none =>
    if z.isRm then
      let z := z.ckptStore owner frame part last ws
      (if z.standbyId = 0 ∨ z.standbyId = z.aggId then z
        else z.commandTo z.standbyId .ckptPut (w32 owner) (huskP0 h) (huskP1 h) ws).ok
    else if z.role = 2 ∧ from_ = z.rmId then (z.ckptStore owner frame part last ws).ok
    else z.refuse (resultOf stNotRm)

/-- CKPT_GET (R419). -/
def Za.ckptGet (z : Za) (h : HuskCmd) (handle : W) : ZaBody :=
  let agg := huskP0 h
  if !z.isRm then z.refuse (resultOf stNotRm)
  else match (z.rack.held.filter (fun c => c.agg == agg && c.complete)).getLast? with
    | none => z.refuse (resultOf stCkptNone)
    | some c =>
      let bodies := (sortBy Prod.fst c.parts).map Prod.snd
      let leaves := if bodies = [[]] then [] else bodies.map (fun p => crc64xz (bytesOf p))
      let digest := twoWords (digestOf leaves)
      let parts := ((List.range bodies.length).zip bodies).map (fun (p : Nat × List W) =>
        if p.1 + 1 = bodies.length then p.2 ++ digest else p.2)
      ((z.ckptSend (bits h.req.addr.toNat 31 20) agg c.frame parts).finish handle (okValue (c.frame % 2 ^ 32)), none)

/-- CKPT_INCOMPLETE (R417). -/
def Za.ckptIncomplete (z : Za) (agg : Nat) : Za :=
  let c := (z.frameNow - 1024) / 4096 * 4096
  let mine (x : Checkpoint) : Bool := x.agg == agg && x.frame == c
  let held := z.rack.held.find? mine
  let listed := z.rack.units.any (fun u => u.agg == agg)
  if !z.running ∨ !z.isRm ∨ !listed ∨ c = 0 ∨ held.any (fun x => x.complete || x.said) then z
  else
    let old : Checkpoint := held.getD { agg, frame := c, complete := false, said := false, parts := [] }
    let mark : Checkpoint := { old with said := true, parts := [] }
    let rest := z.rack.held.filter (fun x => !mine x)
    { z with rack := { z.rack with held := rest ++ [mark] } }.raise .ckptIncomplete .za40 agg .none 0 0

def execCkptIncomplete (agg : BitVec 12) (s : State) : Answer := .next (s.onZa (·.ckptIncomplete agg.toNat))

end Sys2Proof.Machine
end

