-- ==== Sys2Proof/Machine/Rebuilds.lean ====
section
/-!
DEFINITION. Rebuilding a failed tray on a spare (R418 to R421).
-/
namespace Sys2Proof.Machine

/-- The contexts that a rebuild takes over: those admitted at its Front. -/
def Za.rebuilt (z : Za) (rb : Rebuild) : List (Nat × Ctx) := z.jobs.filter (fun (p : Nat × Ctx) => p.2.start == rb.front)

/-- The data frames asked back from the DTUs (R420): first_rep and last_rep. -/
def Rebuild.firstRep (rb : Rebuild) : Nat := if rb.baseKind = 0 then rb.front - 64 else max (rb.base + 1) (rb.front - 64)
def Rebuild.lastRep (rb : Rebuild) : Nat := rb.front - 5

/-- The earliest Front of a REBUILD: the current frame plus 8, in frames begun (R170). -/
def Za.rebuildFirst (z : Za) : Nat := z.time.plusTwo + 6

/-- REBUILD (R418, R419, R422). -/
def Za.rebuildCmd (z : Za) (h : HuskCmd) (handle : W) : ZaBody :=
  let j := z.frameOf (huskP0 h)
  let partner := huskP1 h
  let failed := wf (huskPay h) 0 31 16
  if z.rebuild.any (fun rb => rb.phase != 4) ∨ z.jobs.any (fun (p : Nat × Ctx) => p.2.state == .active) then
    z.refuse (resultOf stRebuildBusy)
  else if 4095 < failed then z.refuse (badPay h 0)
  else if j < z.rebuildFirst then z.refuse (failValue stFrontEarly (z.rebuildFirst % 2 ^ 32))
  else
    let rb : Rebuild := { handle, front := j, failed, partner, phase := 1, baseKind := 0, base := 0, items := [], idle := 0, asked := false }
    let z : Za := { z with rebuild := some rb }
    (if partner = 0 then z.baseFromRm else z.seedMsg partner 6 z.frameNow 0 0 [] 0, none)

/-- REBUILD_PARTNER_STALL (R419): sixteen whole frames have passed without an advance. -/
def Za.partnerStall (z : Za) : Za :=
  if z.running ∧ z.rebuild.any (fun rb => rb.baseOpen && decide (17 ≤ rb.idle)) then z.baseFromRm else z

def execRebuildPartnerStall (s : State) : Answer := .next (s.onZa Za.partnerStall)

/-- The models pinned for J (R301, R420). -/
def Za.pinsFor (z : Za) (e j : Nat) : List (Nat × W × Nat × Bool) :=
  (z.models.filter (fun m => m.entry == e)).filterMap (fun m =>
    match m.oth.filter (fun a => a.state == .ready && decide (a.front ≤ j)), m.cur with
    | some a, _ => some (m.slot, a.modelId, a.version, true)
    | none, some a => some (m.slot, a.modelId, a.version, a.state == .current)
    | none, none => none)

/-- The replay begins: the base is applied, and every DTU is asked for the frames it holds of each context it serves. -/
def Za.beginReplay (z : Za) (rb : Rebuild) : Za :=
  let z := ((sortBy Prod.fst rb.items).flatMap Prod.snd).foldl (fun z i => z.restoreItem false i) z
  let mine := z.rebuilt rb
  let asks := z.dies.flatMap (fun d => (d.slots.filter (fun s => mine.any (fun (p : Nat × Ctx) => p.2.id == s.ctx && p.2.gen == s.gen))).map
    (fun s => (d.die, pack [(s.ctx, 31, 16), (s.gen, 15, 8)])))
  let z : Za := { z with rebuild := some { rb with asked := true, phase := 3 } }
  if rb.lastRep < rb.firstRep then z
  else asks.foldl (fun z (a : Nat × W) =>
    z.ownLong a.1 .retainReplay (rb.firstRep % 2 ^ 32) (rb.lastRep % 2 ^ 32) [0xFFFFFFFF, 0xFFFFFFFF] a.2) z

/-- The next replayed frame of a context is opened: its rows, scores and detectors then run as for any frame, without FLEET results,
PEER observations, verdicts or actions. -/
def Za.openReplay (z : Za) (rb : Rebuild) (e : Nat) (c : Ctx) : Za :=
  let mine := z.works.filter (fun w => w.entry == e && w.begun == 0)
  if mine.any (fun w => !w.abandoned) then z
  else match sortBy (fun (w : FrameWork) => w.frame) (mine.filter (fun w => !w.detected)) with
    | [] => z
    | w :: _ =>
      let v : CtxView := { z.viewAt c rb.front 0 with frame := w.frame, pins := z.pinsFor e rb.front }
      z.modWork e w.frame (fun x => { x with view := v, abandoned := false })

/-- REBUILD_REPLAY (R420): from the tick of J - 4 on the replay is asked for; later, outside the planning window, frames are
processed one by one. -/
def Za.rebuildReplay (z : Za) : Za :=
  match z.rebuild with
  | none => z
  | some rb =>
    if !z.enginesRun ∨ rb.phase = 4 ∨ z.frameNow + 4 < rb.front ∨ rb.front ≤ z.frameNow then z
    else if !rb.asked then z.beginReplay rb
    else if z.sinceTick < 1000000 then z
    else (z.rebuilt rb).foldl (fun z (p : Nat × Ctx) => z.openReplay rb p.1 p.2) z

def execRebuildReplay (s : State) : Answer := .next (s.onZa Za.rebuildReplay)

/-- What a rebuild lost for a context (R421): count, range A and range B. -/
structure LostFrames where
  count : Nat
  a : Option (Nat × Nat)
  b : Nat × Nat
  deriving DecidableEq, Repr

/-- Range A is what lies between the base and the replay; range B the last four frames with any replayed one that was not
processed. -/
def Za.lostOf (z : Za) (rb : Rebuild) (e : Nat) (c : Ctx) : LostFrames :=
  let first := if rb.baseKind = 0 then c.start else rb.base + 1
  let a := if first < rb.firstRep then some (first, rb.firstRep - 1) else none
  let done (f : Nat) : Bool := z.works.any (fun w => w.entry == e && w.begun == 0 && w.frame == f && w.detected)
  let missed := ((List.range (rb.lastRep + 1 - rb.firstRep)).map (rb.firstRep + ·)).filter (fun f => !done f)
  let start := (missed.head?).getD (rb.lastRep + 1)
  { count := (a.map (fun x => x.2 + 1 - x.1)).getD 0 + missed.length + 4, a, b := (start, rb.front - 1) }

/-- Both ranges as words. -/
def LostFrames.words (l : LostFrames) : List W :=
  let a := l.a.getD (0, 0)
  [w32 a.1, w32 a.2, w32 l.b.1, w32 l.b.2]

/-- A context goes live: STATE_LOSS, and a verdict with cause RESTORED for each marked entity. -/
def Za.liveCtx (z : Za) (rb : Rebuild) (e : Nat) (c : Ctx) : Za :=
  let l := z.lostOf rb e c
  let first := (l.a.map Prod.fst).getD l.b.1
  let z := z.raiseCtx .stateLoss .za40 z.aggId .rebuild c (min l.count 0xFFFFF) (first % 2 ^ 32) (w32 rb.base :: l.words)
  (z.detRecs.filter (fun r => r.entry == e && r.marked)).foldl (fun z r =>
    let d := detDesc c.plans.det r.det
    let z := z.postVerdict e c r.key r.state.code (detAction d)
      (verdictWords c rb.front d r r.state.code r.posted (2 ^ 7) r.run 0 0xFFFFFFFF 0xFFFFFFFF)
    z.putRec { r with posted := r.state.code }) z

/-- REBUILD_LIVE (R421): from the tick of J on. -/
def Za.rebuildLive (z : Za) : Za :=
  match z.rebuild with
  | none => z
  | some rb =>
    if !z.running ∨ rb.phase = 4 ∨ z.frameNow < rb.front then z
    else
      let mine := z.rebuilt rb
      let words := mine.flatMap (fun (p : Nat × Ctx) =>
        [pack [(p.2.id, 31, 16), (p.2.gen, 15, 8), (rb.baseKind, 7, 0)], w32 rb.base] ++ (z.lostOf rb p.1 p.2).words)
      let z := mine.foldl (fun z (p : Nat × Ctx) => z.liveCtx rb p.1 p.2) z
      let z : Za := { z with
        rebuild := some { rb with phase := 4, items := [], handle := 0 }
        works := z.works.filter (fun w => w.begun != 0)
        rack := { z.rack with fencedAggs := z.rack.fencedAggs.filter (fun (p : Nat × Nat) => p.1 != z.aggId) } }
      z.finish rb.handle (okPayload words)

def execRebuildLive (s : State) : Answer := .next (s.onZa Za.rebuildLive)

end Sys2Proof.Machine
end

