-- ==== Sys2Proof/Machine/ZaFrost.lean ====
section
/-!
DEFINITION. Frost and scan-out at the ZA40, loop tests of its links and injected errors (R424 to R447).
-/
namespace Sys2Proof.Machine

/-! ### Arming (R425, R426). -/

/-- Dies that still owe an ACK of the message being repeated. -/
def Za.frostOwed (z : Za) : List Nat :=
  z.frost.targets.filter (fun d => z.frostDies.contains d && !z.frost.acked.contains d)

/-- FROST_ARM ends when every DTU has acknowledged; FROST_THAW when they have and the ZA40 has resumed. -/
def Za.frostEnd (z : Za) : Za :=
  if !z.frostOwed.isEmpty then z
  else if z.frost.message = 0x01 ∧ z.frost.armHandle ≠ 0 then
    let h := z.frost.armHandle
    ({ z with frost := { z.frost with armHandle := 0 } }).finish h z.armCounts
  else if z.frost.message = 0x04 ∧ z.frost.thawHandle ≠ 0 ∧ z.frost.state ≠ 2 then
    let h := z.frost.thawHandle
    ({ z with frost := { z.frost with thawHandle := 0 } }).finish h (resultOf stOk)
  else z

/-- The earliest frame that a Frost instant may lie in, in frames begun (R170). -/
def Za.frostFirst (z : Za) : Nat := z.time.plusTwo

/-- FROST_ARM. -/
def Za.frostArm (z : Za) (h : HuskCmd) (handle : W) : ZaBody :=
  let t := dword (huskPay h) 0
  if t / 2 ^ 20 < z.frostFirst then z.refuse (failValue stFrostEarly (z.frostFirst % 2 ^ 32))
  else if z.frost.state ≠ 0 then z.refuse (resultOf stFrostBusy)
  else
    let z := z.armed h.w5 (bit h.w6 0) t
    let z : Za := { z with frost := { z.frost with armHandle := handle } }
    ((z.frostBegin 0x01 t).frostEnd, none)

/-- FROST_CANCEL: before T the Frost is disarmed and CANCEL relayed; the FROST_ARM still open ends as cancelled (log entry 138). -/
def Za.frostCancel (z : Za) (h : HuskCmd) : ZaBody :=
  if z.frost.state ≠ 1 ∨ z.frost.frostId ≠ h.w5 then z.refuse (resultOf stFrostNone)
  else
    let z := z.finish z.frost.armHandle (resultOf stCancelled)
    let z : Za := { z with frost := { z.frost with state := 0, armHandle := 0 } }
    (z.frostBegin 0x02 0).ok

/-- FROST_STOP at the ZA40 (R428, R429, R432): its FTC is at T; an open FROST_ARM ends. -/
def Za.frostStopAt (z : Za) : Za :=
  if z.frost.state = 1 ∧ z.running ∧ z.mayReach z.frost.t then
    let z := z.finish z.frost.armHandle z.armCounts
    let z : Za := { z with frost := { z.frost with armHandle := 0 } }
    (z.reach z.frost.t).stop false
  else z

def execFrostStop (side : Side) (s : State) : Answer := .next (s.onSide side Dtu.frostStopAt Za.frostStopAt)

/-! ### Stop now (R433, R434). -/

/-- FROST_NOW: refused while a Frost is in force (R424). -/
def Za.frostNow (z : Za) (h : HuskCmd) : ZaBody :=
  if z.frost.state = 2 then z.refuse (resultOf stFrostBusy)
  else
    let z := z.stopNow h.w5 (bit h.w6 0) none
    (z, some (okValue (z.frost.stopNs % 2 ^ 32)))

/-- NOW at the ZA40: a frost_id not yet seen stops it and goes on; one already frozen only passes it on. -/
def Za.nowFrame (z : Za) (p : Nat) (f : Frame) : Za :=
  let r := z.receive p f
  let z := r.1
  let id := word f.body 0
  if !r.2 ∨ !frostSound f ∨ !z.running ∨ z.frost.seen.contains id then z
  else if z.frost.state = 2 then
    let z : Za := { z with frost := { z.frost with seen := z.frost.seen ++ [id] } }
    let body := frostBody id (wf f.body 1 31 30 == 1) 0 z.frost.stopNs 0 0
    let z := z.frostDies.foldl (fun z die => z.toDie die clsFrost 0x03 0xFFFF 0 32 body) z
    ((z.upLinks 2).filter (fun q => q != p)).foldl (fun z q => z.toPeer q clsFrost 0x03 32 body) z
  else z.stopNow id (wf f.body 1 31 30 == 1) (some p)

def execNow (side : Side) (link : Fin 82) (frame : Frame) (s : State) : Answer :=
  .next (s.onSide side (·.stopNow frame) (·.nowFrame link.val frame))

/-! ### Thaw (R435). -/

/-- The ZA40 resumes; the snapshot and the captured frames stay. -/
def Za.thawNow (z : Za) : Za :=
  if z.frost.state = 2 then ({ z with frost := { z.frost with state := 0, thawAt := none } }).takeUp.frostEnd else z

/-- FROST_THAW; a later one replaces the instant, and the earlier handle ends as cancelled (log entry 139). -/
def Za.frostThaw (z : Za) (h : HuskCmd) (handle : W) : ZaBody :=
  let t2 := dword (huskPay h) 0
  if z.frost.state ≠ 2 ∨ z.frost.frostId ≠ h.w5 then z.refuse (resultOf stFrostNone)
  else if t2 ≠ 0 ∧ t2 / 2 ^ 20 < z.frostFirst then z.refuse (failValue stFrostEarly (z.frostFirst % 2 ^ 32))
  else
    let z := z.finish z.frost.thawHandle (resultOf stCancelled)
    let z : Za := { z with frost := { z.frost with thawHandle := handle, thawAt := if t2 = 0 then none else some t2 } }
    let z := z.frostBegin 0x04 t2
    (if t2 = 0 then z.thawNow else z, none)

/-- THAW_INSTANT at the ZA40. -/
def Za.thawInstant (z : Za) : Za :=
  match z.frost.thawAt with
  | none => z
  | some t => if z.running ∧ z.mayReach t then (z.reach t).thawNow else z

def execThawInstant (side : Side) (s : State) : Answer := .next (s.onSide side Dtu.thawInstant Za.thawInstant)

/-! ### Acknowledgements and repeats. -/

/-- ACK: of the message being repeated, from a DTU it went to. -/
def Za.ack (z : Za) (p : Nat) (f : Frame) : Za :=
  let r := z.receive p f
  let z := r.1
  match z.fromDie p f with
  | none => z
  | some die =>
    let mine := decide (word f.body 0 = z.frost.frostId ∧ wf f.body 1 23 16 = z.frost.message) && z.frost.targets.contains die &&
      !z.frost.acked.contains die
    if !r.2 ∨ !frostSound f ∨ !mine then z
    else ({ z with frost := { z.frost with acked := z.frost.acked ++ [die] } }).frostEnd

def execAck (link : Fin 82) (frame : Frame) (s : State) : Answer := .next (s.onZa (·.ack link.val frame))

/-- FROST_REPEAT: ARM until T, NOW and THAW, to the DTUs that have not acknowledged; CANCEL is relayed once (R426). -/
def Za.frostRepeat (z : Za) : Za :=
  let m := z.frost.message
  let z := z.frostEnd
  if z.running ∧ ((m = 0x01 ∧ z.frost.state = 1) ∨ m = 0x03 ∨ m = 0x04) then z.frostSend m z.frostOwed z.frost.instant else z

def execFrostRepeat (s : State) : Answer := .next (s.onZa Za.frostRepeat)

/-- CAPTURE_WINDOW_END at the ZA40 (R430, R431): its part of the cut is judged. -/
def Za.captureEnd (z : Za) : Za :=
  match z.frost.windowEnd with
  | none => z
  | some e =>
    if z.mayReach e then
      let z := z.reach e
      let f := z.frost
      let whole := !f.smear && !f.stepped && !f.capFull && !f.spoiled && decide (f.timeState = 2)
      { z with frost := { f with windowEnd := none, cutComplete := whole } }
    else z

def execCaptureWindowEnd (side : Side) (s : State) : Answer := .next (s.onSide side Dtu.captureEnd Za.captureEnd)

/-- FROST_QUERY (R438). -/
def Za.frostQuery (z : Za) : ZaBody := (z, some (okPayload [z.frostStatus]))

/-! ### Scan-out (R440, R441). -/

/-- The sections of the ZA40 that a mask selects, ascending. -/
def Za.scanSections (z : Za) (snap : ZaSnapshot) (mask : Nat) : List (List W) :=
  let links := snap.links.map (fun l => [pack [(l.1, 31, 24), (l.2.1, 23, 20), (l.2.2.1, 19, 0)], l.2.2.2.1, l.2.2.2.2, 0])
  let flight := z.frost.capture.map (fun c => inflightEntry { link := c.link, cls := c.cls, lseq := c.lseq, frame := c.frame })
  let syncs := snap.syncs.map (fun (s : Nat × Bool × Nat) => [pack [(b2n s.2.1, 31, 31), (s.1, 16, 0)], 0] ++ twoWords s.2.2)
  let on (i : Nat) : Bool := decide (bits mask i i = 1)
  let full := z.frost.full
  (if on 3 then [scanSection 3 links.length links.flatten] else []) ++
  (if on 4 then [scanSection 4 flight.length flight.flatten] else []) ++
  (if on 6 && full then [scanSection 6 snap.pods.length snap.pods.flatten] else []) ++
  (if on 7 && full then [scanSection 7 syncs.length syncs.flatten] else []) ++
  (if on 8 && full then [scanSection 8 snap.ctxs.length snap.ctxs.flatten] else [])

/-- The T of a scan-out header: 0 for an immediate Frost. -/
def Za.scanT (z : Za) : Nat := if z.frost.smear then 0 else z.frost.t

/-- The whole scan-out of the ZA40. -/
def Za.scanWords (z : Za) (snap : ZaSnapshot) (mask : Nat) : List W :=
  let ss := z.scanSections snap mask
  let f := z.frost
  let total := (32 + 4 * (ss.map List.length).sum) / 16
  scanHeader 2 (scanFlags f.smear false f.cutComplete f.stepped false) z.aggId f.frostId z.scanT f.stopNs total f.timeState ss.length ++
    ss.flatten

/-- A SCAN_DATA or SCAN_END leaves for the requester; keomon takes it in its frames (log entry 141). -/
def Za.scanTo (z : Za) (req : Requester) (msg plen : Nat) (body : List W) : Za :=
  if req.keomon then z.toHost 2 (bytesOf body)
  else z.enqueue req.link none (mkTx clsFrost msg req.addr 0xFFFF 0 plen body)

/-- Words given out as SCAN_DATA and a SCAN_END. -/
def Za.scanGive (z : Za) (req : Requester) (data : List W) : Za :=
  (scanFrames (fun m b n => mkTx clsFrost m req.addr 0xFFFF 0 n b) z.frost.frostId data 0).foldl (fun z t =>
    z.scanTo req t.msg t.plen t.body) z

/-- SCAN_REQ to a DTU from an offset on. -/
def Za.scanAsk (z : Za) (die mask offset : Nat) : Za :=
  z.toDie die clsFrost 0x06 0xFFFF 0 32 (frostBody z.frost.frostId false 0 0 mask offset)

/-- The next DTU of a scan-out is asked; one that takes no part gives its header alone; the last one ends the command. -/
def Za.scanNext : Nat → Za → ScanOut → Za
  | 0, z, _ => z
  | n + 1, z, s =>
    let put (z : Za) (x : ScanOut) : Za := { z with frost := { z.frost with scans := z.frost.scans.filter (fun y => y.handle != s.handle) ++ [x] } }
    match s.dies with
    | [] =>
      let z : Za := { z with frost := { z.frost with scans := z.frost.scans.filter (fun y => y.handle != s.handle) } }
      z.finish s.handle (okValue (s.total % 2 ^ 32))
    | die :: rest =>
      if z.frostDies.contains die then
        (put z { s with dies := rest, current := some die, offset := 0 }).scanAsk die s.mask 0
      else
        let head := scanHeader 1 0 die z.frost.frostId z.scanT 0 2 0 0
        let s' : ScanOut := { s with dies := rest, current := none, offset := 0, total := s.total + 32 }
        Za.scanNext n ((put z s').scanGive s.req head) s'

/-- SCAN_OUT: the ZA40's own, then the DTUs named, or all of its own. -/
def Za.scanOut (z : Za) (h : HuskCmd) (handle : W) : ZaBody :=
  let named := (huskPay h).map BitVec.toNat
  match z.frost.snapshot with
  | none => z.refuse (resultOf stScanGone)
  | some snap =>
    if z.frost.frostId ≠ h.w5 then z.refuse (resultOf stScanGone)
    else if bit h.w6 0 ∨ fld h.w6 31 9 ≠ 0 then z.refuse badP1
    else if named.any (fun d => (z.die? d).isNone) then z.refuse (resultOf stBadTarget)
    else
      let dies := sortBy id (if named = [] then z.dies.map (·.die) else named.eraseDups)
      let data := z.scanWords snap (huskP1 h)
      let s : ScanOut := { handle, req := h.req, mask := huskP1 h, dies, current := none, offset := 0, total := 4 * data.length }
      (Za.scanNext (dies.length + 1) (z.scanGive h.req data) s, none)

/-- SCAN_DATA (R441): what continues the data of the DTU being read goes on to the requester; a gap is asked for again. -/
def Za.scanData (z : Za) (p : Nat) (f : Frame) : Za :=
  let r := z.receive p f
  let z := r.1
  let off := wf f.body 5 31 0
  let n := f.plen.toNat - 32
  match z.fromDie p f, z.frost.scans.find? (fun s => s.current.isSome) with
  | some die, some s =>
    if !r.2 ∨ !frostSound f ∨ word f.body 0 ≠ z.frost.frostId ∨ s.current ≠ some die then z
    else if s.offset < off then z.scanAsk die s.mask s.offset
    else if off < s.offset then z
    else if f.msg = 0x07 then
      let s' : ScanOut := { s with offset := s.offset + n, total := s.total + n }
      let z : Za := { z with frost := { z.frost with scans := modWhere z.frost.scans (fun y => y.handle == s.handle) (fun _ => s') } }
      z.scanTo s.req 0x07 f.plen.toNat f.body
    else
      Za.scanNext (s.dies.length + 1) (z.scanTo s.req 0x08 f.plen.toNat f.body) { s with current := none }
  | _, _ => z

def execScanData (link : Fin 82) (frame : Frame) (s : State) : Answer := .next (s.onZa (·.scanData link.val frame))

/-! ### LOOP_TEST of a link (R443). -/

/-- LOOP_TEST to a ZA40: at the depth the port is set to, or by echo on a link that is up. -/
def Za.loopTest (z : Za) (h : HuskCmd) (handle : W) : ZaBody :=
  let p := huskP0 h
  let n := huskP1 h
  if 82 ≤ p then z.refuse badP0
  else if n = 0 ∨ 65536 < n then z.refuse badP1
  else
    let code := fld (z.portW0 (portOf p)) 29 27
    let ready := if code = 0 then z.linkUp p && (z.testPeer p).isSome
      else decide (code ≤ 3) && decide ((z.link p).state = 6 ∧ (z.link p).looped = code)
    if !ready ∨ z.tests.any (fun t => t.link == p) then z.refuse (resultOf stLoopRefused)
    else
      let t : LinkTest := { handle, link := p, frames := n, sent := 0, returned := 0, differing := 0, rtts := [] }
      (({ z with tests := z.tests ++ [t] }).feedTest p, none)

/-! ### FAULT_INJECT (R447). -/

/-- FAULT_INJECT to a ZA40. -/
def Za.faultInject (z : Za) (h : HuskCmd) : ZaBody :=
  let code := fld h.w5 31 24
  let n := fld h.w5 23 0
  let p1 := huskP1 h
  let link := decide (p1 / 2 ^ 16 = 0 ∧ fld h.w6 7 4 = 0 ∧ fld h.w6 15 8 < 82 ∧ fld h.w6 3 0 < 8)
  let add (n : Nat) : ZaBody :=
    let one : Injection := { code, n, param := if 2 ≤ code ∧ code ≤ 6 then h.w6 else 0, payload := huskPay h }
    ({ z with injections := if n = 0 then z.injections else z.injections ++ [one], injected := min 0xFFFF (z.injected + 1) }).ok
  match code with
  | 0x01 =>
    let region := (word (huskPay h) 0).toNat
    if n = 0 ∨ 9 < n then z.refuse badP0
    else if !decide (region ≤ 9 ∨ (16 ≤ region ∧ region ≤ 24)) then z.refuse (badPay h 0)
    else add n
  | 0x02 => if 4096 ≤ p1 then z.refuse badP1 else add n
  | 0x03 => if 32 ≤ p1 then z.refuse badP1 else add 1
  | 0x04 => if !link then z.refuse badP1 else add n
  | 0x05 => if !link then z.refuse badP1 else add n
  | 0x06 => if !link then z.refuse badP1 else add n
  | 0x07 => add n
  | 0x08 => add n
  | 0x09 => add 1
  | _ => z.refuse badP0

end Sys2Proof.Machine
end

