-- ==== Sys2Proof/Machine/ZaMemory.lean ====
section
/-!
DEFINITION. Memory errors, the scrubber and retired pages of the ZA40 (R184 to R190, R400).
-/
namespace Sys2Proof.Machine

/-! ### Regions (R184, R186, R188, R393). -/

/-- The unit index of a region or SRAM. -/
def regionCode : MemRegion → Nat
  | .firmware => 0
  | .forward => 1
  | .feature => 2
  | .pod => 3
  | .model => 4
  | .digest => 5
  | .detectState => 6
  | .seedbank => 7
  | .checkpoint => 8
  | .unassigned => 9
  | .nodeStore => 16
  | .tileBuffers => 17
  | .podStore => 18
  | .featureStaging => 19
  | .linkBuffers => 20
  | .syncStore => 21
  | .contextTable => 22
  | .managementL2 => 23
  | .coreL1 => 24

/-- Its size in bytes; the six cores' caches together. -/
def regionSize : MemRegion → Nat
  | .firmware => 2 * 2 ^ 30
  | .forward => 4 * 2 ^ 30
  | .feature => 4 * 2 ^ 30
  | .pod => 4 * 2 ^ 30
  | .model => 32 * 2 ^ 30
  | .digest => 48 * 2 ^ 30
  | .detectState => 8 * 2 ^ 30
  | .seedbank => 8 * 2 ^ 30
  | .checkpoint => 16 * 2 ^ 30
  | .unassigned => 2 * 2 ^ 30
  | .nodeStore => 96 * 2 ^ 20
  | .tileBuffers => 64 * 2 ^ 20
  | .podStore => 32 * 2 ^ 20
  | .featureStaging => 16 * 2 ^ 20
  | .linkBuffers => 64 * 2 ^ 20
  | .syncStore => 2 * 2 ^ 20
  | .contextTable => 64 * 2 ^ 10
  | .managementL2 => 8 * 2 ^ 20
  | .coreL1 => 6 * 128 * 2 ^ 10

/-- Read in CORRECT mode; the others detect only. -/
def corrects : MemRegion → Bool
  | .model => false
  | .nodeStore => false
  | .tileBuffers => false
  | .coreL1 => false
  | _ => true

/-- A region of the stacks. -/
def inStacks (r : MemRegion) : Bool := decide (regionCode r ≤ 9)

/-- The severity of MEM_UNCORR in a region (R189). -/
def uncorrSeverity : MemRegion → Nat
  | .model => 1
  | .nodeStore => 1
  | .tileBuffers => 1
  | .coreL1 => 1
  | .firmware => 3
  | .managementL2 => 3
  | .contextTable => 3
  | .syncStore => 3
  | _ => 2

/-- Regions whose words belong to a context. -/
def ownedByCtx : MemRegion → Bool
  | .feature => true
  | .pod => true
  | .model => true
  | .digest => true
  | .detectState => true
  | .nodeStore => true
  | .tileBuffers => true
  | .podStore => true
  | .featureStaging => true
  | _ => false

/-! ### What a read finds (R187, R188). -/

/-- The wrong symbols of a code word. -/
def wrongSymbols (es : List (Fin 136 × Byte)) : List (Fin 136 × Byte) :=
  es.foldl (fun (l : List (Fin 136 × Byte)) e => if e.2 = 0 ∨ l.any (fun x => x.1 == e.1) then l else l ++ [e]) []

/-- Errors with those an injection adds: n more symbols, in the places that were sound (R447). -/
def injectSymbols (es : List (Fin 136 × Byte)) (n : Nat) : List (Fin 136 × Byte) :=
  es ++ (((List.finRange 136).filter (fun i => !es.any (fun x => x.1 == i))).take n).map (fun i => (i, (1 : Byte)))

/-- The outcome of a read. -/
inductive ReadOutcome
  | sound | corrected | bad
  deriving DecidableEq, Repr

/-- A code word with errors as its mode reads it: beyond what the code guarantees it is taken for another word where one is near
enough, and for a sound one where the errors make another code word of it. -/
def readOutcome (r : MemRegion) (es : List (Fin 136 × Byte)) : ReadOutcome :=
  if es = [] then .sound
  else if corrects r then
    if es.length ≤ 4 then .corrected else if !rsSeen es then .sound else if rsNear es then .corrected else .bad
  else if es.length ≤ 8 ∨ rsSeen es then .bad else .sound

/-! ### Pages (R189). -/

/-- The stack of an address: the stacks are interleaved at 4 KiB. -/
def stackOf (address : Nat) : Nat := address / 4096 % 4

/-- A page is retired: at most 1,024 on a stack; its contents, corrected, are mapped elsewhere. -/
def Za.retirePage (z : Za) (r : MemRegion) (address : Nat) : Za :=
  let k := stackOf address
  let n := z.ecc.retired.getD k 0
  if 1024 ≤ n then z.raise .memRetireFull .memory (regionCode r) .none 0 (address / 128)
  else
    let inPage (x : MemRegion × Nat × Nat) : Bool := x.1 == r && decide (x.2.1 / 32 = address / 4096)
    let page := regionCode r * 2 ^ 24 + address / 4096
    let z : Za := { z with ecc := { z.ecc with
      retired := z.ecc.retired.set k (n + 1), pages := z.ecc.pages ++ [(k, page)], pass := z.ecc.pass.filter (fun x => !inPage x) } }
    z.raiseFence .memory (regionCode r) 0 0 (2 ^ 14) z.frameNow

/-- A correction is counted; the third of a stack's code word in one scrub pass retires its page. -/
def Za.corrected (z : Za) (r : MemRegion) (address : Nat) : Za :=
  let z := z.count (.misc .corrections)
  let z : Za := { z with ecc := { z.ecc with corrected := min 0xFFFF (z.ecc.corrected + 1) } }
  if !inStacks r then z
  else
    let word := address / 128
    let mine (x : MemRegion × Nat × Nat) : Bool := x.1 == r && x.2.1 == word
    let n := ((z.ecc.pass.find? mine).map (fun x => x.2.2)).getD 0 + 1
    let z : Za := { z with ecc := { z.ecc with pass := z.ecc.pass.filter (fun x => !mine x) ++ [(r, word, n)] } }
    if n = 3 then z.retirePage r address else z

/-! ### What an uncorrectable word costs (R189). -/

/-- The thing that lies at an address, among those a region holds. -/
def placed {α : Type} (r : MemRegion) (address : Nat) (l : List α) : Option α :=
  if l = [] then none else l[Config.placeOf (regionCode r) (address / 128) % l.length]?

/-- The physical channel of a logical one (R210, R400). -/
def Za.physChannel (z : Za) (ch : Nat) : Nat :=
  let live (c : Nat) : Bool := !z.fences.channels.contains c
  let q := if z.quadLive (ch / 4) then ch / 4 else (z.nextQuad (ch / 4)).getD (ch / 4)
  let order (q : Nat) : List Nat := (List.range 4).map (fun i => 4 * q + (ch + i) % 4)
  ((order q ++ (([1, 2, 3].map (fun i => (q + i) % 4)).filter z.quadLive).flatMap order).find? live).getD (4 * q + ch % 4)

/-- A channel's third uncorrectable error in its Pod work within 64 frames fences it (R400). -/
def Za.channelError (z : Za) (c : Nat) : Za :=
  let recent := z.fences.chanErrors.filter (fun (p : Nat × Nat) => decide (z.time.begun < p.2 + 64)) ++ [(c, z.time.begun)]
  let z : Za := { z with fences := { z.fences with chanErrors := recent } }
  if 3 ≤ recent.countP (fun p => p.1 == c) then z.fenceChannel c (some .memUncorr) else z

/-- What a Pod's staging may lose: a contribution, or a child's partial result. -/
inductive Staged
  | input (die cluster : Nat)
  | child (pod height : Nat)
  deriving DecidableEq, Repr

/-- An input or a child's result becomes absent with cause bit 3. -/
def Za.losePod (z : Za) (r : MemRegion) (e address : Nat) : Za :=
  match z.work e with
  | none => z
  | some w =>
    let inputs := (w.contribs.filter (fun x => x.taken == .present && !w.dead.contains (x.die, x.cluster))).map (fun x =>
      Staged.input x.die x.cluster)
    let children := w.pods.flatMap (fun p => (p.children.filter (fun c => c.result.isSome)).map (fun c => Staged.child p.index c.height))
    match placed r address (inputs ++ children) with
    | none => z
    | some (.input die c) =>
      let z := z.modWork e w.frame (fun x => { x with dead := x.dead ++ [(die, c)] })
      z.channelError (z.physChannel (c % 16))
    | some (.child i h) =>
      let lose (c : ChildIn) : ChildIn := if c.height = h then { c with cause := 3, result := none } else c
      let z := z.modWork e w.frame (fun x => { x with
        pods := modWhere x.pods (fun p => p.index == i) (fun p => { p with children := p.children.map lose }) })
      (z.count (.red .absentMemory e)).channelError (z.physChannel (i % 16))

/-- A row is invalid for its frame. -/
def Za.loseRow (z : Za) (r : MemRegion) (e address : Nat) : Za :=
  let rows := (z.works.filter (fun w => w.entry == e)).flatMap (fun w => (w.rows.filter (·.valid)).map (fun x => (w.frame, x.tile, x.entity)))
  match placed r address rows with
  | none => z
  | some p => (z.modWork e p.1 (fun w => { w with
      rows := modWhere w.rows (fun x => x.tile == p.2.1 && x.entity == p.2.2) (fun x => { x with valid := false }) })).count (.ens .rowsInvalid e)

/-- The eight entries of a code word of a digest table are not present until the table is loaded again. -/
def Za.loseDigest (z : Za) (r : MemRegion) (e address : Nat) : Za :=
  match z.ctx? e with
  | none => z
  | some c => match placed r (address / 2 ^ 26 * 2 ^ 26) (c.tables.map Prod.fst) with
    | none => z
    | some version =>
      let keep (x : Nat × List W) : Bool := decide (x.1 / 8 ≠ address % 2 ^ 26 / 128)
      z.modCtx e (fun x => { x with tables := modWhere x.tables (fun (t : Nat × List (Nat × List W)) => t.1 == version) (fun t =>
        (t.1, t.2.filter keep)) })

/-- The detector and program records of a context are asked back from the partner (R189, R335). -/
def Za.loseState (z : Za) (e : Nat) : Za :=
  match z.ctx? e with
  | none => z
  | some c =>
    let mine := (z.seedItems.filter (fun i => decide (i.ctx = c.id ∧ i.gen = c.gen ∧ (i.cls = 3 ∨ i.cls = 4)))).map SeedItem.name
    if mine = [] then z else z.askRestore mine

/-- An item of the mirror we hold is damaged. -/
def Za.loseMirror (z : Za) (r : MemRegion) (address : Nat) : Za :=
  match z.seedHeld.bind (fun h => placed r address (h.items.map SeedItem.name)) with
  | some n => z.seedDamage n
  | none => z

/-- A checkpoint is damaged: it is no longer complete, or our own copy is taken again at the next one. -/
def Za.loseCheckpoint (z : Za) (r : MemRegion) (address : Nat) : Za :=
  match placed r address z.rack.held with
  | some c => { z with rack := { z.rack with held := modWhere z.rack.held (fun x => x == c) (fun x => { x with complete := false, parts := [] }) } }
  | none => { z with rack := { z.rack with own := none } }

/-- A waiting record or packet is discarded. -/
def Za.loseForward (z : Za) (r : MemRegion) (address : Nat) : Za :=
  match placed r address z.forward.waiting with
  | some x => ({ z with forward := { z.forward with waiting := z.forward.waiting.erase x } }).count (.misc .forwardDrop)
  | none => z

def Za.losePacket (z : Za) (r : MemRegion) (address : Nat) : Za :=
  match placed r address (z.links.flatMap (fun (l : Nat × ZaLink) => l.2.queue.map (fun q => (l.1, q)))) with
  | some x => (z.modLink x.1 (fun l => { l with queue := l.queue.erase x.2 })).count (.misc .forwardDrop)
  | none => z

/-- The node store, the tile buffers and MODEL are filled again from the model's image: the entities whose scoring used the word in
the current frame are scored again; what then misses the deadline is late (R270). -/
def Za.loseModel (z : Za) (r : MemRegion) (e address : Nat) : Za :=
  match z.scoring e with
  | none => z
  | some w =>
    let used (score entity : Nat) : Bool := Config.scoredWith (regionCode r) (address / 128) score entity
    let ss := walked (z.secs w)
    let tileOf (score : Nat) : Bool := (ss.find? (fun s => s.score == score)).any Sec.tile
    let walks := (w.items.filter (fun x => used x.score x.entity)).map (fun x => (tileOf x.score, x.entity))
    let outs := (w.scores.filter (fun x => used x.index x.entity)).map (fun x => (x.tile, x.entity))
    z.rescore e w (walks ++ outs).eraseDups

/-- What a region loses with an uncorrectable word. The L1 caches are filled again from the L2. -/
def Za.lose (z : Za) (r : MemRegion) (e address : Nat) : Za :=
  match r with
  | .pod => z.losePod r e address
  | .podStore => z.losePod r e address
  | .feature => z.loseRow r e address
  | .featureStaging => z.loseRow r e address
  | .digest => z.loseDigest r e address
  | .detectState => z.loseState e
  | .seedbank => z.loseMirror r address
  | .checkpoint => z.loseCheckpoint r address
  | .forward => z.loseForward r address
  | .linkBuffers => z.losePacket r address
  | .nodeStore => z.loseModel r e address
  | .tileBuffers => z.loseModel r e address
  | .model => z.loseModel r e address
  | _ => z

/-- MEM_UNCORR, and what it costs. The subject is the count of wrong symbols (log 148). -/
def Za.uncorrectable (z : Za) (r : MemRegion) (e address symbols : Nat) : Za :=
  let z : Za := { z with ecc := { z.ecc with uncorrectable := min 0xFF (z.ecc.uncorrectable + 1) } }
  let f : FaultFields := { faultOf .memUncorr .memory (regionCode r) .none symbols (address / 128) with severity := uncorrSeverity r }
  let f : FaultFields := match z.ctx? e with
    | some c => if ownedByCtx r then { f with ctx := c.id, gen := c.gen } else f
    | none => f
  (z.raiseF f).lose r e address

/-! ### The commands. -/

/-- An injection that waits for a read of this code word (R447). -/
def Za.memInjection (z : Za) (r : MemRegion) (address : Nat) : Option Injection :=
  z.injections.find? (fun i => i.code == 0x01 && decide ((word i.payload 0).toNat = regionCode r ∧ dword i.payload 1 / 128 = address / 128))

/-- A read of a code word by a requester or the scrubber. -/
def Za.readWord (z : Za) (r : MemRegion) (e address : Nat) (es : List (Fin 136 × Byte)) : Za :=
  if !z.running ∨ regionSize r ≤ address then z
  else
    let inj := z.memInjection r address
    let z : Za := match inj with
      | some i => { z with injections := z.injections.erase i }
      | none => z
    let found := injectSymbols (wrongSymbols es) ((inj.map (·.n)).getD 0)
    match readOutcome r found with
    | .sound => z
    | .corrected => z.corrected r address
    | .bad => z.uncorrectable r e address found.length

/-- MEM_ERROR (R189). -/
def execMemError (region : MemRegion) (entry : Fin 1024) (address : Nat) (errors : List (Fin 136 × Byte)) (s : State) : Answer :=
  .next (s.onZa (·.readWord region entry.val address errors))

/-- SCRUB_READ (R190): every stack word, and the SRAMs that correct. A pass begins anew at the first word of the stacks (log entry 148). -/
def Za.scrubRead (z : Za) (r : MemRegion) (e address : Nat) (es : List (Fin 136 × Byte)) : Za :=
  if !bit (z.reg 0x2000) 31 ∨ !(inStacks r || corrects r) then z
  else
    let z : Za := if r = .firmware ∧ address < 128 ∧ z.running then { z with ecc := { z.ecc with pass := [] } } else z
    z.readWord r e address es

def execScrubRead (region : MemRegion) (entry : Fin 1024) (address : Nat) (errors : List (Fin 136 × Byte)) (s : State) : Answer :=
  .next (s.onZa (·.scrubRead region entry.val address errors))

end Sys2Proof.Machine
end

