-- ==== Sys2Proof/Machine/ZaPower.lean ====
section
/-!
DEFINITION. Power, temperature, resets and Lull states of the ZA40 (R448 to R472).
-/
namespace Sys2Proof.Machine

/-! ### What resets and Lull-3 keep (R465, R467). -/

/-- Registers of the time unit and of power. -/
def keptReg (a : Nat) : Bool := decide ((0x3000 ≤ a ∧ a < 0x4000) ∨ a = 0xB000)

/-- What a pin reset leaves: the time unit, the tag area, the event log, ZA_PWR_CFG, and what the GaN die reads. -/
def Za.pinCleared (z : Za) : Za :=
  let f := Za.initial
  let p := z.power
  { f with
    tag := z.tag, time := { z.time with counters := [] }, ptp := { f.ptp with lat := z.ptp.lat }, marks := z.marks
    regs := z.regs.filter (fun r => keptReg r.1), injected := z.injected
    power := { f.power with
      cfg := p.cfg, cfgNext := p.cfgNext, vin := p.vin, iin := p.iin, pin := p.pin, warn := p.warn, temps := p.temps
      events := p.events, strap := p.strap, strapLow := p.strapLow, lastReset := 1 } }

/-- The fence map and the margin steps. -/
def Fences.map (f : Fences) : Fences :=
  { Fences.initial with
    lanes := f.lanes, tiles := f.tiles, channels := f.channels, quadrants := f.quadrants, cores := f.cores, links := f.links
    margin := f.margin }

/-- What a warm reset leaves: more than a pin reset the fence map, the stack regions FIRMWARE, SEEDBANK and CHECKPOINT, the fault
log, and the service header block. The count of boot sources tried goes on where the reset falls in a warm reset's boot (R206). -/
def Za.warmCleared (z : Za) : Za :=
  let f := z.pinCleared
  { f with
    fences := z.fences.map, seedHeld := z.seedHeld, rack := { f.rack with held := z.rack.held, own := z.rack.own }
    faultLog := z.faultLog, keomon := z.keomon, ecc := { f.ecc with retired := z.ecc.retired, pages := z.ecc.pages }
    boot := { f.boot with
      running := z.boot.running, attempts := if z.power.lastReset = 2 ∧ z.boot.phase ≠ 4 then z.boot.attempts else 0 }
    power := { f.power with lastReset := 2, firmwareKept := !z.boot.running.isEmpty } }

/-- A DTU of a tray that goes down with its links: its admission generation and hold stay. -/
def DieEntry.down (d : DieEntry) : DieEntry :=
  { DieEntry.fresh d.die d.link with tag := d.tag, vercap := d.vercap, admGen := d.admGen, hold := d.hold, holdFrom := d.holdFrom, fenced := d.fenced }

/-- What Lull-3 keeps: the IDs, the rack table, the management L2 and the management ports besides (R466, R467). -/
def Za.lullCleared (z : Za) : Za :=
  let f := z.pinCleared
  { f with
    aggId := z.aggId, fabricId := z.fabricId, rackId := z.rackId, admitted := z.admitted, boot := z.boot, fences := z.fences.map
    rack := { z.rack with held := [], own := none }, keomon := z.keomon, faults := z.faults, hailSeq := z.hailSeq
    hailDue := z.hailDue, hailEval := z.hailEval, admGen := z.admGen, dies := z.dies.map DieEntry.down
    links := z.links.filter (fun l => decide (80 ≤ l.1))
    power := { f.power with lastReset := z.power.lastReset, lull := 3, step := z.power.step, calm := z.power.calm } }

/-! ### Power-up and power loss (R449, R451 to R453, R456). -/

/-- Volts in the units of ZA_PWR_IN. -/
def volts (halves : Nat) : Nat := halves * 128

/-- The tag's serial number, which nothing clears. -/
def Za.serial (z : Za) : Memory := z.tag.filter (fun c => decide (c.1 < 16))

/-- VIN outside 40 to 60 V. -/
def vinWarn (vin : BitVec 16) : Bool := decide (vin.toNat < volts 80 ∨ volts 120 < vin.toNat)

/-- VIN is where power-up may begin: above the lowest turn-on threshold, below over-voltage. -/
def vinOn (vin : BitVec 16) : Bool := decide (volts 75 ≤ vin.toNat ∧ vin.toNat < volts 127)

/-- The power-up sequence as far as the boot ROM's first source: the test strap is sampled, and its own rise will be ignored
(R458). -/
def Za.powerOn (z : Za) (vin : BitVec 16) (strap : Bool) : Za :=
  let f := Za.initial
  ({ f with
    tag := z.serial, power := { f.power with events := z.power.events, vin, warn := vinWarn vin, strap, strapLow := strap }
    boot := { f.boot with phase := 1 } }).bootStart

/-- POWER_UP: from no power, or from the power-on reset with the ROM at its start. -/
def execPowerUp (vin : BitVec 16) (strap : Bool) (s : State) : Answer :=
  .next (s.onZa (fun z =>
    if !z.power.tripped ∧ (!z.power.powered ∨ (z.boot.phase = 0 ∧ !z.power.pinLow)) ∧ vinOn vin then z.powerOn vin strap else z))

/-- Power goes: one event is written, and everything else is lost. -/
def Za.powerOff (z : Za) (cause rail temp : Nat) (vin : BitVec 16) (tripped : Bool) : Za :=
  let f := Za.initial
  let frame := if z.time.state = .locked then z.frameNow else 0
  let e : W × W := (pack [(cause, 31, 28), (rail, 27, 24), (temp, 23, 16), (vin.toNat, 15, 0)], w32 frame)
  { f with
    tag := z.serial
    power := { f.power with
      powered := false, rails := [], events := (e :: z.power.events).take 8, tripped, pinLow := z.power.pinLow || z.power.strapLow } }

/-- The hottest sensor last read. -/
def Za.tMax (z : Za) : Nat := z.power.temps.foldl max 0

/-- POWER_LOSS: VIN below turn-off, above over-voltage, or a rail out of its range. -/
def Za.powerLoss (z : Za) (cause : PowerCause) (rail : Nat) (vin : BitVec 16) : Za :=
  if !z.power.powered then z
  else match cause with
    | .undervoltage => if vin.toNat ≤ volts 71 then z.powerOff 1 0 z.tMax vin false else z
    | .overvoltage => if volts 125 ≤ vin.toNat then z.powerOff 2 0 z.tMax vin false else z
    | .rail => z.powerOff 4 rail z.tMax vin false

def execPowerLoss (cause : PowerCause) (rail : Fin 15) (vin : BitVec 16) (s : State) : Answer :=
  .next (s.onZa (·.powerLoss cause rail.val vin))

/-- THERMAL_TRIP: a sensor at 115 degrees, or 64 slots at 110 with the throttle at its last step. -/
def Za.thermalTrip (z : Za) (temp : Nat) (vin : BitVec 16) : Za :=
  if z.power.powered ∧ (115 ≤ temp ∨ (110 ≤ temp ∧ 64 ≤ z.power.hotRun)) then z.powerOff 3 0 temp vin true else z

def execThermalTrip (temp : Byte) (vin : BitVec 16) (s : State) : Answer := .next (s.onZa (·.thermalTrip temp.toNat vin))

/-- THERMAL_TRIP_RESTART: below 85 degrees and ten seconds after the trip; the strap is the pin's level as last seen. -/
def execThermalTripRestart (temp : Byte) (tenths : Nat) (vin : BitVec 16) (s : State) : Answer :=
  .next (s.onZa (fun z =>
    if z.power.tripped ∧ temp.toNat < 85 ∧ 100 ≤ tenths ∧ vinOn vin then z.powerOn vin z.power.pinLow else z))

/-- INPUT_WARN. -/
def execInputWarn (vin : BitVec 16) (s : State) : Answer :=
  .next (s.onZa (fun z => if z.power.powered then { z with power := { z.power with warn := vinWarn vin } } else z))

/-! ### Resets (R458, R465, R468). -/

/-- SVC_PIN_RESET: low holds the ZA40 in pin reset, and its rise releases it; the strap's own first rise is ignored. Without power the
level is only seen. -/
def Za.svcPin (z : Za) (low : Bool) : Za :=
  if !z.power.powered then { z with power := { z.power with pinLow := low } }
  else if z.power.strapLow then (if low then z else { z with power := { z.power with strapLow := false } })
  else if low then (if z.power.pinLow then z else { z.pinCleared with power := { z.pinCleared.power with pinLow := true } })
  else if z.power.pinLow then
    ({ z with power := { z.power with pinLow := false }, boot := { z.boot with phase := 1 } }).bootStart
  else z

def execSvcPinReset (low : Bool) (s : State) : Answer := .next (s.onZa (·.svcPin low))

/-- The warm reset itself: the boot ROM starts, with the stack copy as its first source. -/
def Za.warm (z : Za) : Za := if z.power.powered ∧ !z.power.pinLow then z.warmCleared.bootStart else z

/-- WARM_RESET: a FATAL fault, MGMT_LOST or ZA_RESET has asked for it. -/
def execWarmReset (s : State) : Answer := .next (s.onZa (fun z => if z.power.warmDue then z.warm else z))

/-- WATCHDOG_EXPIRY. -/
def execWatchdogExpiry (s : State) : Answer := .next (s.onZa Za.warm)

/-- A port restarts (ZA_RESET kind 3): both halves begin at HELLO; one that carried the PTP parent sends the time unit into HOLDOVER
(R465, R468). -/
def Za.portReset (z : Za) (P : Nat) : Za :=
  let ps := if P < 40 then [2 * P, 2 * P + 1] else [P + 40]
  let z := ps.foldl Za.linkRestart z
  if z.ptp.parent.any (fun p => ps.contains p) then
    let z : Za := { z with ptp := { z.ptp with parent := none } }
    if z.time.state = .locked then z.withTime (z.time.enter .holdover) else z
  else z

/-- A block restarts (kind 2): a quadrant's tile buffers are empty (R467). -/
def Za.blockReset (z : Za) (q : Nat) : Za :=
  let area (a : ModelArea) : ModelArea :=
    { a with tiles := a.tiles.map (fun (t : Nat × List Nat) => (t.1, t.2.filter (fun i => decide (i / 8 ≠ q)))) }
  { z with models := z.models.map (fun m => { m with cur := m.cur.map area, oth := m.oth.map area }) }

/-- ZA_RESET: the reply leaves first; a warm reset follows as WARM_RESET, a port's at the next slot boundary (log entry 152). -/
def Za.zaReset (z : Za) (h : HuskCmd) : ZaBody :=
  let p1 := huskP1 h
  match huskP0 h with
  | 1 => if p1 ≠ 0 then z.refuse badP1 else ({ z with power := { z.power with warmDue := true } }).ok
  | 2 =>
    let i := bits p1 3 0
    match p1 / 16 with
    | 0 =>
      if 3 < i then z.refuse badP1
      else if z.fences.quadrants.contains i then (z.blockReset i).ok else z.refuse (resultOf stResetRefused)
    | 1 =>
      if 5 < i then z.refuse badP1
      else if z.fences.cores.contains i then z.ok else z.refuse (resultOf stResetRefused)
    | _ => z.refuse badP1
  | 3 => if 41 < p1 then z.refuse badP1 else ({ z with power := { z.power with resetPorts := z.power.resetPorts ++ [p1] } }).ok
  | _ => z.refuse badP0

/-! ### Throttling (R455, R471). -/

/-- THERMAL_THROTTLE: the step rises while it is too hot or the power too high, and falls after 64 slots that allow it. -/
def Za.throttle (z : Za) (r : ThermalReading) : Za :=
  if !z.power.powered then z
  else
    let p := z.power
    let temps := [r.q0.toNat, r.q1.toNat, r.q2.toNat, r.q3.toNat, r.spine.toNat]
    let t := temps.foldl max 0
    let cap := fld p.cfg 31 22
    let hotAt := fld p.cfg 21 14
    let w := r.power.toNat
    let beyond := decide (cap < w)
    let hot := decide (hotAt ≤ t)
    let cool := decide (t + 3 < hotAt ∧ w + 20 < cap)
    let up := beyond || hot
    let calm := if up then 0 else if cool then p.calm + 1 else 0
    let step := if up then min 8 (p.step + 1) else if calm = 64 then p.step - 1 else p.step
    { z with power := { p with
      vin := r.vin, iin := r.iin, pin := w, temps, capLimit := beyond, thermalLimit := hot, step, calm := if calm = 64 then 0 else calm
      hotRun := if 110 ≤ t ∧ step = 8 then p.hotRun + 1 else 0 } }

def execThermalThrottle (reading : ThermalReading) (s : State) : Answer := .next (s.onZa (·.throttle reading))

/-- PWR_LIMIT: written at the next slot boundary. -/
def Za.pwrLimit (z : Za) (h : HuskCmd) : ZaBody :=
  let cap := huskP0 h
  let hot := huskP1 h
  if cap < 400 ∨ 820 < cap then z.refuse badP0
  else if hot < 70 ∨ 105 < hot then z.refuse badP1
  else ({ z with power := { z.power with cfgNext := some (pack [(cap, 31, 22), (hot, 21, 14)]) } }).ok

/-! ### Lull states (R464, R466, R471). -/

/-- LULL_HOLD: from the next tick on. -/
def Za.lullHold (z : Za) (h : HuskCmd) : ZaBody :=
  let die := huskP0 h
  let n := huskP1 h
  match z.die? die with
  | none => z.refuse (resultOf stBadTarget)
  | some d =>
    if n = 0 then z.refuse badP1
    else if d.slots.any (fun s => s.slot != 0) then z.refuse (resultOf stLullMember)
    else (z.modDie die (fun x => { x with hold := n, holdFrom := z.frameNow + 1, holdEnds := false })).ok

/-- LULL_RELEASE. -/
def Za.lullRelease (z : Za) (h : HuskCmd) : ZaBody :=
  match z.die? (huskP0 h) with
  | none => z.refuse (resultOf stBadTarget)
  | some d =>
    if d.hold = 0 then z.refuse (resultOf stLullState)
    else (z.modDie d.die (fun x => { x with hold := 0, holdEnds := false })).ok

/-- The conditions of R466 hold. -/
def Za.mayLull (z : Za) (n : Nat) : Bool :=
  z.jobs.isEmpty && decide (z.role = 0 ∧ z.frost.state = 0) && (decide (n < 2) || (z.seed.isNone && z.seedHeld.isNone))

/-- ZA_LULL: entered as its DONE_HANDLE is posted (log entry 153). Only a deeper state can be entered from a Lull state. -/
def Za.zaLull (z : Za) (h : HuskCmd) (handle : W) : ZaBody :=
  let n := huskP0 h
  if n = 0 then z.refuse badP0
  else if 255 < huskP1 h then z.refuse badP1
  else if n ≤ z.power.lull then z.refuse (resultOf stLullState)
  else if !z.mayLull n ∨ z.power.lullTo.isSome then z.refuse (resultOf stLullBusy)
  else (({ z with power := { z.power with lullTo := some (n, huskP1 h, handle) } }).finish handle (resultOf stOk), none)

/-- The ZA40 enters the Lull state that was asked for under a handle. -/
def Za.enterLull (z : Za) (handle : W) : Za :=
  match z.power.lullTo with
  | none => z
  | some (n, mask, h) =>
    if h ≠ handle ∨ handle = 0 then z
    else
      let z : Za := { z with power := { z.power with lullTo := none, lull := n, keepVoe := if n = 2 then mask else 0 } }
      match n with
      | 2 =>
        let off := (List.range 8).filter (fun g => bits mask g g == 0)
        let down := (List.range 80).filter (fun p => off.contains (p / 10) && z.linkOn p)
        let rails := z.power.rails.filter (fun r => !([1, 2, 3, 4].contains r) && !off.any (fun g => r == 7 + g))
        down.foldl Za.linkRestart { z with power := { z.power with rails } }
      | 3 => z.lullCleared
      | _ => z

/-- ZA_WAKE: at once from Lull-1 and Lull-2; from Lull-3 the image in the management L2 is verified and started again. -/
def Za.zaWake (z : Za) (handle : W) : ZaBody :=
  let all := List.range 15
  match z.power.lull with
  | 0 => z.refuse (resultOf stLullState)
  | 3 =>
    let image := z.boot.running
    ({ z with
      power := { z.power with lull := 0, lullTo := some (0, 0, handle), rails := [0, 5] }
      boot := { z.boot with phase := 3, source := 4, port := 0, image, length := image.length } }, none)
  | _ =>
    let was := (List.range 80).filter z.linkOn
    let z : Za := { z with power := { z.power with lull := 0, keepVoe := 0, rails := all } }
    let up := (List.range 80).filter (fun p => z.linkOn p && !was.contains p)
    ((up.foldl Za.linkRestart z).finish handle (resultOf stOk), none)

end Sys2Proof.Machine
end

