-- ==== Sys2Proof/Machine/ZaStatus.lean ====
section
/-!
DEFINITION. The bodies of the opcodes that tell what the ZA40 is and change its registers: IDENT, STATUS, handles, registers, tags,
LINK_RESET (R7, R366, R376, R381, R382, R384, R386).
-/
namespace Sys2Proof.Machine

/-- IDENT (R381). -/
def Za.ident (z : Za) : ZaBody := (z, some (okPayload ([zaIdent, zaVercap, z.bootStatus, z.fwVersion] ++ z.tag.words 0 8)))

/-! ### STATUS (R384). -/

def RedCnt.all : List RedCnt :=
  [.absentMissing, .absentCrc, .absentConfig, .absentMemory, .absentScale, .lateArrival, .duplicate, .misroute,
   .wrongFrame, .overflow, .reruns, .rerunAbandoned, .scaleFallback, .podWait, .podWaitLate, .reorderFull,
   .reorderSkip, .reorderDup, .paramFull, .paramConfirm]

def EnsCnt.all : List EnsCnt :=
  [.rowsWritten, .rowsLate, .rowsInvalid, .nanToInt, .arithMissing, .extLate, .items, .visits, .visitsSpilled,
   .missTaken, .nanSeen, .catRange, .checks, .disagreements, .arbitrated, .backlog, .rescored, .unscoredSplit,
   .scoresLate]

def TenCnt.all : List TenCnt :=
  [.batches, .batchesLate, .tileCycles, .reruns, .nanOut, .stateReset, .loads, .fetchFail, .badSource, .swaps,
   .swapsDeferred, .comparisons, .expulsions, .replicaTimeout, .noMajority, .served]

def DetCnt.all : List DetCnt :=
  [.observations, .obsNone, .peerSmall, .toSuspect, .toConfirmed, .toNormal, .latched, .verdicts, .refreshes,
   .left, .actionsMargin, .actionsFence, .detLate, .restarts, .stateReset, .restores, .bandSets, .bandTrunc,
   .cacheChanges, .seedUpdates, .seedAcks, .seedNacks, .seedAbandoned, .seedItems]

/-- The Seedbank's counters are held once, and every detector record gives them (log entry 155). -/
def DetCnt.shared (c : DetCnt) : Bool :=
  [DetCnt.seedUpdates, .seedAcks, .seedNacks, .seedAbandoned, .seedItems].contains c

/-- The counters of one record of a context, by kind (R239, R272, R312, R336). -/
def ctxCounters (kind e : Nat) : List ZCnt :=
  match kind with
  | 6 => RedCnt.all.map (fun c => .red c e)
  | 7 => EnsCnt.all.map (fun c => .ens c e)
  | 8 => TenCnt.all.map (fun c => .ten c e)
  | 9 => DetCnt.all.map (fun c => .det c (if c.shared then 0 else e))
  | _ => []

/-- The counters of a link's record (R366): flows are BULK, PEER and the DTUs admitted on it. -/
def Za.linkCounters (z : Za) (p : Nat) : List ZCnt :=
  let one (c : LinkCnt) : ZCnt := .link c p 0
  let eight (c : LinkCnt) : List ZCnt := (List.range 8).map (fun i => .link c p i)
  let dies := (z.dies.filter (fun d => d.admitted && d.link == p)).map (·.die)
  [LinkCnt.fcsErr, .macDrop, .badAddr, .badHcrc, .badTver, .fabricMismatch, .classMisuse, .badLen, .stale].map one ++
    eight .lseqGap ++ eight .creditOver ++ eight .heldNs ++ [one .gateOversize] ++
    [.link .policeDrop p 5, .link .policeDrop p 7] ++
    dies.flatMap (fun d => (List.range 8).map (fun c => .link .policeDrop p (8 + 8 * d + c))) ++
    dies.map (fun d => .link .fwdTraceDrop p d) ++ [one .fwdBulkDrop] ++
    [1, 2, 3].map (fun r => .link .linkResets p r)

/-- The time record's words for the DTUs: each die and its echo mean in quarters of a nanosecond (R182). -/
def Za.echoWords (z : Za) : List W :=
  (z.dies.filter (·.admitted)).flatMap (fun d =>
    [w32 d.die, match d.echo.mean with
      | some m => w32 (toTwos 32 (quarterNs (2 ^ 31 - 1) m))
      | none => 0x80000000])

/-- The words of a frame summary record (R34). The spec gives its contents, not its layout (log entry 155). -/
def Summary.words (s : Summary) : List W :=
  [w32 s.frame, pack [(b2n s.degraded, 31, 31), (b2n s.thermal, 30, 30), (b2n s.unmirrored, 29, 29)]] ++ twoWords s.skipped ++
    [w32 s.stretched] ++ twoWords (toTwos 64 s.length) ++
    [w32 s.earliest, pack [(s.late.length, 31, 16), (s.expelled.length, 15, 8), (s.audit.length, 7, 0)]] ++
  s.late.flatMap (fun l => [pack [(l.1, 31, 16), (l.2.1, 15, 8)], w32 l.2.2]) ++
  s.expelled.map (fun x => pack [(x.1, 31, 16), (x.2, 7, 0)]) ++ s.audit.map (fun q => w32 q.code)

/-- The records of one kind: (context, generation, words, counters). -/
def Za.statusRecords (z : Za) (kind : Nat) (only : Option (Nat × Nat)) : List (Nat × Nat × List W × List ZCnt) :=
  let count (cs : List ZCnt) : List W := cs.map (fun c => w32 (z.cnt c))
  let words := (List.range 42).map (fun P => z.mgmtRead (0x8104 + 16 * P))
  match kind with
  | 0 =>
    let ignored := [ZCnt.misc .tagIgnored]
    [(0xFFFF, 0, [0, 4, 0x10, 0x18, 0x3008].map z.mgmtRead ++ words ++ [0x5004, 0x6000, 0x7000].map z.mgmtRead ++ count ignored, ignored)]
  | 1 => [(0xFFFF, 0, z.tag.words 0 64, [])]
  | 5 => [(0xFFFF, 0, z.time.record (w32 (toTwos 32 (z.time.utcOffset.toInt))) z.echoWords, [])]
  | 10 => ((List.range 82).filter (fun p => z.linkOn p && z.face p != 0)).map (fun p =>
      (0xFFFF, 0, count (z.linkCounters p), z.linkCounters p))
  | 11 => match z.summary with
    | some s => [(0xFFFF, 0, s.words, [])]
    | none => []
  | _ =>
    if 6 ≤ kind ∧ kind ≤ 9 then
      let cs := (sortBy Prod.fst z.ctxs).filter (fun (p : Nat × Ctx) => only.all (fun o => o == (p.2.id, p.2.gen)))
      cs.map (fun (p : Nat × Ctx) => (p.2.id, p.2.gen, count (ctxCounters kind p.1), ctxCounters kind p.1))
    else []

/-- The records that fit, those left out by kind, and the counters and kinds given. -/
structure Given where
  out : List W
  cut : List Nat
  counters : List ZCnt
  kinds : List Nat
  deriving DecidableEq, Repr

/-- STATUS (R384, R386): while the boot ROM runs, kinds 0 and 1 only. -/
def Za.statusReply (z : Za) (h : HuskCmd) : ZaBody :=
  let room := replyRoom h.req
  let top := if z.boot.phase = 4 then 12 else 2
  let only := if huskCtx h = 0xFFFF then none else some (huskCtx h, huskGen h)
  let kinds := (List.range top).filter (fun k => decide (bits (huskP0 h) k k = 1))
  let step (g : Given) (k : Nat) (r : Nat × Nat × List W × List ZCnt) : Given :=
    let rec_ := statusRecord k r.1 r.2.1 r.2.2.1
    if g.out.length + rec_.length ≤ room then
      { out := g.out ++ rec_, cut := g.cut, counters := g.counters ++ r.2.2.2, kinds := g.kinds ++ [k] }
    else { g with cut := g.cut ++ [k] }
  let g := kinds.foldl (fun (g : Given) k => (z.statusRecords k only).foldl (fun g r => step g k r) g)
    { out := [], cut := [], counters := [], kinds := [] }
  let mask := (g.cut.eraseDups.map (2 ^ ·)).sum
  let z' : Za := if bit h.w6 0 then
      { z with counters := clearCounters z.counters g.counters
               time := if g.kinds.contains 5 then { z.time with counters := [] } else z.time }
    else z
  (z', some { status := stOk, detail := 0, result0 := mask, payload := g.out, trunc := !g.cut.isEmpty })

/-! ### Handles (R376). -/

/-- HANDLE_QUERY of a handle that has not been retained. -/
def Za.handleQuery (z : Za) (h : HuskCmd) : ZaBody :=
  match z.handle? (huskHandle h) with
  | some x => (z, some (okValue (if x.done.isNone ∧ (x.parked ∨ z.isParked x) then 1 else 2)))
  | none => z.refuse (resultOf stHandleUnknown)

/-- HANDLE_CANCEL: only while it waits. -/
def Za.handleCancel (z : Za) (h : HuskCmd) : ZaBody :=
  match z.handle? (huskHandle h) with
  | some x =>
    if x.done.isNone ∧ z.isParked x then (z.finishWhere (fun y => y.handle == x.handle) true (resultOf stCancelled)).ok
    else z.refuse (resultOf stHandleRunning)
  | none => z.refuse (resultOf stHandleUnknown)

/-! ### Registers, tags, links. -/

/-- The tests REG_READ and REG_WRITE share: 1 to 128 words, the management space, mapped addresses. -/
def Za.regTest (z : Za) (h : HuskCmd) : Option Result :=
  let n := huskP1 h % 256
  if n = 0 ∨ 128 < n ∨ fld h.w6 31 28 ≠ 0 then some badP1
  else match firstUnmapped z.mapped (regAddrs h) with
    | some a => some { status := stBadParam, detail := 20, result0 := a, payload := [], trunc := false }
    | none => none

/-- REG_READ (R476). -/
def Za.regRead (z : Za) (h : HuskCmd) : ZaBody :=
  match z.regTest h with
  | some r => (z, some r)
  | none =>
    let as := regAddrs h
    let r := okPayload (as.map z.mgmtRead)
    (if as.contains 0x2004 then z.eccClear else z, some r)

/-- REG_WRITE (R382). -/
def Za.regWrite (z : Za) (h : HuskCmd) : ZaBody :=
  match z.regTest h with
  | some r => (z, some r)
  | none =>
    let as := regAddrs h
    match z.mgmtWrites ((List.range as.length).map (fun i => (i, as.getD i 0, word (huskPay h) i))) with
    | (_, some (st, i)) => (z.earn st, some (failDetail st i))
    | (z', none) => (z'.earn stOk).ok

/-- TAG_WRITE (R7). -/
def Za.tagWrite (z : Za) (h : HuskCmd) : ZaBody :=
  let a := huskP0 h
  let n := huskP1 h
  if a < 0x10 ∨ 0xFF < a then z.refuse badP0
  else if n = 0 ∨ 240 < n ∨ 0x100 < a + n then z.refuse badP1
  else ({ z with tag := z.tag.writeBytes a ((bytesOf (huskPay h)).take n) }).ok

/-- LINK_RESET (R354, R381): the reply leaves first; the link is reset at the next slot boundary (log entry 152). -/
def Za.linkResetCmd (z : Za) (h : HuskCmd) : ZaBody :=
  let p := huskP0 h
  if 82 ≤ p ∨ !z.linkOn p then z.refuse badP0
  else ({ z with cmds := { z.cmds with linkResets := (z.cmds.linkResets ++ [p]).eraseDups } }).ok

/-- A link that a LINK_RESET command named is reset: each DTU pair of a DTU-facing one (R354). -/
def Za.resetLink (z : Za) (p : Nat) : Za :=
  if z.face p = 1 then ((z.dies.filter (fun d => d.link == p)).map (·.die)).foldl (fun z d => z.sendLinkReset p (some d) 2) z
  else z.sendLinkReset p none 2

end Sys2Proof.Machine
end

