-- ==== Sys2Proof/Machine/ZaHusk.lean ====
section
/-!
DEFINITION. Commands in the ZA40: the tests of R369, targets and relays, short, long and chained execution
(R367 to R383, R386, R387, R391, R445, R464, R466).
-/
namespace Sys2Proof.Machine

/-! ### The opcodes' bodies. -/

/-- The effect of an opcode on the ZA40. `free` and `dom` are free values: a draw, and the observed domains of other dies' cells. -/
def Za.runOp (z : Za) (free : Nat) (dom : Nat → Nat → Nat) (op : Opcode) (h : HuskCmd) (handle : W) : ZaBody :=
  match op with
  | .ident => z.ident
  | .status => z.statusReply h
  | .handleQuery => z.handleQuery h
  | .handleCancel => z.handleCancel h
  | .regRead => z.regRead h
  | .regWrite => z.regWrite h
  | .tagWrite => z.tagWrite h
  | .softReset => z.refuse (resultOf stBadOpcode)
  | .frameReset => z.refuse (resultOf stBadOpcode)
  | .cellSample => z.refuse (resultOf stBadOpcode)
  | .linkResetCmd => z.linkResetCmd h
  | .retainReplay => z.refuse (resultOf stBadOpcode)
  | .margin => z.refuse (resultOf stBadOpcode)
  | .traceFlush => z.refuse (resultOf stBadOpcode)
  | .traceSave => z.refuse (resultOf stBadOpcode)
  | .traceRestore => z.refuse (resultOf stBadOpcode)
  | .timeResync => z.timeResync
  | .timeStep => z.timeStep h
  | .ctxAdmit => if z.factory ∧ huskCtx h ≠ 0 then z.refuse (resultOf stTestMode) else z.ctxAdmit h handle
  | .ctxTeardown => z.ctxTeardown h handle
  | .ctxQuota => z.ctxQuota h
  | .membership => z.membership h handle
  | .podPlan => z.podPlan h handle
  | .featPlan => z.featPlan h handle
  | .detPlan => z.detPlan h handle
  | .detReset => z.detReset h
  | .syncAlloc => z.syncAlloc h
  | .syncFree => z.syncFree h
  | .syncSet => z.syncSet h
  | .syncAdd => z.syncAdd h
  | .syncWait => z.syncWait h handle
  | .syncBind => z.syncBind h
  | .syncRead => z.syncRead h
  | .modelLoad => z.modelLoad h handle
  | .modelQuery => z.modelQuery h handle
  | .featWrite => z.featWrite dom h
  | .weightSwap => z.weightSwap h
  | .digestLoad => z.digestLoad h
  | .resultHistory => z.resultHistory h
  | .subscribe => z.subscribe h
  | .seedPair => z.seedPair h handle
  | .frostArm => z.frostArm h handle
  | .frostCancel => z.frostCancel h
  | .frostNow => z.frostNow h
  | .frostThaw => z.frostThaw h handle
  | .frostQuery => z.frostQuery
  | .scanOut => z.scanOut h handle
  | .loopTest => z.loopTest h handle
  | .selfTest => z.selfTest free h handle
  | .faultInject => z.faultInject h
  | .fence => z.fenceCmd h handle
  | .unfence => z.unfence free h handle
  | .readmit => z.readmit h
  | .liveClaim => z.liveClaim h
  | .liveQuery => z.liveQuery h
  | .rackSet => z.rackSet h
  | .ckptPut => z.ckptPut h
  | .ckptGet => z.ckptGet h handle
  | .rebuild => z.rebuildCmd h handle
  | .faultLog => z.faultLogCmd h
  | .lullHold => z.lullHold h
  | .lullRelease => z.lullRelease h
  | .zaLull => z.zaLull h handle
  | .zaWake => z.zaWake handle
  | .zaReset => z.zaReset h
  | .pwrLimit => z.pwrLimit h

/-! ### Targets (R371). -/

/-- Where a Husk goes: here, to a DTU of the tray, on to another aggregator, or nowhere. -/
inductive HuskDest
  | self
  | relay (die : Nat)
  | forward (agg : Nat)
  | bad
  deriving DecidableEq, Repr

/-- The unit that tkind and target name. keomon reaches the ZA40 and its DTUs only (R389). -/
def Za.huskDest (z : Za) (h : HuskCmd) : HuskDest :=
  match huskTkind h with
  | 0 => .self
  | 1 => if (z.die? (huskTarget h)).any (fun d => d.admitted) then .relay (huskTarget h) else .bad
  | 2 =>
    let agg := fld h.w2 11 0
    if agg = z.aggId then .self
    else if !h.req.keomon ∧ z.linkUp (z.linkToward agg) then .forward agg else .bad
  | _ => .bad

/-! ### The tests (R369). -/

/-- The opcodes that a ZA40 in Lull-2 or Lull-3 accepts (R471). -/
def lullOps : List Opcode := [.ident, .status, .regRead, .zaWake, .zaReset]

/-- The opcode is listed for the unit the command names, and allowed in its mode. -/
def Za.huskAllowed (z : Za) (op : Opcode) (h : HuskCmd) : Bool :=
  match huskTkind h with
  | 1 => op.units.1
  | 2 => op.units.2 && (op != .faultInject || z.factory || fld h.w2 11 0 != z.aggId)
  | _ => op.units.2 && (op != .faultInject || z.factory)

/-- Core 5's duties run on core 0 (R202, R391). -/
def Za.keomonBusy (z : Za) : Bool := z.fences.cores.contains 5 || z.fences.cores.contains 0

/-- The boot, admission and Lull phases, and keomon's limits (R386, R391, R471). -/
def Za.huskPhase (z : Za) (op : Opcode) (h : HuskCmd) : Option Result :=
  let asks := op == .ident || op == .status
  let console := h.req.keomon || decide (80 ≤ h.req.link)
  if z.boot.phase ≠ 4 ∧ (!asks ∨ huskTkind h = 1) then some (resultOf stBringup)
  else if !z.time.ticking ∧ (op = .ctxAdmit ∨ op = .membership ∨ huskTkind h = 1) then some (resultOf stBringup)
  else if 2 ≤ z.power.lull ∧ !(lullOps.contains op && console && decide (huskTkind h ≠ 1)) then some (resultOf stLullState)
  else if h.req.keomon ∧ z.keomonBusy ∧ !asks then some (resultOf stMgmtBusy)
  else none

/-- The payload fits the opcode and the way it goes (R368). -/
def huskFits (op : Opcode) (h : HuskCmd) (dest : HuskDest) : Bool :=
  let most := if h.req.keomon then 504 else 2288
  let on := match dest with
    | .relay _ => decide ((huskPay h).length ≤ 496)
    | _ => true
  decide (h.payload.length ≤ most) && on && lengthFits op h

/-- The context test: resident, and equal to the Triheud context unless that is 0xFFFF; CTX_ADMIT has R370 in its place. -/
def Za.huskContext (z : Za) (op : Opcode) (h : HuskCmd) : Bool :=
  if op = .ctxAdmit then h.thCtx == 0xFFFF
  else
    (h.thCtx == 0xFFFF || (h.thCtx.toNat == huskCtx h && h.thGen.toNat == huskGen h)) &&
      (if huskCtx h = 0xFFFF then huskGen h == 0 else (z.entryOf (huskCtx h) (huskGen h)).isSome)

/-- The opcodes that a DRAINING or RELEASING context still takes (R387). -/
def drainOk (op : Opcode) (h : HuskCmd) : Bool :=
  [Opcode.status, .regRead, .handleQuery, .handleCancel, .syncRead, .syncFree, .resultHistory].contains op ||
    (op == .subscribe && huskP0 h == 0) || decide (0x80 ≤ op.code ∧ op.code < 0xA0)

/-- The command's context is torn down and takes the opcode no more. -/
def Za.huskTorn (z : Za) (op : Opcode) (h : HuskCmd) : Bool :=
  match z.cmdCtx h with
  | some p => (p.2.state == .draining || p.2.state == .releasing) && op != .ctxAdmit && !drainOk op h
  | none => false

/-- The tests of R369 from version to target. -/
def Za.huskEarly (z : Za) (op : Opcode) (h : HuskCmd) : Option Result :=
  match huskForm op h (z.huskAllowed op h) with
  | some r => some r
  | none => match z.huskPhase op h with
    | some r => some r
    | none => if z.huskDest h = .bad then some (resultOf stBadTarget) else none

/-- The tests from length to the context's state. -/
def Za.huskLate (z : Za) (op : Opcode) (h : HuskCmd) : Option Result :=
  if !huskFits op h (z.huskDest h) then some (resultOf stBadLength)
  else if !z.huskContext op h then some (resultOf stNoContext)
  else if z.huskTorn op h then some (resultOf stCtxTorn)
  else none

/-- A handle may be taken for a command: its context's quota, or the 1,024 reserved ones (R196, R375). -/
def Za.handleFree (z : Za) (op : Opcode) (h : HuskCmd) : Bool :=
  let probe : Handle := { handle := 0, cmd := { op, req := h.req, w1 := h.w1, tag := 0 }, husk := h, parked := false, chain := none
                          relay := none, order := 0, done := none }
  match handleCtx probe, z.cmdCtx h with
  | some _, some p => decide (z.handlesHeld p.2 < p.2.q.handles)
  | _, _ => decide (z.cmds.handles.countP (fun x => (handleCtx x).isNone) < 1024)

/-! ### Relays (R371, R372, R406, R464). -/

/-- A register write that only the tray itself may make (R371). -/
def barredAddr (a : Nat) : Bool :=
  decide ((0x14100 ≤ a ∧ a < 0x14200) ∨ (0x18000 ≤ a ∧ a < 0x20000) ∨ (0x21040 ≤ a ∧ a < 0x210C0) ∨ (0x22000 ≤ a ∧ a < 0x26000))

/-- The books of a DTU's cells once a REG_WRITE has been carried out. -/
def cfgAfter (cfg : RegMap) (h : HuskCmd) : RegMap :=
  ((List.range (regAddrs h).length).zip (regAddrs h)).foldl (fun m p =>
    if cellSpace p.2 then regSet cellReset m p.2 (word (huskPay h) p.1) else m) cfg

/-- A relayed REG_WRITE that the tray refuses: a barred area, or a ctx_mask bit over a cell map that does not fit (R208, R371). -/
def Za.relayWriteFault (z : Za) (d : DieEntry) (h : HuskCmd) : Option Result :=
  let as := regAddrs h
  if fld h.w6 31 28 ≠ 1 then none
  else match as.find? barredAddr with
    | some _ => some badP0
    | none =>
      let cfg := cfgAfter d.cfg h
      let clusters := as.filter (fun a => decide (0x14000 ≤ a ∧ a < 0x14100))
      let conflict (c : Nat) : Option Nat := z.maskConflict d cfg c (fld (regGet cellReset cfg (cluAddr c)) 7 0)
      ((clusters.map clusterOfAddr).findSome? conflict).map (failValue stCellmapConflict)

/-- The tray's own checks of a command for one of its DTUs. -/
def Za.relayFault (z : Za) (die : Nat) (op : Opcode) (h : HuskCmd) : Option Result :=
  match z.die? die with
  | none => some (resultOf stBadTarget)
  | some d =>
    if d.fenced.isSome ∧ op ≠ .ident ∧ op ≠ .status ∧ op ≠ .linkResetCmd then some (resultOf stBadTarget)
    else if z.isHeld d then some (resultOf stLullHeld)
    else if op.isLong ∧ 64 ≤ z.cmds.queued.countP (fun q => q.die == die) then some (resultOf stDtuBusy)
    else if op = .regWrite then z.relayWriteFault d h
    else none

/-! ### Execution (R374, R378, R380). -/

/-- A refused long command leaves no handle behind. -/
def Za.untake (z old : Za) : Za :=
  { z with cmds := { z.cmds with
      handles := old.cmds.handles, hseq := old.cmds.hseq, retained := old.cmds.retained, order := old.cmds.order } }

/-- A short command runs and is answered; a handle's retained record goes out as it was posted (R376). -/
def Za.runShort (z : Za) (free : Nat) (dom : Nat → Nat → Nat) (op : Opcode) (h : HuskCmd) : Za :=
  let kept := if op = .handleQuery then z.cmds.retained.find? (fun r => r.handle == huskHandle h) else none
  match kept with
  | some r =>
    let e : CacheEntry := { req := h.req, tag := huskTag h, bytes := huskBytes op h, reply := r.record, handle := 0, at_ := z.time.begun }
    let z : Za := { z with cmds := { z.cmds with cache := storeTag z.cmds.cache 16384 e } }
    z.sendRecord h.req h.w1 r.record
  | none =>
    let p := z.runOp free dom op h 0
    p.1.replyNow op h 0 0 (p.2.getD (resultOf stOk)) true

/-- A long command starts: ACCEPTED, or DONE_NOW with what its own checks say. -/
def Za.runLong (z : Za) (free : Nat) (dom : Nat → Nat → Nat) (op : Opcode) (h : HuskCmd) : Za :=
  match z.take op h none false none with
  | none => z.replyNow op h 0 0 (failDetail stQuotaReached 3) true
  | some p =>
    match p.1.runOp free dom op h p.2 with
    | (z', some r) => (z'.untake z).replyNow op h 0 0 r true
    | (z', none) => z'.replyNow op h 1 p.2 (resultOf stOk) true

/-- A chained command that waits no more: its own checks run now, and a failure is the handle's result (R374, R380). -/
def Za.runChained (z : Za) (free : Nat) (dom : Nat → Nat → Nat) (op : Opcode) (h : HuskCmd) (handle : W) (relay : Option Nat) : Za :=
  match relay with
  | some die =>
    match z.relayFault die op h with
    | some r => z.finish handle r
    | none => if op.isLong then z.relayLong die op h handle else z.relay die op h handle true
  | none =>
    match z.runOp free dom op h handle with
    | (z', some r) => z'.finish handle r
    | (z', none) => z'

/-- What is wrong with a chain (R379). -/
def Za.chainFault (z : Za) (h : HuskCmd) : Option Result :=
  let c := huskChain h
  if !c.waitEn ∧ !c.sigEn then some (failDetail stBadParam 32)
  else if c.waitEn ∧ (z.ownObj h c.waitObj).isNone then some (failValue stSyncOwner c.waitObj)
  else if c.sigEn ∧ c.sigAdd = 0 then some (failDetail stBadParam 48)
  else if c.sigEn ∧ (z.ownObj h c.sigObj).isNone then some (failValue stSyncOwner c.sigObj)
  else none

/-- A chained command is accepted: parked while its wait object is below its threshold, else run at once. -/
def Za.acceptChained (z : Za) (free : Nat) (dom : Nat → Nat → Nat) (op : Opcode) (h : HuskCmd) (relay : Option Nat) : Za :=
  let c := huskChain h
  match z.chainFault h with
  | some r => z.replyNow op h 0 0 r true
  | none =>
    let value := ((z.sync? c.waitObj).map (·.value)).getD 0
    let parks := c.waitEn && decide (value < c.waitV)
    match z.take op h (some c) parks relay with
    | none => z.replyNow op h 0 0 (failDetail stQuotaReached 3) true
    | some p =>
      let z := p.1.replyNow op h 1 p.2 (resultOf stOk) true
      if parks then { z with waits := z.waits ++ [{ handle := p.2, obj := c.waitObj, v := c.waitV, order := z.cmds.order }] }
      else z.runChained free dom op h p.2 relay

/-- A command for a DTU of the tray (R371, R372). -/
def Za.acceptRelay (z : Za) (die : Nat) (op : Opcode) (h : HuskCmd) : Za :=
  match z.relayFault die op h with
  | some r => z.replyNow op h 0 0 r true
  | none =>
    if op.isLong then
      match z.take op h none false (some die) with
      | none => z.replyNow op h 0 0 (failDetail stQuotaReached 3) true
      | some p => (p.1.replyNow op h 1 p.2 (resultOf stOk) true).relayLong die op h p.2
    else
      let e : CacheEntry := { req := h.req, tag := huskTag h, bytes := huskBytes op h, reply := [], handle := 0, at_ := z.time.begun }
      let z : Za := { z with cmds := { z.cmds with cache := storeTag z.cmds.cache 16384 e } }
      z.relay die op h 0 true

/-- A command that passed the tests up to its context's state (R369, R377). -/
def Za.huskRun (z : Za) (free : Nat) (dom : Nat → Nat → Nat) (op : Opcode) (h : HuskCmd) : Za :=
  match lookupTag z.cmds.cache h.req op h with
  | .replay reply => if reply = [] then z else z.sendRecord h.req h.w1 reply
  | .reused => z.replyNow op h 0 0 (resultOf stTagReused) false
  | .fresh =>
    if huskLong op h ∧ !z.handleFree op h then z.replyNow op h 0 0 (failDetail stQuotaReached 3) false
    else
      let relay : Option Nat := match z.huskDest h with
        | .relay die => some die
        | _ => none
      if huskChained h then z.acceptChained free dom op h relay
      else match relay with
        | some die => z.acceptRelay die op h
        | none => if huskLong op h then z.runLong free dom op h else z.runShort free dom op h

/-- A Husk goes on toward another aggregator as it came (R344, R371). -/
def Za.forwardHusk (z : Za) (agg : Nat) (op : Opcode) (h : HuskCmd) : Za :=
  let p := z.linkToward agg
  let body := huskWords op h ++ [h.crc] ++ h.payload
  let t := mkTxWords clsCtrl 0x01 (z.addrOf p agg) h.thCtx.toNat h.thGen.toNat body
  z.enqueue p none { t with via := some h.req.addr }

/-- A whole Husk whose crc holds (R369). -/
def Za.huskBody (z : Za) (free : Nat) (dom : Nat → Nat → Nat) (op : Opcode) (h : HuskCmd) : Za :=
  match z.huskEarly op h with
  | some r => z.replyNow op h 0 0 r false
  | none =>
    match z.huskDest h with
    | .forward agg => z.forwardHusk agg op h
    | _ =>
      match z.huskLate op h with
      | some r => z.replyNow op h 0 0 r false
      | none => z.huskRun free dom op h

/-- The frame that carried a Husk to a port. -/
def Za.huskFrameOf (z : Za) (op : Opcode) (h : HuskCmd) : Frame :=
  let p := h.req.link
  let f0 := huskFrame op h (linkMac z.aggId p) (z.link p).ether 0 (BitVec.ofNat 16 z.fabricId) 0
  let die := z.fromDie p f0
  huskFrame op h (linkMac z.aggId p) (z.link p).ether (z.agreed p die) (BitVec.ofNat 16 z.fabricId) ((z.endOf p die).lseqRx.getD 1 0)

/-- A Husk reaches the ZA40 on a port or on keomon; while the boot ROM runs, the optical ports take none (R367 to R391). -/
def Za.husk (z : Za) (free : Nat) (dom : Nat → Nat → Nat) (op : Opcode) (h : HuskCmd) : Za :=
  if !z.power.powered ∨ z.power.pinLow then z
  else
    let r := if h.req.keomon then (z, true) else z.receive h.req.link (z.huskFrameOf op h)
    if !r.2 then r.1
    else
      let z := r.1
      if z.boot.phase ≠ 4 ∧ !h.req.keomon ∧ h.req.link < 80 then z
      else if h.crc ≠ huskCrc op h then z.count (.misc .huskCrc)
      else z.huskBody free dom op h

end Sys2Proof.Machine
end

