-- ==== Sys2Proof/Machine/Husks.lean ====
section
/-!
DEFINITION. The Husk rows: one command of R381, R422, R438 or R471 reaches a DTU or a ZA40.
-/
namespace Sys2Proof.Machine

/-- A Husk reaches the unit it names. A free value is drawn for what its opcode leaves open: core cycles, self-test outcomes, the
domains of other dies' cells. -/
def State.husk (s : State) (op : Opcode) (h : HuskCmd) : State :=
  match h.side with
  | .dtu => (s.onDtu (fun d => d.husk s.free op h)).draw
  | .za => (s.onZa (fun z => z.husk s.free s.cellDom op h)).draw

/-- IDENT (R381). -/
def execIdent (h : HuskCmd) (s : State) : Answer := .next (s.husk .ident h)
/-- STATUS (R384). -/
def execStatus (h : HuskCmd) (s : State) : Answer := .next (s.husk .status h)
/-- HANDLE_QUERY (R376). -/
def execHandleQuery (h : HuskCmd) (s : State) : Answer := .next (s.husk .handleQuery h)
/-- HANDLE_CANCEL (R376). -/
def execHandleCancel (h : HuskCmd) (s : State) : Answer := .next (s.husk .handleCancel h)
/-- REG_READ (R476). -/
def execRegRead (h : HuskCmd) (s : State) : Answer := .next (s.husk .regRead h)
/-- REG_WRITE (R382). -/
def execRegWrite (h : HuskCmd) (s : State) : Answer := .next (s.husk .regWrite h)
/-- TAG_WRITE (R7). -/
def execTagWrite (h : HuskCmd) (s : State) : Answer := .next (s.husk .tagWrite h)
/-- SOFT_RESET (R460). -/
def execSoftReset (h : HuskCmd) (s : State) : Answer := .next (s.husk .softReset h)
/-- FRAME_RESET (R92). -/
def execFrameReset (h : HuskCmd) (s : State) : Answer := .next (s.husk .frameReset h)
/-- CELL_SAMPLE (R92). -/
def execCellSample (h : HuskCmd) (s : State) : Answer := .next (s.husk .cellSample h)
/-- LINK_RESET_CMD (R354). -/
def execLinkResetCmd (h : HuskCmd) (s : State) : Answer := .next (s.husk .linkResetCmd h)
/-- RETAIN_REPLAY (R103). -/
def execRetainReplay (h : HuskCmd) (s : State) : Answer := .next (s.husk .retainReplay h)
/-- MARGIN (R146). -/
def execMargin (h : HuskCmd) (s : State) : Answer := .next (s.husk .margin h)
/-- TRACE_FLUSH (R120). -/
def execTraceFlush (h : HuskCmd) (s : State) : Answer := .next (s.husk .traceFlush h)
/-- TRACE_SAVE (R124). -/
def execTraceSave (h : HuskCmd) (s : State) : Answer := .next (s.husk .traceSave h)
/-- TRACE_RESTORE (R124). -/
def execTraceRestore (h : HuskCmd) (s : State) : Answer := .next (s.husk .traceRestore h)
/-- TIME_RESYNC (R165). -/
def execTimeResync (h : HuskCmd) (s : State) : Answer := .next (s.husk .timeResync h)
/-- TIME_STEP (R167). -/
def execTimeStep (h : HuskCmd) (s : State) : Answer := .next (s.husk .timeStep h)
/-- CTX_ADMIT (R370). -/
def execCtxAdmit (h : HuskCmd) (s : State) : Answer := .next (s.husk .ctxAdmit h)
/-- CTX_TEARDOWN (R28). -/
def execCtxTeardown (h : HuskCmd) (s : State) : Answer := .next (s.husk .ctxTeardown h)
/-- CTX_QUOTA (R196). -/
def execCtxQuota (h : HuskCmd) (s : State) : Answer := .next (s.husk .ctxQuota h)
/-- MEMBERSHIP (R26). -/
def execMembership (h : HuskCmd) (s : State) : Answer := .next (s.husk .membership h)
/-- POD_PLAN (R208). -/
def execPodPlan (h : HuskCmd) (s : State) : Answer := .next (s.husk .podPlan h)
/-- FEAT_PLAN (R383). -/
def execFeatPlan (h : HuskCmd) (s : State) : Answer := .next (s.husk .featPlan h)
/-- DET_PLAN (R313). -/
def execDetPlan (h : HuskCmd) (s : State) : Answer := .next (s.husk .detPlan h)
/-- DET_RESET (R325). -/
def execDetReset (h : HuskCmd) (s : State) : Answer := .next (s.husk .detReset h)
/-- SYNC_ALLOC (R191). -/
def execSyncAlloc (h : HuskCmd) (s : State) : Answer := .next (s.husk .syncAlloc h)
/-- SYNC_FREE (R191). -/
def execSyncFree (h : HuskCmd) (s : State) : Answer := .next (s.husk .syncFree h)
/-- SYNC_SET (R193). -/
def execSyncSet (h : HuskCmd) (s : State) : Answer := .next (s.husk .syncSet h)
/-- SYNC_ADD (R191). -/
def execSyncAdd (h : HuskCmd) (s : State) : Answer := .next (s.husk .syncAdd h)
/-- SYNC_WAIT (R191). -/
def execSyncWait (h : HuskCmd) (s : State) : Answer := .next (s.husk .syncWait h)
/-- SYNC_BIND (R192). -/
def execSyncBind (h : HuskCmd) (s : State) : Answer := .next (s.husk .syncBind h)
/-- SYNC_READ (R193). -/
def execSyncRead (h : HuskCmd) (s : State) : Answer := .next (s.husk .syncRead h)
/-- MODEL_LOAD (R298). -/
def execModelLoad (h : HuskCmd) (s : State) : Answer := .next (s.husk .modelLoad h)
/-- MODEL_QUERY (R305). -/
def execModelQuery (h : HuskCmd) (s : State) : Answer := .next (s.husk .modelQuery h)
/-- FEAT_WRITE (R253). -/
def execFeatWrite (h : HuskCmd) (s : State) : Answer := .next (s.husk .featWrite h)
/-- WEIGHT_SWAP (R139). -/
def execWeightSwap (h : HuskCmd) (s : State) : Answer := .next (s.husk .weightSwap h)
/-- DIGEST_LOAD (R140). -/
def execDigestLoad (h : HuskCmd) (s : State) : Answer := .next (s.husk .digestLoad h)
/-- RESULT_HISTORY (R224). -/
def execResultHistory (h : HuskCmd) (s : State) : Answer := .next (s.husk .resultHistory h)
/-- SUBSCRIBE (R381). -/
def execSubscribe (h : HuskCmd) (s : State) : Answer := .next (s.husk .subscribe h)
/-- SEED_PAIR (R329). -/
def execSeedPair (h : HuskCmd) (s : State) : Answer := .next (s.husk .seedPair h)
/-- FROST_ARM (R425). -/
def execFrostArm (h : HuskCmd) (s : State) : Answer := .next (s.husk .frostArm h)
/-- FROST_CANCEL (R426). -/
def execFrostCancel (h : HuskCmd) (s : State) : Answer := .next (s.husk .frostCancel h)
/-- FROST_NOW (R433). -/
def execFrostNow (h : HuskCmd) (s : State) : Answer := .next (s.husk .frostNow h)
/-- FROST_THAW (R435). -/
def execFrostThaw (h : HuskCmd) (s : State) : Answer := .next (s.husk .frostThaw h)
/-- FROST_QUERY (R438). -/
def execFrostQuery (h : HuskCmd) (s : State) : Answer := .next (s.husk .frostQuery h)
/-- SCAN_OUT (R441). -/
def execScanOut (h : HuskCmd) (s : State) : Answer := .next (s.husk .scanOut h)
/-- LOOP_TEST (R442). -/
def execLoopTest (h : HuskCmd) (s : State) : Answer := .next (s.husk .loopTest h)
/-- SELF_TEST (R444). -/
def execSelfTest (h : HuskCmd) (s : State) : Answer := .next (s.husk .selfTest h)
/-- FAULT_INJECT (R447). -/
def execFaultInject (h : HuskCmd) (s : State) : Answer := .next (s.husk .faultInject h)
/-- FENCE (R415). -/
def execFence (h : HuskCmd) (s : State) : Answer := .next (s.husk .fence h)
/-- UNFENCE (R404). -/
def execUnfence (h : HuskCmd) (s : State) : Answer := .next (s.husk .unfence h)
/-- READMIT (R412). -/
def execReadmit (h : HuskCmd) (s : State) : Answer := .next (s.husk .readmit h)
/-- LIVE_CLAIM (R411). -/
def execLiveClaim (h : HuskCmd) (s : State) : Answer := .next (s.husk .liveClaim h)
/-- LIVE_QUERY (R422). -/
def execLiveQuery (h : HuskCmd) (s : State) : Answer := .next (s.husk .liveQuery h)
/-- RACK_SET (R413). -/
def execRackSet (h : HuskCmd) (s : State) : Answer := .next (s.husk .rackSet h)
/-- CKPT_PUT (R417). -/
def execCkptPut (h : HuskCmd) (s : State) : Answer := .next (s.husk .ckptPut h)
/-- CKPT_GET (R419). -/
def execCkptGet (h : HuskCmd) (s : State) : Answer := .next (s.husk .ckptGet h)
/-- REBUILD (R418). -/
def execRebuild (h : HuskCmd) (s : State) : Answer := .next (s.husk .rebuild h)
/-- FAULT_LOG (R398). -/
def execFaultLog (h : HuskCmd) (s : State) : Answer := .next (s.husk .faultLog h)
/-- LULL_HOLD (R464). -/
def execLullHold (h : HuskCmd) (s : State) : Answer := .next (s.husk .lullHold h)
/-- LULL_RELEASE (R464). -/
def execLullRelease (h : HuskCmd) (s : State) : Answer := .next (s.husk .lullRelease h)
/-- ZA_LULL (R466). -/
def execZaLull (h : HuskCmd) (s : State) : Answer := .next (s.husk .zaLull h)
/-- ZA_WAKE (R471). -/
def execZaWake (h : HuskCmd) (s : State) : Answer := .next (s.husk .zaWake h)
/-- ZA_RESET (R465). -/
def execZaReset (h : HuskCmd) (s : State) : Answer := .next (s.husk .zaReset h)
/-- PWR_LIMIT (R471). -/
def execPwrLimit (h : HuskCmd) (s : State) : Answer := .next (s.husk .pwrLimit h)

end Sys2Proof.Machine
end

