-- ==== Sys2Proof/Machine/Replies.lean ====
section
/-!
DEFINITION. What ends commands: completions of DTUs, time-outs, releases from chains and queues, DONE_HANDLE (R371 to R374, R380,
R415).
-/
namespace Sys2Proof.Machine

/-! ### Completions of relayed commands (R371). -/

/-- The frame that carried a completion on a link. -/
def Za.completionFrame (z : Za) (p : Nat) (src : Mac) (die : Option Nat) (rec_ : List W) : Frame :=
  let c := (z.entryOf (wf rec_ 1 31 16) (wf rec_ 1 15 8)).isSome
  Frame.sealed
    { dest := linkMac z.aggId p, src, ethertype := (z.link p).ether, tver := BitVec.ofNat 8 (z.agreed p die), cls := 1, rsv15 := 0
      msg := 2, rsv17 := 0, fabricId := BitVec.ofNat 16 z.fabricId
      ctx := if c then BitVec.ofNat 16 (wf rec_ 1 31 16) else 0xFFFF, gen := if c then BitVec.ofNat 8 (wf rec_ 1 15 8) else 0
      rsv23 := 0, lseq := (z.endOf p die).lseqRx.getD 1 0, plen := BitVec.ofNat 16 (4 * rec_.length), hcrc := 0, body := rec_ }

/-- A completion record is whole: its version, its length and its crc (R373). -/
def completionSound (rec_ : List W) : Bool :=
  decide (8 ≤ rec_.length) && wf rec_ 0 31 28 == 1 && word rec_ 7 == crcWords (rec_.take 7 ++ rec_.drop 8)

/-- What a completion record says. -/
def completionResult (rec_ : List W) : Result :=
  { status := completionStatus rec_, detail := wf rec_ 4 15 0, result0 := (word rec_ 6).toNat, payload := rec_.drop 8
    trunc := bit (word rec_ 0) 25 }

/-- A DTU's record under the requester's own words and tag (R371). -/
def mapRecord (rec_ : List W) (cmd : CmdRef) : List W :=
  let hdr := (((rec_.take 7).set 1 (cmd.w1 &&& 0xFFFFFF00)).set 2 cmd.tag).set 3 0
  hdr ++ [crcWords (hdr ++ rec_.drop 8)] ++ rec_.drop 8

/-- A register write that a DTU has carried out goes into our books of it, in the frame its record names (R83, R208). -/
def Za.bookWrite (z : Za) (r : Relay) (rec_ : List W) : Za :=
  if r.cmd.op = .regWrite ∧ completionStatus rec_ = stOk ∧ fld r.husk.w6 31 28 = 1 then
    let begun := z.time.begun - (z.frameNow - z.frameOf (word rec_ 5).toNat)
    let as := regAddrs r.husk
    z.modDie r.die (fun d => ((List.range as.length).zip as).foldl (fun d p => d.wrote begun p.2 (word (huskPay r.husk) p.1)) d)
  else z

/-- The reply to a relayed command goes to its requester, and into the retry cache (R371, R377). -/
def Za.relayAnswer (z : Za) (r : Relay) (rec_ : List W) : Za :=
  let out := mapRecord rec_ r.cmd
  let z : Za := { z with cmds := { z.cmds with
    cache := modWhere z.cmds.cache (fun e => e.req == r.cmd.req && e.tag == r.cmd.tag && r.cache) (fun e => { e with reply := out }) } }
  z.sendRecord r.cmd.req r.cmd.w1 out

/-- A completion of a DTU: DONE_HANDLE ends its handle; DONE_NOW ends the command relayed under our tag; ACCEPTED leaves the handle
open. What belongs to nothing we wait for is late. -/
def Za.dtuReply (z : Za) (die : Nat) (rec_ : List W) : Za :=
  let late := z.count (.misc .lateReply)
  let ckind := wf rec_ 0 27 26
  if ckind = 2 then
    match z.handle? (word rec_ 3) with
    | some x => if x.relay = some die ∧ x.done.isNone then z.finish x.handle (completionResult rec_) else late
    | none => late
  else match z.cmds.relays.find? (fun r => r.ownTag == word rec_ 2 && r.die == die) with
    | none => late
    | some r =>
      let z : Za := { z with cmds := { z.cmds with relays := z.cmds.relays.filter (fun x => x.ownTag != r.ownTag) } }
      let z := z.bookWrite r rec_
      if r.handle = 0 then z.relayAnswer r rec_
      else if ckind = 1 then z
      else z.finish r.handle (completionResult rec_)

/-- RELAYED_COMPLETION. A completion of FENCE is the Region Manager's answer to our request (R415). -/
def Za.relayedCompletion (z : Za) (die : Nat) (rec_ : List W) : Za :=
  let fence := decide (wf rec_ 0 15 0 = Opcode.fence.code)
  let p := if fence then z.linkToward z.rmId else ((z.die? die).map (·.link)).getD 82
  let src := if fence then z.addrOf p z.rmId else dtuMac die
  let r := z.receive p (z.completionFrame p src (if fence then none else some die) rec_)
  let z := r.1
  if !r.2 ∨ !z.running ∨ !completionSound rec_ then z
  else if fence then (if completionStatus rec_ = stFenceRefused then z.fenceRefused die else z)
  else z.dtuReply die rec_

def execRelayedCompletion (die : BitVec 20) (record : List W) (s : State) : Answer := .next (s.onZa (·.relayedCompletion die.toNat record))

/-- TARGET_TIMEOUT (R371): two frames without a reply. -/
def Za.targetTimeout (z : Za) (tag : W) : Za :=
  match z.cmds.relays.find? (fun r => r.ownTag == tag && decide (r.sentAt + 2 ≤ z.time.begun)) with
  | none => z
  | some r =>
    if !z.running then z
    else if r.handle = 0 then z.relayReply r (resultOf stTargetTimeout)
    else
      let z : Za := { z with cmds := { z.cmds with relays := z.cmds.relays.filter (fun x => x.ownTag != tag) } }
      z.finish r.handle (resultOf stTargetTimeout)

def execTargetTimeout (ownTag : W) (s : State) : Answer := .next (s.onZa (·.targetTimeout ownTag))

/-- DTU_LONG_QUEUE_RELEASE (R372): the oldest command that waits for a DTU which holds fewer than 16. -/
def Za.queueRelease (z : Za) (die : Nat) : Za :=
  match z.cmds.queued.find? (fun q => q.die == die) with
  | none => z
  | some q =>
    if !z.running ∨ 16 ≤ z.longsAt die then z
    else
      let z : Za := { z with cmds := { z.cmds with queued := z.cmds.queued.filter (fun x => x.handle != q.handle) } }
      z.relay die q.op q.husk q.handle true

def execDtuLongQueueRelease (die : BitVec 20) (s : State) : Answer := .next (s.onZa (·.queueRelease die.toNat))

/-- CHAIN_RELEASE (R380): a parked command whose wait is satisfied runs as if it had just been accepted. -/
def Za.chainRelease (z : Za) (free : Nat) (dom : Nat → Nat → Nat) (handle : W) : Za :=
  match z.handle? handle with
  | none => z
  | some x =>
    if !z.running ∨ !x.parked ∨ x.done.isSome ∨ z.isParked x then z
    else
      let order := z.cmds.order
      let z : Za := { z with cmds := { z.cmds with
        order := order + 1
        handles := modWhere z.cmds.handles (fun y => y.handle == handle) (fun y => { y with parked := false, order }) } }
      z.runChained free dom x.cmd.op x.husk handle x.relay

def execChainRelease (handle : W) (s : State) : Answer :=
  .next ((s.onZa (fun z => z.chainRelease s.free s.cellDom handle)).draw)

/-- DONE_HANDLE (R374): a DTU's own record first; the ZA40's frees the handle, and a Lull state that waited for it begins (R466). -/
def Za.doneHandle (z : Za) (handle : W) : Za :=
  if z.running ∧ z.cmds.handles.any (fun x => x.handle == handle && x.done.isSome) then (z.postDone handle).enterLull handle else z

def execDoneHandle (handle : W) (s : State) : Answer :=
  .next (if s.dtu.cmds.longs.any (fun l => l.handle == handle && l.done.isSome) then s.onDtu (·.postDone handle)
    else s.onZa (·.doneHandle handle))

end Sys2Proof.Machine
end

