-- ==== Sys2Proof/Machine/Keomon.lean ====
section
/-!
DEFINITION. keomon, the service UART of the ZA40 (R388 to R391).
-/
namespace Sys2Proof.Machine

/-- The bytes between the delimiters with their escapes undone; none where a delimiter or a lone escape stands among them (R388). -/
def keomonUnescape : List Byte → Option (List Byte)
  | [] => some []
  | [b] => if b = 0x7D ∨ b = 0x7E then none else some [b]
  | a :: b :: r =>
    if a = 0x7E then none
    else if a = 0x7D then (keomonUnescape r).map ((b ^^^ 0x20) :: ·)
    else (keomonUnescape (b :: r)).map (a :: ·)

/-- The content of a frame: type, seq and body; none where its delimiters, crc or length fail (R388). -/
def keomonParse (bs : List Byte) : Option (Nat × Nat × List Byte) :=
  if bs.head? ≠ some 0x7E ∨ bs.getLast? ≠ some 0x7E ∨ bs.length < 2 then none
  else (keomonUnescape ((bs.drop 1).dropLast)).bind (fun c =>
    let body := (c.drop 4).take (c.length - 8)
    let words := wordsOf c
    if c.length < 8 ∨ 2056 < c.length ∨ halfAt words 2 ≠ body.length ∨
        (wordsOf (c.drop (c.length - 4))).head? ≠ some (crc32c (c.take (c.length - 4))) then none
    else some (byteAt words 0, byteAt words 1, body))

/-- The opcode of a number (R381, R422, R438, R471). -/
def opcodeOf (code : Nat) : Option Opcode := Opcode.all.find? (fun o => o.code == code)

/-- keomon as a requester (R389): one source address of its own. -/
def keomonRequester : Requester := { link := 0, addr := 0, keomon := true }

/-- The Husk of a keomon body. -/
def keomonHusk (body : List Byte) : HuskCmd :=
  let ws := wordsOf body
  { side := .za, req := keomonRequester, thCtx := 0xFFFF, thGen := 0, w0hi := BitVec.ofNat 16 (wf ws 0 31 16), w1 := word ws 1
    w2 := word ws 2, w3 := word ws 3, w4 := word ws 4, w5 := word ws 5, w6 := word ws 6, crc := word ws 7, payload := ws.drop 8 }

/-- A reply to a Husk whose opcode is not listed. -/
def Za.replyUnlisted (z : Za) (code : Nat) (h : HuskCmd) : Za :=
  let st := if huskMajor h ≠ 1 ∨ 4 < huskMinor h then stVersion else stBadOpcode
  z.sendRecord h.req h.w1 (completionOf 0 code h.w1 (huskTag h) 0 z.frameNow (resultOf st) false)

/-- A HUSK frame of keomon (R367, R369, R389). -/
def Za.keomonHusk (z : Za) (free : Nat) (dom : Nat → Nat → Nat) (body : List Byte) : Za :=
  let h := Machine.keomonHusk body
  let code := wf (wordsOf body) 0 15 0
  if body.length < 32 ∨ h.crc ≠ crc32c (body.take 28 ++ body.drop 32) then z.count (.misc .huskCrc)
  else match opcodeOf code with
    | none => z.replyUnlisted code h
    | some op =>
      if body.length % 4 = 0 then z.huskBody free dom op h
      else z.replyNow op h 0 0 ((z.huskEarly op h).getD (resultOf stBadLength)) false

/-- KEOMON_FRAME (R388 to R391). -/
def Za.keomonFrame (z : Za) (free : Nat) (dom : Nat → Nat → Nat) (bs : List Byte) : Za :=
  if !z.power.powered ∨ z.power.pinLow then z
  else match keomonParse bs with
    | none => z.count (.misc .keomonBad)
    | some (kind, seq, body) =>
      let gap := z.keomon.rxSeq.any (fun l => decide ((l + 1) % 256 ≠ seq))
      let z : Za := { z with keomon := { z.keomon with rxSeq := some seq } }
      let z := if gap then z.count (.misc .keomonGap) else z
      match kind with
      | 1 => z.keomonHusk free dom body
      | 4 => if body.length = 4 then z.loadReq (word (wordsOf body) 0).toNat else z.count (.misc .keomonBad)
      | 6 => if 4 ≤ body.length then z.loadData (word (wordsOf body) 0).toNat (body.drop 4) else z.count (.misc .keomonBad)
      | _ => z.count (.misc .keomonReserved)

def execKeomonFrame (bytes : List Byte) (s : State) : Answer :=
  .next ((s.onZa (fun z => z.keomonFrame s.free s.cellDom bytes)).draw)

end Sys2Proof.Machine
end

