-- ==== Sys2Proof/Machine/ZaAudit.lean ====
section
/-!
DEFINITION. Steps 1 and 2 of the ZA40's tick: late work, and the ledger audit (R33, R34, R194, R237, R238, R403).
-/
namespace Sys2Proof.Machine

/-! ### Step 1: work still open is late (R33, R34). -/

/-- Pods of the first run of which this aggregator has not sent every result it owes (R229). -/
def FrameWork.openPods (w : FrameWork) : List Pod := w.pods.filter (fun p => p.rerun == 0 && !p.done)

/-- The runs of absences that no deadline of the work frame has judged are judged at its end (R227). -/
def Za.judgeRuns (z : Za) (w : FrameWork) : Za :=
  let t := z.tree w.view
  let heights := ((List.range (t.top + 1)).drop 1).filter (fun h => t.hosts h && (t.childHost h).isSome)
  let z := match z.ctx? w.entry with
    | some c => if w.closed then z else (w.view.tray.map (·.die)).foldl (fun z d => z.absenceRun w.entry c w d) z
    | none => z
  heights.foldl (fun z h => z.judgeChild w.entry w.frame h) z

/-- Rows that the Feature Stage has not begun (R252). -/
def FrameWork.openRows (w : FrameWork) : Nat :=
  ([false, true].map (fun t =>
    if (w.view.featPlan t).isEmpty then 0 else (w.view.entities t).length - w.rows.countP (fun r => r.tile == t))).sum

/-- Batches of direct programs that are not complete (R294). -/
def Za.openBatches (z : Za) (w : FrameWork) : Nat :=
  let ss := z.secs w
  ((programs ss true ++ programs ss false).map (fun s =>
    (w.batchesOf s.tile).countP (fun j => !((if prgPre s.words then w.preDone else w.batches).contains (s.score, j))))).sum

/-- Detector work is open (R324); a context without detectors has none. -/
def FrameWork.detOpen (w : FrameWork) : Bool := !w.detected && !(detEnabled w.view.plans.det).isEmpty

/-- DTUs whose band set has been derived and whose parameters have not left. -/
def Za.openParams (z : Za) (w : FrameWork) : Nat :=
  w.bands.countP (fun (b : Nat × List (List W)) => !w.params.contains b.1 && (z.die? b.1).any (fun d => d.admitted && d.fenced.isNone))

/-- A slot whose verdict has not come by the end of the work frame (R310): its scores leave late. -/
def Za.verdictMissing (z : Za) (e frame s : Nat) : Za :=
  let z : Za := { z with replicas := z.replicas.filter (fun r => !(r.entry == e && r.slot == s && r.frame == frame)) }
  let z := z.modWork e frame (fun x => { x with withheld := modWhere x.withheld (fun (y : Nat × Nat) => y.1 == s) (fun y => (y.1, 1)) })
  match z.ctx? e with
  | some c => (z.count (.ten .replicaTimeout e)).raiseCtx .replicaTimeout .context e .none c 0 0
  | none => z

/-- The open work of an ended work frame is marked late, its slots are released, and its Pods go on without them (R198, R229). -/
def Za.markLate (z : Za) (w : FrameWork) : Za :=
  let e := w.entry
  let f := w.frame
  let waiting := (w.withheld.filter (fun (x : Nat × Nat) => x.2 == 0)).map Prod.fst
  let z := z.judgeRuns w
  let z := z.lateItem e f 3 w.openPods.length finalDeadlineNs
  let z := z.lateItem e f 4 (b2n w.detOpen + z.openParams w) (2 ^ 20)
  let z := (z.count (.red .podWaitLate e) (w.openPods.countP (·.waited))).count (.ens .rowsLate e) w.openRows
  let z := (z.count (.ten .batchesLate e) (z.openBatches w)).count (.det .detLate e) (b2n w.detOpen)
  let z := waiting.foldl (fun z s => z.verdictMissing e f s) z
  let z := z.modWork e f (fun x => { x with
    abandoned := true, closed := true, pods := x.pods.map (fun p => { p with slotted := false }) })
  z.progress e f

/-- Reruns whose own work frame has ended without their inputs (R221). -/
def FrameWork.lostReruns (w : FrameWork) (begun : Nat) : List Pod :=
  w.pods.filter (fun p => p.rerun != 0 && p.final.isNone && !p.sentUp && decide (w.begun + p.rerun < begun))

def Za.dropReruns (z : Za) (w : FrameWork) : Za :=
  let gone := w.lostReruns z.time.begun
  (z.modWork w.entry w.frame (fun x => { x with pods := x.pods.filter (fun p => !gone.contains p) })).count
    (.red .rerunAbandoned w.entry) gone.length

/-- Rows of a work whose bank has been written again go, and with them scoring (R241); contributions are kept until the tick that
begins N + 4 (R221). Replayed works stay while a rebuild runs (R420). -/
def Za.ageWorks (z : Za) : Za :=
  let begun := z.time.begun
  let keep (w : FrameWork) : Bool := if w.begun = 0 then z.rebuild.any (fun rb => rb.phase != 4) else decide (begun < w.begun + 3)
  let age (w : FrameWork) : FrameWork := if w.begun ≠ 0 ∧ w.begun + 2 ≤ begun then { w with rows := [], scored := true } else w
  { z with works := (z.works.filter keep).map age }

/-- A phase late in three consecutive frames is reported once in its run (R34). -/
def Za.overrun (z : Za) (w : FrameWork) : Za :=
  match z.ctx? w.entry with
  | none => z
  | some c =>
    let runs := [1, 2, 3, 4].filterMap (fun ph =>
      if w.late.any (fun (l : Nat × Nat × Nat) => l.1 == ph) then some (ph, aGetD c.overruns ph 0 + 1) else none)
    let z := z.modCtx w.entry (fun x => { x with overruns := runs })
    (runs.filter (fun (r : Nat × Nat) => r.2 == 3)).foldl (fun z r =>
      z.raiseCtx .frameOverrun .context w.entry .none c 0 (packNat [(r.1, 31, 28)])) z

/-- The works whose work frame has ended. -/
def Za.endedWorks (z : Za) : List FrameWork :=
  z.works.filter (fun w => w.begun != 0 && !w.abandoned && decide (w.begun < z.time.begun))

/-- Step 1, and the works as they were marked. -/
def Za.stepLate (z : Za) : Za × List FrameWork :=
  let ended := z.endedWorks
  let z := ended.foldl Za.markLate z
  let marked := ended.filterMap (fun w => z.work? w.entry w.frame)
  let z := marked.foldl Za.overrun z
  let z := z.works.foldl Za.dropReruns z
  (z.ageWorks, marked)

/-! ### Step 2: the ledger audit (R194, R237, R238). -/

/-- A check that has failed: quantity, context-table entry where there is one, expected and found. -/
structure AuditFail where
  quantity : Quantity
  entry : Option Nat
  expected : Nat
  found : Nat
  deriving DecidableEq, Repr

/-- The checks of whole books. An injection puts the POD_SLOT books off by one (R447). -/
def Za.auditWhole (z : Za) : List AuditFail :=
  let pods := (z.ctxs.map (fun (p : Nat × Ctx) => z.podsHeld p.1)).sum
  let off := b2n (z.injections.any (fun i => i.code == 0x09))
  let check (q : Quantity) (limit held : Nat) : List AuditFail :=
    if limit < held then [{ quantity := q, entry := none, expected := limit, found := held }] else []
  let stray := ((z.works.filter (fun w => w.abandoned)).map (fun w => w.pods.countP (·.slotted))).sum
  (if 256 < pods ∨ 0 < off then [{ quantity := .podSlot, entry := none, expected := 256, found := max 256 pods + off }] else []) ++
    (if 0 < stray then [{ quantity := .podSlot, entry := none, expected := 0, found := stray }] else []) ++
    check .syncObj 131072 z.syncs.length ++ check .handle 65536 z.cmds.handles.length ++
    check .stackPage 16384 ((z.areas.map ModelArea.pages).sum)

/-- The checks of one entry's holdings against its quotas; the fabric context's handles against the reserve (R196). -/
def Za.auditEntry (z : Za) (e : Nat) (c : Ctx) : List AuditFail :=
  let check (q : Quantity) (limit held : Nat) : List AuditFail :=
    if limit < held then [{ quantity := q, entry := some e, expected := limit, found := held }] else []
  let reserved := z.cmds.handles.countP (fun h => (handleCtx h).isNone)
  check .podSlot c.q.podMax (z.podsHeld e) ++ check .syncObj c.q.sync (z.syncHeld c) ++
    (if e = 0 then check .handle 1024 reserved else check .handle c.q.handles (z.handlesHeld c)) ++
    check .stackPage c.q.modelPages (z.modelPages e)

/-- A failure is reported; the second of a quantity and unit within 64 frames is FATAL (R403). -/
def Za.auditFault (z : Za) (a : AuditFail) : Za :=
  let key := (a.entry.map (· + 1)).getD 0
  let again := z.fences.ledgers.any (fun (l : Quantity × Nat × Nat) => l.1 == a.quantity && l.2.1 == key && decide (z.time.begun < l.2.2 + 64))
  let z : Za := { z with fences := { z.fences with
    ledgers := z.fences.ledgers.filter (fun (l : Quantity × Nat × Nat) => decide (z.time.begun < l.2.2 + 64)) ++ [(a.quantity, key, z.time.begun)] } }
  let unit : UnitKind × Nat := match a.entry with
    | some e => (.context, e)
    | none => (.za40, z.aggId)
  let f := faultOf .ledger unit.1 unit.2 .audit 0 (packNat [(a.quantity.code, 31, 24)])
  let f : FaultFields := { f with severity := if again then 3 else f.severity }
  let f : FaultFields := match a.entry.bind z.ctx? with
    | some c => { f with ctx := c.id, gen := c.gen }
    | none => f
  z.raiseF f (twoWords a.expected ++ twoWords a.found)

/-- The pools of an endpoint pair whose books fail R237: a unit owed for longer than it allows, or more units held than were
granted. -/
def Za.stalePools (z : Za) (p : Nat) (die : Option Nat) : List Nat :=
  let e := z.endOf p die
  let limit := z.portRtt p + 32768
  (List.range e.pools.length).filter (fun c =>
    let q := e.pools.getD c .initial
    q.owed.any (fun (o : Nat × Nat) => decide (o.1 + limit < z.nowNs)) || decide (q.grant < q.available))

/-- LINK_CREDIT fails on a pair: LEDGER, a link reset, and at the third within 4,096 frames the link's fence (R352, R400, R403). -/
def Za.creditFault (z : Za) (p : Nat) (die : Option Nat) (c : Nat) : Za :=
  let q := (z.endOf p die).pools.getD c .initial
  let f := faultOf .ledger .link p .audit (die.getD 0) (packNat [(Quantity.linkCredit.code, 31, 24), (c, 23, 16)])
  let counts := if q.grant < q.available then (q.grant, q.available) else (0, (q.owed.map Prod.snd).sum)
  let z := z.raiseF f (twoWords counts.1 ++ twoWords counts.2 ++ [pack [(c, 31, 16)]])
  let z := z.modLink p (fun l => { l with ledgers := l.ledgers.filter (fun n => decide (z.time.begun < n + 4096)) ++ [z.time.begun] })
  let z := z.sendLinkReset p die 1
  if 3 ≤ (z.link p).ledgers.length then z.fenceLink p else z

/-- The endpoint pairs that are up. -/
def Za.pairsUp (z : Za) : List (Nat × Option Nat) :=
  (z.links.map Prod.fst).flatMap (fun p =>
    if z.face p = 1 then (z.dies.filter (fun d => d.link == p && d.admitted)).map (fun d => (p, some d.die))
    else if z.linkUp p then [(p, none)] else [])

def Za.auditLinks (z : Za) : Za × Bool :=
  let bad := z.pairsUp.flatMap (fun k => (z.stalePools k.1 k.2).map (fun c => (k.1, k.2, c)))
  (bad.foldl (fun z k => z.creditFault k.1 k.2.1 k.2.2) z, !bad.isEmpty)

/-- Step 2, and the quantities that failed. -/
def Za.stepAudit (z : Za) : Za × List Quantity :=
  let fails := z.auditWhole ++ z.ctxs.flatMap (fun (p : Nat × Ctx) => z.auditEntry p.1 p.2)
  let z : Za := { z with injections := z.injections.filter (fun i => i.code != 0x09) }
  let z := fails.foldl Za.auditFault z
  let r := z.auditLinks
  (r.1, fails.map (·.quantity) ++ (if r.2 then [.linkCredit] else []))

end Sys2Proof.Machine
end

