-- ==== Sys2Proof/Machine/ZaFronts.lean ====
section
/-!
DEFINITION. Steps 3 to 6 of the ZA40's tick: releases, drains, Fronts with their plans and model swaps, and starts (R24 to R28, R194,
R198, R257, R258, R292, R302 to R304, R306, R310, R387).
-/
namespace Sys2Proof.Machine

/-! ### Step 3: a context that was RELEASING is freed (R28). -/

/-- A counter of one context-table entry. -/
def ZCnt.ofEntry (e : Nat) : ZCnt → Bool
  | .red _ x => x == e
  | .ens _ x => x == e
  | .ten _ x => x == e
  | .det _ x => x == e
  | .link _ _ _ => false
  | .misc _ => false

/-- All that a context held goes; its CTX_TEARDOWN ends. -/
def Za.freeCtx (z : Za) (e : Nat) (c : Ctx) : Za :=
  let z : Za := { z with
    ctxs := aDel z.ctxs e
    syncs := z.syncs.filter (fun (p : Nat × SyncObj) => !(p.2.ctx == c.id && p.2.gen == c.gen))
    works := z.works.filter (fun w => w.entry != e), kept := z.kept.filter (fun k => k.entry != e)
    models := z.models.filter (fun m => m.entry != e), replicas := z.replicas.filter (fun r => r.entry != e)
    progState := z.progState.filter (fun p => p.entry != e), detRecs := z.detRecs.filter (fun r => r.entry != e)
    serving := z.serving.filter (fun s => s.model.all (fun m => m.1 != e))
    counters := z.counters.filter (fun (p : ZCnt × Nat) => !p.1.ofEntry e)
    dies := z.dies.map (fun d => { d with absences := aDel d.absences e }) }
  z.finish c.tearHandle (resultOf stOk)

def Za.stepFree (z : Za) : Za :=
  (z.ctxs.filter (fun (p : Nat × Ctx) => p.2.state == .releasing)).foldl (fun z p => z.freeCtx p.1 p.2) z

/-! ### Step 4: teardown (R194, R387). -/

/-- A load of the context ends with CTX_TORN. -/
def Za.tearLoad (z : Za) (e : Nat) (m : ModelSlot) : Za :=
  match m.oth with
  | some a => if a.state = .retiring then z
    else (z.modSlot e m.slot (fun x => { x with oth := none })).finish a.handle (resultOf stCtxTorn)
  | none => z

/-- The tick of D. -/
def Za.drainCtx (z : Za) (e d : Nat) (c : Ctx) : Za :=
  let mine (i : Nat) : Bool := (z.sync? i).any (fun o => o.ctx == c.id && o.gen == c.gen)
  let on := (z.waits.filter (fun w => mine w.obj)).map (·.handle)
  let z := z.finishWhere (fun h => on.contains h.handle) false (resultOf stCtxTorn)
  let z := if c.state = .admitted then z.finish c.admitHandle (resultOf stCtxTorn) else z
  let late := (c.changes.filter (fun x => decide (d ≤ x.front))).map (·.handle) ++
    (c.pending.filter (fun x => decide (d ≤ x.front))).map (·.handle)
  let z := late.foldl (fun z h => z.finish h (resultOf stCtxTorn)) z
  let z := (z.models.filter (fun m => m.entry == e)).foldl (fun z m => z.tearLoad e m) z
  z.modCtx e (fun x => { x with
    state := .draining, staging := [], changes := x.changes.filter (fun y => decide (y.front < d))
    pending := x.pending.filter (fun y => decide (y.front < d)), swaps := x.swaps.filter (fun y => decide (y.first < d)) })

/-- DRAINING becomes RELEASING a tick after D; what is torn down now becomes DRAINING. -/
def Za.stepDrain (z : Za) : Za :=
  let n := z.frameNow
  z.ctxs.foldl (fun z (p : Nat × Ctx) =>
    match p.2.state, p.2.stop with
    | .draining, _ => z.modCtx p.1 (fun x => { x with state := .releasing })
    | .releasing, _ => z
    | _, some d => if d ≤ n then z.drainCtx p.1 d p.2 else z
    | _, none => z) z

/-! ### Step 5: model swaps (R302 to R304, R310). -/

/-- State is carried for programs of the same section, layout and length. -/
def carries (old new : List W) (i : Nat) : Bool :=
  let a := sectAt old i
  let b := sectAt new i
  let u := sectWords old i
  let v := sectWords new i
  decide (i < wf old 1 15 8 ∧ i < wf new 1 15 8 ∧ a.kind = 3 ∧ b.kind = 3 ∧ prgLayout u = prgLayout v ∧ prgState u = prgState v)

/-- An image becomes CURRENT in its slot, and the one before it retires. -/
def Za.swapNow (z : Za) (e s : Nat) (m : ModelSlot) (a : ModelArea) : Za :=
  let old := m.cur.filter (fun o => o.state == .current)
  let retire (o : ModelArea) : ModelArea := { o with state := .retiring, retireAt := z.time.begun + 2 }
  let now : ModelArea := { a with state := .current, since := z.frameNow, deferred := false }
  let z := z.modSlot e s (fun x => { x with cur := some now, oth := old.map retire, agree := 0 })
  let keep (p : ProgState) : Bool := p.entry != e || p.score / 16 != s || old.any (fun o => carries o.image a.image (p.score % 16))
  (({ z with progState := z.progState.filter keep } : Za).count (.ten .swaps e)).finish a.handle (resultOf stOk)

/-- A load whose Front has come: it swaps when READY, and is reported once when it is not. -/
def Za.swapSlot (z : Za) (e : Nat) (c : Ctx) (m : ModelSlot) : Za :=
  match m.oth with
  | none => z
  | some a =>
    if a.state = .retiring ∨ z.frameNow < a.front then z
    else if a.state = .ready then z.swapNow e m.slot m a
    else if a.deferred then z
    else
      let z := z.modSlot e m.slot (fun x => { x with oth := x.oth.map (fun y => { y with deferred := true }) })
      (z.count (.ten .swapsDeferred e)).raiseCtx .modelNotReady .context e .none c 0 0

/-- A swap of the context takes effect at this very Front. -/
def Za.swapDue (z : Za) (e : Nat) : Bool :=
  z.models.any (fun m => m.entry == e && m.oth.any (fun a => a.state == .ready && !a.deferred && decide (a.front ≤ z.frameNow)))

/-- The node-store pages of a spilled section. -/
def spillPages (a : ModelArea) (i : Nat) : Nat := (ensNodes (sectWords a.image i) + 2047) / 2048

/-- Spilled ensembles of an area move into `free` pages: the area, and the pages left. -/
def ModelArea.unspill (a : ModelArea) (free : Nat) : ModelArea × Nat :=
  a.spilled.foldl (fun (r : ModelArea × Nat) i =>
    let n := spillPages a i
    if n ≤ r.2 then ({ r.1 with nodePages := r.1.nodePages + n, spilled := r.1.spilled.filter (· != i) }, r.2 - n) else r) (a, free)

/-- At a Front with enough pages free, spilled ensembles move into the node store (R258). -/
def Za.unspill (z : Za) (e : Nat) : Za :=
  (z.models.filter (fun m => m.entry == e)).foldl (fun z m =>
    let one (z : Za) (get : ModelSlot → Option ModelArea) (put : ModelSlot → Option ModelArea → ModelSlot) : Za :=
      match (z.slot? e m.slot).bind get with
      | some a => z.modSlot e m.slot (fun x => put x (some (a.unspill z.nodePagesFree).1))
      | none => z
    one (one z (·.cur) (fun x a => { x with cur := a })) (·.oth) (fun x a => { x with oth := a })) z

/-! ### Step 5: Fronts (R24 to R26). -/

/-- The plans in force from a frame on; each feature plan that takes effect has the next sequence number (R241). -/
def Ctx.plansAt (c : Ctx) (n : Nat) : Plans :=
  let due (k : PlanKind) : Nat := c.pending.countP (fun p => p.kind == k && decide (p.front ≤ n))
  { pod := c.podAt n
    podWords := match c.planDue .pod n with
      | some p => p.words
      | none => c.plans.podWords
    die := c.featAt false n, dieSeq := (c.plans.dieSeq + due .die) % 65536
    tile := c.featAt true n, tileSeq := (c.plans.tileSeq + due .tile) % 65536
    det := c.detAt n }

/-- A context's changes and plans due by frame n have taken effect: all of one Front are merged, and the epoch rises once for each. -/
def Ctx.front (c : Ctx) (n : Nat) : Ctx :=
  { c with
    members := c.membersAt n, plans := c.plansAt n, epoch := c.epoch + c.rises n
    changes := c.changes.filter (fun x => decide (n < x.front)), pending := c.pending.filter (fun x => decide (n < x.front)) }

/-- The handles of what is due by a frame. -/
def Ctx.dueHandles (c : Ctx) (n : Nat) : List W :=
  ((c.changes.filter (fun x => decide (x.front ≤ n))).map (·.handle) ++
    (c.pending.filter (fun x => decide (x.front ≤ n))).map (·.handle)).eraseDups

/-- The Front of one context: its start is one as well. -/
def Za.frontCtx (z : Za) (e : Nat) (c : Ctx) : Za :=
  let n := z.frameNow
  let due := c.dueHandles n
  let isFront := !due.isEmpty || z.swapDue e || (c.state == .admitted && decide (c.start ≤ n))
  let z := z.modCtx e (fun x => x.front n)
  let z := due.foldl (fun z h => z.finish h (resultOf stOk)) z
  let z := (z.models.filter (fun m => m.entry == e)).foldl (fun z m => z.swapSlot e c m) z
  if isFront then (z.unspill e).event c.id c.gen .front else z

def Za.stepFronts (z : Za) : Za :=
  (z.ctxs.filter (fun (p : Nat × Ctx) => p.2.state == .admitted || p.2.state == .active)).foldl (fun z p => z.frontCtx p.1 p.2) z

/-! ### Model areas at a tick (R292, R302, R306, R307, R310). -/

/-- A retiring area whose time has come is free; a repaired copy that has been placed is CURRENT. -/
def ModelSlot.turn (m : ModelSlot) (begun frame : Nat) : ModelSlot :=
  let m := if m.oth.any (fun a => a.state == .retiring && decide (a.retireAt ≤ begun)) then { m with oth := none } else m
  if m.cur.any (fun a => a.state == .ready) then
    { m with cur := m.cur.map (fun a => { a with state := .current, since := frame }), passOf := none, passDone := none }
  else m

/-- The pass over a slot has ended and the next begins, to take `n` periods of 64 frames (R306). -/
def ModelSlot.pass (n : Nat) (m : ModelSlot) : ModelSlot :=
  { m with passDone := m.passOf, passOf := (m.cur.filter (fun a => a.state == .current)).map (·.version), passLeft := n }

/-- The pass goes on over the next period, and nothing is compared at this one. -/
def ModelSlot.passOn (m : ModelSlot) : ModelSlot := { m with passDone := none, passLeft := m.passLeft - 1 }

/-- The periods of 64 frames that a pass over all CURRENT copies takes: 8 GiB in each (R306). -/
def Za.passPeriods (z : Za) : Nat :=
  ((z.models.filterMap (fun m => (m.cur.filter (fun a => a.state == .current)).map (·.imageLen))).sum + 2 ^ 33 - 1) / 2 ^ 33

def Za.turnModels (z : Za) : Za :=
  let turned := z.models.map (fun m => m.turn z.time.begun z.frameNow)
  { z with models := turned.filter (fun m => m.cur.isSome || m.oth.isSome) }

/-- At each multiple of 64 the pass over the copies ends or goes on; where it has ended the next begins (R306). -/
def Za.startPasses (z : Za) : Za :=
  if z.frameNow % 64 ≠ 0 then z
  else if z.models.any (fun m => decide (1 < m.passLeft)) then { z with models := z.models.map ModelSlot.passOn }
  else { z with models := z.models.map (ModelSlot.pass z.passPeriods) }

/-- A program none of whose tiles is left is placed again (R292). -/
def Za.replace (z : Za) (a : ModelArea) : ModelArea :=
  { a with tiles := a.tiles.map (fun (t : Nat × List Nat) =>
      if t.2.any z.tileLive then t
      else
        let w := sectWords a.image t.1
        (t.1, (z.pickTiles [] (prgKib a.image w) (prgTiles w)).getD t.2)) }

def Za.replaceTiles (z : Za) : Za :=
  z.models.foldl (fun z m => z.modSlot m.entry m.slot (fun x => { x with cur := x.cur.map z.replace, oth := x.oth.map z.replace })) z

/-- Expelled copies are fetched again (R310). -/
def Za.repairs (z : Za) : Za :=
  (z.models.filter (fun m => m.cur.any (fun a => a.state == .expelled))).foldl (fun z m => z.startRepair m.entry m.slot) z

/-! ### Weight swaps (R139, R170). -/

/-- The tick that begins S + O is noted, and V_a's table goes at the second after it; where S + O falls in a skipped range, both
count from the tick that ends the skip. -/
def Ctx.freeTables (c : Ctx) (begun now : Nat) : Ctx :=
  let swaps := c.swaps.map (fun s => if s.ended.isNone && decide (s.first + s.overlap ≤ now) then { s with ended := some begun } else s)
  let gone := (swaps.filter (fun s => s.ended == some (begun - 2) && s.va != s.vb && decide (2 ≤ begun))).map (·.va)
  { c with swaps, tables := c.tables.filter (fun (t : Nat × List (Nat × List W)) => !gone.contains t.1) }

def Za.stepTables (z : Za) : Za :=
  { z with ctxs := z.ctxs.map (fun (p : Nat × Ctx) => (p.1, p.2.freeTables z.time.begun z.frameNow)) }

/-! ### Step 6: starts (R23, R28). -/

/-- A context whose start Front has come is ACTIVE, with epoch 1; its CTX_ADMIT ends. -/
def Za.startCtx (z : Za) (e : Nat) (c : Ctx) : Za :=
  if c.state = .admitted ∧ c.start ≤ z.frameNow then
    (z.modCtx e (fun x => { x with state := .active, epoch := x.epoch + 1, admitHandle := 0 })).finish c.admitHandle (resultOf stOk)
  else z

def Za.stepStarts (z : Za) : Za := z.ctxs.foldl (fun z (p : Nat × Ctx) => z.startCtx p.1 p.2) z

end Sys2Proof.Machine
end

