-- ==== Sys2Proof/Machine/ZaTick.lean ====
section
/-!
DEFINITION. The ZA40's tick in the order of R198, its slot boundary, and the reset of an observed domain (R29, R34, R72, R83, R170,
R198, R301, R348, R358, R360, R362, R396, R432).
-/
namespace Sys2Proof.Machine

/-! ### Links at a tick (R356, R358, R362). -/

/-- The allowances of a frame: each context's reserve in bytes. -/
def allowances (ctxs : List (Nat × Ctx)) (f : Quotas → Nat) : List (Nat × Nat) :=
  (ctxs.map (fun (p : Nat × Ctx) => (p.1, 1024 * f p.2.q))).filter (fun (x : Nat × Nat) => x.2 != 0)

/-- A committed gate list takes force, and the allowances are set anew. -/
def ZaLink.turn (l : ZaLink) (ctl red : List (Nat × Nat)) : ZaLink :=
  { l with gates := l.gatesNext.getD l.gates, gatesNext := none, ctlAllow := ctl, redAllow := red }

/-- The runs of a link's flows: one without a drop in the frame ends. -/
def ZaLink.policeTurn (l : ZaLink) : ZaLink :=
  { l with policeRuns := l.policeRuns.filterMap (fun (r : Nat × Nat × Bool) => if r.2.2 then some (r.1, r.2.1 + 1, false) else none) }

/-- Eight frames in a row with drops are reported once in their run. -/
def Za.policeFaults (z : Za) (p : Nat) : Za :=
  ((z.link p).policeRuns.filter (fun (r : Nat × Nat × Bool) => r.2.1 == 8)).foldl (fun z _ =>
    z.raise .policeDrop .link p .none 0 0) z

/-- Every link at a tick. -/
def Za.turnLinks (z : Za) : Za :=
  let ctl := allowances z.ctxs (·.ctlMin)
  let red := allowances z.ctxs (·.redMin)
  let used := (List.range 82).filter (fun p => (aGet z.links p).isSome || (z.linkOn p && z.face p != 0 && !(ctl.isEmpty && red.isEmpty)))
  used.foldl (fun z p => (z.modLink p (fun l => (l.turn ctl red).policeTurn)).policeFaults p) z

/-! ### Dies at a tick (R83, R89). -/

/-- Configuration written two frames ago governs the data frame now to be worked. -/
def DieEntry.cfgTurn (d : DieEntry) (begun : Nat) : DieEntry :=
  let due := d.cfgDue.filter (fun (x : Nat × Nat) => decide (x.2 + 2 ≤ begun))
  { d with
    cfgFrame := due.foldl (fun m (x : Nat × Nat) => aPut m x.1 ((aGetD m x.1 0 + 1) % 16)) d.cfgFrame
    cfgDue := d.cfgDue.filter (fun (x : Nat × Nat) => !decide (x.2 + 2 ≤ begun)) }

/-- A slot that a context takes over at this tick starts with empty books; slots whose context has gone are dropped at the second tick
after its last frame (R27, R170). -/
def DieEntry.slotTurn (d : DieEntry) (before now : Nat) : DieEntry :=
  let fresh := (d.slots.filter (fun s => decide (before < s.first ∧ s.first ≤ now))).map (·.slot)
  { d with
    slots := d.slots.filter (fun s => s.last.all (fun l => decide (before ≤ l)))
    cache := d.cache.filter (fun (x : Nat × List W × Nat) => !fresh.contains (wf x.2.1 2 28 26))
    blocks := d.blocks.filter (fun (x : Nat × Nat × Nat) => !fresh.contains x.1)
    wins := d.wins.filter (fun (x : Nat × Nat × Nat × Nat × Nat) => !fresh.contains x.1)
    sentBands := d.sentBands.filter (fun (x : Nat × Nat × List (List W)) => !fresh.contains x.1)
    paramAge := d.paramAge.filter (fun (x : Nat × Nat) => !fresh.contains x.1) }

def Za.turnDies (z : Za) : Za :=
  let turn (d : DieEntry) : DieEntry :=
    ((d.cfgTurn z.time.begun).slotTurn z.time.prevFrame z.frameNow).slotFronts z.frameNow z.time.plusTwo
  let z : Za := { z with dies := z.dies.map turn }
  (z.dies.map (·.die)).foldl Za.writeSlots z

/-! ### Step 7: work begins (R198, R209, R301). -/

/-- Pods of a number of frames under a plan, on top of those counted. -/
def Ctx.addPods (c : Ctx) (p : PodPlan) (frames : Nat) : List Nat :=
  (List.range 16).map (fun ch => c.base.getD ch 0 + frames * p.perChannel.getD ch 0)

/-- The fabric context's start is frame 0 (R196): the frames before its first tick here count with the plan then in force, frames
skipped apart (R209). -/
def Za.baseOf (z : Za) (c : Ctx) : List Nat :=
  if c.id = 0 ∧ c.base.all (· == 0) then c.addPods (c.podAt z.frameNow) (z.time.begunFrom 0 z.frameNow) else c.base

/-- What stands for the data frame that begins: its view is kept, and the sequence numbers go on. -/
def Za.openView (z : Za) (e : Nat) (c : Ctx) : Za :=
  let c := { c with base := z.baseOf c }
  let v : CtxView := { z.viewAt c z.frameNow z.time.begun with pins := z.pinsFor e z.frameNow }
  z.modCtx e (fun x => { x with views := (v :: x.views).take 8, base := c.addPods v.plans.pod 1 })

/-- In a Lull state the sequence numbers go on as on every aggregator of the context (R209). -/
def Za.passView (z : Za) (e : Nat) (c : Ctx) : Za :=
  let c := { c with base := z.baseOf c }
  z.modCtx e (fun x => { x with base := c.addPods (c.podAt z.frameNow) 1 })

/-- Program state of an entity absent from two consecutive frames is freed (R295). -/
def Za.freeStates (z : Za) (e : Nat) (c : Ctx) : Za :=
  match c.views with
  | u :: v :: _ =>
    let there (k : W) : Bool := (u.entities (bit k 26)).any (fun n => n.key == k) || (v.entities (bit k 26)).any (fun n => n.key == k)
    { z with progState := z.progState.filter (fun p => p.entry != e || there p.key) }
  | _ => z

/-- The work of the data frame that has ended, and the reports of its comparison (R307). -/
def Za.workCtx (z : Za) (e : Nat) (c : Ctx) : Za :=
  match c.views.find? (fun v => decide (v.begun + 1 = z.time.begun)) with
  | none => z
  | some v =>
    let z := z.beginWork e c v
    (z.models.filter (fun m => m.entry == e)).foldl (fun z m => z.reportReplica e c v m) z

/-- Step 7. In a Lull state nothing is reduced (R466). -/
def Za.stepWork (z : Za) : Za :=
  if z.power.lull ≠ 0 then (z.ctxs.filter (fun (p : Nat × Ctx) => p.2.state == .active)).foldl (fun z p => z.passView p.1 p.2) z
  else
    let z := (z.ctxs.filter (fun (p : Nat × Ctx) => p.2.state == .active)).foldl (fun z p => z.openView p.1 p.2) z
    let z := z.ctxs.foldl (fun z (p : Nat × Ctx) => z.freeStates p.1 p.2) z
    (z.ctxs.filter (fun (p : Nat × Ctx) => p.2.state == .active || p.2.state == .draining)).foldl (fun z p => z.workCtx p.1 p.2) z

/-! ### The frame summary (R34, R170, R201, R310, R329, R455). -/

/-- The summary of a tick: of the works marked at its step 1 and the audit of its step 2. -/
def Za.summaryOf (z : Za) (marked : List FrameWork) (audit : List Quantity) : Summary :=
  let late := marked.flatMap (fun w => w.late)
  { frame := ((marked.head?).map (·.frame)).getD (z.time.prevFrame - 1)
    late := marked.flatMap (fun w => w.late.map (fun (l : Nat × Nat × Nat) => (w.ctx, l.1, l.2.1)))
    earliest := match late with
      | [] => 0
      | x :: r => r.foldl (fun m (l : Nat × Nat × Nat) => min m l.2.2) x.2.2
    skipped := z.time.skipped, stretched := z.time.stretched, length := z.time.lastLength, audit
    degraded := z.schedDegraded, thermal := decide (0 < z.power.step), unmirrored := !(z.seed.any (·.valid))
    expelled := (z.models.filter (fun m => m.cur.any (fun a => a.state != .current))).filterMap (fun m =>
      (z.ctx? m.entry).map (fun c => (c.id, m.slot))) }

/-- The summary is kept and goes to those who subscribed to it. -/
def Za.summarize (z : Za) (marked : List FrameWork) (audit : List Quantity) : Za :=
  let s := z.summaryOf marked audit
  let z : Za := { z with summary := some s, time := { z.time with skipped := 0, stretched := 0 } }
  (z.ctxs.map Prod.fst).foldl (fun z e => z.toSubscribers e 3 clsBulk 0x05 s.words) z

/-! ### The tick. -/

/-- What the tick leaves in the books: records of 64 frames ago go, and a rebuild's wait for its base lengthens. -/
def Za.turnBooks (z : Za) : Za :=
  let begun := z.time.begun
  { z with
    kept := z.kept.filter (fun k => decide (begun ≤ k.begun + 64))
    notes := z.notes.filter (fun n => decide (z.frameNow ≤ n.frame))
    externals := z.externals.filter (fun x => decide (z.frameNow ≤ x.frame))
    cmds := { z.cmds with
      retained := z.cmds.retained.filter (fun r => decide (begun ≤ r.posted + 64))
      cache := z.cmds.cache.filter (fun c => decide (begun ≤ c.at_ + 64)) }
    fences := { z.fences with backlogSaid := z.fences.backlogSaid.filter (fun b => decide (begun ≤ b + 1)) }
    rebuild := z.rebuild.map (fun rb => if rb.baseOpen then { rb with idle := rb.idle + 1 } else rb)
    rack := { z.rack with grants := z.rack.grants.filter (fun f => decide (begun < f + 4096)) }
    chkLog2 := fld (z.reg 0x5000) 3 0
    hailDue := some z.frameNow }

/-- One ECHO without data goes to each endpoint pair that is up (R353; log entry 232). -/
def Za.stepEchoes (z : Za) : Za :=
  let body : List W := [w32 (z.frameNow % 2 ^ 24), 0]
  let z := (z.upLinks 2 ++ z.upLinks 3).foldl (fun z p => z.toPeer p clsLink 0x04 8 body) z
  ((z.dies.filter (fun d => d.admitted && z.linkUp d.link)).map (·.die)).foldl (fun z die =>
    z.toDie die clsLink 0x04 0xFFFF 0 8 body) z

/-- The tick is an event of every resident context (R192). -/
def Za.tickEvents (z : Za) : Za := z.ctxs.foldl (fun z (p : Nat × Ctx) => z.event p.2.id p.2.gen .tick) z

/-- The steps of R198 at the tick that has just been issued. The faults held go first (R396), and fences granted are carried out
(R415). -/
def Za.tickSteps (z : Za) : Za :=
  let z := z.sendFaults
  let late := z.stepLate
  let audit := late.1.stepAudit
  let z := audit.1.turnModels.stepFree.stepDrain.stepFronts.stepTables.stepStarts.turnLinks
  let z := z.carryOut.turnDies.startPasses.replaceTiles.repairs
  let z := z.restoreExpire.stepWork
  (z.turnBooks.stepEchoes.seedLagCheck.tickEvents).summarize late.2 audit.2

/-- The frame begins: while the compute die does not run its firmware, only time goes on. -/
def Za.beginFrame (z : Za) : Za :=
  let z : Za := { z with time := z.time.tick z.slewMax zaNominal }
  if z.running then z.tickSteps else z

/-- ZA_TICK: an armed step that is due comes first; one that goes back issues no tick (R168, R169). -/
def Za.tick (z : Za) : Za :=
  if !z.time.ticking ∨ !z.power.powered then z
  else match z.time.stepDue with
    | none => z.beginFrame
    | some a =>
      let z := z.applyStep a
      if stepWhole a.s < 0 then z else z.beginFrame

def execZaTick (s : State) : Answer := .next (s.onZa Za.tick)

/-! ### The slot boundary (R29, R157, R348, R360, R465, R471). -/

/-- HELLO on every link that faces no DTU and is not looped (R348; log entry 174). -/
def Za.hellos (z : Za) : Za :=
  let due (p : Nat) : Bool := z.linkOn p && (z.face p == 2 || z.face p == 3) && ([1, 2, 3, 4, 5].contains (z.link p).state)
  ((List.range 82).filter due).foldl (fun z p => z.sendHello p) z

/-- The shaper of a class as its registers give it differs from the one in force. -/
def Za.shapeDiffers (z : Za) (p c : Nat) : Bool :=
  let r := z.shaperRegs 0x50000 p c
  match (z.link p).shapers[c]? with
  | some sh => !(sh.enabled == r.1 && sh.rate == r.2.1 && sh.burst == r.2.2)
  | none => false

/-- Shapers take the values written (R360). -/
def Za.adoptShapers (z : Za) : Za :=
  ((List.range 82).filter (fun p => (List.range 8).any (z.shapeDiffers p))).foldl (fun z p =>
    ((List.range 8).filter (z.shapeDiffers p)).foldl (fun z c =>
      let r := z.shaperRegs 0x50000 p c
      let full := bit (z.reg (0x50000 + 64 * p + 8 * c)) 30
      z.modLink p (fun l => { l with shapers := l.shapers.set c (Shaper.change r.1 full r.2.1 r.2.2 z.now) })) z) z

/-- ZA_SLOT_BOUNDARY: the FTC comes to the next boundary, unless a tick is due before it; what waits for a slot takes force. -/
def Za.slotBoundary (z : Za) : Za :=
  if !z.power.powered ∨ z.power.pinLow then z
  else
    let next := z.time.nextSlot
    let z := if z.mayReach next then z.reach next else z
    let p := z.power
    let z : Za := { z with
      ptp := { z.ptp with lat := z.regs.filter (fun r => decide (0x3100 ≤ r.1 ∧ r.1 < 0x3800 ∧ r.1 % 16 ≠ 12)) }
      power := { p with cfg := p.cfgNext.getD p.cfg, cfgNext := none, resetPorts := [] } }
    let z := p.resetPorts.foldl Za.portReset z
    let links := z.cmds.linkResets
    let z := links.foldl Za.resetLink { z with cmds := { z.cmds with linkResets := [] } }
    z.adoptShapers.hellos

def execZaSlotBoundary (s : State) : Answer := .next (s.onZa Za.slotBoundary)

/-- OBS_DOMAIN_RESET (R72). -/
def execObsDomainReset (dom : Fin 16) (asserted : Bool) (s : State) : Answer := .next (s.onDtu (·.obsDomainReset dom.val asserted))

end Sys2Proof.Machine
end

