-- ==== Sys2Proof/Machine/Dispatch.lean ====
section
/-!
DEFINITION. One arm per command: the call of its meaning.
-/
namespace Sys2Proof.Machine

def exec (i : Instr) (s : State) : Host.Outcome State Fault Refusal :=
  match i with
  | .ident h => Sys2Proof.Machine.execIdent h s
  | .status h => Sys2Proof.Machine.execStatus h s
  | .handleQuery h => Sys2Proof.Machine.execHandleQuery h s
  | .handleCancel h => Sys2Proof.Machine.execHandleCancel h s
  | .regRead h => Sys2Proof.Machine.execRegRead h s
  | .regWrite h => Sys2Proof.Machine.execRegWrite h s
  | .tagWrite h => Sys2Proof.Machine.execTagWrite h s
  | .softReset h => Sys2Proof.Machine.execSoftReset h s
  | .frameReset h => Sys2Proof.Machine.execFrameReset h s
  | .cellSample h => Sys2Proof.Machine.execCellSample h s
  | .linkResetCmd h => Sys2Proof.Machine.execLinkResetCmd h s
  | .retainReplay h => Sys2Proof.Machine.execRetainReplay h s
  | .margin h => Sys2Proof.Machine.execMargin h s
  | .traceFlush h => Sys2Proof.Machine.execTraceFlush h s
  | .traceSave h => Sys2Proof.Machine.execTraceSave h s
  | .traceRestore h => Sys2Proof.Machine.execTraceRestore h s
  | .timeResync h => Sys2Proof.Machine.execTimeResync h s
  | .timeStep h => Sys2Proof.Machine.execTimeStep h s
  | .ctxAdmit h => Sys2Proof.Machine.execCtxAdmit h s
  | .ctxTeardown h => Sys2Proof.Machine.execCtxTeardown h s
  | .ctxQuota h => Sys2Proof.Machine.execCtxQuota h s
  | .membership h => Sys2Proof.Machine.execMembership h s
  | .podPlan h => Sys2Proof.Machine.execPodPlan h s
  | .featPlan h => Sys2Proof.Machine.execFeatPlan h s
  | .detPlan h => Sys2Proof.Machine.execDetPlan h s
  | .detReset h => Sys2Proof.Machine.execDetReset h s
  | .syncAlloc h => Sys2Proof.Machine.execSyncAlloc h s
  | .syncFree h => Sys2Proof.Machine.execSyncFree h s
  | .syncSet h => Sys2Proof.Machine.execSyncSet h s
  | .syncAdd h => Sys2Proof.Machine.execSyncAdd h s
  | .syncWait h => Sys2Proof.Machine.execSyncWait h s
  | .syncBind h => Sys2Proof.Machine.execSyncBind h s
  | .syncRead h => Sys2Proof.Machine.execSyncRead h s
  | .modelLoad h => Sys2Proof.Machine.execModelLoad h s
  | .modelQuery h => Sys2Proof.Machine.execModelQuery h s
  | .featWrite h => Sys2Proof.Machine.execFeatWrite h s
  | .weightSwap h => Sys2Proof.Machine.execWeightSwap h s
  | .digestLoad h => Sys2Proof.Machine.execDigestLoad h s
  | .resultHistory h => Sys2Proof.Machine.execResultHistory h s
  | .subscribe h => Sys2Proof.Machine.execSubscribe h s
  | .seedPair h => Sys2Proof.Machine.execSeedPair h s
  | .frostArm h => Sys2Proof.Machine.execFrostArm h s
  | .frostCancel h => Sys2Proof.Machine.execFrostCancel h s
  | .frostNow h => Sys2Proof.Machine.execFrostNow h s
  | .frostThaw h => Sys2Proof.Machine.execFrostThaw h s
  | .frostQuery h => Sys2Proof.Machine.execFrostQuery h s
  | .scanOut h => Sys2Proof.Machine.execScanOut h s
  | .loopTest h => Sys2Proof.Machine.execLoopTest h s
  | .selfTest h => Sys2Proof.Machine.execSelfTest h s
  | .faultInject h => Sys2Proof.Machine.execFaultInject h s
  | .fence h => Sys2Proof.Machine.execFence h s
  | .unfence h => Sys2Proof.Machine.execUnfence h s
  | .readmit h => Sys2Proof.Machine.execReadmit h s
  | .liveClaim h => Sys2Proof.Machine.execLiveClaim h s
  | .liveQuery h => Sys2Proof.Machine.execLiveQuery h s
  | .rackSet h => Sys2Proof.Machine.execRackSet h s
  | .ckptPut h => Sys2Proof.Machine.execCkptPut h s
  | .ckptGet h => Sys2Proof.Machine.execCkptGet h s
  | .rebuild h => Sys2Proof.Machine.execRebuild h s
  | .faultLog h => Sys2Proof.Machine.execFaultLog h s
  | .lullHold h => Sys2Proof.Machine.execLullHold h s
  | .lullRelease h => Sys2Proof.Machine.execLullRelease h s
  | .zaLull h => Sys2Proof.Machine.execZaLull h s
  | .zaWake h => Sys2Proof.Machine.execZaWake h s
  | .zaReset h => Sys2Proof.Machine.execZaReset h s
  | .pwrLimit h => Sys2Proof.Machine.execPwrLimit h s
  | .chainRelease handle => Sys2Proof.Machine.execChainRelease handle s
  | .doneHandle handle => Sys2Proof.Machine.execDoneHandle handle s
  | .relayedCompletion die record => Sys2Proof.Machine.execRelayedCompletion die record s
  | .targetTimeout ownTag => Sys2Proof.Machine.execTargetTimeout ownTag s
  | .dtuLongQueueRelease die => Sys2Proof.Machine.execDtuLongQueueRelease die s
  | .featPlanStagingExpiry entry tile => Sys2Proof.Machine.execFeatPlanStagingExpiry entry tile s
  | .hostPortWrite addr data => Sys2Proof.Machine.execHostPortWrite addr data s
  | .tagAreaWrite word data => Sys2Proof.Machine.execTagAreaWrite word data s
  | .dtuTagSeal data => Sys2Proof.Machine.execDtuTagSeal data s
  | .dtuTrcHostLo data => Sys2Proof.Machine.execDtuTrcHostLo data s
  | .irqStatusClear obs data => Sys2Proof.Machine.execIrqStatusClear obs data s
  | .timeSrcSelect data => Sys2Proof.Machine.execTimeSrcSelect data s
  | .compat5Select data => Sys2Proof.Machine.execCompat5Select data s
  | .ulLatWrite tx data => Sys2Proof.Machine.execUlLatWrite tx data s
  | .cellCfgWrite cell data => Sys2Proof.Machine.execCellCfgWrite cell data s
  | .ctxMaskWrite cluster mask => Sys2Proof.Machine.execCtxMaskWrite cluster mask s
  | .clusterFenceWrite cluster fenced => Sys2Proof.Machine.execClusterFenceWrite cluster fenced s
  | .dtuCtxFrontWrite slot w0 w1 front => Sys2Proof.Machine.execDtuCtxFrontWrite slot w0 w1 front s
  | .traceEnable on => Sys2Proof.Machine.execTraceEnable on s
  | .marginBudgetWrite data => Sys2Proof.Machine.execMarginBudgetWrite data s
  | .trigArm trig word data => Sys2Proof.Machine.execTrigArm trig word data s
  | .markArm mark word data => Sys2Proof.Machine.execMarkArm mark word data s
  | .gclCommit link data => Sys2Proof.Machine.execGclCommit link data s
  | .shaperChange link cls word data => Sys2Proof.Machine.execShaperChange link cls word data s
  | .portConfigWrite port data => Sys2Proof.Machine.execPortConfigWrite port data s
  | .ulRateWrite data => Sys2Proof.Machine.execUlRateWrite data s
  | .eccStatusRead => Sys2Proof.Machine.execEccStatusRead s
  | .hostPowerOnReset => Sys2Proof.Machine.execHostPowerOnReset s
  | .pinReset => Sys2Proof.Machine.execPinReset s
  | .ulPathReset => Sys2Proof.Machine.execUlPathReset s
  | .faultIntakeReset => Sys2Proof.Machine.execFaultIntakeReset s
  | .obsDomainReset dom asserted => Sys2Proof.Machine.execObsDomainReset dom asserted s
  | .lullRequest target => Sys2Proof.Machine.execLullRequest target s
  | .lullExit => Sys2Proof.Machine.execLullExit s
  | .marginAck nak => Sys2Proof.Machine.execMarginAck nak s
  | .marginAckRelease => Sys2Proof.Machine.execMarginAckRelease s
  | .marginStall => Sys2Proof.Machine.execMarginStall s
  | .faultPortAccept message => Sys2Proof.Machine.execFaultPortAccept message s
  | .faultDropPulse => Sys2Proof.Machine.execFaultDropPulse s
  | .probeEvent strobe => Sys2Proof.Machine.execProbeEvent strobe s
  | .tapSample tap value => Sys2Proof.Machine.execTapSample tap value s
  | .digestBeat chan valid half => Sys2Proof.Machine.execDigestBeat chan valid half s
  | .digestPendingTimeout slot version block => Sys2Proof.Machine.execDigestPendingTimeout slot version block s
  | .digestPacketSend => Sys2Proof.Machine.execDigestPacketSend s
  | .obsClkLost dom => Sys2Proof.Machine.execObsClkLost dom s
  | .timeClkTolerance => Sys2Proof.Machine.execTimeClkTolerance s
  | .timePortSlotPulse => Sys2Proof.Machine.execTimePortSlotPulse s
  | .timePortWord b0 b1 b2 b3 => Sys2Proof.Machine.execTimePortWord b0 b1 b2 b3 s
  | .timeHoldoverEntry side => Sys2Proof.Machine.execTimeHoldoverEntry side s
  | .ptpMessage port message => Sys2Proof.Machine.execPtpMessage port message s
  | .parentChange port identity offset => Sys2Proof.Machine.execParentChange port identity offset s
  | .timeSync frame phase => Sys2Proof.Machine.execTimeSync frame phase s
  | .timeSyncSend die => Sys2Proof.Machine.execTimeSyncSend die s
  | .timeEcho link frame stamp => Sys2Proof.Machine.execTimeEcho link frame stamp s
  | .stepApply side => Sys2Proof.Machine.execStepApply side s
  | .triggerFire trig => Sys2Proof.Machine.execTriggerFire trig s
  | .timeMark mark => Sys2Proof.Machine.execTimeMark mark s
  | .dtuTick seen => Sys2Proof.Machine.execDtuTick seen s
  | .clusterClose cluster => Sys2Proof.Machine.execClusterClose cluster s
  | .closureLimit cluster => Sys2Proof.Machine.execClosureLimit cluster s
  | .contribExpiry => Sys2Proof.Machine.execContribExpiry s
  | .slotBoundary => Sys2Proof.Machine.execSlotBoundary s
  | .healthSample temp vcore vret => Sys2Proof.Machine.execHealthSample temp vcore vret s
  | .faultRecordSend => Sys2Proof.Machine.execFaultRecordSend s
  | .traceCapture => Sys2Proof.Machine.execTraceCapture s
  | .traceBlockClose => Sys2Proof.Machine.execTraceBlockClose s
  | .compressorFullStop => Sys2Proof.Machine.execCompressorFullStop s
  | .compressorResume => Sys2Proof.Machine.execCompressorResume s
  | .traceBlockSend => Sys2Proof.Machine.execTraceBlockSend s
  | .ulCreditReturn vc => Sys2Proof.Machine.execUlCreditReturn vc s
  | .ulCreditMinTimeout vc => Sys2Proof.Machine.execUlCreditMinTimeout vc s
  | .ulRxPacket vc defect frame => Sys2Proof.Machine.execUlRxPacket vc defect frame s
  | .hello side link frame => Sys2Proof.Machine.execHello side link frame s
  | .helloSend => Sys2Proof.Machine.execHelloSend s
  | .admitMsg frame => Sys2Proof.Machine.execAdmit frame s
  | .dtuLinkStateChange die => Sys2Proof.Machine.execDtuLinkStateChange die s
  | .credit side link frame => Sys2Proof.Machine.execCredit side link frame s
  | .creditSend side link die => Sys2Proof.Machine.execCreditSend side link die s
  | .echo side link frame residence => Sys2Proof.Machine.execEcho side link frame residence s
  | .echoReply side link frame elapsed => Sys2Proof.Machine.execEchoReply side link frame elapsed s
  | .linkReset side link frame => Sys2Proof.Machine.execLinkReset side link frame s
  | .frameTransmit side link => Sys2Proof.Machine.execFrameTransmit side link s
  | .forwardFillChange percent => Sys2Proof.Machine.execForwardFillChange percent s
  | .contrib link frame arrival => Sys2Proof.Machine.execContrib link frame arrival s
  | .trayDeadline entry => Sys2Proof.Machine.execTrayDeadline entry s
  | .partialResult link frame arrival => Sys2Proof.Machine.execPartialResult link frame arrival s
  | .fabricNodeDeadline entry height => Sys2Proof.Machine.execFabricNodeDeadline entry height s
  | .finalResult link frame => Sys2Proof.Machine.execFinalResult link frame s
  | .reorderSkipExpiry entry chan => Sys2Proof.Machine.execReorderSkipExpiry entry chan s
  | .podSlotGrant entry => Sys2Proof.Machine.execPodSlotGrant entry s
  | .podRerun entry frameNo podIndex => Sys2Proof.Machine.execPodRerun entry frameNo podIndex s
  | .param frame => Sys2Proof.Machine.execParam frame s
  | .paramSend entry die => Sys2Proof.Machine.execParamSend entry die s
  | .zaTick => Sys2Proof.Machine.execZaTick s
  | .featureRow entry tile entity => Sys2Proof.Machine.execFeatureRow entry tile entity s
  | .ensembleItem entry score entity tree lane upset => Sys2Proof.Machine.execEnsembleItem entry score entity tree lane upset s
  | .checkArbitration entry => Sys2Proof.Machine.execCheckArbitration entry s
  | .scoringComplete entry => Sys2Proof.Machine.execScoringComplete entry s
  | .programBatch entry score batch tile weightError => Sys2Proof.Machine.execProgramBatch entry score batch tile weightError s
  | .detectorRun entry => Sys2Proof.Machine.execDetectorRun entry s
  | .bandDerive entry => Sys2Proof.Machine.execBandDerive entry s
  | .seedDelta frame => Sys2Proof.Machine.execSeedDelta frame s
  | .seedCommit frame => Sys2Proof.Machine.execSeedCommit frame s
  | .seedUpdateSend => Sys2Proof.Machine.execSeedUpdateSend s
  | .seedAck frame => Sys2Proof.Machine.execSeedAck frame s
  | .seedNack frame => Sys2Proof.Machine.execSeedNack frame s
  | .seedResync => Sys2Proof.Machine.execSeedResync s
  | .seedbankLost => Sys2Proof.Machine.execSeedbankLost s
  | .restoreReq frame => Sys2Proof.Machine.execRestoreReq frame s
  | .restoreData frame => Sys2Proof.Machine.execRestoreData frame s
  | .fetchReq link frame => Sys2Proof.Machine.execFetchReq link frame s
  | .fetchOffer link frame => Sys2Proof.Machine.execFetchOffer link frame s
  | .fetchDecline link frame => Sys2Proof.Machine.execFetchDecline link frame s
  | .fetchChunk link frame => Sys2Proof.Machine.execFetchChunk link frame s
  | .fetchSourceTimeout entry slot => Sys2Proof.Machine.execFetchSourceTimeout entry slot s
  | .modelVerify entry slot => Sys2Proof.Machine.execModelVerify entry slot s
  | .modelPlaced entry slot => Sys2Proof.Machine.execModelPlaced entry slot s
  | .replicaReport frame => Sys2Proof.Machine.execReplicaReport frame s
  | .replicaCollectTimeout entry slot => Sys2Proof.Machine.execReplicaCollectTimeout entry slot s
  | .replicaVerdict frame => Sys2Proof.Machine.execReplicaVerdict frame s
  | .hailSend side temp vcore => Sys2Proof.Machine.execHailSend side temp vcore s
  | .hail link frame => Sys2Proof.Machine.execHail link frame s
  | .hailEvaluate => Sys2Proof.Machine.execHailEvaluate s
  | .rmFailover => Sys2Proof.Machine.execRmFailover s
  | .checkpoint => Sys2Proof.Machine.execCheckpoint s
  | .ckptIncomplete agg => Sys2Proof.Machine.execCkptIncomplete agg s
  | .rebuildPartnerStall => Sys2Proof.Machine.execRebuildPartnerStall s
  | .rebuildReplay => Sys2Proof.Machine.execRebuildReplay s
  | .rebuildLive => Sys2Proof.Machine.execRebuildLive s
  | .fenceNotice agg => Sys2Proof.Machine.execFenceNotice agg s
  | .faultRaise message => Sys2Proof.Machine.execFaultRaise message s
  | .memError region entry address errors => Sys2Proof.Machine.execMemError region entry address errors s
  | .scrubRead region entry address errors => Sys2Proof.Machine.execScrubRead region entry address errors s
  | .arm frame => Sys2Proof.Machine.execArm frame s
  | .cancel frame => Sys2Proof.Machine.execCancel frame s
  | .frostStop side => Sys2Proof.Machine.execFrostStop side s
  | .now side link frame => Sys2Proof.Machine.execNow side link frame s
  | .thaw frame => Sys2Proof.Machine.execThaw frame s
  | .ack link frame => Sys2Proof.Machine.execAck link frame s
  | .scanReq frame => Sys2Proof.Machine.execScanReq frame s
  | .scanData link frame => Sys2Proof.Machine.execScanData link frame s
  | .frostRepeat => Sys2Proof.Machine.execFrostRepeat s
  | .keomonFrame bytes => Sys2Proof.Machine.execKeomonFrame bytes s
  | .loadReq length => Sys2Proof.Machine.execLoadReq length s
  | .loadData offset bytes => Sys2Proof.Machine.execLoadData offset bytes s
  | .bootSourceTimeout stalled => Sys2Proof.Machine.execBootSourceTimeout stalled s
  | .imageVerify => Sys2Proof.Machine.execImageVerify s
  | .bootRoundWait => Sys2Proof.Machine.execBootRoundWait s
  | .powerUp vin strap => Sys2Proof.Machine.execPowerUp vin strap s
  | .powerLoss cause rail vin => Sys2Proof.Machine.execPowerLoss cause rail vin s
  | .thermalTrip temp vin => Sys2Proof.Machine.execThermalTrip temp vin s
  | .svcPinReset low => Sys2Proof.Machine.execSvcPinReset low s
  | .warmReset => Sys2Proof.Machine.execWarmReset s
  | .watchdogExpiry => Sys2Proof.Machine.execWatchdogExpiry s
  | .thermalThrottle reading => Sys2Proof.Machine.execThermalThrottle reading s
  | .bulkFrame link frame => Sys2Proof.Machine.execBulkFrame link frame s
  | .linkLost link => Sys2Proof.Machine.execLinkLost link s
  | .zaSlotBoundary => Sys2Proof.Machine.execZaSlotBoundary s
  | .ptpSyncInterval port => Sys2Proof.Machine.execPtpSyncInterval port s
  | .announceReceiptTimeout port => Sys2Proof.Machine.execAnnounceReceiptTimeout port s
  | .thawInstant side => Sys2Proof.Machine.execThawInstant side s
  | .captureWindowEnd side => Sys2Proof.Machine.execCaptureWindowEnd side s
  | .inputWarn vin => Sys2Proof.Machine.execInputWarn vin s
  | .thermalTripRestart temp tenths vin => Sys2Proof.Machine.execThermalTripRestart temp tenths vin s

end Sys2Proof.Machine
end

