-- ==== Sys2Proof/Machine/Step.lean ====
section
/-!
DEFINITION. The step of the machine: the command at the front of the queue.
-/
namespace Sys2Proof.Machine

/-- An empty queue: one edge of the clocks of both units (log entry 7). -/
def State.idle (s : State) : State := { s with dtu := s.dtu.edge, za := s.za.edge }

/-- The command at the front of the queue has its effect on the rest of the state; with nothing waiting the clocks go on. -/
def step (s : State) : Host.Outcome State Fault Refusal :=
  match s.pending with
  | [] => .next s.idle
  | c :: rest => exec c { s with pending := rest }

/-- The command that a word spells, put at the front of the queue. -/
def State.withFetchWord (s : State) (nbits w : Nat) : State :=
  match Sys2Proof.decodeTableWord nbits w with
  | some c => { s with pending := c :: s.pending }
  | none => s

end Sys2Proof.Machine
end

