-- ==== Sys2Proof/WellFormed.lean ====
section
/-!
DEFINITION. Well-formed commands: operands that the wires, links and ports of the spec can carry. The machine is total and
answers an ill-formed command too; statements about frames and records as they arrive take these as premises.
-/
namespace Sys2Proof

/-- The largest Triheud payload, in bytes (R341). -/
def maxPlen : Nat := 9184

/-- A frame whose payload is as long as plen says, in whole words (R338, R341). -/
def wfFrame (f : Frame) : Bool :=
  decide (f.plen.toNat ≤ maxPlen) && decide (f.body.length = (f.plen.toNat + 3) / 4)

/-- The largest Husk payload, in words: 9,152 bytes on a link, 2,016 on keomon (R368, R389). -/
def maxHuskWords (keomon : Bool) : Nat := if keomon then 504 else 2288

/-- A Husk from a link of the unit that receives it, or from keomon, which only a ZA40 has (R344, R367, R368, R389). -/
def wfHusk (h : HuskCmd) : Bool :=
  decide (h.payload.length ≤ maxHuskWords h.req.keomon) && decide (h.req.link < 82) &&
    !(h.req.keomon && h.side == .dtu)

/-- A completion record: 8 header words and a result payload (R373). -/
def wfRecord (r : List W) : Bool := decide (8 ≤ r.length) && decide (r.length ≤ 8 + 2288)

/-- Wrong symbols of one code word of 136: each place once, each with an error in it (R187). -/
def wfErrors (errors : List (Fin 136 × Byte)) : Bool :=
  decide ((errors.map Prod.fst).Nodup) && errors.all (fun e => e.2 != 0)

/-- The command is one that the block's ports can bring. -/
def wfInstr : Instr → Bool
  | .ident h => wfHusk h
  | .status h => wfHusk h
  | .handleQuery h => wfHusk h
  | .handleCancel h => wfHusk h
  | .regRead h => wfHusk h
  | .regWrite h => wfHusk h
  | .tagWrite h => wfHusk h
  | .softReset h => wfHusk h
  | .frameReset h => wfHusk h
  | .cellSample h => wfHusk h
  | .linkResetCmd h => wfHusk h
  | .retainReplay h => wfHusk h
  | .margin h => wfHusk h
  | .traceFlush h => wfHusk h
  | .traceSave h => wfHusk h
  | .traceRestore h => wfHusk h
  | .timeResync h => wfHusk h
  | .timeStep h => wfHusk h
  | .ctxAdmit h => wfHusk h
  | .ctxTeardown h => wfHusk h
  | .ctxQuota h => wfHusk h
  | .membership h => wfHusk h
  | .podPlan h => wfHusk h
  | .featPlan h => wfHusk h
  | .detPlan h => wfHusk h
  | .detReset h => wfHusk h
  | .syncAlloc h => wfHusk h
  | .syncFree h => wfHusk h
  | .syncSet h => wfHusk h
  | .syncAdd h => wfHusk h
  | .syncWait h => wfHusk h
  | .syncBind h => wfHusk h
  | .syncRead h => wfHusk h
  | .modelLoad h => wfHusk h
  | .modelQuery h => wfHusk h
  | .featWrite h => wfHusk h
  | .weightSwap h => wfHusk h
  | .digestLoad h => wfHusk h
  | .resultHistory h => wfHusk h
  | .subscribe h => wfHusk h
  | .seedPair h => wfHusk h
  | .frostArm h => wfHusk h
  | .frostCancel h => wfHusk h
  | .frostNow h => wfHusk h
  | .frostThaw h => wfHusk h
  | .frostQuery h => wfHusk h
  | .scanOut h => wfHusk h
  | .loopTest h => wfHusk h
  | .selfTest h => wfHusk h
  | .faultInject h => wfHusk h
  | .fence h => wfHusk h
  | .unfence h => wfHusk h
  | .readmit h => wfHusk h
  | .liveClaim h => wfHusk h
  | .liveQuery h => wfHusk h
  | .rackSet h => wfHusk h
  | .ckptPut h => wfHusk h
  | .ckptGet h => wfHusk h
  | .rebuild h => wfHusk h
  | .faultLog h => wfHusk h
  | .lullHold h => wfHusk h
  | .lullRelease h => wfHusk h
  | .zaLull h => wfHusk h
  | .zaWake h => wfHusk h
  | .zaReset h => wfHusk h
  | .pwrLimit h => wfHusk h
  | .chainRelease _ => true
  | .doneHandle _ => true
  | .relayedCompletion _ record => wfRecord record
  | .targetTimeout _ => true
  | .dtuLongQueueRelease _ => true
  | .featPlanStagingExpiry _ _ => true
  | .hostPortWrite _ _ => true
  | .tagAreaWrite _ _ => true
  | .dtuTagSeal _ => true
  | .dtuTrcHostLo _ => true
  | .irqStatusClear _ _ => true
  | .timeSrcSelect _ => true
  | .compat5Select _ => true
  | .ulLatWrite _ _ => true
  | .cellCfgWrite _ _ => true
  | .ctxMaskWrite _ _ => true
  | .clusterFenceWrite _ _ => true
  | .dtuCtxFrontWrite _ _ _ _ => true
  | .traceEnable _ => true
  | .marginBudgetWrite _ => true
  | .trigArm _ _ _ => true
  | .markArm _ _ _ => true
  | .gclCommit _ _ => true
  | .shaperChange _ _ _ _ => true
  | .portConfigWrite _ _ => true
  | .ulRateWrite _ => true
  | .eccStatusRead => true
  | .hostPowerOnReset => true
  | .pinReset => true
  | .ulPathReset => true
  | .faultIntakeReset => true
  | .obsDomainReset _ _ => true
  | .lullRequest _ => true
  | .lullExit => true
  | .marginAck _ => true
  | .marginAckRelease => true
  | .marginStall => true
  | .faultPortAccept _ => true
  | .faultDropPulse => true
  | .probeEvent _ => true
  | .tapSample _ _ => true
  | .digestBeat _ _ half => decide (half.length = 16)
  | .digestPendingTimeout _ _ _ => true
  | .digestPacketSend => true
  | .obsClkLost _ => true
  | .timeClkTolerance => true
  | .timePortSlotPulse => true
  | .timePortWord _ _ _ _ => true
  | .timeHoldoverEntry _ => true
  | .ptpMessage _ _ => true
  | .parentChange _ _ _ => true
  | .timeSync frame _ => wfFrame frame
  | .timeSyncSend _ => true
  | .timeEcho _ frame _ => wfFrame frame
  | .stepApply _ => true
  | .triggerFire _ => true
  | .timeMark _ => true
  | .dtuTick _ => true
  | .clusterClose _ => true
  | .closureLimit _ => true
  | .contribExpiry => true
  | .slotBoundary => true
  | .healthSample _ _ _ => true
  | .faultRecordSend => true
  | .traceCapture => true
  | .traceBlockClose => true
  | .compressorFullStop => true
  | .compressorResume => true
  | .traceBlockSend => true
  | .ulCreditReturn _ => true
  | .ulCreditMinTimeout _ => true
  | .ulRxPacket _ _ frame => wfFrame frame
  | .hello _ _ frame => wfFrame frame
  | .helloSend => true
  | .admitMsg frame => wfFrame frame
  | .dtuLinkStateChange _ => true
  | .credit _ _ frame => wfFrame frame
  | .creditSend _ _ _ => true
  | .echo _ _ frame _ => wfFrame frame
  | .echoReply _ _ frame _ => wfFrame frame
  | .linkReset _ _ frame => wfFrame frame
  | .frameTransmit _ _ => true
  | .forwardFillChange _ => true
  | .contrib _ frame _ => wfFrame frame
  | .trayDeadline _ => true
  | .partialResult _ frame _ => wfFrame frame
  | .fabricNodeDeadline _ _ => true
  | .finalResult _ frame => wfFrame frame
  | .reorderSkipExpiry _ _ => true
  | .podSlotGrant _ => true
  | .podRerun _ _ _ => true
  | .param frame => wfFrame frame
  | .paramSend _ _ => true
  | .zaTick => true
  | .featureRow _ _ _ => true
  | .ensembleItem _ _ _ _ _ _ => true
  | .checkArbitration _ => true
  | .scoringComplete _ => true
  | .programBatch _ _ _ _ _ => true
  | .detectorRun _ => true
  | .bandDerive _ => true
  | .seedDelta frame => wfFrame frame
  | .seedCommit frame => wfFrame frame
  | .seedUpdateSend => true
  | .seedAck frame => wfFrame frame
  | .seedNack frame => wfFrame frame
  | .seedResync => true
  | .seedbankLost => true
  | .restoreReq frame => wfFrame frame
  | .restoreData frame => wfFrame frame
  | .fetchReq _ frame => wfFrame frame
  | .fetchOffer _ frame => wfFrame frame
  | .fetchDecline _ frame => wfFrame frame
  | .fetchChunk _ frame => wfFrame frame
  | .fetchSourceTimeout _ _ => true
  | .modelVerify _ _ => true
  | .modelPlaced _ _ => true
  | .replicaReport frame => wfFrame frame
  | .replicaCollectTimeout _ _ => true
  | .replicaVerdict frame => wfFrame frame
  | .hailSend _ _ _ => true
  | .hail _ frame => wfFrame frame
  | .hailEvaluate => true
  | .rmFailover => true
  | .checkpoint => true
  | .ckptIncomplete _ => true
  | .rebuildPartnerStall => true
  | .rebuildReplay => true
  | .rebuildLive => true
  | .fenceNotice _ => true
  | .faultRaise _ => true
  | .memError _ _ _ errors => wfErrors errors
  | .scrubRead _ _ _ errors => wfErrors errors
  | .arm frame => wfFrame frame
  | .cancel frame => wfFrame frame
  | .frostStop _ => true
  | .now _ _ frame => wfFrame frame
  | .thaw frame => wfFrame frame
  | .ack _ frame => wfFrame frame
  | .scanReq frame => wfFrame frame
  | .scanData _ frame => wfFrame frame
  | .frostRepeat => true
  | .keomonFrame _ => true
  | .loadReq _ => true
  | .loadData _ bytes => decide (bytes.length ≤ 1024)
  | .bootSourceTimeout _ => true
  | .imageVerify => true
  | .bootRoundWait => true
  | .powerUp _ _ => true
  | .powerLoss _ _ _ => true
  | .thermalTrip _ _ => true
  | .svcPinReset _ => true
  | .warmReset => true
  | .watchdogExpiry => true
  | .thermalThrottle _ => true
  | .bulkFrame _ frame => wfFrame frame
  | .linkLost _ => true
  | .zaSlotBoundary => true
  | .ptpSyncInterval _ => true
  | .announceReceiptTimeout _ => true
  | .thawInstant _ => true
  | .captureWindowEnd _ => true
  | .inputWarn _ => true
  | .thermalTripRestart _ _ _ => true

end Sys2Proof
end

