-- ==== Sys2Proof/Safety.lean ====
section
/-!
DEFINITION. What the statements say of a run: that a command completes and what it leaves, that the memories and register maps
are in their canonical forms, and the conditions under which a Husk or a frame is taken.
-/
namespace Sys2Proof.Machine

/-! ### Completion. Each form says what the next state is, so it says too what stays as it was. -/

/-- The command completes and changes the DTU alone. -/
def DtuBecomes (c : Instr) (s : State) (d : Dtu) : Prop := exec c s = .next { s with dtu := d }

/-- The same, with one free value drawn (log entry 1). -/
def DtuDraws (c : Instr) (s : State) (d : Dtu) : Prop := exec c s = .next { s with dtu := d, free := s.free + 1 }

/-- The command completes and changes the ZA40 alone. -/
def ZaBecomes (c : Instr) (s : State) (z : Za) : Prop := exec c s = .next { s with za := z }

/-- The same, with one free value drawn. -/
def ZaDraws (c : Instr) (s : State) (z : Za) : Prop := exec c s = .next { s with za := z, free := s.free + 1 }

/-- The command completes and changes nothing. -/
def LeavesAll (c : Instr) (s : State) : Prop := exec c s = .next s

/-! ### Canonical forms: equal memories and register maps are equal data. -/

/-- The DTU's tag area and register maps are in their canonical forms. -/
def Dtu.canonical (d : Dtu) : Prop :=
  Memory.wf 256 d.host.tag = true ∧ regWf cellReset d.cells.cfg = true ∧ regWf cellReset d.cells.force = true ∧
    regWf trcReset d.trace.cfg = true ∧ regWf digReset d.digests.cfg = true ∧ regWf healthReset d.health.cfg = true

/-- The ZA40's tag area and register map are in their canonical forms. -/
def Za.canonical (z : Za) : Prop := Memory.wf 256 z.tag = true ∧ regWf zaResetWord z.regs = true

/-- Every memory and register map of the state is in its canonical form. -/
def State.canonical (s : State) : Prop := s.dtu.canonical ∧ s.za.canonical

/-! ### Frames and Husks that are taken. -/

/-- The DTU after the header tests have passed a frame: it has been sequenced and its units are owed (R342, R350, R352). -/
def Dtu.taken (d : Dtu) (f : Frame) : Dtu := (d.receive f).1

/-- The ZA40 after a frame has arrived on a link (R342, R350, R352, R362). -/
def Za.taken (z : Za) (p : Nat) (f : Frame) : Za := (z.receive p f).1

/-- A frame that passes the tests of a ZA40's link and its policer (R342, R362, R406). -/
def Za.takes (z : Za) (p : Nat) (f : Frame) : Prop := (z.receive p f).2 = true

/-- A frame that a DTU takes: its Uplink Port runs and the header tests find nothing (R72, R342). -/
abbrev Dtu.takes (d : Dtu) (f : Frame) : Prop := d.portOn = true ∧ d.headerFault f = none

/-- A Frost message that a DTU acts on: it passes the header tests and is well formed (R342, R437). -/
def Dtu.takesFrost (d : Dtu) (f : Frame) : Prop := d.takes f ∧ frostSound f = true

/-- The frame that brings a Husk to a DTU. -/
def Dtu.huskFrame (d : Dtu) (op : Opcode) (h : HuskCmd) : Frame :=
  Sys2Proof.Machine.huskFrame op h (dtuMac d.dieId) d.link.ethertype d.link.version d.link.fabricId (d.link.lseqRx.getD 1 0)

/-- A Husk that a DTU executes: the frame is taken, the sender may command it, the crc holds, the tests of R369
pass, and its tag is fresh (R342, R367, R369, R371, R377). -/
structure Dtu.accepts (d : Dtu) (op : Opcode) (h : HuskCmd) : Prop where
  side : h.side = .dtu
  header : d.takes (d.huskFrame op h)
  sender : (d.taken (d.huskFrame op h)).huskFrom h.req = true
  crc : h.crc = huskCrc op h
  tests : (d.taken (d.huskFrame op h)).huskTests op h = none
  fresh : lookupTag (d.taken (d.huskFrame op h)).cmds.cache h.req op h = .fresh
  plain : huskChained h = false

/-- The ZA40 as a Husk finds it once its frame has passed the header tests; keomon carries no frame. -/
def Za.met (z : Za) (op : Opcode) (h : HuskCmd) : Za :=
  if h.req.keomon then z else (z.receive h.req.link (z.huskFrameOf op h)).1

/-- A Husk that the ZA40 itself executes: running firmware, a frame that passes the header tests, a good crc, the tests of
R369, this unit as its target, a fresh tag and no chain (R342, R367, R369, R371, R377). -/
structure Za.accepts (z : Za) (op : Opcode) (h : HuskCmd) : Prop where
  side : h.side = .za
  powered : z.power.powered = true
  pin : z.power.pinLow = false
  header : h.req.keomon = true ∨ (z.receive h.req.link (z.huskFrameOf op h)).2 = true
  booted : (z.met op h).boot.phase = 4
  crc : h.crc = huskCrc op h
  early : (z.met op h).huskEarly op h = none
  target : (z.met op h).huskDest h = .self
  late_ : (z.met op h).huskLate op h = none
  fresh : lookupTag (z.met op h).cmds.cache h.req op h = .fresh
  plain : huskChained h = false

/-- The state after the ZA40 has met a Husk's frame and answered it at once with a result (R373, R377). -/
def Za.answered (z : Za) (op : Opcode) (h : HuskCmd) (r : Result) : Za := z.replyNow op h 0 0 r true

/-- The state after a long Husk has been answered with ACCEPTED and its handle (R374, R375). -/
def Za.accepted (z : Za) (op : Opcode) (h : HuskCmd) (handle : W) : Za := z.replyNow op h 1 handle (resultOf stOk) true

/-- A long Husk that the ZA40 accepts takes a handle: `z'` holds it (R196, R375). -/
structure Za.begins (z : Za) (op : Opcode) (h : HuskCmd) (z' : Za) (handle : W) : Prop where
  accepts : z.accepts op h
  quota : (z.met op h).handleFree op h = true
  takes : (z.met op h).take op h none false none = some (z', handle)

/-! ### Work of a data frame. -/

/-- The ZA40 holds a work of an entry and a data frame with a property. -/
def Za.worked (z : Za) (e f : Nat) (p : FrameWork → Prop) : Prop := ∃ w ∈ z.works, w.entry = e ∧ w.frame = f ∧ p w

/-- A CONTRIB frame that reaches the Reduction Engine: `z` is the ZA40 that tests it, `die` the sender admitted on the link
(R99, R226, R342). -/
structure Za.bringsContrib (z0 : Za) (p : Nat) (f : Frame) (arrival : Nat) (z : Za) (die : Nat) : Prop where
  passed : z0.takes p f
  cls : f.cls = 3
  msg : f.msg = 1
  len : f.plen.toNat = 544
  now : z = (z0.taken p f).untilNs arrival
  sender : z.fromDie p f = some die
  on : z.reducing = true

/-- Its context is resident and has a work open, and it is no replay. -/
structure Za.contributes (z : Za) (ws : List W) (e : Nat) (w : FrameWork) : Prop where
  entry : z.entryOf (cCtx ws) (cGen ws) = some e
  held : (z.ctx? e).isSome = true
  live : cReplay ws = false
  work : z.work e = some w

/-- It passes the tests of R226 up to the deadline. -/
structure Za.contribTests (z : Za) (ws : List W) (die arrival : Nat) (w : FrameWork) : Prop where
  ofFrame : (word ws 1).toNat = w.frame % 2 ^ 32
  sameDie : cDie ws = die
  rank : w.view.rankOf die = some (cRank ws)
  first : ∀ x ∈ w.contribs, ¬(x.die = die ∧ x.cluster = cCluster ws)
  inTime : arrival ≤ trayDeadlineNs
  open_ : w.closed = false

/-- A PARTIAL or FINAL frame that reaches the Reduction Engine: its record and the work and Pod it belongs to (R212, R222). -/
structure Za.bringsResult (z0 : Za) (p : Nat) (f : Frame) (msg : Nat) (z : Za) (ws : List W) (r : PodRec) (e : Nat)
    (w : FrameWork) (q : Pod) : Prop where
  passed : z0.takes p f
  cls : f.cls = 3
  msg : f.msg.toNat = msg
  len : 64 ≤ f.plen.toNat
  now : z = z0.taken p f
  on : z.reducing = true
  words : ws = f.body.take (f.plen.toNat / 4)
  record : podRecOf ws = some r
  entry : z.entryOf r.ctx r.gen = some e
  work : z.works.find? (fun x => x.entry == e && x.frame % 2 ^ 32 == r.frame) = some w
  pod : w.pod? r.index r.rerun = some q

/-- An item may be walked: its row is valid, the lane is live, the PRE programs of its kind have run (R262, R290). -/
structure Za.walkReady (z : Za) (e score entity tree lane : Nat) (w : FrameWork) (s : Sec) (row : FeatRow) : Prop where
  work : z.scoring e = some w
  held : (z.ctx? e).isSome = true
  sect : (walked (z.secs w)).find? (fun s => s.score == score) = some s
  has : w.rows.find? (fun r => r.tile == s.tile && r.entity == entity) = some row
  valid : row.valid = true
  inside : tree < ensTrees s.words
  live : z.laneLive lane = true
  pre : w.preDoneOn (z.secs w) s.tile entity = true
  on : z.enginesRun = true

/-- A batch may run on a tile: all its rows are written, it has not run, the tile is live and holds the weights (R289 to R292). -/
structure Za.batchReady (z : Za) (e score j tile : Nat) (w : FrameWork) (s : Sec) : Prop where
  work : z.work e = some w
  held : (z.ctx? e).isSome = true
  sect : (z.secs w).find? (fun s => s.score == score && s.kind == 3 && s.direct) = some s
  some_ : ∃ i, i < (w.view.entities s.tile).length ∧ i / 64 = j
  rows : (w.rows.filter (fun r => r.tile == s.tile && decide (r.entity / 64 = j))).length =
    ((List.range (w.view.entities s.tile).length).filter (fun i => decide (i / 64 = j))).length
  open_ : w.scored = false
  holds : z.tileHolds e s tile = true
  quiet : z.injections = []
  on : z.enginesRun = true

/-! ### Frames of the PEER class. -/

/-- A frame of the model exchange that reaches its slot or server; `z` is the ZA40 then (R342, R364). -/
structure Za.bringsFetch (z0 : Za) (p : Nat) (f : Frame) (msg : Nat) (z : Za) : Prop where
  passed : z0.takes p f
  cls : f.cls = 7
  msg : f.msg.toNat = msg
  form : fetchForm f = true
  model : wf f.body 0 27 24 = 1
  now : z = z0.taken p f
  on : z.running = true

/-- A REPLICA record that is tested: its context, its slot holds the version it names (R308, R309). -/
structure Za.bringsReplica (z0 : Za) (f : Frame) (kind : Nat) (z : Za) (ws : List W) (e : Nat) (m : ModelSlot) (a : ModelArea) :
    Prop where
  passed : z0.takes (frameLink f) f
  cls : f.cls = 7
  msg : f.msg = 0x10
  len : f.plen.toNat = 32
  now : z = z0.taken (frameLink f) f
  words : ws = f.body.take 8
  form : replicaForm ws kind = true
  entry : z.entryOf (wf ws 0 15 0) (wf ws 1 31 24) = some e
  slot : z.slot? e (wf ws 0 23 20) = some m
  cur : m.cur = some a
  id : a.modelId = word ws 2
  version : a.version = wf ws 3 31 16
  on : z.enginesRun = true

/-- A Seedbank message that is sound (R331). -/
structure Za.bringsSeed (z0 : Za) (f : Frame) (kind : Nat) (z : Za) (ws : List W) : Prop where
  passed : z0.takes (frameLink f) f
  cls : f.cls = 7
  msg : f.msg = 0x20
  len : 8 ≤ f.plen.toNat / 4
  now : z = z0.taken (frameLink f) f
  words : ws = f.body.take (f.plen.toNat / 4)
  form : wf ws 0 31 28 = 1
  crc : word ws 7 = crcWords (ws.take 7 ++ ws.drop 8)
  kind : sKind ws = kind
  on : z.running = true

/-! ### The unit a command acts on. -/

/-- The one unit a command acts on; none for the two rows that concern both: CTX_MASK_WRITE, which the tray checks and the DTU
takes (R208), and DONE_HANDLE, which either unit posts (R374). -/
def sideOf : Instr → Option Side
  | .ident h => some h.side
  | .status h => some h.side
  | .handleQuery h => some h.side
  | .handleCancel h => some h.side
  | .regRead h => some h.side
  | .regWrite h => some h.side
  | .tagWrite h => some h.side
  | .softReset h => some h.side
  | .frameReset h => some h.side
  | .cellSample h => some h.side
  | .linkResetCmd h => some h.side
  | .retainReplay h => some h.side
  | .margin h => some h.side
  | .traceFlush h => some h.side
  | .traceSave h => some h.side
  | .traceRestore h => some h.side
  | .timeResync h => some h.side
  | .timeStep h => some h.side
  | .ctxAdmit h => some h.side
  | .ctxTeardown h => some h.side
  | .ctxQuota h => some h.side
  | .membership h => some h.side
  | .podPlan h => some h.side
  | .featPlan h => some h.side
  | .detPlan h => some h.side
  | .detReset h => some h.side
  | .syncAlloc h => some h.side
  | .syncFree h => some h.side
  | .syncSet h => some h.side
  | .syncAdd h => some h.side
  | .syncWait h => some h.side
  | .syncBind h => some h.side
  | .syncRead h => some h.side
  | .modelLoad h => some h.side
  | .modelQuery h => some h.side
  | .featWrite h => some h.side
  | .weightSwap h => some h.side
  | .digestLoad h => some h.side
  | .resultHistory h => some h.side
  | .subscribe h => some h.side
  | .seedPair h => some h.side
  | .frostArm h => some h.side
  | .frostCancel h => some h.side
  | .frostNow h => some h.side
  | .frostThaw h => some h.side
  | .frostQuery h => some h.side
  | .scanOut h => some h.side
  | .loopTest h => some h.side
  | .selfTest h => some h.side
  | .faultInject h => some h.side
  | .fence h => some h.side
  | .unfence h => some h.side
  | .readmit h => some h.side
  | .liveClaim h => some h.side
  | .liveQuery h => some h.side
  | .rackSet h => some h.side
  | .ckptPut h => some h.side
  | .ckptGet h => some h.side
  | .rebuild h => some h.side
  | .faultLog h => some h.side
  | .lullHold h => some h.side
  | .lullRelease h => some h.side
  | .zaLull h => some h.side
  | .zaWake h => some h.side
  | .zaReset h => some h.side
  | .pwrLimit h => some h.side
  | .chainRelease _ => some .za
  | .doneHandle _ => none
  | .relayedCompletion _ _ => some .za
  | .targetTimeout _ => some .za
  | .dtuLongQueueRelease _ => some .za
  | .featPlanStagingExpiry _ _ => some .za
  | .hostPortWrite _ _ => some .dtu
  | .tagAreaWrite _ _ => some .dtu
  | .dtuTagSeal _ => some .dtu
  | .dtuTrcHostLo _ => some .dtu
  | .irqStatusClear _ _ => some .dtu
  | .timeSrcSelect _ => some .dtu
  | .compat5Select _ => some .dtu
  | .ulLatWrite _ _ => some .dtu
  | .cellCfgWrite _ _ => some .dtu
  | .ctxMaskWrite _ _ => none
  | .clusterFenceWrite _ _ => some .dtu
  | .dtuCtxFrontWrite _ _ _ _ => some .dtu
  | .traceEnable _ => some .dtu
  | .marginBudgetWrite _ => some .dtu
  | .trigArm _ _ _ => some .dtu
  | .markArm _ _ _ => some .za
  | .gclCommit _ _ => some .za
  | .shaperChange _ _ _ _ => some .za
  | .portConfigWrite _ _ => some .za
  | .ulRateWrite _ => some .dtu
  | .eccStatusRead => some .za
  | .hostPowerOnReset => some .dtu
  | .pinReset => some .dtu
  | .ulPathReset => some .dtu
  | .faultIntakeReset => some .dtu
  | .obsDomainReset _ _ => some .dtu
  | .lullRequest _ => some .dtu
  | .lullExit => some .dtu
  | .marginAck _ => some .dtu
  | .marginAckRelease => some .dtu
  | .marginStall => some .dtu
  | .faultPortAccept _ => some .dtu
  | .faultDropPulse => some .dtu
  | .probeEvent _ => some .dtu
  | .tapSample _ _ => some .dtu
  | .digestBeat _ _ _ => some .dtu
  | .digestPendingTimeout _ _ _ => some .dtu
  | .digestPacketSend => some .dtu
  | .obsClkLost _ => some .dtu
  | .timeClkTolerance => some .dtu
  | .timePortSlotPulse => some .dtu
  | .timePortWord _ _ _ _ => some .dtu
  | .timeHoldoverEntry side => some side
  | .ptpMessage _ _ => some .za
  | .parentChange _ _ _ => some .za
  | .timeSync _ _ => some .dtu
  | .timeSyncSend _ => some .za
  | .timeEcho _ _ _ => some .za
  | .stepApply side => some side
  | .triggerFire _ => some .dtu
  | .timeMark _ => some .za
  | .dtuTick _ => some .dtu
  | .clusterClose _ => some .dtu
  | .closureLimit _ => some .dtu
  | .contribExpiry => some .dtu
  | .slotBoundary => some .dtu
  | .healthSample _ _ _ => some .dtu
  | .faultRecordSend => some .dtu
  | .traceCapture => some .dtu
  | .traceBlockClose => some .dtu
  | .compressorFullStop => some .dtu
  | .compressorResume => some .dtu
  | .traceBlockSend => some .dtu
  | .ulCreditReturn _ => some .dtu
  | .ulCreditMinTimeout _ => some .dtu
  | .ulRxPacket _ _ _ => some .dtu
  | .hello side _ _ => some side
  | .helloSend => some .dtu
  | .admitMsg _ => some .dtu
  | .dtuLinkStateChange _ => some .za
  | .credit side _ _ => some side
  | .creditSend side _ _ => some side
  | .echo side _ _ _ => some side
  | .echoReply side _ _ _ => some side
  | .linkReset side _ _ => some side
  | .frameTransmit side _ => some side
  | .forwardFillChange _ => some .za
  | .contrib _ _ _ => some .za
  | .trayDeadline _ => some .za
  | .partialResult _ _ _ => some .za
  | .fabricNodeDeadline _ _ => some .za
  | .finalResult _ _ => some .za
  | .reorderSkipExpiry _ _ => some .za
  | .podSlotGrant _ => some .za
  | .podRerun _ _ _ => some .za
  | .param _ => some .dtu
  | .paramSend _ _ => some .za
  | .zaTick => some .za
  | .featureRow _ _ _ => some .za
  | .ensembleItem _ _ _ _ _ _ => some .za
  | .checkArbitration _ => some .za
  | .scoringComplete _ => some .za
  | .programBatch _ _ _ _ _ => some .za
  | .detectorRun _ => some .za
  | .bandDerive _ => some .za
  | .seedDelta _ => some .za
  | .seedCommit _ => some .za
  | .seedUpdateSend => some .za
  | .seedAck _ => some .za
  | .seedNack _ => some .za
  | .seedResync => some .za
  | .seedbankLost => some .za
  | .restoreReq _ => some .za
  | .restoreData _ => some .za
  | .fetchReq _ _ => some .za
  | .fetchOffer _ _ => some .za
  | .fetchDecline _ _ => some .za
  | .fetchChunk _ _ => some .za
  | .fetchSourceTimeout _ _ => some .za
  | .modelVerify _ _ => some .za
  | .modelPlaced _ _ => some .za
  | .replicaReport _ => some .za
  | .replicaCollectTimeout _ _ => some .za
  | .replicaVerdict _ => some .za
  | .hailSend side _ _ => some side
  | .hail _ _ => some .za
  | .hailEvaluate => some .za
  | .rmFailover => some .za
  | .checkpoint => some .za
  | .ckptIncomplete _ => some .za
  | .rebuildPartnerStall => some .za
  | .rebuildReplay => some .za
  | .rebuildLive => some .za
  | .fenceNotice _ => some .za
  | .faultRaise _ => some .za
  | .memError _ _ _ _ => some .za
  | .scrubRead _ _ _ _ => some .za
  | .arm _ => some .dtu
  | .cancel _ => some .dtu
  | .frostStop side => some side
  | .now side _ _ => some side
  | .thaw _ => some .dtu
  | .ack _ _ => some .za
  | .scanReq _ => some .dtu
  | .scanData _ _ => some .za
  | .frostRepeat => some .za
  | .keomonFrame _ => some .za
  | .loadReq _ => some .za
  | .loadData _ _ => some .za
  | .bootSourceTimeout _ => some .za
  | .imageVerify => some .za
  | .bootRoundWait => some .za
  | .powerUp _ _ => some .za
  | .powerLoss _ _ _ => some .za
  | .thermalTrip _ _ => some .za
  | .svcPinReset _ => some .za
  | .warmReset => some .za
  | .watchdogExpiry => some .za
  | .thermalThrottle _ => some .za
  | .bulkFrame _ _ => some .za
  | .linkLost _ => some .za
  | .zaSlotBoundary => some .za
  | .ptpSyncInterval _ => some .za
  | .announceReceiptTimeout _ => some .za
  | .thawInstant side => some side
  | .captureWindowEnd side => some side
  | .inputWarn _ => some .za
  | .thermalTripRestart _ _ _ => some .za

end Sys2Proof.Machine
end

