-- ==== Sys2Proof/Certificates/Slice0/Obligations.lean ====
section
/-!
DEFINITION. The statements about this model that the provers are to prove.
-/

open Sys2Proof Sys2Proof.Machine

/-! ### The machine as a whole. -/

/-- The command at the front of the queue runs on the rest; with none waiting both units see one clock edge, which is the
model's own choice (log entry 7). -/
def Obligations.StepRunsFrontCommand : Prop :=
  (∀ (s : State) (c : Instr) (rest : List Instr), s.pending = c :: rest → step s = exec c { s with pending := rest })
  ∧ ∀ s : State, s.pending = [] → step s = .next { s with dtu := s.dtu.edge, za := s.za.edge }

/-- Every command completes in every state: a fault of Keora is a record, no stop of the machine. -/
def Obligations.EveryCommandCompletes : Prop :=
  ∀ (c : Instr) (s : State), ∃ t, exec c s = .next t

/-- A command of one unit leaves the other as it was, and no command touches the queue. -/
def Obligations.CommandsKeepToTheirUnit : Prop :=
  ∀ (c : Instr) (s t : State), exec c s = .next t →
    (sideOf c = some .dtu → t.za = s.za) ∧ (sideOf c = some .za → t.dtu = s.dtu) ∧ t.pending = s.pending

/-! ### What the DTU measures. -/

/-- A strobe or tap sample enters its front once, on the side of the tick marker its domain has seen; in reset it is ignored;
each sample of a VALUE cell enters its sum, minimum and maximum once. -/
def Obligations.ProbeSamplesCountOnce : Prop :=
  (∀ (s : State) (k : Fin 4096), k.val / 64 < s.dtu.build.nClusters →
    s.dtu.samples (s.dtu.build.strobeDomain k.val) = true →
    let c := s.dtu.cells
    let dom := s.dtu.build.strobeDomain k.val
    let fr := aGetD c.fronts (.strobe k.val) .empty
    let one (r : FrontRec) : FrontRec := { r with events := r.events + 1 }
    let fr' : Front := if c.markers.contains dom then { fr with newer := one fr.newer } else { fr with older := one fr.older }
    DtuBecomes (.probeEvent k) s { s.dtu with cells := { c with
      fronts := aPut c.fronts (.strobe k.val) fr', stopped := c.stopped.filter (· != dom) } })
  ∧ (∀ (s : State) (t : Fin 64) (x : BitVec 16), s.dtu.samples (s.dtu.build.tapDomain t.val) = true →
    let c := s.dtu.cells
    let dom := s.dtu.build.tapDomain t.val
    let fr := aGetD c.fronts (.tap t.val) .empty
    let one (r : FrontRec) : FrontRec := { r with samples := r.samples ++ [x] }
    let fr' : Front := if c.markers.contains dom then { fr with newer := one fr.newer } else { fr with older := one fr.older }
    DtuBecomes (.tapSample t x) s { s.dtu with cells := { c with
      fronts := aPut c.fronts (.tap t.val) fr', stopped := c.stopped.filter (· != dom) } })
  ∧ (∀ (s : State) (k : Fin 4096), s.dtu.cells.held.contains (s.dtu.build.strobeDomain k.val) = true →
    LeavesAll (.probeEvent k) s)
  ∧ (∀ (s : State) (t : Fin 64) (x : BitVec 16), s.dtu.cells.held.contains (s.dtu.build.tapDomain t.val) = true →
    LeavesAll (.tapSample t x) s)
  ∧ ∀ (v : CellVal) (w : W) (xs : List (BitVec 16)) (x : BitVec 16) (n : Nat), cellMode w = 4 →
    v.addRec w { events := n, samples := xs ++ [x] } =
      (v.addRec w { events := n, samples := xs }).addSample (cellSigned w) (cellShift w) x

/-- Reading a front late loses nothing: two records merged one after the other leave a cell as their sum does, in every mode and
past saturation. -/
def Obligations.MergedRecordsAddUp : Prop :=
  ∀ (v : CellVal) (w : W) (a b : FrontRec),
    (v.addRec w a).addRec w b = v.addRec w { events := a.events + b.events, samples := a.samples ++ b.samples }

/-- What the DTU does when an observed clock stops, when an observed domain is reset or released, and when its own time clock
is out of tolerance while it is not locked. -/
def Obligations.ClockAndDomainLosses : Prop :=
  (∀ (s : State) (d : Fin 16) (cl : Closing), d.val < s.dtu.build.nObs → s.dtu.cells.held.contains d.val = false →
    s.dtu.cells.closing = some cl → s.dtu.cells.markers.contains d.val = false →
    ∃ x, DtuBecomes (.obsClkLost d) s x ∧ x.cells.stopped = addDoms s.dtu.cells.stopped [d.val] ∧
      x.cells.closing = some { cl with domIncomplete := addDoms cl.domIncomplete [d.val], flagged := true } ∧
      d.val ∈ x.cells.domIncomplete ∧ x.cells.values = s.dtu.cells.values ∧ x.link = s.dtu.link ∧
      x.counters = bump s.dtu.counters .incompleteFrames (b2n !cl.flagged) ∧ fld x.host.irqStatus 5 5 = 1)
  ∧ (∀ (s : State) (d : Fin 16), d.val < s.dtu.build.nObs → s.dtu.cells.held.contains d.val = false →
    (s.dtu.cells.closing = none ∨ s.dtu.cells.markers.contains d.val = true) →
    let c := s.dtu.cells
    DtuBecomes (.obsClkLost d) s { s.dtu with
      cells := { c with stopped := addDoms c.stopped [d.val], domIncomplete := addDoms c.domIncomplete [d.val] }
      host := { s.dtu.host with
        clkLost := s.dtu.host.clkLost ||| BitVec.ofNat 16 (2 ^ d.val), irqStatus := setFld s.dtu.host.irqStatus 5 5 1 } })
  ∧ (∀ (s : State) (d : Fin 16), d.val < s.dtu.build.nObs → ∃ x, DtuBecomes (.obsDomainReset d true) s x ∧
      x.cells.held = addDoms s.dtu.cells.held [d.val] ∧ x.cells.domIncomplete = addDoms s.dtu.cells.domIncomplete [d.val] ∧
      x.cells.fronts = s.dtu.cells.fronts.filter (fun p => s.dtu.build.sourceDomain p.1 != d.val) ∧
      x.cells.values = s.dtu.cells.values ∧ x.host = s.dtu.host ∧ x.link = s.dtu.link ∧ x.time = s.dtu.time)
  ∧ (∀ (s : State) (d : Fin 16), d.val < s.dtu.build.nObs →
    let c := s.dtu.cells
    DtuBecomes (.obsDomainReset d false) s { s.dtu with cells := { c with
      domIncomplete := addDoms c.domIncomplete [d.val], held := c.held.filter (· != d.val) } })
  ∧ (∀ (s : State), s.dtu.time.state ≠ .locked → DtuBecomes .timeClkTolerance s { s.dtu with
      host := { s.dtu.host with irqStatus := setFld s.dtu.host.irqStatus 4 4 1 }, time := { s.dtu.time with run := 0 } })
  ∧ ∀ (s : State), s.dtu.time.state = .locked → ∃ x, DtuBecomes .timeClkTolerance s x ∧
      x.time.state = .holdover ∧ fld x.host.irqStatus 4 4 = 1 ∧ x.cells = s.dtu.cells ∧ x.link = s.dtu.link

/-- Cell and cluster configuration is checked as it is written and kept apart from what is in force; a rejected word changes
nothing but the status it earned. -/
def Obligations.ConfigurationWritesAreChecked : Prop :=
  (∀ (s : State) (n : Fin 4096) (w : W), n.val / 64 < s.dtu.build.nClusters → cellCfgStatus w = stOk →
    DtuBecomes (.cellCfgWrite n w) s { s.dtu with
      cells := { s.dtu.cells with cfg := regSet cellReset s.dtu.cells.cfg (0x10000 + 4 * n.val) w }
      cmds := { s.dtu.cmds with status := stOk } })
  ∧ (∀ (s : State) (n : Fin 4096) (w : W), n.val / 64 < s.dtu.build.nClusters → cellCfgStatus w ≠ stOk →
    DtuBecomes (.cellCfgWrite n w) s { s.dtu with cmds := { s.dtu.cmds with status := cellCfgStatus w } })
  ∧ (∀ (s : State) (n : Fin 4096) (w : W), s.dtu.build.nClusters ≤ n.val / 64 →
    DtuBecomes (.cellCfgWrite n w) s { s.dtu with cmds := { s.dtu.cmds with status := stBadParam } })
  ∧ (∀ (s : State) (c : Fin 64) (f : Bool), c.val < s.dtu.build.nClusters →
    let old := cluWord s.dtu.cells.cfg c.val
    DtuBecomes (.clusterFenceWrite c f) s { s.dtu with
      cells := { s.dtu.cells with
        cfg := regSet cellReset s.dtu.cells.cfg (0x14000 + 4 * c.val) (setFld old 8 8 (b2n f) &&& 0x1FF) }
      cmds := { s.dtu.cmds with status := stOk } })
  ∧ ∀ (s : State) (c : Fin 64) (f : Bool), s.dtu.build.nClusters ≤ c.val →
    DtuBecomes (.clusterFenceWrite c f) s { s.dtu with cmds := { s.dtu.cmds with status := stBadParam } }

/-- Context masks are checked by the tray before a DTU takes them, and context fronts lie at least two frames ahead. -/
def Obligations.ContextWritesReachTheDtu : Prop :=
  ((∀ (s : State) (c : Fin 64) (m : BitVec 8), s.za.die? s.dtu.dieId = none → c.val < s.dtu.build.nClusters →
    fld (setFld (cluWord s.dtu.cells.cfg c.val) 7 0 m.toNat) 31 13 = 0 →
    let w := setFld (cluWord s.dtu.cells.cfg c.val) 7 0 m.toNat
    DtuBecomes (.ctxMaskWrite c m) s { s.dtu with
      cells := { s.dtu.cells with cfg := regSet cellReset s.dtu.cells.cfg (0x14000 + 4 * c.val) (w &&& 0x1FF) }
      cmds := { s.dtu.cmds with status := stOk } })
  ∧ (∀ (s : State) (c : Fin 64) (m : BitVec 8) (e : DieEntry), s.za.die? s.dtu.dieId = some e → e.admitted = true →
    s.za.maskConflict e e.cfg c.val m.toNat = none → c.val < s.dtu.build.nClusters →
    fld (setFld (cluWord s.dtu.cells.cfg c.val) 7 0 m.toNat) 31 13 = 0 →
    let w := setFld (cluWord s.dtu.cells.cfg c.val) 7 0 m.toNat
    ∃ t, exec (.ctxMaskWrite c m) s = .next t ∧ t.pending = s.pending ∧
      t.dtu.cells.cfg = regSet cellReset s.dtu.cells.cfg (0x14000 + 4 * c.val) (w &&& 0x1FF) ∧
      t.dtu.cells.force = s.dtu.cells.force ∧ t.dtu.host = s.dtu.host ∧ t.za.ctxs = s.za.ctxs ∧ t.za.cmds.regStatus = stOk)
  ∧ ∀ (s : State) (c : Fin 64) (m : BitVec 8) (e : DieEntry) (x : Nat), s.za.die? s.dtu.dieId = some e → e.admitted = true →
    s.za.maskConflict e e.cfg c.val m.toNat = some x →
    ∃ z, ZaBecomes (.ctxMaskWrite c m) s z ∧ z.cmds.regStatus = stCellmapConflict ∧ z.dies = s.za.dies)
  ∧ ((∀ (s : State) (k : Fin 8) (w0 w1 f : W), fld w0 30 24 = 0 → fld w1 23 20 = 0 → f ≠ 0 →
    s.dtu.frameNow < extendFrame s.dtu.frameNow f.toNat →
    ((s.dtu.cells.slots.getD k.val .initial).front = 0 ∨ (s.dtu.cells.slots.getD k.val .initial).front = f) →
    let c := s.dtu.cells.slots.getD k.val .initial
    let slot : CtxSlot := { c with pending := s.dtu.fixSlot k.val ⟨w0, w1⟩, front := f }
    DtuBecomes (.dtuCtxFrontWrite k w0 w1 f) s { s.dtu with
      cells := { s.dtu.cells with slots := s.dtu.cells.slots.set k.val slot }
      cmds := { s.dtu.cmds with status := stOk } })
  ∧ (∀ (s : State) (k : Fin 8) (w0 w1 f : W), fld w0 30 24 = 0 → fld w1 23 20 = 0 → f ≠ 0 →
    extendFrame s.dtu.frameNow f.toNat ≤ s.dtu.frameNow →
    DtuBecomes (.dtuCtxFrontWrite k w0 w1 f) s { s.dtu with cmds := { s.dtu.cmds with status := stBadParam } })
  ∧ ∀ (s : State) (k : Fin 8) (w0 w1 f : W), fld w0 30 24 = 0 → fld w1 23 20 = 0 → f ≠ 0 →
    (s.dtu.cells.slots.getD k.val .initial).front ≠ 0 → (s.dtu.cells.slots.getD k.val .initial).front ≠ f →
    DtuBecomes (.dtuCtxFrontWrite k w0 w1 f) s { s.dtu with cmds := { s.dtu.cmds with status := stBadParam } })

/-! ### Ticks, closure and time in the DTU. -/

/-- A tick of a ticking DTU begins the next frame and starts to close the ended one under the configuration and slot table it
was made under; a backward step issues no tick and the FTC goes back by whole frames. -/
def Obligations.TicksFollowTheFrameClock : Prop :=
  ((∀ (s : State) (seen : BitVec 16), s.dtu.time.ticking = true → s.dtu.time.stepDue = none → s.dtu.runs = true →
    s.dtu.cells.closing = none → s.dtu.cmds.loop = none →
    ∃ d cl, DtuBecomes (.dtuTick seen) s d ∧ d.time.frame = s.dtu.time.nextFrame ∧
      d.time.nextFrame = s.dtu.time.nextFrame + 1 ∧ d.time.prevFrame = s.dtu.time.frame ∧
      d.time.begun = s.dtu.time.begun + 1 ∧ d.cells.cfg = s.dtu.cells.cfg ∧ d.cells.force = s.dtu.cells.cfg ∧
      d.cells.closing = some cl ∧ cl.frame = s.dtu.time.frame ∧ cl.next = 0 ∧ cl.cfg = s.dtu.cells.force ∧
      cl.cfgSeq = s.dtu.cells.cfgSeq ∧ cl.slots = s.dtu.cells.latched ∧ cl.cells = s.dtu.cells.values ∧
      d.cells.values = s.dtu.cells.renew ∧ d.cells.retention = s.dtu.cells.retention ∧
      d.hailDue = some s.dtu.time.nextFrame ∧ d.host.tag = s.dtu.host.tag)
  ∧ (∀ (s : State) (seen : BitVec 16), s.dtu.time.ticking = true → s.dtu.time.stepDue = none → s.dtu.power.por = false →
    s.dtu.power.lull ≠ 0 → ∃ d, DtuBecomes (.dtuTick seen) s d ∧ d.time.frame = s.dtu.time.nextFrame ∧
      d.cells = { s.dtu.cells with closing := none } ∧
      d.link = s.dtu.link ∧ d.hailDue = none ∧ d.power.clearAtExit = true)
  ∧ ∀ (s : State) (seen : BitVec 16), s.dtu.time.ticking = false → LeavesAll (.dtuTick seen) s)
  ∧ ((∀ (s : State) (seen : BitVec 16) (a : ArmedStep), s.dtu.time.ticking = true → s.dtu.time.armed = some a →
    a.frame = s.dtu.time.nextFrame → stepWhole a.s < 0 → s.dtu.power.por = false →
    ∃ d, DtuBecomes (.dtuTick seen) s d ∧ d.time.frame = s.dtu.time.frame ∧ d.time.nextFrame = a.frame ∧
      d.time.ftc = ((a.frame : Int) + stepWhole a.s).toNat * 2 ^ 20 * oneNs ∧ d.time.begun = s.dtu.time.begun ∧
      d.time.armed = none ∧ d.cells = s.dtu.cells)
  ∧ ∀ (s : State) (a : ArmedStep), s.dtu.time.ticking = true → s.dtu.time.armed = some a →
    a.frame = s.dtu.time.nextFrame → stepWhole a.s < 0 →
    ∃ d, DtuBecomes (.stepApply .dtu) s d ∧ d.time.frame = s.dtu.time.frame ∧ d.time.nextFrame = a.frame ∧
      d.time.ftc = ((a.frame : Int) + stepWhole a.s).toNat * 2 ^ 20 * oneNs ∧ d.time.armed = none ∧ d.cells = s.dtu.cells)

/-- A forward step by q whole frames at the tick of F makes that tick end F - 1 and begin F + q. -/
def Obligations.ForwardStepSkipsFrames : Prop :=
  ∀ (s : State) (seen : BitVec 16) (a : ArmedStep), s.dtu.time.ticking = true → s.dtu.time.armed = some a →
    a.frame = s.dtu.time.nextFrame → s.dtu.time.frame + 1 = s.dtu.time.nextFrame → 0 < stepWhole a.s →
    s.dtu.power.por = false → ∃ d, DtuBecomes (.dtuTick seen) s d ∧ d.time.frame = a.frame + (stepWhole a.s).toNat ∧
      d.time.prevFrame + 1 = a.frame ∧ d.time.ftc = (a.frame + (stepWhole a.s).toNat) * 2 ^ 20 * oneNs ∧
      d.time.begun = s.dtu.time.begun + 1 ∧ d.time.armed = none ∧ d.time.residual = stepResidual a.s * 2 ^ 48

/-- Clusters close in ascending order, each once its domains have shown the marker or at the limit of slot 2, and each closing
queues one sealed contribution for every slot it serves; any other CLUSTER_CLOSE or CLOSURE_LIMIT changes nothing. A fenced cluster
sends zeros. -/
def Obligations.ClustersCloseInOrder : Prop :=
  ((∀ (s : State) (cl : Closing) (c : Fin 64), s.dtu.cells.closing = some cl → cl.next = c.val →
    c.val < s.dtu.build.nClusters → s.dtu.unseen cl.cfg c.val = [] → s.dtu.runs = true →
    ∃ d q, DtuBecomes (.clusterClose c) s d ∧ d.cells.sendQueue = s.dtu.cells.sendQueue ++ q ∧
      (∀ x ∈ q, x.work = s.dtu.time.begun ∧ x.replay = false) ∧
      (c.val + 1 < s.dtu.build.nClusters → ∃ cl', d.cells.closing = some cl' ∧ cl'.next = c.val + 1 ∧
        cl'.frame = cl.frame ∧ cl'.cfg = cl.cfg ∧ cl'.slots = cl.slots) ∧
      (c.val + 1 = s.dtu.build.nClusters → d.cells.closing = none) ∧
      d.cells.retention.any (fun r => r.frame == cl.frame) = true ∧ d.cells.force = s.dtu.cells.force ∧
      d.time = s.dtu.time ∧ d.host = s.dtu.host)
  ∧ (∀ (s : State) (cl : Closing) (c : Fin 64), s.dtu.cells.closing = some cl → cl.next = c.val →
    c.val < s.dtu.build.nClusters → s.dtu.unseen cl.cfg c.val = [] → s.dtu.runs = true → s.dtu.injections = [] →
    let serves (k : Nat) : Bool := (cl.slots.getD k .empty).valid && bit (cluWord cl.cfg c.val) k && s.dtu.link.admitted
    ∃ d q, DtuBecomes (.clusterClose c) s d ∧ d.cells.sendQueue = s.dtu.cells.sendQueue ++ q ∧
      q.map (fun x => (x.ctx, x.gen)) =
        ((List.range 8).filter serves).map (fun k => ((cl.slots.getD k .empty).ctx, (cl.slots.getD k .empty).gen)) ∧
      ∀ x ∈ q, word x.words 1 = w32 cl.frame ∧ word x.words 7 = crcWords (x.words.take 7 ++ x.words.drop 8))
  ∧ (∀ (s : State) (cl : Closing) (c : Fin 64), s.dtu.cells.closing = some cl → cl.next = c.val →
    c.val < s.dtu.build.nClusters → s.dtu.runs = true →
    ∃ d q, DtuBecomes (.closureLimit c) s d ∧ d.cells.sendQueue = s.dtu.cells.sendQueue ++ q ∧
      cl.begunAt + 32768 ≤ d.nowNs ∧ (∀ x ∈ s.dtu.unseen cl.cfg c.val, x ∈ d.cells.domIncomplete) ∧
      (c.val + 1 < s.dtu.build.nClusters → ∃ cl', d.cells.closing = some cl' ∧ cl'.next = c.val + 1 ∧
        cl'.frame = cl.frame ∧ (∀ x ∈ s.dtu.unseen cl.cfg c.val, x ∈ cl'.domIncomplete)) ∧
      (c.val + 1 = s.dtu.build.nClusters → d.cells.closing = none) ∧ d.host = s.dtu.host)
  ∧ (∀ (s : State) (c : Fin 64), s.dtu.cells.closing = none ∨ s.dtu.runs = false ∨ s.dtu.build.nClusters ≤ c.val →
    LeavesAll (.clusterClose c) s ∧ LeavesAll (.closureLimit c) s)
  ∧ (∀ (s : State) (cl : Closing) (c : Fin 64), s.dtu.cells.closing = some cl → cl.next ≠ c.val →
    LeavesAll (.clusterClose c) s ∧ LeavesAll (.closureLimit c) s)
  ∧ ∀ (s : State) (cl : Closing) (c : Fin 64), s.dtu.cells.closing = some cl → s.dtu.unseen cl.cfg c.val ≠ [] →
    LeavesAll (.clusterClose c) s)
  ∧ (∀ (s t : State) (cl : Closing) (c : Fin 64), s.dtu.cells.closing = some cl → cl.next = c.val →
    bit (cluWord cl.cfg c.val) 8 = true → s.dtu.unseen cl.cfg c.val = [] → c.val < s.dtu.build.nClusters →
    s.dtu.runs = true → exec (.clusterClose c) s = .next t →
    ∃ q, t.dtu.cells.sendQueue = s.dtu.cells.sendQueue ++ q ∧
      ∀ x ∈ q, x.words.drop 8 = List.replicate 128 0 ∧ word x.words 5 = 0 ∧ word x.words 6 = 0 ∧ wf x.words 2 30 30 = 1)

/-- A contribution still queued when its work frame has ended leaves the queue, is counted, and stays in the retention store;
replays and the running frame's contributions stay queued. The work frame of a contribution is the frame that runs as its cluster
closes, in order or at the limit. -/
def Obligations.LateContributionsAreNeverSent : Prop :=
  (∀ (s : State), ∃ d, DtuBecomes .contribExpiry s d ∧
    d.cells.sendQueue = s.dtu.cells.sendQueue.filter (fun q => q.replay || decide (s.dtu.time.begun ≤ q.work)) ∧
    d.cells.retention = s.dtu.cells.retention ∧
    d.counters = bump s.dtu.counters .lateContrib
      (s.dtu.cells.sendQueue.countP (fun q => !q.replay && decide (q.work < s.dtu.time.begun))) ∧
    d.link = s.dtu.link ∧ d.host = s.dtu.host ∧ d.time = s.dtu.time)
  ∧ ∀ (s : State) (cl : Closing) (c : Fin 64), s.dtu.cells.closing = some cl → cl.next = c.val →
    c.val < s.dtu.build.nClusters → s.dtu.runs = true →
    (s.dtu.unseen cl.cfg c.val = [] → ∃ d q, DtuBecomes (.clusterClose c) s d ∧
      d.cells.sendQueue = s.dtu.cells.sendQueue ++ q ∧ (∀ x ∈ q, x.work = s.dtu.time.begun) ∧ d.link = s.dtu.link) ∧
    ∃ d q, DtuBecomes (.closureLimit c) s d ∧
      d.cells.sendQueue = s.dtu.cells.sendQueue ++ q ∧ (∀ x ∈ q, x.work = s.dtu.time.begun) ∧ d.link = s.dtu.link

/-- The time port and TIME_SYNC discipline the DTU's clock: each gives one sample, and three intervals without one end LOCKED. -/
def Obligations.TimeSourcesDisciplineTheDtu : Prop :=
  (∀ (s : State) (b0 b1 b2 b3 : W), s.dtu.host.timeSrc = 0 → s.dtu.power.por = false →
    DtuBecomes (.timePortWord b0 b1 b2 b3) s { s.dtu with port := { s.dtu.port with
      word := some (2 ^ 32 * b0.toNat + b1.toNat, b2.toNat, b3)
      extraWords := s.dtu.port.extraWords + b2n s.dtu.port.word.isSome } })
  ∧ (∀ (s : State) (b0 b1 b2 b3 : W), s.dtu.host.timeSrc = 1 → LeavesAll (.timePortWord b0 b1 b2 b3) s)
  ∧ (∀ (s : State), s.dtu.host.timeSrc = 0 → s.dtu.power.por = false → s.dtu.port.word = none → ∃ d, DtuDraws .timePortSlotPulse s d ∧
      d.port.uncorrected = s.dtu.port.uncorrected + 1 ∧ d.time.ftc = s.dtu.time.ftc ∧ d.time.rate = s.dtu.time.rate ∧
      d.time.run = 0 ∧ d.link = s.dtu.link)
  ∧ (∀ (s : State) (sec ns : Nat) (b3 : W), s.dtu.host.timeSrc = 0 → s.dtu.power.por = false → s.dtu.port.word = some (sec, ns, b3) →
    s.dtu.time.state = .free → s.dtu.time.isSet = false → bit b3 1 = false → sec < 2 ^ 34 →
    ∃ d, DtuDraws .timePortSlotPulse s d ∧ d.time.state = .acquire ∧ d.time.isSet = true ∧
      d.time.stamp = stampOf sec ns (fld b3 31 16) ∧ d.port.word = none ∧ d.link = s.dtu.link)
  ∧ (∀ (s : State), s.dtu.time.state = .locked → s.dtu.power.por = false → ∃ d, DtuBecomes (.timeHoldoverEntry .dtu) s d ∧
      d.time.state = .holdover ∧ d.time.ftc = s.dtu.time.ftc ∧ fld d.host.irqStatus 4 4 = 1 ∧ d.cells = s.dtu.cells)
  ∧ (∀ (s : State), s.dtu.time.state = .acquire → s.dtu.power.por = false → ∃ d, DtuBecomes (.timeHoldoverEntry .dtu) s d ∧
      d.time.state = .acquire ∧ d.time.run = 0 ∧ d.time.ftc = s.dtu.time.ftc ∧ d.host = s.dtu.host ∧ d.cells = s.dtu.cells)
  ∧ (∀ (s : State) (f : Frame) (phase : BitVec 6), s.dtu.takes f → f.plen.toNat = 32 → wf f.body 0 31 24 = 1 →
    s.dtu.host.timeSrc = 1 → wf f.body 0 23 22 ≠ 0 →
    ∃ d, DtuDraws (.timeSync f phase) s d ∧ d.port.lastSeq = some (BitVec.ofNat 16 (wf f.body 0 15 0)) ∧ d.port.sampled = true ∧
      d.time.offset = (s.dtu.stampAt phase.toNat : Int) - s.dtu.host.latRx.toNat -
        stampOf (dword f.body 1) (wf f.body 3 31 0) (wf f.body 4 31 16) ∧
      d.cells = s.dtu.cells ∧ d.host.tag = s.dtu.host.tag)

/-- Triggers: a one-shot in the past is refused, any other armed write stands, and firing pulses at the instant and disarms or
rearms. -/
def Obligations.TriggersFireAtTheirInstant : Prop :=
  (∀ (s : State) (i : Fin 4) (w : W) (t : Trigger), s.dtu.trigs[i.val]? = some t → bit w 31 = true → bit w 30 = false →
    fld w 29 28 = 0 → fld w 15 0 = 0 → fld w 27 16 ≠ 0 → t.start ≤ s.dtu.nowNs →
    DtuBecomes (.trigArm i 0 w) s { s.dtu with cmds := { s.dtu.cmds with status := stTrigPast } })
  ∧ (∀ (s : State) (i : Fin 4) (w : W) (t : Trigger), s.dtu.trigs[i.val]? = some t → bit w 31 = true → bit w 30 = false →
    fld w 29 28 = 0 → fld w 15 0 = 0 → fld w 27 16 ≠ 0 → s.dtu.nowNs < t.start →
    DtuBecomes (.trigArm i 0 w) s { s.dtu with
      trigs := s.dtu.trigs.set i.val { t with w0 := w, next := t.start }, cmds := { s.dtu.cmds with status := stOk } })
  ∧ (∀ (s : State) (i : Fin 4) (w : W) (t : Trigger), s.dtu.trigs[i.val]? = some t → bit t.w0 31 = true →
    DtuBecomes (.trigArm i 3 w) s { s.dtu with
      trigs := s.dtu.trigs.set i.val { t with w0 := setFld t.w0 31 31 0, period := w }
      cmds := { s.dtu.cmds with status := stOk } })
  ∧ ∀ (s : State) (i : Fin 4) (t : Trigger), s.dtu.trigs[i.val]? = some t → bit t.w0 31 = true →
    s.dtu.mayReach t.next = true → s.dtu.time.state = .locked →
    ∃ d, DtuBecomes (.triggerFire i) s d ∧ t.next ≤ d.nowNs ∧ d.trigs = s.dtu.trigs.set i.val t.fire ∧
      d.trigHigh = s.dtu.trigHigh.set i.val (fld t.w0 27 16) ∧ d.time.counters = s.dtu.time.counters ∧
      d.cells = s.dtu.cells ∧ d.link = s.dtu.link

/-! ### The DTU's Host Port, resets, health, margin and fault intake. -/

/-- irq_o is high while some bit is set in both registers, and clearing a status bit writes one to it. -/
def Obligations.InterruptLevelFollowsStatus : Prop :=
  (∀ d : Dtu, d.irqLevel = true ↔ ∃ i, i < 32 ∧ bit d.host.irqStatus i = true ∧ bit d.host.irqEnable i = true)
  ∧ (∀ (d : Dtu) (i : Nat), i < 11 → bit (d.irq i).host.irqStatus i = true ∧
      ∀ j, j < 32 → j ≠ i → bit (d.irq i).host.irqStatus j = bit d.host.irqStatus j)
  ∧ (∀ (s : State) (w : W), s.dtu.runs = true → DtuBecomes (.irqStatusClear false w) s { s.dtu with
      host := { s.dtu.host with irqStatus := s.dtu.host.irqStatus &&& ~~~w, ack := true, err := false, rdata := 0 } })
  ∧ ∀ (s : State) (w : W), s.dtu.runs = true → DtuBecomes (.irqStatusClear true w) s { s.dtu with
      host := { s.dtu.host with
        clkLost := s.dtu.host.clkLost &&& ~~~(BitVec.ofNat 16 (fld w 31 16)), ack := true, err := false, rdata := 0 } }

/-- Once the seal is set, writes to the structured tag words are ignored and counted; the rest stays writable and reads as
written; power-on reset clears tag and seal, pin reset the seal only. -/
def Obligations.SealGuardsTheTag : Prop :=
  ((∀ (s : State) (i : Fin 64) (w : W), s.dtu.power.por = false → i.val < 8 → s.dtu.host.sealed = true →
    DtuBecomes (.tagAreaWrite i w) s { s.dtu with host := { s.dtu.host with
      refusedWrites := min 0xFFFF (s.dtu.host.refusedWrites + 1), ack := true, err := false, rdata := 0 } })
  ∧ (∀ (s : State) (i : Fin 64) (w : W), s.dtu.power.por = false → (8 ≤ i.val ∨ s.dtu.host.sealed = false) →
    DtuBecomes (.tagAreaWrite i w) s { s.dtu with host := { s.dtu.host with
      tag := s.dtu.host.tag.writeWord (4 * i.val) w, refused := s.dtu.host.refused && decide (8 ≤ i.val), ack := true, err := false, rdata := 0 } })
  ∧ (∀ (s : State) (w : W), s.dtu.power.por = false → DtuBecomes (.dtuTagSeal w) s { s.dtu with
      host := { s.dtu.host with sealed := s.dtu.host.sealed || bit w 0, ack := true, err := false, rdata := 0 }
      link := { s.dtu.link with helloWait := s.dtu.link.helloWait ||
        (bit w 0 && !s.dtu.host.sealed && decide (s.dtu.link.linkState = 1)) } })
  ∧ (∀ (s : State), s.dtu.power.por = false → ∃ d, DtuBecomes .hostPowerOnReset s d ∧ d.host.sealed = false ∧
      ∀ a, Memory.read d.host.tag a = 0)
  ∧ ∀ (s : State), s.dtu.power.rst = false → ∃ d, DtuBecomes .pinReset s d ∧ d.host.sealed = false ∧ d.host.tag = s.dtu.host.tag)
  ∧ (∀ (s t : State) (i : Fin 64) (w : W), s.dtu.power.por = false → s.dtu.host.sealed = false →
    exec (.tagAreaWrite i w) s = .next t →
    t.dtu.hostRead (0x100 + 4 * i.val) = some w ∧
    ∀ j : Fin 64, j ≠ i → t.dtu.hostRead (0x100 + 4 * j.val) = s.dtu.hostRead (0x100 + 4 * j.val))

/-- Host Port writes: source and latencies wait for the slot boundary, compat5 for a reset, a HOST record is offered once; a
read gives the register's word, an access where no register answers fails and changes nothing else, and while por_n_i is low
there is none. -/
def Obligations.HostPortWritesTakeEffect : Prop :=
  (∀ (s : State) (w : W), s.dtu.runs = true → fld w 1 0 < 2 → DtuBecomes (.timeSrcSelect w) s { s.dtu with
      host := { s.dtu.host with timeSrcNext := fld w 1 0, ack := true, err := false, rdata := 0 } })
  ∧ (∀ (s : State) (w : W), s.dtu.runs = true → 2 ≤ fld w 1 0 → DtuBecomes (.timeSrcSelect w) s { s.dtu with
      host := { s.dtu.host with ack := true, err := true, rdata := 0 } })
  ∧ (∀ (s : State) (w : W), s.dtu.runs = true → DtuBecomes (.compat5Select w) s { s.dtu with
      host := { s.dtu.host with compat5 := bit w 8, ack := true, err := false, rdata := 0 } })
  ∧ (∀ (s : State) (w : W), s.dtu.runs = true →
      DtuBecomes (.ulLatWrite false w) s { s.dtu with
        host := { s.dtu.host with latRxNext := w, ack := true, err := false, rdata := 0 } } ∧
      DtuBecomes (.ulLatWrite true w) s { s.dtu with
        host := { s.dtu.host with latTxNext := w, ack := true, err := false, rdata := 0 } })
  ∧ (∀ (s : State) (w : W), s.dtu.runs = true → s.dtu.trace.capturing = true → s.dtu.trace.frozen = false →
      s.dtu.trace.host = none → DtuBecomes (.dtuTrcHostLo w) s { s.dtu with
        host := { s.dtu.host with ack := true, err := false, rdata := 0 }
        trace := { s.dtu.trace with
          hostLo := w, hostRefused := min 0xFFFF s.dtu.trace.hostRefused
          host := some { rtype := 0x03, aux := s.dtu.trace.hostAux.toNat, ns := none,
                         payload := 2 ^ 32 * s.dtu.trace.hostHi.toNat + w.toNat } } })
  ∧ (∀ (s : State) (w : W), s.dtu.runs = true → DtuBecomes (.hostPortWrite 0x34 (some w)) s { s.dtu with
      host := { s.dtu.host with irqEnable := w &&& 0x7FF, ack := true, err := false, rdata := 0 } })
  ∧ (∀ (s : State) (a : BitVec 16) (w : Option W), s.dtu.power.por = false →
      s.dtu.hostAnswers (a.toNat / 4 * 4) = false →
      DtuBecomes (.hostPortWrite a w) s { s.dtu with host := { s.dtu.host with ack := true, err := true, rdata := 0 } })
  ∧ (∀ (s : State) (a : BitVec 16) (x : W), s.dtu.power.por = false → s.dtu.hostAnswers (a.toNat / 4 * 4) = true →
      s.dtu.hostRead (a.toNat / 4 * 4) = some x →
      DtuBecomes (.hostPortWrite a none) s { s.dtu with host := { s.dtu.host with ack := true, err := false, rdata := x } })
  ∧ ∀ (s : State) (a : BitVec 16) (w : Option W), s.dtu.power.por = true → LeavesAll (.hostPortWrite a w) s

/-- A slot boundary of a running DTU brings the FTC to it, and time source, latencies, throttle and the uplink rate as written
take force there; a soft reset that waited happens. -/
def Obligations.SlotBoundaryAppliesWaitingChanges : Prop :=
  (∀ (s : State), s.dtu.runs = true → s.dtu.link.rst = false → s.dtu.link.helloWait = false →
    s.dtu.power.softDue = false → s.dtu.power.lullReq = 0 → s.dtu.cmds.loop = none →
    s.dtu.mayReach s.dtu.time.nextSlot = true →
    ∃ d, DtuBecomes .slotBoundary s d ∧ d.nowNs = s.dtu.time.nextSlot ∧ d.host.timeSrc = s.dtu.host.timeSrcNext ∧
      d.host.latRx = s.dtu.host.latRxNext ∧ d.host.latTx = s.dtu.host.latTxNext ∧
      d.health.throttle = s.dtu.health.pendingThrottle ∧ d.link.slotsUp = s.dtu.link.slotsUp + 1 ∧
      d.link.shaper.rate = fld s.dtu.link.ulRate 23 16 ∧ d.link.shaper.burst = 1024 * fld s.dtu.link.ulRate 15 0 ∧
      d.cells = s.dtu.cells ∧ d.trace = s.dtu.trace ∧ d.host.tag = s.dtu.host.tag)
  ∧ ∀ (s : State), s.dtu.power.por = false → s.dtu.power.softDue = true → s.dtu.power.lullReq = 0 →
    ∃ d, DtuBecomes .slotBoundary s d ∧ d.power.lastReset = 2 ∧ d.power.softDue = false ∧ d.host.irqStatus = 0 ∧
      d.host.tag = s.dtu.host.tag ∧ d.host.sealed = s.dtu.host.sealed ∧ d.cells.cfg = [] ∧ d.cells.values = [] ∧
      d.cells.retention = s.dtu.cells.retention ∧ d.trigs = s.dtu.trigs ∧ d.link.linkState = 1 ∧ d.link.admitted = false ∧
      d.faults = { FaultQueues.initial with rst := s.dtu.faults.rst } ∧ d.counters = [] ∧ d.ulRstInd = true ∧
      d.faultRdy = false

/-- Which state each reset keeps and clears; while it lasts ul_rst_ind_o is high and DTU_PORT_STATUS reads 0, and a core reset
holds fault_rdy_o low. -/
def Obligations.ResetsKeepAndClear : Prop :=
  (∀ (s : State), s.dtu.power.por = false → ∃ d, DtuBecomes .hostPowerOnReset s d ∧ d.power.por = true ∧ d.host = .initial ∧
      d.cells = { Cells.initial with held := s.dtu.cells.held, domIncomplete := s.dtu.cells.held } ∧ d.trace = .initial ∧
      d.digests = .initial ∧ d.health = .initial ∧ d.time = .initial s.dtu.build.timePeriod ∧ d.frost = .initial ∧
      d.link = { DtuLink.initial with rst := s.dtu.link.rst } ∧ d.counters = [] ∧ d.portStatus = 0 ∧ d.faultRdy = false)
  ∧ (∀ (s : State), s.dtu.power.rst = false → ∃ d, DtuBecomes .pinReset s d ∧ d.power.lastReset = 1 ∧ d.time = { s.dtu.time with counters := [] } ∧
      d.trigs = s.dtu.trigs ∧ d.timeCtl = s.dtu.timeCtl ∧ d.timeServo = s.dtu.timeServo ∧
      d.host.compat5 = false ∧ d.host.compat5Active = s.dtu.host.compat5 ∧ d.host.timeSrc = 0 ∧ d.host.latRx = 0 ∧
      d.host.irqStatus = 0 ∧ d.host.irqEnable = 0 ∧ d.cells.cfg = [] ∧ d.cells.retention = [] ∧
      d.faults.port = [] ∧ d.faults.own = [] ∧ d.frost = .initial ∧ d.link = { DtuLink.initial with rst := s.dtu.link.rst } ∧
      d.counters = [] ∧ d.factory = false ∧ d.power.rst = true ∧ d.ulRstInd = true ∧ d.portStatus = 0 ∧ d.faultRdy = false)
  ∧ (∀ (s : State), s.dtu.power.por = true →
      DtuBecomes .hostPowerOnReset s { s.dtu with power := { s.dtu.power with por := false } })
  ∧ (∀ (s : State), s.dtu.power.rst = true →
      DtuBecomes .pinReset s { s.dtu with power := { s.dtu.power with rst := false } })
  ∧ (∀ (s : State), s.dtu.link.rst = true →
      DtuBecomes .ulPathReset s { s.dtu with link := { s.dtu.link with rst := false } })
  ∧ (∀ (s : State), s.dtu.link.rst = false → ∃ d, DtuBecomes .ulPathReset s d ∧ d.link.linkState = 1 ∧ d.link.beatSum = [0, 0, 0, 0] ∧
      d.link.beatLimit = [none, none, none, none] ∧ d.link.beatHeld = [0, 0, 0, 0] ∧
      d.link.rxGranted = [0, 0, 0, 0] ∧ d.link.rxOwed = [128, 128, 128, 128] ∧
      d.link.lseqTx = List.replicate 8 0 ∧ d.link.lseqRx = List.replicate 8 0 ∧
      d.link.admitted = false ∧ d.link.vc0 = s.dtu.link.vc0 ∧ d.link.vc2 = s.dtu.link.vc2 ∧ d.link.vc3 = s.dtu.link.vc3 ∧
      d.cells = s.dtu.cells ∧ d.faults = s.dtu.faults ∧ d.host.tag = s.dtu.host.tag ∧ d.time = s.dtu.time ∧
      d.ulRstInd = true ∧ d.portStatus = 0 ∧ (s.dtu.link.linkState = 3 → fld d.host.irqStatus 1 1 = 1))
  ∧ ∀ (s : State), DtuBecomes .faultIntakeReset s { s.dtu with faults := { s.dtu.faults with rst := !s.dtu.faults.rst } }

/-- A quiet DTU enters the Lull state asked for and says so; asked to run again it leaves it and lowers
lull_rdy_o once the supplies are good, and not before. -/
def Obligations.LullStatesAreEnteredAndLeft : Prop :=
  (∀ (s : State) (x : PowerPins), x.req ≠ 0 → x.req.toNat ≠ s.dtu.power.lull → s.dtu.health.driving = none →
    s.dtu.health.acked = false → (s.dtu.trace.capturing = false ∨ s.dtu.trace.stopped = false) → s.dtu.trace.waits = [] →
    ∃ d, DtuBecomes (.lullRequest x) s d ∧ d.power.lullReq = x.req.toNat ∧ d.power.lull = x.req.toNat ∧ d.power.lullRdy = true ∧
      d.power.pgCore = x.core ∧ d.power.pgRet = x.ret ∧
      d.power.lullEntries = (if x.req = 3 then 0 else min 0xFFFF (s.dtu.power.lullEntries + 1)) ∧ d.host.tag = s.dtu.host.tag ∧
      d.host.sealed = s.dtu.host.sealed ∧ d.trigs = s.dtu.trigs ∧
      d.time = (if x.req = 3 then { s.dtu.time with counters := [] } else s.dtu.time))
  ∧ (∀ (s : State) (x : PowerPins), x.req ≠ 0 → x.req.toNat ≠ s.dtu.power.lull → s.dtu.trace.capturing = true →
    s.dtu.trace.stopped = true → s.dtu.power.lullAsked = false →
    ∃ d, DtuBecomes (.lullRequest x) s d ∧ d.power.lullReq = x.req.toNat ∧ d.power.lull = s.dtu.power.lull ∧
      d.power.lullRdy = s.dtu.power.lullRdy ∧ d.host = s.dtu.host ∧ d.cells = s.dtu.cells ∧
      (s.dtu.health.driving = none → s.dtu.health.acked = false → (∃ w ∈ d.trace.waits, w.cause = 5)))
  ∧ (∀ (s : State) (x : PowerPins), s.dtu.health.driving.isSome = true →
      DtuBecomes (.lullRequest x) s { s.dtu with power := s.dtu.power.pins x })
  ∧ (∀ (s : State), s.dtu.power.lull ≠ 0 → s.dtu.power.lullReq = 0 → s.dtu.power.pgCore = true →
    (s.dtu.power.pgRet = true ∨ s.dtu.power.lull ≠ 3) → ∃ d, DtuBecomes .lullExit s d ∧ d.power.lull = 0 ∧ d.power.lullRdy = false ∧
      d.power.lullLast = max s.dtu.power.lullLast s.dtu.power.lull ∧ d.host = s.dtu.host ∧ d.time = s.dtu.time)
  ∧ ∀ (s : State), (s.dtu.power.lull = 0 ∨ s.dtu.power.pgCore = false ∨ (s.dtu.power.pgRet = false ∧ s.dtu.power.lull = 3)) →
      LeavesAll .lullExit s

/-- Health samples are clamped, kept and judged; a margin handshake is driven, acknowledged and released in rank. -/
def Obligations.HealthAndMarginAreHandled : Prop :=
  ((∀ (s : State) (t v r : BitVec 16), s.dtu.runs = true →
    ∃ d, DtuBecomes (.healthSample t v r) s d ∧ d.health.temp = clampTemp t ∧ d.health.vcore = clampVolt v ∧
      d.health.samples = s.dtu.health.samples ++ [(clampTemp t, clampVolt v, clampVolt r)] ∧
      (d.health.level, d.health.below) = thermalLevel (ofTwos 16 (fld s.dtu.thermCfg 31 16)) (fld s.dtu.thermCfg 15 8)
        (ofTwos 16 (fld s.dtu.thermCrit 31 16)) s.dtu.health.level s.dtu.health.below (ofTwos 16 (clampTemp t).toNat) ∧
      d.health.pendingThrottle = max d.health.level (fld s.dtu.thermCfg 2 0) ∧
      d.health.throttle = s.dtu.health.throttle ∧ d.cells = s.dtu.cells ∧ d.link = s.dtu.link ∧ d.host = s.dtu.host)
  ∧ ∀ (s : State) (t v r : BitVec 16), s.dtu.runs = false → LeavesAll (.healthSample t v r) s)
  ∧ ((∀ (s : State) (r : MarginReq) (nak : Bool), s.dtu.health.driving = some r → s.dtu.health.acked = false →
    ∃ d, DtuBecomes (.marginAck nak) s d ∧ d.health.driving = none ∧ d.health.acked = true ∧ d.marginReq = 0 ∧
      d.health.naks = s.dtu.health.naks + b2n nak ∧ d.health.waiting = s.dtu.health.waiting ∧
      fld d.host.irqStatus 7 7 = 1 ∧ (∀ l ∈ d.cmds.longs, l.handle ∈ r.handles → l.done.isSome = true) ∧
      d.cells = s.dtu.cells ∧ d.link = s.dtu.link)
  ∧ (∀ (s : State), s.dtu.health.driving = none → s.dtu.health.waiting = [] →
    DtuBecomes .marginAckRelease s { s.dtu with health := { s.dtu.health with acked := false } })
  ∧ (∀ (s : State), s.dtu.health.driving = none → s.dtu.health.waiting ≠ [] →
    ∃ d r, DtuBecomes .marginAckRelease s d ∧ d.health.driving = some r ∧ d.health.acked = false ∧
      r ∈ s.dtu.health.waiting ∧ (∀ x ∈ s.dtu.health.waiting, marginRank r ≤ marginRank x) ∧
      d.health.waiting.length + 1 = s.dtu.health.waiting.length ∧ d.cells = s.dtu.cells ∧ d.host = s.dtu.host)
  ∧ (∀ (s : State) (r : MarginReq), s.dtu.health.driving = some r → s.dtu.health.acked = false →
    s.dtu.health.stalled = false →
    ∃ d, DtuBecomes .marginStall s d ∧ d.health.stalled = true ∧ fld d.host.irqStatus 6 6 = 1 ∧
      s.dtu.health.drivenAt + 2 ^ 20 ≤ d.nowNs ∧ d.health.driving = some r ∧ d.cells = s.dtu.cells)
  ∧ (∀ (s : State) (w : W), marginCfgStatus w = stOk → DtuBecomes (.marginBudgetWrite w) s { s.dtu with
      health := { s.dtu.health with cfg := regSet healthReset s.dtu.health.cfg 0x20808 w }
      cmds := { s.dtu.cmds with status := stOk } })
  ∧ ∀ (s : State) (w : W), marginCfgStatus w ≠ stOk → DtuBecomes (.marginBudgetWrite w) s { s.dtu with
      cmds := { s.dtu.cmds with status := marginCfgStatus w } })

/-- A host fault message is stamped and queued, merges into an equal one that waits, or is not taken while the queue is
full, in Lull-2 and Lull-3, and while the core is in reset. -/
def Obligations.HostFaultsAreQueuedOrMerged : Prop :=
  (∀ (s : State) (m : BitVec 128), s.dtu.faultRdy = true →
    (∀ x ∈ s.dtu.faults.port, x.message ≠ m) →
    DtuBecomes (.faultPortAccept m) s { s.dtu with
      faults := { s.dtu.faults with port := s.dtu.faults.port ++
        [{ message := m, tNs := s.dtu.nowNs, temp := s.dtu.health.temp, vcore := s.dtu.health.vcore, repeats := 1,
           internal := false }] }
      counters := bump s.dtu.counters .faultAccepted 1 })
  ∧ (∀ (s : State) (m : BitVec 128) (a b : List FaultMsg) (x : FaultMsg), s.dtu.faults.port = a ++ x :: b →
    x.message = m → (∀ y ∈ a, y.message ≠ m) → s.dtu.faultRdy = true →
    ∃ d, DtuBecomes (.faultPortAccept m) s d ∧
      d.faults.port = a ++ { x with repeats := min 255 (x.repeats + 1) } :: b ∧ d.faults.own = s.dtu.faults.own)
  ∧ ∀ (s : State) (m : BitVec 128), (32 ≤ s.dtu.faults.port.length ∨ 2 ≤ s.dtu.power.lull ∨ s.dtu.coreReset = true) →
      LeavesAll (.faultPortAccept m) s

/-- A pulse of fault_drop_i counts one dropped message and sets fault_overflow. -/
def Obligations.FaultDropsAreCounted : Prop :=
  ∀ (s : State), DtuBecomes .faultDropPulse s { s.dtu with
    faults := { s.dtu.faults with drops := s.dtu.faults.drops + 1 }
    host := { s.dtu.host with irqStatus := setFld s.dtu.host.irqStatus 9 9 1 } }

/-- What leaves the uplink: the oldest fault message as its record, up to 16 digest records in one packet, VC 3 before VC 0, under
the rate limit as written. -/
def Obligations.RecordsLeaveInOrder : Prop :=
  ((∀ (s : State) (m : FaultMsg) (own : Bool), s.dtu.oldestFault = some (m, own) → s.dtu.mayReport = true →
    s.dtu.canSend 5 0x04 32 = true →
    ∃ d f, DtuBecomes .faultRecordSend s d ∧ d.link.wire = some f ∧ f.cls = 5 ∧ f.msg = 4 ∧
      f.dest = s.dtu.link.aggMac ∧ f.body = s.dtu.faultRecordOf m ∧
      d.faults = (if own then { s.dtu.faults with own := s.dtu.faults.own.drop 1 }
        else { s.dtu.faults with port := s.dtu.faults.port.drop 1 }) ∧ d.cells = s.dtu.cells ∧ d.host = s.dtu.host)
  ∧ (∀ (s : State), s.dtu.digests.records ≠ [] → s.dtu.oldestFault = none → s.dtu.link.vc2 = [] → s.dtu.mayReport = true →
    s.dtu.canSend 5 0x02 (32 * (s.dtu.digests.records.take 16).length) = true →
    ∃ d f, DtuBecomes .digestPacketSend s d ∧ d.link.wire = some f ∧ f.cls = 5 ∧ f.msg = 2 ∧
      f.body = (s.dtu.digests.records.take 16).flatten ∧ d.digests.records = s.dtu.digests.records.drop 16 ∧
      d.cells = s.dtu.cells ∧ d.host = s.dtu.host)
  ∧ (∀ (s : State), s.dtu.link.admitted = false → LeavesAll .faultRecordSend s ∧ LeavesAll .digestPacketSend s)
  ∧ ∀ (s : State), (s.dtu.oldestFault.isSome = true ∨ s.dtu.link.vc2 ≠ []) → LeavesAll .digestPacketSend s)
  ∧ ((∀ (s : State) (w : W), ulRateStatus w = stOk → DtuBecomes (.ulRateWrite w) s { s.dtu with
      link := { s.dtu.link with ulRate := w }, cmds := { s.dtu.cmds with status := stOk } })
  ∧ (∀ (s : State) (w : W), ulRateStatus w ≠ stOk → DtuBecomes (.ulRateWrite w) s { s.dtu with
      cmds := { s.dtu.cmds with status := ulRateStatus w } })
  ∧ (∀ (s : State) (p : Fin 82) (t : TxFrame) (r : List TxFrame), s.dtu.link.vc3 = t :: r →
    s.dtu.canSend t.cls t.msg t.plen = true →
    ∃ d f, DtuBecomes (.frameTransmit .dtu p) s d ∧ d.link.wire = some f ∧
      (t.cls ≠ 6 ∨ t.msg ≠ 2 → f.body = t.body) ∧ f.dest = t.dest ∧ d.link.vc3 = r ∧ d.link.vc0 = s.dtu.link.vc0 ∧ d.host = s.dtu.host ∧ d.digests = s.dtu.digests)
  ∧ ∀ (s : State) (p : Fin 82) (t : TxFrame) (r : List TxFrame), s.dtu.link.vc3 = [] → s.dtu.link.vc0 = t :: r →
    s.dtu.canSend t.cls t.msg t.plen = true →
    ∃ d f, DtuBecomes (.frameTransmit .dtu p) s d ∧ d.link.wire = some f ∧
      (t.cls ≠ 6 ∨ t.msg ≠ 2 → f.body = t.body) ∧ f.dest = t.dest ∧ f.lseq = s.dtu.link.lseqTx.getD t.cls 0 ∧ f.hcrc = frameHcrc f ∧ d.link.vc0 = r ∧ d.host = s.dtu.host ∧
      d.digests = s.dtu.digests)

/-! ### The DTU's digests and traces. -/

/-- Beats of an enabled channel open, fill and close leaves; a pending block whose timeout has passed gives a record with err_cause
3 and digest zero. -/
def Obligations.DigestsComeFromTheirLeaves : Prop :=
  ((∀ (s : State) (c : Fin 4) (half : List (BitVec 16)), LeavesAll (.digestBeat c 0 half) s)
  ∧ (∀ (s : State) (c : Fin 4) (half : List (BitVec 16)), bits s.dtu.digests.chanEn c.val c.val = 1 →
    s.dtu.cells.held.contains (s.dtu.build.tapDomain (16 * c.val)) = false → s.dtu.runs = true →
    aGet s.dtu.digests.openLeaves c.val = none → s.dtu.headerSound (leafHeader half) = true →
    ∃ d, DtuBecomes (.digestBeat c 0x7FFF half) s d ∧ d.digests = { s.dtu.digests with
        openLeaves := aPut s.dtu.digests.openLeaves c.val
          { hdr := (leafHeader half).1, taken := 0, crc := 0xFFFFFFFFFFFFFFFF } } ∧
      d.host = s.dtu.host ∧ d.link = s.dtu.link ∧ d.trace = s.dtu.trace)
  ∧ (∀ (s : State) (c : Fin 4) (half : List (BitVec 16)) (l : OpenLeaf), bits s.dtu.digests.chanEn c.val c.val = 1 →
    s.dtu.cells.held.contains (s.dtu.build.tapDomain (16 * c.val)) = false → s.dtu.runs = true →
    aGet s.dtu.digests.openLeaves c.val = some l → l.taken + 32 < l.hdr.len →
    ∃ d, DtuBecomes (.digestBeat c 0xFFFF half) s d ∧ d.digests = { s.dtu.digests with
        openLeaves := aPut s.dtu.digests.openLeaves c.val
          { l with taken := l.taken + 32, crc := crcRun 0xC96C5795D7870F42 l.crc (beatBytes half) } } ∧
      d.host = s.dtu.host ∧ d.link = s.dtu.link)
  ∧ ∀ (s : State) (c : Fin 4) (valid : BitVec 16) (half : List (BitVec 16)) (l : OpenLeaf),
    bits s.dtu.digests.chanEn c.val c.val = 1 →
    s.dtu.cells.held.contains (s.dtu.build.tapDomain (16 * c.val)) = false → s.dtu.runs = true →
    aGet s.dtu.digests.openLeaves c.val = some l → valid ≠ 0 → valid ≠ 0xFFFF →
    ∃ d, DtuBecomes (.digestBeat c valid half) s d ∧
      d.digests.openLeaves = aDel s.dtu.digests.openLeaves c.val ∧
      d.digests.pendingBlocks = s.dtu.digests.pendingBlocks.filter
        (fun b => !sameBlock l.hdr.slot l.hdr.version l.hdr.block b) ∧ d.host = s.dtu.host ∧ d.link = s.dtu.link)
  ∧ ((∀ (s : State) (slot : Fin 8) (v : BitVec 16) (block : BitVec 22) (b : PendingBlock),
    s.dtu.digests.pendingBlocks.find? (sameBlock slot.val v.toNat block.toNat) = some b →
    b.begun + fld (regGet digReset s.dtu.digests.cfg 0x21000) 15 8 < s.dtu.time.begun →
    s.dtu.digests.records.length < 256 →
    ∃ d r, DtuBecomes (.digestPendingTimeout slot v block) s d ∧ d.digests.records = s.dtu.digests.records ++ [r] ∧
      r.length = 8 ∧ wf r 0 21 0 = b.block % 2 ^ 22 ∧ wf r 1 15 0 = b.version % 2 ^ 16 ∧ wf r 2 21 20 = 3 ∧
      word r 5 = 0 ∧ word r 6 = 0 ∧
      d.digests.pendingBlocks = s.dtu.digests.pendingBlocks.filter
        (fun x => !sameBlock slot.val v.toNat block.toNat x) ∧
      d.digests.openLeaves = s.dtu.digests.openLeaves ∧ d.host = s.dtu.host ∧ d.cells = s.dtu.cells ∧
      d.link = s.dtu.link)
  ∧ ∀ (s : State) (slot : Fin 8) (v : BitVec 16) (block : BitVec 22),
    s.dtu.digests.pendingBlocks.find? (sameBlock slot.val v.toNat block.toNat) = none →
    LeavesAll (.digestPendingTimeout slot v block) s)

/-- Enabling capture starts a stream or goes on with a restored one; capture stamps the record offered; the open block closes with
the lowest cause that holds; disabling stops capture. -/
def Obligations.TraceRecordsAreCapturedAndClosed : Prop :=
  ((∀ (s : State), s.dtu.trace.enabled = false →
    s.dtu.trcCfgStatus (setFld (regGet trcReset s.dtu.trace.cfg 0x20000) 31 31 1) = stOk → s.dtu.trace.restored = false →
    s.dtu.trace.ending = false →
    ∃ d, DtuBecomes (.traceEnable true) s d ∧ d.trace.enabled = true ∧ d.trace.capturing = true ∧ d.trace.seq = 0 ∧
      d.trace.stream = (if s.dtu.trace.image.valid || s.dtu.trace.seq != 0 then (s.dtu.trace.stream + 1) % 256
        else s.dtu.trace.stream) ∧ d.trace.fresh = true ∧ d.trace.history = [] ∧ d.trace.events = [] ∧ d.trace.taps = [] ∧
      d.counters = bump s.dtu.counters .streams 1 ∧
      d.trace.blocks = s.dtu.trace.blocks ∧ d.cmds.status = stOk ∧ d.host = s.dtu.host ∧ d.cells = s.dtu.cells)
  ∧ (∀ (s : State), s.dtu.trace.enabled = false →
    s.dtu.trcCfgStatus (setFld (regGet trcReset s.dtu.trace.cfg 0x20000) 31 31 1) = stOk → s.dtu.trace.restored = false →
    s.dtu.trace.ending = true →
    ∃ d, DtuBecomes (.traceEnable true) s d ∧ d.trace.enabled = true ∧ d.trace.capturing = true ∧
      d.trace.openRecs = s.dtu.trace.openRecs ∧ d.trace.raw = s.dtu.trace.raw ∧ d.trace.waits = s.dtu.trace.waits ∧
      d.trace.stream = s.dtu.trace.stream ∧ d.trace.seq = s.dtu.trace.seq ∧ d.trace.events = [] ∧ d.host = s.dtu.host)
  ∧ (∀ (s : State), s.dtu.trace.enabled = false →
    s.dtu.trcCfgStatus (setFld (regGet trcReset s.dtu.trace.cfg 0x20000) 31 31 1) = stOk → s.dtu.trace.restored = true →
    ∃ d, DtuBecomes (.traceEnable true) s d ∧ d.trace.enabled = true ∧ d.trace.capturing = true ∧
      d.trace.seq = s.dtu.trace.seq ∧ d.trace.stream = s.dtu.trace.stream ∧ d.trace.history = s.dtu.trace.history ∧
      d.trace.restored = false ∧ d.host = s.dtu.host)
  ∧ ∀ (s : State), s.dtu.trace.enabled = true →
    s.dtu.trcCfgStatus (setFld (regGet trcReset s.dtu.trace.cfg 0x20000) 31 31 0) = stOk →
    ∃ d, DtuBecomes (.traceEnable false) s d ∧ d.trace.enabled = false ∧ d.trace.capturing = false ∧
      d.trace.class0 = [] ∧ d.trace.host = none ∧ d.cmds.status = stOk ∧ d.host = s.dtu.host ∧ d.cells = s.dtu.cells)
  ∧ ((∀ (s : State) (o : TraceOffer), s.dtu.trace.capturing = true → s.dtu.runs = true → s.dtu.trace.frozen = false →
    s.dtu.trace.class0 = [] → s.dtu.trace.host = some o → s.dtu.trace.dueCells = [] → s.dtu.trace.dueTaps = [] →
    s.dtu.trace.lossDue = false → s.dtu.trace.hasRoom = true → s.dtu.trace.floor 1 ≤ s.dtu.trace.rawFree →
    ∃ d, DtuBecomes .traceCapture s d ∧ d.trace.host = none ∧ d.trace.rawWritten = s.dtu.trace.rawWritten + 1 ∧
      d.trace.openRecs ++ d.trace.raw.map RawRec.words = s.dtu.trace.openRecs ++ s.dtu.trace.raw.map RawRec.words ++
        [traceRec (o.ns.getD s.dtu.nowNs) o.rtype o.aux o.payload] ∧ d.trace.blocks = s.dtu.trace.blocks ∧ d.host = s.dtu.host ∧
      d.cells = s.dtu.cells)
  ∧ (∀ (s : State) (o : TraceOffer), s.dtu.trace.capturing = true → s.dtu.runs = true → s.dtu.trace.frozen = false →
    s.dtu.trace.class0 = [] → s.dtu.trace.host = some o → s.dtu.trace.dueCells = [] → s.dtu.trace.dueTaps = [] →
    s.dtu.trace.admits 1 = false →
    ∃ d, DtuBecomes .traceCapture s d ∧ d.trace.host = none ∧ d.trace.rawWritten = s.dtu.trace.rawWritten ∧
      d.trace.hostRefused = min 0xFFFF (s.dtu.trace.hostRefused + 1) ∧
      d.trace.losses = modAt s.dtu.trace.losses 2 (· + 1) ∧ d.counters = bump s.dtu.counters (.refused 1) 1 ∧
      d.trace.openRecs ++ d.trace.raw.map RawRec.words = s.dtu.trace.openRecs ++ s.dtu.trace.raw.map RawRec.words)
  ∧ (∀ (s : State) (c : Nat), s.dtu.runs = true → s.dtu.trace.starved = false → s.dtu.trace.fullStop = false →
    s.dtu.ownCause = some c → s.dtu.trace.waits = [] →
    ∃ d b, DtuBecomes .traceBlockClose s d ∧ d.trace.blocks = s.dtu.trace.blocks ++ [b] ∧ b.cause = c ∧
      b.records = s.dtu.trace.openRecs.length ∧ b.stream = s.dtu.trace.stream ∧ b.seq = s.dtu.trace.seq ∧
      b.carry = s.dtu.trace.carry ∧ b.firstNs = s.dtu.trace.openFirst ∧
      b.dataCrc = crc32c (recBytes s.dtu.trace.openRecs) ∧ d.host = s.dtu.host ∧ d.cells = s.dtu.cells)
  ∧ ∀ (s : State), s.dtu.trace.capturing = false → s.dtu.trace.raw = [] → LeavesAll .traceCapture s)

/-- The compressor stops while the block ring has no token for it and goes on at resume_tokens free ones; a block leaves when
its packet may, and its tokens come back when the packet has crossed. -/
def Obligations.CompressorStopsAndResumes : Prop :=
  (∀ (s : State), s.dtu.trace.starved = true → s.dtu.trace.fullStop = false →
    DtuBecomes .compressorFullStop s { s.dtu with
      trace := { s.dtu.trace with fullStop := true, stopAt := s.dtu.nowNs }
      counters := bump s.dtu.counters .fullStops 1 })
  ∧ (∀ (s : State), s.dtu.trace.starved = false → LeavesAll .compressorFullStop s)
  ∧ (∀ (s : State), s.dtu.trace.fullStop = true → s.dtu.trace.resumeTokens ≤ s.dtu.trace.blockFree →
    s.dtu.trace.waits = [] →
    ∃ d, DtuBecomes .compressorResume s d ∧ d.trace.fullStop = false ∧
      d.trace.openRecs ++ d.trace.raw.map RawRec.words = s.dtu.trace.openRecs ++ s.dtu.trace.raw.map RawRec.words ∧
      d.trace.blocks = s.dtu.trace.blocks ∧
      d.counters = bump s.dtu.counters .fullStopNs (s.dtu.nowNs - s.dtu.trace.stopAt) ∧ d.host = s.dtu.host)
  ∧ (∀ (s : State), s.dtu.trace.blockFree < s.dtu.trace.resumeTokens → LeavesAll .compressorResume s)
  ∧ (∀ (s : State) (b : TraceBlock) (r : List TraceBlock), s.dtu.trace.blocks = b :: r → s.dtu.mayReport = true →
    s.dtu.canSend 5 0x01 (32 + b.payload.length) = true →
    ∃ d f, DtuBecomes .traceBlockSend s d ∧ d.trace.blocks = r ∧ d.trace.sending = some b ∧ d.link.wire = some f ∧
      f.cls = 5 ∧ f.msg = 1 ∧ f.body = b.wrapper s.dtu.dieId ++ wordsOf b.payload ∧ d.trace.raw = s.dtu.trace.raw ∧
      d.trace.openRecs = s.dtu.trace.openRecs ∧ d.host = s.dtu.host ∧ d.cells = s.dtu.cells)
  ∧ ∀ (s : State) (b : TraceBlock), s.dtu.trace.sending = some b → s.dtu.trace.blocks = [] →
    DtuBecomes .traceBlockSend s { s.dtu with
      trace := { s.dtu.trace with sending := none }, counters := bump s.dtu.counters .blocksSent 1 }

/-! ### The links. -/

/-- Beat credits keep to their limit and minimum, and a packet with a defect, too long or without a credit is discarded and
counted; a sound one passes to its message, also the one whose sof cut an open packet off; its credits are owed to the path
again. -/
def Obligations.UplinkIntakeIsChecked : Prop :=
  ((∀ (s : State) (vc : Fin 4) (lim : Nat), s.dtu.portOn = true → s.dtu.link.beatLimit.getD vc.val none = some lim →
    s.dtu.link.beatHeld.getD vc.val 0 < lim →
    DtuBecomes (.ulCreditReturn vc) s { s.dtu with link := { s.dtu.link with
      beatHeld := s.dtu.link.beatHeld.set vc.val (s.dtu.link.beatHeld.getD vc.val 0 + 1) } })
  ∧ (∀ (s : State) (vc : Fin 4), s.dtu.portOn = true → s.dtu.link.beatLimit.getD vc.val none = none →
    DtuBecomes (.ulCreditReturn vc) s { s.dtu with link := { s.dtu.link with
      beatSum := modAt s.dtu.link.beatSum vc.val (· + 1)
      beatHeld := s.dtu.link.beatHeld.set vc.val (s.dtu.link.beatHeld.getD vc.val 0 + 1) } })
  ∧ (∀ (s : State) (vc : Fin 4) (lim : Nat), s.dtu.portOn = true → s.dtu.link.beatLimit.getD vc.val none = some lim →
    lim ≤ s.dtu.link.beatHeld.getD vc.val 0 →
    ∃ d m, DtuBecomes (.ulCreditReturn vc) s d ∧ d.link = s.dtu.link ∧ d.host.irqStatus = setFld s.dtu.host.irqStatus 10 10 1 ∧
      d.faults.ledgerDue = s.dtu.faults.ledgerDue ++ [m] ∧ d.cells = s.dtu.cells)
  ∧ (∀ (s : State) (vc : Fin 4), s.dtu.portOn = true → 2 ≤ s.dtu.link.slotsUp → s.dtu.link.beatSum.getD vc.val 0 < beatMin vc.val →
    s.dtu.link.ledgerSaid.getD vc.val false = false →
    ∃ d m, DtuBecomes (.ulCreditMinTimeout vc) s d ∧
      d.link = { s.dtu.link with ledgerSaid := s.dtu.link.ledgerSaid.set vc.val true } ∧
      d.host.irqStatus = setFld s.dtu.host.irqStatus 10 10 1 ∧
      d.faults.ledgerDue = s.dtu.faults.ledgerDue ++ [m] ∧ d.cells = s.dtu.cells)
  ∧ ∀ (s : State) (vc : Fin 4), beatMin vc.val ≤ s.dtu.link.beatSum.getD vc.val 0 → LeavesAll (.ulCreditMinTimeout vc) s)
  ∧ ((∀ (s : State) (vc : Fin 4) (f : Frame) (x : RxDefect), s.dtu.portOn = true →
    (x = .tooLong ∨ x = .shortBeat ∨ x = .pathError) →
    DtuBecomes (.ulRxPacket vc x f) s { s.dtu with counters := bump s.dtu.counters .rxDiscard 1 })
  ∧ (∀ (s : State) (vc : Fin 4) (f : Frame) (x : RxDefect), s.dtu.portOn = true →
    (x = .noCredit ∨ x = .none ∧ s.dtu.link.rxGranted.getD vc.val 0 < beatsOf f.plen.toNat) →
    ∃ d m, DtuBecomes (.ulRxPacket vc x f) s d ∧ d.counters = bump s.dtu.counters .rxNoCredit 1 ∧
      d.host.irqStatus = setFld s.dtu.host.irqStatus 10 10 1 ∧
      d.faults.ledgerDue = s.dtu.faults.ledgerDue ++ [m] ∧ d.link = s.dtu.link ∧ d.cells = s.dtu.cells)
  ∧ (∀ (s : State) (vc : Fin 4) (f : Frame), s.dtu.portOn = true →
    beatsOf f.plen.toNat ≤ s.dtu.link.rxGranted.getD vc.val 0 → rxLimit vc.val < 32 + f.plen.toNat →
    ∃ d, DtuBecomes (.ulRxPacket vc .none f) s d ∧ d.counters = bump s.dtu.counters .rxDiscard 1 ∧
      d.link.rxGranted = modAt s.dtu.link.rxGranted vc.val (· - beatsOf f.plen.toNat) ∧ d.cells = s.dtu.cells)
  ∧ (∀ (s : State) (vc : Fin 4) (f : Frame), beatsOf f.plen.toNat ≤ s.dtu.link.rxGranted.getD vc.val 0 →
    32 + f.plen.toNat ≤ rxLimit vc.val → s.dtu.takes f →
    DtuBecomes (.ulRxPacket vc .none f) s { s.dtu with link := { s.dtu.link with
      rxGranted := modAt s.dtu.link.rxGranted vc.val (· - beatsOf f.plen.toNat)
      rxOwed := modAt s.dtu.link.rxOwed vc.val (· + beatsOf f.plen.toNat) } })
  ∧ (∀ (s : State) (vc : Fin 4) (f : Frame), beatsOf f.plen.toNat ≤ s.dtu.link.rxGranted.getD vc.val 0 →
    32 + f.plen.toNat ≤ rxLimit vc.val → s.dtu.takes f →
    DtuBecomes (.ulRxPacket vc .sofWhileOpen f) s { s.dtu with
      counters := bump s.dtu.counters .rxDiscard 1
      link := { s.dtu.link with
        rxGranted := modAt s.dtu.link.rxGranted vc.val (· - beatsOf f.plen.toNat)
        rxOwed := modAt s.dtu.link.rxOwed vc.val (· + beatsOf f.plen.toNat) } })
  ∧ ∀ (s : State) (vc : Fin 4) (f : Frame) (x : RxDefect), s.dtu.portOn = false →
    LeavesAll (.ulRxPacket vc x f) s ∧ LeavesAll (.ulCreditReturn vc) s)

/-- A DTU with its tag sealed says HELLO and waits for ADMIT; ADMIT admits it with what it carries, NOT_READY leaves it
waiting, no common version and every other refusal end the attempt; while such a refusal holds no HELLO leaves. -/
def Obligations.DtuIsAdmittedByAdmit : Prop :=
  (∀ (s : State), s.dtu.host.sealed = true → s.dtu.host.refused = false → s.dtu.link.helloWait = false → 32 ≤ s.dtu.link.beatSum.getD 0 0 → s.dtu.canSend 0 1 48 = true →
    s.dtu.link.linkState = 1 →
    ∃ d f, DtuBecomes .helloSend s d ∧ d.link.linkState = 2 ∧ d.link.helloSeq = s.dtu.link.helloSeq + 1 ∧
      d.link.helloFirst = s.dtu.link.helloSeq ∧ d.link.wire = some f ∧ f.cls = 0 ∧ f.msg = 1 ∧ f.ethertype = 0x88B5 ∧
      f.dest = myAggMac ∧ f.body = s.dtu.helloBody ∧ d.host = s.dtu.host ∧ d.cells = s.dtu.cells)
  ∧ (∀ (s : State) (f : Frame), s.dtu.takes f → (s.dtu.taken f).admitSound f = true →
    wf f.body 0 31 24 = 0 →
    ∃ d, DtuBecomes (.admitMsg f) s d ∧ d.link.linkState = 3 ∧ d.link.admitted = true ∧ d.link.version = wf f.body 0 15 8 ∧
      d.link.fabricId.toNat = wf f.body 1 31 16 ∧ d.link.ethertype.toNat = wf f.body 1 15 0 ∧
      d.link.aggId.toNat = wf f.body 2 27 16 ∧ d.link.aggMac = f.src ∧ fld d.host.irqStatus 0 0 = 1 ∧
      (10 ≤ wf f.body 2 15 8 → wf f.body 2 15 8 ≤ 250 → fld d.link.ulRate 23 16 = wf f.body 2 15 8) ∧
      d.factory = decide (wf f.body 1 31 16 = 0xFFFF) ∧ d.cells = s.dtu.cells ∧ d.trace = s.dtu.trace ∧
      d.time = s.dtu.time)
  ∧ (∀ (s : State) (f : Frame), s.dtu.takes f → (s.dtu.taken f).admitSound f = true →
    wf f.body 0 31 24 = 1 → wf f.body 0 23 16 = 6 → DtuBecomes (.admitMsg f) s { s.dtu.taken f with
      link := { (s.dtu.taken f).link with version := wf f.body 0 15 8 } })
  ∧ (∀ (s : State) (f : Frame), s.dtu.takes f → (s.dtu.taken f).admitSound f = true →
    wf f.body 0 31 24 = 1 → wf f.body 0 23 16 = 5 →
    ∃ d, DtuBecomes (.admitMsg f) s d ∧ d.link.linkState = 4 ∧ d.link.version = 0 ∧ fld d.host.irqStatus 2 2 = 1 ∧
      d.link.admitted = s.dtu.link.admitted)
  ∧ (∀ (s : State), s.dtu.host.refused = true → s.dtu.portOn = true → s.dtu.link.linkState = 1 →
    DtuBecomes .helloSend s { s.dtu with link := { s.dtu.link with linkState := 5 } })
  ∧ ∀ (s : State) (f : Frame), s.dtu.takes f → (s.dtu.taken f).admitSound f = true →
    wf f.body 0 31 24 = 1 → wf f.body 0 23 16 < 5 →
    ∃ d, DtuBecomes (.admitMsg f) s d ∧ d.link.linkState = 5 ∧ d.host.refused = true ∧ fld d.host.irqStatus 3 3 = 1 ∧
      d.faults = s.dtu.faults ∧ d.link.admitted = s.dtu.link.admitted

/-- Link messages at a DTU: HELLO says that the peer is there, CREDIT fills the pools, ECHO goes back with its residence, a
reply gives a round trip, LINK_RESET resets the link, and CREDIT returns what has left the buffers. -/
def Obligations.DtuLinkMessagesTakeEffect : Prop :=
  (∀ (s : State) (p : Fin 82) (f : Frame), s.dtu.takes f → f.plen.toNat = 48 →
    DtuBecomes (.hello .dtu p f) s { s.dtu.taken f with
      link := { (s.dtu.taken f).link with peerSeen := true, peerVercap := word f.body 1 } })
  ∧ (∀ (s : State) (p : Fin 82) (f : Frame), s.dtu.takes f → f.plen.toNat = 40 →
    ∃ d, DtuBecomes (.credit .dtu p f) s d ∧ (∀ vc, vc < 4 → vc ≠ 2 → d.link.pools[vc]? =
        some (((s.dtu.taken f).link.pools.getD vc .initial).take (word f.body (1 + vc))).1) ∧
      (d.link.pools.getD 2 .initial).held = (decide (0x32 ≤ s.dtu.link.version) && bit (word f.body 0) 26) ∧
      d.link.vc0 = s.dtu.link.vc0 ∧ d.cells = s.dtu.cells ∧ d.host = s.dtu.host ∧ d.trace = s.dtu.trace)
  ∧ (∀ (s : State) (p : Fin 82) (die : BitVec 20), s.dtu.link.vc0 = [] → s.dtu.canSend 0 3 40 = true →
    ∃ d f, DtuBecomes (.creditSend .dtu p die) s d ∧ d.link.wire = some f ∧ f.cls = 0 ∧ f.msg = 3 ∧
      (∀ vc, vc < 4 → vc < s.dtu.link.pools.length →
        word f.body (1 + vc) = (s.dtu.link.pools.getD vc .initial).giveBack.given + 64) ∧
      d.link.creditOwed = false ∧ (∀ q ∈ d.link.pools, q.owed = []) ∧ d.cells = s.dtu.cells ∧ d.host = s.dtu.host)
  ∧ (∀ (s : State) (p : Fin 82) (f : Frame) (r : W), s.dtu.takes f → 8 ≤ f.plen.toNat →
    DtuBecomes (.echo .dtu p f r) s ((s.dtu.taken f).sendNow (mkTx 0 5 f.src 0xFFFF 0 f.plen.toNat (f.body.set 1 r))))
  ∧ (∀ (s : State) (p : Fin 82) (f : Frame) (e : W), s.dtu.takes f → 8 ≤ f.plen.toNat →
    s.dtu.link.echoes.any (fun x => x.1 == word f.body 0) = true → s.dtu.cmds.loop = none → s.dtu.link.rtt.length < 64 →
    ∃ d, DtuBecomes (.echoReply .dtu p f e) s d ∧ d.link.rtt = s.dtu.link.rtt ++ [e.toNat - (word f.body 1).toNat] ∧
      d.link.echoes = s.dtu.link.echoes.filter (fun x => x.1 != word f.body 0) ∧ d.cells = s.dtu.cells ∧
      d.host = s.dtu.host)
  ∧ ∀ (s : State) (p : Fin 82) (f : Frame), s.dtu.takes f → f.plen.toNat = 4 →
    ∃ d, DtuBecomes (.linkReset .dtu p f) s d ∧ d.link.linkState = 1 ∧ d.link.admitted = false ∧
      d.link.lseqTx = List.replicate 8 0 ∧ d.link.lseqRx = List.replicate 8 0 ∧ d.link.beatSum = [0, 0, 0, 0] ∧
      d.link.vc0 = s.dtu.link.vc0 ∧ d.cells = s.dtu.cells ∧ d.time = s.dtu.time ∧ d.digests = s.dtu.digests

/-! ### Frost, parameters and Husks at a DTU. -/

/-- ARM arms an idle DTU for its instant and stops it there; NOW stops it at once, once per frost_id; THAW lets it go on; an
armed one can be cancelled. Each message is acknowledged. -/
def Obligations.DtuFrostRuns : Prop :=
  (∀ (s : State) (f : Frame), s.dtu.takesFrost f → s.dtu.frost.state = 0 → s.dtu.nowNs < dword f.body 2 →
    DtuBecomes (.arm f) s (((s.dtu.taken f).armed (word f.body 0) (wf f.body 1 31 30 == 1) (dword f.body 2)).frostAck
      (word f.body 0) (wf f.body 1 31 30 == 1) 1))
  ∧ (∀ (s : State) (f : Frame), s.dtu.takesFrost f → s.dtu.frost.frostId = word f.body 0 → s.dtu.frost.state = 1 →
    ∃ d, DtuBecomes (.cancel f) s d ∧ d.frost.state = 0 ∧ d.frost.frostId = s.dtu.frost.frostId ∧ d.cells = s.dtu.cells ∧
      d.host = s.dtu.host ∧ d.time = s.dtu.time)
  ∧ (∀ (s : State), s.dtu.frost.state = 1 → s.dtu.mayReach s.dtu.frost.t = true → s.dtu.runs = true →
    s.dtu.nowNs ≤ s.dtu.frost.t → ∃ d, DtuBecomes (.frostStop .dtu) s d ∧ d.frost.state = 2 ∧ d.cells.frozen = true ∧
      d.frostReq = true ∧ d.trace.frozen = true ∧ fld d.host.irqStatus 8 8 = 1 ∧ d.frost.smear = false ∧
      d.frost.frostId = s.dtu.frost.frostId ∧ d.frost.snapshot.isSome = true ∧ d.frost.windowEnd.isSome = true ∧
      d.link = s.dtu.link ∧ d.health = s.dtu.health)
  ∧ (∀ (s : State) (p : Fin 82) (f : Frame), s.dtu.takesFrost f → s.dtu.frost.seen.contains (word f.body 0) = false →
    s.dtu.frost.state ≠ 2 → s.dtu.runs = true →
    ∃ d, DtuBecomes (.now .dtu p f) s d ∧ d.frost.state = 2 ∧ d.frost.frostId = word f.body 0 ∧ d.frost.smear = true ∧
      d.cells.frozen = true ∧ word f.body 0 ∈ d.frost.seen ∧ fld d.host.irqStatus 8 8 = 1 ∧ d.time = s.dtu.time)
  ∧ (∀ (s : State) (p : Fin 82) (f : Frame), s.dtu.takesFrost f → s.dtu.frost.seen.contains (word f.body 0) = true →
    DtuBecomes (.now .dtu p f) s ((s.dtu.taken f).frostAck (word f.body 0) (wf f.body 1 31 30 == 1) 3))
  ∧ (∀ (s : State) (f : Frame), s.dtu.takesFrost f → s.dtu.frost.frostId = word f.body 0 → s.dtu.frost.state = 2 →
    dword f.body 2 ≤ s.dtu.nowNs →
    ∃ d, DtuBecomes (.thaw f) s d ∧ d.frost.state = 0 ∧ d.cells = { s.dtu.cells with frozen := false } ∧
      d.trace = { s.dtu.trace with frozen := false } ∧ d.frost.snapshot = s.dtu.frost.snapshot ∧ d.host = s.dtu.host)
  ∧ (∀ (s : State) (t : Nat), s.dtu.frost.thawAt = some t → s.dtu.frost.state = 2 → s.dtu.mayReach t = true →
    ∃ d, DtuBecomes (.thawInstant .dtu) s d ∧ d.frost.state = 0 ∧ d.frost.thawAt = none ∧
      d.cells = { s.dtu.cells with frozen := false } ∧ d.trace = { s.dtu.trace with frozen := false } ∧
      d.host = s.dtu.host ∧ d.link = s.dtu.link)
  ∧ ∀ (s : State) (e : Nat), s.dtu.frost.windowEnd = some e → s.dtu.mayReach e = true →
    ∃ d, DtuBecomes (.captureWindowEnd .dtu) s d ∧ d.frost.windowEnd = none ∧ d.frost.capture = s.dtu.frost.capture ∧
      d.frost.snapshot = s.dtu.frost.snapshot ∧ d.cells = s.dtu.cells ∧ d.host = s.dtu.host ∧
      d.frost.cutComplete = (!s.dtu.frost.smear && !s.dtu.frost.lateArm && !s.dtu.frost.stepped && !s.dtu.frost.capFull &&
        !s.dtu.frost.spoiled && s.dtu.frost.timeState == 2 && !s.dtu.frost.lull)

/-- A scan request queues the sections of the snapshot held, and the frame that ends them; a Hail leaves once per frame. -/
def Obligations.DtuScansOutAndHails : Prop :=
  (∀ (s : State) (f : Frame), s.dtu.takesFrost f →
    ∃ d, DtuBecomes (.scanReq f) s d ∧ d.link.vc0 = s.dtu.link.vc0 ++
        scanFrames (fun m b n => s.dtu.toAgg clsFrost m b n) (word f.body 0)
          ((s.dtu.taken f).scanOut (word f.body 0) (wf f.body 4 31 0)) (wf f.body 5 31 0) ∧
      d.cells = s.dtu.cells ∧ d.frost.snapshot = s.dtu.frost.snapshot ∧ d.host = s.dtu.host)
  ∧ (∀ (s : State) (t v : BitVec 16) (n : Nat), s.dtu.hailDue = some n → s.dtu.mayReport = true →
    s.dtu.time.state = .locked → s.dtu.runs = true → s.dtu.injections = [] →
    s.dtu.link.vc0 = [] → s.dtu.canSend 1 3 32 = true →
    ∃ d f, DtuBecomes (.hailSend .dtu t v) s d ∧ d.hailDue = none ∧ d.hailSeq = s.dtu.hailSeq + 1 ∧
      d.link.wire = some f ∧ f.cls = 1 ∧ f.msg = 3 ∧ f.dest = s.dtu.link.aggMac ∧ wf f.body 1 19 0 = s.dtu.dieId ∧
      word f.body 2 = w32 n ∧ wf f.body 3 31 16 = s.dtu.health.temp.toNat ∧
      wf f.body 3 15 0 = s.dtu.health.vcore.toNat ∧ d.cells = s.dtu.cells ∧ d.host = s.dtu.host ∧ d.faults = s.dtu.faults)
  ∧ ∀ (s : State) (t v : BitVec 16), s.dtu.hailDue = none → LeavesAll (.hailSend .dtu t v) s

/-- A PARAM packet for a context the DTU holds, with its crc and in form, sets what waits for the next tick: a digest window or
cache entries, or a part of a band set; any other is counted and has no effect. -/
def Obligations.ParametersWaitForTheTick : Prop :=
  (∀ (s : State) (f : Frame) (e : SlotEntry), s.dtu.takes f →
    e = (s.dtu.taken f).fixSlot (wf f.body 0 23 21) ((s.dtu.taken f).cells.slots.getD (wf f.body 0 23 21) .initial).force →
    e.valid = true → e.ctx.toNat = wf f.body 0 15 0 → e.gen.toNat = wf f.body 1 31 24 →
    word f.body 7 = paramCrc f.body f.plen.toNat → paramSound f.body f.plen.toNat = true →
    (wf f.body 0 27 24 = 2 → ∃ d, DtuBecomes (.param f) s d ∧ d.digests = { s.dtu.digests with
        winWaiting := aPut s.dtu.digests.winWaiting (wf f.body 0 23 21) ((f.body.drop 8).take 4) } ∧
      d.cells = s.dtu.cells ∧ d.host = s.dtu.host) ∧
    (wf f.body 0 27 24 = 3 → ∃ d, DtuBecomes (.param f) s d ∧ d.cells = s.dtu.cells ∧ d.host = s.dtu.host ∧
      d.digests.cache = s.dtu.digests.cache ∧
      ∀ i, i < wf f.body 4 15 0 → aGet d.digests.cacheWaiting (wf f.body 4 31 16 + i) =
        some ((f.body.drop (8 + 4 * i)).take 4)) ∧
    (wf f.body 0 27 24 = 0 → ∀ bs, (aGetD s.dtu.cells.bands (wf f.body 0 23 21) .initial).takePart
        (extendFrame s.dtu.frameNow (wf f.body 2 31 0)) (wf f.body 1 23 16)
        (bandEntries f.body (wf f.body 4 31 16) (wf f.body 4 15 0)) = some bs →
      ∃ d, DtuBecomes (.param f) s d ∧ d.digests = s.dtu.digests ∧ d.host = s.dtu.host ∧
        d.cells = { s.dtu.cells with bands := aPut s.dtu.cells.bands (wf f.body 0 23 21) bs }))
  ∧ ∀ (s : State) (f : Frame), s.dtu.takes f → word f.body 7 ≠ paramCrc f.body f.plen.toNat →
    DtuBecomes (.param f) s { s.dtu.taken f with counters := bump (s.dtu.taken f).counters .stale 1 }

/-- Husks that read a DTU: identity, status, registers, cells and its Frost. Each answers at once and changes only the
counters it was told to clear and the reply it keeps. -/
def Obligations.DtuAnswersReadings : Prop :=
  (∀ (s : State) (h : HuskCmd) (d : Dtu), s.dtu.accepts .ident h → d = s.dtu.taken (s.dtu.huskFrame .ident h) →
    DtuDraws (.ident h) s (d.replyNow .ident h 0 0 (okPayload ([dtuIdent, d.vercap] ++ Memory.words d.host.tag 0 8)) true))
  ∧ (∀ (s : State) (h : HuskCmd) (d : Dtu), s.dtu.accepts .status h → d = s.dtu.taken (s.dtu.huskFrame .status h) →
    DtuDraws (.status h) s ((d.statusReply (huskP0 h) (bit h.w6 0)).1.replyNow .status h 0 0
      (d.statusReply (huskP0 h) (bit h.w6 0)).2 true))
  ∧ (∀ (s : State) (h : HuskCmd) (d : Dtu), s.dtu.accepts .regRead h → d = s.dtu.taken (s.dtu.huskFrame .regRead h) →
    d.regTest h false = none → fld h.w6 31 28 = 1 →
    DtuDraws (.regRead h) s (d.replyNow .regRead h 0 0 (okPayload ((regAddrs h).map d.cmdRead)) true))
  ∧ (∀ (s : State) (h : HuskCmd) (d : Dtu), s.dtu.accepts .regRead h → d = s.dtu.taken (s.dtu.huskFrame .regRead h) →
    d.regTest h false = none → fld h.w6 31 28 = 0 →
    DtuDraws (.regRead h) s (d.replyNow .regRead h 0 0
      (okPayload ((regAddrs h).map (fun a => (d.hostRead a).getD 0))) true))
  ∧ (∀ (s : State) (h : HuskCmd) (d : Dtu), s.dtu.accepts .cellSample h → d = s.dtu.taken (s.dtu.huskFrame .cellSample h) →
    1 ≤ huskP0 h → huskP0 h ≤ 64 →
    (∀ i, i < huskP0 h → wf (huskPay h) (i / 2) (if i % 2 = 0 then 31 else 15) (if i % 2 = 0 then 16 else 0) <
      64 * d.build.nClusters) →
    ∃ r, DtuDraws (.cellSample h) s (d.replyNow .cellSample h 0 0 r true) ∧ r.status = stOk ∧
      r.payload = ((List.range (huskP0 h)).map (fun i => wf (huskPay h) (i / 2) (if i % 2 = 0 then 31 else 15)
        (if i % 2 = 0 then 16 else 0))).flatMap d.cellNow)
  ∧ (∀ (s : State) (h : HuskCmd) (d : Dtu), s.dtu.accepts .frostQuery h → d = s.dtu.taken (s.dtu.huskFrame .frostQuery h) →
    DtuDraws (.frostQuery h) s (d.replyNow .frostQuery h 0 0 (okPayload [d.frostStatus]) true))
  ∧ ∀ (d : Dtu) (op : Opcode) (h : HuskCmd) (r : Result), (d.replyNow op h 0 0 r true).cells = d.cells ∧
    (d.replyNow op h 0 0 r true).host = d.host ∧ (d.replyNow op h 0 0 r true).trace = d.trace ∧
    (d.replyNow op h 0 0 r true).time = d.time ∧ (d.replyNow op h 0 0 r true).faults = d.faults

/-- Short Husks that change a DTU: registers, soft reset, frame reset, link reset, resync and fault injection. -/
def Obligations.DtuExecutesShortHusks : Prop :=
  (∀ (s : State) (h : HuskCmd) (d d' : Dtu), s.dtu.accepts .regWrite h → d = s.dtu.taken (s.dtu.huskFrame .regWrite h) →
    d.regTest h true = none →
    d.cmdWrites ((List.range (regAddrs h).length).map (fun i => (i, (regAddrs h).getD i 0, word (huskPay h) i))) = (d', none) →
    DtuDraws (.regWrite h) s ((d'.earn stOk).replyNow .regWrite h 0 0 (resultOf stOk) true))
  ∧ (∀ (s : State) (h : HuskCmd) (d d' : Dtu) (st i : Nat), s.dtu.accepts .regWrite h →
    d = s.dtu.taken (s.dtu.huskFrame .regWrite h) → d.regTest h true = none →
    d.cmdWrites ((List.range (regAddrs h).length).map (fun i => (i, (regAddrs h).getD i 0, word (huskPay h) i))) =
      (d', some (st, i)) →
    DtuDraws (.regWrite h) s ((d.earn st).replyNow .regWrite h 0 0 (failDetail st i) true))
  ∧ (∀ (s : State) (h : HuskCmd) (d : Dtu), s.dtu.accepts .softReset h → d = s.dtu.taken (s.dtu.huskFrame .softReset h) →
    DtuDraws (.softReset h) s (Dtu.replyNow { d with power := { d.power with softDue := true } } .softReset h 0 0
      (resultOf stOk) true))
  ∧ (∀ (s : State) (h : HuskCmd) (d : Dtu), s.dtu.accepts .frameReset h → d = s.dtu.taken (s.dtu.huskFrame .frameReset h) →
    ∃ d' r, DtuDraws (.frameReset h) s d' ∧ d' = d.frameReset.replyNow .frameReset h 0 0 r true ∧ r.status = stOk ∧
      d'.cells.values = [] ∧ d'.trace.events = [] ∧ d'.trace.taps = [] ∧ d'.cells.cfg = s.dtu.cells.cfg ∧
      d'.cells.retention = s.dtu.cells.retention ∧ d'.host = s.dtu.host)
  ∧ (∀ (s : State) (h : HuskCmd), s.dtu.accepts .linkResetCmd h →
    ∃ d, DtuDraws (.linkResetCmd h) s d ∧ d.link.linkState = 1 ∧ d.link.admitted = false ∧
      d.link.lseqTx = List.replicate 8 0 ∧ d.link.lseqRx = List.replicate 8 0 ∧ d.cells = s.dtu.cells ∧
      d.time = s.dtu.time)
  ∧ (∀ (s : State) (h : HuskCmd) (d : Dtu), s.dtu.accepts .timeResync h → d = s.dtu.taken (s.dtu.huskFrame .timeResync h) →
    (∀ k, 1 ≤ k → k < 8 → (d.cells.slots.getD k .initial).force.valid = false) →
    DtuDraws (.timeResync h) s (Dtu.replyNow { d with time := d.time.resync } .timeResync h 0 0 (resultOf stOk) true))
  ∧ (∀ (s : State) (h : HuskCmd) (d : Dtu), s.dtu.accepts .faultInject h → d = s.dtu.taken (s.dtu.huskFrame .faultInject h) →
    fld h.w5 31 24 = 0x24 →
    DtuDraws (.faultInject h) s (Dtu.replyNow { d with
        injections := d.injections ++ [{ code := 0x24, n := fld h.w5 23 0, param := 0, payload := [] }]
        injected := min 0xFFFF (d.injected + 1) } .faultInject h 0 0 (resultOf stOk) true))

/-- Long Husks of a DTU: each takes one of its 16 places, says so, and starts; a seventeenth is refused. -/
def Obligations.DtuStartsLongHusks : Prop :=
  (∀ (s : State) (h : HuskCmd) (d : Dtu), s.dtu.accepts .margin h → d = s.dtu.taken (s.dtu.huskFrame .margin h) →
    (huskP0 h = 1 ∨ huskP0 h = 2) → d.cmds.longs.length < 16 → d.health.driving = none → d.health.waiting = [] →
    d.health.acked = false →
    ∃ d' r, DtuDraws (.margin h) s d' ∧ d'.health.driving = some r ∧ r.code = huskP0 h ∧ r.commanded = true ∧
      huskHandle h ∈ r.handles ∧ (∃ l ∈ d'.cmds.longs, l.handle = huskHandle h) ∧ d'.cells = s.dtu.cells ∧
      d'.host = s.dtu.host)
  ∧ (∀ (s : State) (h : HuskCmd) (d : Dtu), s.dtu.accepts .retainReplay h →
    d = s.dtu.taken (s.dtu.huskFrame .retainReplay h) → d.cmds.longs.length < 16 →
    extendFrame d.frameNow (huskP0 h) ≤ extendFrame d.frameNow (huskP1 h) →
    ∃ d', DtuDraws (.retainReplay h) s d' ∧ (∃ l ∈ d'.cmds.longs, l.handle = huskHandle h) ∧
      d'.cells.retention = s.dtu.cells.retention ∧ d'.host = s.dtu.host ∧ d'.trace = s.dtu.trace)
  ∧ (∀ (s : State) (h : HuskCmd) (d : Dtu) (op : Opcode), (op = .traceFlush ∨ op = .traceSave) → s.dtu.accepts op h →
    d = s.dtu.taken (s.dtu.huskFrame op h) → d.cmds.longs.length < 16 →
    ∃ d', DtuDraws (if op = .traceFlush then .traceFlush h else .traceSave h) s d' ∧
      (∃ l ∈ d'.cmds.longs, l.handle = huskHandle h) ∧ d'.host = s.dtu.host ∧ d'.cells = s.dtu.cells ∧
      (op = .traceSave → s.dtu.trace.waits = [] → s.dtu.trace.starved = false → s.dtu.trace.fullStop = false →
        s.dtu.trace.openRecs = [] → s.dtu.trace.raw = [] → d'.trace.image.valid = true ∧ d'.trace.enabled = false))
  ∧ (∀ (s : State) (h : HuskCmd) (d : Dtu), s.dtu.accepts .traceRestore h →
    d = s.dtu.taken (s.dtu.huskFrame .traceRestore h) → d.cmds.longs.length < 16 → d.trace.enabled = false →
    d.trace.image.sound = true →
    ∃ d', DtuDraws (.traceRestore h) s d' ∧ d'.trace.restored = true ∧ d'.trace.image = .none ∧
      d'.trace.stream = wf d.trace.image.header 1 31 24 ∧ d'.trace.seq = wf d.trace.image.header 1 23 0 ∧
      d'.trace.history = d.trace.image.window ∧ d'.host = s.dtu.host ∧ d'.cells = s.dtu.cells)
  ∧ (∀ (s : State) (h : HuskCmd) (d : Dtu), s.dtu.accepts .loopTest h → d = s.dtu.taken (s.dtu.huskFrame .loopTest h) →
    d.cmds.longs.length < 16 → d.cmds.loop = none → huskP0 h = 4 →
    ∃ d' l, DtuDraws (.loopTest h) s d' ∧ d'.cmds.loop = some l ∧ l.handle = huskHandle h ∧ l.depth = 4 ∧
      d'.link.echoes.length = 64 ∧ d'.link.rtt = [] ∧ d'.cells = s.dtu.cells)
  ∧ ∀ (s : State) (h : HuskCmd) (d : Dtu), s.dtu.accepts .margin h → d = s.dtu.taken (s.dtu.huskFrame .margin h) →
    16 ≤ d.cmds.longs.length →
    DtuDraws (.margin h) s (d.replyNow .margin h 0 0 (resultOf stDtuBusy) true)

/-! ### Husks that the ZA40 answers. -/

/-- Husks that read the ZA40: identity, status, registers, handles, sync objects, results kept, liveness, faults and the Frost.
Each is answered at once; a status read clears what it was told to, and a read of the ECC status what it returned. -/
def Obligations.ZaAnswersReadings : Prop :=
  (∀ (s : State) (h : HuskCmd) (z : Za), s.za.accepts .ident h → z = s.za.met .ident h →
    ZaDraws (.ident h) s (z.answered .ident h
      (okPayload ([zaIdent, zaVercap, z.bootStatus, z.boot.fwVersion] ++ z.tag.words 0 8))))
  ∧ (∀ (s : State) (h : HuskCmd) (z : Za), s.za.accepts .status h → z = s.za.met .status h → bit h.w6 0 = false →
    ∃ r, ZaDraws (.status h) s (z.answered .status h r) ∧ r.status = stOk ∧ (z.statusReply h) = (z, some r))
  ∧ (∀ (s : State) (h : HuskCmd) (z : Za), s.za.accepts .regRead h → z = s.za.met .regRead h → z.regTest h = none →
    0x2004 ∉ regAddrs h →
    ZaDraws (.regRead h) s (z.answered .regRead h (okPayload ((regAddrs h).map z.mgmtRead))))
  ∧ (∀ (s : State) (h : HuskCmd) (z : Za), s.za.accepts .regRead h → z = s.za.met .regRead h → z.regTest h = none →
    0x2004 ∈ regAddrs h →
    ZaDraws (.regRead h) s (z.eccClear.answered .regRead h (okPayload ((regAddrs h).map z.mgmtRead))))
  ∧ (∀ (s : State), s.za.running = true → ZaBecomes .eccStatusRead s { s.za with
      ecc := { s.za.ecc with corrected := 0, uncorrectable := 0 } })
  ∧ (∀ (s : State) (h : HuskCmd) (z : Za) (x : Handle), s.za.accepts .handleQuery h → z = s.za.met .handleQuery h →
    z.cmds.retained = [] → z.handle? (huskHandle h) = some x → x.done = none → x.parked = false → z.isParked x = false →
    ZaDraws (.handleQuery h) s (z.answered .handleQuery h (okValue 2)))
  ∧ (∀ (s : State) (h : HuskCmd) (z : Za) (o : SyncObj), s.za.accepts .syncRead h → z = s.za.met .syncRead h →
    huskP1 h = 1 → z.ownObj h (huskP0 h) = some o →
    ZaDraws (.syncRead h) s (z.answered .syncRead h (okPayload (twoWords o.value ++ [pack [(b2n o.overflow, 31, 31)], 0]))))
  ∧ (∀ (s : State) (h : HuskCmd) (z : Za) (e : Nat) (c : Ctx) (k : Kept), s.za.accepts .resultHistory h →
    z = s.za.met .resultHistory h → z.cmdCtx h = some (e, c) →
    z.kept.find? (fun x => x.entry == e && x.result.frame % 2 ^ 32 == huskP0 h && x.result.index == huskP1 h) = some k →
    ZaDraws (.resultHistory h) s (z.answered .resultHistory h
      (okPayload ((k.result.words.take 16) ++ k.result.entries.flatMap Absence.words))))
  ∧ (∀ (s : State) (h : HuskCmd) (z : Za), s.za.accepts .liveQuery h → z = s.za.met .liveQuery h →
    huskP0 h ≤ 255 → 1 ≤ huskP1 h → huskP0 h + huskP1 h ≤ 256 →
    ZaDraws (.liveQuery h) s (z.answered .liveQuery h
      (okPayload ((List.range (huskP1 h)).map (fun i => z.liveWord (huskP0 h + i))))))
  ∧ (∀ (s : State) (h : HuskCmd) (z : Za), s.za.accepts .faultLog h → z = s.za.met .faultLog h → 1 ≤ huskP1 h →
    huskP1 h ≤ 32 → ZaDraws (.faultLog h) s (z.answered .faultLog h
      (okPayload (((z.faultLog.drop (huskP0 h)).take (huskP1 h)).flatMap (fun e => e.record ++ e.ext)))))
  ∧ (∀ (s : State) (h : HuskCmd) (z : Za), s.za.accepts .frostQuery h → z = s.za.met .frostQuery h →
    ZaDraws (.frostQuery h) s (z.answered .frostQuery h (okPayload [z.frostStatus])))
  ∧ ∀ (z : Za) (op : Opcode) (h : HuskCmd) (r : Result), (z.answered op h r).ctxs = z.ctxs ∧
    (z.answered op h r).syncs = z.syncs ∧ (z.answered op h r).dies = z.dies ∧ (z.answered op h r).works = z.works ∧
    (z.answered op h r).tag = z.tag ∧ (z.answered op h r).regs = z.regs ∧ (z.answered op h r).time = z.time ∧
    (z.answered op h r).models = z.models ∧ (z.answered op h r).counters = z.counters

/-- Husks that set up the ZA40: registers, tag, power limits, rack, claims, link resets, time steps, resync, and who is told of a
context's events. The registers of the rows that write one word are written by the same rules, and keep the status they earn. -/
def Obligations.ZaIsConfiguredByCommand : Prop :=
  (∀ (s : State) (h : HuskCmd) (z z' : Za), s.za.accepts .regWrite h → z = s.za.met .regWrite h → z.regTest h = none →
    z.mgmtWrites ((List.range (regAddrs h).length).map (fun i => (i, (regAddrs h).getD i 0, word (huskPay h) i))) = (z', none) →
    ZaDraws (.regWrite h) s ((z'.earn stOk).answered .regWrite h (resultOf stOk)))
  ∧ (∀ (s : State) (h : HuskCmd) (z z' : Za) (st i : Nat), s.za.accepts .regWrite h → z = s.za.met .regWrite h →
    z.regTest h = none →
    z.mgmtWrites ((List.range (regAddrs h).length).map (fun i => (i, (regAddrs h).getD i 0, word (huskPay h) i))) =
      (z', some (st, i)) → ZaDraws (.regWrite h) s ((z.earn st).answered .regWrite h (failDetail st i)))
  ∧ (∀ (s : State) (h : HuskCmd) (z : Za), s.za.accepts .tagWrite h → z = s.za.met .tagWrite h → 0x10 ≤ huskP0 h →
    huskP0 h ≤ 0xFF → 1 ≤ huskP1 h → huskP1 h ≤ 240 → huskP0 h + huskP1 h ≤ 0x100 →
    ZaDraws (.tagWrite h) s (Za.answered { z with
      tag := z.tag.writeBytes (huskP0 h) ((bytesOf (huskPay h)).take (huskP1 h)) } .tagWrite h (resultOf stOk)))
  ∧ (∀ (s : State) (h : HuskCmd) (z : Za), s.za.accepts .pwrLimit h → z = s.za.met .pwrLimit h → 400 ≤ huskP0 h →
    huskP0 h ≤ 820 → 70 ≤ huskP1 h → huskP1 h ≤ 105 →
    ZaDraws (.pwrLimit h) s (Za.answered { z with power := { z.power with
      cfgNext := some (pack [(huskP0 h, 31, 22), (huskP1 h, 21, 14)]) } } .pwrLimit h (resultOf stOk)))
  ∧ (∀ (s : State) (h : HuskCmd) (z : Za), s.za.accepts .rackSet h → z = s.za.met .rackSet h → 1 ≤ huskP0 h →
    huskP0 h ≤ 64 →
    ∃ z', ZaDraws (.rackSet h) s z' ∧ z'.rack.units.map (·.agg) = (huskPay h).map (fun w => fld w 11 0) ∧
      z'.rack.units.map (·.candidate) = (huskPay h).map (fun w => bit w 31) ∧
      z'.rack.units.map (·.priority) = (huskPay h).map (fun w => fld w 23 16) ∧ z'.rack.failover = false ∧
      z'.dies = z.dies ∧ z'.ctxs = z.ctxs)
  ∧ (∀ (s : State) (h : HuskCmd) (z : Za), s.za.accepts .liveClaim h → z = s.za.met .liveClaim h → 1 ≤ huskP0 h →
    huskP0 h ≤ 256 → (∀ w ∈ huskPay h, (z.die? (fld w 19 0)).isSome = true) →
    ∃ z', ZaDraws (.liveClaim h) s z' ∧ z'.dies.map (·.die) = z.dies.map (·.die) ∧ z'.ctxs = z.ctxs ∧
      (∀ w, huskPay h = [w] → ∃ d, z'.die? (fld w 19 0) = some d ∧ d.claim = fld w 31 30))
  ∧ (∀ (s : State) (h : HuskCmd) (z : Za), s.za.accepts .linkResetCmd h → z = s.za.met .linkResetCmd h → huskP0 h < 82 →
    z.linkOn (huskP0 h) = true →
    ZaDraws (.linkResetCmd h) s (Za.answered { z with cmds := { z.cmds with
      linkResets := (z.cmds.linkResets ++ [huskP0 h]).eraseDups } } .linkResetCmd h (resultOf stOk)))
  ∧ (∀ (s : State) (h : HuskCmd) (z : Za), s.za.accepts .timeStep h → z = s.za.met .timeStep h →
    (ofTwos 64 (dword (huskPay h) 0)).natAbs < 2 ^ 40 → z.time.plusTwo ≤ z.frameOf (huskP0 h) →
    (0 ≤ stepWhole (ofTwos 64 (dword (huskPay h) 0)) ∨ z.jobs = []) →
    ∃ a : ArmedStep, a.frame = z.frameOf (huskP0 h) ∧ a.s = ofTwos 64 (dword (huskPay h) 0) ∧
      ZaDraws (.timeStep h) s (Za.answered { z with
        time := { z.time with armed := some a }, ptp := { z.ptp with refused := none } } .timeStep h (resultOf stOk)))
  ∧ (∀ (s : State) (h : HuskCmd) (z : Za), s.za.accepts .timeResync h → z = s.za.met .timeResync h → z.jobs = [] →
    ZaDraws (.timeResync h) s (Za.answered { z with time := z.time.resync } .timeResync h (resultOf stOk)))
  ∧ (∀ (s : State) (h : HuskCmd) (z : Za) (e : Nat) (c : Ctx), s.za.accepts .subscribe h → z = s.za.met .subscribe h →
    z.cmdCtx h = some (e, c) →
    let rest := c.subs.filter (fun x => !(x.1 == h.req.addr && x.2.1 == h.req.keomon))
    ZaDraws (.subscribe h) s ((z.modCtx e (fun x => { x with
      subs := if huskP0 h = 0 then rest else rest ++ [(h.req.addr, h.req.keomon, huskP0 h)] })).answered .subscribe h
      (resultOf stOk)))
  ∧ (∀ (s : State) (p : Fin 82) (w : W), s.za.running = true → fld w 30 20 = 0 → fld w 15 6 = 0 → bit w 31 = true →
    fld w 5 0 ≤ 32 → (s.za.pendingGates p.val w).wf (decide (80 ≤ p.val)) = true →
    s.za.gclFits p.val (s.za.pendingGates p.val w) = true →
    ∃ z, ZaBecomes (.gclCommit p w) s z ∧ (z.link p.val).gatesNext = some (s.za.pendingGates p.val w) ∧
      (z.link p.val).gates = (s.za.link p.val).gates ∧ z.cmds.regStatus = stOk ∧ z.dies = s.za.dies)
  ∧ (∀ (s : State) (p : Fin 82) (c : Fin 8) (k : Fin 2) (w : W), s.za.running = true →
    rateStatus false k.val w = stOk →
    ∃ z, ZaBecomes (.shaperChange p c k w) s z ∧ z.reg (0x50000 + 64 * p.val + 8 * c.val + 4 * k.val) = w ∧
      z.links = s.za.links ∧ z.cmds.regStatus = stOk ∧ z.dies = s.za.dies)
  ∧ (∀ (s : State) (P : Fin 42) (w : W), s.za.running = true → s.za.portStatus P.val w = stOk → P.val < 40 →
    ∃ z, ZaBecomes (.portConfigWrite P w) s z ∧ z.portW0 P.val = w ∧ z.cmds.regStatus = stOk ∧ z.ctxs = s.za.ctxs ∧
      z.tag = s.za.tag)
  ∧ (∀ (s : State) (m : Fin 16) (k : Fin 5) (w : W) (t : Trigger), s.za.running = true → m.val < s.za.marks.length →
    triggerStatus (s.za.marks.getD m.val (.initial 0)) k.val w (decide (fld w 29 16 = 0 ∧ fld w 5 0 = 0))
      (decide (fld w 15 8 ≤ 39 ∧ fld w 7 6 ≠ 3)) 16384 = stOk →
    (s.za.marks.getD m.val (.initial 0)).write s.za.nowNs k.val w = some t →
    ∃ z, ZaBecomes (.markArm m k w) s z ∧ z.marks = s.za.marks.set m.val t ∧ z.cmds.regStatus = stOk ∧
      z.links = s.za.links)

/-- Sync objects: allocated from the lowest free, set, raised, bound and freed by their owner; a wait that its object meets
completes, another parks, and a parked command is cancelled. -/
def Obligations.SyncObjectsFollowTheirOwner : Prop :=
  (∀ (s : State) (h : HuskCmd) (z : Za) (e : Nat) (c : Ctx), s.za.accepts .syncAlloc h → z = s.za.met .syncAlloc h →
    z.cmdCtx h = some (e, c) → 1 ≤ huskP0 h → huskP0 h ≤ 2048 → z.syncHeld c + huskP0 h ≤ c.q.sync →
    z.syncs.length + huskP0 h ≤ 131072 →
    ∃ (r : Result) (o : SyncObj), r.status = stOk ∧ o.value = 0 ∧ o.overflow = false ∧ o.ctx = c.id ∧ o.gen = c.gen ∧
      o.source = none ∧ ZaDraws (.syncAlloc h) s (Za.answered { z with
        syncs := z.syncs ++ (z.freeObjs (huskP0 h)).map (fun i => (i, o)) } .syncAlloc h r))
  ∧ (∀ (s : State) (h : HuskCmd) (z : Za) (o : SyncObj), s.za.accepts .syncSet h → z = s.za.met .syncSet h →
    z.ownObj h (huskP0 h) = some o →
    ZaDraws (.syncSet h) s ((z.modSync (huskP0 h) (fun o => { o with value := dword (huskPay h) 0 })).answered .syncSet h
      (resultOf stOk)))
  ∧ (∀ (s : State) (h : HuskCmd) (z : Za) (o : SyncObj), s.za.accepts .syncAdd h → z = s.za.met .syncAdd h →
    z.ownObj h (huskP0 h) = some o → 1 ≤ huskP1 h → z.waits = [] →
    ∃ z', ZaDraws (.syncAdd h) s z' ∧ z'.sync? (huskP0 h) = some (if 2 ^ 64 ≤ o.value + huskP1 h
      then { o with value := 2 ^ 64 - 1, overflow := true } else { o with value := o.value + huskP1 h }) ∧
      (∀ i, i ≠ huskP0 h → z'.sync? i = z.sync? i) ∧ z'.waits = [] ∧ z'.ctxs = z.ctxs)
  ∧ (∀ (s : State) (h : HuskCmd) (z : Za) (o : SyncObj) (src : Option SyncSource), s.za.accepts .syncBind h →
    z = s.za.met .syncBind h → z.ownObj h (huskP0 h) = some o → bindSource h = some src →
    (∀ x, src = some (.handle x) → (z.handle? x).isSome = true) →
    z.syncs.countP (fun (p : Nat × SyncObj) => p.1 != huskP0 h && p.2.ctx == o.ctx && p.2.gen == o.gen &&
      p.2.source == src) < 16 →
    ZaDraws (.syncBind h) s (Za.answered { z with syncs := aPut z.syncs (huskP0 h) { o with source := src } } .syncBind h
      (resultOf stOk)))
  ∧ (∀ (s : State) (h : HuskCmd) (z : Za) (o : SyncObj), s.za.accepts .syncFree h → z = s.za.met .syncFree h →
    huskP1 h = 1 → huskP0 h < 131072 → z.ownObj h (huskP0 h) = some o → z.waits = [] →
    ∃ z', ZaDraws (.syncFree h) s z' ∧ z'.syncs = z.syncs.filter (fun p => p.1 != huskP0 h) ∧ z'.ctxs = z.ctxs ∧
      z'.dies = z.dies)
  ∧ (∀ (s : State) (h : HuskCmd) (z : Za) (handle : W) (o : SyncObj), s.za.begins .syncWait h z handle →
    z.ownObj h (huskP0 h) = some o → o.value < dword (huskPay h) 0 →
    ZaDraws (.syncWait h) s (Za.accepted { z with
      waits := z.waits ++ [{ handle, obj := huskP0 h, v := dword (huskPay h) 0, order := z.cmds.order }] } .syncWait h handle))
  ∧ (∀ (s : State) (h : HuskCmd) (z : Za) (handle : W) (o : SyncObj), s.za.begins .syncWait h z handle →
    z.ownObj h (huskP0 h) = some o → dword (huskPay h) 0 ≤ o.value →
    ZaDraws (.syncWait h) s ((z.finish handle (resultOf stOk)).accepted .syncWait h handle))
  ∧ (∀ (s : State) (h : HuskCmd) (z : Za) (x : Handle), s.za.accepts .handleCancel h → z = s.za.met .handleCancel h →
    z.handle? (huskHandle h) = some x → x.done = none → z.isParked x = true →
    ZaDraws (.handleCancel h) s ((z.finishWhere (fun y => y.handle == x.handle) true (resultOf stCancelled)).answered
      .handleCancel h (resultOf stOk)))

/-! ### Contexts, their plans and their weights in the ZA40. -/

/-- A context is admitted into the lowest free entry when its tests pass and its S is not too early; it is torn down at a D that is
not too early, and its slots on the tray's DTUs end there; its quotas change at once. A refused command is answered with its reason
and leaves no handle. -/
def Obligations.ContextsAreAdmittedAndTornDown : Prop :=
  (∀ (s : State) (h : HuskCmd) (z : Za) (handle : W) (e : Nat) (q : Quotas), s.za.begins .ctxAdmit h z handle →
    q = quotasOf (huskPay h) → z.factory = false → z.admitTest (huskCtx h) (huskGen h) (z.frameOf (huskP0 h)) = none →
    z.time.plusTwo ≤ z.frameOf (huskP0 h) → quotaForm q = none → z.freeEntry = some e →
    z.quotaFault (z.quotasWith e q) = none → z.schedFault z.checkEvery (z.quotasWith e q) = none →
    ZaDraws (.ctxAdmit h) s (Za.accepted { z with
      ctxs := aPut z.ctxs e (Ctx.fresh (huskCtx h) (huskGen h) (z.frameOf (huskP0 h)) q handle) } .ctxAdmit h handle))
  ∧ (∀ (s : State) (h : HuskCmd) (z : Za) (handle : W), s.za.begins .ctxAdmit h z handle →
    z.factory = false → z.admitTest (huskCtx h) (huskGen h) (z.frameOf (huskP0 h)) = none →
    z.frameOf (huskP0 h) < z.time.plusTwo →
    ZaDraws (.ctxAdmit h) s ((z.untake (s.za.met .ctxAdmit h)).answered .ctxAdmit h
      (failValue stFrontEarly (z.time.plusTwo % 2 ^ 32))))
  ∧ (∀ (s : State) (h : HuskCmd) (z : Za) (handle : W) (e : Nat) (c : Ctx), s.za.begins .ctxTeardown h z handle →
    z.cmdCtx h = some (e, c) → c.id ≠ 0 → c.stop = none → z.earliest c ≤ z.frameOf (huskP0 h) →
    ∃ t c', ZaDraws (.ctxTeardown h) s t ∧ t.ctx? e = some c' ∧ c'.stop = some (z.frameOf (huskP0 h)) ∧
      c'.tearHandle = handle ∧ c'.state = c.state ∧ c'.q = c.q ∧ c'.members = c.members ∧
      (∀ k, k ≠ e → t.ctx? k = z.ctx? k) ∧ t.syncs = z.syncs ∧ t.cmds.handles = z.cmds.handles ∧
      (∀ d ∈ t.dies, ∀ x ∈ d.slots, x.ctx = c.id → x.gen = c.gen → ∃ l, x.last = some l ∧ l ≤ z.frameOf (huskP0 h)))
  ∧ (∀ (s : State) (h : HuskCmd) (z : Za) (handle : W) (e : Nat) (c : Ctx), s.za.begins .ctxTeardown h z handle →
    z.cmdCtx h = some (e, c) → c.id ≠ 0 → c.stop = none → z.frameOf (huskP0 h) < z.earliest c →
    ZaDraws (.ctxTeardown h) s ((z.untake (s.za.met .ctxTeardown h)).answered .ctxTeardown h
      (failValue stFrontEarly (z.earliest c % 2 ^ 32))))
  ∧ (∀ (s : State) (h : HuskCmd) (z : Za) (handle : W) (e : Nat) (c : Ctx), s.za.begins .ctxTeardown h z handle →
    z.cmdCtx h = some (e, c) → c.id = 0 ∨ c.stop.isSome = true →
    ZaDraws (.ctxTeardown h) s ((z.untake (s.za.met .ctxTeardown h)).answered .ctxTeardown h
      (if c.id = 0 then failDetail stBadParam 4 else badP0)))
  ∧ (∀ (s : State) (h : HuskCmd) (z : Za) (e : Nat) (c : Ctx) (q : Quotas), s.za.accepts .ctxQuota h →
    z = s.za.met .ctxQuota h → z.cmdCtx h = some (e, c) → q = quotasOf (huskPay h) → quotaForm q = none →
    z.quotaFault (z.quotasWith e q) = none →
    (c.q.ensCost < q.ensCost ∨ c.q.tensorCost < q.tensorCost ∨ c.q.featCost < q.featCost ∨ c.q.detCost < q.detCost →
      z.schedFault z.checkEvery (z.quotasWith e q) = none) →
    (z.quotaReached e c q = none →
      ZaDraws (.ctxQuota h) s ((z.modCtx e (fun x => { x with q })).answered .ctxQuota h (resultOf stOk))) ∧
    (∀ k, z.quotaReached e c q = some k →
      ZaDraws (.ctxQuota h) s (z.answered .ctxQuota h (failDetail stQuotaReached k))))

/-- What a command names a Front for waits for it: the joins, leaves and moves of a MEMBERSHIP, a Pod plan, a detector plan, and a
feature plan once its last part is there; staged parts expire 64 frames after the last of them. -/
def Obligations.PlansWaitForTheirFront : Prop :=
  (∀ (s : State) (h : HuskCmd) (z ended : Za) (handle : W) (e f : Nat) (c : Ctx), s.za.begins .membership h z handle →
    z.cmdCtx h = some (e, c) → f = (if huskP0 h = 0 then z.earliest c else z.frameOf (huskP0 h)) →
    ended = (memberEntries h).foldl (fun z x => z.endEntry c f (c.membersAt f) x) z → 1 ≤ huskP1 h → z.earliest c ≤ f →
    (memberEntries h).find? (fun x => c.changes.any (fun y => y.front == f && y.rank == x.rank)) = none →
    entryFault (c.membersAt f) (memberEntries h) = none →
    (∀ x ∈ memberEntries h, x.op ≠ 1 → ∀ d, ended.die? x.die = some d → (d.slotFor c.id f).isSome = true) →
    ∃ t c', ZaDraws (.membership h) s t ∧ t.ctx? e = some c' ∧ c'.members = c.members ∧
      c'.changes = c.changes ++
        (memberEntries h).map (fun x => { front := f, op := x.op, rank := x.rank, die := x.die, handle }) ∧
      (∀ k, k ≠ e → t.ctx? k = z.ctx? k) ∧ t.syncs = z.syncs ∧ t.cmds.handles = z.cmds.handles)
  ∧ (∀ (s : State) (h : HuskCmd) (z : Za) (handle : W) (e : Nat) (c : Ctx), s.za.begins .podPlan h z handle →
    z.cmdCtx h = some (e, c) → firstIdx (podPlanOf (huskPay h)).hists (histFault (podPlanOf (huskPay h))) = none →
    (∀ n, n < 4096 → mapCellForm (wf (huskPay h) (66 + n / 2) (if n % 2 = 0 then 31 else 15) (if n % 2 = 0 then 16 else 0)) =
      stOk) → z.earliest c ≤ z.frameOf (huskP0 h) → c.pending = [] →
    ∃ t c', ZaDraws (.podPlan h) s t ∧ t.ctx? e = some c' ∧ c'.plans = c.plans ∧
      c'.pending = [{ kind := .pod, front := z.frameOf (huskP0 h), words := huskPay h, handle }] ∧
      (∀ k, k ≠ e → t.ctx? k = z.ctx? k))
  ∧ (∀ (s : State) (h : HuskCmd) (z : Za) (handle : W) (e : Nat) (c : Ctx), s.za.begins .detPlan h z handle →
    z.cmdCtx h = some (e, c) →
    firstIdx (descsOf 8 (huskPay h)) (fun d => detBad (c.featAt (detTile d) (z.frameOf (huskP0 h))) d) = none →
    detPasses (z.viewAt c (z.frameOf (huskP0 h)) 0) (descsOf 8 (huskPay h)) ≤ c.q.detCost →
    z.statePages e (descsOf 8 (huskPay h)) ≤ 3968 → z.earliest c ≤ z.frameOf (huskP0 h) → c.pending = [] →
    ∃ t c', ZaDraws (.detPlan h) s t ∧ t.ctx? e = some c' ∧ c'.plans = c.plans ∧
      c'.pending = [{ kind := .det, front := z.frameOf (huskP0 h), words := huskPay h, handle }] ∧
      (∀ k, k ≠ e → t.ctx? k = z.ctx? k))
  ∧ (∀ (s : State) (h : HuskCmd) (z : Za) (e : Nat) (c : Ctx), s.za.accepts .featPlan h → z = s.za.met .featPlan h →
    z.cmdCtx h = some (e, c) → bit h.w6 31 = false → fld h.w6 27 16 = 0 → fld h.w6 12 0 ≤ 4096 →
    (huskPay h).length ≤ 4 * fld h.w6 12 0 → c.staging = [] →
    ∃ t c', ZaDraws (.featPlan h) s t ∧ t.ctx? e = some c' ∧ c'.pending = c.pending ∧
      c'.staging = [{ tile := bit h.w6 30, front := z.frameOf (huskP0 h), total := fld h.w6 12 0, words := huskPay h,
                      at_ := z.time.begun }] ∧ (∀ k, k ≠ e → t.ctx? k = z.ctx? k))
  ∧ (∀ (s : State) (h : HuskCmd) (z : Za) (handle : W) (e : Nat) (c : Ctx), s.za.begins .featPlan h z handle →
    z.cmdCtx h = some (e, c) → bit h.w6 31 = true → fld h.w6 27 16 = 0 → fld h.w6 12 0 ≤ 4096 →
    (huskPay h).length = 4 * fld h.w6 12 0 → c.staging = [] → z.areasOf e = [] →
    featPlanFault (c.podAt (z.frameOf (huskP0 h))) (bit h.w6 30) (descsOf 4 (huskPay h)) = none →
    z.earliest c ≤ z.frameOf (huskP0 h) → c.pending = [] →
    ∃ t c', ZaDraws (.featPlan h) s t ∧ t.ctx? e = some c' ∧ c'.staging = [] ∧ c'.plans = c.plans ∧
      c'.pending.map (fun p => (p.front, p.words, p.handle)) = [(z.frameOf (huskP0 h), huskPay h, handle)] ∧
      (∀ k, k ≠ e → t.ctx? k = z.ctx? k))
  ∧ (∀ (s : State) (e : Fin 1024) (tile : Bool) (c : Ctx), s.za.ctx? e.val = some c →
    ZaBecomes (.featPlanStagingExpiry e tile) s { s.za with ctxs := aPut s.za.ctxs e.val { c with
      staging := c.staging.filter (fun x => !(x.tile == tile && decide (x.at_ + 64 ≤ s.za.time.begun))) } })
  ∧ (∀ (s : State) (h : HuskCmd) (z : Za) (e : Nat) (c : Ctx), s.za.accepts .detReset h → z = s.za.met .detReset h →
    z.cmdCtx h = some (e, c) → huskP0 h ≤ 31 → (∀ k ∈ huskPay h, bit k 26 = true ∨ fld k 25 20 = 0) →
    ∀ r, z.detRecs = [r] → r.entry = e → r.det = huskP0 h → (huskP1 h % 2 = 1 ∨ r.key ∈ huskPay h) → r.marked = false →
    ∃ t, ZaDraws (.detReset h) s t ∧ t.ctxs = z.ctxs ∧ t.detRecs.map (fun x => (x.key, x.m, x.v, x.nObs, x.run, x.latched,
      x.warmLeft)) = [(r.key, 0, 0, 0, 0, false, detWarmup (detDesc c.plans.det (huskP0 h)))])

/-- Weight versions, digest tables and features written from outside are kept with their context. -/
def Obligations.WeightsAndFeaturesAreKept : Prop :=
  (∀ (s : State) (h : HuskCmd) (z : Za) (e : Nat) (c : Ctx), s.za.accepts .weightSwap h → z = s.za.met .weightSwap h →
    z.cmdCtx h = some (e, c) → huskP1 h ≤ 65535 → z.earliest c ≤ z.frameOf (huskP0 h) →
    (∀ x ∈ c.swaps, x.first + x.overlap ≤ z.frameNow) →
    ∃ t c' w, ZaDraws (.weightSwap h) s t ∧ t.ctx? e = some c' ∧ c'.swaps = w :: c.swaps ∧
      w.first = z.frameOf (huskP0 h) ∧ w.overlap = huskP1 h ∧ w.va = wf (huskPay h) 0 31 16 ∧ w.vb = wf (huskPay h) 0 15 0 ∧
      (∀ f, z.frameOf (huskP0 h) ≤ f → c'.versionValid (wf (huskPay h) 0 15 0) f = true) ∧
      (∀ k, k ≠ e → t.ctx? k = z.ctx? k))
  ∧ (∀ (s : State) (h : HuskCmd) (z : Za) (e : Nat) (c : Ctx), s.za.accepts .weightSwap h → z = s.za.met .weightSwap h →
    z.cmdCtx h = some (e, c) → huskP1 h ≤ 65535 → z.earliest c ≤ z.frameOf (huskP0 h) →
    (∃ x ∈ c.swaps, z.frameNow < x.first + x.overlap) →
    ZaDraws (.weightSwap h) s (z.answered .weightSwap h (resultOf stDigestOverlap)))
  ∧ (∀ (s : State) (h : HuskCmd) (z : Za) (e : Nat) (c : Ctx), s.za.accepts .digestLoad h → z = s.za.met .digestLoad h →
    z.cmdCtx h = some (e, c) → huskP1 h = 1 → huskP0 h < 2 ^ 22 → c.tables = [] → 1 ≤ c.q.digestTables →
    bit (word (huskPay h) 2) 31 = true →
    ∃ t c', ZaDraws (.digestLoad h) s t ∧ t.ctx? e = some c' ∧
      aGetD c'.tables (wf (huskPay h) 3 31 16) [] = [(huskP0 h, (huskPay h).take 4)] ∧ c'.swaps = c.swaps ∧
      (∀ k, k ≠ e → t.ctx? k = z.ctx? k))
  ∧ (∀ (s : State) (h : HuskCmd) (z : Za) (e : Nat) (c : Ctx), s.za.accepts .featWrite h → z = s.za.met .featWrite h →
    z.cmdCtx h = some (e, c) → 1 ≤ fld h.w6 15 0 → fld h.w6 15 0 ≤ 64 → z.work? e (z.frameOf (huskP0 h)) = none →
    c.views.find? (fun v => v.frame == z.frameOf (huskP0 h)) = none → fld (word (huskPay h) 0) 26 20 = 0 →
    (∀ i, i < fld h.w6 15 0 → dExternal (c.plans.die.getD (fld h.w6 31 16 + i) []) = true) →
    ZaDraws (.featWrite h) s (Za.answered (if z.frameNow ≤ z.frameOf (huskP0 h)
      then z.keepExternal c (z.frameOf (huskP0 h)) (word (huskPay h) 0) (fld h.w6 31 16) ((huskPay h).drop 1)
      else { z with counters := bump z.counters (.ens .extLate e) 1 }) .featWrite h (resultOf stOk)))
  ∧ (∀ (s : State) (h : HuskCmd) (z : Za) (e : Nat) (c : Ctx) (w : FrameWork), s.za.accepts .featWrite h →
    z = s.za.met .featWrite h → z.cmdCtx h = some (e, c) → 1 ≤ fld h.w6 15 0 → fld h.w6 15 0 ≤ 64 →
    z.work? e (z.frameOf (huskP0 h)) = some w → (bit (word (huskPay h) 0) 26 = true ∨ fld (word (huskPay h) 0) 25 20 = 0) →
    (∀ i, i < fld h.w6 15 0 → dExternal ((w.view.featPlan (bit (word (huskPay h) 0) 26)).getD (fld h.w6 31 16 + i) []) = true) →
    ∃ z', ZaDraws (.featWrite h) s (Za.answered z' .featWrite h (resultOf stOk)) ∧
      z' = z.writeExternal s.cellDom e (z.frameOf (huskP0 h)) (word (huskPay h) 0) (fld h.w6 31 16) ((huskPay h).drop 1) ∧
      z'.ctxs = z.ctxs)

/-! ### Handles, relays, chains and refusals. -/

/-- Long commands end: DONE_HANDLE frees the handle and keeps its record, a DTU's completion goes back under the requester's own
words, two frames without one end the command, one that waits leaves when its DTU has a place, and a chained one whose wait is
met runs as if just accepted. -/
def Obligations.LongCommandsEnd : Prop :=
  (∀ (s : State) (handle : W) (l : DtuLong), s.dtu.cmds.longs = [l] → l.handle = handle → l.done.isSome = true →
    ∃ d, DtuBecomes (.doneHandle handle) s d ∧ d.cmds.longs = [] ∧ d.cells = s.dtu.cells ∧ d.host = s.dtu.host ∧
      d.health = s.dtu.health)
  ∧ (∀ (s : State) (handle : W) (x : Handle), s.dtu.cmds.longs = [] → s.za.running = true →
    s.za.handle? handle = some x → x.done.isSome = true → s.za.power.lullTo = none →
    ∃ z, ZaBecomes (.doneHandle handle) s z ∧ z.handle? handle = none ∧ (∃ k ∈ z.cmds.retained, k.handle = handle) ∧
      z.ctxs = s.za.ctxs ∧ z.dies = s.za.dies ∧ z.works = s.za.works ∧ z.tag = s.za.tag)
  ∧ (∀ (s : State) (die : BitVec 20) (rec_ : List W) (d : DieEntry) (f : Frame) (r : Relay),
    wf rec_ 0 15 0 ≠ Opcode.fence.code → s.za.die? die.toNat = some d →
    f = s.za.completionFrame d.link (dtuMac die.toNat) (some die.toNat) rec_ → s.za.takes d.link f →
    (s.za.taken d.link f).running = true → completionSound rec_ = true → wf rec_ 0 27 26 = 0 →
    (s.za.taken d.link f).cmds.relays.find? (fun r => r.ownTag == word rec_ 2 && r.die == die.toNat) = some r →
    r.handle = 0 → r.cmd.op ≠ .regWrite →
    ∃ z, ZaBecomes (.relayedCompletion die rec_) s z ∧ (∀ x ∈ z.cmds.relays, x.ownTag ≠ r.ownTag) ∧
      z.cmds.handles = s.za.cmds.handles ∧ z.ctxs = s.za.ctxs ∧ z.dies.map (·.die) = s.za.dies.map (·.die))
  ∧ (∀ (s : State) (tag : W) (r : Relay),
    s.za.cmds.relays.find? (fun r => r.ownTag == tag && decide (r.sentAt + 2 ≤ s.za.time.begun)) = some r →
    s.za.running = true →
    ∃ z, ZaBecomes (.targetTimeout tag) s z ∧ (∀ x ∈ z.cmds.relays, x.ownTag ≠ tag) ∧
      (r.handle ≠ 0 → ∀ x ∈ z.cmds.handles, x.handle = r.handle → x.done.isSome = true) ∧ z.dies = s.za.dies ∧
      z.ctxs = s.za.ctxs)
  ∧ (∀ (s : State) (die : BitVec 20) (q : QueuedLong), s.za.cmds.queued.find? (fun q => q.die == die.toNat) = some q →
    s.za.running = true → s.za.longsAt die.toNat < 16 →
    ∃ z r, ZaBecomes (.dtuLongQueueRelease die) s z ∧ z.cmds.relays = s.za.cmds.relays ++ [r] ∧ r.handle = q.handle ∧
      r.die = die.toNat ∧ r.ownTag = s.za.cmds.nextTag ∧ r.husk = q.husk ∧ (∀ x ∈ z.cmds.queued, x.handle ≠ q.handle) ∧
      z.cmds.handles = s.za.cmds.handles ∧ z.dies = s.za.dies)
  ∧ (∀ (s : State) (handle : W) (x : Handle), s.za.handle? handle = some x → s.za.running = true → x.parked = true →
    x.done = none → s.za.isParked x = false →
    ZaDraws (.chainRelease handle) s (Za.runChained { s.za with cmds := { s.za.cmds with
      order := s.za.cmds.order + 1
      handles := modWhere s.za.cmds.handles (fun y => y.handle == handle)
        (fun y => { y with parked := false, order := s.za.cmds.order }) } } s.free s.cellDom x.cmd.op x.husk handle x.relay))
  ∧ (∀ (s : State) (handle : W), s.za.handle? handle = none → ZaDraws (.chainRelease handle) s s.za)

/-- Whatever its opcode, a Husk that fails a test is answered with what the test says and has no other effect, a repeated one is
answered again from the reply kept, one under a used tag is refused, and one with a bad crc is counted and dropped. -/
def Obligations.HusksThatDoNotRun : Prop :=
  (∀ (s : State) (op : Opcode) (h : HuskCmd) (d : Dtu) (r : Result), h.side = .dtu →
    s.dtu.takes (s.dtu.huskFrame op h) → d = s.dtu.taken (s.dtu.huskFrame op h) → d.huskFrom h.req = true →
    h.crc = huskCrc op h → d.huskTests op h = some r →
    (s.husk op h).dtu = d.replyNow op h 0 0 r false ∧ (s.husk op h).za = s.za)
  ∧ (∀ (s : State) (op : Opcode) (h : HuskCmd) (d : Dtu) (reply : List W), h.side = .dtu →
    s.dtu.takes (s.dtu.huskFrame op h) → d = s.dtu.taken (s.dtu.huskFrame op h) → d.huskFrom h.req = true →
    h.crc = huskCrc op h → d.huskTests op h = none → lookupTag d.cmds.cache h.req op h = .replay reply →
    (s.husk op h).dtu = d.sendReply h.req.addr h.w1 reply)
  ∧ (∀ (s : State) (op : Opcode) (h : HuskCmd) (d : Dtu), h.side = .dtu →
    s.dtu.takes (s.dtu.huskFrame op h) → d = s.dtu.taken (s.dtu.huskFrame op h) → d.huskFrom h.req = true →
    h.crc ≠ huskCrc op h → (s.husk op h).dtu = { d with counters := bump d.counters .huskCrc 1 })
  ∧ (∀ (s : State) (op : Opcode) (h : HuskCmd) (z : Za) (r : Result), h.side = .za → s.za.power.powered = true →
    s.za.power.pinLow = false → (h.req.keomon = true ∨ s.za.takes h.req.link (s.za.huskFrameOf op h)) → z = s.za.met op h →
    z.boot.phase = 4 → h.crc = huskCrc op h → z.huskEarly op h = some r →
    (s.husk op h).za = z.replyNow op h 0 0 r false ∧ (s.husk op h).dtu = s.dtu)
  ∧ (∀ (s : State) (op : Opcode) (h : HuskCmd) (z : Za) (agg : Nat), h.side = .za → s.za.power.powered = true →
    s.za.power.pinLow = false → (h.req.keomon = true ∨ s.za.takes h.req.link (s.za.huskFrameOf op h)) → z = s.za.met op h →
    z.boot.phase = 4 → h.crc = huskCrc op h → z.huskEarly op h = none → z.huskDest h = .forward agg →
    (s.husk op h).za = z.forwardHusk agg op h)
  ∧ (∀ (s : State) (op : Opcode) (h : HuskCmd) (z : Za) (r : Result), h.side = .za → s.za.power.powered = true →
    s.za.power.pinLow = false → (h.req.keomon = true ∨ s.za.takes h.req.link (s.za.huskFrameOf op h)) → z = s.za.met op h →
    z.boot.phase = 4 → h.crc = huskCrc op h → z.huskEarly op h = none → (∀ agg, z.huskDest h ≠ .forward agg) →
    z.huskLate op h = some r → (s.husk op h).za = z.replyNow op h 0 0 r false)

/-- A Husk for a DTU of the tray goes on under a tag of the ZA40's own, a long one under a handle; a chained one takes a handle and
waits for its object. -/
def Obligations.HusksAreRelayedAndChained : Prop :=
  (∀ (s : State) (op : Opcode) (h : HuskCmd) (z : Za) (die : Nat), h.side = .za → s.za.power.powered = true →
    s.za.power.pinLow = false → (h.req.keomon = true ∨ s.za.takes h.req.link (s.za.huskFrameOf op h)) → z = s.za.met op h →
    z.boot.phase = 4 → h.crc = huskCrc op h → z.huskEarly op h = none → z.huskDest h = .relay die →
    z.huskLate op h = none → lookupTag z.cmds.cache h.req op h = .fresh → huskChained h = false → huskLong op h = false →
    op.isLong = false → z.relayFault die op h = none →
    ∃ r, (s.husk op h).za.cmds.relays = z.cmds.relays ++ [r] ∧ r.ownTag = z.cmds.nextTag ∧ r.die = die ∧ r.handle = 0 ∧
      r.cmd.op = op ∧ r.cmd.tag = huskTag h ∧ r.cmd.req = h.req ∧ (s.husk op h).za.ctxs = z.ctxs ∧
      (s.husk op h).za.dies = z.dies ∧ (s.husk op h).za.cmds.handles = z.cmds.handles)
  ∧ (∀ (s : State) (op : Opcode) (h : HuskCmd) (z z1 : Za) (die : Nat) (handle : W), h.side = .za →
    s.za.power.powered = true → s.za.power.pinLow = false →
    (h.req.keomon = true ∨ s.za.takes h.req.link (s.za.huskFrameOf op h)) → z = s.za.met op h →
    z.boot.phase = 4 → h.crc = huskCrc op h → z.huskEarly op h = none → z.huskDest h = .relay die →
    z.huskLate op h = none → lookupTag z.cmds.cache h.req op h = .fresh → huskChained h = false → op.isLong = true →
    z.handleFree op h = true → z.relayFault die op h = none → z.take op h none false (some die) = some (z1, handle) →
    (s.husk op h).za = (z1.accepted op h handle).relayLong die op h handle)
  ∧ (∀ (s : State) (op : Opcode) (h : HuskCmd) (z z1 : Za) (handle : W) (o : SyncObj), h.side = .za →
    s.za.power.powered = true → s.za.power.pinLow = false →
    (h.req.keomon = true ∨ s.za.takes h.req.link (s.za.huskFrameOf op h)) → z = s.za.met op h →
    z.boot.phase = 4 → h.crc = huskCrc op h → z.huskEarly op h = none → z.huskDest h = .self → z.huskLate op h = none →
    lookupTag z.cmds.cache h.req op h = .fresh → huskChained h = true → z.handleFree op h = true → z.chainFault h = none →
    (huskChain h).waitEn = true → z.sync? (huskChain h).waitObj = some o → o.value < (huskChain h).waitV →
    z.take op h (some (huskChain h)) true none = some (z1, handle) →
    (s.husk op h).za.waits = z.waits ++ [{ handle, obj := (huskChain h).waitObj, v := (huskChain h).waitV,
                                           order := z1.cmds.order }] ∧
      (s.husk op h).za.ctxs = z.ctxs ∧ (s.husk op h).za.syncs = z.syncs ∧
      (s.husk op h).za.cmds.handles = z1.cmds.handles)

/-! ### The ZA40's links and time. -/

/-- Link messages at the ZA40: HELLO of a DTU is answered with ADMIT and of a peer settles the version, CREDIT fills the pools, ECHO
goes back with its residence, a reply gives a round trip, LINK_RESET starts the pair again; CREDIT returns what left the buffers. -/
def Obligations.ZaLinkMessagesTakeEffect : Prop :=
  (∀ (s : State) (p : Fin 82) (f : Frame) (die : Nat), s.za.takes p.val f → f.plen.toNat = 48 →
    s.za.face p.val = 1 → srcDie f = some die → (s.za.taken p.val f).die? die = none →
    (s.za.taken p.val f).admitReason p.val die ((f.body.drop 2).take 8) (word f.body 0) (word f.body 1) = 0 →
    s.za.frost.state ≠ 1 →
    ∃ z d, ZaBecomes (.hello .za p f) s z ∧ z.die? die = some d ∧ d.admitted = true ∧ d.link = p.val ∧ d.timeSync = true ∧
      d.tag = (f.body.drop 2).take 8 ∧ d.fenced = none ∧
      (∃ q ∈ (z.link p.val).queue, q.frame.cls = 0 ∧ q.frame.msg = 2 ∧ q.die = some die ∧ q.frame.dest = dtuMac die ∧
        wf q.frame.body 0 31 24 = 0 ∧ word q.frame.body 4 = word f.body 11) ∧ z.regs = s.za.regs ∧ z.tag = s.za.tag)
  ∧ (∀ (s : State) (p : Fin 82) (f : Frame) (v : Nat), s.za.takes p.val f → f.plen.toNat = 48 →
    s.za.face p.val ≠ 1 → zaSettle (word f.body 0) (word f.body 1) = some v → v ≠ 0 →
    ∃ z, ZaBecomes (.hello .za p f) s z ∧ (z.link p.val).version = v ∧ (z.link p.val).helloSeen = true ∧
      (z.link p.val).peer = some f.src ∧ (z.link p.val).peerSeen = bit (word f.body 10) 15 ∧ z.ctxs = s.za.ctxs ∧
      z.regs = s.za.regs)
  ∧ (∀ (s : State) (p : Fin 82) (f : Frame), s.za.takes p.val f → f.plen.toNat = 40 → s.za.face p.val ≠ 1 →
    ∃ z, ZaBecomes (.credit .za p f) s z ∧ (z.link p.val).credited = true ∧
      (∀ c, c < 8 → ∃ q, (z.link p.val).ends.pools[c]? = some q ∧
        q.returned = ((((s.za.taken p.val f).link p.val).ends.pools.getD c .initial).take (word f.body (1 + c))).1.returned) ∧
      z.ctxs = s.za.ctxs ∧ z.dies = s.za.dies)
  ∧ (∀ (s : State) (p : Fin 82) (die : BitVec 20), s.za.linkOn p.val = true → s.za.face p.val = 3 →
    (s.za.link p.val).state ≠ 6 → s.za.injections = [] →
    ∃ z q, ZaBecomes (.creditSend .za p die) s z ∧ (z.link p.val).queue = (s.za.link p.val).queue ++ [q] ∧
      q.frame.cls = 0 ∧ q.frame.msg = 3 ∧ q.frame.dest = s.za.collectorMac ∧ (z.link p.val).ends.creditDue = false ∧
      z.ctxs = s.za.ctxs ∧ z.dies = s.za.dies)
  ∧ (∀ (s : State) (p : Fin 82) (f : Frame) (r : W), s.za.takes p.val f → 8 ≤ f.plen.toNat →
    ZaBecomes (.echo .za p f r) s ((s.za.taken p.val f).enqueue p.val ((s.za.taken p.val f).fromDie p.val f)
      (mkTx 0 5 f.src 0xFFFF 0 f.plen.toNat (f.body.set 1 r))))
  ∧ (∀ (s : State) (p : Fin 82) (f : Frame) (e : W) (q : Endpoint), s.za.takes p.val f → 8 ≤ f.plen.toNat →
    (s.za.link p.val).state ≠ 6 → (s.za.taken p.val f).fromDie p.val f = none →
    q = ((s.za.taken p.val f).link p.val).ends → q.echoes.any (fun x => x.1 == word f.body 0) = true →
    (word f.body 0).toNat < 0xED000000 → q.rtt.length < 64 →
    ∃ z, ZaBecomes (.echoReply .za p f e) s z ∧
      (z.link p.val).ends.rtt = q.rtt ++ [e.toNat - (word f.body 1).toNat] ∧
      (z.link p.val).ends.echoes = q.echoes.filter (fun y => y.1 != word f.body 0) ∧ z.ctxs = s.za.ctxs)
  ∧ (∀ (s : State) (p : Fin 82) (f : Frame) (die : Nat), s.za.takes p.val f → f.plen.toNat = 4 → wf f.body 0 31 8 = 0 →
    (s.za.taken p.val f).fromDie p.val f = some die →
    ∃ z d, ZaBecomes (.linkReset .za p f) s z ∧ z.die? die = some d ∧ d.admitted = false ∧ d.ends = .initial 4 ∧
      z.ctxs = s.za.ctxs ∧ z.regs = s.za.regs)
  ∧ (∀ (s : State) (die : BitVec 20) (d : DieEntry), s.za.die? die.toNat = some d →
    ∃ z d', ZaBecomes (.dtuLinkStateChange die) s z ∧ z.die? die.toNat = some d' ∧ d'.admitted = false ∧ d'.timeSync = false ∧
      d'.ends = .initial 4 ∧ (∀ x ∈ z.cmds.queued, x.die ≠ die.toNat) ∧
      (∀ q ∈ (z.link d.link).queue, q.die ≠ some die.toNat) ∧ z.ctxs = s.za.ctxs ∧ z.regs = s.za.regs)
  ∧ (∀ (s : State) (p : Fin 82), s.za.linkUp p.val = true →
    ∃ z, ZaBecomes (.linkLost p) s z ∧ (s.za.face p.val ≠ 1 → (z.link p.val).state ≠ 3) ∧
      (∀ d ∈ z.dies, d.link = p.val → d.admitted = false) ∧ z.ptp.parent ≠ some p.val ∧ z.ctxs = s.za.ctxs ∧
      z.regs = s.za.regs)

/-- What leaves a ZA40's link is the frame picked, under its next sequence number; the slot boundary lets waiting settings take
force, and FORWARD holds, drops and empties at its thresholds. -/
def Obligations.ZaLinksSendAndForward : Prop :=
  (∀ (s : State) (p : Fin 82) (q : Queued), s.za.serving = [] → s.za.tests = [] → (s.za.ptpPort p.val).out = [] →
    (∀ x ∈ (s.za.link p.val).queue, s.za.neverFits p.val x = false) → s.za.pick p.val = some q → q.die = none →
    s.za.injections = [] → q ∈ (s.za.link p.val).queue →
    ∃ z f, ZaBecomes (.frameTransmit .za p) s z ∧ (z.link p.val).wire = some f ∧ f.body = stampBody q.frame s.za.now ∧
      f.dest = q.frame.dest ∧ (z.link p.val).queue = (s.za.link p.val).queue.erase q ∧ z.ctxs = s.za.ctxs ∧
      z.forward.waiting = s.za.forward.waiting)
  ∧ (∀ (s : State) (fill : Fin 101), s.za.running = true →
    ∃ z, ZaBecomes (.forwardFillChange fill) s z ∧ z.forward.percent = fill.val ∧
      z.forward.full = decide (fill.val = 100) ∧ (75 ≤ fill.val → z.forward.traceDrop = true) ∧
      (fill.val < 70 → z.forward.traceDrop = false) ∧
      (70 ≤ fill.val → fill.val < 75 → z.forward.traceDrop = s.za.forward.traceDrop) ∧
      (90 ≤ fill.val → z.forward.hold = true) ∧ (fill.val < 80 → z.forward.hold = false) ∧
      (80 ≤ fill.val → fill.val < 90 → z.forward.hold = s.za.forward.hold) ∧ (∀ d ∈ z.dies, d.bulkHeld = z.forward.hold) ∧
      z.forward.waiting = s.za.forward.waiting ∧ z.ctxs = s.za.ctxs)
  ∧ (∀ (s : State) (p : Fin 82) (f : Frame), s.za.takes p.val f → f.cls = 5 → f.msg = 1 → traceSound f = false →
    (s.za.taken p.val f).running = true →
    ∃ z, ZaBecomes (.bulkFrame p f) s z ∧ z = (s.za.taken p.val f).count (.misc .traceBadHdr))
  ∧ (∀ (s : State) (p : Fin 82) (f : Frame), s.za.takes p.val f → f.cls = 5 → f.msg = 1 → traceSound f = true →
    (s.za.taken p.val f).running = true →
    (s.za.taken p.val f).bulkDrop p.val ((s.za.taken p.val f).fromDie p.val f) f = none →
    ∃ z r, ZaBecomes (.bulkFrame p f) s z ∧ r ∈ z.forward.waiting ∧ r.rank = 4 ∧ r.words = f.body ∧
      r.plen = f.plen.toNat ∧ z.forward.waiting.length = s.za.forward.waiting.length + 1 ∧
      (∀ x ∈ s.za.forward.waiting, x ∈ z.forward.waiting) ∧ z.ctxs = s.za.ctxs)
  ∧ (∀ (s : State) (p : Fin 82) (f : Frame), s.za.takes p.val f → f.cls = 5 → f.msg = 1 → traceSound f = true →
    (s.za.taken p.val f).running = true →
    (s.za.taken p.val f).bulkDrop p.val ((s.za.taken p.val f).fromDie p.val f) f = some .fwdBulkDrop →
    ∃ z, ZaBecomes (.bulkFrame p f) s z ∧ z.counters = bump (s.za.taken p.val f).counters (.link .fwdBulkDrop p.val 0) 1 ∧
      z.forward = s.za.forward ∧ z.ctxs = s.za.ctxs)
  ∧ (∀ (s : State), s.za.power.powered = true → s.za.power.pinLow = false → s.za.mayReach s.za.time.nextSlot = true →
    s.za.power.resetPorts = [] → s.za.cmds.linkResets = [] →
    ∃ z, ZaBecomes .zaSlotBoundary s z ∧ z.nowNs = s.za.time.nextSlot ∧
      z.power.cfg = s.za.power.cfgNext.getD s.za.power.cfg ∧ z.power.cfgNext = none ∧ z.ctxs = s.za.ctxs ∧
      z.dies = s.za.dies ∧ z.regs = s.za.regs ∧ z.tag = s.za.tag)

/-- Time in the ZA40: a Sync of the parent gives a sample, the best master decides the ports, a parent is followed only within
jump_thr, TIME_SYNC leaves for each DTU, echoes are averaged, markers fire at their instants, steps move whole frames. -/
def Obligations.ZaKeepsNetworkTime : Prop :=
  (∀ (s : State) (p : Fin 82) (dom : Byte) (src : BitVec 64) (m : PtpMsg), dom.toNat ≠ s.za.ptpDomain →
    ∃ z, ZaDraws (.ptpMessage p ⟨dom, src, m⟩) s z ∧ z = s.za)
  ∧ (∀ (s : State) (p : Fin 82) (dom : Byte) (src : BitVec 64) (seq : BitVec 16) (origin ingress : Stamp),
    s.za.ptpRuns p.val = true → dom.toNat = s.za.ptpDomain →
    ∃ z, ZaDraws (.ptpMessage p ⟨dom, src, (.sync seq true origin ingress)⟩) s z ∧ (z.ptpPort p.val).sync = some (seq, ingress) ∧
      z.time = s.za.time ∧ z.links = s.za.links)
  ∧ (∀ (s : State) (p : Fin 82) (dom : Byte) (src : BitVec 64) (seq : BitVec 16) (origin ingress : Stamp) (d : Int),
    s.za.ptpRuns p.val = true → dom.toNat = s.za.ptpDomain →
    (s.za.ptpPort p.val).sync = some (seq, ingress) → s.za.ptp.parent = some p.val → s.za.ptp.parentId = src →
    (s.za.ptpPort p.val).delay = some d → s.za.injections = [] → s.za.time.isSet = true →
    ∃ z, ZaDraws (.ptpMessage p ⟨dom, src, (.followUp seq origin)⟩) s z ∧
      z.time = (s.za.time.sample zaNominal s.za.slewMax s.za.jumpThr
        zaLock s.free (decide (2 ^ 34 ≤ stampSec origin)) (s.za.ingress p.val ingress - origin - d)).1 ∧
      (z.ptpPort p.val).sync = none ∧ z.ptp.sampled = true ∧ z.ctxs = s.za.ctxs)
  ∧ (∀ (s : State) (p : Fin 82) (dom : Byte) (src : BitVec 64) (seq : BitVec 16) (origin ingress : Stamp),
    s.za.ptpRuns p.val = true → dom.toNat = s.za.ptpDomain → (s.za.ptpPort p.val).sync = some (seq, ingress) →
    s.za.isParent p.val src = false →
    ∃ z, ZaDraws (.ptpMessage p ⟨dom, src, (.followUp seq origin)⟩) s z ∧ z.time = s.za.time ∧ z.ctxs = s.za.ctxs)
  ∧ (∀ (s : State) (p : Fin 82) (dom : Byte) (src : BitVec 64) (a : AnnounceData), s.za.ptpRuns p.val = true →
    dom.toNat = s.za.ptpDomain →
    ∃ z, ZaDraws (.ptpMessage p ⟨dom, src, (.announce a)⟩) s z ∧ (z.ptpPort p.val).best = some a ∧ z.links = s.za.links ∧
      z.ctxs = s.za.ctxs)
  ∧ (∀ (s : State) (p : Fin 82) (dom : Byte) (src : BitVec 64) (seq : BitVec 16) (ingress : Stamp),
    s.za.ptpRuns p.val = true → dom.toNat = s.za.ptpDomain → (s.za.ptpPort p.val).state = 2 →
    ∃ z, ZaDraws (.ptpMessage p ⟨dom, src, (.delayReq seq ingress)⟩) s z ∧ (z.ptpPort p.val).out =
        (s.za.ptpPort p.val).out ++ [(s.za.nowNs, .delayResp seq src (s.za.ingress p.val ingress).toNat)] ∧
      z.time = s.za.time ∧ z.ctxs = s.za.ctxs)
  ∧ (∀ (s : State) (p : Fin 82), s.za.ptpRuns p.val = true →
    ∃ z, ZaBecomes (.announceReceiptTimeout p) s z ∧ (z.ptpPort p.val).best = none ∧ z.ptp.parent ≠ some p.val ∧
      z.time = s.za.time ∧ z.links = s.za.links)
  ∧ (∀ (s : State) (p : Fin 82), s.za.ptpRuns p.val = true → (s.za.ptpPort p.val).state = 3 → s.za.ptp.sampled = true →
    ∃ z, ZaBecomes (.ptpSyncInterval p) s z ∧
      (z.ptpPort p.val).out = (s.za.ptpPort p.val).out ++ [(s.za.nowNs, .delayReq (s.za.ptpPort p.val).delaySeq)] ∧
      (z.ptpPort p.val).delaySeq = (s.za.ptpPort p.val).delaySeq + 1 ∧ z.time = s.za.time)
  ∧ (∀ (s : State) (p : Fin 82), s.za.ptpRuns p.val = true → (s.za.ptpPort p.val).state = 3 →
    s.za.ptp.parent = some p.val → s.za.ptp.sampled = false → s.za.time.state = .acquire →
    ∃ z, ZaBecomes (.ptpSyncInterval p) s z ∧ z.time.run = 0 ∧ z.time.missed = s.za.time.missed + 1 ∧
      z.time.ftc = s.za.time.ftc ∧ z.ctxs = s.za.ctxs)
  ∧ (∀ (s : State) (p : Fin 82), s.za.ptpRuns p.val = true → (s.za.ptpPort p.val).state = 2 →
    s.za.ptp.parent ≠ some p.val → (s.za.ptpPort p.val).syncSeq.toNat % 32 ≠ 0 →
    ∃ z, ZaBecomes (.ptpSyncInterval p) s z ∧
      (z.ptpPort p.val).out = (s.za.ptpPort p.val).out ++ [(s.za.nowNs, .sync (s.za.ptpPort p.val).syncSeq)] ∧
      (z.ptpPort p.val).syncSeq = (s.za.ptpPort p.val).syncSeq + 1 ∧ z.time = s.za.time)
  ∧ (∀ (s : State) (p : Fin 82) (at_ : Nat) (seq : BitVec 16) (r : List (Nat × PtpOut)),
    (s.za.ptpPort p.val).out = (at_, .sync seq) :: r → s.za.ptpMay p.val (.sync seq) = true →
    s.za.ptpFirst p.val at_ = true →
    ∃ z, ZaBecomes (.frameTransmit .za p) s z ∧ (z.ptpPort p.val).wire = some (.sync seq) ∧
      (z.ptpPort p.val).out = r ++ [(s.za.nowNs, .followUp seq (s.za.egress p.val s.za.now).toNat)] ∧
      z.time = s.za.time ∧ z.ctxs = s.za.ctxs)
  ∧ (∀ (s : State) (p : Fin 82) (at_ : Nat) (seq : BitVec 16) (r : List (Nat × PtpOut)),
    (s.za.ptpPort p.val).out = (at_, .delayReq seq) :: r → s.za.ptpMay p.val (.delayReq seq) = true →
    s.za.ptpFirst p.val at_ = true →
    ∃ z, ZaBecomes (.frameTransmit .za p) s z ∧ (z.ptpPort p.val).wire = some (.delayReq seq) ∧
      (z.ptpPort p.val).out = r ∧ (z.ptpPort p.val).delayAt = some (seq, s.za.now) ∧ z.time = s.za.time ∧ z.ctxs = s.za.ctxs)
  ∧ (∀ (s : State) (p : Fin 82) (id : BitVec 64) (off : Int) (a : AnnounceData), s.za.ptpRuns p.val = true →
    s.za.bestPort = some (p.val, a) → a.identity = id → s.za.ptp.parent ≠ some p.val →
    off.natAbs ≤ s.za.jumpThr * 65536 →
    ∃ z, ZaBecomes (.parentChange p id off) s z ∧ z.ptp.parent = some p.val ∧ z.ptp.parentId = id ∧
      z.ptp.refused = none ∧ z.time.ftc = s.za.time.ftc ∧ z.ctxs = s.za.ctxs)
  ∧ (∀ (s : State) (p : Fin 82) (id : BitVec 64) (off : Int) (a : AnnounceData), s.za.ptpRuns p.val = true →
    s.za.bestPort = some (p.val, a) → a.identity = id → s.za.ptp.parent ≠ some p.val → s.za.time.isSet = true →
    s.za.jumpThr * 65536 + s.za.time.residual.natAbs / 2 ^ 32 < off.natAbs →
    ∃ z, ZaBecomes (.parentChange p id off) s z ∧ z.ptp.parent = none ∧ z.ptp.refused = some id ∧
      z.time.state ≠ .locked ∧ z.time.ftc = s.za.time.ftc ∧ z.ctxs = s.za.ctxs)
  ∧ (∀ (s : State), s.za.time.state = .locked → s.za.power.powered = true →
    ∃ z, ZaBecomes (.timeHoldoverEntry .za) s z ∧ z.time.state = .holdover ∧ z.time.ftc = s.za.time.ftc ∧
      z.ctxs = s.za.ctxs ∧ z.links = s.za.links)
  ∧ (∀ (s : State) (a : ArmedStep), s.za.power.powered = true → s.za.time.ticking = true → s.za.time.armed = some a →
    a.frame = s.za.time.nextFrame → stepWhole a.s < 0 →
    ∃ z, ZaBecomes (.stepApply .za) s z ∧ z.time.frame = s.za.time.frame ∧
      z.time.ftc = ((a.frame : Int) + stepWhole a.s).toNat * 2 ^ 20 * oneNs ∧ z.time.armed = none ∧ z.ctxs = s.za.ctxs)
  ∧ (∀ (s : State) (die : BitVec 20) (d : DieEntry), s.za.die? die.toNat = some d → s.za.running = true →
    d.timeSync = true → s.za.linkUp d.link = true → (∀ p < 82, (s.za.link p).strays = []) →
    ∃ z d' q, ZaBecomes (.timeSyncSend die) s z ∧ z.die? die.toNat = some d' ∧ d'.syncSeq = d.syncSeq + 1 ∧
      (z.link d.link).queue = (s.za.link d.link).queue ++ [q] ∧ q.frame.cls = 6 ∧ q.frame.msg = 1 ∧
      q.frame.body = s.za.timeSyncBody d ∧ q.die = some die.toNat ∧ z.time = s.za.time ∧ z.ctxs = s.za.ctxs)
  ∧ (∀ (s : State) (p : Fin 82) (f : Frame) (at_ : Stamp) (die : Nat) (d : DieEntry), s.za.takes p.val f →
    (s.za.taken p.val f).fromDie p.val f = some die → wf f.body 0 31 24 = 2 → 18 ≤ f.plen.toNat →
    (s.za.taken p.val f).die? die = some d → d.echo.count < 63 →
    ∃ z d', ZaBecomes (.timeEcho p f at_) s z ∧ z.die? die = some d' ∧ d'.echo.count = d.echo.count + 1 ∧
      d'.echo.sum = d.echo.sum + ((at_ : Int) - (stampOf (dword f.body 1) (word f.body 3).toNat (wf f.body 4 31 16) : Nat)) ∧
      d'.echo.mean = d.echo.mean ∧ z.time = s.za.time ∧ z.ctxs = s.za.ctxs)
  ∧ (∀ (s : State) (i : Fin 16) (t : Trigger), s.za.marks[i.val]? = some t → s.za.running = true → t.enabled = true →
    s.za.mayReach t.next = true →
    ∃ z, ZaBecomes (.timeMark i) s z ∧ z.marks = s.za.marks.set i.val t.fire ∧ t.next ≤ z.nowNs ∧ z.ctxs = s.za.ctxs ∧
      (s.za.face (2 * fld t.w0 15 8 + (if fld t.w0 7 6 = 2 then 1 else 0)) ≠ 1 → z.dies = s.za.dies))

/-! ### Reduction, scoring and detection at the ZA40. -/

/-- A contribution is tested in the order of R226: wrong frame, misrouted, duplicate and late ones are counted and not added; one
whose crc or cfg_seq fails is absent for that cause; any other is present. The tray deadline closes the tray nodes. -/
def Obligations.ContributionsAreTested : Prop :=
  (∀ (s : State) (p : Fin 82) (f : Frame) (arrival die e : Nat) (z : Za) (w : FrameWork),
    s.za.bringsContrib p.val f arrival z die → z.contributes (f.body.take 136) e w →
    (word (f.body.take 136) 1).toNat ≠ w.frame % 2 ^ 32 →
    ZaBecomes (.contrib p f arrival) s (z.count (.red .wrongFrame e)))
  ∧ (∀ (s : State) (p : Fin 82) (f : Frame) (arrival die e : Nat) (z : Za) (w : FrameWork),
    s.za.bringsContrib p.val f arrival z die → z.contributes (f.body.take 136) e w →
    (word (f.body.take 136) 1).toNat = w.frame % 2 ^ 32 →
    (cDie (f.body.take 136) ≠ die ∨ w.view.rankOf die ≠ some (cRank (f.body.take 136))) →
    ZaBecomes (.contrib p f arrival) s (z.count (.red .misroute e)))
  ∧ (∀ (s : State) (p : Fin 82) (f : Frame) (arrival die e : Nat) (z : Za) (w : FrameWork) (x : Contribution),
    s.za.bringsContrib p.val f arrival z die → z.contributes (f.body.take 136) e w →
    (word (f.body.take 136) 1).toNat = w.frame % 2 ^ 32 → cDie (f.body.take 136) = die →
    w.view.rankOf die = some (cRank (f.body.take 136)) → x ∈ w.contribs → x.die = die →
    x.cluster = cCluster (f.body.take 136) →
    ZaBecomes (.contrib p f arrival) s (z.count (.red .duplicate e)))
  ∧ (∀ (s : State) (p : Fin 82) (f : Frame) (arrival die e : Nat) (z : Za) (w : FrameWork),
    s.za.bringsContrib p.val f arrival z die → z.contributes (f.body.take 136) e w →
    (word (f.body.take 136) 1).toNat = w.frame % 2 ^ 32 → cDie (f.body.take 136) = die →
    w.view.rankOf die = some (cRank (f.body.take 136)) →
    (∀ x ∈ w.contribs, ¬(x.die = die ∧ x.cluster = cCluster (f.body.take 136))) → 917504 < arrival →
    ZaBecomes (.contrib p f arrival) s ((z.lateItem e w.frame 1 1 917504).count (.red .lateArrival e)))
  ∧ (∀ (s : State) (p : Fin 82) (f : Frame) (arrival die e : Nat) (z : Za) (w : FrameWork),
    s.za.bringsContrib p.val f arrival z die → z.contributes (f.body.take 136) e w →
    z.contribTests (f.body.take 136) die arrival w →
    ∃ z' x, ZaBecomes (.contrib p f arrival) s z' ∧ x.die = die ∧ x.cluster = cCluster (f.body.take 136) ∧
      x.words = f.body.take 136 ∧ x.arrival = arrival ∧ x.standIn = false ∧
      x.taken = (if cSound (f.body.take 136) = false then .absent 1
        else if cCfgSeq (f.body.take 136) ≠ ((z.die? die).map (fun d => aGetD d.cfgFrame (cCluster (f.body.take 136)) 0)).getD 0
        then .absent 2 else .present) ∧
      z'.worked e w.frame (fun y => y.contribs = w.contribs ++ [x] ∧ y.closed = false ∧ y.rows = w.rows) ∧
      z'.regs = z.regs ∧ z'.tag = z.tag ∧ z'.models = z.models)
  ∧ (∀ (s : State) (entry : Fin 1024) (w : FrameWork) (c : Ctx), s.za.work entry.val = some w →
    s.za.ctx? entry.val = some c → w.closed = false → s.za.enginesRun = true → s.za.dueAt 917504 = true →
    ∃ z, ZaBecomes (.trayDeadline entry) s z ∧
      z.worked entry.val w.frame (fun y => y.closed = true ∧ y.contribs = w.contribs ∧ y.rows = w.rows) ∧
      917504 ≤ z.sinceTick ∧ z.regs = s.za.regs ∧ z.tag = s.za.tag ∧ z.models = s.za.models)

/-- Results climb and descend the fabric tree: a child result is taken at its node, counts late after the node's deadline, and is
absent once that has passed; a final closes its Pod and is kept, or is staged under a FULL Frost; a waiting Pod takes a slot, an
overflowed one runs again on the same inputs; a missing sequence number is skipped. -/
def Obligations.ResultsClimbAndReturn : Prop :=
  (∀ (s : State) (p : Fin 82) (f : Frame) (arrival h e : Nat) (z : Za) (ws : List W) (r : PodRec) (w : FrameWork) (q : Pod),
    (s.za.untilNs arrival).bringsResult p.val f 2 z ws r e w q → (z.tree w.view).childHeight r.height r.node = some h →
    (∀ x ∈ q.children, x.height ≠ h) → (q.rerun ≠ 0 ∨ arrival ≤ 917504 + 4096 * h) → recSound ws = true →
    (r.kind = 0 → r.sec.blocks.map (·.exp) = q.exps) →
    ∃ z', ZaBecomes (.partialResult p f arrival) s z' ∧
      z'.worked e w.frame (fun y => y.contribs = w.contribs ∧ ∃ q' ∈ y.pods, q'.index = r.index ∧ q'.rerun = r.rerun ∧
        q'.children = q.children ++ [{ height := h, cause := 0, result := some r }]) ∧ z'.regs = z.regs)
  ∧ (∀ (s : State) (p : Fin 82) (f : Frame) (arrival h e : Nat) (z : Za) (ws : List W) (r : PodRec) (w : FrameWork) (q : Pod),
    (s.za.untilNs arrival).bringsResult p.val f 2 z ws r e w q → (z.tree w.view).childHeight r.height r.node = some h →
    (∀ x ∈ q.children, x.height = h → x.cause = 0 ∧ x.result = none) → q.rerun = 0 → 917504 + 4096 * h < arrival →
    w.begun = z.time.begun →
    ZaBecomes (.partialResult p f arrival) s (z.lateItem e w.frame 2 1 (917504 + 4096 * h)))
  ∧ (∀ (s : State) (entry : Fin 1024) (h : Fin 13) (w : FrameWork) (c : Ctx), s.za.work entry.val = some w →
    s.za.ctx? entry.val = some c → 0 < h.val → h.val ≤ (s.za.tree w.view).top → (s.za.tree w.view).hosts h.val = true →
    ((s.za.tree w.view).childHost h.val).isSome = true → s.za.enginesRun = true → s.za.dueAt (917504 + 4096 * h.val) = true →
    ∃ z, ZaBecomes (.fabricNodeDeadline entry h) s z ∧ z.regs = s.za.regs ∧ z.tag = s.za.tag ∧
      z.worked entry.val w.frame (fun y => y.contribs = w.contribs ∧
        ∀ q ∈ y.pods, q.rerun = 0 → ∃ x ∈ q.children, x.height = h.val))
  ∧ (∀ (s : State) (p : Fin 82) (f : Frame) (e : Nat) (z : Za) (ws : List W) (r : PodRec) (w : FrameWork) (q : Pod),
    s.za.bringsResult p.val f 3 z ws r e w q → z.frozenFull = false → recSound ws = true → r.final = true → q.final = none →
    ∃ z', ZaBecomes (.finalResult p f) s z' ∧ z'.regs = z.regs ∧
      z'.worked e w.frame (fun y => ∃ q' ∈ y.pods, q'.index = r.index ∧ q'.rerun = r.rerun ∧ q'.done = true ∧
        q'.slotted = false ∧ q'.final = some { r with late := r.late || w.abandoned }) ∧
      ∃ k ∈ z'.kept, k.entry = e ∧ k.result = { r with late := r.late || w.abandoned })
  ∧ (∀ (s : State) (p : Fin 82) (f : Frame) (e : Nat) (z : Za) (ws : List W) (r : PodRec) (w : FrameWork) (q : Pod),
    s.za.bringsResult p.val f 3 z ws r e w q → z.frozenFull = true →
    ZaBecomes (.finalResult p f) s { z with staged := z.staged ++ [ws] })
  ∧ (∀ (s : State) (entry : Fin 1024) (w : FrameWork) (c : Ctx) (q : Pod), s.za.work entry.val = some w →
    s.za.ctx? entry.val = some c → w.pods.find? (fun p => p.waited && !p.slotted && !p.done && p.rerun == 0) = some q →
    s.za.enginesRun = true → s.za.mayTakeSlot entry.val c = true →
    ∃ z, ZaBecomes (.podSlotGrant entry) s z ∧ z.regs = s.za.regs ∧ z.worked entry.val w.frame (fun y =>
      y.contribs = w.contribs ∧ ∃ q' ∈ y.pods, q'.index = q.index ∧ q'.rerun = 0 ∧ q'.seq = q.seq ∧
        (q'.slotted = true ∨ q'.done = true)))
  ∧ (∀ (s : State) (entry : Fin 1024) (n : Nat) (i : Fin 81) (w : FrameWork) (q : Pod) (r : PodRec),
    s.za.work? entry.val n = some w → (w.pods.filter (fun p => p.index == i.val)).getLast? = some q → q.rerun = 0 →
    q.final = some r → r.overflow = true → s.za.time.begun = w.begun + 1 → s.za.enginesRun = true →
    ∃ z, ZaBecomes (.podRerun entry n i) s z ∧ z.regs = s.za.regs ∧ z.worked entry.val n (fun y =>
      y.contribs = w.contribs ∧ ∃ q' ∈ y.pods, q'.index = q.index ∧ q'.rerun = 1 ∧ q'.seq = q.seq ∧
        q'.exps = rerunExps q.exps w.view.members.length 1 ∧ q'.children = q.children.filter (fun c => c.result.isNone)))
  ∧ (∀ (s : State) (entry : Fin 1024) (ch : Fin 16) (c : Ctx), s.za.ctx? entry.val = some c → s.za.enginesRun = true →
    0 < (s.za.expiredSeq c ch.val + 2 ^ 32 - c.next.getD ch.val 0) % 2 ^ 32 →
    (s.za.expiredSeq c ch.val + 2 ^ 32 - c.next.getD ch.val 0) % 2 ^ 32 < 2 ^ 31 →
    ∃ z c', ZaBecomes (.reorderSkipExpiry entry ch) s z ∧ z.ctx? entry.val = some c' ∧
      (ch.val, c.next.getD ch.val 0) ∈ c'.skipped ∧ z.works = s.za.works ∧ z.regs = s.za.regs)

/-- A data frame is scored: a row is written once its sources are there, or at 1,000,000 ns; each item is one walk on one lane, a
checked one twice, and a disagreement goes to the majority of three; a batch runs once; scores are released when all is done. -/
def Obligations.RowsAndItemsAreScored : Prop :=
  (∀ (s : State) (entry : Fin 1024) (tile : Bool) (index : Nat) (w : FrameWork) (n : Entity), s.za.work entry.val = some w →
    (w.view.entities tile)[index]? = some n → w.view.featPlan tile ≠ [] → w.row? tile n.key = none → s.za.enginesRun = true →
    w.localReady (w.view.featPlan tile) n = true → (∀ i ∈ fleetPods (w.view.featPlan tile) n, (w.final i).isSome = true) →
    ∃ z, ZaBecomes (.featureRow entry tile index) s z ∧ z.ctxs = s.za.ctxs ∧ z.dies = s.za.dies ∧ z.time = s.za.time ∧
      z.worked entry.val w.frame (fun y => y.contribs = w.contribs ∧ y.items = w.items ∧ y.rows = w.rows ++
        [(w.makeRow (s.za.featEnv s.cellDom entry.val w) (w.view.featPlan tile) n index).1]))
  ∧ (∀ (s : State) (entry : Fin 1024) (tile : Bool) (index : Nat) (w : FrameWork) (n : Entity), s.za.work entry.val = some w →
    (w.view.entities tile)[index]? = some n → w.view.featPlan tile ≠ [] → w.row? tile n.key = none → s.za.enginesRun = true →
    w.localReady (w.view.featPlan tile) n = true → (∃ i ∈ fleetPods (w.view.featPlan tile) n, w.final i = none) →
    w.begun ≠ 0 → s.za.dueAt 1000000 = true →
    ∃ z r, ZaBecomes (.featureRow entry tile index) s z ∧ z.ctxs = s.za.ctxs ∧ z.dies = s.za.dies ∧ r.fleetLate = true ∧
      r.key = n.key ∧ r.valid = true ∧ z.worked entry.val w.frame (fun y => y.contribs = w.contribs ∧ y.rows = w.rows ++ [r]))
  ∧ (∀ (s : State) (entry : Fin 1024) (score : Fin 256) (entity tree : Nat) (lane : Fin 4096) (u : WalkUpset) (w : FrameWork)
      (sec : Sec) (row : FeatRow), s.za.walkReady entry.val score.val entity tree lane.val w sec row →
    w.item? score.val entity tree = none → s.za.checkDue w sec entity tree = false →
    ∃ z x, ZaBecomes (.ensembleItem entry score entity tree lane u) s z ∧ x.score = score.val ∧ x.entity = entity ∧
      x.tree = tree ∧ x.lane = lane.val ∧ x.checkLane = none ∧
      x.leaf = ((walkTree sec.words row.values tree).upset sec.words u.primary).leaf ∧
      x.value = ((walkTree sec.words row.values tree).upset sec.words u.primary).value ∧ z.ctxs = s.za.ctxs ∧
      z.fences = s.za.fences ∧ z.worked w.entry w.frame (fun y => y.items = w.items ++ [x] ∧ y.scores = w.scores))
  ∧ (∀ (s : State) (entry : Fin 1024) (score : Fin 256) (entity tree l : Nat) (lane : Fin 4096) (u : WalkUpset) (w : FrameWork)
      (sec : Sec) (row : FeatRow) (x : ItemDone), s.za.walkReady entry.val score.val entity tree lane.val w sec row →
    w.item? score.val entity tree = some x → s.za.checkDue w sec entity tree = true → x.checkLane = none →
    s.za.checkerFor x.lane = some l → s.za.injections = [] → u.checker = none →
    x.leaf = (walkTree sec.words row.values tree).leaf → x.value = (walkTree sec.words row.values tree).value →
    x.miss = (walkTree sec.words row.values tree).miss → x.nan = (walkTree sec.words row.values tree).nan →
    ∃ z, ZaBecomes (.ensembleItem entry score entity tree lane u) s z ∧ z.ctxs = s.za.ctxs ∧
      z.fences.lanes = s.za.fences.lanes ∧ z.worked w.entry w.frame (fun y => y.disputes = w.disputes ∧
        ∃ x' ∈ y.items, x'.score = x.score ∧ x'.entity = x.entity ∧ x'.tree = tree ∧ x'.lane = x.lane ∧ x'.checkLane = some l))
  ∧ (∀ (s : State) (entry : Fin 1024) (w : FrameWork) (d : Dispute) (rest : List Dispute), s.za.scoring entry.val = some w →
    (s.za.ctx? entry.val).isSome = true → w.disputes = d :: rest → s.za.enginesRun = true → s.za.laneLive d.lane = true →
    s.za.laneLive d.checkLane = true →
    ∃ z, ZaBecomes (.checkArbitration entry) s z ∧ z.ctxs = s.za.ctxs ∧ z.regs = s.za.regs ∧
      z.worked w.entry w.frame (fun y => y.disputes = rest) ∧
      (d.refLeaf = d.leaf → d.checkLane ∈ z.fences.lanes) ∧
      (d.refLeaf ≠ d.leaf → d.refLeaf = d.checkLeaf → d.lane ∈ z.fences.lanes) ∧
      (d.refLeaf ≠ d.leaf → d.refLeaf ≠ d.checkLeaf → d.lane ∈ z.fences.lanes ∧ d.checkLane ∈ z.fences.lanes ∧
        z.worked w.entry w.frame (fun y => { score := d.score, entity := d.entity, status := 3 } ∈ y.marked)))
  ∧ (∀ (s : State) (entry : Fin 1024) (score : Fin 256) (j : Nat) (tile : Fin 32) (w : FrameWork) (sec : Sec),
    s.za.batchReady entry.val score.val j tile.val w sec → prgPre sec.words = true → (score.val, j) ∉ w.preDone →
    ∃ z, ZaBecomes (.programBatch entry score j tile false) s z ∧ z.ctxs = s.za.ctxs ∧ z.fences = s.za.fences ∧
      z.worked entry.val w.frame (fun y => y.preDone = w.preDone ++ [(score.val, j)] ∧ y.batches = w.batches ∧ y.scores = w.scores))
  ∧ (∀ (s : State) (entry : Fin 1024) (score : Fin 256) (j : Nat) (tile : Fin 32) (w : FrameWork) (sec : Sec),
    s.za.batchReady entry.val score.val j tile.val w sec → prgPre sec.words = false → (score.val, j) ∉ w.batches →
    (∀ p ∈ programs (s.za.secs w) true, p.tile = sec.tile → (p.score, j) ∈ w.preDone) →
    w.callsReady ((walked (s.za.secs w)).filter (fun x => x.slot == sec.slot && sec.calls.contains x.idx))
      ((w.rows.filter (fun r => r.tile == sec.tile && decide (r.entity / 64 = j))).filter (·.valid)) = true →
    ∃ z, ZaBecomes (.programBatch entry score j tile false) s z ∧ z.ctxs = s.za.ctxs ∧ z.fences = s.za.fences ∧
      z.worked entry.val w.frame (fun y => y.batches = w.batches ++ [(score.val, j)] ∧ y.preDone = w.preDone ∧
        ∀ r ∈ w.rows, r.tile = sec.tile → r.entity / 64 = j →
          ∃ x ∈ y.scores, x.index = sec.score ∧ x.key = r.key ∧ x.frame = w.frame ∧ x.status = (if r.valid then
            b2n (w.marked.any (fun m => m.score == sec.score && m.entity == r.entity && m.status == 1)) else 2)))
  ∧ (∀ (s : State) (entry : Fin 1024) (w : FrameWork), s.za.scoring entry.val = some w → s.za.frameDone w = true →
    (∀ x ∈ w.withheld, x.2 ≠ 0) → s.za.enginesRun = true →
    ∃ z, ZaBecomes (.scoringComplete entry) s z ∧ z.ctxs = s.za.ctxs ∧ z.fences = s.za.fences ∧
      z.worked w.entry w.frame (fun y => y.scored = true ∧ y.items = w.items ∧ y.rows = w.rows ∧
        ∀ sec ∈ s.za.secs w, sec.kind = 1 → sec.direct = true → ∀ i n, (w.view.entities sec.tile)[i]? = some n →
          ∃ x ∈ y.scores, x.index = sec.score ∧ x.entity = i ∧ x.key = n.key ∧ x.frame = w.frame ∧
            x.out = (s.za.ensScore w sec i n.key).out))

/-- Detectors, bands and parameters: a record climbs to SUSPECT and CONFIRMED by runs of outcomes and returns to NORMAL by runs
within the band, unless latched; a frame's detectors run once; core 4 derives one band set a die; the parameters then leave. -/
def Obligations.DetectorsJudgeAndReturnBands : Prop :=
  (∀ (r : DetRec) (d : List W) (k : Nat),
    (r.step d (.confirm k)).1.state = .confirmed ∧ (r.step d (.confirm k)).1.latched = true)
  ∧ (∀ (r : DetRec) (d : List W) (high : Bool) (k n : Nat), n = min ((if (if high then 1 else 2) = r.runDir then r.run else 0) + 1) 63 →
    (r.step d (.out high k)).1.run = n ∧ (r.step d (.out high k)).1.clearRun = 0 ∧
      (detConfirmN d ≤ n → (r.step d (.out high k)).1.state = .confirmed) ∧
      (n < detConfirmN d → detSuspectN d ≤ n → r.state = .normal → (r.step d (.out high k)).1.state = .suspect) ∧
      (n < detConfirmN d → n < detSuspectN d → (r.step d (.out high k)).1.state = r.state))
  ∧ (∀ (r : DetRec) (d : List W), (r.state = .suspect ∨ r.state = .confirmed) →
    (r.step d .inBand).1.run = 0 ∧
      (detClearN d ≤ min (r.clearRun + 1) 255 → r.latched = false → (r.step d .inBand).1.state = .normal) ∧
      (min (r.clearRun + 1) 255 < detClearN d ∨ r.latched = true → (r.step d .inBand).1.state = r.state))
  ∧ (∀ (s : State) (entry : Fin 1024) (w : FrameWork) (c : Ctx), s.za.work entry.val = some w → s.za.ctx? entry.val = some c →
    w.scored = true → w.detected = false → s.za.enginesRun = true →
    ∃ z, ZaBecomes (.detectorRun entry) s z ∧ z.regs = s.za.regs ∧ z.tag = s.za.tag ∧ z.models = s.za.models ∧
      z.worked entry.val w.frame (fun y => y.detected = true ∧ y.scores = w.scores ∧ y.rows = w.rows))
  ∧ (∀ (s : State) (entry : Fin 1024) (w : FrameWork) (c : Ctx), s.za.work entry.val = some w → s.za.ctx? entry.val = some c →
    w.detected = true → w.bands = [] → s.za.enginesRun = true → 4 ∉ s.za.fences.cores →
    ∃ z, ZaBecomes (.bandDerive entry) s z ∧ z.ctxs = s.za.ctxs ∧ z.dies = s.za.dies ∧ z.detRecs = s.za.detRecs ∧
      z.worked entry.val w.frame (fun y => y.bands.map Prod.fst = w.view.tray.map (·.die) ∧
        (∀ b ∈ y.bands, b.2.length = 256) ∧ y.scores = w.scores))
  ∧ (∀ (s : State) (entry : Fin 1024) (die : BitVec 20) (w : FrameWork) (c : Ctx) (d : DieEntry) (b : Nat × List (List W))
      (sl : DtuSlot), s.za.work entry.val = some w → s.za.ctx? entry.val = some c → s.za.die? die.toNat = some d →
    w.bands.find? (fun x => x.1 == die.toNat) = some b →
    (d.slots.filter (fun x => x.busyFrom s.za.frameNow)).find? (fun x => x.ctx == c.id && x.gen == c.gen) = some sl →
    die.toNat ∉ w.params → d.admitted = true → d.fenced = none → s.za.isHeld d = false → s.za.enginesRun = true →
    s.za.lowerWaits d sl.slot = false →
    ∃ z q, ZaBecomes (.paramSend entry die) s z ∧ z.ctxs = s.za.ctxs ∧ z.regs = s.za.regs ∧ q ∈ (z.link d.link).queue ∧
      q.die = some die.toNat ∧ q.frame.cls = 4 ∧ q.frame.msg = 1 ∧ q.frame.dest = dtuMac die.toNat ∧
      q.frame.ctx.toNat = c.id % 65536 ∧ z.worked entry.val w.frame (fun y => y.params = w.params ++ [die.toNat]))

/-- The ZA40's tick: time moves to the next frame of its own numbering; without firmware nothing else happens, and with it the
frame's Hail falls due and records of 64 frames ago go. While the counter does not tick the row changes nothing. -/
def Obligations.ZaTickBeginsTheFrame : Prop :=
  (∀ (s : State), s.za.time.ticking = false ∨ s.za.power.powered = false → LeavesAll .zaTick s)
  ∧ (∀ (s : State), s.za.time.ticking = true → s.za.power.powered = true → s.za.time.stepDue = none → s.za.running = false →
    ZaBecomes .zaTick s { s.za with time := s.za.time.tick s.za.slewMax zaNominal })
  ∧ (∀ (s : State), s.za.time.ticking = true → s.za.power.powered = true → s.za.time.stepDue = none → s.za.running = true →
    ∃ z, ZaBecomes .zaTick s z ∧ z.time.frame = s.za.time.nextFrame ∧ z.time.nextFrame = s.za.time.nextFrame + 1 ∧
      z.time.begun = s.za.time.begun + 1 ∧ z.time.prevFrame = s.za.time.frame ∧ z.hailDue = some s.za.time.nextFrame ∧
      (∀ k ∈ z.kept, z.time.begun ≤ k.begun + 64) ∧ (∀ x ∈ z.externals, s.za.time.nextFrame ≤ x.frame) ∧
      z.summary.isSome = true ∧ z.time.skipped = 0 ∧ z.time.stretched = 0)

/-! ### Models, their copies and the Seedbank. -/

/-- Model images: a load takes the free area and asks the first source, an offer opens the transfer, chunks extend it and gaps are
asked for again, a decline or a stall moves to the next source; a sound image is placed and is then ready; queries run on it; what
is held is served, and the copies of a version are compared, the minority being expelled. -/
def Obligations.ImagesAreFetchedPlacedAndCompared : Prop :=
  (∀ (s : State) (h : HuskCmd) (z : Za) (handle : W) (e : Nat) (c : Ctx), s.za.begins .modelLoad h z handle →
    z.cmdCtx h = some (e, c) → z.earliest c ≤ z.frameOf (huskP0 h) → z.slot? e (huskP1 h % 16) = none →
    word (huskPay h) 6 = 0 → word (huskPay h) 7 = 0 →
    wf (huskPay h) 4 31 16 ≤ 4095 → wf (huskPay h) 4 15 0 ≤ 4095 → wf (huskPay h) 5 31 16 ≤ 4095 → wf (huskPay h) 5 15 0 ≤ 4095 →
    ∃ t a, ZaDraws (.modelLoad h) s t ∧ t.coming e (huskP1 h % 16) = some a ∧ a.state = .fetching ∧ a.handle = handle ∧
      a.modelId = word (huskPay h) 0 ∧ a.version = wf (huskPay h) 1 31 16 ∧ a.digest = dword (huskPay h) 2 ∧
      a.front = z.frameOf (huskP0 h) ∧ a.image = [] ∧ a.fetch.isSome = true ∧ t.works = z.works)
  ∧ (∀ (s : State) (p : Fin 82) (f : Frame) (z : Za) (e sl : Nat) (a : ModelArea) (c : Ctx) (x : ModelFetch),
    s.za.bringsFetch p.val f 2 z → z.fetchSlot f = some (e, sl) → z.coming e sl = some a → z.ctx? e = some c →
    a.fetch = some x → x.offered = false →
    (a.handle = 0 ∨ z.modelPages e + pagesOf (word f.body 7).toNat ≤ c.q.modelPages) →
    ∃ t a', ZaBecomes (.fetchOffer p f) s t ∧ t.coming e sl = some a' ∧ a'.imageLen = (word f.body 7).toNat ∧
      a'.image = a.image ∧ a'.state = a.state ∧ a'.fetch = some { x with offered := true } ∧ t.ctxs = z.ctxs)
  ∧ (∀ (s : State) (p : Fin 82) (f : Frame) (z : Za) (e sl : Nat) (a : ModelArea) (c : Ctx) (x : ModelFetch) (src : FetchSource)
      (rest : List FetchSource), s.za.bringsFetch p.val f 3 z → z.fetchSlot f = some (e, sl) → z.coming e sl = some a →
    z.ctx? e = some c → a.fetch = some x → x.left = src :: rest →
    ∃ t a' y, ZaBecomes (.fetchDecline p f) s t ∧ t.coming e sl = some a' ∧ a'.fetch = some y ∧ y.source = src ∧
      y.left = rest ∧ y.fetchId = z.fetchId ∧ a'.image = [] ∧ t.ctxs = z.ctxs)
  ∧ (∀ (s : State) (p : Fin 82) (f : Frame) (z : Za) (e sl : Nat) (a : ModelArea) (c : Ctx) (x : ModelFetch) (data : List Byte),
    s.za.bringsFetch p.val f 4 z → z.fetchSlot f = some (e, sl) → z.coming e sl = some a → z.ctx? e = some c →
    a.fetch = some x → x.offered = true → data = ((bytesOf f.body).take f.plen.toNat).drop 32 →
    (word f.body 7).toNat = 4 * a.image.length → 4 * a.image.length < a.imageLen →
    4 * a.image.length + data.length ≤ a.imageLen →
    (data.length % 4 = 0 ∨ 4 * a.image.length + data.length = a.imageLen) →
    ∃ t a', ZaBecomes (.fetchChunk p f) s t ∧ t.coming e sl = some a' ∧ a'.image = a.image ++ wordsOf data ∧
      (4 * a.image.length + data.length = a.imageLen → a'.state = .verifying) ∧
      (4 * a.image.length + data.length < a.imageLen → a'.state = a.state) ∧ t.ctxs = z.ctxs)
  ∧ (∀ (s : State) (p : Fin 82) (f : Frame) (z : Za) (e sl : Nat) (a : ModelArea) (c : Ctx) (x : ModelFetch),
    s.za.bringsFetch p.val f 4 z → z.fetchSlot f = some (e, sl) → z.coming e sl = some a → z.ctx? e = some c →
    a.fetch = some x → x.offered = true → 4 * a.image.length < (word f.body 7).toNat → 4 * a.image.length < a.imageLen →
    x.gaps < 4 →
    ∃ t a' y, ZaBecomes (.fetchChunk p f) s t ∧ t.coming e sl = some a' ∧ a'.fetch = some y ∧ y.gaps = x.gaps + 1 ∧
      y.source = x.source ∧ a'.image = a.image ∧ t.ctxs = z.ctxs)
  ∧ (∀ (s : State) (entry : Fin 1024) (sl : Fin 16) (a : ModelArea) (c : Ctx) (x : ModelFetch) (src : FetchSource)
      (rest : List FetchSource), s.za.coming entry.val sl.val = some a → s.za.ctx? entry.val = some c → a.fetching = true →
    s.za.enginesRun = true → a.fetch = some x → x.left = src :: rest →
    ∃ t a' y, ZaBecomes (.fetchSourceTimeout entry sl) s t ∧ t.coming entry.val sl.val = some a' ∧ a'.fetch = some y ∧
      y.source = src ∧ y.left = rest ∧ a'.image = [] ∧ t.ctxs = s.za.ctxs)
  ∧ (∀ (s : State) (entry : Fin 1024) (sl : Fin 16) (a : ModelArea) (c : Ctx) (tiles : List (Nat × List Nat)),
    s.za.coming entry.val sl.val = some a → s.za.ctx? entry.val = some c → a.state = .verifying → s.za.enginesRun = true →
    imageDigest ((bytesOf a.image).take a.imageLen) = a.digest → imageFault c a = none →
    s.za.placeTiles c.q.detCost a.image ((sectsOf a.image).filter (fun x => x.kind == 3)) [] [] = .inl tiles →
    (a.handle = 0 ∨ s.za.modelCost entry.val sl.val c.q.detCost a.image ≤ c.q.tensorCost ∧
      s.za.statePages entry.val c.plans.det ≤ 3968) →
    ∃ t a', ZaBecomes (.modelVerify entry sl) s t ∧ t.coming entry.val sl.val = some a' ∧ a'.state = .placing ∧
      a'.tiles = tiles ∧ a'.image = a.image ∧ a'.version = a.version ∧ t.ctxs = s.za.ctxs)
  ∧ (∀ (s : State) (entry : Fin 1024) (sl : Fin 16) (a : ModelArea) (c : Ctx) (x : ModelFetch) (src : FetchSource)
      (rest : List FetchSource), s.za.coming entry.val sl.val = some a → s.za.ctx? entry.val = some c → a.state = .verifying →
    s.za.enginesRun = true → imageDigest ((bytesOf a.image).take a.imageLen) ≠ a.digest → a.fetch = some x →
    x.left = src :: rest →
    ∃ t a' y, ZaBecomes (.modelVerify entry sl) s t ∧ t.coming entry.val sl.val = some a' ∧ a'.fetch = some y ∧
      y.source = src ∧ a'.image = [] ∧ a'.state = (if a.handle = 0 then .repairing else .fetching) ∧ t.ctxs = s.za.ctxs)
  ∧ (∀ (s : State) (entry : Fin 1024) (sl : Fin 16) (a : ModelArea), s.za.coming entry.val sl.val = some a →
    a.state = .placing → s.za.enginesRun = true →
    ∃ t, ZaBecomes (.modelPlaced entry sl) s t ∧ t.coming entry.val sl.val = some { a with state := .ready } ∧
      t.ctxs = s.za.ctxs ∧ t.works = s.za.works)
  ∧ (∀ (s : State) (h : HuskCmd) (z : Za) (handle : W) (e : Nat) (c : Ctx) (m : ModelSlot) (a : ModelArea) (sec : Sec)
      (rows : List FeatRow), s.za.begins .modelQuery h z handle → z.cmdCtx h = some (e, c) → bit h.w6 31 = false →
    z.slot? e (fld h.w6 7 4) = some m → m.cur = some a → a.state = .current →
    (a.secs (fld h.w6 7 4)).find? (fun x => x.idx == fld h.w6 3 0) = some sec → (sec.kind = 3 → prgPre sec.words = false) →
    (∀ k ∈ huskPay h, bit k 26 = sec.tile) →
    (huskPay h).map (fun k => ((z.works.filter (fun w => w.entry == e)).filterMap
      (fun w => (w.row? sec.tile k).filter (·.valid))).getLast?) = rows.map some →
    ∃ t x, ZaDraws (.modelQuery h) s t ∧ x ∈ t.cmds.handles ∧ x.handle = handle ∧
      x.done = some { okPayload (z.queryScores e sec a (if sec.tile then c.plans.tile else c.plans.die) rows) with
        result0 := sec.version } ∧ t.ctxs = z.ctxs ∧ t.progState = z.progState ∧ t.works = z.works)
  ∧ (∀ (s : State) (p : Fin 82) (f : Frame) (z : Za) (e n : Nat) (sv : Serving) (first : List Byte),
    s.za.bringsFetch p.val f 1 z →
    (∀ x ∈ z.serving, ¬(x.peer = f.src ∧ x.link = p.val ∧ x.hdr = f.body.take 7)) → z.declineWhy p.val f = none →
    z.entryOf (wf f.body 2 31 16) (wf f.body 2 15 8) = some e →
    sv = { peer := f.src, link := p.val, fetchId := word f.body 1, model := some (e, wf f.body 2 7 4),
           offset := (word f.body 7).toNat, hdr := f.body.take 7 } → z.servedFrom sv = some (n, first) →
    ZaBecomes (.fetchReq p f) s (Za.fetchFrame { z with serving := z.serving ++ [sv] } p.val f.src 2 f.body n []))
  ∧ (∀ (s : State) (p : Fin 82) (f : Frame) (z : Za) (why : Nat), s.za.bringsFetch p.val f 1 z →
    (∀ x ∈ z.serving, ¬(x.peer = f.src ∧ x.link = p.val ∧ x.hdr = f.body.take 7)) → z.declineWhy p.val f = some why →
    ZaBecomes (.fetchReq p f) s (z.fetchFrame p.val f.src 3 f.body why []))
  ∧ (∀ (s : State) (f : Frame) (z : Za) (ws : List W) (e n : Nat) (m : ModelSlot) (a : ModelArea) (c : Ctx) (v : CtxView) (w : FrameWork),
    s.za.bringsReplica f 0 z ws e m a → n = z.frameOf (word ws 4).toNat → n % 64 = 0 → z.work e = some w → w.frame = n →
    z.ctx? e = some c → c.views.find? (fun x => x.frame == n) = some v → wf ws 1 23 12 ∈ z.replicaGroup v →
    (∀ r ∈ z.replicas, ¬(r.entry = e ∧ r.slot = wf ws 0 23 20 ∧ r.frame = n)) →
    (∃ k ∈ z.replicaGroup v, k ≠ wf ws 1 23 12) →
    ∃ t r, ZaBecomes (.replicaReport f) s t ∧ t.replicas = z.replicas ++ [r] ∧ r.entry = e ∧ r.slot = wf ws 0 23 20 ∧
      r.frame = n ∧ r.reports = [(wf ws 1 23 12, dword ws 5, bit (word ws 1) 7)] ∧ t.models = z.models ∧ t.works = z.works)
  ∧ (∀ (s : State) (entry : Fin 1024) (sl : Fin 16) (r : Replica),
    s.za.replicas.find? (fun x => x.entry == entry.val && x.slot == sl.val) = some r → s.za.dueAt 917504 = true →
    s.za.enginesRun = true →
    ∃ t, ZaBecomes (.replicaCollectTimeout entry sl) s t ∧ 917504 ≤ t.sinceTick ∧ t.ctxs = s.za.ctxs ∧
      t.replicas = s.za.replicas.filter (fun x => !(x.entry == r.entry && x.slot == r.slot && x.frame == r.frame)))
  ∧ (∀ (s : State) (f : Frame) (z : Za) (ws : List W) (e n : Nat) (m : ModelSlot) (a : ModelArea) (c : Ctx) (w : FrameWork),
    s.za.bringsReplica f 1 z ws e m a → n = z.frameOf (word ws 4).toNat → z.ctx? e = some c → z.work? e n = some w →
    (wf ws 0 23 20, 0) ∈ w.withheld →
    ∃ t m', ZaBecomes (.replicaVerdict f) s t ∧ t.slot? e (wf ws 0 23 20) = some m' ∧ t.ctxs = z.ctxs ∧
      (wf ws 1 11 8 = 1 → m'.cur = some { a with state := .expelled } ∧ m'.agree = m.agree ∧
        t.worked e n (fun y => (wf ws 0 23 20, 1) ∈ y.withheld ∧ (wf ws 0 23 20, 0) ∉ y.withheld)) ∧
      (wf ws 1 11 8 = 0 → m'.cur = some a ∧ m'.agree = n ∧
        t.worked e n (fun y => ∀ x ∈ y.withheld, x.1 ≠ wf ws 0 23 20)))

/-- The Seedbank: a primary pairs with a partner of another rack, sends what has changed and learns what is held; the partner stages
and commits updates and gives back what it holds; 64 frames without an ACK lose it; damaged records come back. Checkpoints are sent
and kept, and a rebuild takes its base, asks for the replay, and goes live. -/
def Obligations.MirrorsCheckpointsAndRebuilds : Prop :=
  (∀ (s : State) (h : HuskCmd) (z : Za) (handle : W), s.za.begins .seedPair h z handle → huskP0 h ≤ 4095 →
    z.sameRack (huskP0 h) = false →
    ∃ t x, ZaDraws (.seedPair h) s t ∧ t.seed = some x ∧ x.partner = huskP0 h ∧ x.valid = false ∧ x.resync = true ∧
      x.handle = handle ∧ x.flight = [] ∧ t.seedHeld = z.seedHeld ∧ t.ctxs = z.ctxs)
  ∧ (∀ (s : State) (x : SeedPrimary), s.za.seed = some x → x.resync = true → s.za.running = true →
    ∃ z, ZaBecomes .seedResync s z ∧ z.seed = some { x with
        resync := false, resyncEnd := some x.lastDone, mirror := s.za.seedItems, dirty := [], due := [] } ∧
      z.ctxs = s.za.ctxs ∧ z.seedHeld = s.za.seedHeld)
  ∧ (∀ (s : State) (x : SeedPrimary) (n : Nat) (items : List SeedItem) (rest : List (Nat × List SeedItem)), s.za.seed = some x →
    x.due = (n, items) :: rest → x.resync = false → s.za.enginesRun = true →
    ∃ z y, ZaBecomes .seedUpdateSend s z ∧ z.seed = some y ∧ y.due = rest ∧ y.mirror = items ∧ y.committed = x.committed ∧
      (s.za.time.begunFrom n s.za.frameNow < 3 → y.flight = x.flight ++ [(n, x.dirtyItems items)]) ∧
      (3 ≤ s.za.time.begunFrom n s.za.frameNow → y.flight = x.flight) ∧ z.ctxs = s.za.ctxs ∧ z.works = s.za.works)
  ∧ (∀ (s : State) (f : Frame) (z : Za) (ws : List W) (x : SeedPrimary), s.za.bringsSeed f 2 z ws → z.seed = some x →
    sFrom ws = x.partner →
    ∃ t y, ZaBecomes (.seedAck f) s t ∧ t.seed = some y ∧ y.committed = max x.committed (z.frameOf (word ws 1).toNat) ∧
      y.lastAck = z.time.begun ∧ (x.resyncEnd.isSome = true → y.valid = true) ∧
      (∀ p ∈ y.flight, p.1 ≠ z.frameOf (word ws 1).toNat) ∧ t.ctxs = z.ctxs)
  ∧ (∀ (s : State) (f : Frame) (z : Za) (ws : List W) (x : SeedPrimary), s.za.bringsSeed f 3 z ws → z.rebuild = none →
    z.seed = some x → sFrom ws = x.partner → (x.valid = true ∨ sItems true ws ≠ []) →
    ∃ t y, ZaBecomes (.seedNack f) s t ∧ t.seed = some y ∧ y.committed = x.committed ∧
      (∀ p ∈ y.flight, p.1 ≠ z.frameOf (word ws 1).toNat) ∧ (∀ n ∈ x.dirty, n ∈ y.dirty) ∧
      (∀ i ∈ sItems true ws, i.name ∈ y.dirty) ∧ t.ctxs = z.ctxs)
  ∧ (∀ (s : State) (x : SeedPrimary), s.za.seed = some x → x.lastAck + 64 ≤ s.za.time.begun → s.za.running = true →
    ∃ z, ZaBecomes .seedbankLost s z ∧ z.seed = none ∧ z.ctxs = s.za.ctxs ∧ z.seedHeld = s.za.seedHeld ∧
      (∀ h ∈ z.cmds.handles, h.handle = x.handle → x.handle ≠ 0 → h.done.isSome = true))
  ∧ (∀ (s : State) (f : Frame) (z : Za) (ws : List W) (g : SeedHeld), s.za.bringsSeed f 0 z ws → z.seedHeld = some g →
    g.primary = sFrom ws →
    ∃ t g', ZaBecomes (.seedDelta f) s t ∧ t.seedHeld = some g' ∧ g'.items = g.items ∧ g'.committed = g.committed ∧
      g'.stageFrame = z.frameOf (word ws 1).toNat ∧ aGet g'.stage (word ws 2).toNat = some (sItems false ws) ∧ t.ctxs = z.ctxs ∧
      t.seed = z.seed)
  ∧ (∀ (s : State) (f : Frame) (z : Za) (ws : List W) (g : SeedHeld) (parts : List (List SeedItem)), s.za.bringsSeed f 1 z ws →
    z.rebuild = none → z.seedHeld = some g → g.primary = sFrom ws → g.staged (word ws 2).toNat = some parts →
    seedDigest parts = dword ws 4 → g.stageFrame = z.frameOf (word ws 1).toNat →
    ∃ t g', ZaBecomes (.seedCommit f) s t ∧ t.seedHeld = some g' ∧ g'.items = applyItems g.items parts.flatten ∧
      g'.committed = z.frameOf (word ws 1).toNat ∧ g'.stage = [] ∧ t.ctxs = z.ctxs ∧ t.seed = z.seed)
  ∧ (∀ (s : State) (f : Frame) (z : Za) (ws : List W) (g : SeedHeld) (parts : List (List SeedItem)), s.za.bringsSeed f 1 z ws →
    z.rebuild = none → z.seedHeld = some g → g.primary = sFrom ws → g.staged (word ws 2).toNat = some parts →
    seedDigest parts ≠ dword ws 4 →
    ∃ t g', ZaBecomes (.seedCommit f) s t ∧ t.seedHeld = some g' ∧ g'.items = g.items ∧ g'.committed = g.committed ∧ g'.stage = [])
  ∧ (∀ (s : State) (f : Frame) (z : Za) (ws : List W) (g : SeedHeld), s.za.bringsSeed f 6 z ws → z.seedHeld = some g →
    sItems true ws = [] →
    ∃ t, ZaBecomes (.restoreReq f) s t ∧ t.seedHeld = some { g with read := true } ∧ t.ctxs = z.ctxs ∧ t.seed = z.seed)
  ∧ (∀ (s : State) (f : Frame) (z : Za) (ws : List W) (e : Nat) (c : Ctx) (i : SeedItem) (r : DetRec), s.za.bringsSeed f 7 z ws →
    z.rebuild = none → sItems false ws = [i] → i.cls = 3 → z.restores = [{ names := [i.name], begun := z.time.begun }] →
    z.entryOf i.ctx i.gen = some e → z.ctx? e = some c →
    r = detRecOf e i.index i.key (z.frameOf (word i.data 5).toNat) i.data →
    ∃ t, ZaBecomes (.restoreData f) s t ∧ t.restores = [] ∧ { r with posted := r.state.code } ∈ t.detRecs ∧ t.works = z.works)
  ∧ (∀ (s : State), s.za.enginesRun = true → s.za.time.ticking = true → s.za.ckptFrame ≠ 0 →
    s.za.frameNow ≤ s.za.ckptFrame + 1024 → s.za.rack.own = none →
    (∀ w ∈ s.za.works, w.frame = s.za.ckptFrame → w.detected = true ∨ w.abandoned = true) →
    ∃ z, ZaBecomes .checkpoint s z ∧ z.rack.own = some (s.za.ckptFrame, s.za.seedItems) ∧ z.ctxs = s.za.ctxs ∧
      (s.za.rack.units ≠ [] → z.rack.ownDone = s.za.ckptFrame))
  ∧ (∀ (s : State) (h : HuskCmd) (z : Za), s.za.accepts .ckptPut h → z = s.za.met .ckptPut h → z.rebuild = none →
    z.isRm = true → z.standbyId = 0 → huskHandle h = 0 →
    ∃ t, ZaDraws (.ckptPut h) s t ∧ t.ctxs = z.ctxs ∧ t.rack.units = z.rack.units ∧
      ∃ k ∈ t.rack.held, k.agg = bits h.req.addr.toNat 31 20 ∧ k.frame = z.frameOf (huskP0 h) ∧
        aGet k.parts (fld h.w6 15 0) = some (if bit h.w6 31 then (huskPay h).take ((huskPay h).length - 2) else huskPay h))
  ∧ (∀ (s : State) (h : HuskCmd) (z : Za) (handle : W) (k : Checkpoint), s.za.begins .ckptGet h z handle → z.isRm = true →
    (z.rack.held.filter (fun c => c.agg == huskP0 h && c.complete)).getLast? = some k →
    ∃ t x, ZaDraws (.ckptGet h) s t ∧ x ∈ t.cmds.handles ∧ x.handle = handle ∧ x.done = some (okValue (k.frame % 2 ^ 32)) ∧
      t.rack = z.rack ∧ t.ctxs = z.ctxs)
  ∧ (∀ (s : State) (agg : BitVec 12) (n : Nat), n = (s.za.frameNow - 1024) / 4096 * 4096 → n ≠ 0 → s.za.running = true →
    s.za.isRm = true → (∃ u ∈ s.za.rack.units, u.agg = agg.toNat) → (∀ x ∈ s.za.rack.held, ¬(x.agg = agg.toNat ∧ x.frame = n)) →
    ∃ z, ZaBecomes (.ckptIncomplete agg) s z ∧ z.ctxs = s.za.ctxs ∧
      z.rack.held = s.za.rack.held ++ [{ agg := agg.toNat, frame := n, complete := false, said := true, parts := [] }])
  ∧ (∀ (s : State) (h : HuskCmd) (z : Za) (handle : W), s.za.begins .rebuild h z handle → z.rebuild = none →
    (∀ p ∈ z.jobs, p.2.state ≠ .active) → wf (huskPay h) 0 31 16 ≤ 4095 → z.time.plusTwo + 6 ≤ z.frameOf (huskP0 h) → huskP1 h ≠ 0 →
    ∃ t rb, ZaDraws (.rebuild h) s t ∧ t.rebuild = some rb ∧ rb.handle = handle ∧ rb.front = z.frameOf (huskP0 h) ∧
      rb.failed = wf (huskPay h) 0 31 16 ∧ rb.partner = huskP1 h ∧ rb.phase = 1 ∧ rb.asked = false ∧ t.ctxs = z.ctxs)
  ∧ (∀ (s : State) (rb : Rebuild), s.za.rebuild = some rb → s.za.running = true → rb.baseOpen = true → 17 ≤ rb.idle →
    s.za.isRm = false → s.za.rack.units ≠ [] →
    ∃ z rb', ZaBecomes .rebuildPartnerStall s z ∧ z.rebuild = some rb' ∧ rb'.phase = 2 ∧ rb'.items = [] ∧ rb'.front = rb.front ∧
      rb'.handle = rb.handle ∧ z.ctxs = s.za.ctxs)
  ∧ (∀ (s : State) (rb : Rebuild), s.za.rebuild = some rb → s.za.enginesRun = true → rb.phase ≠ 4 →
    rb.front ≤ s.za.frameNow + 4 → s.za.frameNow < rb.front → rb.asked = false →
    ∃ z rb', ZaBecomes .rebuildReplay s z ∧ z.rebuild = some rb' ∧ rb'.asked = true ∧ rb'.phase = 3 ∧ rb'.front = rb.front ∧
      z.ctxs = s.za.ctxs ∧ z.works = s.za.works)
  ∧ (∀ (s : State) (rb : Rebuild), s.za.rebuild = some rb → s.za.running = true → rb.phase ≠ 4 → rb.front ≤ s.za.frameNow →
    ∃ z rb', ZaBecomes .rebuildLive s z ∧ z.rebuild = some rb' ∧ rb'.phase = 4 ∧ rb'.items = [] ∧ rb'.base = rb.base ∧
      (∀ w ∈ z.works, w.begun ≠ 0) ∧ (∀ p ∈ z.rack.fencedAggs, p.1 ≠ s.za.aggId) ∧ z.ctxs = s.za.ctxs ∧
      (∀ h ∈ z.cmds.handles, h.handle = rb.handle → rb.handle ≠ 0 → h.done.isSome = true))

/-! ### Frost, the rack, fences, memory, boot and power at the ZA40. -/

/-- Frost at the ZA40: armed it stops at T, or at once on NOW; messages go to every DTU of the tray until acknowledged; the capture
window ends and judges the cut; a thaw resumes; a snapshot is given out unit by unit. LOOP_TEST and FAULT_INJECT act on links and
units. -/
def Obligations.TheFabricStopsAndThaws : Prop :=
  (∀ (s : State) (h : HuskCmd) (z : Za) (handle : W), s.za.begins .frostArm h z handle →
    z.time.plusTwo ≤ dword (huskPay h) 0 / 2 ^ 20 → z.frost.state = 0 → z.liveDies ≠ [] →
    ∃ t, ZaDraws (.frostArm h) s t ∧ t.frost.state = 1 ∧ t.frost.full = bit h.w6 0 ∧ t.frost.frostId = h.w5 ∧
      t.frost.t = dword (huskPay h) 0 ∧ t.frost.message = 1 ∧ t.frost.targets = z.liveDies.map (·.die) ∧ t.frost.acked = [] ∧
      t.frost.armHandle = handle ∧ t.ctxs = z.ctxs ∧ t.works = z.works)
  ∧ (∀ (s : State) (h : HuskCmd) (z : Za), s.za.accepts .frostCancel h → z = s.za.met .frostCancel h → z.frost.state = 1 →
    z.frost.frostId = h.w5 →
    ∃ t, ZaDraws (.frostCancel h) s t ∧ t.frost.state = 0 ∧ t.frost.message = 2 ∧ t.frost.armHandle = 0 ∧ t.ctxs = z.ctxs ∧
      t.works = z.works)
  ∧ (∀ (s : State), s.za.frost.state = 1 → s.za.running = true → s.za.mayReach s.za.frost.t = true →
    ∃ z, ZaBecomes (.frostStop .za) s z ∧ z.frost.state = 2 ∧ z.frost.smear = false ∧ z.frost.stopNs = z.nowNs ∧
      s.za.frost.t ≤ z.frost.stopNs ∧ z.frost.snapshot.isSome = true ∧ z.frost.windowEnd.isSome = true ∧ z.works = s.za.works ∧
      z.ctxs = s.za.ctxs)
  ∧ (∀ (s : State) (h : HuskCmd) (z : Za), s.za.accepts .frostNow h → z = s.za.met .frostNow h → z.frost.state ≠ 2 →
    ∃ t, ZaDraws (.frostNow h) s t ∧ t.frost.state = 2 ∧ t.frost.smear = true ∧ t.frost.frostId = h.w5 ∧
      t.frost.full = bit h.w6 0 ∧ t.frost.message = 3 ∧ t.frost.snapshot.isSome = true ∧ t.works = z.works ∧ t.ctxs = z.ctxs)
  ∧ (∀ (s : State) (p : Fin 82) (f : Frame) (z : Za), s.za.takes p.val f → z = s.za.taken p.val f → frostSound f = true →
    z.running = true → word f.body 0 ∉ z.frost.seen → z.frost.state ≠ 2 →
    ∃ t, ZaBecomes (.now .za p f) s t ∧ t.frost.state = 2 ∧ t.frost.smear = true ∧ t.frost.frostId = word f.body 0 ∧
      t.frost.seen = z.frost.seen ++ [word f.body 0] ∧ t.frost.message = 3 ∧ t.works = z.works ∧ t.ctxs = z.ctxs)
  ∧ (∀ (s : State) (h : HuskCmd) (z : Za) (handle : W), s.za.begins .frostThaw h z handle → z.frost.state = 2 →
    z.frost.frostId = h.w5 → z.time.plusTwo ≤ dword (huskPay h) 0 / 2 ^ 20 →
    ∃ t, ZaDraws (.frostThaw h) s t ∧ t.frost.state = 2 ∧ t.frost.thawAt = some (dword (huskPay h) 0) ∧
      t.frost.thawHandle = handle ∧ t.frost.message = 4 ∧ t.frost.snapshot = z.frost.snapshot ∧ t.works = z.works)
  ∧ (∀ (s : State) (at_ : Nat), s.za.frost.state = 2 → s.za.frost.thawAt = some at_ → s.za.running = true →
    s.za.mayReach at_ = true →
    ∃ z, ZaBecomes (.thawInstant .za) s z ∧ z.frost.state = 0 ∧ z.frost.thawAt = none ∧ at_ ≤ z.nowNs ∧
      z.frost.snapshot = s.za.frost.snapshot ∧ z.staged = [])
  ∧ (∀ (s : State) (p : Fin 82) (f : Frame) (z : Za) (die : Nat), s.za.takes p.val f → z = s.za.taken p.val f →
    frostSound f = true → z.fromDie p.val f = some die → word f.body 0 = z.frost.frostId → wf f.body 1 23 16 = z.frost.message →
    die ∈ z.frost.targets → die ∉ z.frost.acked →
    ∃ t, ZaBecomes (.ack p f) s t ∧ t.frost.acked = z.frost.acked ++ [die] ∧ t.frost.state = z.frost.state ∧ t.works = z.works ∧
      (z.frost.message = 1 → z.frost.armHandle ≠ 0 → (∀ x ∈ z.frostOwed, x = die) →
        ∀ x ∈ t.cmds.handles, x.handle = z.frost.armHandle → x.done.isSome = true))
  ∧ (∀ (s : State) (die : Nat) (d : DieEntry), s.za.running = true →
    (s.za.frost.message = 1 ∧ s.za.frost.state = 1 ∨ s.za.frost.message = 3 ∨ s.za.frost.message = 4) → die ∈ s.za.frostOwed →
    s.za.die? die = some d → s.za.isHeld d = false →
    ∃ z q, ZaBecomes .frostRepeat s z ∧ q ∈ (z.link d.link).queue ∧ q.die = some die ∧ q.frame.cls = 2 ∧
      q.frame.msg = s.za.frost.message ∧ q.frame.dest = dtuMac die ∧ z.frost = s.za.frost ∧ z.works = s.za.works ∧
      z.ctxs = s.za.ctxs)
  ∧ (∀ (s : State) (e : Nat), s.za.frost.windowEnd = some e → s.za.mayReach e = true →
    ∃ z, ZaBecomes (.captureWindowEnd .za) s z ∧ z.frost.windowEnd = none ∧ e ≤ z.nowNs ∧
      z.frost.cutComplete = (!s.za.frost.smear && !s.za.frost.stepped && !s.za.frost.capFull && !s.za.frost.spoiled &&
        decide (s.za.frost.timeState = 2)) ∧ z.frost.snapshot = s.za.frost.snapshot ∧ z.works = s.za.works ∧ z.ctxs = s.za.ctxs)
  ∧ (∀ (s : State) (h : HuskCmd) (z : Za) (handle : W) (snap : ZaSnapshot) (d : DieEntry), s.za.begins .scanOut h z handle →
    z.frost.snapshot = some snap → z.frost.frostId = h.w5 → z.dies = [d] → huskPay h = [] → d.admitted = true → d.fenced = none →
    z.isHeld d = false → z.frost.scans = [] → bit h.w6 0 = false → fld h.w6 31 9 = 0 →
    ∃ t x q, ZaDraws (.scanOut h) s t ∧ t.frost.scans = [x] ∧ x.handle = handle ∧ x.current = some d.die ∧ x.offset = 0 ∧
      x.total = 4 * (z.scanWords snap (huskP1 h)).length ∧ x.dies = [] ∧ q ∈ (t.link d.link).queue ∧ q.die = some d.die ∧
      q.frame.cls = 2 ∧ q.frame.msg = 6 ∧ t.works = z.works)
  ∧ (∀ (s : State) (p : Fin 82) (f : Frame) (z : Za) (die : Nat) (x : ScanOut), s.za.takes p.val f → z = s.za.taken p.val f →
    frostSound f = true → f.msg = 7 → z.fromDie p.val f = some die → z.frost.scans = [x] → x.current = some die →
    word f.body 0 = z.frost.frostId → wf f.body 5 31 0 = x.offset →
    ∃ t y, ZaBecomes (.scanData p f) s t ∧ t.frost.scans = [y] ∧ y.offset = x.offset + (f.plen.toNat - 32) ∧
      y.total = x.total + (f.plen.toNat - 32) ∧ y.handle = x.handle ∧ y.current = x.current ∧ y.dies = x.dies ∧ t.works = z.works)
  ∧ (∀ (s : State) (h : HuskCmd) (z : Za) (handle : W), s.za.begins .loopTest h z handle → huskP0 h < 82 → 1 ≤ huskP1 h →
    huskP1 h ≤ 65536 → fld (z.portW0 (portOf (huskP0 h))) 29 27 = 0 → z.linkUp (huskP0 h) = true →
    (z.testPeer (huskP0 h)).isSome = true → (∀ t ∈ z.tests, t.link ≠ huskP0 h) →
    ∃ t x, ZaDraws (.loopTest h) s t ∧ x ∈ t.tests ∧ x.handle = handle ∧ x.link = huskP0 h ∧ x.frames = huskP1 h ∧
      x.returned = 0 ∧ t.works = z.works)
  ∧ (∀ (s : State) (h : HuskCmd) (z : Za), s.za.accepts .faultInject h → z = s.za.met .faultInject h → fld h.w5 31 24 = 1 →
    1 ≤ fld h.w5 23 0 → fld h.w5 23 0 ≤ 9 →
    ((word (huskPay h) 0).toNat ≤ 9 ∨ 16 ≤ (word (huskPay h) 0).toNat ∧ (word (huskPay h) 0).toNat ≤ 24) →
    ZaDraws (.faultInject h) s (Za.answered { z with
      injections := z.injections ++ [{ code := 1, n := fld h.w5 23 0, param := 0, payload := huskPay h }]
      injected := min 0xFFFF (z.injected + 1) } .faultInject h (resultOf stOk)))

/-- Watching and fencing: a Hail on time counts for its sender, eight missed ones in a row make it DEAD; the standby takes over from a
dead Region Manager; a fence takes a unit out and is lifted after its test; faults are held for the tick; uncorrectable memory
errors are reported, corrected ones counted. -/
def Obligations.UnitsAreWatchedAndFenced : Prop :=
  (∀ (s : State) (n : Nat) (vcore temp : BitVec 16), s.za.hailDue = some n → s.za.running = true →
    ∃ z, ZaBecomes (.hailSend .za temp vcore) s z ∧ z.hailDue = none ∧ z.hailSeq = s.za.hailSeq + 1 ∧ z.ctxs = s.za.ctxs ∧
      z.rack = s.za.rack ∧ (s.za.injections = [] → s.za.power.lull = 0 → ∀ u ∈ s.za.rack.units, u.candidate = true →
        u.agg ≠ s.za.aggId → ∃ q ∈ (z.link (s.za.linkToward u.agg)).queue, q.frame.cls = 1 ∧ q.frame.msg = 3 ∧
          q.frame.body = s.za.hailWords n vcore))
  ∧ (∀ (s : State) (p : Fin 82) (f : Frame) (z : Za) (die : Nat) (d : DieEntry), s.za.takes p.val f → z = s.za.taken p.val f →
    f.cls = 1 → f.msg = 3 → f.plen = 32 → wf f.body 0 31 28 = 1 → wf f.body 0 27 24 = 1 → z.fromDie p.val f = some die →
    wf f.body 1 19 0 = die → z.frameOf (word f.body 2).toNat = z.frameNow → z.hailEval < z.time.begun → z.die? die = some d →
    ∃ t d', ZaBecomes (.hail p f) s t ∧ t.die? die = some d' ∧ d'.hailed = true ∧ d'.missed = d.missed ∧ d'.live = d.live ∧
      t.ctxs = z.ctxs ∧ t.rack = z.rack)
  ∧ (∀ (s : State) (d : DieEntry), s.za.running = true → s.za.time.ticking = true → s.za.hailEval < s.za.time.begun →
    s.za.dies = [d] → d.admitted = true → d.hailDue = true → d.hailed = true →
    ∃ z d', ZaBecomes .hailEvaluate s z ∧ z.die? d.die = some d' ∧ d'.missed = 0 ∧ d'.onTime = d.onTime + 1 ∧
      d'.live = (if d.live = 2 then 1 else d.live) ∧ d'.hailed = false ∧ z.hailEval = s.za.time.begun ∧ z.ctxs = s.za.ctxs)
  ∧ (∀ (s : State) (d : DieEntry), s.za.running = true → s.za.time.ticking = true → s.za.hailEval < s.za.time.begun →
    s.za.dies = [d] → d.admitted = true → d.hailDue = true → d.hailed = false → d.hold = 0 →
    (d.die ≠ s.dtu.dieId ∨ s.dtu.time.state = .locked) → d.live = 2 → 7 ≤ d.missed → d.fenced = none →
    ∃ z d', ZaBecomes .hailEvaluate s z ∧ z.die? d.die = some d' ∧ d'.missed = d.missed + 1 ∧ d'.live = 3 ∧ d'.onTime = 0 ∧
      d'.fenced = some (s.za.frameNow + 1) ∧ z.hailEval = s.za.time.begun ∧ z.ctxs = s.za.ctxs)
  ∧ (∀ (s : State), s.za.rack.failover = true → s.za.running = true →
    ∃ z, ZaBecomes .rmFailover s z ∧ z.rack = { s.za.rack with failover := false, acting := true } ∧ z.ctxs = s.za.ctxs ∧
      z.works = s.za.works)
  ∧ (∀ (s : State) (h : HuskCmd) (z : Za) (handle : W), s.za.begins .fence h z handle → (unitOf h).kind = 3 →
    (unitOf h).unit < 4096 → z.isFenced (unitOf h) = false → fld (z.reg 0xA000) 31 16 = 0 →
    ∃ t x, ZaDraws (.fence h) s t ∧ t.fences.lanes = z.fences.lanes ++ [(unitOf h).unit] ∧ x ∈ t.cmds.handles ∧
      x.handle = handle ∧ x.done = some (okValue 1) ∧ t.fences.tiles = z.fences.tiles ∧ t.ctxs = z.ctxs)
  ∧ (∀ (s : State) (h : HuskCmd) (z : Za) (handle : W), s.za.begins .unfence h z handle → (unitOf h).kind = 3 →
    (unitOf h).unit < 4096 → z.isFenced (unitOf h) = true →
    ∃ t, ZaDraws (.unfence h) s t ∧ t.fences = z.fences ∧ t.ctxs = z.ctxs ∧
      (Config.selfTestPasses s.free = true → ∃ x, t.asks = z.asks ++ [x] ∧ x.unit = unitOf h ∧ x.lift = true ∧
        x.granted = true ∧ x.applied = none ∧ x.handle = handle) ∧
      (Config.selfTestPasses s.free = false → ∃ x ∈ t.cmds.handles, x.handle = handle ∧
        x.done = some (resultOf stUnitTestFail)))
  ∧ (∀ (s : State) (h : HuskCmd) (z : Za) (handle : W) (d : DieEntry), s.za.begins .readmit h z handle →
    z.die? (huskP0 h) = some d → d.fenced.isSome = true → 8 ≤ d.onTime →
    ∃ t d', ZaDraws (.readmit h) s t ∧ t.die? (huskP0 h) = some d' ∧ d'.readmitDue = true ∧
      d'.admGen = (if d.admGen = 0xFF then 1 else d.admGen + 1) ∧ d'.fenced = d.fenced ∧
      (∀ r ∈ t.detRecs, fld r.key 19 0 ≠ huskP0 h) ∧ t.ctxs = z.ctxs)
  ∧ (∀ (s : State) (h : HuskCmd) (z : Za) (handle : W), s.za.begins .selfTest h z handle → (unitOf h).kind = 3 →
    (unitOf h).unit < 4096 → z.isFenced (unitOf h) = true →
    ∃ t x, ZaDraws (.selfTest h) s t ∧ x ∈ t.cmds.handles ∧ x.handle = handle ∧ t.fences = z.fences ∧
      x.done = some (resultOf (if Config.selfTestPasses s.free then stOk else stUnitTestFail)) ∧ t.ctxs = z.ctxs)
  ∧ (∀ (s : State) (agg : BitVec 12), s.za.running = true → agg.toNat ≠ s.za.aggId → s.za.rebuild = none →
    (∀ x ∈ s.za.rack.fencedAggs, x.1 ≠ agg.toNat) →
    ZaBecomes (.fenceNotice agg) s { s.za with rack := { s.za.rack with
      fencedAggs := s.za.rack.fencedAggs ++ [(agg.toNat, s.za.time.begun + 1)] } })
  ∧ (∀ (s : State) (m : BitVec 128), s.za.running = true → msgSeverity m ≠ 3 → (∀ x ∈ s.za.faults, x.message ≠ m) →
    fld (s.za.reg 0xA000) 31 16 = 0 →
    ZaBecomes (.faultRaise m) s { s.za with faults := s.za.faults ++ [s.za.holdFault m []] })
  ∧ (∀ (s : State) (m : BitVec 128) (x : HeldFault), s.za.running = true → msgSeverity m ≠ 3 → s.za.faults = [x] →
    x.message = m → fld (s.za.reg 0xA000) 31 16 = 0 →
    ZaBecomes (.faultRaise m) s { s.za with faults := [{ x with repeats := min 255 (x.repeats + 1) }] })
  ∧ (∀ (s : State) (r : MemRegion) (entry : Fin 1024) (a : Nat) (es : List (Fin 136 × Byte)), s.za.running = true →
    a < regionSize r → s.za.injections = [] → readOutcome r (wrongSymbols es) = .bad →
    ∃ z, ZaBecomes (.memError r entry a es) s z ∧ z.ecc.uncorrectable = min 0xFF (s.za.ecc.uncorrectable + 1) ∧
      z.ecc.corrected = s.za.ecc.corrected ∧ z.regs = s.za.regs ∧ z.tag = s.za.tag)
  ∧ (∀ (s : State) (r : MemRegion) (entry : Fin 1024) (a : Nat) (es : List (Fin 136 × Byte)), s.za.running = true →
    a < regionSize r → s.za.injections = [] → corrects r = true → wrongSymbols es ≠ [] → (wrongSymbols es).length ≤ 4 →
    ∃ z, ZaBecomes (.memError r entry a es) s z ∧ z.ecc.corrected = min 0xFFFF (s.za.ecc.corrected + 1) ∧
      z.ecc.uncorrectable = s.za.ecc.uncorrectable ∧ z.works = s.za.works ∧ z.ctxs = s.za.ctxs)
  ∧ (∀ (s : State) (r : MemRegion) (entry : Fin 1024) (a : Nat) (es : List (Fin 136 × Byte)), s.za.running = true →
    bit (s.za.reg 0x2000) 31 = true → a < regionSize r → (r = .firmware → 128 ≤ a) → s.za.injections = [] → corrects r = true →
    wrongSymbols es ≠ [] → (wrongSymbols es).length ≤ 4 →
    ∃ z, ZaBecomes (.scrubRead r entry a es) s z ∧ z.ecc.corrected = min 0xFFFF (s.za.ecc.corrected + 1) ∧
      z.ecc.uncorrectable = s.za.ecc.uncorrectable ∧ z.works = s.za.works ∧ z.ctxs = s.za.ctxs)

/-- Boot and power: the ROM tries its sources in order, takes an image in from a port or keomon, verifies it and starts the firmware,
or goes on; power comes and goes with its events; pin, warm and watchdog resets clear what they clear; the throttle follows its
readings; Lull states hold dies and the tray. -/
def Obligations.TheTrayBootsResetsAndRests : Prop :=
  (∀ (s : State) (stalled : Bool), s.za.boot.phase = 2 → s.za.boot.offered = stalled → s.za.power.powered = true →
    ∃ z, ZaBecomes (.bootSourceTimeout stalled) s z ∧ z.boot.lastError = (if stalled then 2 else 1) ∧
      z.boot.running = s.za.boot.running ∧ z.ctxs = s.za.ctxs ∧ z.tag = s.za.tag ∧
      (z.boot.phase = 5 ∨ z.boot.attempts = min 255 (s.za.boot.attempts + 1)))
  ∧ (∀ (s : State), s.za.boot.phase = 5 → s.za.power.powered = true → s.za.power.firmwareKept = false →
    ∃ z, ZaBecomes .bootRoundWait s z ∧ z.boot.phase = 2 ∧ z.boot.source = 0 ∧ z.boot.tried = [(0, 0)] ∧ z.boot.image = [] ∧
      z.ctxs = s.za.ctxs ∧ z.tag = s.za.tag)
  ∧ (∀ (s : State), s.za.boot.phase = 3 → s.za.power.powered = true →
    ∃ z, ZaBecomes .imageVerify s z ∧ z.tag = s.za.tag ∧ z.boot.lastError = fwFault s.za.boot.image ∧
      (fwFault s.za.boot.image = 0 → z.boot.phase = 4 ∧ z.boot.running = s.za.boot.image ∧
        z.boot.fwVersion = fwVersionOf s.za.boot.image ∧ (z.ctx? 0).isSome = true ∧ z.power.rails = List.range 15) ∧
      (fwFault s.za.boot.image ≠ 0 → z.boot.phase ≠ 4 ∧ z.ctxs = s.za.ctxs))
  ∧ (∀ (s : State) (n : W), s.za.boot.phase = 2 → s.za.boot.source = 3 → s.za.boot.offered = false → s.za.power.powered = true →
    ∃ z, ZaBecomes (.loadReq n) s z ∧ z.boot.offered = true ∧ z.boot.length = n.toNat ∧
      z.keomon.out = s.za.keomon.out ++ [(5, [])] ∧ z.boot.image = s.za.boot.image)
  ∧ (∀ (s : State) (off : W) (bs : List Byte), s.za.boot.phase = 2 → s.za.boot.source = 3 → s.za.boot.offered = true →
    s.za.power.powered = true → bs.length ≤ 1024 → bs ≠ [] → off.toNat = s.za.boot.image.length →
    s.za.boot.image.length + bs.length ≤ s.za.boot.length →
    ∃ z, ZaBecomes (.loadData off bs) s z ∧ z.boot.image = s.za.boot.image ++ bs ∧
      z.boot.phase = (if s.za.boot.image.length + bs.length = s.za.boot.length then 3 else 2) ∧
      z.keomon.out = s.za.keomon.out ++ [(7, wordBytes (w32 (s.za.boot.image.length + bs.length)))])
  ∧ (∀ (s : State) (bs body : List Byte) (kind seq : Nat), s.za.power.powered = true → s.za.power.pinLow = false →
    keomonParse bs = some (kind, seq, body) → (kind = 0 ∨ 7 < kind) → (∀ l, s.za.keomon.rxSeq = some l → (l + 1) % 256 = seq) →
    ZaDraws (.keomonFrame bs) s ({ s.za with keomon := { s.za.keomon with rxSeq := some seq } }.count (.misc .keomonReserved)))
  ∧ (∀ (s : State) (bs body : List Byte) (seq : Nat), s.za.power.powered = true → s.za.power.pinLow = false →
    keomonParse bs = some (1, seq, body) → (∀ l, s.za.keomon.rxSeq = some l → (l + 1) % 256 = seq) →
    ZaDraws (.keomonFrame bs) s
      (Za.keomonHusk { s.za with keomon := { s.za.keomon with rxSeq := some seq } } s.free s.cellDom body))
  ∧ (∀ (s : State) (bs : List Byte), s.za.power.powered = true → s.za.power.pinLow = false → keomonParse bs = none →
    ZaDraws (.keomonFrame bs) s (s.za.count (.misc .keomonBad)))
  ∧ (∀ (s : State) (vin : BitVec 16) (strap : Bool), s.za.power.powered = false → s.za.power.tripped = false → vinOn vin = true →
    ∃ z, ZaBecomes (.powerUp vin strap) s z ∧ z.power.powered = true ∧ z.power.strap = strap ∧ z.power.vin = vin ∧
      z.boot.phase = 2 ∧ z.boot.source = 0 ∧ z.ctxs = [] ∧ z.power.events = s.za.power.events)
  ∧ (∀ (s : State) (rail : Fin 15) (vin : BitVec 16), s.za.power.powered = true →
    ∃ z e, ZaBecomes (.powerLoss .rail rail vin) s z ∧ z.power.powered = false ∧ z.power.rails = [] ∧
      z.power.events = (e :: s.za.power.events).take 8 ∧ fld e.1 31 28 = 4 ∧ fld e.1 27 24 = rail.val ∧ fld e.1 15 0 = vin.toNat ∧
      z.ctxs = [] ∧ z.works = [])
  ∧ (∀ (s : State) (temp : Byte) (vin : BitVec 16), s.za.power.powered = true → 115 ≤ temp.toNat →
    ∃ z e, ZaBecomes (.thermalTrip temp vin) s z ∧ z.power.powered = false ∧ z.power.tripped = true ∧
      z.power.events = (e :: s.za.power.events).take 8 ∧ fld e.1 31 28 = 3 ∧ fld e.1 23 16 = temp.toNat ∧ z.ctxs = [])
  ∧ (∀ (s : State) (temp : Byte) (tenths : Nat) (vin : BitVec 16), s.za.power.tripped = true → temp.toNat < 85 → 100 ≤ tenths →
    vinOn vin = true →
    ∃ z, ZaBecomes (.thermalTripRestart temp tenths vin) s z ∧ z.power.powered = true ∧ z.power.tripped = false ∧
      z.power.strap = s.za.power.pinLow ∧ z.boot.phase = 2 ∧ z.power.events = s.za.power.events)
  ∧ (∀ (s : State) (vin : BitVec 16), s.za.power.powered = true →
    ZaBecomes (.inputWarn vin) s { s.za with power := { s.za.power with warn := vinWarn vin } })
  ∧ (∀ (s : State), s.za.power.powered = true → s.za.power.strapLow = false → s.za.power.pinLow = false →
    ∃ z, ZaBecomes (.svcPinReset true) s z ∧ z.power.pinLow = true ∧ z.power.lastReset = 1 ∧ z.ctxs = [] ∧ z.works = [] ∧
      z.tag = s.za.tag ∧ z.time = { s.za.time with counters := [] } ∧ z.power.events = s.za.power.events)
  ∧ (∀ (s : State), s.za.power.powered = true → s.za.power.strapLow = false → s.za.power.pinLow = true →
    ∃ z, ZaBecomes (.svcPinReset false) s z ∧ z.power.pinLow = false ∧ z.tag = s.za.tag ∧ z.ctxs = s.za.ctxs)
  ∧ (∀ (s : State), s.za.power.powered = true → s.za.power.pinLow = false →
    ∃ z, ZaBecomes .watchdogExpiry s z ∧ z.power.lastReset = 2 ∧ z.power.warmDue = false ∧ z.ctxs = [] ∧ z.works = [] ∧
      z.faultLog = s.za.faultLog ∧ z.seedHeld = s.za.seedHeld ∧ z.fences.lanes = s.za.fences.lanes ∧
      z.fences.margin = s.za.fences.margin ∧ z.tag = s.za.tag ∧ z.boot.running = s.za.boot.running)
  ∧ (∀ (s : State), s.za.power.powered = true → s.za.power.pinLow = false → s.za.power.warmDue = true →
    exec .warmReset s = exec .watchdogExpiry s)
  ∧ (∀ (s : State) (r : ThermalReading) (t : Nat), s.za.power.powered = true →
    t = [r.q0.toNat, r.q1.toNat, r.q2.toNat, r.q3.toNat, r.spine.toNat].foldl max 0 →
    (fld s.za.power.cfg 31 22 < r.power.toNat ∨ fld s.za.power.cfg 21 14 ≤ t) →
    ∃ z, ZaBecomes (.thermalThrottle r) s z ∧ z.power.step = min 8 (s.za.power.step + 1) ∧ z.power.calm = 0 ∧
      z.power.temps = [r.q0.toNat, r.q1.toNat, r.q2.toNat, r.q3.toNat, r.spine.toNat] ∧ z.ctxs = s.za.ctxs ∧ z.works = s.za.works)
  ∧ (∀ (s : State) (h : HuskCmd) (z : Za) (d : DieEntry), s.za.accepts .lullHold h → z = s.za.met .lullHold h →
    z.die? (huskP0 h) = some d → huskP1 h ≠ 0 → (∀ x ∈ d.slots, x.slot = 0) →
    ∃ t d', ZaDraws (.lullHold h) s t ∧ t.die? (huskP0 h) = some d' ∧ d'.hold = huskP1 h ∧ d'.holdFrom = z.frameNow + 1 ∧
      d'.fenced = d.fenced ∧ t.ctxs = z.ctxs)
  ∧ (∀ (s : State) (h : HuskCmd) (z : Za) (d : DieEntry), s.za.accepts .lullRelease h → z = s.za.met .lullRelease h →
    z.die? (huskP0 h) = some d → d.hold ≠ 0 →
    ∃ t d', ZaDraws (.lullRelease h) s t ∧ t.die? (huskP0 h) = some d' ∧ d'.hold = 0 ∧ t.ctxs = z.ctxs)
  ∧ (∀ (s : State) (h : HuskCmd) (z : Za) (handle : W), s.za.begins .zaLull h z handle → huskP0 h ≠ 0 → huskP1 h ≤ 255 →
    z.power.lull < huskP0 h → z.mayLull (huskP0 h) = true → z.power.lullTo = none →
    ∃ t, ZaDraws (.zaLull h) s t ∧ t.power.lullTo = some (huskP0 h, huskP1 h, handle) ∧ t.power.lull = z.power.lull ∧
      t.ctxs = z.ctxs)
  ∧ (∀ (s : State) (h : HuskCmd) (z : Za) (handle : W), s.za.begins .zaWake h z handle → (z.power.lull = 1 ∨ z.power.lull = 2) →
    ∃ t, ZaDraws (.zaWake h) s t ∧ t.power.lull = 0 ∧ t.power.rails = List.range 15 ∧ t.ctxs = z.ctxs ∧ t.tag = z.tag)
  ∧ (∀ (s : State) (h : HuskCmd) (z : Za), s.za.accepts .zaReset h → z = s.za.met .zaReset h → huskP0 h = 1 → huskP1 h = 0 →
    ZaDraws (.zaReset h) s (Za.answered { z with power := { z.power with warmDue := true } } .zaReset h (resultOf stOk)))

/-! ### The canonical forms. -/

/-- After reset the memories and register maps are in their canonical forms, nothing waits, the DTU's tag reads as zeros and is not
sealed, and the ZA40 has neither contexts nor dies. -/
def Obligations.ResetIsCanonical : Prop :=
  State.reset.canonical ∧ State.reset.pending = [] ∧ State.reset.dtu.host.sealed = false ∧
    (∀ a, State.reset.dtu.host.tag.read a = 0) ∧ State.reset.za.ctxs = [] ∧ State.reset.za.dies = [] ∧
    (∀ a, State.reset.za.reg a = zaResetWord a)

/-- Whatever command is next, and also on an empty queue, a step leaves every memory and register map in its canonical form: addresses
strictly rising, no entry equal to what an unlisted address reads as, every tag byte within its 256. -/
def Obligations.EveryStepKeepsTheCanonicalForms : Prop :=
  ∀ (s t : State), s.canonical → step s = .next t → t.canonical
end

