-- ==== Sys2Proof/Laws/Containers.lean ====
section
/-!
SUPPORT. Laws of the containers the state is held in: fields of a word, association lists, register maps, byte memories.
-/
namespace Sys2Proof.Machine

/-! ### Fields of a word. -/

theorem bits_lt (n hi lo : Nat) : bits n hi lo < 2 ^ (hi + 1 - lo) := Nat.mod_lt _ (Nat.two_pow_pos _)

theorem fld_lt (w : W) (hi lo : Nat) : fld w hi lo < 2 ^ (hi + 1 - lo) := bits_lt _ _ _

theorem bits_one (n i : Nat) : bits n i i = n / 2 ^ i % 2 := by
  simp [bits, show i + 1 - i = 1 by omega]

/-- A flag of a register is the bit of its vector. -/
theorem bit_eq_getLsbD (w : W) (i : Nat) : bit w i = w.getLsbD i := by
  simp only [bit, fld, bits_one, BitVec.getLsbD, Nat.testBit, Nat.shiftRight_eq_div_pow]
  have h : (1 &&& w.toNat / 2 ^ i) = w.toNat / 2 ^ i % 2 := by rw [Nat.and_comm, Nat.and_one_is_mod]
  rw [h]
  rcases Nat.mod_two_eq_zero_or_one (w.toNat / 2 ^ i) with h | h <;> simp [h]

/-- A field is the vector's own slice. -/
theorem fld_eq_extract (w : W) (hi lo : Nat) : fld w hi lo = (w.extractLsb' lo (hi + 1 - lo)).toNat := by
  simp [fld, bits, BitVec.extractLsb'_toNat, Nat.shiftRight_eq_div_pow]

/-- What setting one flag makes of a word. -/
theorem setFld_bit_one (w : W) (i : Nat) (hi : i < 32) : setFld w i i 1 = w ||| BitVec.ofNat 32 (2 ^ i) := by
  have hp : 2 ^ i < 2 ^ 32 := Nat.pow_lt_pow_right (by omega) hi
  have hle : 2 ^ i * (w.toNat / 2 ^ i % 2) ≤ w.toNat := Nat.le_trans
    (Nat.mul_le_mul_left _ (Nat.mod_le _ _)) (Nat.mul_div_le _ _)
  have hb : ∀ j, (BitVec.ofNat 32 (2 ^ i)).getLsbD j = decide (j = i) := by
    intro j
    simp only [BitVec.getLsbD_ofNat, Nat.testBit_two_pow]
    by_cases h : j = i
    · subst h; simp [hi]
    · simp [h, show ¬ i = j from fun e => h e.symm]
  have ht : w.toNat.testBit i = bit w i := (bit_eq_getLsbD w i).symm
  simp only [setFld, fld, bits_one, show i + 1 - i = 1 by omega]
  rcases Nat.mod_two_eq_zero_or_one (w.toNat / 2 ^ i) with h | h
  · have hz : w &&& BitVec.ofNat 32 (2 ^ i) = 0#32 := by
      apply BitVec.eq_of_getLsbD_eq
      intro j hj
      simp only [BitVec.getLsbD_and, hb]
      by_cases e : j = i
      · subst e; simp [← bit_eq_getLsbD, bit, fld, bits_one, h]
      · simp [e]
    rw [← BitVec.add_eq_or_of_and_eq_zero _ _ hz, h]
    apply BitVec.eq_of_toNat_eq
    simp [BitVec.toNat_add]
  · have ho : w ||| BitVec.ofNat 32 (2 ^ i) = w := by
      apply BitVec.eq_of_getLsbD_eq
      intro j hj
      simp only [BitVec.getLsbD_or, hb]
      by_cases e : j = i
      · subst e; simp [← bit_eq_getLsbD, bit, fld, bits_one, h]
      · simp [e]
    rw [ho, h]
    apply BitVec.eq_of_toNat_eq
    have := w.isLt
    rw [h] at hle
    simp
    omega

/-- Setting one flag of a word sets that flag. -/
theorem bit_setFld_same (w : W) (i : Nat) (hi : i < 32) : bit (setFld w i i 1) i = true := by
  rw [bit_eq_getLsbD, setFld_bit_one w i hi]
  simp only [BitVec.getLsbD_or, BitVec.getLsbD_ofNat, Nat.testBit_two_pow_self, hi, decide_true, Bool.and_self, Bool.or_true]

/-- Setting one flag of a word leaves the others. -/
theorem bit_setFld_other (w : W) (i j : Nat) (hi : i < 32) (h : j ≠ i) : bit (setFld w i i 1) j = bit w j := by
  rw [bit_eq_getLsbD, bit_eq_getLsbD, setFld_bit_one w i hi]
  simp only [BitVec.getLsbD_or, BitVec.getLsbD_ofNat, Nat.testBit_two_pow]
  simp [show ¬ i = j from fun e => h e.symm]

/-- A number split at a field: what lies above it, the field, what lies below. -/
theorem bits_split (n hi lo : Nat) (hl : lo ≤ hi) :
    n = 2 ^ lo * (2 ^ (hi + 1 - lo) * (n / 2 ^ (hi + 1)) + bits n hi lo) + n % 2 ^ lo := by
  have h : n / 2 ^ (hi + 1) = n / 2 ^ lo / 2 ^ (hi + 1 - lo) := by
    rw [Nat.div_div_eq_div_mul, ← Nat.pow_add, show lo + (hi + 1 - lo) = hi + 1 by omega]
  rw [h, bits, Nat.div_add_mod, Nat.div_add_mod]

/-- What setting a field makes of a word, with the parts above and below it. -/
theorem setFld_toNat (w : W) (hi lo v : Nat) (h : hi < 32) (hl : lo ≤ hi) :
    (setFld w hi lo v).toNat = 2 ^ lo * (2 ^ (hi + 1 - lo) * (w.toNat / 2 ^ (hi + 1)) + v % 2 ^ (hi + 1 - lo)) + w.toNat % 2 ^ lo := by
  have hn := bits_split w.toNat hi lo hl
  have hw := w.isLt
  simp only [setFld, fld, BitVec.toNat_ofNat]
  generalize hf : bits w.toNat hi lo = f at hn
  have hA : 0 < 2 ^ lo := Nat.two_pow_pos lo
  have l1 := Nat.mod_lt w.toNat hA
  have hu : v % 2 ^ (hi + 1 - lo) < 2 ^ (hi + 1 - lo) := Nat.mod_lt _ (Nat.two_pow_pos _)
  have hq : w.toNat / 2 ^ (hi + 1) < 2 ^ (31 - hi) := by
    apply Nat.div_lt_of_lt_mul
    rw [← Nat.pow_add, show hi + 1 + (31 - hi) = 32 by omega]
    exact hw
  have e32 : (2 : Nat) ^ 32 = 2 ^ lo * (2 ^ (hi + 1 - lo) * 2 ^ (31 - hi)) := by
    rw [← Nat.pow_add, ← Nat.pow_add, show lo + (hi + 1 - lo + (31 - hi)) = 32 by omega]
  generalize w.toNat / 2 ^ (hi + 1) = q at *
  generalize w.toNat % 2 ^ lo = r at *
  generalize v % 2 ^ (hi + 1 - lo) = u at *
  generalize w.toNat = n at *
  have e1 : n - 2 ^ lo * f + 2 ^ lo * u = 2 ^ lo * (2 ^ (hi + 1 - lo) * q + u) + r := by
    rw [Nat.mul_add] at hn ⊢
    omega
  rw [e1, Nat.mod_eq_of_lt]
  rw [e32]
  generalize 2 ^ lo = A at *
  generalize 2 ^ (hi + 1 - lo) = B at *
  generalize 2 ^ (31 - hi) = M at *
  have h1 : B * q + u + 1 ≤ B * M := by
    calc B * q + u + 1 ≤ B * q + B := by omega
      _ = B * (q + 1) := by rw [Nat.mul_add, Nat.mul_one]
      _ ≤ B * M := Nat.mul_le_mul_left _ hq
  calc A * (B * q + u) + r < A * (B * q + u) + A := by omega
    _ = A * (B * q + u + 1) := (Nat.mul_succ ..).symm
    _ ≤ A * (B * M) := Nat.mul_le_mul_left _ h1

/-- The field a word has once it is set. -/
theorem fld_setFld_same (w : W) (hi lo v : Nat) (h : hi < 32) (hl : lo ≤ hi) :
    fld (setFld w hi lo v) hi lo = v % 2 ^ (hi + 1 - lo) := by
  rw [fld, bits, setFld_toNat w hi lo v h hl, Nat.mul_add_div (Nat.two_pow_pos lo),
    Nat.div_eq_of_lt (Nat.mod_lt _ (Nat.two_pow_pos lo)), Nat.add_zero, Nat.mul_add_mod, Nat.mod_mod]

/-- A field below the one that is set keeps its value. -/
theorem fld_setFld_below (w : W) (hi lo v hi' lo' : Nat) (h : hi < 32) (hl : lo ≤ hi) (hb : hi' < lo) :
    fld (setFld w hi lo v) hi' lo' = fld w hi' lo' := by
  have hm : (setFld w hi lo v).toNat % 2 ^ lo = w.toNat % 2 ^ lo := by
    rw [setFld_toNat w hi lo v h hl, Nat.mul_add_mod, Nat.mod_mod]
  by_cases hk : lo' ≤ hi'
  · have e : ∀ n : Nat, bits n hi' lo' = bits (n % 2 ^ lo) hi' lo' := by
      intro n
      have e2 : (2 : Nat) ^ lo = 2 ^ lo' * 2 ^ (lo - lo') := by rw [← Nat.pow_add, show lo' + (lo - lo') = lo by omega]
      rw [bits, bits, e2, Nat.mod_mul_right_div_self]
      rw [Nat.mod_mod_of_dvd]
      exact Nat.pow_dvd_pow 2 (by omega)
    rw [fld, fld, e, hm, ← e]
  · simp [fld, bits, show hi' + 1 - lo' = 0 by omega, Nat.mod_one]

/-- A field above the one that is set keeps its value. -/
theorem fld_setFld_above (w : W) (hi lo v hi' lo' : Nat) (h : hi < 32) (hl : lo ≤ hi) (ha : hi < lo') :
    fld (setFld w hi lo v) hi' lo' = fld w hi' lo' := by
  have hd : (setFld w hi lo v).toNat / 2 ^ (hi + 1) = w.toNat / 2 ^ (hi + 1) := by
    rw [setFld_toNat w hi lo v h hl]
    have hr := Nat.mod_lt w.toNat (Nat.two_pow_pos lo)
    have hu : v % 2 ^ (hi + 1 - lo) < 2 ^ (hi + 1 - lo) := Nat.mod_lt _ (Nat.two_pow_pos _)
    rw [show (2 : Nat) ^ (hi + 1) = 2 ^ lo * 2 ^ (hi + 1 - lo) by rw [← Nat.pow_add, show lo + (hi + 1 - lo) = hi + 1 by omega]]
    rw [← Nat.div_div_eq_div_mul, Nat.mul_add_div (Nat.two_pow_pos lo), Nat.div_eq_of_lt hr, Nat.add_zero,
      Nat.mul_add_div (Nat.two_pow_pos _), Nat.div_eq_of_lt hu, Nat.add_zero]
  have e : ∀ n : Nat, n / 2 ^ lo' = n / 2 ^ (hi + 1) / 2 ^ (lo' - (hi + 1)) := by
    intro n
    rw [Nat.div_div_eq_div_mul, ← Nat.pow_add, show hi + 1 + (lo' - (hi + 1)) = lo' by omega]
  rw [fld, fld, bits, bits, e, hd, ← e]

/-! ### Association lists. -/

variable {κ α : Type} [DecidableEq κ]

@[simp] theorem aGet_nil (k : κ) : aGet ([] : List (κ × α)) k = none := rfl

theorem aGet_cons (p : κ × α) (m : List (κ × α)) (k : κ) : aGet (p :: m) k = if p.1 = k then some p.2 else aGet m k := by
  by_cases h : p.1 = k <;> simp [aGet, h]

@[simp] theorem aGet_aPut_same (m : List (κ × α)) (k : κ) (v : α) : aGet (aPut m k v) k = some v := by
  induction m with
  | nil => simp [aPut, aGet_cons]
  | cons p m ih =>
    by_cases h : p.1 = k
    · simp [aPut, h, aGet_cons]
    · simp [aPut, h, aGet_cons, ih]

theorem aGet_aPut_other (m : List (κ × α)) (k j : κ) (v : α) (hj : j ≠ k) : aGet (aPut m k v) j = aGet m j := by
  induction m with
  | nil => simp [aPut, aGet_cons, show ¬ k = j from fun e => hj e.symm]
  | cons p m ih =>
    by_cases h : p.1 = k
    · simp only [aPut, h, if_true, aGet_cons]
      simp [show ¬ k = j from fun e => hj e.symm]
    · simp [aPut, h, aGet_cons, ih]

@[simp] theorem aGet_aDel_same (m : List (κ × α)) (k : κ) : aGet (aDel m k) k = none := by
  simp [aGet, aDel, List.find?_filter]

theorem aGet_aDel_other (m : List (κ × α)) (k j : κ) (hj : j ≠ k) : aGet (aDel m k) j = aGet m j := by
  induction m with
  | nil => rfl
  | cons p m ih =>
    simp only [aDel, List.filter_cons] at ih ⊢
    by_cases h : p.1 = k
    · have hk : ¬ k = j := fun e => hj e.symm
      simp [h, aGet_cons, hk, ih]
    · simp [h, aGet_cons, ih]

theorem aGetD_aPut_same (m : List (κ × α)) (k : κ) (v d : α) : aGetD (aPut m k v) k d = v := by simp [aGetD]

theorem aGetD_aPut_other (m : List (κ × α)) (k j : κ) (v d : α) (hj : j ≠ k) : aGetD (aPut m k v) j d = aGetD m j d := by
  simp [aGetD, aGet_aPut_other m k j v hj]

/-- What a saturating counter reads after it is counted. -/
theorem aGetD_bump_same (m : List (κ × Nat)) (k : κ) (n : Nat) (hn : n ≠ 0) :
    aGetD (bump m k n) k 0 = satAdd32 (aGetD m k 0) n := by simp [bump, hn, aGetD_aPut_same]

theorem aGetD_bump_other (m : List (κ × Nat)) (k j : κ) (n : Nat) (hj : j ≠ k) :
    aGetD (bump m k n) j 0 = aGetD m j 0 := by
  unfold bump
  split
  · rfl
  · exact aGetD_aPut_other m k j _ 0 hj

@[simp] theorem bump_zero (m : List (κ × Nat)) (k : κ) : bump m k 0 = m := rfl

/-! ### Sorted association lists over addresses: the shape that register maps and byte memories share. -/

theorem regErase_lt {b : Nat} {m : RegMap} (a : Nat) (h : ∀ p ∈ m, b < p.1) : ∀ p ∈ regErase m a, b < p.1 := by
  induction m with
  | nil => intro p hp; cases hp
  | cons q m ih =>
    simp only [regErase]
    split
    · exact ih (fun p hp => h p (List.mem_cons_of_mem _ hp))
    · intro p hp
      rcases List.mem_cons.1 hp with rfl | hp
      · exact h _ (List.mem_cons_self ..)
      · exact ih (fun p hp => h p (List.mem_cons_of_mem _ hp)) p hp

theorem regErase_mem {m : RegMap} {a : Nat} {p : Nat × W} (h : p ∈ regErase m a) : p ∈ m ∧ p.1 ≠ a := by
  induction m with
  | nil => cases h
  | cons q m ih =>
    simp only [regErase] at h
    split at h
    · exact ⟨List.mem_cons_of_mem _ (ih h).1, (ih h).2⟩
    · rename_i hq
      rcases List.mem_cons.1 h with rfl | h
      · exact ⟨List.mem_cons_self .., hq⟩
      · exact ⟨List.mem_cons_of_mem _ (ih h).1, (ih h).2⟩

theorem regInsert_mem {m : RegMap} {a : Nat} {v : W} {p : Nat × W} (h : p ∈ regInsert m a v) : p = (a, v) ∨ p ∈ m := by
  induction m with
  | nil => simpa [regInsert] using h
  | cons q m ih =>
    simp only [regInsert] at h
    split at h
    · simpa using h
    · rcases List.mem_cons.1 h with rfl | h
      · exact .inr (List.mem_cons_self ..)
      · rcases ih h with h | h
        · exact .inl h
        · exact .inr (List.mem_cons_of_mem _ h)

theorem regErase_sorted {m : RegMap} (a : Nat) (h : m.Pairwise (fun p q => p.1 < q.1)) :
    (regErase m a).Pairwise (fun p q => p.1 < q.1) := by
  induction m with
  | nil => exact .nil
  | cons q m ih =>
    rw [List.pairwise_cons] at h
    simp only [regErase]
    split
    · exact ih h.2
    · exact List.pairwise_cons.2 ⟨regErase_lt a h.1, ih h.2⟩

theorem regInsert_sorted {m : RegMap} {a : Nat} (v : W) (h : m.Pairwise (fun p q => p.1 < q.1)) (ha : ∀ p ∈ m, p.1 ≠ a) :
    (regInsert m a v).Pairwise (fun p q => p.1 < q.1) := by
  induction m with
  | nil => simp [regInsert]
  | cons q m ih =>
    rw [List.pairwise_cons] at h
    have hq := ha q (List.mem_cons_self ..)
    simp only [regInsert]
    split
    · rename_i hlt
      refine List.pairwise_cons.2 ⟨fun p hp => ?_, List.pairwise_cons.2 h⟩
      rcases List.mem_cons.1 hp with rfl | hp
      · exact hlt
      · exact Nat.lt_trans hlt (h.1 p hp)
    · refine List.pairwise_cons.2 ⟨fun p hp => ?_, ih h.2 (fun p hp => ha p (List.mem_cons_of_mem _ hp))⟩
      rcases regInsert_mem hp with rfl | hp
      · simp only; omega
      · exact h.1 p hp

/-- Writing a register keeps the canonical form of the map. -/
theorem regSet_wf {reset : Nat → W} {m : RegMap} (a : Nat) (v : W) (h : regWf reset m = true) :
    regWf reset (regSet reset m a v) = true := by
  simp only [regWf, Bool.and_eq_true, decide_eq_true_eq, List.all_eq_true, bne_iff_ne] at h ⊢
  unfold regSet
  split
  · exact ⟨regErase_sorted a h.1, fun p hp => h.2 p (regErase_mem hp).1⟩
  · rename_i hv
    refine ⟨regInsert_sorted v (regErase_sorted a h.1) (fun p hp => (regErase_mem hp).2), fun p hp => ?_⟩
    rcases regInsert_mem hp with rfl | hp
    · exact hv
    · exact h.2 p (regErase_mem hp).1

/-- Keeping a part of a register map keeps its canonical form. -/
theorem regWf_filter {reset : Nat → W} {m : RegMap} (f : Nat × W → Bool) (h : regWf reset m = true) :
    regWf reset (m.filter f) = true := by
  simp only [regWf, Bool.and_eq_true, decide_eq_true_eq, List.all_eq_true, bne_iff_ne] at h ⊢
  exact ⟨h.1.filter _, fun p hp => h.2 p (List.mem_filter.1 hp).1⟩

@[simp] theorem regWf_nil (reset : Nat → W) : regWf reset [] = true := by simp [regWf]

theorem regGet_erase_other {reset : Nat → W} (m : RegMap) {a b : Nat} (h : b ≠ a) :
    regGet reset (regErase m a) b = regGet reset m b := by
  induction m with
  | nil => rfl
  | cons q m ih =>
    simp only [regErase]
    split
    · rename_i hq
      simp only [regGet, hq]
      simp [show ¬ a = b from fun e => h e.symm, ih]
    · simp only [regGet, ih]

theorem regGet_erase_same {reset : Nat → W} (m : RegMap) (a : Nat) : regGet reset (regErase m a) a = reset a := by
  induction m with
  | nil => rfl
  | cons q m ih =>
    simp only [regErase]
    split
    · exact ih
    · rename_i hq; simp only [regGet, hq, if_false, ih]

theorem regGet_insert {reset : Nat → W} (m : RegMap) {a b : Nat} (v : W) (ha : ∀ p ∈ m, p.1 ≠ a) :
    regGet reset (regInsert m a v) b = if b = a then v else regGet reset m b := by
  induction m with
  | nil =>
    by_cases h : b = a
    · simp [regInsert, regGet, h]
    · simp [regInsert, regGet, h, show ¬ a = b from fun e => h e.symm]
  | cons q m ih =>
    have hq := ha q (List.mem_cons_self ..)
    have ih := ih (fun p hp => ha p (List.mem_cons_of_mem _ hp))
    simp only [regInsert]
    split
    · by_cases h : b = a
      · simp [regGet, h]
      · simp [regGet, h, show ¬ a = b from fun e => h e.symm]
    · simp only [regGet, ih]
      by_cases h : q.1 = b
      · simp [h, show ¬ b = a from fun e => hq (h.trans e)]
      · simp [h]

/-- A register reads as it was written. -/
@[simp] theorem regGet_regSet_same (reset : Nat → W) (m : RegMap) (a : Nat) (v : W) :
    regGet reset (regSet reset m a v) a = v := by
  unfold regSet
  split
  · rename_i h; rw [regGet_erase_same, h]
  · rw [regGet_insert _ _ (fun p hp => (regErase_mem hp).2), if_pos rfl]

/-- A write leaves the other registers. -/
theorem regGet_regSet_other (reset : Nat → W) (m : RegMap) {a b : Nat} (v : W) (h : b ≠ a) :
    regGet reset (regSet reset m a v) b = regGet reset m b := by
  unfold regSet
  split
  · exact regGet_erase_other m h
  · rw [regGet_insert _ _ (fun p hp => (regErase_mem hp).2), if_neg h, regGet_erase_other m h]

/-! ### Byte memories. -/

theorem Memory.erase_mem {m : Memory} {a : Nat} {p : Host.Cell} (h : p ∈ Memory.erase m a) : p ∈ m ∧ p.1 ≠ a := by
  induction m with
  | nil => cases h
  | cons q m ih =>
    simp only [Memory.erase] at h
    split at h
    · exact ⟨List.mem_cons_of_mem _ (ih h).1, (ih h).2⟩
    · rename_i hq
      rcases List.mem_cons.1 h with rfl | h
      · exact ⟨List.mem_cons_self .., hq⟩
      · exact ⟨List.mem_cons_of_mem _ (ih h).1, (ih h).2⟩

theorem Memory.insert_mem {m : Memory} {a : Nat} {v : Byte} {p : Host.Cell} (h : p ∈ Memory.insert m a v) :
    p = (a, v) ∨ p ∈ m := by
  induction m with
  | nil => simpa [Memory.insert] using h
  | cons q m ih =>
    simp only [Memory.insert] at h
    split at h
    · simpa using h
    · rcases List.mem_cons.1 h with rfl | h
      · exact .inr (List.mem_cons_self ..)
      · rcases ih h with h | h
        · exact .inl h
        · exact .inr (List.mem_cons_of_mem _ h)

theorem Memory.erase_sorted {m : Memory} (a : Nat) (h : m.Pairwise (fun p q => p.1 < q.1)) :
    (Memory.erase m a).Pairwise (fun p q => p.1 < q.1) := by
  induction m with
  | nil => exact .nil
  | cons q m ih =>
    rw [List.pairwise_cons] at h
    simp only [Memory.erase]
    split
    · exact ih h.2
    · exact List.pairwise_cons.2 ⟨fun p hp => h.1 p (Memory.erase_mem hp).1, ih h.2⟩

theorem Memory.insert_sorted {m : Memory} {a : Nat} (v : Byte) (h : m.Pairwise (fun p q => p.1 < q.1))
    (ha : ∀ p ∈ m, p.1 ≠ a) : (Memory.insert m a v).Pairwise (fun p q => p.1 < q.1) := by
  induction m with
  | nil => simp [Memory.insert]
  | cons q m ih =>
    rw [List.pairwise_cons] at h
    have hq := ha q (List.mem_cons_self ..)
    simp only [Memory.insert]
    split
    · rename_i hlt
      refine List.pairwise_cons.2 ⟨fun p hp => ?_, List.pairwise_cons.2 h⟩
      rcases List.mem_cons.1 hp with rfl | hp
      · exact hlt
      · exact Nat.lt_trans hlt (h.1 p hp)
    · refine List.pairwise_cons.2 ⟨fun p hp => ?_, ih h.2 (fun p hp => ha p (List.mem_cons_of_mem _ hp))⟩
      rcases Memory.insert_mem hp with rfl | hp
      · simp only; omega
      · exact h.1 p hp

/-- Writing a byte inside a memory keeps its canonical form. -/
theorem Memory.write_wf {size : Nat} {m : Memory} {a : Nat} (v : Byte) (h : Memory.wf size m = true) (ha : a < size) :
    Memory.wf size (Memory.write m a v) = true := by
  simp only [Memory.wf, Bool.and_eq_true, decide_eq_true_eq, List.all_eq_true, bne_iff_ne] at h ⊢
  unfold Memory.write
  split
  · exact ⟨Memory.erase_sorted a h.1, fun p hp => h.2 p (Memory.erase_mem hp).1⟩
  · rename_i hv
    refine ⟨Memory.insert_sorted v (Memory.erase_sorted a h.1) (fun p hp => (Memory.erase_mem hp).2), fun p hp => ?_⟩
    rcases Memory.insert_mem hp with rfl | hp
    · exact ⟨hv, ha⟩
    · exact h.2 p (Memory.erase_mem hp).1

/-- Writing a run of bytes inside a memory keeps its canonical form. -/
theorem Memory.writeBytes_wf {size : Nat} (bs : List Byte) : ∀ {m : Memory} {a : Nat}, Memory.wf size m = true →
    a + bs.length ≤ size → Memory.wf size (Memory.writeBytes m a bs) = true := by
  induction bs with
  | nil => intro m a h _; exact h
  | cons b bs ih =>
    intro m a h ha
    simp only [List.length_cons] at ha
    exact ih (Memory.write_wf b h (by omega)) (by omega)

/-- Writing a word inside a memory keeps its canonical form. -/
theorem Memory.writeWord_wf {size : Nat} {m : Memory} {a : Nat} (w : W) (h : Memory.wf size m = true) (ha : a + 4 ≤ size) :
    Memory.wf size (Memory.writeWord m a w) = true := Memory.writeBytes_wf _ h (by simpa [wordBytes] using ha)

@[simp] theorem Memory.wf_nil (size : Nat) : Memory.wf size [] = true := by simp [Memory.wf]

theorem Memory.read_erase (m : Memory) (a b : Nat) :
    Memory.read (Memory.erase m a) b = if b = a then Memory.unlisted else Memory.read m b := by
  induction m with
  | nil => simp [Memory.erase, Memory.read]
  | cons q m ih =>
    simp only [Memory.erase]
    split
    · rename_i hq
      simp only [ih, Memory.read, hq]
      by_cases h : b = a
      · simp [h]
      · simp [h, show ¬ a = b from fun e => h e.symm]
    · rename_i hq
      simp only [Memory.read, ih]
      by_cases h : q.1 = b
      · simp [h, show ¬ b = a from fun e => hq (h.trans e)]
      · simp [h]

theorem Memory.read_insert (m : Memory) {a b : Nat} (v : Byte) (ha : ∀ p ∈ m, p.1 ≠ a) :
    Memory.read (Memory.insert m a v) b = if b = a then v else Memory.read m b := by
  induction m with
  | nil =>
    by_cases h : b = a
    · simp [Memory.insert, Memory.read, h]
    · simp [Memory.insert, Memory.read, h, show ¬ a = b from fun e => h e.symm]
  | cons q m ih =>
    have hq := ha q (List.mem_cons_self ..)
    have ih := ih (fun p hp => ha p (List.mem_cons_of_mem _ hp))
    simp only [Memory.insert]
    split
    · by_cases h : b = a
      · simp [Memory.read, h]
      · simp [Memory.read, h, show ¬ a = b from fun e => h e.symm]
    · simp only [Memory.read, ih]
      by_cases h : q.1 = b
      · simp [h, show ¬ b = a from fun e => hq (h.trans e)]
      · simp [h]

/-- A byte reads as it was written; every other byte reads as before. -/
theorem Memory.read_write (m : Memory) (a b : Nat) (v : Byte) :
    Memory.read (Memory.write m a v) b = if b = a then v else Memory.read m b := by
  unfold Memory.write
  split
  · rename_i hv; rw [Memory.read_erase, hv]
  · rw [Memory.read_insert _ _ (fun p hp => (Memory.erase_mem hp).2), Memory.read_erase]
    by_cases h : b = a <;> simp [h]

/-- A run of bytes leaves every byte outside it. -/
theorem Memory.read_writeBytes_outside (bs : List Byte) : ∀ (m : Memory) (a b : Nat), (b < a ∨ a + bs.length ≤ b) →
    Memory.read (Memory.writeBytes m a bs) b = Memory.read m b := by
  induction bs with
  | nil => intro m a b _; rfl
  | cons v bs ih =>
    intro m a b h
    simp only [List.length_cons] at h
    rw [Memory.writeBytes, ih _ _ _ (by omega), Memory.read_write, if_neg (by omega)]

/-- A run of bytes reads as it was written. -/
theorem Memory.read_writeBytes_inside (bs : List Byte) : ∀ (m : Memory) (a i : Nat), i < bs.length →
    Memory.read (Memory.writeBytes m a bs) (a + i) = bs.getD i 0 := by
  induction bs with
  | nil => intro m a i h; simp at h
  | cons v bs ih =>
    intro m a i h
    simp only [List.length_cons] at h
    rw [Memory.writeBytes]
    cases i with
    | zero => rw [Memory.read_writeBytes_outside _ _ _ _ (by omega), Memory.read_write]; simp
    | succ i =>
      rw [show a + (i + 1) = a + 1 + i by omega, ih _ _ _ (by omega)]
      simp

/-- Four bytes of a word put together are the word. -/
theorem pack_wordBytes (w : W) :
    pack [(((wordBytes w).getD 0 0).toNat, 31, 24), (((wordBytes w).getD 1 0).toNat, 23, 16),
      (((wordBytes w).getD 2 0).toNat, 15, 8), (((wordBytes w).getD 3 0).toNat, 7, 0)] = w := by
  apply BitVec.eq_of_toNat_eq
  have hw := w.isLt
  simp only [wordBytes, pack, packNat, fld, bits, List.getD_cons_zero, List.getD_cons_succ, BitVec.toNat_ofNat]
  omega

/-- A word reads as it was written. -/
theorem Memory.readWord_writeWord_same (m : Memory) (a : Nat) (w : W) : Memory.readWord (Memory.writeWord m a w) a = w := by
  have h : ∀ i, i < 4 → Memory.read (Memory.writeWord m a w) (a + i) = (wordBytes w).getD i 0 :=
    fun i hi => Memory.read_writeBytes_inside _ _ _ _ (by simpa [wordBytes] using hi)
  have h0 := h 0 (by omega)
  rw [Nat.add_zero] at h0
  rw [Memory.readWord, h0, h 1 (by omega), h 2 (by omega), h 3 (by omega), pack_wordBytes]

/-- A word leaves the words beside it. -/
theorem Memory.readWord_writeWord_other (m : Memory) (a b : Nat) (w : W) (h : b + 4 ≤ a ∨ a + 4 ≤ b) :
    Memory.readWord (Memory.writeWord m a w) b = Memory.readWord m b := by
  have e : ∀ i, i < 4 → Memory.read (Memory.writeWord m a w) (b + i) = Memory.read m (b + i) :=
    fun i hi => Memory.read_writeBytes_outside _ _ _ _ (by simp only [wordBytes, List.length_cons, List.length_nil]; omega)
  have h0 := e 0 (by omega)
  rw [Nat.add_zero] at h0
  rw [Memory.readWord, Memory.readWord, h0, e 1 (by omega), e 2 (by omega), e 3 (by omega)]

end Sys2Proof.Machine
end

