-- ==== Sys2Proof/Laws/State.lean ====
section
/-!
SUPPORT. Which parts of the state the shared updates leave as they were, field by field, and the parts they change.
-/
namespace Sys2Proof.Machine

/-! ### The machine. -/

@[simp] theorem State.onDtu_dtu (s : State) (f : Dtu → Dtu) : (s.onDtu f).dtu = f s.dtu := rfl
@[simp] theorem State.onDtu_za (s : State) (f : Dtu → Dtu) : (s.onDtu f).za = s.za := rfl
@[simp] theorem State.onDtu_free (s : State) (f : Dtu → Dtu) : (s.onDtu f).free = s.free := rfl
@[simp] theorem State.onDtu_pending (s : State) (f : Dtu → Dtu) : (s.onDtu f).pending = s.pending := rfl
@[simp] theorem State.onZa_dtu (s : State) (f : Za → Za) : (s.onZa f).dtu = s.dtu := rfl
@[simp] theorem State.onZa_za (s : State) (f : Za → Za) : (s.onZa f).za = f s.za := rfl
@[simp] theorem State.onZa_free (s : State) (f : Za → Za) : (s.onZa f).free = s.free := rfl
@[simp] theorem State.onZa_pending (s : State) (f : Za → Za) : (s.onZa f).pending = s.pending := rfl
@[simp] theorem State.draw_dtu (s : State) : s.draw.dtu = s.dtu := rfl
@[simp] theorem State.draw_za (s : State) : s.draw.za = s.za := rfl
@[simp] theorem State.draw_free (s : State) : s.draw.free = s.free + 1 := rfl
@[simp] theorem State.draw_pending (s : State) : s.draw.pending = s.pending := rfl
@[simp] theorem State.onSide_pending (s : State) (side : Side) (f : Dtu → Dtu) (g : Za → Za) :
    (s.onSide side f g).pending = s.pending := by cases side <;> rfl

/-! ### The DTU. -/

/-- Counting changes the counters alone. -/
@[simp] theorem Dtu.count_keeps (d : Dtu) (c : DCnt) (n : Nat) :
    (d.count c n).build = d.build ∧ (d.count c n).host = d.host ∧ (d.count c n).cells = d.cells ∧
    (d.count c n).trace = d.trace ∧ (d.count c n).digests = d.digests ∧ (d.count c n).health = d.health ∧
    (d.count c n).faults = d.faults ∧ (d.count c n).time = d.time ∧ (d.count c n).timeCtl = d.timeCtl ∧
    (d.count c n).timeServo = d.timeServo ∧ (d.count c n).port = d.port ∧ (d.count c n).trigs = d.trigs ∧
    (d.count c n).trigHigh = d.trigHigh ∧ (d.count c n).link = d.link ∧ (d.count c n).cmds = d.cmds ∧
    (d.count c n).frost = d.frost ∧ (d.count c n).power = d.power ∧ (d.count c n).factory = d.factory ∧
    (d.count c n).injected = d.injected ∧ (d.count c n).injections = d.injections ∧ (d.count c n).hailDue = d.hailDue ∧
    (d.count c n).hailSeq = d.hailSeq :=
  by and_intros <;> rfl

@[simp] theorem Dtu.count_counters (d : Dtu) (c : DCnt) (n : Nat) : (d.count c n).counters = bump d.counters c n := rfl

/-- An interrupt is a bit of the Host Port. -/
@[simp] theorem Dtu.irq_keeps (d : Dtu) (i : Nat) :
    (d.irq i).build = d.build ∧ (d.irq i).cells = d.cells ∧ (d.irq i).trace = d.trace ∧ (d.irq i).digests = d.digests ∧
    (d.irq i).health = d.health ∧ (d.irq i).faults = d.faults ∧ (d.irq i).time = d.time ∧ (d.irq i).timeCtl = d.timeCtl ∧
    (d.irq i).timeServo = d.timeServo ∧ (d.irq i).port = d.port ∧ (d.irq i).trigs = d.trigs ∧
    (d.irq i).trigHigh = d.trigHigh ∧ (d.irq i).link = d.link ∧ (d.irq i).cmds = d.cmds ∧ (d.irq i).frost = d.frost ∧
    (d.irq i).power = d.power ∧ (d.irq i).factory = d.factory ∧ (d.irq i).injected = d.injected ∧
    (d.irq i).injections = d.injections ∧ (d.irq i).hailDue = d.hailDue ∧ (d.irq i).hailSeq = d.hailSeq ∧
    (d.irq i).counters = d.counters :=
  by and_intros <;> rfl

@[simp] theorem Dtu.irq_host (d : Dtu) (i : Nat) :
    (d.irq i).host = { d.host with irqStatus := setFld d.host.irqStatus i i 1 } := rfl

/-- A ledger fault waits among the faults. -/
@[simp] theorem Dtu.ledgerUl_keeps (d : Dtu) (vc : Nat) :
    (d.ledgerUl vc).build = d.build ∧ (d.ledgerUl vc).host = d.host ∧ (d.ledgerUl vc).cells = d.cells ∧
    (d.ledgerUl vc).trace = d.trace ∧ (d.ledgerUl vc).digests = d.digests ∧ (d.ledgerUl vc).health = d.health ∧
    (d.ledgerUl vc).time = d.time ∧ (d.ledgerUl vc).timeCtl = d.timeCtl ∧ (d.ledgerUl vc).timeServo = d.timeServo ∧
    (d.ledgerUl vc).port = d.port ∧ (d.ledgerUl vc).trigs = d.trigs ∧ (d.ledgerUl vc).trigHigh = d.trigHigh ∧
    (d.ledgerUl vc).link = d.link ∧ (d.ledgerUl vc).cmds = d.cmds ∧ (d.ledgerUl vc).frost = d.frost ∧
    (d.ledgerUl vc).power = d.power ∧ (d.ledgerUl vc).factory = d.factory ∧ (d.ledgerUl vc).injected = d.injected ∧
    (d.ledgerUl vc).injections = d.injections ∧ (d.ledgerUl vc).hailDue = d.hailDue ∧ (d.ledgerUl vc).hailSeq = d.hailSeq ∧
    (d.ledgerUl vc).counters = d.counters :=
  by and_intros <;> rfl

/-- Time passes in the time unit alone. -/
@[simp] theorem Dtu.reach_keeps (d : Dtu) (ns : Nat) :
    (d.reach ns).build = d.build ∧ (d.reach ns).host = d.host ∧ (d.reach ns).cells = d.cells ∧ (d.reach ns).trace = d.trace ∧
    (d.reach ns).digests = d.digests ∧ (d.reach ns).health = d.health ∧ (d.reach ns).faults = d.faults ∧
    (d.reach ns).timeCtl = d.timeCtl ∧ (d.reach ns).timeServo = d.timeServo ∧ (d.reach ns).port = d.port ∧
    (d.reach ns).trigs = d.trigs ∧ (d.reach ns).trigHigh = d.trigHigh ∧ (d.reach ns).link = d.link ∧
    (d.reach ns).cmds = d.cmds ∧ (d.reach ns).frost = d.frost ∧ (d.reach ns).power = d.power ∧
    (d.reach ns).factory = d.factory ∧ (d.reach ns).injected = d.injected ∧ (d.reach ns).injections = d.injections ∧
    (d.reach ns).hailDue = d.hailDue ∧ (d.reach ns).hailSeq = d.hailSeq ∧ (d.reach ns).counters = d.counters :=
  by and_intros <;> rfl

@[simp] theorem Dtu.reach_time (d : Dtu) (ns : Nat) : (d.reach ns).time = d.time.reach d.slewMax d.build.timePeriod ns := rfl

/-- A step of the FTC touches the triggers and their count. -/
@[simp] theorem Dtu.stepTrigs_keeps (d : Dtu) :
    d.stepTrigs.build = d.build ∧ d.stepTrigs.host = d.host ∧ d.stepTrigs.cells = d.cells ∧ d.stepTrigs.trace = d.trace ∧
    d.stepTrigs.digests = d.digests ∧ d.stepTrigs.health = d.health ∧ d.stepTrigs.faults = d.faults ∧
    d.stepTrigs.timeCtl = d.timeCtl ∧ d.stepTrigs.timeServo = d.timeServo ∧ d.stepTrigs.port = d.port ∧
    d.stepTrigs.trigHigh = d.trigHigh ∧ d.stepTrigs.link = d.link ∧ d.stepTrigs.cmds = d.cmds ∧ d.stepTrigs.frost = d.frost ∧
    d.stepTrigs.power = d.power ∧ d.stepTrigs.factory = d.factory ∧ d.stepTrigs.injected = d.injected ∧
    d.stepTrigs.injections = d.injections ∧ d.stepTrigs.hailDue = d.hailDue ∧ d.stepTrigs.hailSeq = d.hailSeq ∧
    d.stepTrigs.counters = d.counters :=
  by and_intros <;> rfl

/-- A fault of its own enters the queues and is counted. -/
@[simp] theorem Dtu.raiseMsg_keeps (d : Dtu) (m : BitVec 128) :
    (d.raiseMsg m).build = d.build ∧ (d.raiseMsg m).host = d.host ∧ (d.raiseMsg m).cells = d.cells ∧
    (d.raiseMsg m).trace = d.trace ∧ (d.raiseMsg m).digests = d.digests ∧ (d.raiseMsg m).health = d.health ∧
    (d.raiseMsg m).time = d.time ∧ (d.raiseMsg m).timeCtl = d.timeCtl ∧ (d.raiseMsg m).timeServo = d.timeServo ∧
    (d.raiseMsg m).port = d.port ∧ (d.raiseMsg m).trigs = d.trigs ∧ (d.raiseMsg m).trigHigh = d.trigHigh ∧
    (d.raiseMsg m).link = d.link ∧ (d.raiseMsg m).cmds = d.cmds ∧ (d.raiseMsg m).frost = d.frost ∧
    (d.raiseMsg m).power = d.power ∧ (d.raiseMsg m).factory = d.factory ∧ (d.raiseMsg m).injected = d.injected ∧
    (d.raiseMsg m).injections = d.injections ∧ (d.raiseMsg m).hailDue = d.hailDue ∧ (d.raiseMsg m).hailSeq = d.hailSeq :=
  by and_intros <;> (unfold Dtu.raiseMsg; (split <;> (try split) <;> rfl))

/-- The same by its parts. -/
@[simp] theorem Dtu.raise_keeps (d : Dtu) (k : FaultKind) (op : FaultOp) (n : Nat) :
    (d.raise k op n).build = d.build ∧ (d.raise k op n).host = d.host ∧ (d.raise k op n).cells = d.cells ∧
    (d.raise k op n).trace = d.trace ∧ (d.raise k op n).digests = d.digests ∧ (d.raise k op n).health = d.health ∧
    (d.raise k op n).time = d.time ∧ (d.raise k op n).timeCtl = d.timeCtl ∧ (d.raise k op n).timeServo = d.timeServo ∧
    (d.raise k op n).port = d.port ∧ (d.raise k op n).trigs = d.trigs ∧ (d.raise k op n).trigHigh = d.trigHigh ∧
    (d.raise k op n).link = d.link ∧ (d.raise k op n).cmds = d.cmds ∧ (d.raise k op n).frost = d.frost ∧
    (d.raise k op n).power = d.power ∧ (d.raise k op n).factory = d.factory ∧ (d.raise k op n).injected = d.injected ∧
    (d.raise k op n).injections = d.injections ∧ (d.raise k op n).hailDue = d.hailDue ∧
    (d.raise k op n).hailSeq = d.hailSeq :=
  Dtu.raiseMsg_keeps d _

/-- An offer reaches the trace path alone. -/
@[simp] theorem Dtu.offer_keeps (d : Dtu) (rtype aux payload : Nat) :
    (d.offer rtype aux payload).build = d.build ∧ (d.offer rtype aux payload).host = d.host ∧
    (d.offer rtype aux payload).cells = d.cells ∧ (d.offer rtype aux payload).digests = d.digests ∧
    (d.offer rtype aux payload).health = d.health ∧ (d.offer rtype aux payload).faults = d.faults ∧
    (d.offer rtype aux payload).time = d.time ∧ (d.offer rtype aux payload).timeCtl = d.timeCtl ∧
    (d.offer rtype aux payload).timeServo = d.timeServo ∧ (d.offer rtype aux payload).port = d.port ∧
    (d.offer rtype aux payload).trigs = d.trigs ∧ (d.offer rtype aux payload).trigHigh = d.trigHigh ∧
    (d.offer rtype aux payload).link = d.link ∧ (d.offer rtype aux payload).cmds = d.cmds ∧
    (d.offer rtype aux payload).frost = d.frost ∧ (d.offer rtype aux payload).power = d.power ∧
    (d.offer rtype aux payload).factory = d.factory ∧ (d.offer rtype aux payload).injected = d.injected ∧
    (d.offer rtype aux payload).injections = d.injections ∧ (d.offer rtype aux payload).hailDue = d.hailDue ∧
    (d.offer rtype aux payload).hailSeq = d.hailSeq ∧ (d.offer rtype aux payload).counters = d.counters :=
  by and_intros <;> (unfold Dtu.offer; split <;> rfl)

/-- A frame waits on the link. -/
@[simp] theorem Dtu.queue_keeps (d : Dtu) (f : TxFrame) :
    (d.queue f).build = d.build ∧ (d.queue f).host = d.host ∧ (d.queue f).cells = d.cells ∧ (d.queue f).trace = d.trace ∧
    (d.queue f).digests = d.digests ∧ (d.queue f).health = d.health ∧ (d.queue f).faults = d.faults ∧
    (d.queue f).time = d.time ∧ (d.queue f).timeCtl = d.timeCtl ∧ (d.queue f).timeServo = d.timeServo ∧
    (d.queue f).port = d.port ∧ (d.queue f).trigs = d.trigs ∧ (d.queue f).trigHigh = d.trigHigh ∧ (d.queue f).cmds = d.cmds ∧
    (d.queue f).frost = d.frost ∧ (d.queue f).power = d.power ∧ (d.queue f).factory = d.factory ∧
    (d.queue f).injected = d.injected ∧ (d.queue f).injections = d.injections ∧ (d.queue f).hailDue = d.hailDue ∧
    (d.queue f).hailSeq = d.hailSeq ∧ (d.queue f).counters = d.counters :=
  by and_intros <;> (unfold Dtu.queue; split <;> rfl)

/-! ### The ZA40. -/

/-- Counting changes the counters alone. -/
@[simp] theorem Za.count_keeps (z : Za) (c : ZCnt) (n : Nat) :
    (z.count c n).tag = z.tag ∧ (z.count c n).aggId = z.aggId ∧ (z.count c n).fabricId = z.fabricId ∧
    (z.count c n).rackId = z.rackId ∧ (z.count c n).admitted = z.admitted ∧ (z.count c n).boot = z.boot ∧
    (z.count c n).regs = z.regs ∧ (z.count c n).time = z.time ∧ (z.count c n).ptp = z.ptp ∧ (z.count c n).marks = z.marks ∧
    (z.count c n).links = z.links ∧ (z.count c n).dies = z.dies ∧ (z.count c n).ctxs = z.ctxs ∧
    (z.count c n).syncs = z.syncs ∧ (z.count c n).waits = z.waits ∧ (z.count c n).cmds = z.cmds ∧
    (z.count c n).works = z.works ∧ (z.count c n).staged = z.staged ∧ (z.count c n).notes = z.notes ∧
    (z.count c n).externals = z.externals ∧ (z.count c n).kept = z.kept ∧ (z.count c n).models = z.models ∧
    (z.count c n).replicas = z.replicas ∧ (z.count c n).progState = z.progState ∧ (z.count c n).detRecs = z.detRecs ∧
    (z.count c n).seed = z.seed ∧ (z.count c n).seedHeld = z.seedHeld ∧ (z.count c n).restores = z.restores ∧
    (z.count c n).serving = z.serving ∧ (z.count c n).fetchId = z.fetchId ∧ (z.count c n).forward = z.forward ∧
    (z.count c n).faults = z.faults ∧ (z.count c n).faultLog = z.faultLog ∧ (z.count c n).fences = z.fences ∧
    (z.count c n).asks = z.asks ∧ (z.count c n).rack = z.rack ∧ (z.count c n).rebuild = z.rebuild ∧
    (z.count c n).frost = z.frost ∧ (z.count c n).tests = z.tests ∧ (z.count c n).injections = z.injections ∧
    (z.count c n).injected = z.injected ∧ (z.count c n).hailSeq = z.hailSeq ∧ (z.count c n).hailDue = z.hailDue ∧
    (z.count c n).hailEval = z.hailEval ∧ (z.count c n).admGen = z.admGen ∧ (z.count c n).power = z.power ∧
    (z.count c n).keomon = z.keomon ∧ (z.count c n).ecc = z.ecc ∧ (z.count c n).summary = z.summary ∧
    (z.count c n).chkLog2 = z.chkLog2 :=
  by and_intros <;> rfl

@[simp] theorem Za.count_counters (z : Za) (c : ZCnt) (n : Nat) : (z.count c n).counters = bump z.counters c n := rfl

/-- A register write changes the registers alone. -/
@[simp] theorem Za.setReg_keeps (z : Za) (a : Nat) (w : W) :
    (z.setReg a w).tag = z.tag ∧ (z.setReg a w).aggId = z.aggId ∧ (z.setReg a w).fabricId = z.fabricId ∧
    (z.setReg a w).rackId = z.rackId ∧ (z.setReg a w).admitted = z.admitted ∧ (z.setReg a w).boot = z.boot ∧
    (z.setReg a w).time = z.time ∧ (z.setReg a w).ptp = z.ptp ∧ (z.setReg a w).marks = z.marks ∧
    (z.setReg a w).links = z.links ∧ (z.setReg a w).dies = z.dies ∧ (z.setReg a w).ctxs = z.ctxs ∧
    (z.setReg a w).syncs = z.syncs ∧ (z.setReg a w).waits = z.waits ∧ (z.setReg a w).cmds = z.cmds ∧
    (z.setReg a w).works = z.works ∧ (z.setReg a w).staged = z.staged ∧ (z.setReg a w).notes = z.notes ∧
    (z.setReg a w).externals = z.externals ∧ (z.setReg a w).kept = z.kept ∧ (z.setReg a w).models = z.models ∧
    (z.setReg a w).replicas = z.replicas ∧ (z.setReg a w).progState = z.progState ∧ (z.setReg a w).detRecs = z.detRecs ∧
    (z.setReg a w).seed = z.seed ∧ (z.setReg a w).seedHeld = z.seedHeld ∧ (z.setReg a w).restores = z.restores ∧
    (z.setReg a w).serving = z.serving ∧ (z.setReg a w).fetchId = z.fetchId ∧ (z.setReg a w).forward = z.forward ∧
    (z.setReg a w).faults = z.faults ∧ (z.setReg a w).faultLog = z.faultLog ∧ (z.setReg a w).fences = z.fences ∧
    (z.setReg a w).asks = z.asks ∧ (z.setReg a w).rack = z.rack ∧ (z.setReg a w).rebuild = z.rebuild ∧
    (z.setReg a w).frost = z.frost ∧ (z.setReg a w).tests = z.tests ∧ (z.setReg a w).injections = z.injections ∧
    (z.setReg a w).injected = z.injected ∧ (z.setReg a w).hailSeq = z.hailSeq ∧ (z.setReg a w).hailDue = z.hailDue ∧
    (z.setReg a w).hailEval = z.hailEval ∧ (z.setReg a w).admGen = z.admGen ∧ (z.setReg a w).power = z.power ∧
    (z.setReg a w).keomon = z.keomon ∧ (z.setReg a w).ecc = z.ecc ∧ (z.setReg a w).summary = z.summary ∧
    (z.setReg a w).chkLog2 = z.chkLog2 ∧ (z.setReg a w).counters = z.counters :=
  by and_intros <;> rfl

@[simp] theorem Za.setReg_regs (z : Za) (a : Nat) (w : W) : (z.setReg a w).regs = regSet zaResetWord z.regs a w := rfl

/-- A register reads as it was written. -/
@[simp] theorem Za.reg_setReg_same (z : Za) (a : Nat) (w : W) : (z.setReg a w).reg a = w := regGet_regSet_same _ _ _ _

/-- A register write leaves the other registers. -/
theorem Za.reg_setReg_other (z : Za) {a b : Nat} (w : W) (h : b ≠ a) : (z.setReg a w).reg b = z.reg b :=
  regGet_regSet_other _ _ _ h

/-- A change of a work. -/
@[simp] theorem Za.modWork_keeps (z : Za) (e f : Nat) (g : FrameWork → FrameWork) :
    (z.modWork e f g).tag = z.tag ∧ (z.modWork e f g).aggId = z.aggId ∧ (z.modWork e f g).fabricId = z.fabricId ∧
    (z.modWork e f g).rackId = z.rackId ∧ (z.modWork e f g).admitted = z.admitted ∧ (z.modWork e f g).boot = z.boot ∧
    (z.modWork e f g).regs = z.regs ∧ (z.modWork e f g).time = z.time ∧ (z.modWork e f g).ptp = z.ptp ∧
    (z.modWork e f g).marks = z.marks ∧ (z.modWork e f g).links = z.links ∧ (z.modWork e f g).dies = z.dies ∧
    (z.modWork e f g).ctxs = z.ctxs ∧ (z.modWork e f g).syncs = z.syncs ∧ (z.modWork e f g).waits = z.waits ∧
    (z.modWork e f g).cmds = z.cmds ∧ (z.modWork e f g).staged = z.staged ∧ (z.modWork e f g).notes = z.notes ∧
    (z.modWork e f g).externals = z.externals ∧ (z.modWork e f g).kept = z.kept ∧ (z.modWork e f g).models = z.models ∧
    (z.modWork e f g).replicas = z.replicas ∧ (z.modWork e f g).progState = z.progState ∧
    (z.modWork e f g).detRecs = z.detRecs ∧ (z.modWork e f g).seed = z.seed ∧ (z.modWork e f g).seedHeld = z.seedHeld ∧
    (z.modWork e f g).restores = z.restores ∧ (z.modWork e f g).serving = z.serving ∧ (z.modWork e f g).fetchId = z.fetchId ∧
    (z.modWork e f g).forward = z.forward ∧ (z.modWork e f g).faults = z.faults ∧ (z.modWork e f g).faultLog = z.faultLog ∧
    (z.modWork e f g).fences = z.fences ∧ (z.modWork e f g).asks = z.asks ∧ (z.modWork e f g).rack = z.rack ∧
    (z.modWork e f g).rebuild = z.rebuild ∧ (z.modWork e f g).frost = z.frost ∧ (z.modWork e f g).tests = z.tests ∧
    (z.modWork e f g).injections = z.injections ∧ (z.modWork e f g).injected = z.injected ∧
    (z.modWork e f g).hailSeq = z.hailSeq ∧ (z.modWork e f g).hailDue = z.hailDue ∧ (z.modWork e f g).hailEval = z.hailEval ∧
    (z.modWork e f g).admGen = z.admGen ∧ (z.modWork e f g).power = z.power ∧ (z.modWork e f g).keomon = z.keomon ∧
    (z.modWork e f g).ecc = z.ecc ∧ (z.modWork e f g).summary = z.summary ∧ (z.modWork e f g).chkLog2 = z.chkLog2 ∧
    (z.modWork e f g).counters = z.counters :=
  by and_intros <;> rfl

/-- A change of a die. -/
@[simp] theorem Za.modDie_keeps (z : Za) (die : Nat) (g : DieEntry → DieEntry) :
    (z.modDie die g).tag = z.tag ∧ (z.modDie die g).aggId = z.aggId ∧ (z.modDie die g).fabricId = z.fabricId ∧
    (z.modDie die g).rackId = z.rackId ∧ (z.modDie die g).admitted = z.admitted ∧ (z.modDie die g).boot = z.boot ∧
    (z.modDie die g).regs = z.regs ∧ (z.modDie die g).time = z.time ∧ (z.modDie die g).ptp = z.ptp ∧
    (z.modDie die g).marks = z.marks ∧ (z.modDie die g).links = z.links ∧ (z.modDie die g).ctxs = z.ctxs ∧
    (z.modDie die g).syncs = z.syncs ∧ (z.modDie die g).waits = z.waits ∧ (z.modDie die g).cmds = z.cmds ∧
    (z.modDie die g).works = z.works ∧ (z.modDie die g).staged = z.staged ∧ (z.modDie die g).notes = z.notes ∧
    (z.modDie die g).externals = z.externals ∧ (z.modDie die g).kept = z.kept ∧ (z.modDie die g).models = z.models ∧
    (z.modDie die g).replicas = z.replicas ∧ (z.modDie die g).progState = z.progState ∧
    (z.modDie die g).detRecs = z.detRecs ∧ (z.modDie die g).seed = z.seed ∧ (z.modDie die g).seedHeld = z.seedHeld ∧
    (z.modDie die g).restores = z.restores ∧ (z.modDie die g).serving = z.serving ∧ (z.modDie die g).fetchId = z.fetchId ∧
    (z.modDie die g).forward = z.forward ∧ (z.modDie die g).faults = z.faults ∧ (z.modDie die g).faultLog = z.faultLog ∧
    (z.modDie die g).fences = z.fences ∧ (z.modDie die g).asks = z.asks ∧ (z.modDie die g).rack = z.rack ∧
    (z.modDie die g).rebuild = z.rebuild ∧ (z.modDie die g).frost = z.frost ∧ (z.modDie die g).tests = z.tests ∧
    (z.modDie die g).injections = z.injections ∧ (z.modDie die g).injected = z.injected ∧
    (z.modDie die g).hailSeq = z.hailSeq ∧ (z.modDie die g).hailDue = z.hailDue ∧ (z.modDie die g).hailEval = z.hailEval ∧
    (z.modDie die g).admGen = z.admGen ∧ (z.modDie die g).power = z.power ∧ (z.modDie die g).keomon = z.keomon ∧
    (z.modDie die g).ecc = z.ecc ∧ (z.modDie die g).summary = z.summary ∧ (z.modDie die g).chkLog2 = z.chkLog2 ∧
    (z.modDie die g).counters = z.counters :=
  by and_intros <;> rfl

/-- A change of a link. -/
@[simp] theorem Za.modLink_keeps (z : Za) (p : Nat) (g : ZaLink → ZaLink) :
    (z.modLink p g).tag = z.tag ∧ (z.modLink p g).aggId = z.aggId ∧ (z.modLink p g).fabricId = z.fabricId ∧
    (z.modLink p g).rackId = z.rackId ∧ (z.modLink p g).admitted = z.admitted ∧ (z.modLink p g).boot = z.boot ∧
    (z.modLink p g).regs = z.regs ∧ (z.modLink p g).time = z.time ∧ (z.modLink p g).ptp = z.ptp ∧
    (z.modLink p g).marks = z.marks ∧ (z.modLink p g).dies = z.dies ∧ (z.modLink p g).ctxs = z.ctxs ∧
    (z.modLink p g).syncs = z.syncs ∧ (z.modLink p g).waits = z.waits ∧ (z.modLink p g).cmds = z.cmds ∧
    (z.modLink p g).works = z.works ∧ (z.modLink p g).staged = z.staged ∧ (z.modLink p g).notes = z.notes ∧
    (z.modLink p g).externals = z.externals ∧ (z.modLink p g).kept = z.kept ∧ (z.modLink p g).models = z.models ∧
    (z.modLink p g).replicas = z.replicas ∧ (z.modLink p g).progState = z.progState ∧ (z.modLink p g).detRecs = z.detRecs ∧
    (z.modLink p g).seed = z.seed ∧ (z.modLink p g).seedHeld = z.seedHeld ∧ (z.modLink p g).restores = z.restores ∧
    (z.modLink p g).serving = z.serving ∧ (z.modLink p g).fetchId = z.fetchId ∧ (z.modLink p g).forward = z.forward ∧
    (z.modLink p g).faults = z.faults ∧ (z.modLink p g).faultLog = z.faultLog ∧ (z.modLink p g).fences = z.fences ∧
    (z.modLink p g).asks = z.asks ∧ (z.modLink p g).rack = z.rack ∧ (z.modLink p g).rebuild = z.rebuild ∧
    (z.modLink p g).frost = z.frost ∧ (z.modLink p g).tests = z.tests ∧ (z.modLink p g).injections = z.injections ∧
    (z.modLink p g).injected = z.injected ∧ (z.modLink p g).hailSeq = z.hailSeq ∧ (z.modLink p g).hailDue = z.hailDue ∧
    (z.modLink p g).hailEval = z.hailEval ∧ (z.modLink p g).admGen = z.admGen ∧ (z.modLink p g).power = z.power ∧
    (z.modLink p g).keomon = z.keomon ∧ (z.modLink p g).ecc = z.ecc ∧ (z.modLink p g).summary = z.summary ∧
    (z.modLink p g).chkLog2 = z.chkLog2 ∧ (z.modLink p g).counters = z.counters :=
  by and_intros <;> rfl

/-- The link that was changed. -/
@[simp] theorem Za.link_modLink_same (z : Za) (p : Nat) (g : ZaLink → ZaLink) : (z.modLink p g).link p = g (z.link p) :=
  aGetD_aPut_same _ _ _ _

/-- A change of one link leaves the others. -/
theorem Za.link_modLink_other (z : Za) {p q : Nat} (g : ZaLink → ZaLink) (h : q ≠ p) : (z.modLink p g).link q = z.link q :=
  aGetD_aPut_other _ _ _ _ _ h

/-- A change of a context. -/
@[simp] theorem Za.modCtx_keeps (z : Za) (e : Nat) (g : Ctx → Ctx) :
    (z.modCtx e g).tag = z.tag ∧ (z.modCtx e g).aggId = z.aggId ∧ (z.modCtx e g).fabricId = z.fabricId ∧
    (z.modCtx e g).rackId = z.rackId ∧ (z.modCtx e g).admitted = z.admitted ∧ (z.modCtx e g).boot = z.boot ∧
    (z.modCtx e g).regs = z.regs ∧ (z.modCtx e g).time = z.time ∧ (z.modCtx e g).ptp = z.ptp ∧
    (z.modCtx e g).marks = z.marks ∧ (z.modCtx e g).links = z.links ∧ (z.modCtx e g).dies = z.dies ∧
    (z.modCtx e g).syncs = z.syncs ∧ (z.modCtx e g).waits = z.waits ∧ (z.modCtx e g).cmds = z.cmds ∧
    (z.modCtx e g).works = z.works ∧ (z.modCtx e g).staged = z.staged ∧ (z.modCtx e g).notes = z.notes ∧
    (z.modCtx e g).externals = z.externals ∧ (z.modCtx e g).kept = z.kept ∧ (z.modCtx e g).models = z.models ∧
    (z.modCtx e g).replicas = z.replicas ∧ (z.modCtx e g).progState = z.progState ∧ (z.modCtx e g).detRecs = z.detRecs ∧
    (z.modCtx e g).seed = z.seed ∧ (z.modCtx e g).seedHeld = z.seedHeld ∧ (z.modCtx e g).restores = z.restores ∧
    (z.modCtx e g).serving = z.serving ∧ (z.modCtx e g).fetchId = z.fetchId ∧ (z.modCtx e g).forward = z.forward ∧
    (z.modCtx e g).faults = z.faults ∧ (z.modCtx e g).faultLog = z.faultLog ∧ (z.modCtx e g).fences = z.fences ∧
    (z.modCtx e g).asks = z.asks ∧ (z.modCtx e g).rack = z.rack ∧ (z.modCtx e g).rebuild = z.rebuild ∧
    (z.modCtx e g).frost = z.frost ∧ (z.modCtx e g).tests = z.tests ∧ (z.modCtx e g).injections = z.injections ∧
    (z.modCtx e g).injected = z.injected ∧ (z.modCtx e g).hailSeq = z.hailSeq ∧ (z.modCtx e g).hailDue = z.hailDue ∧
    (z.modCtx e g).hailEval = z.hailEval ∧ (z.modCtx e g).admGen = z.admGen ∧ (z.modCtx e g).power = z.power ∧
    (z.modCtx e g).keomon = z.keomon ∧ (z.modCtx e g).ecc = z.ecc ∧ (z.modCtx e g).summary = z.summary ∧
    (z.modCtx e g).chkLog2 = z.chkLog2 ∧ (z.modCtx e g).counters = z.counters :=
  by and_intros <;> (unfold Za.modCtx; split <;> rfl)

/-- A change of an endpoint pair: a die's or a link's. -/
@[simp] theorem Za.modEnd_keeps (z : Za) (p : Nat) (die : Option Nat) (g : Endpoint → Endpoint) :
    (z.modEnd p die g).tag = z.tag ∧ (z.modEnd p die g).aggId = z.aggId ∧ (z.modEnd p die g).fabricId = z.fabricId ∧
    (z.modEnd p die g).rackId = z.rackId ∧ (z.modEnd p die g).admitted = z.admitted ∧ (z.modEnd p die g).boot = z.boot ∧
    (z.modEnd p die g).regs = z.regs ∧ (z.modEnd p die g).time = z.time ∧ (z.modEnd p die g).ptp = z.ptp ∧
    (z.modEnd p die g).marks = z.marks ∧ (z.modEnd p die g).ctxs = z.ctxs ∧ (z.modEnd p die g).syncs = z.syncs ∧
    (z.modEnd p die g).waits = z.waits ∧ (z.modEnd p die g).cmds = z.cmds ∧ (z.modEnd p die g).works = z.works ∧
    (z.modEnd p die g).staged = z.staged ∧ (z.modEnd p die g).notes = z.notes ∧ (z.modEnd p die g).externals = z.externals ∧
    (z.modEnd p die g).kept = z.kept ∧ (z.modEnd p die g).models = z.models ∧ (z.modEnd p die g).replicas = z.replicas ∧
    (z.modEnd p die g).progState = z.progState ∧ (z.modEnd p die g).detRecs = z.detRecs ∧ (z.modEnd p die g).seed = z.seed ∧
    (z.modEnd p die g).seedHeld = z.seedHeld ∧ (z.modEnd p die g).restores = z.restores ∧
    (z.modEnd p die g).serving = z.serving ∧ (z.modEnd p die g).fetchId = z.fetchId ∧
    (z.modEnd p die g).forward = z.forward ∧ (z.modEnd p die g).faults = z.faults ∧
    (z.modEnd p die g).faultLog = z.faultLog ∧ (z.modEnd p die g).fences = z.fences ∧ (z.modEnd p die g).asks = z.asks ∧
    (z.modEnd p die g).rack = z.rack ∧ (z.modEnd p die g).rebuild = z.rebuild ∧ (z.modEnd p die g).frost = z.frost ∧
    (z.modEnd p die g).tests = z.tests ∧ (z.modEnd p die g).injections = z.injections ∧
    (z.modEnd p die g).injected = z.injected ∧ (z.modEnd p die g).hailSeq = z.hailSeq ∧
    (z.modEnd p die g).hailDue = z.hailDue ∧ (z.modEnd p die g).hailEval = z.hailEval ∧
    (z.modEnd p die g).admGen = z.admGen ∧ (z.modEnd p die g).power = z.power ∧ (z.modEnd p die g).keomon = z.keomon ∧
    (z.modEnd p die g).ecc = z.ecc ∧ (z.modEnd p die g).summary = z.summary ∧ (z.modEnd p die g).chkLog2 = z.chkLog2 ∧
    (z.modEnd p die g).counters = z.counters :=
  by and_intros <;> (unfold Za.modEnd; split <;> rfl)

/-- A queued frame changes its link alone. -/
@[simp] theorem Za.enqueue_keeps (z : Za) (p : Nat) (die : Option Nat) (f : TxFrame) :
    (z.enqueue p die f).tag = z.tag ∧ (z.enqueue p die f).aggId = z.aggId ∧ (z.enqueue p die f).fabricId = z.fabricId ∧
    (z.enqueue p die f).rackId = z.rackId ∧ (z.enqueue p die f).admitted = z.admitted ∧ (z.enqueue p die f).boot = z.boot ∧
    (z.enqueue p die f).regs = z.regs ∧ (z.enqueue p die f).time = z.time ∧ (z.enqueue p die f).ptp = z.ptp ∧
    (z.enqueue p die f).marks = z.marks ∧ (z.enqueue p die f).dies = z.dies ∧ (z.enqueue p die f).ctxs = z.ctxs ∧
    (z.enqueue p die f).syncs = z.syncs ∧ (z.enqueue p die f).waits = z.waits ∧ (z.enqueue p die f).cmds = z.cmds ∧
    (z.enqueue p die f).works = z.works ∧ (z.enqueue p die f).staged = z.staged ∧ (z.enqueue p die f).notes = z.notes ∧
    (z.enqueue p die f).externals = z.externals ∧ (z.enqueue p die f).kept = z.kept ∧ (z.enqueue p die f).models = z.models ∧
    (z.enqueue p die f).replicas = z.replicas ∧ (z.enqueue p die f).progState = z.progState ∧
    (z.enqueue p die f).detRecs = z.detRecs ∧ (z.enqueue p die f).seed = z.seed ∧ (z.enqueue p die f).seedHeld = z.seedHeld ∧
    (z.enqueue p die f).restores = z.restores ∧ (z.enqueue p die f).serving = z.serving ∧
    (z.enqueue p die f).fetchId = z.fetchId ∧ (z.enqueue p die f).forward = z.forward ∧
    (z.enqueue p die f).faults = z.faults ∧ (z.enqueue p die f).faultLog = z.faultLog ∧
    (z.enqueue p die f).fences = z.fences ∧ (z.enqueue p die f).asks = z.asks ∧ (z.enqueue p die f).rack = z.rack ∧
    (z.enqueue p die f).rebuild = z.rebuild ∧ (z.enqueue p die f).frost = z.frost ∧ (z.enqueue p die f).tests = z.tests ∧
    (z.enqueue p die f).injections = z.injections ∧ (z.enqueue p die f).injected = z.injected ∧
    (z.enqueue p die f).hailSeq = z.hailSeq ∧ (z.enqueue p die f).hailDue = z.hailDue ∧
    (z.enqueue p die f).hailEval = z.hailEval ∧ (z.enqueue p die f).admGen = z.admGen ∧ (z.enqueue p die f).power = z.power ∧
    (z.enqueue p die f).keomon = z.keomon ∧ (z.enqueue p die f).ecc = z.ecc ∧ (z.enqueue p die f).summary = z.summary ∧
    (z.enqueue p die f).chkLog2 = z.chkLog2 ∧ (z.enqueue p die f).counters = z.counters :=
  by and_intros <;> rfl

/-- A queued frame stands last in the queue of its link. -/
theorem Za.enqueue_queue (z : Za) (p : Nat) (die : Option Nat) (f : TxFrame) :
    ((z.enqueue p die f).link p).queue = (z.link p).queue ++ [{ frame := f, at_ := z.nowNs, die }] := by
  rw [Za.enqueue, Za.link_modLink_same]

/-- A frame to a die changes the links alone. -/
@[simp] theorem Za.toDie_keeps (z : Za) (die cls msg ctx gen plen : Nat) (body : List W) :
    (z.toDie die cls msg ctx gen plen body).tag = z.tag ∧ (z.toDie die cls msg ctx gen plen body).aggId = z.aggId ∧
    (z.toDie die cls msg ctx gen plen body).fabricId = z.fabricId ∧
    (z.toDie die cls msg ctx gen plen body).rackId = z.rackId ∧
    (z.toDie die cls msg ctx gen plen body).admitted = z.admitted ∧ (z.toDie die cls msg ctx gen plen body).boot = z.boot ∧
    (z.toDie die cls msg ctx gen plen body).regs = z.regs ∧ (z.toDie die cls msg ctx gen plen body).time = z.time ∧
    (z.toDie die cls msg ctx gen plen body).ptp = z.ptp ∧ (z.toDie die cls msg ctx gen plen body).marks = z.marks ∧
    (z.toDie die cls msg ctx gen plen body).dies = z.dies ∧ (z.toDie die cls msg ctx gen plen body).ctxs = z.ctxs ∧
    (z.toDie die cls msg ctx gen plen body).syncs = z.syncs ∧ (z.toDie die cls msg ctx gen plen body).waits = z.waits ∧
    (z.toDie die cls msg ctx gen plen body).cmds = z.cmds ∧ (z.toDie die cls msg ctx gen plen body).works = z.works ∧
    (z.toDie die cls msg ctx gen plen body).staged = z.staged ∧ (z.toDie die cls msg ctx gen plen body).notes = z.notes ∧
    (z.toDie die cls msg ctx gen plen body).externals = z.externals ∧ (z.toDie die cls msg ctx gen plen body).kept = z.kept ∧
    (z.toDie die cls msg ctx gen plen body).models = z.models ∧
    (z.toDie die cls msg ctx gen plen body).replicas = z.replicas ∧
    (z.toDie die cls msg ctx gen plen body).progState = z.progState ∧
    (z.toDie die cls msg ctx gen plen body).detRecs = z.detRecs ∧ (z.toDie die cls msg ctx gen plen body).seed = z.seed ∧
    (z.toDie die cls msg ctx gen plen body).seedHeld = z.seedHeld ∧
    (z.toDie die cls msg ctx gen plen body).restores = z.restores ∧
    (z.toDie die cls msg ctx gen plen body).serving = z.serving ∧
    (z.toDie die cls msg ctx gen plen body).fetchId = z.fetchId ∧
    (z.toDie die cls msg ctx gen plen body).forward = z.forward ∧ (z.toDie die cls msg ctx gen plen body).faults = z.faults ∧
    (z.toDie die cls msg ctx gen plen body).faultLog = z.faultLog ∧
    (z.toDie die cls msg ctx gen plen body).fences = z.fences ∧ (z.toDie die cls msg ctx gen plen body).asks = z.asks ∧
    (z.toDie die cls msg ctx gen plen body).rack = z.rack ∧ (z.toDie die cls msg ctx gen plen body).rebuild = z.rebuild ∧
    (z.toDie die cls msg ctx gen plen body).frost = z.frost ∧ (z.toDie die cls msg ctx gen plen body).tests = z.tests ∧
    (z.toDie die cls msg ctx gen plen body).injections = z.injections ∧
    (z.toDie die cls msg ctx gen plen body).injected = z.injected ∧
    (z.toDie die cls msg ctx gen plen body).hailSeq = z.hailSeq ∧
    (z.toDie die cls msg ctx gen plen body).hailDue = z.hailDue ∧
    (z.toDie die cls msg ctx gen plen body).hailEval = z.hailEval ∧
    (z.toDie die cls msg ctx gen plen body).admGen = z.admGen ∧ (z.toDie die cls msg ctx gen plen body).power = z.power ∧
    (z.toDie die cls msg ctx gen plen body).keomon = z.keomon ∧ (z.toDie die cls msg ctx gen plen body).ecc = z.ecc ∧
    (z.toDie die cls msg ctx gen plen body).summary = z.summary ∧
    (z.toDie die cls msg ctx gen plen body).chkLog2 = z.chkLog2 ∧
    (z.toDie die cls msg ctx gen plen body).counters = z.counters :=
  by and_intros <;> (unfold Za.toDie; (split <;> (try split) <;> rfl))

/-- A frame to another aggregator changes the links alone. -/
@[simp] theorem Za.toAgg_keeps (z : Za) (agg cls msg ctx gen plen : Nat) (body : List W) :
    (z.toAgg agg cls msg ctx gen plen body).tag = z.tag ∧ (z.toAgg agg cls msg ctx gen plen body).aggId = z.aggId ∧
    (z.toAgg agg cls msg ctx gen plen body).fabricId = z.fabricId ∧
    (z.toAgg agg cls msg ctx gen plen body).rackId = z.rackId ∧
    (z.toAgg agg cls msg ctx gen plen body).admitted = z.admitted ∧ (z.toAgg agg cls msg ctx gen plen body).boot = z.boot ∧
    (z.toAgg agg cls msg ctx gen plen body).regs = z.regs ∧ (z.toAgg agg cls msg ctx gen plen body).time = z.time ∧
    (z.toAgg agg cls msg ctx gen plen body).ptp = z.ptp ∧ (z.toAgg agg cls msg ctx gen plen body).marks = z.marks ∧
    (z.toAgg agg cls msg ctx gen plen body).dies = z.dies ∧ (z.toAgg agg cls msg ctx gen plen body).ctxs = z.ctxs ∧
    (z.toAgg agg cls msg ctx gen plen body).syncs = z.syncs ∧ (z.toAgg agg cls msg ctx gen plen body).waits = z.waits ∧
    (z.toAgg agg cls msg ctx gen plen body).cmds = z.cmds ∧ (z.toAgg agg cls msg ctx gen plen body).works = z.works ∧
    (z.toAgg agg cls msg ctx gen plen body).staged = z.staged ∧ (z.toAgg agg cls msg ctx gen plen body).notes = z.notes ∧
    (z.toAgg agg cls msg ctx gen plen body).externals = z.externals ∧ (z.toAgg agg cls msg ctx gen plen body).kept = z.kept ∧
    (z.toAgg agg cls msg ctx gen plen body).models = z.models ∧
    (z.toAgg agg cls msg ctx gen plen body).replicas = z.replicas ∧
    (z.toAgg agg cls msg ctx gen plen body).progState = z.progState ∧
    (z.toAgg agg cls msg ctx gen plen body).detRecs = z.detRecs ∧ (z.toAgg agg cls msg ctx gen plen body).seed = z.seed ∧
    (z.toAgg agg cls msg ctx gen plen body).seedHeld = z.seedHeld ∧
    (z.toAgg agg cls msg ctx gen plen body).restores = z.restores ∧
    (z.toAgg agg cls msg ctx gen plen body).serving = z.serving ∧
    (z.toAgg agg cls msg ctx gen plen body).fetchId = z.fetchId ∧
    (z.toAgg agg cls msg ctx gen plen body).forward = z.forward ∧ (z.toAgg agg cls msg ctx gen plen body).faults = z.faults ∧
    (z.toAgg agg cls msg ctx gen plen body).faultLog = z.faultLog ∧
    (z.toAgg agg cls msg ctx gen plen body).fences = z.fences ∧ (z.toAgg agg cls msg ctx gen plen body).asks = z.asks ∧
    (z.toAgg agg cls msg ctx gen plen body).rack = z.rack ∧ (z.toAgg agg cls msg ctx gen plen body).rebuild = z.rebuild ∧
    (z.toAgg agg cls msg ctx gen plen body).frost = z.frost ∧ (z.toAgg agg cls msg ctx gen plen body).tests = z.tests ∧
    (z.toAgg agg cls msg ctx gen plen body).injections = z.injections ∧
    (z.toAgg agg cls msg ctx gen plen body).injected = z.injected ∧
    (z.toAgg agg cls msg ctx gen plen body).hailSeq = z.hailSeq ∧
    (z.toAgg agg cls msg ctx gen plen body).hailDue = z.hailDue ∧
    (z.toAgg agg cls msg ctx gen plen body).hailEval = z.hailEval ∧
    (z.toAgg agg cls msg ctx gen plen body).admGen = z.admGen ∧ (z.toAgg agg cls msg ctx gen plen body).power = z.power ∧
    (z.toAgg agg cls msg ctx gen plen body).keomon = z.keomon ∧ (z.toAgg agg cls msg ctx gen plen body).ecc = z.ecc ∧
    (z.toAgg agg cls msg ctx gen plen body).summary = z.summary ∧
    (z.toAgg agg cls msg ctx gen plen body).chkLog2 = z.chkLog2 :=
  by and_intros <;> (unfold Za.toAgg; simp only []; split <;> rfl)

/-- A frame to a peer changes the links alone. -/
@[simp] theorem Za.toPeer_keeps (z : Za) (p cls msg plen : Nat) (body : List W) :
    (z.toPeer p cls msg plen body).tag = z.tag ∧ (z.toPeer p cls msg plen body).aggId = z.aggId ∧
    (z.toPeer p cls msg plen body).fabricId = z.fabricId ∧ (z.toPeer p cls msg plen body).rackId = z.rackId ∧
    (z.toPeer p cls msg plen body).admitted = z.admitted ∧ (z.toPeer p cls msg plen body).boot = z.boot ∧
    (z.toPeer p cls msg plen body).regs = z.regs ∧ (z.toPeer p cls msg plen body).time = z.time ∧
    (z.toPeer p cls msg plen body).ptp = z.ptp ∧ (z.toPeer p cls msg plen body).marks = z.marks ∧
    (z.toPeer p cls msg plen body).dies = z.dies ∧ (z.toPeer p cls msg plen body).ctxs = z.ctxs ∧
    (z.toPeer p cls msg plen body).syncs = z.syncs ∧ (z.toPeer p cls msg plen body).waits = z.waits ∧
    (z.toPeer p cls msg plen body).cmds = z.cmds ∧ (z.toPeer p cls msg plen body).works = z.works ∧
    (z.toPeer p cls msg plen body).staged = z.staged ∧ (z.toPeer p cls msg plen body).notes = z.notes ∧
    (z.toPeer p cls msg plen body).externals = z.externals ∧ (z.toPeer p cls msg plen body).kept = z.kept ∧
    (z.toPeer p cls msg plen body).models = z.models ∧ (z.toPeer p cls msg plen body).replicas = z.replicas ∧
    (z.toPeer p cls msg plen body).progState = z.progState ∧ (z.toPeer p cls msg plen body).detRecs = z.detRecs ∧
    (z.toPeer p cls msg plen body).seed = z.seed ∧ (z.toPeer p cls msg plen body).seedHeld = z.seedHeld ∧
    (z.toPeer p cls msg plen body).restores = z.restores ∧ (z.toPeer p cls msg plen body).serving = z.serving ∧
    (z.toPeer p cls msg plen body).fetchId = z.fetchId ∧ (z.toPeer p cls msg plen body).forward = z.forward ∧
    (z.toPeer p cls msg plen body).faults = z.faults ∧ (z.toPeer p cls msg plen body).faultLog = z.faultLog ∧
    (z.toPeer p cls msg plen body).fences = z.fences ∧ (z.toPeer p cls msg plen body).asks = z.asks ∧
    (z.toPeer p cls msg plen body).rack = z.rack ∧ (z.toPeer p cls msg plen body).rebuild = z.rebuild ∧
    (z.toPeer p cls msg plen body).frost = z.frost ∧ (z.toPeer p cls msg plen body).tests = z.tests ∧
    (z.toPeer p cls msg plen body).injections = z.injections ∧ (z.toPeer p cls msg plen body).injected = z.injected ∧
    (z.toPeer p cls msg plen body).hailSeq = z.hailSeq ∧ (z.toPeer p cls msg plen body).hailDue = z.hailDue ∧
    (z.toPeer p cls msg plen body).hailEval = z.hailEval ∧ (z.toPeer p cls msg plen body).admGen = z.admGen ∧
    (z.toPeer p cls msg plen body).power = z.power ∧ (z.toPeer p cls msg plen body).keomon = z.keomon ∧
    (z.toPeer p cls msg plen body).ecc = z.ecc ∧ (z.toPeer p cls msg plen body).summary = z.summary ∧
    (z.toPeer p cls msg plen body).chkLog2 = z.chkLog2 ∧ (z.toPeer p cls msg plen body).counters = z.counters :=
  by and_intros <;> rfl

/-- A frame to the host changes keomon alone. -/
@[simp] theorem Za.toHost_keeps (z : Za) (kind : Nat) (body : List Byte) :
    (z.toHost kind body).tag = z.tag ∧ (z.toHost kind body).aggId = z.aggId ∧ (z.toHost kind body).fabricId = z.fabricId ∧
    (z.toHost kind body).rackId = z.rackId ∧ (z.toHost kind body).admitted = z.admitted ∧
    (z.toHost kind body).boot = z.boot ∧ (z.toHost kind body).regs = z.regs ∧ (z.toHost kind body).time = z.time ∧
    (z.toHost kind body).ptp = z.ptp ∧ (z.toHost kind body).marks = z.marks ∧ (z.toHost kind body).links = z.links ∧
    (z.toHost kind body).dies = z.dies ∧ (z.toHost kind body).ctxs = z.ctxs ∧ (z.toHost kind body).syncs = z.syncs ∧
    (z.toHost kind body).waits = z.waits ∧ (z.toHost kind body).cmds = z.cmds ∧ (z.toHost kind body).works = z.works ∧
    (z.toHost kind body).staged = z.staged ∧ (z.toHost kind body).notes = z.notes ∧
    (z.toHost kind body).externals = z.externals ∧ (z.toHost kind body).kept = z.kept ∧
    (z.toHost kind body).models = z.models ∧ (z.toHost kind body).replicas = z.replicas ∧
    (z.toHost kind body).progState = z.progState ∧ (z.toHost kind body).detRecs = z.detRecs ∧
    (z.toHost kind body).seed = z.seed ∧ (z.toHost kind body).seedHeld = z.seedHeld ∧
    (z.toHost kind body).restores = z.restores ∧ (z.toHost kind body).serving = z.serving ∧
    (z.toHost kind body).fetchId = z.fetchId ∧ (z.toHost kind body).forward = z.forward ∧
    (z.toHost kind body).faults = z.faults ∧ (z.toHost kind body).faultLog = z.faultLog ∧
    (z.toHost kind body).fences = z.fences ∧ (z.toHost kind body).asks = z.asks ∧ (z.toHost kind body).rack = z.rack ∧
    (z.toHost kind body).rebuild = z.rebuild ∧ (z.toHost kind body).frost = z.frost ∧ (z.toHost kind body).tests = z.tests ∧
    (z.toHost kind body).injections = z.injections ∧ (z.toHost kind body).injected = z.injected ∧
    (z.toHost kind body).hailSeq = z.hailSeq ∧ (z.toHost kind body).hailDue = z.hailDue ∧
    (z.toHost kind body).hailEval = z.hailEval ∧ (z.toHost kind body).admGen = z.admGen ∧
    (z.toHost kind body).power = z.power ∧ (z.toHost kind body).ecc = z.ecc ∧ (z.toHost kind body).summary = z.summary ∧
    (z.toHost kind body).chkLog2 = z.chkLog2 ∧ (z.toHost kind body).counters = z.counters :=
  by and_intros <;> rfl

/-- A record put into FORWARD changes FORWARD alone. -/
@[simp] theorem Za.forwardPut_keeps (z : Za) (r : ForwardRec) :
    (z.forwardPut r).tag = z.tag ∧ (z.forwardPut r).aggId = z.aggId ∧ (z.forwardPut r).fabricId = z.fabricId ∧
    (z.forwardPut r).rackId = z.rackId ∧ (z.forwardPut r).admitted = z.admitted ∧ (z.forwardPut r).boot = z.boot ∧
    (z.forwardPut r).regs = z.regs ∧ (z.forwardPut r).time = z.time ∧ (z.forwardPut r).ptp = z.ptp ∧
    (z.forwardPut r).marks = z.marks ∧ (z.forwardPut r).links = z.links ∧ (z.forwardPut r).dies = z.dies ∧
    (z.forwardPut r).ctxs = z.ctxs ∧ (z.forwardPut r).syncs = z.syncs ∧ (z.forwardPut r).waits = z.waits ∧
    (z.forwardPut r).cmds = z.cmds ∧ (z.forwardPut r).works = z.works ∧ (z.forwardPut r).staged = z.staged ∧
    (z.forwardPut r).notes = z.notes ∧ (z.forwardPut r).externals = z.externals ∧ (z.forwardPut r).kept = z.kept ∧
    (z.forwardPut r).models = z.models ∧ (z.forwardPut r).replicas = z.replicas ∧ (z.forwardPut r).progState = z.progState ∧
    (z.forwardPut r).detRecs = z.detRecs ∧ (z.forwardPut r).seed = z.seed ∧ (z.forwardPut r).seedHeld = z.seedHeld ∧
    (z.forwardPut r).restores = z.restores ∧ (z.forwardPut r).serving = z.serving ∧ (z.forwardPut r).fetchId = z.fetchId ∧
    (z.forwardPut r).faults = z.faults ∧ (z.forwardPut r).faultLog = z.faultLog ∧ (z.forwardPut r).fences = z.fences ∧
    (z.forwardPut r).asks = z.asks ∧ (z.forwardPut r).rack = z.rack ∧ (z.forwardPut r).rebuild = z.rebuild ∧
    (z.forwardPut r).frost = z.frost ∧ (z.forwardPut r).tests = z.tests ∧ (z.forwardPut r).injections = z.injections ∧
    (z.forwardPut r).injected = z.injected ∧ (z.forwardPut r).hailSeq = z.hailSeq ∧ (z.forwardPut r).hailDue = z.hailDue ∧
    (z.forwardPut r).hailEval = z.hailEval ∧ (z.forwardPut r).admGen = z.admGen ∧ (z.forwardPut r).power = z.power ∧
    (z.forwardPut r).keomon = z.keomon ∧ (z.forwardPut r).ecc = z.ecc ∧ (z.forwardPut r).summary = z.summary ∧
    (z.forwardPut r).chkLog2 = z.chkLog2 ∧ (z.forwardPut r).counters = z.counters :=
  by and_intros <;> rfl

/-- A record to whoever sent a command leaves by a link or keomon. -/
@[simp] theorem Za.toRequester_keeps (z : Za) (req : Requester) (ctx gen : Nat) (r : List W) :
    (z.toRequester req ctx gen r).tag = z.tag ∧ (z.toRequester req ctx gen r).aggId = z.aggId ∧
    (z.toRequester req ctx gen r).fabricId = z.fabricId ∧ (z.toRequester req ctx gen r).rackId = z.rackId ∧
    (z.toRequester req ctx gen r).admitted = z.admitted ∧ (z.toRequester req ctx gen r).boot = z.boot ∧
    (z.toRequester req ctx gen r).regs = z.regs ∧ (z.toRequester req ctx gen r).time = z.time ∧
    (z.toRequester req ctx gen r).ptp = z.ptp ∧ (z.toRequester req ctx gen r).marks = z.marks ∧
    (z.toRequester req ctx gen r).dies = z.dies ∧ (z.toRequester req ctx gen r).ctxs = z.ctxs ∧
    (z.toRequester req ctx gen r).syncs = z.syncs ∧ (z.toRequester req ctx gen r).waits = z.waits ∧
    (z.toRequester req ctx gen r).cmds = z.cmds ∧ (z.toRequester req ctx gen r).works = z.works ∧
    (z.toRequester req ctx gen r).staged = z.staged ∧ (z.toRequester req ctx gen r).notes = z.notes ∧
    (z.toRequester req ctx gen r).externals = z.externals ∧ (z.toRequester req ctx gen r).kept = z.kept ∧
    (z.toRequester req ctx gen r).models = z.models ∧ (z.toRequester req ctx gen r).replicas = z.replicas ∧
    (z.toRequester req ctx gen r).progState = z.progState ∧ (z.toRequester req ctx gen r).detRecs = z.detRecs ∧
    (z.toRequester req ctx gen r).seed = z.seed ∧ (z.toRequester req ctx gen r).seedHeld = z.seedHeld ∧
    (z.toRequester req ctx gen r).restores = z.restores ∧ (z.toRequester req ctx gen r).serving = z.serving ∧
    (z.toRequester req ctx gen r).fetchId = z.fetchId ∧ (z.toRequester req ctx gen r).forward = z.forward ∧
    (z.toRequester req ctx gen r).faults = z.faults ∧ (z.toRequester req ctx gen r).faultLog = z.faultLog ∧
    (z.toRequester req ctx gen r).fences = z.fences ∧ (z.toRequester req ctx gen r).asks = z.asks ∧
    (z.toRequester req ctx gen r).rack = z.rack ∧ (z.toRequester req ctx gen r).rebuild = z.rebuild ∧
    (z.toRequester req ctx gen r).frost = z.frost ∧ (z.toRequester req ctx gen r).tests = z.tests ∧
    (z.toRequester req ctx gen r).injections = z.injections ∧ (z.toRequester req ctx gen r).injected = z.injected ∧
    (z.toRequester req ctx gen r).hailSeq = z.hailSeq ∧ (z.toRequester req ctx gen r).hailDue = z.hailDue ∧
    (z.toRequester req ctx gen r).hailEval = z.hailEval ∧ (z.toRequester req ctx gen r).admGen = z.admGen ∧
    (z.toRequester req ctx gen r).power = z.power ∧ (z.toRequester req ctx gen r).ecc = z.ecc ∧
    (z.toRequester req ctx gen r).summary = z.summary ∧ (z.toRequester req ctx gen r).chkLog2 = z.chkLog2 ∧
    (z.toRequester req ctx gen r).counters = z.counters :=
  by and_intros <;> (unfold Za.toRequester; (split <;> (try split) <;> rfl))

end Sys2Proof.Machine
end

