-- ==== Sys2Proof/Laws/Completion.lean ====
section
/-!
SUPPORT. How a row completes: what its command makes of one unit is what the row makes of the machine. The first premise is
`rfl` for every row of its shape.
-/
namespace Sys2Proof.Machine

theorem DtuBecomes.of_eq {c : Instr} {s : State} {f : Dtu → Dtu} {d : Dtu} (h : exec c s = .next (s.onDtu f))
    (e : f s.dtu = d) : DtuBecomes c s d := by
  subst e
  exact h

theorem DtuDraws.of_eq {c : Instr} {s : State} {f : Dtu → Dtu} {d : Dtu} (h : exec c s = .next (s.onDtu f).draw)
    (e : f s.dtu = d) : DtuDraws c s d := by
  subst e
  exact h

theorem ZaBecomes.of_eq {c : Instr} {s : State} {f : Za → Za} {z : Za} (h : exec c s = .next (s.onZa f))
    (e : f s.za = z) : ZaBecomes c s z := by
  subst e
  exact h

theorem ZaDraws.of_eq {c : Instr} {s : State} {f : Za → Za} {z : Za} (h : exec c s = .next (s.onZa f).draw)
    (e : f s.za = z) : ZaDraws c s z := by
  subst e
  exact h

theorem LeavesAll.of_dtu {c : Instr} {s : State} {f : Dtu → Dtu} (h : exec c s = .next (s.onDtu f)) (e : f s.dtu = s.dtu) :
    LeavesAll c s := by
  unfold LeavesAll
  rw [h, State.onDtu, e]

theorem LeavesAll.of_za {c : Instr} {s : State} {f : Za → Za} (h : exec c s = .next (s.onZa f)) (e : f s.za = s.za) :
    LeavesAll c s := by
  unfold LeavesAll
  rw [h, State.onZa, e]

/-- The unit a completed row leaves. -/
theorem DtuBecomes.dtu {c : Instr} {s t : State} {d : Dtu} (h : DtuBecomes c s d) (e : exec c s = .next t) : t.dtu = d := by
  unfold DtuBecomes at h
  rw [h] at e
  cases e
  rfl

theorem ZaBecomes.za {c : Instr} {s t : State} {z : Za} (h : ZaBecomes c s z) (e : exec c s = .next t) : t.za = z := by
  unfold ZaBecomes at h
  rw [h] at e
  cases e
  rfl

end Sys2Proof.Machine
end

