-- ==== Sys2Proof/Laws/Husks.lean ====
section
/-!
SUPPORT. What a Husk that is executed does, as one equation per form: the row's command, the unit that met its frame, the
operation, the reply.
-/
namespace Sys2Proof.Machine

/-! ### The rows. -/

theorem State.husk_dtu (s : State) (op : Opcode) (h : HuskCmd) (hs : h.side = .dtu) :
    s.husk op h = { s with dtu := s.dtu.husk s.free op h, free := s.free + 1 } := by
  unfold State.husk
  rw [hs]
  rfl

theorem State.husk_za (s : State) (op : Opcode) (h : HuskCmd) (hs : h.side = .za) :
    s.husk op h = { s with za := s.za.husk s.free s.cellDom op h, free := s.free + 1 } := by
  unfold State.husk
  rw [hs]
  rfl

/-- No Husk row touches the queue. -/
@[simp] theorem State.husk_pending (s : State) (op : Opcode) (h : HuskCmd) : (s.husk op h).pending = s.pending := by
  cases hs : h.side
  · rw [State.husk_dtu s op h hs]
  · rw [State.husk_za s op h hs]

/-! ### A DTU. -/

/-- A frame whose header tests find nothing is taken. -/
theorem Dtu.receive_of_header {d : Dtu} {f : Frame} (h : d.takes f) : (d.receive f).2 = true := by
  unfold Dtu.receive
  rw [h.1, h.2]
  rfl

/-- A Husk that a DTU executes runs on the DTU that has taken its frame. -/
theorem Dtu.husk_of_accepts {d : Dtu} {op : Opcode} {h : HuskCmd} (free : Nat) (ha : d.accepts op h) :
    d.husk free op h = (d.taken (d.huskFrame op h)).huskRun free op h := by
  have h2 : (d.receive (d.huskFrame op h)).2 = true := Dtu.receive_of_header ha.header
  have e : d.husk free op h =
      (if !(d.receive (d.huskFrame op h)).2 then (d.receive (d.huskFrame op h)).1
       else if !(d.taken (d.huskFrame op h)).huskFrom h.req then (d.taken (d.huskFrame op h)).count .badAddr
       else if h.crc ≠ huskCrc op h then (d.taken (d.huskFrame op h)).count .huskCrc
       else match (d.taken (d.huskFrame op h)).huskTests op h with
        | some r => (d.taken (d.huskFrame op h)).replyNow op h 0 0 r false
        | none => match lookupTag (d.taken (d.huskFrame op h)).cmds.cache h.req op h with
          | .replay reply => (d.taken (d.huskFrame op h)).sendReply h.req.addr h.w1 reply
          | .reused => (d.taken (d.huskFrame op h)).replyNow op h 0 0 (resultOf stTagReused) false
          | .fresh => (d.taken (d.huskFrame op h)).huskRun free op h) := rfl
  rw [e, h2, ha.sender, ha.tests, ha.fresh]
  simp [ha.crc]

/-- A short Husk but LINK_RESET_CMD: it is done and answered. -/
theorem Dtu.husk_short {d x : Dtu} {op : Opcode} {h : HuskCmd} {r : Option Result} (free : Nat) (ha : d.accepts op h)
    (hl : op.isLong = false) (hr : op ≠ .linkResetCmd) (hx : (d.taken (d.huskFrame op h)).runOp free op h 0 = (x, r)) :
    d.husk free op h = x.replyNow op h 0 0 (r.getD (resultOf stOk)) true := by
  rw [Dtu.husk_of_accepts free ha]
  unfold Dtu.huskRun
  rw [ha.plain, hl, hx]
  simp [hr]

/-- A long Husk that a DTU holds: it is answered with ACCEPTED. -/
theorem Dtu.husk_long {d x : Dtu} {op : Opcode} {h : HuskCmd} (free : Nat) (ha : d.accepts op h) (hl : op.isLong = true)
    (hn : (d.taken (d.huskFrame op h)).cmds.longs.length < 16)
    (hx : let t := d.taken (d.huskFrame op h)
      ({ t with cmds := { t.cmds with longs := t.cmds.longs ++
          [{ handle := huskHandle h, cmd := { op, req := h.req, w1 := h.w1, tag := huskTag h }, done := none }] } } : Dtu).runOp
        free op h (huskHandle h) = (x, none)) :
    d.husk free op h = x.replyNow op h 1 (huskHandle h) (resultOf stOk) true := by
  rw [Dtu.husk_of_accepts free ha]
  unfold Dtu.huskRun
  rw [ha.plain, hl]
  dsimp only at hx ⊢
  rw [hx]
  simp [Nat.not_le.2 hn]

/-! ### The ZA40. -/

/-- A Husk that the ZA40 executes runs on the ZA40 that has met its frame. -/
theorem Za.husk_of_accepts {z : Za} {op : Opcode} {h : HuskCmd} (free : Nat) (dom : Nat → Nat → Nat) (ha : z.accepts op h) :
    z.husk free dom op h = (z.met op h).huskRun free dom op h := by
  have hb : (z.met op h).huskBody free dom op h = (z.met op h).huskRun free dom op h := by
    unfold Za.huskBody
    rw [ha.early, ha.target, ha.late_]
  rw [← hb]
  unfold Za.husk Za.met
  have hph := ha.booted
  unfold Za.met at hph
  rcases ha.header with hk | hk
  · simp only [hk, ite_true] at hph ⊢
    simp [ha.powered, ha.pin, ha.crc, hph]
  · cases hq : h.req.keomon
    · simp only [hq, Bool.false_eq_true, ite_false] at hph ⊢
      simp [ha.powered, ha.pin, ha.crc, hph, hk]
    · simp only [hq, ite_true] at hph ⊢
      simp [ha.powered, ha.pin, ha.crc, hph]

/-- A short Husk: it is done and answered. A retained HANDLE_QUERY answer goes out as it was posted, which this leaves aside. -/
theorem Za.husk_short {z x : Za} {op : Opcode} {h : HuskCmd} {r : Option Result} {free : Nat} {dom : Nat → Nat → Nat}
    (ha : z.accepts op h) (hl : huskLong op h = false) (hk : op ≠ .handleQuery)
    (hx : (z.met op h).runOp free dom op h 0 = (x, r)) :
    z.husk free dom op h = x.answered op h (r.getD (resultOf stOk)) := by
  rw [Za.husk_of_accepts free dom ha]
  unfold Za.huskRun Za.runShort Za.answered
  rw [ha.fresh, ha.target, ha.plain, hl, hx]
  simp only [hk, Bool.false_eq_true, false_and, ite_false]

/-- A long Husk that takes a handle and whose own checks pass: it is answered with ACCEPTED. -/
theorem Za.husk_long {z z1 x : Za} {op : Opcode} {h : HuskCmd} {free : Nat} {dom : Nat → Nat → Nat} {handle : W}
    (ha : z.begins op h z1 handle) (hl : huskLong op h = true) (hx : z1.runOp free dom op h handle = (x, none)) :
    z.husk free dom op h = x.accepted op h handle := by
  rw [Za.husk_of_accepts free dom ha.accepts]
  unfold Za.huskRun Za.runLong Za.accepted
  rw [ha.accepts.fresh, ha.accepts.target, ha.accepts.plain, hl, ha.quota, ha.takes]
  simp [hx]

/-- A long Husk whose own checks fail: it is answered with what they say and leaves no handle. -/
theorem Za.husk_refused {z z1 x : Za} {op : Opcode} {h : HuskCmd} {free : Nat} {dom : Nat → Nat → Nat} {handle : W} {r : Result}
    (ha : z.begins op h z1 handle) (hl : huskLong op h = true) (hx : z1.runOp free dom op h handle = (x, some r)) :
    z.husk free dom op h = (x.untake (z.met op h)).answered op h r := by
  rw [Za.husk_of_accepts free dom ha.accepts]
  unfold Za.huskRun Za.runLong Za.answered
  rw [ha.accepts.fresh, ha.accepts.target, ha.accepts.plain, hl, ha.quota, ha.takes]
  simp [hx]

/-! ### What a reply changes. -/

/-- A reply leaves the ZA40 by its links or keomon and is kept for retries; nothing else changes. -/
theorem Za.replyNow_eq (z : Za) (op : Opcode) (h : HuskCmd) (ckind : Nat) (handle : W) (r : Result) (cache : Bool) :
    ∃ cmds links keomon, z.replyNow op h ckind handle r cache = { z with cmds, links, keomon } ∧
      cmds.handles = z.cmds.handles ∧ cmds.hseq = z.cmds.hseq ∧ cmds.retained = z.cmds.retained ∧ cmds.relays = z.cmds.relays ∧
      cmds.queued = z.cmds.queued ∧ cmds.linkResets = z.cmds.linkResets ∧ cmds.regStatus = z.cmds.regStatus := by
  unfold Za.replyNow Za.sendRecord Za.toRequester
  cases cache <;> dsimp only [Bool.false_eq_true, ite_false, ite_true] <;> (repeat' split) <;>
    exact ⟨_, _, _, rfl, rfl, rfl, rfl, rfl, rfl, rfl, rfl⟩

/-- A frame put on the uplink changes the link alone. -/
theorem Dtu.put_eq (d : Dtu) (t : TxFrame) : ∃ link, d.put t = { d with link } := ⟨_, rfl⟩

/-- A frame sent or queued changes the link alone. -/
theorem Dtu.sendNow_eq (d : Dtu) (t : TxFrame) : ∃ link, d.sendNow t = { d with link } := by
  unfold Dtu.sendNow Dtu.queue
  (repeat' split) <;> exact ⟨_, rfl⟩

/-- A reply leaves a DTU by its link and is kept for retries; nothing else changes. -/
theorem Dtu.replyNow_eq (d : Dtu) (op : Opcode) (h : HuskCmd) (ckind : Nat) (handle : W) (r : Result) (cache : Bool) :
    ∃ cmds link, d.replyNow op h ckind handle r cache = { d with cmds, link } ∧ cmds.longs = d.cmds.longs ∧
      cmds.loop = d.cmds.loop ∧ cmds.status = d.cmds.status := by
  unfold Dtu.replyNow Dtu.sendReply
  cases cache <;> dsimp only [Bool.false_eq_true, ite_false, ite_true]
  · obtain ⟨l, hl⟩ := Dtu.sendNow_eq d _
    exact ⟨_, l, hl, rfl, rfl, rfl⟩
  · obtain ⟨l, hl⟩ := Dtu.sendNow_eq { d with cmds := { d.cmds with cache := _ } } _
    exact ⟨_, l, hl, rfl, rfl, rfl⟩

/-! ### What an arriving frame changes. -/

/-- The sequence number of a frame touches a DTU's link, its counters and whether a Frost is spoiled. -/
theorem Dtu.takeLseq_eq (d : Dtu) (cls : Nat) (lseq : W) :
    ∃ link frost counters, d.takeLseq cls lseq = { d with link, frost, counters } := by
  unfold Dtu.takeLseq
  dsimp only
  (repeat' split) <;> exact ⟨_, _, _, rfl⟩

/-- A frame that passes the header tests touches a DTU's link, its counters and its Frost capture. -/
theorem Dtu.taken_eq {d : Dtu} {f : Frame} (h : d.takes f) :
    ∃ link frost counters, d.taken f = { d with link, frost, counters } := by
  unfold Dtu.taken Dtu.receive
  rw [h.1, h.2, if_neg (by simp)]
  dsimp only
  obtain ⟨l, fr, c, e⟩ := Dtu.takeLseq_eq { d with link := { d.link with badHcrcRun := 0 } } f.cls.toNat f.lseq
  rw [e]
  dsimp only
  (repeat' split) <;> exact ⟨_, _, _, rfl⟩

/-- An endpoint pair stands in the links or in the dies. -/
theorem Za.modEnd_eq (z : Za) (p : Nat) (die : Option Nat) (g : Endpoint → Endpoint) :
    ∃ links dies, z.modEnd p die g = { z with links, dies } := by
  unfold Za.modEnd
  split <;> exact ⟨_, _, rfl⟩

/-- The sequence number of a frame touches its pair, the counters and whether a Frost is spoiled. -/
theorem Za.takeLseq_eq (z : Za) (p : Nat) (die : Option Nat) (cls : Nat) (lseq : W) :
    ∃ links dies frost counters, z.takeLseq p die cls lseq = { z with links, dies, frost, counters } := by
  unfold Za.takeLseq
  obtain ⟨l, d, e⟩ := Za.modEnd_eq z p die (fun e => { e with
    lseqRx := e.lseqRx.set cls ((if z.agreed p die / 16 == 2 then (z.endOf p die).lseqRx.getD cls 0 else lseq) + 1) })
  dsimp only
  rw [e]
  (repeat' split) <;> exact ⟨_, _, _, _, rfl⟩

/-- A captured frame stands in the Frost. -/
theorem Za.capture_eq (z : Za) (p cls : Nat) (f : Frame) : ∃ frost, z.capture p cls f = { z with frost } := by
  unfold Za.capture
  dsimp only
  (repeat' split) <;> exact ⟨_, rfl⟩

/-- Policing touches the links, the dies and the counters. -/
theorem Za.police_eq (z : Za) (p : Nat) (die : Option Nat) (cls plen : Nat) :
    ∃ links dies counters, (z.police p die cls plen).1 = { z with links, dies, counters } := by
  unfold Za.police
  dsimp only
  split
  · exact ⟨_, _, _, rfl⟩
  · split
    · exact ⟨_, _, _, rfl⟩
    · split
      · split <;> exact ⟨_, _, _, rfl⟩
      · exact ⟨_, _, _, rfl⟩

/-- A frame that is taken touches the ZA40's links, dies, counters and Frost capture; nothing else. -/
theorem Za.taken_eq {z : Za} {p : Nat} {f : Frame} (h : z.takes p f) :
    ∃ links dies frost counters, z.taken p f = { z with links, dies, frost, counters } := by
  unfold Za.takes at h
  unfold Za.taken
  unfold Za.receive at h ⊢
  dsimp only at h ⊢
  by_cases h1 : (!z.linkOn p || !z.power.powered || z.power.pinLow || z.face p == 0) = true
  · rw [if_pos h1] at h; cases h
  rw [if_neg h1] at h ⊢
  by_cases h2 : (z.link p).state = 6
  · rw [if_pos h2] at h; cases h
  rw [if_neg h2] at h ⊢
  cases hf : z.headerFault p f with
  | some c => rw [hf] at h; cases c <;> dsimp only at h <;> cases h
  | none =>
    rw [hf] at h
    dsimp only at h ⊢
    obtain ⟨l1, d1, f1, c1, e1⟩ := Za.takeLseq_eq (z.modLink p (fun l => { l with badHcrcRun := 0 })) p (z.fromDie p f) f.cls.toNat f.lseq
    rw [e1] at h ⊢
    obtain ⟨l2, d2, e2⟩ := Za.modEnd_eq { z.modLink p (fun l => { l with badHcrcRun := 0 }) with
      links := l1, dies := d1, frost := f1, counters := c1 } p (z.fromDie p f) (fun e => { e with
        creditDue := true
        pools := modAt e.pools (poolOf (z.fromDie p f) f.cls.toNat) (fun q => { q with owed := q.owed ++ [(Za.nowNs
          { z.modLink p (fun l => { l with badHcrcRun := 0 }) with links := l1, dies := d1, frost := f1, counters := c1 },
          if f.cls.toNat = 0 ∧ f.msg.toNat = 3 then 0 else unitsOf (Za.agreed
            { z.modLink p (fun l => { l with badHcrcRun := 0 }) with links := l1, dies := d1, frost := f1, counters := c1 } p (z.fromDie p f))
            f.plen.toNat)] }) })
    rw [e2] at h ⊢
    dsimp only at h ⊢
    generalize hc : Za.capture _ p f.cls.toNat f = zc at h ⊢
    obtain ⟨f3, e3⟩ := Za.capture_eq { z.modLink p (fun l => { l with badHcrcRun := 0 }) with
      links := l2, dies := d2, frost := f1, counters := c1 } p f.cls.toNat f
    rw [e3] at hc
    obtain ⟨l4, d4, c4, e4⟩ := Za.police_eq zc p (z.fromDie p f) f.cls.toNat f.plen.toNat
    cases hb : (z.fromDie p f).bind zc.die? with
    | none =>
      dsimp only
      rw [if_neg (by simp), e4, ← hc]
      exact ⟨_, _, _, _, rfl⟩
    | some d =>
      rw [hb] at h
      dsimp only at h ⊢
      split at h
      · cases h
      · rename_i hn
        rw [if_neg hn, e4, ← hc]
        exact ⟨_, _, _, _, rfl⟩

/-! ### What writing the context slots of a DTU changes. -/

/-- The commands, the links and what is booked of the DTUs' slot writes are all that differs; the handles and the slots stay. -/
def Za.SlotWrites (z z' : Za) : Prop :=
  ∃ cmds links dies, z' = { z with cmds, links, dies } ∧ cmds.handles = z.cmds.handles ∧
    dies.map (fun d => (d.die, d.slots)) = z.dies.map (fun d => (d.die, d.slots))

theorem Za.SlotWrites.refl (z : Za) : z.SlotWrites z := ⟨_, _, _, rfl, rfl, rfl⟩

theorem Za.SlotWrites.trans {a b c : Za} (h : a.SlotWrites b) (k : b.SlotWrites c) : a.SlotWrites c := by
  obtain ⟨c1, l1, d1, rfl, h1, e1⟩ := h
  obtain ⟨c2, l2, d2, rfl, h2, e2⟩ := k
  exact ⟨c2, l2, d2, rfl, h2.trans h1, e2.trans e1⟩

theorem Za.SlotWrites.fold {α : Type} {f : Za → α → Za} (h : ∀ (z : Za) a, z.SlotWrites (f z a)) (l : List α) (z : Za) :
    z.SlotWrites (l.foldl f z) := by
  induction l generalizing z with
  | nil => exact .refl z
  | cons a r ih => exact (h z a).trans (ih _)

/-- A command of the tray's own leaves by a link. -/
theorem Za.ownWrite_writes (z : Za) (die a : Nat) (ws : List W) : z.SlotWrites (z.ownWrite die a ws) := by
  unfold Za.ownWrite Za.relay Za.toDie Za.enqueue Za.modLink
  dsimp only
  (repeat' split) <;> exact ⟨_, _, _, rfl, rfl, rfl⟩

theorem Za.modDie_writes (z : Za) (die : Nat) (f : DieEntry → DieEntry) (h : ∀ d, (f d).die = d.die ∧ (f d).slots = d.slots) :
    z.SlotWrites (z.modDie die f) := by
  refine ⟨z.cmds, z.links, _, rfl, rfl, ?_⟩
  simp only [modWhere, List.map_map]
  refine List.map_congr_left (fun d _ => ?_)
  simp only [Function.comp]
  split
  · rw [(h d).1, (h d).2]
  · rfl

theorem Za.writeSlot_writes (z : Za) (die : Nat) (x : Nat × Nat) : z.SlotWrites (z.writeSlot die x) := by
  unfold Za.writeSlot
  split
  · exact .refl z
  · split
    · exact ((z.ownWrite_writes _ _ _).trans (Za.ownWrite_writes _ _ _ _)).trans (Za.modDie_writes _ _ _ (fun _ => ⟨rfl, rfl⟩))
    · exact .refl z

theorem Za.writeSlots_writes (z : Za) (die : Nat) : z.SlotWrites (z.writeSlots die) := by
  unfold Za.writeSlots
  split
  · exact .refl z
  · exact Za.SlotWrites.fold (fun z x => z.writeSlot_writes die x) _ _

/-- The changes of a context at a Front go to the DTUs and change no context and no slot. -/
theorem Za.slotChanges_writes (z : Za) (ctx gen f : Nat) : z.SlotWrites (z.slotChanges ctx gen f) :=
  Za.SlotWrites.fold (fun z die => (z.modDie_writes die (fun d => d.slotChange ctx gen f) (fun _ => ⟨rfl, rfl⟩)).trans
    (Za.writeSlots_writes _ die)) _ _

end Sys2Proof.Machine
end

