-- ==== Sys2Proof/Tests/States.lean ====
section
/-!
SUPPORT. Small states, frames and Husks for the tests.
-/
namespace Sys2Proof.Tests
open Sys2Proof Sys2Proof.Machine

set_option Elab.async false

/-! ### Small states. -/

/-- The machine right after reset. -/
def rs : State := State.reset

/-- The same with another DTU. -/
def dt (d : Dtu) : State := { rs with dtu := d }

/-- The DTU right after reset. -/
def d0 : Dtu := rs.dtu

/-- The machine right after reset with other cells. -/
def withCells (c : Cells) : State := dt { d0 with cells := c }

/-- A locked clock in frame 10, five ns before the tick of frame 11. -/
def clock : TimeUnit :=
  { rs.dtu.time with
    state := .locked, ticking := true, isSet := true, frame := 10, nextFrame := 11, prevFrame := 9, begun := 3,
    ftc := (11 * 2 ^ 20 - 5) * oneNs }

/-- A DTU that issues ticks. -/
def ticking : Dtu := { d0 with time := clock }

/-- A pool with credit on both sides. -/
def richPool : Pool := { Pool.initial with opened := true, grant := 4096, returned := 4096 }

/-- Die 7, its uplink up and admitted by aggregator 1, with credit on every VC. -/
def up : Dtu :=
  { ticking with
    host := { d0.host with tag := Memory.writeWord [] 0 7, sealed := true }
    link := { d0.link with
      linkState := 3, version := 0x32, admitted := true, peerSeen := true, aggMac := linkMac 1 2, fabricId := 1, aggId := 1,
      pools := List.replicate 4 richPool, beatSum := [4096, 4096, 4096, 4096], beatHeld := [4096, 4096, 4096, 4096]
      rxGranted := [128, 128, 128, 128], rxOwed := [0, 0, 0, 0] } }

/-- A frame for a DTU, sound in its header. -/
def toDtu (d : Dtu) (cls msg : Nat) (body : List W) : Frame :=
  Frame.sealed
    { dest := dtuMac d.dieId, src := linkMac 1 2, ethertype := d.link.ethertype, tver := BitVec.ofNat 8 d.link.version,
      cls := BitVec.ofNat 4 cls, rsv15 := 0, msg := BitVec.ofNat 8 msg, rsv17 := 0, fabricId := d.link.fabricId, ctx := 0xFFFF,
      gen := 0, rsv23 := 0, lseq := 0, plen := BitVec.ofNat 16 (4 * body.length), hcrc := 0, body }

/-- An endpoint pair with credit. -/
def richEnds (n : Nat) : Endpoint := { Endpoint.initial n with pools := List.replicate n richPool }

/-- Die 7 as the tray knows it: admitted on link 0, context 5 in its slot 1. -/
def die7 : DieEntry :=
  { DieEntry.fresh 7 0 with
    version := 0x32, admitted := true, timeSync := true, ends := richEnds 4, live := 1
    slots := [{ slot := 0, ctx := 0, gen := 0, rank := 7, first := 4, last := none },
      { slot := 1, ctx := 5, gen := 1, rank := 0, first := 4, last := none }] }

/-- An active context with one member. -/
def ctxOf (id gen : Nat) (m : Member) : Ctx :=
  { Ctx.fresh id gen 4 { fabricQuotas with handles := 64, digestTables := 3 } 0 with state := .active, members := [m] }

/-- A link that is up, its peer aggregator `agg`. -/
def linkTo (agg : Nat) : ZaLink :=
  { ZaLink.initial with
    state := 3, version := 0x32, peer := some (linkMac agg 2), peerAgg := agg, peerFabric := 1, peerRack := 1, helloSeen := true,
    peerSeen := true, credited := true, ends := richEnds 8 }

/-- Aggregator 1 with its firmware running: link 0 faces die 7, link 2 aggregator 2, link 80 the COLLECTOR; the fabric context
and context 5 are resident. -/
def za : Za :=
  { rs.za with
    aggId := 1, fabricId := 1, rackId := 1, admitted := true, boot := { rs.za.boot with phase := 4 }
    power := { rs.za.power with powered := true, rails := List.range 15 }
    regs := [(0x8100, 0x80400000), (0x8110, 0x80800000)]
    time := { clock with rate := zaNominal }
    links := [(0, { linkTo 0 with peer := none }), (2, linkTo 2), (80, linkTo 0)]
    dies := [die7]
    ctxs := [(0, ctxOf 0 0 { rank := 7, die := 7 }), (1, ctxOf 5 1 { rank := 0, die := 7 })] }

/-- Both units up. -/
def both : State := { rs with dtu := up, za := za }

/-- The same with another ZA40. -/
def zt (z : Za) : State := { both with za := z }

/-- A frame for the ZA40 on a link, sound in its header. -/
def toZa (z : Za) (p cls msg : Nat) (src : Mac) (ctx gen : Nat) (body : List W) : Frame :=
  Frame.sealed
    { dest := linkMac z.aggId p, src, ethertype := (z.link p).ether, tver := 0x32, cls := BitVec.ofNat 4 cls, rsv15 := 0,
      msg := BitVec.ofNat 8 msg, rsv17 := 0, fabricId := BitVec.ofNat 16 z.fabricId, ctx := BitVec.ofNat 16 ctx,
      gen := BitVec.ofNat 8 gen, rsv23 := 0, lseq := 0, plen := BitVec.ofNat 16 (4 * body.length), hcrc := 0, body }

/-- A Husk sealed with its crc: for context `ctx`, generation `gen`, with words 2, 4, 5, 6 and a payload. -/
def husk (side : Side) (req : Requester) (op : Opcode) (ctx gen : Nat) (w2 w4 w5 w6 : W) (payload : List W) : HuskCmd :=
  let h : HuskCmd :=
    { side, req, thCtx := 0xFFFF, thGen := 0, w0hi := 0x1400, w1 := pack [(ctx, 31, 16), (gen, 15, 8)], w2, w3 := 1, w4, w5, w6,
      crc := 0, payload }
  { h with crc := huskCrc op h }

/-- One that the host sends over keomon to the ZA40 itself. -/
def hz (op : Opcode) (ctx gen : Nat) (w5 w6 : W) (payload : List W := []) (w4 : W := 0) : HuskCmd :=
  husk .za { link := 0, addr := 0, keomon := true } op ctx gen 0 w4 w5 w6 payload

/-- One that the aggregator sends to die 7. -/
def hd (op : Opcode) (w5 w6 : W) (payload : List W := []) (w4 : W := 0) (ctx : Nat := 0xFFFF) (gen : Nat := 0) : HuskCmd :=
  husk .dtu { link := 0, addr := linkMac 1 2, keomon := false } op ctx gen 0x10000007 w4 w5 w6 payload

/-- A data frame that is being closed. -/
def closing (next : Nat) (cfg : RegMap) : Closing :=
  { frame := 9, next, begunAt := 10 * 2 ^ 20, cfg, cfgSeq := [], slots := List.replicate 8 .empty, cells := [], domIncomplete := [],
    frost := [], flagged := false, looped := none }

/-- A DTU in the course of closing. -/
def closingAt (next : Nat) (cfg : RegMap) (markers : List Nat) : State :=
  dt { up with cells := { d0.cells with closing := some (closing next cfg), markers } }

/-- A fault message that waits. -/
def msgOf (m : BitVec 128) : FaultMsg := { message := m, tNs := 0, temp := 0, vcore := 0, repeats := 1, internal := false }

/-- A DTU with a margin request driven. -/
def driving : Dtu := { d0 with health := { d0.health with driving := some { code := 1, commanded := false, handles := [] } } }

/-- Slot 1 in force for context 5, generation 1. -/
def slot1 : SlotEntry := { w0 := 0x80010005, w1 := 0 }

/-- Die 7 with context 5 in slot 1. -/
def resident : Dtu :=
  { up with cells := { up.cells with
      slots := up.cells.slots.set 1 { CtxSlot.initial with force := slot1 }, latched := up.cells.latched.set 1 slot1 } }

/-- A DTU whose digest channel 3 is enabled. -/
def digesting : State := dt { resident with digests := { d0.digests with chanEn := 8 } }

/-- An open leaf of 65 bytes and the block it belongs to. -/
def leaf1 : OpenLeaf :=
  { hdr := { version := 1, slot := 1, width := 0, last := true, leaf := 0, block := 7, len := 65 }, taken := 0, crc := 0 }
def block1 : PendingBlock := { slot := 1, version := 1, block := 7, width := 0, leaves := [], chan := 3, frame := 9, begun := 1 }

/-- A trace block of one record. -/
def blk : TraceBlock :=
  { stream := 1, seq := 2, start := true, final := false, carry := false, cause := 2, records := 1, firstNs := 0, lost := 0,
    dataCrc := 0, payload := [1, 2, 3, 4] }

/-- A DTU that has said HELLO once and waits for ADMIT. -/
def waiting : State :=
  dt { up with link := { up.link with linkState := 2, admitted := false, version := 0, fabricId := 0, helloSeq := 1 } }

/-- A Frost message for a DTU: message, frost_id, kind of Frost, instant. -/
def frost (d : Dtu) (msg : Nat) (id : W) (full t : Nat) : Frame :=
  toDtu d 2 msg [id, pack [(full, 31, 30)], w32 (t / 2 ^ 32), w32 t, 0, 0, 0, 0]

/-- A PARAM packet for slot 1 and context 5: kind 0 band set, its last part; 2 window; 3 cache entries. -/
def param (kind : Nat) (body : List W) (count : Nat) : Frame :=
  let hdr : List W :=
    [pack [(1, 31, 28), (kind, 27, 24), (1, 23, 21), (5, 15, 0)], pack [(1, 31, 24), (if kind = 0 then 2 else 0, 23, 16), (if kind = 0 then 3 else 1, 15, 8)], 10, 9,
      pack [(if kind = 0 then 248 else 0, 31, 16), (count, 15, 0)], 0, 0]
  Frame.sealed { toDtu resident 4 1 (hdr ++ [crcWords (hdr ++ body)] ++ body) with ctx := 5, gen := 1 }

/-- A state image that a restore accepts: its crc is that of its bytes. -/
def image : TraceImage :=
  { valid := true, header := [0x01000000, 0x05000009, 0], window := [1, 2, 3]
    crc := crc32c (bytesOf [0x01000000, 0x05000009, 0] ++ List.replicate (1020 - 12) 0 ++
      ([1, 2, 3] ++ List.replicate (32768 - [(1 : Byte), 2, 3].length) 0)) }

theorem test_image_sound : image.sound = true := by
  simp only [TraceImage.sound, image, beq_self_eq_true, Bool.and_true, Bool.true_and]
  decide

/-- Sixteen long commands. -/
def sixteen : List DtuLong :=
  List.replicate 16 { handle := 1, cmd := { op := .margin, req := { link := 0, addr := 0, keomon := false }, w1 := 0, tag := 0 }, done := none }

theorem upTo {P : Nat → Prop} (n : Nat) (h : ∀ k, k < n → P k) (k : Nat) (_ : 1 ≤ k) (g : k < n) : P k := h k g

/-- Die 7 with that image. -/
def imaged : State := dt { up with trace := { up.trace with image } }

theorem test_imaged_sound (h : HuskCmd) (hd : imaged.dtu.takes (imaged.dtu.huskFrame .traceRestore h)) :
    (imaged.dtu.taken (imaged.dtu.huskFrame .traceRestore h)).trace.image.sound = true := by
  obtain ⟨_, _, _, e⟩ := Dtu.taken_eq hd
  rw [e]
  exact test_image_sound

/-- A short form of a Husk on the COLLECTOR link 80, for payloads that keomon cannot carry. -/
def hl (op : Opcode) (ctx gen : Nat) (w5 w6 : W) (payload : List W) (w2 : W := 0) : HuskCmd :=
  husk .za { link := 80, addr := za.collectorMac, keomon := false } op ctx gen w2 0 w5 w6 payload

/-- An outstanding handle of a command. -/
def hand (n : W) (op : Opcode) (h : HuskCmd) : Handle :=
  { handle := n, cmd := { op, req := h.req, w1 := h.w1, tag := 1 }, husk := h, parked := false, chain := none, relay := none, order := 0,
    done := none }

/-- What a long Husk leaves once it has taken its handle. -/
def begun (z : Za) (op : Opcode) (h : HuskCmd) : Za × W := ((z.met op h).take op h none false none).getD (z, 0)

theorem test_begins {z : Za} {op : Opcode} {h : HuskCmd} (a : z.accepts op h) (q : (z.met op h).handleFree op h = true)
    (t : ((z.met op h).take op h none false none).isSome = true) : z.begins op h (begun z op h).1 (begun z op h).2 := by
  refine ⟨a, q, ?_⟩
  unfold begun
  cases e : (z.met op h).take op h none false none with
  | none => simp [e] at t
  | some x => rfl

/-- Object 3 of context 5 with a value. -/
def sync3 (value : Nat) : SyncObj := { value, overflow := false, ctx := 5, gen := 1, source := none }
def withSync (value : Nat) : State := zt { za with syncs := [(3, sync3 value)] }

/-- Context 5 as `za` holds it. -/
def ctx5 : Ctx := ctxOf 5 1 { rank := 0, die := 7 }
def withCtx5 (c : Ctx) : State := zt { za with ctxs := [(0, ctxOf 0 0 { rank := 7, die := 7 }), (1, c)] }

/-- No job context resident. -/
def noJobs : State := zt { za with ctxs := [(0, ctxOf 0 0 { rank := 7, die := 7 })] }

/-- A result record with nothing in it. -/
def rec0 : PodRec :=
  { kind := 0, final := false, ctx := 5, gen := 1, frame := 9, epoch := 0, index := 0, seq := 0, height := 1, node := 1, rerun := 0,
    late := false, trunc := false, fenced := false, incomplete := false, frost := false, anySat := false, expected := 1, present := 1,
    entries := [], digest := 0, nextExp := [0, 0, 0, 0], bump := [0, 0, 0, 0],
    sec := { sum := [], ext := [], blocks := [], xmax := [], satUnion := 0, hist := [], tally := [] } }

theorem test_entries {z : Za} {id f : Nat} {es : List MemberEntry}
    (h : es.all (fun x => x.op == 1 || (z.die? x.die).all (fun d => (d.slotFor id f).isSome)) = true) :
    ∀ x ∈ es, x.op ≠ 1 → ∀ d, z.die? x.die = some d → (d.slotFor id f).isSome = true := by
  intro x hx ho d hd
  have := List.all_eq_true.mp h x hx
  simpa [ho, hd] using this

theorem test_forall (l : List W) (P : W → Prop) [DecidablePred P] (h : l.all (fun w => decide (P w)) = true) : ∀ w ∈ l, P w := by
  simpa using h

theorem test_crc (side : Side) (req : Requester) (op : Opcode) (ctx gen : Nat) (w2 w4 w5 w6 : W) (payload : List W) :
    (husk side req op ctx gen w2 w4 w5 w6 payload).crc = huskCrc op (husk side req op ctx gen w2 w4 w5 w6 payload) := rfl

theorem test_takes {z : Za} {p : Nat} {f : Frame} (h : (z.receive p f).2 = true) : z.takes p f := h

theorem test_self {z : Za} {h : HuskCmd} (e : z.huskDest h = .self) : ∀ agg, z.huskDest h ≠ .forward agg := by
  intro agg f
  rw [e] at f
  cases f

theorem test_some {o : Option (Za × W)} {d : Za × W} (h : o.isSome = true) : o = some ((o.getD d).1, (o.getD d).2) := by
  cases o with
  | none => simp at h
  | some x => rfl

/-- A POD_PLAN of zeros. -/
def zeroPlan : HuskCmd := hl .podPlan 5 1 12 0 (List.replicate 2114 0)

theorem test_zeros (k n hi lo : Nat) : wf (List.replicate k (0 : W)) n hi lo = 0 := by
  have w : word (List.replicate k (0 : W)) n = 0 := by
    simp only [word, List.getD_eq_getElem?_getD, List.getElem?_replicate]
    split <;> rfl
  show fld (word _ n) hi lo = 0
  rw [w]
  simp [fld, bits]

theorem test_zero_cells (n hi lo : Nat) : mapCellForm (wf (huskPay zeroPlan) n hi lo) = stOk := by
  rw [show huskPay zeroPlan = List.replicate 2114 0 from rfl, test_zeros]
  decide

/-- A column that takes EXTERNAL values. -/
def extDesc : List W := [0x80000000, 0x70000000, 0, 0]

/-- A detector on score 0. -/
def det0 : List W := [0x8B000000, 0x40000000, 0x10004101, 0, 0, 0, 0, 0]

/-- A detector record. -/
def detRec : DetRec :=
  { entry := 1, det := 0, key := 0x04000000, m := 0, v := 0, state := .normal, latched := false, runDir := 0, run := 0, clearRun := 0,
    warmLeft := 0, lastFrame := 9, version := 0, nObs := 5, posted := 1 }

/-- Context 5 in its data frame 9: die 7 with cluster 0 is expected. -/
def view9 (plans : Plans) : CtxView :=
  { frame := 9, begun := 3, epoch := 0, members := [{ rank := 0, die := 7 }], plans, masks := [(7, 1)], base := List.replicate 16 0,
    pins := [] }

/-- Its work, not begun on. -/
def work9 (plans : Plans) : FrameWork :=
  { entry := 1, ctx := 5, gen := 1, frame := 9, begun := 3, view := view9 plans, contribs := [], dead := [], closed := false, pods := [],
    evidence := [], external := [], rows := [], items := [], disputes := [], disputesMade := 0, marked := [], preDone := [], batches := [],
    scores := [], scored := false, withheld := [], detected := false, bands := [], params := [], marginal := 0, late := [],
    abandoned := false, judged := [] }

/-- A command relayed to die 7 under our tag 77. -/
def relay77 : Relay :=
  { ownTag := 77, die := 7, cmd := { op := .status, req := { link := 0, addr := 0, keomon := true }, w1 := 0xFFFF0000, tag := 1 },
    handle := 0, sentAt := 1, husk := hz .status 0xFFFF 0 1 0, cache := true }
def relayed : State := zt { za with cmds := { za.cmds with relays := [relay77] } }

/-- Its completion. -/
def done77 : List W :=
  let hdr : List W := [0x10000001, 0xFFFF0000, 77, 0, 0, 9, 0]
  hdr ++ [crcWords hdr]

/-- A Husk with other bits in word 0. -/
def withW0 (op : Opcode) (h : HuskCmd) (w0hi : BitVec 16) : HuskCmd :=
  let h := { h with w0hi }
  { h with crc := huskCrc op h }

/-- A keomon Husk for die 7. -/
def hr (op : Opcode) (w5 w6 : W) : HuskCmd := husk .za { link := 0, addr := 0, keomon := true } op 0xFFFF 0 0x10000007 0 w5 w6 []

/-- A chained SYNC_SET that waits until object 3 reaches 10. -/
def chained : HuskCmd := withW0 .syncSet (hz .syncSet 5 1 3 0 [0x80000003, 0, 10, 0, 0, 0, 0, 0, 0, 7]) 0x1480

theorem test_zeroPlan : za.accepts .podPlan zeroPlan :=
  ⟨rfl, rfl, rfl, Or.inr (by decide +kernel), by decide +kernel, test_crc .., by decide +kernel, by decide +kernel, by decide +kernel,
    by decide +kernel, by decide +kernel⟩

/-- Context 5 with its data frame 9 in work. -/
def working (w : FrameWork) : State := zt { za with works := [w] }
def busy : State := working (work9 .empty)

/-- A contribution of die 7: its context, frame, rank and sender as given, cluster 0. -/
def contribFrame (frame rank die : Nat) (w2hi : W := 0) : Frame :=
  toZa za 0 3 1 (dtuMac 7) 5 1
    ([pack [(5, 31, 16), (1, 15, 8)], w32 frame, w2hi ||| w32 rank, w32 die, 0, 0, 0, 0] ++ List.replicate 128 0)

/-- A contribution as kept. -/
def contrib0 : Contribution :=
  { die := 7, cluster := 0, taken := .present, standIn := false, words := (contribFrame 9 0 7).body, arrival := 5 }

/-- The ZA40 early in frame 10, when every gate is open. -/
def early : Za := { za with time := { za.time with ftc := (10 * 2 ^ 20 + 2000) * oneNs } }

/-- A frame that waits on link 2. -/
def queued2 : Queued := { frame := mkTx 1 2 (linkMac 2 2) 0xFFFF 0 32 (List.replicate 8 1), at_ := 0, die := none }

/-- What a grandmaster announces. -/
def announce : AnnounceData :=
  { priority1 := 1, clockClass := 6, clockAccuracy := 0x21, variance := 1, priority2 := 1, gmIdentity := 9, stepsRemoved := 0,
    identity := 9, utcOffset := 37, ptpScale := true }

/-- The PTP port of link 80 with something heard. -/
def ptp80 (q : PtpPort) (parent : Option Nat) : State := zt { za with ptp := { za.ptp with ports := [(80, q)], parent } }

/-- The TALLY Pod of that frame at its aggregator, and a result record of it. -/
def pod80 : Pod :=
  { index := 80, seq := 7, slotted := true, waited := false, exps := [0, 0, 0, 0], rerun := 0, tray := none, children := [],
    own := none, ownHeight := 0, sentUp := false, final := none, finalLate := false, done := false }
def rec80 (final : Bool) (node : Nat) : PodRec :=
  { rec0 with
    kind := 2, index := 80, seq := 7, height := 0, node, final
    sec := { rec0.sec with sum := List.replicate 64 0, ext := List.replicate 64 0, xmax := [0, 0, 0, 0], hist := List.replicate 16 0,
                           tally := List.replicate 8 0 } }

/-- A frame that carries a result record. -/
def resultFrame (z : Za) (msg : Nat) (r : PodRec) : Frame := toZa z 2 3 msg (linkMac 2 2) 5 1 r.words

/-- Its work with that Pod. -/
def work80 (q : Pod) : FrameWork := { work9 .empty with pods := [q] }

/-- A fabric of two trays: die 9 is not ours, and whichever aggregator hosts it, ours is another. -/
def fabWork (q : Pod) : FrameWork :=
  { work80 q with view := { view9 .empty with members := [{ rank := 0, die := 7 }, { rank := 1, die := 9 }] } }
def fab (own : Nat) : State := zt { za with aggId := own, works := [fabWork pod80] }

theorem test_host {P : Prop} (k : Config.hostOf 9 % 4096 ≠ 1 → P) (l : Config.hostOf 9 % 4096 ≠ 2 → P) : P := by
  by_cases h : Config.hostOf 9 % 4096 = 1
  · exact l (by omega)
  · exact k h

theorem test_tree {z : Za} {own : Nat} (q : Pod) (ho : z.aggId = own) (h7 : (z.die? 7).isSome = true) (h9 : (z.die? 9).isSome = false)
    (hf : z.rack.fencedAggs = []) (n : Config.hostOf 9 % 4096 ≠ own) :
    z.tree (fabWork q).view = { aggs := [own, Config.hostOf 9 % 4096], fenced := [], own } := by
  have e7 : z.hostOf 7 = own := by simp [Za.hostOf, h7, ho]
  have e9 : z.hostOf 9 = Config.hostOf 9 % 4096 := by simp [Za.hostOf, h9]
  have em : sortBy (fun (m : Member) => m.rank) (fabWork q).view.members = [{ rank := 0, die := 7 }, { rank := 1, die := 9 }] := rfl
  simp only [Za.tree, aggsOf, em, List.map_cons, List.map_nil, e7, e9, ho, hf, List.filter_nil, FabTree.mk.injEq, and_true]
  rw [List.eraseDups_cons]
  simp only [List.filter_cons, List.filter_nil, beq_eq_false_iff_ne.mpr n, Bool.not_false, if_true]
  rw [List.eraseDups_cons, List.filter_nil, List.eraseDups_nil]

/-- The tree of two: we are its left leaf and its root, and the child of height 1 comes from the other. -/
theorem test_two {own x : Nat} (_n : x ≠ own) (t : FabTree) (e : t = { aggs := [own, x], fenced := [], own }) :
    t.childHeight 0 1 = some 1 ∧ 1 ≤ t.top ∧ t.hosts 1 = true ∧ (t.childHost 1).isSome = true := by
  have r : t.rank = 0 := by simp [e, FabTree.rank, firstIdx, List.findIdx?_cons]
  have sp (h i : Nat) : t.span h i = (List.range 2).filter (fun r => decide (i * 2 ^ h ≤ r ∧ r < (i + 1) * 2 ^ h)) := by rw [e]; rfl
  have s00 : t.span 0 0 = [0] := by rw [sp]; decide
  have s01 : t.span 0 1 = [1] := by rw [sp]; decide
  have s10 : t.span 1 0 = [0, 1] := by rw [sp]; decide
  have ea : t.aggs = [own, x] := by rw [e]
  have ef : t.fenced = [] := by rw [e]
  have a0 : t.host 0 0 = some own := by simp [FabTree.host, s00, ea, ef]
  have a1 : t.host 0 1 = some x := by simp [FabTree.host, s01, ea, ef]
  have b0 : t.host 1 0 = some own := by simp [FabTree.host, s10, ea, ef]
  have eo : t.own = own := by rw [e]
  have h0 : t.hosts 0 = true := by simp [FabTree.hosts, r, a0, eo]
  have h1 : t.hosts 1 = true := by simp [FabTree.hosts, r, b0, eo]
  have sb : t.sibling 1 = some 1 := by simp [FabTree.sibling, r, s01]
  have ht : t.height = 1 := by rw [e]; rfl
  have tp : t.top = 1 := by simp [FabTree.top, ht, List.range_succ, h0, h1]
  exact ⟨by simp [FabTree.childHeight, tp, List.range_succ, h1, sb], by simp [tp], h1, by simp [FabTree.childHost, sb, a1]⟩

/-- A CELL Pod whose first run overflowed. -/
def overRec : PodRec :=
  { rec0 with final := true, sec := { rec0.sec with blocks := [{ exp := 32, ovf := true, vmask := 0, m := [] }] } }
def overflowed : Pod := { pod80 with index := 0, slotted := false, exps := [32, 32, 0, 0], final := some overRec, finalLate := false, done := true }

/-- Context 5's data frame 9 with a DIE feature plan. -/
def planned (plan : List (List W)) : FrameWork := work9 { Plans.empty with die := plan, dieSeq := 1 }

/-- A row of an entity. -/
def rowOf (entity : Nat) : FeatRow :=
  { tile := false, entity, key := 7, frame := 9, valid := true, absent := false, incomplete := false, fenced := false, frost := false,
    fleetLate := false, planSeq := 1, values := [3], taken := false }

/-- An image of one direct section. -/
def imageOf (kind : Nat) (words : List W) : List W :=
  [0x4B4D4931, 0x00010100, 1, 0x00010000, w32 (80 + 4 * words.length)] ++ List.replicate 11 0 ++
    [pack [(kind, 31, 28), (1, 27, 27)], 80, w32 (4 * words.length), 0] ++ words

/-- One tree of one split on feature 0: below 5 the left leaf. -/
def ensemble : List W :=
  [0x10008000, 1, 3, 1, 0, 0, 0, 0, 0, 0, 0, 0, 0, 0, 0, 0, 0x08000000, 5, 1, 0, 0x80000000, 0x3F800000, 0, 0, 0x80000000, 0xBF800000, 0, 0]

/-- A program of one operation that writes no tensor read later, PRE or POST. -/
def program (pre : Bool) : List W := [pack [(1, 31, 28), (b2n pre, 26, 26)], 0, 0, 0, 0, 0, 0, 0]

/-- Model 1, version 1, of that image in slot 0 of context 5, its programs on tile 0. -/
def area (img : List W) : ModelArea :=
  { state := .current, modelId := 1, version := 1, digest := 0, image := img, imageLen := 4 * img.length, front := 4, handle := 0,
    deferred := false, retireAt := 0, fetch := none, nodePages := 1, spilled := [], tiles := [(0, [0])], since := 4 }
def slot (img : List W) : ModelSlot :=
  { entry := 1, slot := 0, cur := some (area img), oth := none, agree := 0, passOf := none, passDone := none, passLeft := 0 }

/-- Work that is scored with it, with rows. -/
def scored (rows : List FeatRow) : FrameWork :=
  { work9 .empty with view := { view9 .empty with pins := [(0, 1, 1, true)] }, rows }
def scoring (img : List W) (w : FrameWork) : State := zt { za with models := [slot img], works := [w] }

/-- The section of it. -/
def secOf (img : List W) : Sec := ((area img).secs 0).getD 0
  { slot := 0, idx := 0, kind := 0, direct := false, words := [], img := [], version := 0, spilled := false }

/-- A walk of entity 9 that has been made and is to be checked, and a disagreement about it. -/
def walk9 : ItemDone :=
  { score := 0, entity := 9, tree := 0, lane := 5, checkLane := none, leaf := 1, value := 0x3F800000, miss := 0, nan := 0 }
def dispute (leaf checkLeaf refLeaf : Nat) : Dispute := { score := 0, entity := 9, tree := 0, lane := 5, checkLane := 1029, leaf, checkLeaf, refLeaf }

/-- Its work with the band set of die 7. -/
def banded : FrameWork := { scored [rowOf 0] with detected := true, bands := [(7, List.replicate 256 [])] }

/-- A model that is coming into slot 0 of context 5, and its fetch from aggregator 2. -/
def fetch0 (offered : Bool) : ModelFetch := { fetchId := 77, source := .agg 2, left := [.software], offered, gaps := 0 }
def comingArea (state : AreaState) (offered : Bool) (img : List W) (len : Nat) : ModelArea :=
  { area img with state, fetch := some (fetch0 offered), imageLen := len, digest := 1, tiles := [] }
def coming (a : ModelArea) : State := zt { za with models := [{ slot [] with cur := none, oth := some a }] }

/-- A frame of its exchange. -/
def modelFrame (msg : Nat) (w7 : W) (data : List W) (digest : Nat := 1) : Frame :=
  toZa za 2 7 msg (linkMac 2 2) 0xFFFF 0 (modelHdr ctx5 0 { area [] with digest } 77 ++ [w7] ++ data)

/-- A sound image of that ensemble, and context 5 with the column it reads. -/
def soundImage : List W :=
  let table : List W := [0x18000000, 80, 112, crcWords ensemble]
  let hdr : List W := [0x4B4D4931, 0x00010100, 1, 0x00010000, 192] ++ List.replicate 10 0
  hdr ++ [crcWords (hdr ++ table)] ++ table ++ ensemble
def verifying : ModelArea :=
  { comingArea .verifying true soundImage 192 with digest := imageDigest ((bytesOf soundImage).take 192) }
def ctxCol : Ctx := { ctx5 with plans := { Plans.empty with die := [[0x82000000, 0x70000000, 0, 0]] } }

/-- A replica record for slot 0 of context 5 in a frame. -/
def replicaFrame (kind agg outcome : Nat) (frame : W) (own : Nat := 1) : Frame :=
  let hdr : List W := [pack [(1, 31, 28), (kind, 27, 24), (5, 15, 0)], pack [(1, 31, 24), (agg, 23, 12), (outcome, 11, 8)], 1, 0x00010000, frame, 0, 3]
  toZa { za with aggId := own } 2 7 0x10 (linkMac 2 2) 5 1 (hdr ++ [crcWords hdr])

/-- A replica comparison that is due. -/
def replicas0 : Replica := { entry := 1, slot := 0, frame := 0, begun := 3, reports := [] }

/-- The fabric of two trays in a frame 0 that is compared. -/
def fabWork0 : FrameWork := { fabWork pod80 with frame := 0, view := { (fabWork pod80).view with frame := 0 } }
def fabCtx : Ctx := { ctx5 with views := [fabWork0.view] }
def fabReplica (own : Nat) : State :=
  zt { za with aggId := own, models := [slot (imageOf 1 ensemble)], works := [fabWork0],
               ctxs := [(0, ctxOf 0 0 { rank := 7, die := 7 }), (1, fabCtx)] }

/-- Both are of the group of its collector. -/
theorem test_group {z : Za} {own x : Nat} {v : CtxView} (n : x ≠ own) (e : z.tree v = { aggs := [own, x], fenced := [], own }) :
    own ∈ z.replicaGroup v ∧ ∃ k ∈ z.replicaGroup v, k ≠ own := by
  simp [Za.replicaGroup, e, n]

theorem test_digest : imageDigest ((bytesOf verifying.image).take verifying.imageLen) = verifying.digest := by
  simp only [verifying, comingArea, area]

/-- The clock five ns before the end of a frame, and that of the ZA40. -/
def clockAt (n : Nat) : TimeUnit :=
  { clock with rate := zaNominal, frame := n, nextFrame := n + 1, prevFrame := n - 1, ftc := ((n + 1) * 2 ^ 20 - 5) * oneNs }

/-- Region Manager of a rack of one. -/
def rm : Rack :=
  { Rack.initial with
    acting := true
    units := [{ agg := 1, candidate := true, priority := 0, live := 1, missed := 0, hailed := true, namesRm := 1 }] }

/-- A command of aggregator 2. -/
def ha (op : Opcode) (w5 w6 : W) (payload : List W) : HuskCmd :=
  husk .za { link := 2, addr := linkMac 2 2, keomon := false } op 0xFFFF 0 0 0 w5 w6 payload

/-- The mirror that we send to aggregator 2, and the one that we hold for it. -/
def primary : SeedPrimary :=
  { partner := 2, valid := true, resync := false, resyncEnd := none, handle := 0, dirty := [], flight := [(9, [])], due := [],
    lastDone := 9, committed := 8, lastAck := 3, lagSaid := false, mirror := [] }
def mirror : SeedHeld :=
  { primary := 2, committed := 8, items := [], damaged := [], stage := [], stageFrame := 9, resync := false, read := false }
def seeded (x : SeedPrimary) : State := zt { za with seed := some x }
def holding (g : SeedHeld) : State := zt { za with seedHeld := some g }

/-- A detector record as an item, and a Seedbank message of aggregator 2. -/
def item : SeedItem := { cls := 3, index := 0, ctx := 5, gen := 1, key := 7, delete := false, data := [0, 0, 0, 0, 0, 9, 0, 0] }
def seedMessage (kind : Nat) (w1 w2 : W) (digest : Nat) (items : List (List W)) : Frame :=
  let hdr : List W := [pack [(1, 31, 28), (kind, 27, 24), (2, 23, 12)], w1, w2, pack [(items.length, 31, 16)]] ++ twoWords digest ++ [0]
  toZa za 2 7 0x20 (linkMac 2 2) 0xFFFF 0 (hdr ++ [crcWords (hdr ++ items.flatten)] ++ items.flatten)

/-- A rebuild of aggregator 3's tray, its base asked of aggregator 4. -/
def rebuild0 : Rebuild :=
  { handle := 0, front := 20, failed := 3, partner := 4, phase := 1, baseKind := 0, base := 0, items := [], idle := 0, asked := false }
def rebuilding (rb : Rebuild) (n : Nat) : State := zt { za with rebuild := some rb, time := clockAt n }

/-- A complete checkpoint of aggregator 3. -/
def ckpt3 : Checkpoint := { agg := 3, frame := 4096, complete := true, said := false, parts := [(0, [])] }

theorem test_put (s : State) (h : HuskCmd) (e : s = zt { za with rack := rm })
    (a : h = ha .ckptPut 9 0x80000000 [1, 2, 3, 4, 5, 6] ∨ h = ha .ckptPut 9 2 [1, 2, 3, 4]) : s.za.accepts .ckptPut h := by
  subst e
  rcases a with rfl | rfl <;>
    exact ⟨rfl, rfl, rfl, Or.inr (by decide +kernel), by decide +kernel, test_crc .., by decide +kernel, by decide +kernel,
      by decide +kernel, by decide +kernel, by decide +kernel⟩

/-- A Frost of the tray, its messages and what is given out of it. -/
def frosty (f : ZaFrost) : State := zt { za with frost := f }
def frost5 (state message : Nat) : ZaFrost := { za.frost with state, message, frostId := 5, targets := [7] }
def snap0 : ZaSnapshot := { frame := 9, links := [], pods := [], syncs := [], ctxs := [] }
def frostFrame (p msg : Nat) (src : Mac) (w1 : W) (data : List W) : Frame :=
  toZa za p 2 msg src 0xFFFF 0 ([5, w1, 0, 0x00B00000, 0, 0, 0, 0] ++ data)
def scan0 : ScanOut :=
  { handle := 9, req := { link := 0, addr := 0, keomon := true }, mask := 1, dies := [], current := some 7, offset := 0, total := 32 }

/-- One DTU alone, and a boot that has not yet ended. -/
def alone (d : DieEntry) : State := zt { za with dies := [d] }
def booting (phase source : Nat) (offered : Bool) : State :=
  zt { za with boot := { rs.za.boot with phase, source, offered, length := 8, image := [1, 2] } }
def powered (p : ZaPower) : State := zt { za with power := p }

/-- A frame on keomon without escapes. -/
def keomonBytes (kind : Byte) (body : List Byte) : List Byte :=
  let c : List Byte := [kind, 0, 0, BitVec.ofNat 8 body.length] ++ body
  [0x7E] ++ c ++ wordBytes (crc32c c) ++ [0x7E]

/-- A Hail of die 7 for frame 10. -/
def hail7 : Frame := toZa za 0 1 3 (dtuMac 7) 0xFFFF 0 [0x11000000, 7, 10, 0, 0, 0, 0, 0]

/-- A reading of the temperatures and the power. -/
def reading (q : Byte) (power : BitVec 10) : ThermalReading := { q0 := 40, q1 := q, q2 := 40, q3 := 40, spine := 40, power, vin := 0, iin := 0 }

/-- A body of a TRACE frame whose wrapper is sound. -/
def soundTrace : List W := List.replicate 7 1 ++ [crcWords (List.replicate 7 1)]

/-- A data frame being closed that served context 5 in its last cluster, and a DTU that closes it. -/
def served : Closing := { closing 63 [(0x140FC, 2)] with slots := resident.cells.latched }
def servedAt : State := dt { resident with cells := { resident.cells with closing := some served, markers := [0] } }

end Sys2Proof.Tests
end

