-- ==== Sys2Proof/Tests/DtuWitnesses.lean ====
section
/-!
SUPPORT. Tests: the hypotheses of the obligations can be met, clause by clause; the first half of them.
-/
namespace Sys2Proof.Tests
open Sys2Proof Sys2Proof.Machine

set_option Elab.async false

theorem test_witness_StepRunsFrontCommand :
    (∃ (s : State) (c : Instr) (rest : List Instr), s.pending = c :: rest) ∧
    (∃ (s : State), s.pending = []) :=
  ⟨⟨{ both with pending := [.zaTick] }, .zaTick, [], by decide +kernel⟩,
   ⟨both, by decide +kernel⟩⟩

theorem test_witness_CommandsKeepToTheirUnit :
    (∃ (c : Instr) (s : State) (t : State), exec c s = .next t) ∧
    (∃ (c : Instr) (s : State) (t : State), exec c s = .next t) :=
  ⟨⟨.zaTick, both, _, rfl⟩,
   ⟨.ident (hd .ident 0 0), both, _, rfl⟩⟩

theorem test_witness_ProbeSamplesCountOnce :
    (∃ (s : State) (k : Fin 4096), k.val / 64 < s.dtu.build.nClusters ∧ s.dtu.samples (s.dtu.build.strobeDomain k.val) = true) ∧
    (∃ (s : State) (t : Fin 64), s.dtu.samples (s.dtu.build.tapDomain t.val) = true) ∧
    (∃ (s : State) (k : Fin 4096), s.dtu.cells.held.contains (s.dtu.build.strobeDomain k.val) = true) ∧
    (∃ (s : State) (t : Fin 64), s.dtu.cells.held.contains (s.dtu.build.tapDomain t.val) = true) ∧
    (∃ (w : W), cellMode w = 4) :=
  ⟨⟨rs, 4095, by decide +kernel⟩,
   ⟨rs, 63, by decide +kernel⟩,
   ⟨withCells { d0.cells with held := [0] }, 4095, by decide +kernel⟩,
   ⟨withCells { d0.cells with held := [0] }, 0, by decide +kernel⟩,
   ⟨0x80000000, by decide +kernel⟩⟩

theorem test_witness_ClockAndDomainLosses :
    (∃ (s : State) (d : Fin 16) (cl : Closing), d.val < s.dtu.build.nObs ∧ s.dtu.cells.held.contains d.val = false ∧ s.dtu.cells.closing = some cl ∧
      s.dtu.cells.markers.contains d.val = false) ∧
    (∃ (s : State) (d : Fin 16), d.val < s.dtu.build.nObs ∧ s.dtu.cells.held.contains d.val = false ∧ (s.dtu.cells.closing = none ∨
      s.dtu.cells.markers.contains d.val = true)) ∧
    (∃ (s : State) (d : Fin 16), d.val < s.dtu.build.nObs) ∧
    (∃ (s : State) (d : Fin 16), d.val < s.dtu.build.nObs) ∧
    (∃ (s : State), s.dtu.time.state ≠ .locked) ∧
    (∃ (s : State), s.dtu.time.state = .locked) :=
  ⟨⟨closingAt 0 [] [], 0, closing 0 [], by decide +kernel⟩,
   ⟨rs, 0, by decide +kernel⟩,
   ⟨rs, 0, by decide +kernel⟩,
   ⟨withCells { d0.cells with held := [0] }, 0, by decide +kernel⟩,
   ⟨rs, by decide +kernel⟩,
   ⟨dt ticking, by decide +kernel⟩⟩

theorem test_witness_ConfigurationWritesAreChecked :
    (∃ (s : State) (n : Fin 4096) (w : W), n.val / 64 < s.dtu.build.nClusters ∧ cellCfgStatus w = stOk) ∧
    (∃ (s : State) (n : Fin 4096) (w : W), n.val / 64 < s.dtu.build.nClusters ∧ cellCfgStatus w ≠ stOk) ∧
    (∃ (s : State) (n : Fin 4096), s.dtu.build.nClusters ≤ n.val / 64) ∧
    (∃ (s : State) (c : Fin 64), c.val < s.dtu.build.nClusters) ∧
    (∃ (s : State) (c : Fin 64), s.dtu.build.nClusters ≤ c.val) :=
  ⟨⟨rs, 4095, 0, by decide +kernel⟩,
   ⟨rs, 0, 0xFFFFFFFF, by decide +kernel⟩,
   ⟨dt { d0 with build := { d0.build with nClusters := 63 } }, 4032, by decide +kernel⟩,
   ⟨rs, 63, by decide +kernel⟩,
   ⟨dt { d0 with build := { d0.build with nClusters := 63 } }, 63, by decide +kernel⟩⟩

theorem test_witness_ContextWritesReachTheDtu :
    (∃ (s : State) (c : Fin 64) (m : BitVec 8), s.za.die? s.dtu.dieId = none ∧ c.val < s.dtu.build.nClusters ∧ fld (setFld (cluWord s.dtu.cells.cfg
      c.val) 7 0 m.toNat) 31 13 = 0) ∧
    (∃ (s : State) (c : Fin 64) (m : BitVec 8) (e : DieEntry), s.za.die? s.dtu.dieId = some e ∧ e.admitted = true ∧ s.za.maskConflict e e.cfg c.val
      m.toNat = none ∧ c.val < s.dtu.build.nClusters ∧ fld (setFld (cluWord s.dtu.cells.cfg c.val) 7 0 m.toNat) 31 13 = 0) ∧
    (∃ (s : State) (c : Fin 64) (m : BitVec 8) (e : DieEntry) (x : Nat), s.za.die? s.dtu.dieId = some e ∧ e.admitted = true ∧ s.za.maskConflict e
      e.cfg c.val m.toNat = some x) ∧
    (∃ (s : State) (k : Fin 8) (w0 : W) (w1 : W) (f : W), fld w0 30 24 = 0 ∧ fld w1 23 20 = 0 ∧ f ≠ 0 ∧ s.dtu.frameNow < extendFrame s.dtu.frameNow
      f.toNat ∧ ((s.dtu.cells.slots.getD k.val .initial).front = 0 ∨ (s.dtu.cells.slots.getD k.val .initial).front = f)) ∧
    (∃ (s : State) (w0 : W) (w1 : W) (f : W), fld w0 30 24 = 0 ∧ fld w1 23 20 = 0 ∧ f ≠ 0 ∧ extendFrame s.dtu.frameNow f.toNat ≤ s.dtu.frameNow) ∧
    (∃ (s : State) (k : Fin 8) (w0 : W) (w1 : W) (f : W), fld w0 30 24 = 0 ∧ fld w1 23 20 = 0 ∧ f ≠ 0 ∧ (s.dtu.cells.slots.getD k.val .initial).front
      ≠ 0 ∧ (s.dtu.cells.slots.getD k.val .initial).front ≠ f) :=
  ⟨⟨rs, 63, 0xFF, by decide +kernel⟩,
   ⟨both, 63, 2, die7, by decide +kernel⟩,
   ⟨zt { za with ctxs := [(1, { ctxOf 5 1 { rank := 0, die := 7 } with plans := { Plans.empty with pod := { PodPlan.empty with cells := [(4095, 0x2000)] } } })] },
     63, 2, die7, 4095, by decide +kernel⟩,
   ⟨dt ticking, 7, 0, 0, 11, by decide +kernel⟩,
   ⟨dt ticking, 0, 0, 10, by decide +kernel⟩,
   ⟨withCells { d0.cells with slots := d0.cells.slots.set 7 { CtxSlot.initial with front := 12 } }, 7, 0, 0, 13, by decide +kernel⟩⟩

theorem test_witness_TicksFollowTheFrameClock :
    (∃ (s : State), s.dtu.time.ticking = true ∧ s.dtu.time.stepDue = none ∧ s.dtu.runs = true ∧ s.dtu.cells.closing = none ∧ s.dtu.cmds.loop = none) ∧
    (∃ (s : State), s.dtu.time.ticking = true ∧ s.dtu.time.stepDue = none ∧ s.dtu.power.por = false ∧ s.dtu.power.lull ≠ 0) ∧
    (∃ (s : State), s.dtu.time.ticking = false) ∧
    (∃ (s : State) (a : ArmedStep), s.dtu.time.ticking = true ∧ s.dtu.time.armed = some a ∧ a.frame = s.dtu.time.nextFrame ∧ stepWhole a.s < 0 ∧
      s.dtu.power.por = false) ∧
    (∃ (s : State) (a : ArmedStep), s.dtu.time.ticking = true ∧ s.dtu.time.armed = some a ∧ a.frame = s.dtu.time.nextFrame ∧ stepWhole a.s < 0) :=
  ⟨⟨dt ticking, by decide +kernel⟩,
   ⟨dt { ticking with power := { d0.power with lull := 1 } }, by decide +kernel⟩,
   ⟨rs, by decide +kernel⟩,
   ⟨dt { ticking with time := { clock with armed := some { frame := 11, s := -2097153 } } }, { frame := 11, s := -2097153 }, by decide +kernel⟩,
   ⟨dt { ticking with time := { clock with armed := some { frame := 11, s := -1048576 } } }, { frame := 11, s := -1048576 }, by decide +kernel⟩⟩

theorem test_witness_ForwardStepSkipsFrames :
    (∃ (s : State) (a : ArmedStep), s.dtu.time.ticking = true ∧ s.dtu.time.armed = some a ∧ a.frame = s.dtu.time.nextFrame ∧ s.dtu.time.frame + 1 =
      s.dtu.time.nextFrame ∧ 0 < stepWhole a.s ∧ s.dtu.power.por = false) :=
  ⟨dt { ticking with time := { clock with armed := some { frame := 11, s := 1048576 } } }, { frame := 11, s := 1048576 }, by decide +kernel⟩

theorem test_witness_ClustersCloseInOrder :
    (∃ (s : State) (cl : Closing) (c : Fin 64), s.dtu.cells.closing = some cl ∧ cl.next = c.val ∧ c.val < s.dtu.build.nClusters ∧ s.dtu.unseen cl.cfg
      c.val = [] ∧ s.dtu.runs = true) ∧
    (∃ (s : State) (cl : Closing) (c : Fin 64), s.dtu.cells.closing = some cl ∧ cl.next = c.val ∧ c.val < s.dtu.build.nClusters ∧ s.dtu.unseen cl.cfg
      c.val = [] ∧ s.dtu.runs = true ∧ s.dtu.injections = []) ∧
    (∃ (s : State) (cl : Closing) (c : Fin 64), s.dtu.cells.closing = some cl ∧ cl.next = c.val ∧ c.val < s.dtu.build.nClusters ∧ s.dtu.runs = true) ∧
    (∃ (s : State) (c : Fin 64), (s.dtu.cells.closing = none ∨ s.dtu.runs = false ∨ s.dtu.build.nClusters ≤ c.val)) ∧
    (∃ (s : State) (cl : Closing) (c : Fin 64), s.dtu.cells.closing = some cl ∧ cl.next ≠ c.val) ∧
    (∃ (s : State) (cl : Closing) (c : Fin 64), s.dtu.cells.closing = some cl ∧ s.dtu.unseen cl.cfg c.val ≠ []) ∧
    (∃ (s : State) (t : State) (cl : Closing) (c : Fin 64), s.dtu.cells.closing = some cl ∧ cl.next = c.val ∧ bit (cluWord cl.cfg c.val) 8 = true ∧
      s.dtu.unseen cl.cfg c.val = [] ∧ c.val < s.dtu.build.nClusters ∧ s.dtu.runs = true ∧ exec (.clusterClose c) s = .next t) :=
  ⟨⟨closingAt 63 [] [0], closing 63 [], 63, by decide +kernel⟩,
   ⟨servedAt, served, 63, by decide +kernel⟩,
   ⟨closingAt 0 [(0x10000, 0x20000000)] [], closing 0 [(0x10000, 0x20000000)], 0, by decide +kernel⟩,
   ⟨both, 63, by decide +kernel⟩,
   ⟨closingAt 1 [] [0], closing 1 [], 0, by decide +kernel⟩,
   ⟨closingAt 0 [(0x10000, 0x20000000)] [], closing 0 [(0x10000, 0x20000000)], 0, by decide +kernel⟩,
   ⟨closingAt 63 [(0x140FC, 0x100)] [0], _, closing 63 [(0x140FC, 0x100)], 63, by decide +kernel, by decide +kernel, (by decide +kernel), by decide +kernel, by decide +kernel, (by decide +kernel), rfl⟩⟩

theorem test_witness_LateContributionsAreNeverSent :
    (∃ (s : State) (cl : Closing) (c : Fin 64), s.dtu.cells.closing = some cl ∧ cl.next = c.val ∧ c.val < s.dtu.build.nClusters ∧ s.dtu.runs = true) :=
  ⟨closingAt 63 [] [0], closing 63 [], 63, by decide +kernel⟩

theorem test_witness_TimeSourcesDisciplineTheDtu :
    (∃ (s : State), s.dtu.host.timeSrc = 0 ∧ s.dtu.power.por = false) ∧
    (∃ (s : State), s.dtu.host.timeSrc = 1) ∧
    (∃ (s : State), s.dtu.host.timeSrc = 0 ∧ s.dtu.power.por = false ∧ s.dtu.port.word = none) ∧
    (∃ (s : State) (sec : Nat) (ns : Nat) (b3 : W), s.dtu.host.timeSrc = 0 ∧ s.dtu.power.por = false ∧ s.dtu.port.word = some (sec, ns, b3) ∧
      s.dtu.time.state = .free ∧ s.dtu.time.isSet = false ∧ bit b3 1 = false ∧ sec < 2 ^ 34) ∧
    (∃ (s : State), s.dtu.time.state = .locked ∧ s.dtu.power.por = false) ∧
    (∃ (s : State), s.dtu.time.state = .acquire ∧ s.dtu.power.por = false) ∧
    (∃ (s : State) (f : Frame), s.dtu.takes f ∧ f.plen.toNat = 32 ∧ wf f.body 0 31 24 = 1 ∧ s.dtu.host.timeSrc = 1 ∧ wf f.body 0 23 22 ≠ 0) :=
  ⟨⟨rs, by decide +kernel⟩,
   ⟨dt { d0 with host := { d0.host with timeSrc := 1 } }, by decide +kernel⟩,
   ⟨rs, by decide +kernel⟩,
   ⟨dt { d0 with port := { d0.port with word := some (2 ^ 34 - 1, 999999999, 0) } }, 2 ^ 34 - 1, 999999999, 0, by decide +kernel⟩,
   ⟨dt ticking, by decide +kernel⟩,
   ⟨dt { d0 with time := { d0.time with state := .acquire, run := 5 } }, by decide +kernel⟩,
   ⟨dt { up with host := { up.host with timeSrc := 1 } }, toDtu up 6 1 [0x01400005, 0, 0, 0, 11534331, 0, 0, 0], by decide +kernel⟩⟩

theorem test_witness_TriggersFireAtTheirInstant :
    (∃ (s : State) (i : Fin 4) (w : W) (t : Trigger), s.dtu.trigs[i.val]? = some t ∧ bit w 31 = true ∧ bit w 30 = false ∧ fld w 29 28 = 0 ∧ fld w 15
      0 = 0 ∧ fld w 27 16 ≠ 0 ∧ t.start ≤ s.dtu.nowNs) ∧
    (∃ (s : State) (i : Fin 4) (w : W) (t : Trigger), s.dtu.trigs[i.val]? = some t ∧ bit w 31 = true ∧ bit w 30 = false ∧ fld w 29 28 = 0 ∧ fld w 15
      0 = 0 ∧ fld w 27 16 ≠ 0 ∧ s.dtu.nowNs < t.start) ∧
    (∃ (s : State) (i : Fin 4) (t : Trigger), s.dtu.trigs[i.val]? = some t ∧ bit t.w0 31 = true) ∧
    (∃ (s : State) (i : Fin 4) (t : Trigger), s.dtu.trigs[i.val]? = some t ∧ bit t.w0 31 = true ∧ s.dtu.mayReach t.next = true ∧ s.dtu.time.state =
      .locked) :=
  ⟨⟨rs, 3, 0x80010000, .initial 0x00010000, by decide +kernel⟩,
   ⟨dt { d0 with trigs := d0.trigs.set 3 { Trigger.initial 0x00010000 with start := 1 } }, 3, 0x8FFF0000, { Trigger.initial 0x00010000 with start := 1 },
     by decide +kernel⟩,
   ⟨dt { d0 with trigs := d0.trigs.set 0 (.initial 0x80010000) }, 0, .initial 0x80010000, by decide +kernel⟩,
   ⟨dt { ticking with trigs := d0.trigs.set 3 { Trigger.initial 0x80010000 with next := 11 * 2 ^ 20 } }, 3, { Trigger.initial 0x80010000 with next := 11 * 2 ^ 20 },
     by decide +kernel⟩⟩

theorem test_witness_InterruptLevelFollowsStatus :
    (∃ (i : Nat), i < 11) ∧
    (∃ (s : State), s.dtu.runs = true) ∧
    (∃ (s : State), s.dtu.runs = true) :=
  ⟨⟨10, by decide +kernel⟩,
   ⟨rs, by decide +kernel⟩,
   ⟨rs, by decide +kernel⟩⟩

theorem test_witness_SealGuardsTheTag :
    (∃ (s : State) (i : Fin 64), s.dtu.power.por = false ∧ i.val < 8 ∧ s.dtu.host.sealed = true) ∧
    (∃ (s : State) (i : Fin 64), s.dtu.power.por = false ∧ (8 ≤ i.val ∨ s.dtu.host.sealed = false)) ∧
    (∃ (s : State), s.dtu.power.por = false) ∧
    (∃ (s : State), s.dtu.power.por = false) ∧
    (∃ (s : State), s.dtu.power.rst = false) ∧
    (∃ (s : State) (t : State) (i : Fin 64) (w : W), s.dtu.power.por = false ∧ s.dtu.host.sealed = false ∧ exec (.tagAreaWrite i w) s = .next t) :=
  ⟨⟨both, 7, by decide +kernel⟩,
   ⟨both, 8, by decide +kernel⟩,
   ⟨rs, by decide +kernel⟩,
   ⟨both, by decide +kernel⟩,
   ⟨both, by decide +kernel⟩,
   ⟨rs, _, 63, 0x12345678, by decide +kernel, by decide +kernel, rfl⟩⟩

theorem test_witness_HostPortWritesTakeEffect :
    (∃ (s : State) (w : W), s.dtu.runs = true ∧ fld w 1 0 < 2) ∧
    (∃ (s : State) (w : W), s.dtu.runs = true ∧ 2 ≤ fld w 1 0) ∧
    (∃ (s : State), s.dtu.runs = true) ∧
    (∃ (s : State), s.dtu.runs = true) ∧
    (∃ (s : State), s.dtu.runs = true ∧ s.dtu.trace.capturing = true ∧ s.dtu.trace.frozen = false ∧ s.dtu.trace.host = none) ∧
    (∃ (s : State), s.dtu.runs = true) ∧
    (∃ (s : State) (a : BitVec 16), s.dtu.power.por = false ∧ s.dtu.hostAnswers (a.toNat / 4 * 4) = false) ∧
    (∃ (s : State) (a : BitVec 16) (x : W), s.dtu.power.por = false ∧ s.dtu.hostAnswers (a.toNat / 4 * 4) = true ∧ s.dtu.hostRead (a.toNat / 4 * 4) =
      some x) ∧
    (∃ (s : State), s.dtu.power.por = true) :=
  ⟨⟨rs, 1, by decide +kernel⟩,
   ⟨rs, 2, by decide +kernel⟩,
   ⟨rs, by decide +kernel⟩,
   ⟨rs, by decide +kernel⟩,
   ⟨dt { d0 with trace := { d0.trace with capturing := true } }, by decide +kernel⟩,
   ⟨rs, by decide +kernel⟩,
   ⟨rs, 0xFFFC, by decide +kernel⟩,
   ⟨rs, 0x103, 0, by decide +kernel⟩,
   ⟨dt { d0 with power := { d0.power with por := true } }, by decide +kernel⟩⟩

theorem test_witness_SlotBoundaryAppliesWaitingChanges :
    (∃ (s : State), s.dtu.runs = true ∧ s.dtu.link.rst = false ∧ s.dtu.link.helloWait = false ∧ s.dtu.power.softDue = false ∧ s.dtu.power.lullReq = 0
      ∧ s.dtu.cmds.loop = none ∧ s.dtu.mayReach s.dtu.time.nextSlot = true) ∧
    (∃ (s : State), s.dtu.power.por = false ∧ s.dtu.power.softDue = true ∧ s.dtu.power.lullReq = 0) :=
  ⟨⟨dt ticking, by decide +kernel⟩,
   ⟨dt { up with power := { up.power with softDue := true } }, by decide +kernel⟩⟩

theorem test_witness_ResetsKeepAndClear :
    (∃ (s : State), s.dtu.power.por = false) ∧
    (∃ (s : State), s.dtu.power.rst = false) ∧
    (∃ (s : State), s.dtu.power.por = true) ∧
    (∃ (s : State), s.dtu.power.rst = true) ∧
    (∃ (s : State), s.dtu.link.rst = true) ∧
    (∃ (s : State), s.dtu.link.rst = false) :=
  ⟨⟨both, by decide +kernel⟩,
   ⟨both, by decide +kernel⟩,
   ⟨dt { d0 with power := { d0.power with por := true } }, by decide +kernel⟩,
   ⟨dt { d0 with power := { d0.power with rst := true } }, by decide +kernel⟩,
   ⟨dt { d0 with link := { d0.link with rst := true } }, by decide +kernel⟩,
   ⟨both, by decide +kernel⟩⟩

theorem test_witness_LullStatesAreEnteredAndLeft :
    (∃ (s : State) (x : PowerPins), x.req ≠ 0 ∧ x.req.toNat ≠ s.dtu.power.lull ∧ s.dtu.health.driving = none ∧ s.dtu.health.acked = false ∧
      (s.dtu.trace.capturing = false ∨ s.dtu.trace.stopped = false) ∧ s.dtu.trace.waits = []) ∧
    (∃ (s : State) (x : PowerPins), x.req ≠ 0 ∧ x.req.toNat ≠ s.dtu.power.lull ∧ s.dtu.trace.capturing = true ∧ s.dtu.trace.stopped = true ∧
      s.dtu.power.lullAsked = false) ∧
    (∃ (s : State), s.dtu.health.driving.isSome = true) ∧
    (∃ (s : State), s.dtu.power.lull ≠ 0 ∧ s.dtu.power.lullReq = 0 ∧ s.dtu.power.pgCore = true ∧ (s.dtu.power.pgRet = true ∨ s.dtu.power.lull ≠ 3)) ∧
    (∃ (s : State), (s.dtu.power.lull = 0 ∨ s.dtu.power.pgCore = false ∨ (s.dtu.power.pgRet = false ∧ s.dtu.power.lull = 3))) :=
  ⟨⟨rs, { req := 3, core := true, ret := true }, by decide +kernel⟩,
   ⟨dt { up with trace := { d0.trace with capturing := true, starved := true } }, { req := 1, core := true, ret := true }, by decide +kernel⟩,
   ⟨dt driving, by decide +kernel⟩,
   ⟨dt { up with power := { up.power with lull := 3 } }, by decide +kernel⟩,
   ⟨dt { up with power := { up.power with lull := 3, pgRet := false } }, by decide +kernel⟩⟩

theorem test_witness_HealthAndMarginAreHandled :
    (∃ (s : State), s.dtu.runs = true) ∧
    (∃ (s : State), s.dtu.runs = false) ∧
    (∃ (s : State) (r : MarginReq), s.dtu.health.driving = some r ∧ s.dtu.health.acked = false) ∧
    (∃ (s : State), s.dtu.health.driving = none ∧ s.dtu.health.waiting = []) ∧
    (∃ (s : State), s.dtu.health.driving = none ∧ s.dtu.health.waiting ≠ []) ∧
    (∃ (s : State) (r : MarginReq), s.dtu.health.driving = some r ∧ s.dtu.health.acked = false ∧ s.dtu.health.stalled = false) ∧
    (∃ (w : W), marginCfgStatus w = stOk) ∧
    (∃ (w : W), marginCfgStatus w ≠ stOk) :=
  ⟨⟨rs, by decide +kernel⟩,
   ⟨dt { d0 with power := { d0.power with lull := 1 } }, by decide +kernel⟩,
   ⟨dt driving, { code := 1, commanded := false, handles := [] }, by decide +kernel⟩,
   ⟨rs, by decide +kernel⟩,
   ⟨dt { d0 with health := { d0.health with waiting := [{ code := 2, commanded := true, handles := [1] }, { code := 3, commanded := false, handles := [] }] } },
     by decide +kernel⟩,
   ⟨dt driving, { code := 1, commanded := false, handles := [] }, by decide +kernel⟩,
   ⟨0x00100000, by decide +kernel⟩,
   ⟨0xFFFFFFFF, by decide +kernel⟩⟩

theorem test_witness_HostFaultsAreQueuedOrMerged :
    (∃ (s : State) (m : BitVec 128), s.dtu.faultRdy = true ∧ (∀ x ∈ s.dtu.faults.port, x.message ≠ m)) ∧
    (∃ (s : State) (m : BitVec 128) (a : List FaultMsg) (b : List FaultMsg) (x : FaultMsg), s.dtu.faults.port = a ++ x :: b ∧ x.message = m ∧ (∀ y ∈
      a, y.message ≠ m) ∧ s.dtu.faultRdy = true) ∧
    (∃ (s : State), (32 ≤ s.dtu.faults.port.length ∨ 2 ≤ s.dtu.power.lull ∨ s.dtu.coreReset = true)) :=
  ⟨⟨dt { d0 with faults := { d0.faults with port := (List.range 31).map (fun i => msgOf (BitVec.ofNat 128 i)) } }, 31, by decide +kernel⟩,
   ⟨dt { d0 with faults := { d0.faults with port := [msgOf 1, { msgOf 2 with repeats := 255 }, msgOf 3] } }, 2, [msgOf 1], [msgOf 3], { msgOf 2 with repeats := 255 },
     by decide +kernel⟩,
   ⟨dt { d0 with faults := { d0.faults with port := (List.range 32).map (fun i => msgOf (BitVec.ofNat 128 i)) } }, by decide +kernel⟩⟩

theorem test_witness_RecordsLeaveInOrder :
    (∃ (s : State) (m : FaultMsg) (own : Bool), s.dtu.oldestFault = some (m, own) ∧ s.dtu.mayReport = true ∧ s.dtu.canSend 5 0x04 32 = true) ∧
    (∃ (s : State), s.dtu.digests.records ≠ [] ∧ s.dtu.oldestFault = none ∧ s.dtu.link.vc2 = [] ∧ s.dtu.mayReport = true ∧ s.dtu.canSend 5 0x02 (32 *
      (s.dtu.digests.records.take 16).length) = true) ∧
    (∃ (s : State), s.dtu.link.admitted = false) ∧
    (∃ (s : State), (s.dtu.oldestFault.isSome = true ∨ s.dtu.link.vc2 ≠ [])) ∧
    (∃ (w : W), ulRateStatus w = stOk) ∧
    (∃ (w : W), ulRateStatus w ≠ stOk) ∧
    (∃ (s : State) (t : TxFrame) (r : List TxFrame), s.dtu.link.vc3 = t :: r ∧ s.dtu.canSend t.cls t.msg t.plen = true) ∧
    (∃ (s : State) (t : TxFrame) (r : List TxFrame), s.dtu.link.vc3 = [] ∧ s.dtu.link.vc0 = t :: r ∧ s.dtu.canSend t.cls t.msg t.plen = true) :=
  ⟨⟨dt { up with faults := { up.faults with port := [msgOf 1], own := [msgOf 2] } }, msgOf 2, true, by decide +kernel⟩,
   ⟨dt { up with digests := { up.digests with records := List.replicate 17 (List.replicate 8 0) } }, by decide +kernel⟩,
   ⟨rs, by decide +kernel⟩,
   ⟨dt { up with faults := { up.faults with port := [msgOf 1] } }, by decide +kernel⟩,
   ⟨0x000A0040, by decide +kernel⟩,
   ⟨0, by decide +kernel⟩,
   ⟨dt { up with link := { up.link with vc3 := [mkTx 6 2 0 0xFFFF 0 32 (List.replicate 8 0)], vc0 := [mkTx 0 3 0 0xFFFF 0 40 (List.replicate 10 0)] } },
     mkTx 6 2 0 0xFFFF 0 32 (List.replicate 8 0), [], by decide +kernel⟩,
   ⟨dt { up with link := { up.link with vc0 := [mkTx 0 3 0 0xFFFF 0 40 (List.replicate 10 0)] } }, mkTx 0 3 0 0xFFFF 0 40 (List.replicate 10 0), [],
     by decide +kernel⟩⟩

theorem test_witness_DigestsComeFromTheirLeaves :
    (∃ (s : State) (c : Fin 4) (half : List (BitVec 16)), bits s.dtu.digests.chanEn c.val c.val = 1 ∧ s.dtu.cells.held.contains
      (s.dtu.build.tapDomain (16 * c.val)) = false ∧ s.dtu.runs = true ∧ aGet s.dtu.digests.openLeaves c.val = none ∧ s.dtu.headerSound (leafHeader
      half) = true) ∧
    (∃ (s : State) (c : Fin 4) (l : OpenLeaf), bits s.dtu.digests.chanEn c.val c.val = 1 ∧ s.dtu.cells.held.contains (s.dtu.build.tapDomain (16 *
      c.val)) = false ∧ s.dtu.runs = true ∧ aGet s.dtu.digests.openLeaves c.val = some l ∧ l.taken + 32 < l.hdr.len) ∧
    (∃ (s : State) (c : Fin 4) (valid : BitVec 16) (l : OpenLeaf), bits s.dtu.digests.chanEn c.val c.val = 1 ∧ s.dtu.cells.held.contains
      (s.dtu.build.tapDomain (16 * c.val)) = false ∧ s.dtu.runs = true ∧ aGet s.dtu.digests.openLeaves c.val = some l ∧ valid ≠ 0 ∧ valid ≠ 0xFFFF) ∧
    (∃ (s : State) (slot : Fin 8) (v : BitVec 16) (block : BitVec 22) (b : PendingBlock), s.dtu.digests.pendingBlocks.find? (sameBlock slot.val
      v.toNat block.toNat) = some b ∧ b.begun + fld (regGet digReset s.dtu.digests.cfg 0x21000) 15 8 < s.dtu.time.begun ∧
      s.dtu.digests.records.length < 256) ∧
    (∃ (s : State) (slot : Fin 8) (v : BitVec 16) (block : BitVec 22), s.dtu.digests.pendingBlocks.find? (sameBlock slot.val v.toNat block.toNat) =
      none) :=
  ⟨⟨digesting, 3, [1, 0x2400, 0, 0, 1, 0, 0, 0, 0, 0, 0, 0, 0, 0, 0, 0], by decide +kernel⟩,
   ⟨dt { digesting.dtu with digests := { digesting.dtu.digests with openLeaves := [(3, { leaf1 with taken := 32 })] } }, 3, { leaf1 with taken := 32 },
     by decide +kernel⟩,
   ⟨dt { digesting.dtu with digests := { digesting.dtu.digests with openLeaves := [(3, leaf1)], pendingBlocks := [block1] } }, 3, 0x7FFF, leaf1, by decide +kernel⟩,
   ⟨dt { up with time := { clock with begun := 18 }, digests := { d0.digests with pendingBlocks := [block1], records := List.replicate 255 [] } }, 1,
     1, 7, block1, by decide +kernel⟩,
   ⟨rs, 1, 1, 7, by decide +kernel⟩⟩

theorem test_witness_TraceRecordsAreCapturedAndClosed :
    (∃ (s : State), s.dtu.trace.enabled = false ∧ s.dtu.trcCfgStatus (setFld (regGet trcReset s.dtu.trace.cfg 0x20000) 31 31 1) = stOk ∧
      s.dtu.trace.restored = false ∧ s.dtu.trace.ending = false) ∧
    (∃ (s : State), s.dtu.trace.enabled = false ∧ s.dtu.trcCfgStatus (setFld (regGet trcReset s.dtu.trace.cfg 0x20000) 31 31 1) = stOk ∧
      s.dtu.trace.restored = false ∧ s.dtu.trace.ending = true) ∧
    (∃ (s : State), s.dtu.trace.enabled = false ∧ s.dtu.trcCfgStatus (setFld (regGet trcReset s.dtu.trace.cfg 0x20000) 31 31 1) = stOk ∧
      s.dtu.trace.restored = true) ∧
    (∃ (s : State), s.dtu.trace.enabled = true ∧ s.dtu.trcCfgStatus (setFld (regGet trcReset s.dtu.trace.cfg 0x20000) 31 31 0) = stOk) ∧
    (∃ (s : State) (o : TraceOffer), s.dtu.trace.capturing = true ∧ s.dtu.runs = true ∧ s.dtu.trace.frozen = false ∧ s.dtu.trace.class0 = [] ∧
      s.dtu.trace.host = some o ∧ s.dtu.trace.dueCells = [] ∧ s.dtu.trace.dueTaps = [] ∧ s.dtu.trace.lossDue = false ∧ s.dtu.trace.hasRoom = true ∧
      s.dtu.trace.floor 1 ≤ s.dtu.trace.rawFree) ∧
    (∃ (s : State) (o : TraceOffer), s.dtu.trace.capturing = true ∧ s.dtu.runs = true ∧ s.dtu.trace.frozen = false ∧ s.dtu.trace.class0 = [] ∧
      s.dtu.trace.host = some o ∧ s.dtu.trace.dueCells = [] ∧ s.dtu.trace.dueTaps = [] ∧ s.dtu.trace.admits 1 = false) ∧
    (∃ (s : State) (c : Nat), s.dtu.runs = true ∧ s.dtu.trace.starved = false ∧ s.dtu.trace.fullStop = false ∧ s.dtu.ownCause = some c ∧
      s.dtu.trace.waits = []) ∧
    (∃ (s : State), s.dtu.trace.capturing = false ∧ s.dtu.trace.raw = []) :=
  ⟨⟨rs, by decide +kernel⟩,
   ⟨dt { up with trace := { d0.trace with waits := [{ cause := 4, handle := none, upTo := 0 }], stream := 3, seq := 9 } }, by decide +kernel⟩,
   ⟨dt { up with trace := { d0.trace with restored := true, stream := 3, seq := 9 } }, by decide +kernel⟩,
   ⟨dt { up with trace := { d0.trace with cfg := [(0x20000, 0xD8104010)], capturing := true } }, by decide +kernel⟩,
   ⟨dt { up with trace := { d0.trace with cfg := [(0x20000, 0xD8104010)], capturing := true, host := some { rtype := 3, aux := 1, payload := 2, ns := none } } },
     { rtype := 3, aux := 1, payload := 2, ns := none }, by decide +kernel⟩,
   ⟨dt { up with trace := { d0.trace with cfg := [(0x20000, 0xD8104010)], capturing := true, rawWritten := 65600, host := some { rtype := 3, aux := 1, payload := 2, ns := none } } },
     { rtype := 3, aux := 1, payload := 2, ns := none }, by decide +kernel⟩,
   ⟨dt { up with trace := { d0.trace with openRecs := [[0, 0, 0, 0]], force := [(0x20000, 0x18104010)] } }, 2, by decide +kernel⟩,
   ⟨rs, by decide +kernel⟩⟩

theorem test_witness_CompressorStopsAndResumes :
    (∃ (s : State), s.dtu.trace.starved = true ∧ s.dtu.trace.fullStop = false) ∧
    (∃ (s : State), s.dtu.trace.starved = false) ∧
    (∃ (s : State), s.dtu.trace.fullStop = true ∧ s.dtu.trace.resumeTokens ≤ s.dtu.trace.blockFree ∧ s.dtu.trace.waits = []) ∧
    (∃ (s : State), s.dtu.trace.blockFree < s.dtu.trace.resumeTokens) ∧
    (∃ (s : State) (b : TraceBlock) (r : List TraceBlock), s.dtu.trace.blocks = b :: r ∧ s.dtu.mayReport = true ∧ s.dtu.canSend 5 0x01 (32 +
      b.payload.length) = true) ∧
    (∃ (s : State) (b : TraceBlock), s.dtu.trace.sending = some b ∧ s.dtu.trace.blocks = []) :=
  ⟨⟨dt { up with trace := { d0.trace with starved := true } }, by decide +kernel⟩,
   ⟨rs, by decide +kernel⟩,
   ⟨dt { up with trace := { d0.trace with fullStop := true, starved := true, stopAt := 5 } }, by decide +kernel⟩,
   ⟨dt { up with trace := { d0.trace with force := [(0x20000, 0x581040FF), (0x20020, 0x20000FDF)] } }, by decide +kernel⟩,
   ⟨dt { up with trace := { d0.trace with blocks := [blk, blk] } }, blk, [blk], by decide +kernel⟩,
   ⟨dt { up with trace := { d0.trace with sending := some blk } }, blk, by decide +kernel⟩⟩

theorem test_witness_UplinkIntakeIsChecked :
    (∃ (s : State) (vc : Fin 4) (lim : Nat), s.dtu.portOn = true ∧ s.dtu.link.beatLimit.getD vc.val none = some lim ∧ s.dtu.link.beatHeld.getD vc.val
      0 < lim) ∧
    (∃ (s : State) (vc : Fin 4), s.dtu.portOn = true ∧ s.dtu.link.beatLimit.getD vc.val none = none) ∧
    (∃ (s : State) (vc : Fin 4) (lim : Nat), s.dtu.portOn = true ∧ s.dtu.link.beatLimit.getD vc.val none = some lim ∧ lim ≤ s.dtu.link.beatHeld.getD
      vc.val 0) ∧
    (∃ (s : State) (vc : Fin 4), s.dtu.portOn = true ∧ 2 ≤ s.dtu.link.slotsUp ∧ s.dtu.link.beatSum.getD vc.val 0 < beatMin vc.val ∧
      s.dtu.link.ledgerSaid.getD vc.val false = false) ∧
    (∃ (s : State) (vc : Fin 4), beatMin vc.val ≤ s.dtu.link.beatSum.getD vc.val 0) ∧
    (∃ (s : State) (x : RxDefect), s.dtu.portOn = true ∧ (x = .tooLong ∨ x = .shortBeat ∨ x = .pathError)) ∧
    (∃ (s : State) (vc : Fin 4) (f : Frame) (x : RxDefect), s.dtu.portOn = true ∧ (x = .noCredit ∨ x = .none ∧ s.dtu.link.rxGranted.getD vc.val 0 <
      beatsOf f.plen.toNat)) ∧
    (∃ (s : State) (vc : Fin 4) (f : Frame) (x : RxDefect), s.dtu.portOn = true ∧ (x = .noCredit ∨ x = .none ∧ s.dtu.link.rxGranted.getD vc.val 0 <
      beatsOf f.plen.toNat)) ∧
    (∃ (s : State) (vc : Fin 4) (f : Frame), s.dtu.portOn = true ∧ beatsOf f.plen.toNat ≤ s.dtu.link.rxGranted.getD vc.val 0 ∧ rxLimit vc.val < 32 +
      f.plen.toNat) ∧
    (∃ (s : State) (vc : Fin 4) (f : Frame), beatsOf f.plen.toNat ≤ s.dtu.link.rxGranted.getD vc.val 0 ∧ 32 + f.plen.toNat ≤ rxLimit vc.val ∧
      s.dtu.takes f) ∧
    (∃ (s : State) (vc : Fin 4) (f : Frame), beatsOf f.plen.toNat ≤ s.dtu.link.rxGranted.getD vc.val 0 ∧ 32 + f.plen.toNat ≤ rxLimit vc.val ∧
      s.dtu.takes f) ∧
    (∃ (s : State), s.dtu.portOn = false) :=
  ⟨⟨dt { up with link := { up.link with beatLimit := [some 8, none, none, none], beatHeld := [7, 0, 0, 0] } }, 0, 8, by decide +kernel⟩,
   ⟨rs, 3, by decide +kernel⟩,
   ⟨dt { up with link := { up.link with beatLimit := [some 8, none, none, none], beatHeld := [8, 0, 0, 0] } }, 0, 8, by decide +kernel⟩,
   ⟨dt { up with link := { up.link with slotsUp := 2, beatSum := [31, 0, 0, 0] } }, 0, by decide +kernel⟩,
   ⟨dt { up with link := { up.link with slotsUp := 2, beatSum := [32, 0, 0, 0] } }, 0, by decide +kernel⟩,
   ⟨rs, .pathError, by decide +kernel⟩,
   ⟨rs, 0, toDtu up 0 1 [], .noCredit, by decide +kernel⟩,
   ⟨dt { up with link := { up.link with rxGranted := [1, 0, 0, 0] } }, 0, toDtu up 0 1 [0], .none, by decide +kernel⟩,
   ⟨dt up, 3, { toDtu up 4 1 [] with plen := 97 }, by decide +kernel⟩,
   ⟨dt up, 0, toDtu up 0 1 [], by decide +kernel⟩,
   ⟨dt up, 0, toDtu up 0 1 [], by decide +kernel⟩,
   ⟨dt { up with link := { up.link with rst := true } }, by decide +kernel⟩⟩

theorem test_witness_DtuIsAdmittedByAdmit :
    (∃ (s : State), s.dtu.host.sealed = true ∧ s.dtu.host.refused = false ∧ s.dtu.link.helloWait = false ∧ 32 ≤ s.dtu.link.beatSum.getD 0 0 ∧
      s.dtu.canSend 0 1 48 = true ∧ s.dtu.link.linkState = 1) ∧
    (∃ (s : State) (f : Frame), s.dtu.takes f ∧ (s.dtu.taken f).admitSound f = true ∧ wf f.body 0 31 24 = 0) ∧
    (∃ (s : State) (f : Frame), s.dtu.takes f ∧ (s.dtu.taken f).admitSound f = true ∧ wf f.body 0 31 24 = 1 ∧ wf f.body 0 23 16 = 6) ∧
    (∃ (s : State) (f : Frame), s.dtu.takes f ∧ (s.dtu.taken f).admitSound f = true ∧ wf f.body 0 31 24 = 1 ∧ wf f.body 0 23 16 = 5) ∧
    (∃ (s : State), s.dtu.host.refused = true ∧ s.dtu.portOn = true ∧ s.dtu.link.linkState = 1) ∧
    (∃ (s : State) (f : Frame), s.dtu.takes f ∧ (s.dtu.taken f).admitSound f = true ∧ wf f.body 0 31 24 = 1 ∧ wf f.body 0 23 16 < 5) :=
  ⟨⟨dt { up with link := { up.link with linkState := 1, admitted := false } }, by decide +kernel⟩,
   ⟨waiting, toDtu waiting.dtu 0 2 [0x00003200, 0x000188B5, 0x0001FA00, 0x00400000, 0, 0, 0, 0], by decide +kernel⟩,
   ⟨waiting, toDtu waiting.dtu 0 2 [0x01060000, 0, 0, 0, 0, 0, 0, 0], by decide +kernel⟩,
   ⟨waiting, toDtu waiting.dtu 0 2 [0x01050000, 0, 0, 0, 0, 0, 0, 0], by decide +kernel⟩,
   ⟨dt { up with host := { up.host with refused := true }, link := { up.link with linkState := 1 } }, by decide +kernel⟩,
   ⟨waiting, toDtu waiting.dtu 0 2 [0x01040000, 0, 0, 0, 0, 0, 0, 0], by decide +kernel⟩⟩

theorem test_witness_DtuLinkMessagesTakeEffect :
    (∃ (s : State) (f : Frame), s.dtu.takes f ∧ f.plen.toNat = 48) ∧
    (∃ (s : State) (f : Frame), s.dtu.takes f ∧ f.plen.toNat = 40) ∧
    (∃ (s : State), s.dtu.link.vc0 = [] ∧ s.dtu.canSend 0 3 40 = true) ∧
    (∃ (s : State) (f : Frame), s.dtu.takes f ∧ 8 ≤ f.plen.toNat) ∧
    (∃ (s : State) (f : Frame), s.dtu.takes f ∧ 8 ≤ f.plen.toNat ∧ (s.dtu.link.echoes.any (fun x => x.1 == word f.body 0) = true) ∧ s.dtu.cmds.loop =
      none ∧ s.dtu.link.rtt.length < 64) ∧
    (∃ (s : State) (f : Frame), s.dtu.takes f ∧ f.plen.toNat = 4) :=
  ⟨⟨dt up, toDtu up 0 1 [0, 0x32201400, 0, 0, 0, 0, 0, 0, 0, 0, 0, 0], by decide +kernel⟩,
   ⟨dt up, toDtu up 0 3 [0x04000000, 1, 2, 3, 4, 0, 0, 0, 0, 0], by decide +kernel⟩,
   ⟨dt { up with link := { up.link with pools := List.replicate 4 { richPool with owed := [(0, 3)] } } }, by decide +kernel⟩,
   ⟨dt up, toDtu up 0 4 [5, 0], by decide +kernel⟩,
   ⟨dt { up with link := { up.link with echoes := [(5, 0)], rtt := List.replicate 63 1 } }, toDtu up 0 5 [5, 2], by decide +kernel⟩,
   ⟨dt up, toDtu up 0 6 [1], by decide +kernel⟩⟩

theorem test_witness_DtuFrostRuns :
    (∃ (s : State) (f : Frame), s.dtu.takesFrost f ∧ s.dtu.frost.state = 0 ∧ s.dtu.nowNs < dword f.body 2) ∧
    (∃ (s : State) (f : Frame), s.dtu.takesFrost f ∧ s.dtu.frost.frostId = word f.body 0 ∧ s.dtu.frost.state = 1) ∧
    (∃ (s : State), s.dtu.frost.state = 1 ∧ s.dtu.mayReach s.dtu.frost.t = true ∧ s.dtu.runs = true ∧ s.dtu.nowNs ≤ s.dtu.frost.t) ∧
    (∃ (s : State) (f : Frame), s.dtu.takesFrost f ∧ s.dtu.frost.seen.contains (word f.body 0) = false ∧ s.dtu.frost.state ≠ 2 ∧ s.dtu.runs = true) ∧
    (∃ (s : State) (f : Frame), s.dtu.takesFrost f ∧ s.dtu.frost.seen.contains (word f.body 0) = true) ∧
    (∃ (s : State) (f : Frame), s.dtu.takesFrost f ∧ s.dtu.frost.frostId = word f.body 0 ∧ s.dtu.frost.state = 2 ∧ dword f.body 2 ≤ s.dtu.nowNs) ∧
    (∃ (s : State) (t : Nat), s.dtu.frost.thawAt = some t ∧ s.dtu.frost.state = 2 ∧ s.dtu.mayReach t = true) ∧
    (∃ (s : State) (e : Nat), s.dtu.frost.windowEnd = some e ∧ s.dtu.mayReach e = true) :=
  ⟨⟨dt up, frost up 1 9 1 11534332, by constructor <;> decide +kernel, by decide +kernel⟩,
   ⟨dt { up with frost := { DtuFrost.initial with state := 1, frostId := 9 } }, frost up 2 9 0 0, by constructor <;> decide +kernel, by decide +kernel⟩,
   ⟨dt { up with frost := { DtuFrost.initial with state := 1, frostId := 9, t := 11 * 2 ^ 20 } }, by decide +kernel⟩,
   ⟨dt up, frost up 3 9 1 0, by constructor <;> decide +kernel, by decide +kernel⟩,
   ⟨dt { up with frost := { DtuFrost.initial with seen := [9] } }, frost up 3 9 1 0, by constructor <;> decide +kernel, by decide +kernel⟩,
   ⟨dt { up with frost := { DtuFrost.initial with state := 2, frostId := 9 } }, frost up 4 9 0 11534331, by constructor <;> decide +kernel, by decide +kernel⟩,
   ⟨dt { up with frost := { DtuFrost.initial with state := 2, thawAt := some (11 * 2 ^ 20) } }, 11 * 2 ^ 20, by decide +kernel⟩,
   ⟨dt { up with frost := { DtuFrost.initial with state := 2, windowEnd := some (11 * 2 ^ 20) } }, 11 * 2 ^ 20, by decide +kernel⟩⟩

theorem test_witness_DtuScansOutAndHails :
    (∃ (s : State) (f : Frame), s.dtu.takesFrost f) ∧
    (∃ (s : State) (n : Nat), s.dtu.hailDue = some n ∧ s.dtu.mayReport = true ∧ s.dtu.time.state = .locked ∧ s.dtu.runs = true ∧ s.dtu.injections =
      [] ∧ s.dtu.link.vc0 = [] ∧ s.dtu.canSend 1 3 32 = true) ∧
    (∃ (s : State), s.dtu.hailDue = none) :=
  ⟨⟨dt up, frost up 6 9 0 0, by constructor <;> decide +kernel⟩,
   ⟨dt { up with hailDue := some 10 }, 10, by decide +kernel⟩,
   ⟨dt up, by decide +kernel⟩⟩

theorem test_witness_ParametersWaitForTheTick :
    (∃ (s : State) (f : Frame) (e : SlotEntry), s.dtu.takes f ∧ e = (s.dtu.taken f).fixSlot (wf f.body 0 23 21) ((s.dtu.taken f).cells.slots.getD (wf
      f.body 0 23 21) .initial).force ∧ e.valid = true ∧ e.ctx.toNat = wf f.body 0 15 0 ∧ e.gen.toNat = wf f.body 1 31 24 ∧ word f.body 7 = paramCrc
      f.body f.plen.toNat ∧ paramSound f.body f.plen.toNat = true ∧ wf f.body 0 27 24 = 2) ∧
    (∃ (s : State) (f : Frame) (e : SlotEntry), s.dtu.takes f ∧ e = (s.dtu.taken f).fixSlot (wf f.body 0 23 21) ((s.dtu.taken f).cells.slots.getD (wf
      f.body 0 23 21) .initial).force ∧ e.valid = true ∧ e.ctx.toNat = wf f.body 0 15 0 ∧ e.gen.toNat = wf f.body 1 31 24 ∧ word f.body 7 = paramCrc
      f.body f.plen.toNat ∧ paramSound f.body f.plen.toNat = true ∧ wf f.body 0 27 24 = 3) ∧
    (∃ (s : State) (f : Frame) (e : SlotEntry), s.dtu.takes f ∧ e = (s.dtu.taken f).fixSlot (wf f.body 0 23 21) ((s.dtu.taken f).cells.slots.getD (wf
      f.body 0 23 21) .initial).force ∧ e.valid = true ∧ e.ctx.toNat = wf f.body 0 15 0 ∧ e.gen.toNat = wf f.body 1 31 24 ∧ word f.body 7 = paramCrc
      f.body f.plen.toNat ∧ paramSound f.body f.plen.toNat = true ∧ wf f.body 0 27 24 = 0 ∧ ((aGetD s.dtu.cells.bands (wf f.body 0 23 21)
      .initial).takePart (extendFrame s.dtu.frameNow (wf f.body 2 31 0)) (wf f.body 1 23 16) (bandEntries f.body (wf f.body 4 31 16) (wf f.body 4 15
      0))).isSome = true) ∧
    (∃ (s : State) (f : Frame), s.dtu.takes f ∧ word f.body 7 ≠ paramCrc f.body f.plen.toNat) :=
  ⟨⟨dt resident, param 2 (List.replicate 4 0) 0, slot1, by decide +kernel⟩,
   ⟨dt resident, param 3 (List.replicate 4 0) 1, slot1, by decide +kernel⟩,
   ⟨dt resident, param 0 (List.replicate 32 0) 8, slot1, by decide +kernel⟩,
   ⟨dt resident, { param 2 (List.replicate 4 0) 0 with body := List.replicate 12 1 }, by decide +kernel⟩⟩

theorem test_witness_DtuAnswersReadings :
    (∃ (s : State) (h : HuskCmd) (d : Dtu), s.dtu.accepts .ident h ∧ d = s.dtu.taken (s.dtu.huskFrame .ident h)) ∧
    (∃ (s : State) (h : HuskCmd) (d : Dtu), s.dtu.accepts .status h ∧ d = s.dtu.taken (s.dtu.huskFrame .status h)) ∧
    (∃ (s : State) (h : HuskCmd) (d : Dtu), s.dtu.accepts .regRead h ∧ d = s.dtu.taken (s.dtu.huskFrame .regRead h) ∧ d.regTest h false = none ∧ fld
      h.w6 31 28 = 1) ∧
    (∃ (s : State) (h : HuskCmd) (d : Dtu), s.dtu.accepts .regRead h ∧ d = s.dtu.taken (s.dtu.huskFrame .regRead h) ∧ d.regTest h false = none ∧ fld
      h.w6 31 28 = 0) ∧
    (∃ (s : State) (h : HuskCmd) (d : Dtu), s.dtu.accepts .cellSample h ∧ d = s.dtu.taken (s.dtu.huskFrame .cellSample h) ∧ 1 ≤ huskP0 h ∧ huskP0 h ≤
      64 ∧ (∀ i, i < huskP0 h → wf (huskPay h) (i / 2) (if i % 2 = 0 then 31 else 15) (if i % 2 = 0 then 16 else 0) < 64 * d.build.nClusters)) ∧
    (∃ (s : State) (h : HuskCmd) (d : Dtu), s.dtu.accepts .frostQuery h ∧ d = s.dtu.taken (s.dtu.huskFrame .frostQuery h)) :=
  ⟨⟨dt up, hd .ident 0 0, _, by constructor <;> decide +kernel, rfl⟩,
   ⟨dt up, hd .status 0xFF 1, _, by constructor <;> decide +kernel, rfl⟩,
   ⟨dt up, hd .regRead 0x10000 0x10000080, _, by constructor <;> decide +kernel, rfl, (by decide +kernel)⟩,
   ⟨dt up, hd .regRead 0x100 8, _, by constructor <;> decide +kernel, rfl, (by decide +kernel)⟩,
   ⟨dt up, hd .cellSample 64 0 (List.replicate 31 0 ++ [0x00000FFF]), _, by constructor <;> decide +kernel, rfl, (by decide +kernel)⟩,
   ⟨dt up, hd .frostQuery 0 0, _, by constructor <;> decide +kernel, rfl⟩⟩

theorem test_witness_DtuExecutesShortHusks :
    (∃ (s : State) (h : HuskCmd) (d : Dtu) (d' : Dtu), s.dtu.accepts .regWrite h ∧ d = s.dtu.taken (s.dtu.huskFrame .regWrite h) ∧ d.regTest h true =
      none ∧ (d.cmdWrites ((List.range (regAddrs h).length).map (fun i => (i, (regAddrs h).getD i 0, word (huskPay h) i))) = (d', none))) ∧
    (∃ (s : State) (h : HuskCmd) (d : Dtu) (d' : Dtu) (st : Nat) (i : Nat), s.dtu.accepts .regWrite h ∧ d = s.dtu.taken (s.dtu.huskFrame .regWrite h)
      ∧ d.regTest h true = none ∧ (d.cmdWrites ((List.range (regAddrs h).length).map (fun i => (i, (regAddrs h).getD i 0, word (huskPay h) i))) =
      (d', some (st, i)))) ∧
    (∃ (s : State) (h : HuskCmd) (d : Dtu), s.dtu.accepts .softReset h ∧ d = s.dtu.taken (s.dtu.huskFrame .softReset h)) ∧
    (∃ (s : State) (h : HuskCmd) (d : Dtu), s.dtu.accepts .frameReset h ∧ d = s.dtu.taken (s.dtu.huskFrame .frameReset h)) ∧
    (∃ (s : State) (h : HuskCmd), s.dtu.accepts .linkResetCmd h) ∧
    (∃ (s : State) (h : HuskCmd) (d : Dtu), s.dtu.accepts .timeResync h ∧ d = s.dtu.taken (s.dtu.huskFrame .timeResync h) ∧ (∀ k, 1 ≤ k → k < 8 →
      (d.cells.slots.getD k .initial).force.valid = false)) ∧
    (∃ (s : State) (h : HuskCmd) (d : Dtu), s.dtu.accepts .faultInject h ∧ d = s.dtu.taken (s.dtu.huskFrame .faultInject h) ∧ fld h.w5 31 24 = 0x24) :=
  ⟨⟨dt up, hd .regWrite 0x10000 0x10000001 [0], _, (((dt up).dtu.taken ((dt up).dtu.huskFrame .regWrite (hd .regWrite 0x10000 0x10000001
     [0]))).cmdWrites ((List.range (regAddrs (hd .regWrite 0x10000 0x10000001 [0])).length).map (fun j => (j, (regAddrs (hd .regWrite 0x10000
     0x10000001 [0])).getD j 0, word (huskPay (hd .regWrite 0x10000 0x10000001 [0])) j)))).1, by constructor <;> decide +kernel, rfl, (by decide +kernel)⟩,
   ⟨dt up, hd .regWrite 0x10000 0x10000002 [0, 0xFFFFFFFF], _, (((dt up).dtu.taken ((dt up).dtu.huskFrame .regWrite (hd .regWrite 0x10000 0x10000002
     [0, 0xFFFFFFFF]))).cmdWrites ((List.range (regAddrs (hd .regWrite 0x10000 0x10000002 [0, 0xFFFFFFFF])).length).map (fun j => (j, (regAddrs (hd
     .regWrite 0x10000 0x10000002 [0, 0xFFFFFFFF])).getD j 0, word (huskPay (hd .regWrite 0x10000 0x10000002 [0, 0xFFFFFFFF])) j)))).1, 1, 1,
     by constructor <;> decide +kernel, rfl, (by decide +kernel)⟩,
   ⟨dt up, hd .softReset 0 0, _, by constructor <;> decide +kernel, rfl⟩,
   ⟨dt resident, hd .frameReset 0 0, _, by constructor <;> decide +kernel, rfl⟩,
   ⟨dt up, hd .linkResetCmd 0 0, by constructor <;> decide +kernel⟩,
   ⟨dt up, hd .timeResync 0 0, _, by constructor <;> decide +kernel, rfl, upTo 8 (by decide +kernel)⟩,
   ⟨dt { up with factory := true }, hd .faultInject 0x24000001 0, _, by constructor <;> decide +kernel, rfl, (by decide +kernel)⟩⟩

theorem test_witness_DtuStartsLongHusks :
    (∃ (s : State) (h : HuskCmd) (d : Dtu), s.dtu.accepts .margin h ∧ d = s.dtu.taken (s.dtu.huskFrame .margin h) ∧ (huskP0 h = 1 ∨ huskP0 h = 2) ∧
      d.cmds.longs.length < 16 ∧ d.health.driving = none ∧ d.health.waiting = [] ∧ d.health.acked = false) ∧
    (∃ (s : State) (h : HuskCmd) (d : Dtu), s.dtu.accepts .margin h ∧ d = s.dtu.taken (s.dtu.huskFrame .margin h) ∧ (huskP0 h = 1 ∨ huskP0 h = 2) ∧
      d.cmds.longs.length < 16 ∧ d.health.driving = none ∧ d.health.waiting = [] ∧ d.health.acked = false) ∧
    (∃ (s : State) (h : HuskCmd) (d : Dtu), s.dtu.accepts .retainReplay h ∧ d = s.dtu.taken (s.dtu.huskFrame .retainReplay h) ∧ d.cmds.longs.length <
      16 ∧ extendFrame d.frameNow (huskP0 h) ≤ extendFrame d.frameNow (huskP1 h)) ∧
    (∃ (s : State) (h : HuskCmd) (d : Dtu) (op : Opcode), (op = .traceFlush ∨ op = .traceSave) ∧ s.dtu.accepts op h ∧ d = s.dtu.taken
      (s.dtu.huskFrame op h) ∧ d.cmds.longs.length < 16) ∧
    (∃ (s : State) (h : HuskCmd) (d : Dtu) (op : Opcode), (op = .traceFlush ∨ op = .traceSave) ∧ s.dtu.accepts op h ∧ d = s.dtu.taken
      (s.dtu.huskFrame op h) ∧ d.cmds.longs.length < 16) ∧
    (∃ (s : State) (h : HuskCmd) (d : Dtu), s.dtu.accepts .traceRestore h ∧ d = s.dtu.taken (s.dtu.huskFrame .traceRestore h) ∧ d.cmds.longs.length <
      16 ∧ d.trace.enabled = false ∧ d.trace.image.sound = true) ∧
    (∃ (s : State) (h : HuskCmd) (d : Dtu), s.dtu.accepts .loopTest h ∧ d = s.dtu.taken (s.dtu.huskFrame .loopTest h) ∧ d.cmds.longs.length < 16 ∧
      d.cmds.loop = none ∧ huskP0 h = 4) ∧
    (∃ (s : State) (h : HuskCmd) (d : Dtu), s.dtu.accepts .margin h ∧ d = s.dtu.taken (s.dtu.huskFrame .margin h) ∧ 16 ≤ d.cmds.longs.length) :=
  ⟨⟨dt up, hd .margin 1 0 [] 5, _, by constructor <;> decide +kernel, rfl, (by decide +kernel)⟩,
   ⟨dt up, hd .margin 2 0 [] 5, _, by constructor <;> decide +kernel, rfl, (by decide +kernel)⟩,
   ⟨dt up, hd .retainReplay 3 3 [0xFFFFFFFF, 0xFFFFFFFF] 5, _, by constructor <;> decide +kernel, rfl, (by decide +kernel)⟩,
   ⟨dt up, hd .traceFlush 0 0 [] 5, _, .traceFlush, by decide +kernel, by constructor <;> decide +kernel, rfl, by decide +kernel⟩,
   ⟨dt up, hd .traceSave 0 0 [] 5, _, .traceSave, by decide +kernel, by constructor <;> decide +kernel, rfl, by decide +kernel⟩,
   ⟨imaged, hd .traceRestore 0 0 [] 5, _, by constructor <;> decide +kernel, rfl, (by decide +kernel), by decide +kernel, test_imaged_sound _ (by decide +kernel)⟩,
   ⟨dt up, hd .loopTest 4 0 [] 5, _, by constructor <;> decide +kernel, rfl, (by decide +kernel)⟩,
   ⟨dt { up with cmds := { up.cmds with longs := sixteen } }, hd .margin 1 0 [] 5, _, by constructor <;> decide +kernel, rfl, (by decide +kernel)⟩⟩

end Sys2Proof.Tests
end

