-- ==== Sys2Proof/Tests/Slice0.lean ====
section
/-!
SUPPORT. Tests: each check of well-formedness refuses an ill-formed command and takes a well-formed one; the table spells no
command; single steps give what the spec's tables and examples give.
-/
namespace Sys2Proof.Tests
open Sys2Proof Sys2Proof.Machine

set_option Elab.async false

/-! ### Well-formedness. -/

/-- A Husk of keomon with a payload of some words. -/
def keomonHusk (n : Nat) : HuskCmd := { hz .ident 0xFFFF 0 0 0 with payload := List.replicate n 0 }

theorem test_wf_husk_taken : wfInstr (.ident (keomonHusk 504)) = true := by decide +kernel
theorem test_wf_husk_too_long_for_keomon : wfInstr (.ident (keomonHusk 505)) = false := by decide +kernel
theorem test_wf_husk_too_long : wfInstr (.podPlan { hd .podPlan 0 0 with payload := List.replicate 2289 0 }) = false := by decide +kernel
theorem test_wf_husk_no_such_link :
    wfInstr (.ident { hd .ident 0 0 with req := { link := 82, addr := 0, keomon := false } }) = false := by decide +kernel
theorem test_wf_husk_no_keomon_at_dtu : wfInstr (.ident { keomonHusk 0 with side := .dtu }) = false := by decide +kernel

theorem test_wf_frame_taken : wfInstr (.param (toDtu up 4 1 [1, 2])) = true := by decide +kernel
theorem test_wf_frame_body_too_short : wfInstr (.param { toDtu up 4 1 [1, 2] with plen := 9 }) = false := by decide +kernel
theorem test_wf_frame_too_long :
    wfFrame { toDtu up 4 1 [] with plen := 9185, body := List.replicate 2297 0 } = false := by decide +kernel

theorem test_wf_record_taken : wfInstr (.relayedCompletion 7 (List.replicate 8 0)) = true := by decide
theorem test_wf_record_too_short : wfInstr (.relayedCompletion 7 (List.replicate 7 0)) = false := by decide
theorem test_wf_record_too_long : wfInstr (.relayedCompletion 7 (List.replicate 2297 0)) = false := by decide +kernel

theorem test_wf_errors_taken : wfErrors [(0, 1), (135, 255)] = true := by decide
theorem test_wf_errors_same_place : wfErrors [(5, 1), (5, 2)] = false := by decide
theorem test_wf_errors_no_error : wfErrors [(5, 0)] = false := by decide

theorem test_wf_beat_taken : wfInstr (.digestBeat 0 0xFFFF (List.replicate 16 0)) = true := by decide
theorem test_wf_beat_half : wfInstr (.digestBeat 0 0xFFFF (List.replicate 15 0)) = false := by decide

theorem test_wf_load_taken : wfInstr (.loadData 0 (List.replicate 4 0)) = true := by decide
theorem test_wf_load_too_long : wfInstr (.loadData 0 (List.replicate 1025 0)) = false := by decide +kernel

/-! ### Words of the table. -/

/-- The opcode table gives its rows no bits, so no word is a command. -/
theorem test_no_word_is_a_command : decodeTableWord 32 0 = none ∧ decodeTableWord 0 0 = none := by decide

end Sys2Proof.Tests
end

