-- ==== Sys2Proof/Tests/ZaWitnesses.lean ====
section
/-!
SUPPORT. Tests: the hypotheses of the obligations can be met, clause by clause; the second half of them.
-/
namespace Sys2Proof.Tests
open Sys2Proof Sys2Proof.Machine

set_option Elab.async false

theorem test_witness_ZaAnswersReadings :
    (∃ (s : State) (h : HuskCmd) (z : Za), s.za.accepts .ident h ∧ z = s.za.met .ident h) ∧
    (∃ (s : State) (h : HuskCmd) (z : Za), s.za.accepts .status h ∧ z = s.za.met .status h ∧ bit h.w6 0 = false) ∧
    (∃ (s : State) (h : HuskCmd) (z : Za), s.za.accepts .regRead h ∧ z = s.za.met .regRead h ∧ z.regTest h = none ∧ 0x2004 ∉ regAddrs h) ∧
    (∃ (s : State) (h : HuskCmd) (z : Za), s.za.accepts .regRead h ∧ z = s.za.met .regRead h ∧ z.regTest h = none ∧ 0x2004 ∈ regAddrs h) ∧
    (∃ (s : State), s.za.running = true) ∧
    (∃ (s : State) (h : HuskCmd) (z : Za) (x : Handle), s.za.accepts .handleQuery h ∧ z = s.za.met .handleQuery h ∧ z.cmds.retained = [] ∧ z.handle?
      (huskHandle h) = some x ∧ x.done = none ∧ x.parked = false ∧ z.isParked x = false) ∧
    (∃ (s : State) (h : HuskCmd) (z : Za) (o : SyncObj), s.za.accepts .syncRead h ∧ z = s.za.met .syncRead h ∧ huskP1 h = 1 ∧ z.ownObj h (huskP0 h) =
      some o) ∧
    (∃ (s : State) (h : HuskCmd) (z : Za) (e : Nat) (c : Ctx) (k : Kept), s.za.accepts .resultHistory h ∧ z = s.za.met .resultHistory h ∧ z.cmdCtx h
      = some (e, c) ∧ (z.kept.find? (fun x => x.entry == e && x.result.frame % 2 ^ 32 == huskP0 h && x.result.index == huskP1 h) = some k)) ∧
    (∃ (s : State) (h : HuskCmd) (z : Za), s.za.accepts .liveQuery h ∧ z = s.za.met .liveQuery h ∧ huskP0 h ≤ 255 ∧ 1 ≤ huskP1 h ∧ huskP0 h + huskP1
      h ≤ 256) ∧
    (∃ (s : State) (h : HuskCmd) (z : Za), s.za.accepts .faultLog h ∧ z = s.za.met .faultLog h ∧ 1 ≤ huskP1 h ∧ huskP1 h ≤ 32) ∧
    (∃ (s : State) (h : HuskCmd) (z : Za), s.za.accepts .frostQuery h ∧ z = s.za.met .frostQuery h) :=
  ⟨⟨both, hz .ident 0xFFFF 0 0 0, _, by constructor <;> first | exact test_crc .. | decide +kernel, rfl⟩,
   ⟨both, hz .status 0xFFFF 0 0xFFF 0, _, by constructor <;> first | exact test_crc .. | decide +kernel, rfl, (by decide +kernel)⟩,
   ⟨both, hz .regRead 0xFFFF 0 0x8008 2, _, by constructor <;> first | exact test_crc .. | decide +kernel, rfl, (by decide +kernel)⟩,
   ⟨zt { za with ecc := { za.ecc with corrected := 3 } }, hz .regRead 0xFFFF 0 0x2000 2, _,
     by constructor <;> first | exact test_crc .. | decide +kernel, rfl, (by decide +kernel)⟩,
   ⟨zt { za with ecc := { za.ecc with corrected := 3 } }, by decide +kernel⟩,
   ⟨zt { za with cmds := { za.cmds with handles := [hand 9 .syncWait (hz .syncWait 5 1 3 0 [0, 1])] } }, hz .handleQuery 0xFFFF 0 0 0 [] 9, _, hand 9
     .syncWait (hz .syncWait 5 1 3 0 [0, 1]), by constructor <;> first | exact test_crc .. | decide +kernel, rfl, (by decide +kernel)⟩,
   ⟨withSync 9, hz .syncRead 5 1 3 1, _, sync3 9, by constructor <;> first | exact test_crc .. | decide +kernel, rfl, (by decide +kernel)⟩,
   ⟨zt { za with kept := [{ entry := 1, begun := 2, result := rec0 }] }, hz .resultHistory 5 1 9 0, _, 1, ctx5, { entry := 1, begun := 2, result := rec0 },
     by constructor <;> first | exact test_crc .. | decide +kernel, rfl, (by decide +kernel)⟩,
   ⟨both, hz .liveQuery 0xFFFF 0 255 1, _, by constructor <;> first | exact test_crc .. | decide +kernel, rfl, (by decide +kernel)⟩,
   ⟨zt { za with faultLog := [{ record := [1, 2], ext := [3] }] }, hz .faultLog 0xFFFF 0 0 32, _,
     by constructor <;> first | exact test_crc .. | decide +kernel, rfl, (by decide +kernel)⟩,
   ⟨both, hz .frostQuery 0xFFFF 0 0 0, _, by constructor <;> first | exact test_crc .. | decide +kernel, rfl⟩⟩

theorem test_witness_ZaIsConfiguredByCommand :
    (∃ (s : State) (h : HuskCmd) (z : Za) (z' : Za), s.za.accepts .regWrite h ∧ z = s.za.met .regWrite h ∧ z.regTest h = none ∧ (z.mgmtWrites
      ((List.range (regAddrs h).length).map (fun i => (i, (regAddrs h).getD i 0, word (huskPay h) i))) = (z', none))) ∧
    (∃ (s : State) (h : HuskCmd) (z : Za) (z' : Za) (st : Nat) (i : Nat), s.za.accepts .regWrite h ∧ z = s.za.met .regWrite h ∧ z.regTest h = none ∧
      (z.mgmtWrites ((List.range (regAddrs h).length).map (fun i => (i, (regAddrs h).getD i 0, word (huskPay h) i))) = (z', some (st, i)))) ∧
    (∃ (s : State) (h : HuskCmd) (z : Za), s.za.accepts .tagWrite h ∧ z = s.za.met .tagWrite h ∧ 0x10 ≤ huskP0 h ∧ huskP0 h ≤ 0xFF ∧ 1 ≤ huskP1 h ∧
      huskP1 h ≤ 240 ∧ huskP0 h + huskP1 h ≤ 0x100) ∧
    (∃ (s : State) (h : HuskCmd) (z : Za), s.za.accepts .tagWrite h ∧ z = s.za.met .tagWrite h ∧ 0x10 ≤ huskP0 h ∧ huskP0 h ≤ 0xFF ∧ 1 ≤ huskP1 h ∧
      huskP1 h ≤ 240 ∧ huskP0 h + huskP1 h ≤ 0x100) ∧
    (∃ (s : State) (h : HuskCmd) (z : Za), s.za.accepts .pwrLimit h ∧ z = s.za.met .pwrLimit h ∧ 400 ≤ huskP0 h ∧ huskP0 h ≤ 820 ∧ 70 ≤ huskP1 h ∧
      huskP1 h ≤ 105) ∧
    (∃ (s : State) (h : HuskCmd) (z : Za), s.za.accepts .pwrLimit h ∧ z = s.za.met .pwrLimit h ∧ 400 ≤ huskP0 h ∧ huskP0 h ≤ 820 ∧ 70 ≤ huskP1 h ∧
      huskP1 h ≤ 105) ∧
    (∃ (s : State) (h : HuskCmd) (z : Za), s.za.accepts .rackSet h ∧ z = s.za.met .rackSet h ∧ 1 ≤ huskP0 h ∧ huskP0 h ≤ 64) ∧
    (∃ (s : State) (h : HuskCmd) (z : Za), s.za.accepts .liveClaim h ∧ z = s.za.met .liveClaim h ∧ 1 ≤ huskP0 h ∧ huskP0 h ≤ 256 ∧ (∀ w ∈ huskPay h,
      (z.die? (fld w 19 0)).isSome = true)) ∧
    (∃ (s : State) (h : HuskCmd) (z : Za), s.za.accepts .linkResetCmd h ∧ z = s.za.met .linkResetCmd h ∧ huskP0 h < 82 ∧ z.linkOn (huskP0 h) = true) ∧
    (∃ (s : State) (h : HuskCmd) (z : Za), s.za.accepts .timeStep h ∧ z = s.za.met .timeStep h ∧ (ofTwos 64 (dword (huskPay h) 0)).natAbs < 2 ^ 40 ∧
      z.time.plusTwo ≤ z.frameOf (huskP0 h) ∧ (0 ≤ stepWhole (ofTwos 64 (dword (huskPay h) 0)) ∨ z.jobs = [])) ∧
    (∃ (s : State) (h : HuskCmd) (z : Za), s.za.accepts .timeStep h ∧ z = s.za.met .timeStep h ∧ (ofTwos 64 (dword (huskPay h) 0)).natAbs < 2 ^ 40 ∧
      z.time.plusTwo ≤ z.frameOf (huskP0 h) ∧ (0 ≤ stepWhole (ofTwos 64 (dword (huskPay h) 0)) ∨ z.jobs = [])) ∧
    (∃ (s : State) (h : HuskCmd) (z : Za), s.za.accepts .timeResync h ∧ z = s.za.met .timeResync h ∧ z.jobs = []) ∧
    (∃ (s : State) (h : HuskCmd) (z : Za) (e : Nat) (c : Ctx), s.za.accepts .subscribe h ∧ z = s.za.met .subscribe h ∧ z.cmdCtx h = some (e, c)) ∧
    (∃ (s : State) (h : HuskCmd) (z : Za) (e : Nat) (c : Ctx), s.za.accepts .subscribe h ∧ z = s.za.met .subscribe h ∧ z.cmdCtx h = some (e, c)) ∧
    (∃ (s : State) (p : Fin 82) (w : W), s.za.running = true ∧ fld w 30 20 = 0 ∧ fld w 15 6 = 0 ∧ bit w 31 = true ∧ fld w 5 0 ≤ 32 ∧
      (s.za.pendingGates p.val w).wf (decide (80 ≤ p.val)) = true ∧ s.za.gclFits p.val (s.za.pendingGates p.val w) = true) ∧
    (∃ (s : State) (k : Fin 2) (w : W), s.za.running = true ∧ rateStatus false k.val w = stOk) ∧
    (∃ (s : State) (P : Fin 42) (w : W), s.za.running = true ∧ s.za.portStatus P.val w = stOk ∧ P.val < 40) ∧
    (∃ (s : State) (m : Fin 16) (k : Fin 5) (w : W) (t : Trigger), s.za.running = true ∧ m.val < s.za.marks.length ∧ triggerStatus (s.za.marks.getD
      m.val (.initial 0)) k.val w (decide (fld w 29 16 = 0 ∧ fld w 5 0 = 0)) (decide (fld w 15 8 ≤ 39 ∧ fld w 7 6 ≠ 3)) 16384 = stOk ∧
      (s.za.marks.getD m.val (.initial 0)).write s.za.nowNs k.val w = some t) :=
  ⟨⟨both, hz .regWrite 0xFFFF 0 0x8008 1 [1], _, ((both.za.met .regWrite (hz .regWrite 0xFFFF 0 0x8008 1 [1])).mgmtWrites ((List.range (regAddrs (hz
     .regWrite 0xFFFF 0 0x8008 1 [1])).length).map (fun j => (j, (regAddrs (hz .regWrite 0xFFFF 0 0x8008 1 [1])).getD j 0, word (huskPay (hz
     .regWrite 0xFFFF 0 0x8008 1 [1])) j)))).1, by constructor <;> first | exact test_crc .. | decide +kernel, rfl, (by decide +kernel)⟩,
   ⟨both, hz .regWrite 0xFFFF 0 0x3000 2 [1, 0xFFFFFFFF], _, ((both.za.met .regWrite (hz .regWrite 0xFFFF 0 0x3000 2 [1, 0xFFFFFFFF])).mgmtWrites
     ((List.range (regAddrs (hz .regWrite 0xFFFF 0 0x3000 2 [1, 0xFFFFFFFF])).length).map (fun j => (j, (regAddrs (hz .regWrite 0xFFFF 0 0x3000 2 [1,
     0xFFFFFFFF])).getD j 0, word (huskPay (hz .regWrite 0xFFFF 0 0x3000 2 [1, 0xFFFFFFFF])) j)))).1, 3, 0,
     by constructor <;> first | exact test_crc .. | decide +kernel, rfl, (by decide +kernel)⟩,
   ⟨both, hz .tagWrite 0xFFFF 0 0xFF 1 [0x41000000], _, by constructor <;> first | exact test_crc .. | decide +kernel, rfl, (by decide +kernel)⟩,
   ⟨both, hz .tagWrite 0xFFFF 0 0x10 5 [1, 2], _, by constructor <;> first | exact test_crc .. | decide +kernel, rfl, (by decide +kernel)⟩,
   ⟨both, hz .pwrLimit 0xFFFF 0 400 70, _, by constructor <;> first | exact test_crc .. | decide +kernel, rfl, (by decide +kernel)⟩,
   ⟨both, hz .pwrLimit 0xFFFF 0 820 105, _, by constructor <;> first | exact test_crc .. | decide +kernel, rfl, (by decide +kernel)⟩,
   ⟨both, hz .rackSet 0xFFFF 0 2 0 [0x80010001, 0x00020002], _, by constructor <;> first | exact test_crc .. | decide +kernel, rfl, (by decide +kernel)⟩,
   ⟨both, hz .liveClaim 0xFFFF 0 1 0 [0x40000007], _, by constructor <;> first | exact test_crc .. | decide +kernel, rfl, (by decide +kernel), by decide +kernel, test_forall _ _
     (by decide +kernel)⟩,
   ⟨both, hz .linkResetCmd 0xFFFF 0 80 0, _, by constructor <;> first | exact test_crc .. | decide +kernel, rfl, (by decide +kernel)⟩,
   ⟨both, hz .timeStep 0xFFFF 0 12 0 [0xFF, 0xFFFFFFFF], _, by constructor <;> first | exact test_crc .. | decide +kernel, rfl, (by decide +kernel)⟩,
   ⟨noJobs, hz .timeStep 0xFFFF 0 12 0 [0xFFFFFF00, 1], _, by constructor <;> first | exact test_crc .. | decide +kernel, rfl, (by decide +kernel)⟩,
   ⟨noJobs, hz .timeResync 0xFFFF 0 0 0, _, by constructor <;> first | exact test_crc .. | decide +kernel, rfl, (by decide +kernel)⟩,
   ⟨both, hz .subscribe 5 1 31 0, _, 1, ctx5, by constructor <;> first | exact test_crc .. | decide +kernel, rfl, (by decide +kernel)⟩,
   ⟨both, hz .subscribe 5 1 0 0, _, 1, ctx5, by constructor <;> first | exact test_crc .. | decide +kernel, rfl, (by decide +kernel)⟩,
   ⟨both, 2, 0x800E0003, by decide +kernel⟩,
   ⟨both, 0, 0xC00003E8, by decide +kernel⟩,
   ⟨both, 39, 0x80C00000, by decide +kernel⟩,
   ⟨both, 15, 3, 16384, ((za.marks.getD 15 (.initial 0)).write za.nowNs 3 16384).getD (.initial 0), by decide +kernel⟩⟩

theorem test_witness_SyncObjectsFollowTheirOwner :
    (∃ (s : State) (h : HuskCmd) (z : Za) (e : Nat) (c : Ctx), s.za.accepts .syncAlloc h ∧ z = s.za.met .syncAlloc h ∧ z.cmdCtx h = some (e, c) ∧ 1 ≤
      huskP0 h ∧ huskP0 h ≤ 2048 ∧ z.syncHeld c + huskP0 h ≤ c.q.sync ∧ z.syncs.length + huskP0 h ≤ 131072) ∧
    (∃ (s : State) (h : HuskCmd) (z : Za) (o : SyncObj), s.za.accepts .syncSet h ∧ z = s.za.met .syncSet h ∧ z.ownObj h (huskP0 h) = some o) ∧
    (∃ (s : State) (h : HuskCmd) (z : Za) (o : SyncObj), s.za.accepts .syncAdd h ∧ z = s.za.met .syncAdd h ∧ z.ownObj h (huskP0 h) = some o ∧ 1 ≤
      huskP1 h ∧ z.waits = []) ∧
    (∃ (s : State) (h : HuskCmd) (z : Za) (o : SyncObj), s.za.accepts .syncAdd h ∧ z = s.za.met .syncAdd h ∧ z.ownObj h (huskP0 h) = some o ∧ 1 ≤
      huskP1 h ∧ z.waits = []) ∧
    (∃ (s : State) (h : HuskCmd) (z : Za) (o : SyncObj) (src : Option SyncSource), s.za.accepts .syncBind h ∧ z = s.za.met .syncBind h ∧ z.ownObj h
      (huskP0 h) = some o ∧ bindSource h = some src ∧ (∀ x, src = some (.handle x) → (z.handle? x).isSome = true) ∧ (z.syncs.countP (fun (p : Nat ×
      SyncObj) => p.1 != huskP0 h && p.2.ctx == o.ctx && p.2.gen == o.gen && p.2.source == src) < 16)) ∧
    (∃ (s : State) (h : HuskCmd) (z : Za) (o : SyncObj), s.za.accepts .syncFree h ∧ z = s.za.met .syncFree h ∧ huskP1 h = 1 ∧ huskP0 h < 131072 ∧
      z.ownObj h (huskP0 h) = some o ∧ z.waits = []) ∧
    (∃ (s : State) (h : HuskCmd) (z : Za) (handle : W) (o : SyncObj), s.za.begins .syncWait h z handle ∧ z.ownObj h (huskP0 h) = some o ∧ o.value <
      dword (huskPay h) 0) ∧
    (∃ (s : State) (h : HuskCmd) (z : Za) (handle : W) (o : SyncObj), s.za.begins .syncWait h z handle ∧ z.ownObj h (huskP0 h) = some o ∧ dword
      (huskPay h) 0 ≤ o.value) ∧
    (∃ (s : State) (h : HuskCmd) (z : Za) (x : Handle), s.za.accepts .handleCancel h ∧ z = s.za.met .handleCancel h ∧ z.handle? (huskHandle h) = some
      x ∧ x.done = none ∧ z.isParked x = true) :=
  ⟨⟨both, hz .syncAlloc 5 1 1024 0, _, 1, ctx5, by constructor <;> first | exact test_crc .. | decide +kernel, rfl, (by decide +kernel)⟩,
   ⟨withSync 9, hz .syncSet 5 1 3 0 [0, 7], _, sync3 9, by constructor <;> first | exact test_crc .. | decide +kernel, rfl, (by decide +kernel)⟩,
   ⟨withSync (2 ^ 64 - 1), hz .syncAdd 5 1 3 1, _, sync3 (2 ^ 64 - 1), by constructor <;> first | exact test_crc .. | decide +kernel, rfl, (by decide +kernel)⟩,
   ⟨withSync (2 ^ 64 - 2), hz .syncAdd 5 1 3 1, _, sync3 (2 ^ 64 - 2), by constructor <;> first | exact test_crc .. | decide +kernel, rfl, (by decide +kernel)⟩,
   ⟨withSync 9, hz .syncBind 5 1 3 0x1000000F, _, sync3 9, some (.channel 15), by constructor <;> first | exact test_crc .. | decide +kernel, rfl,
     (by decide +kernel), by decide +kernel, by simp, (by decide +kernel)⟩,
   ⟨withSync 9, hz .syncFree 5 1 3 1, _, sync3 9, by constructor <;> first | exact test_crc .. | decide +kernel, rfl, (by decide +kernel)⟩,
   ⟨withSync 9, hz .syncWait 5 1 3 0 [0, 10], (begun (withSync 9).za .syncWait (hz .syncWait 5 1 3 0 [0, 10])).1, (begun (withSync 9).za .syncWait
     (hz .syncWait 5 1 3 0 [0, 10])).2, sync3 9, test_begins (by constructor <;> first | exact test_crc .. | decide +kernel) (by decide +kernel) (by
     decide +kernel), by decide +kernel⟩,
   ⟨withSync 9, hz .syncWait 5 1 3 0 [0, 9], (begun (withSync 9).za .syncWait (hz .syncWait 5 1 3 0 [0, 9])).1, (begun (withSync 9).za .syncWait (hz
     .syncWait 5 1 3 0 [0, 9])).2, sync3 9, test_begins (by constructor <;> first | exact test_crc .. | decide +kernel) (by decide +kernel) (by
     decide +kernel), by decide +kernel⟩,
   ⟨zt { za with syncs := [(3, sync3 0)], waits := [{ handle := 9, obj := 3, v := 5, order := 0 }], cmds := { za.cmds with handles := [hand 9 .syncWait (hz .syncWait 5 1 3 0 [0, 5])] } },
     hz .handleCancel 0xFFFF 0 0 0 [] 9, _, hand 9 .syncWait (hz .syncWait 5 1 3 0 [0, 5]),
     by constructor <;> first | exact test_crc .. | decide +kernel, rfl, (by decide +kernel)⟩⟩

theorem test_witness_ContextsAreAdmittedAndTornDown :
    (∃ (s : State) (h : HuskCmd) (z : Za) (handle : W) (e : Nat) (q : Quotas), s.za.begins .ctxAdmit h z handle ∧ q = quotasOf (huskPay h) ∧
      z.factory = false ∧ z.admitTest (huskCtx h) (huskGen h) (z.frameOf (huskP0 h)) = none ∧ z.time.plusTwo ≤ z.frameOf (huskP0 h) ∧ quotaForm q =
      none ∧ z.freeEntry = some e ∧ z.quotaFault (z.quotasWith e q) = none ∧ z.schedFault z.checkEvery (z.quotasWith e q) = none) ∧
    (∃ (s : State) (h : HuskCmd) (z : Za) (handle : W), s.za.begins .ctxAdmit h z handle ∧ z.factory = false ∧ z.admitTest (huskCtx h) (huskGen h)
      (z.frameOf (huskP0 h)) = none ∧ z.frameOf (huskP0 h) < z.time.plusTwo) ∧
    (∃ (s : State) (h : HuskCmd) (z : Za) (handle : W) (e : Nat) (c : Ctx), s.za.begins .ctxTeardown h z handle ∧ z.cmdCtx h = some (e, c) ∧ c.id ≠ 0
      ∧ c.stop = none ∧ z.earliest c ≤ z.frameOf (huskP0 h)) ∧
    (∃ (s : State) (h : HuskCmd) (z : Za) (handle : W) (e : Nat) (c : Ctx), s.za.begins .ctxTeardown h z handle ∧ z.cmdCtx h = some (e, c) ∧ c.id ≠ 0
      ∧ c.stop = none ∧ z.frameOf (huskP0 h) < z.earliest c) ∧
    (∃ (s : State) (h : HuskCmd) (z : Za) (handle : W) (e : Nat) (c : Ctx), s.za.begins .ctxTeardown h z handle ∧ z.cmdCtx h = some (e, c) ∧ (c.id =
      0 ∨ c.stop.isSome = true)) ∧
    (∃ (s : State) (h : HuskCmd) (z : Za) (handle : W) (e : Nat) (c : Ctx), s.za.begins .ctxTeardown h z handle ∧ z.cmdCtx h = some (e, c) ∧ (c.id =
      0 ∨ c.stop.isSome = true)) ∧
    (∃ (s : State) (h : HuskCmd) (z : Za) (e : Nat) (c : Ctx) (q : Quotas), s.za.accepts .ctxQuota h ∧ z = s.za.met .ctxQuota h ∧ z.cmdCtx h = some
      (e, c) ∧ q = quotasOf (huskPay h) ∧ quotaForm q = none ∧ z.quotaFault (z.quotasWith e q) = none ∧ (c.q.ensCost < q.ensCost ∨ c.q.tensorCost <
      q.tensorCost ∨ c.q.featCost < q.featCost ∨ c.q.detCost < q.detCost → z.schedFault z.checkEvery (z.quotasWith e q) = none)) ∧
    (∃ (s : State) (h : HuskCmd) (z : Za) (e : Nat) (c : Ctx) (q : Quotas), s.za.accepts .ctxQuota h ∧ z = s.za.met .ctxQuota h ∧ z.cmdCtx h = some
      (e, c) ∧ q = quotasOf (huskPay h) ∧ quotaForm q = none ∧ z.quotaFault (z.quotasWith e q) = none ∧ (c.q.ensCost < q.ensCost ∨ c.q.tensorCost <
      q.tensorCost ∨ c.q.featCost < q.featCost ∨ c.q.detCost < q.detCost → z.schedFault z.checkEvery (z.quotasWith e q) = none)) :=
  ⟨⟨both, hz .ctxAdmit 6 1 12 0 (List.replicate 9 0), (begun both.za .ctxAdmit (hz .ctxAdmit 6 1 12 0 (List.replicate 9 0))).1, (begun both.za
     .ctxAdmit (hz .ctxAdmit 6 1 12 0 (List.replicate 9 0))).2, 2, _, test_begins (by constructor <;> first | exact test_crc .. | decide +kernel) (by
     decide +kernel) (by decide +kernel), rfl, (by decide +kernel)⟩,
   ⟨both, hz .ctxAdmit 6 1 11 0 (List.replicate 9 0), (begun both.za .ctxAdmit (hz .ctxAdmit 6 1 11 0 (List.replicate 9 0))).1, (begun both.za
     .ctxAdmit (hz .ctxAdmit 6 1 11 0 (List.replicate 9 0))).2, test_begins (by constructor <;> first | exact test_crc .. | decide +kernel) (by
     decide +kernel) (by decide +kernel), by decide +kernel⟩,
   ⟨both, hz .ctxTeardown 5 1 12 0, (begun both.za .ctxTeardown (hz .ctxTeardown 5 1 12 0)).1, (begun both.za .ctxTeardown (hz .ctxTeardown 5 1 12
     0)).2, 1, ctx5, test_begins (by constructor <;> first | exact test_crc .. | decide +kernel) (by decide +kernel) (by decide +kernel), by decide +kernel⟩,
   ⟨both, hz .ctxTeardown 5 1 11 0, (begun both.za .ctxTeardown (hz .ctxTeardown 5 1 11 0)).1, (begun both.za .ctxTeardown (hz .ctxTeardown 5 1 11
     0)).2, 1, ctx5, test_begins (by constructor <;> first | exact test_crc .. | decide +kernel) (by decide +kernel) (by decide +kernel), by decide +kernel⟩,
   ⟨both, hz .ctxTeardown 0 0 12 0, (begun both.za .ctxTeardown (hz .ctxTeardown 0 0 12 0)).1, (begun both.za .ctxTeardown (hz .ctxTeardown 0 0 12
     0)).2, 0, ctxOf 0 0 { rank := 7, die := 7 }, test_begins (by constructor <;> first | exact test_crc .. | decide +kernel) (by decide +kernel) (by
     decide +kernel), by decide +kernel⟩,
   ⟨withCtx5 { ctx5 with stop := some 40 }, hz .ctxTeardown 5 1 12 0, (begun (withCtx5 { ctx5 with stop := some 40 }).za .ctxTeardown (hz
     .ctxTeardown 5 1 12 0)).1, (begun (withCtx5 { ctx5 with stop := some 40 }).za .ctxTeardown (hz .ctxTeardown 5 1 12 0)).2, 1, { ctx5 with stop := some 40 },
     test_begins (by constructor <;> first | exact test_crc .. | decide +kernel) (by decide +kernel) (by decide +kernel), by decide +kernel⟩,
   ⟨both, hz .ctxQuota 5 1 0 0 [0x00200010, 16, 8, 0, 0, 0, 0, 0, 0], _, 1, ctx5, _, by constructor <;> first | exact test_crc .. | decide +kernel,
     rfl, (by decide +kernel), rfl, by decide +kernel⟩,
   ⟨both, hz .ctxQuota 5 1 0 0 [0x00200010, 16, 8, 0, 0, 0, 1, 0, 0], _, 1, ctx5, _, by constructor <;> first | exact test_crc .. | decide +kernel,
     rfl, (by decide +kernel), rfl, by decide +kernel⟩⟩

theorem test_witness_PlansWaitForTheirFront :
    (∃ (s : State) (h : HuskCmd) (z : Za) (ended : Za) (handle : W) (e : Nat) (f : Nat) (c : Ctx), s.za.begins .membership h z handle ∧ z.cmdCtx h =
      some (e, c) ∧ f = (if huskP0 h = 0 then z.earliest c else z.frameOf (huskP0 h)) ∧ (ended = (memberEntries h).foldl (fun z x => z.endEntry c f
      (c.membersAt f) x) z) ∧ 1 ≤ huskP1 h ∧ z.earliest c ≤ f ∧ (memberEntries h).find? (fun x => c.changes.any (fun y => y.front == f && y.rank ==
      x.rank)) = none ∧ entryFault (c.membersAt f) (memberEntries h) = none ∧ (∀ x ∈ memberEntries h, x.op ≠ 1 → ∀ d, ended.die? x.die = some d →
      (d.slotFor c.id f).isSome = true)) ∧
    (∃ (s : State) (h : HuskCmd) (z : Za) (ended : Za) (handle : W) (e : Nat) (f : Nat) (c : Ctx), s.za.begins .membership h z handle ∧ z.cmdCtx h =
      some (e, c) ∧ f = (if huskP0 h = 0 then z.earliest c else z.frameOf (huskP0 h)) ∧ (ended = (memberEntries h).foldl (fun z x => z.endEntry c f
      (c.membersAt f) x) z) ∧ 1 ≤ huskP1 h ∧ z.earliest c ≤ f ∧ (memberEntries h).find? (fun x => c.changes.any (fun y => y.front == f && y.rank ==
      x.rank)) = none ∧ entryFault (c.membersAt f) (memberEntries h) = none ∧ (∀ x ∈ memberEntries h, x.op ≠ 1 → ∀ d, ended.die? x.die = some d →
      (d.slotFor c.id f).isSome = true)) ∧
    (∃ (s : State) (h : HuskCmd) (z : Za) (ended : Za) (handle : W) (e : Nat) (f : Nat) (c : Ctx), s.za.begins .membership h z handle ∧ z.cmdCtx h =
      some (e, c) ∧ f = (if huskP0 h = 0 then z.earliest c else z.frameOf (huskP0 h)) ∧ (ended = (memberEntries h).foldl (fun z x => z.endEntry c f
      (c.membersAt f) x) z) ∧ 1 ≤ huskP1 h ∧ z.earliest c ≤ f ∧ (memberEntries h).find? (fun x => c.changes.any (fun y => y.front == f && y.rank ==
      x.rank)) = none ∧ entryFault (c.membersAt f) (memberEntries h) = none ∧ (∀ x ∈ memberEntries h, x.op ≠ 1 → ∀ d, ended.die? x.die = some d →
      (d.slotFor c.id f).isSome = true)) ∧
    (∃ (s : State) (h : HuskCmd) (z : Za) (handle : W) (e : Nat) (c : Ctx), s.za.begins .podPlan h z handle ∧ z.cmdCtx h = some (e, c) ∧ firstIdx
      (podPlanOf (huskPay h)).hists (histFault (podPlanOf (huskPay h))) = none ∧ (∀ n, n < 4096 → mapCellForm (wf (huskPay h) (66 + n / 2) (if n % 2
      = 0 then 31 else 15) (if n % 2 = 0 then 16 else 0)) = stOk) ∧ z.earliest c ≤ z.frameOf (huskP0 h) ∧ c.pending = []) ∧
    (∃ (s : State) (h : HuskCmd) (z : Za) (handle : W) (e : Nat) (c : Ctx), s.za.begins .detPlan h z handle ∧ z.cmdCtx h = some (e, c) ∧ (firstIdx
      (descsOf 8 (huskPay h)) (fun d => detBad (c.featAt (detTile d) (z.frameOf (huskP0 h))) d) = none) ∧ detPasses (z.viewAt c (z.frameOf (huskP0
      h)) 0) (descsOf 8 (huskPay h)) ≤ c.q.detCost ∧ z.statePages e (descsOf 8 (huskPay h)) ≤ 3968 ∧ z.earliest c ≤ z.frameOf (huskP0 h) ∧ c.pending
      = []) ∧
    (∃ (s : State) (h : HuskCmd) (z : Za) (e : Nat) (c : Ctx), s.za.accepts .featPlan h ∧ z = s.za.met .featPlan h ∧ z.cmdCtx h = some (e, c) ∧ bit
      h.w6 31 = false ∧ fld h.w6 27 16 = 0 ∧ fld h.w6 12 0 ≤ 4096 ∧ (huskPay h).length ≤ 4 * fld h.w6 12 0 ∧ c.staging = []) ∧
    (∃ (s : State) (h : HuskCmd) (z : Za) (handle : W) (e : Nat) (c : Ctx), s.za.begins .featPlan h z handle ∧ z.cmdCtx h = some (e, c) ∧ bit h.w6 31
      = true ∧ fld h.w6 27 16 = 0 ∧ fld h.w6 12 0 ≤ 4096 ∧ (huskPay h).length = 4 * fld h.w6 12 0 ∧ c.staging = [] ∧ z.areasOf e = [] ∧ featPlanFault
      (c.podAt (z.frameOf (huskP0 h))) (bit h.w6 30) (descsOf 4 (huskPay h)) = none ∧ z.earliest c ≤ z.frameOf (huskP0 h) ∧ c.pending = []) ∧
    (∃ (s : State) (e : Fin 1024) (c : Ctx), s.za.ctx? e.val = some c) ∧
    (∃ (s : State) (h : HuskCmd) (z : Za) (e : Nat) (c : Ctx) (r : _), s.za.accepts .detReset h ∧ z = s.za.met .detReset h ∧ z.cmdCtx h = some (e, c)
      ∧ huskP0 h ≤ 31 ∧ (∀ k ∈ huskPay h, bit k 26 = true ∨ fld k 25 20 = 0) ∧ z.detRecs = [r] ∧ r.entry = e ∧ r.det = huskP0 h ∧ (huskP1 h % 2 = 1 ∨
      r.key ∈ huskPay h) ∧ r.marked = false) ∧
    (∃ (s : State) (h : HuskCmd) (z : Za) (e : Nat) (c : Ctx) (r : _), s.za.accepts .detReset h ∧ z = s.za.met .detReset h ∧ z.cmdCtx h = some (e, c)
      ∧ huskP0 h ≤ 31 ∧ (∀ k ∈ huskPay h, bit k 26 = true ∨ fld k 25 20 = 0) ∧ z.detRecs = [r] ∧ r.entry = e ∧ r.det = huskP0 h ∧ (huskP1 h % 2 = 1 ∨
      r.key ∈ huskPay h) ∧ r.marked = false) :=
  ⟨⟨both, hz .membership 5 1 12 1 [0, 0x00100008], (begun both.za .membership (hz .membership 5 1 12 1 [0, 0x00100008])).1, _, (begun both.za
     .membership (hz .membership 5 1 12 1 [0, 0x00100008])).2, 1, _, ctx5, test_begins
     (by constructor <;> first | exact test_crc .. | decide +kernel) (by decide +kernel) (by decide +kernel), by decide +kernel, rfl, rfl, by decide +kernel, (by decide +kernel), by decide +kernel, by decide +kernel,
     test_entries (by decide +kernel)⟩,
   ⟨both, hz .membership 5 1 12 1 [0x40000000, 0], (begun both.za .membership (hz .membership 5 1 12 1 [0x40000000, 0])).1, _, (begun both.za
     .membership (hz .membership 5 1 12 1 [0x40000000, 0])).2, 1, _, ctx5, test_begins
     (by constructor <;> first | exact test_crc .. | decide +kernel) (by decide +kernel) (by decide +kernel), by decide +kernel, rfl, rfl, by decide +kernel, (by decide +kernel), by decide +kernel, by decide +kernel,
     test_entries (by decide +kernel)⟩,
   ⟨both, hz .membership 0 0 0 1 [0x40000000, 0x00700000], (begun both.za .membership (hz .membership 0 0 0 1 [0x40000000, 0x00700000])).1, _, (begun
     both.za .membership (hz .membership 0 0 0 1 [0x40000000, 0x00700000])).2, 0, _, ctxOf 0 0 { rank := 7, die := 7 }, test_begins
     (by constructor <;> first | exact test_crc .. | decide +kernel) (by decide +kernel) (by decide +kernel), by decide +kernel, rfl, rfl, by decide +kernel, (by decide +kernel), by decide +kernel, by decide +kernel,
     test_entries (by decide +kernel)⟩,
   ⟨both, zeroPlan, (begun both.za .podPlan zeroPlan).1, (begun both.za .podPlan zeroPlan).2, 1, ctx5, test_begins test_zeroPlan (by decide +kernel)
     (by decide +kernel), by decide +kernel, (by decide +kernel), fun _ _ => test_zero_cells _ _ _, by decide +kernel⟩,
   ⟨withCtx5 { ctx5 with q := { ctx5.q with detCost := 65535 } }, hz .detPlan 5 1 12 0 det0, (begun (withCtx5 { ctx5 with q := { ctx5.q with detCost := 65535 } }).za
     .detPlan (hz .detPlan 5 1 12 0 det0)).1, (begun (withCtx5 { ctx5 with q := { ctx5.q with detCost := 65535 } }).za .detPlan (hz .detPlan 5 1 12 0
     det0)).2, 1, { ctx5 with q := { ctx5.q with detCost := 65535 } }, test_begins (by constructor <;> first | exact test_crc .. | decide +kernel)
     (by decide +kernel) (by decide +kernel), by decide +kernel⟩,
   ⟨both, hz .featPlan 5 1 12 0x00001000 extDesc, _, 1, ctx5, by constructor <;> first | exact test_crc .. | decide +kernel, rfl, (by decide +kernel)⟩,
   ⟨both, hz .featPlan 5 1 12 0x80000001 extDesc, (begun both.za .featPlan (hz .featPlan 5 1 12 0x80000001 extDesc)).1, (begun both.za .featPlan (hz
     .featPlan 5 1 12 0x80000001 extDesc)).2, 1, ctx5, test_begins (by constructor <;> first | exact test_crc .. | decide +kernel) (by
     decide +kernel) (by decide +kernel), by decide +kernel⟩,
   ⟨withCtx5 { ctx5 with staging := [{ tile := true, front := 12, total := 4, words := [], at_ := 0 }] }, 1, { ctx5 with staging := [{ tile := true, front := 12, total := 4, words := [], at_ := 0 }] },
     by decide +kernel⟩,
   ⟨zt { za with detRecs := [detRec] }, hz .detReset 5 1 0 1, _, 1, ctx5, detRec, by constructor <;> first | exact test_crc .. | decide +kernel, rfl,
     (by decide +kernel), by decide +kernel, test_forall _ _ (by decide +kernel), (by decide +kernel)⟩,
   ⟨zt { za with detRecs := [detRec] }, hz .detReset 5 1 0 0 [0x04000000], _, 1, ctx5, detRec,
     by constructor <;> first | exact test_crc .. | decide +kernel, rfl, (by decide +kernel), by decide +kernel, test_forall _ _ (by decide +kernel), (by decide +kernel)⟩⟩

theorem test_witness_WeightsAndFeaturesAreKept :
    (∃ (s : State) (h : HuskCmd) (z : Za) (e : Nat) (c : Ctx), s.za.accepts .weightSwap h ∧ z = s.za.met .weightSwap h ∧ z.cmdCtx h = some (e, c) ∧
      huskP1 h ≤ 65535 ∧ z.earliest c ≤ z.frameOf (huskP0 h) ∧ (∀ x ∈ c.swaps, x.first + x.overlap ≤ z.frameNow)) ∧
    (∃ (s : State) (h : HuskCmd) (z : Za) (e : Nat) (c : Ctx), s.za.accepts .weightSwap h ∧ z = s.za.met .weightSwap h ∧ z.cmdCtx h = some (e, c) ∧
      huskP1 h ≤ 65535 ∧ z.earliest c ≤ z.frameOf (huskP0 h) ∧ (∃ x ∈ c.swaps, z.frameNow < x.first + x.overlap)) ∧
    (∃ (s : State) (h : HuskCmd) (z : Za) (e : Nat) (c : Ctx), s.za.accepts .digestLoad h ∧ z = s.za.met .digestLoad h ∧ z.cmdCtx h = some (e, c) ∧
      huskP1 h = 1 ∧ huskP0 h < 2 ^ 22 ∧ c.tables = [] ∧ 1 ≤ c.q.digestTables ∧ bit (word (huskPay h) 2) 31 = true) ∧
    (∃ (s : State) (h : HuskCmd) (z : Za) (e : Nat) (c : Ctx), s.za.accepts .featWrite h ∧ z = s.za.met .featWrite h ∧ z.cmdCtx h = some (e, c) ∧ 1 ≤
      fld h.w6 15 0 ∧ fld h.w6 15 0 ≤ 64 ∧ z.work? e (z.frameOf (huskP0 h)) = none ∧ (c.views.find? (fun v => v.frame == z.frameOf (huskP0 h)) =
      none) ∧ fld (word (huskPay h) 0) 26 20 = 0 ∧ (∀ i, i < fld h.w6 15 0 → dExternal (c.plans.die.getD (fld h.w6 31 16 + i) []) = true)) ∧
    (∃ (s : State) (h : HuskCmd) (z : Za) (e : Nat) (c : Ctx), s.za.accepts .featWrite h ∧ z = s.za.met .featWrite h ∧ z.cmdCtx h = some (e, c) ∧ 1 ≤
      fld h.w6 15 0 ∧ fld h.w6 15 0 ≤ 64 ∧ z.work? e (z.frameOf (huskP0 h)) = none ∧ (c.views.find? (fun v => v.frame == z.frameOf (huskP0 h)) =
      none) ∧ fld (word (huskPay h) 0) 26 20 = 0 ∧ (∀ i, i < fld h.w6 15 0 → dExternal (c.plans.die.getD (fld h.w6 31 16 + i) []) = true)) ∧
    (∃ (s : State) (h : HuskCmd) (z : Za) (e : Nat) (c : Ctx) (w : FrameWork), s.za.accepts .featWrite h ∧ z = s.za.met .featWrite h ∧ z.cmdCtx h =
      some (e, c) ∧ 1 ≤ fld h.w6 15 0 ∧ fld h.w6 15 0 ≤ 64 ∧ z.work? e (z.frameOf (huskP0 h)) = some w ∧ (bit (word (huskPay h) 0) 26 = true ∨ fld
      (word (huskPay h) 0) 25 20 = 0) ∧ (∀ i, i < fld h.w6 15 0 → dExternal ((w.view.featPlan (bit (word (huskPay h) 0) 26)).getD (fld h.w6 31 16 +
      i) []) = true)) :=
  ⟨⟨both, hz .weightSwap 5 1 12 65535 [0x00010002], _, 1, ctx5, by constructor <;> first | exact test_crc .. | decide +kernel, rfl, (by decide +kernel)⟩,
   ⟨withCtx5 { ctx5 with swaps := [{ first := 10, overlap := 1, va := 0, vb := 1, ended := none }] }, hz .weightSwap 5 1 12 0 [0x00010002], _, 1, { ctx5 with swaps := [{ first := 10, overlap := 1, va := 0, vb := 1, ended := none }] },
     by constructor <;> first | exact test_crc .. | decide +kernel, rfl, (by decide +kernel)⟩,
   ⟨both, hz .digestLoad 5 1 0x3FFFFF 1 [1, 2, 0x80000000, 0x00030000], _, 1, ctx5, by constructor <;> first | exact test_crc .. | decide +kernel,
     rfl, (by decide +kernel)⟩,
   ⟨withCtx5 { ctx5 with plans := { Plans.empty with die := [extDesc] } }, hz .featWrite 5 1 10 1 [7, 1], _, 1, { ctx5 with plans := { Plans.empty with die := [extDesc] } },
     by constructor <;> first | exact test_crc .. | decide +kernel, rfl, (by decide +kernel)⟩,
   ⟨withCtx5 { ctx5 with plans := { Plans.empty with die := List.replicate 64 extDesc } }, hz .featWrite 5 1 9 64 (List.replicate 65 7), _, 1, { ctx5 with plans := { Plans.empty with die := List.replicate 64 extDesc } },
     by constructor <;> first | exact test_crc .. | decide +kernel, rfl, (by decide +kernel)⟩,
   ⟨zt { za with works := [work9 { Plans.empty with die := [extDesc] }] }, hz .featWrite 5 1 9 1 [7, 1], _, 1, ctx5, work9 { Plans.empty with die := [extDesc] },
     by constructor <;> first | exact test_crc .. | decide +kernel, rfl, (by decide +kernel)⟩⟩

theorem test_witness_LongCommandsEnd :
    (∃ (s : State) (handle : W) (l : DtuLong), s.dtu.cmds.longs = [l] ∧ l.handle = handle ∧ l.done.isSome = true) ∧
    (∃ (s : State) (handle : W) (x : Handle), s.dtu.cmds.longs = [] ∧ s.za.running = true ∧ s.za.handle? handle = some x ∧ x.done.isSome = true ∧
      s.za.power.lullTo = none) ∧
    (∃ (s : State) (die : BitVec 20) (rec_ : List W) (d : DieEntry) (f : Frame) (r : Relay), wf rec_ 0 15 0 ≠ Opcode.fence.code ∧ s.za.die? die.toNat
      = some d ∧ f = s.za.completionFrame d.link (dtuMac die.toNat) (some die.toNat) rec_ ∧ s.za.takes d.link f ∧ (s.za.taken d.link f).running =
      true ∧ completionSound rec_ = true ∧ wf rec_ 0 27 26 = 0 ∧ (s.za.taken d.link f).cmds.relays.find? (fun r => r.ownTag == word rec_ 2 && r.die
      == die.toNat) = some r ∧ r.handle = 0 ∧ r.cmd.op ≠ .regWrite) ∧
    (∃ (s : State) (tag : W) (r : Relay), (s.za.cmds.relays.find? (fun r => r.ownTag == tag && decide (r.sentAt + 2 ≤ s.za.time.begun)) = some r) ∧
      s.za.running = true) ∧
    (∃ (s : State) (die : BitVec 20) (q : QueuedLong), (s.za.cmds.queued.find? (fun q => q.die == die.toNat) = some q) ∧ s.za.running = true ∧
      s.za.longsAt die.toNat < 16) ∧
    (∃ (s : State) (handle : W) (x : Handle), s.za.handle? handle = some x ∧ s.za.running = true ∧ x.parked = true ∧ x.done = none ∧ s.za.isParked x
      = false) ∧
    (∃ (s : State) (handle : W), s.za.handle? handle = none) :=
  ⟨⟨dt { up with cmds := { up.cmds with longs := [{ handle := 9, cmd := relay77.cmd, done := some (resultOf stOk) }] } }, 9, { handle := 9, cmd := relay77.cmd, done := some (resultOf stOk) },
     by decide +kernel⟩,
   ⟨zt { za with cmds := { za.cmds with handles := [{ hand 9 .syncWait (hz .syncWait 5 1 3 0 [0, 1]) with done := some (resultOf stOk) }] } }, 9, { hand 9 .syncWait (hz .syncWait 5 1 3 0 [0, 1]) with done := some (resultOf stOk) },
     by decide +kernel⟩,
   ⟨relayed, 7, done77, die7, _, relay77, by decide +kernel, by decide +kernel, rfl, test_takes (by decide +kernel), by decide +kernel⟩,
   ⟨relayed, 77, relay77, by decide +kernel⟩,
   ⟨zt { za with cmds := { za.cmds with queued := [{ die := 7, handle := 9, husk := hr .margin 1 0, op := .margin }] } }, 7, { die := 7, handle := 9, husk := hr .margin 1 0, op := .margin },
     by decide +kernel⟩,
   ⟨zt { za with cmds := { za.cmds with handles := [{ hand 9 .syncSet chained with parked := true }] }, syncs := [(3, sync3 10)] }, 9, { hand 9 .syncSet chained with parked := true },
     by decide +kernel⟩,
   ⟨both, 9, by decide +kernel⟩⟩

theorem test_witness_HusksThatDoNotRun :
    (∃ (s : State) (op : Opcode) (h : HuskCmd) (d : Dtu) (r : Result), h.side = .dtu ∧ s.dtu.takes (s.dtu.huskFrame op h) ∧ d = s.dtu.taken
      (s.dtu.huskFrame op h) ∧ d.huskFrom h.req = true ∧ h.crc = huskCrc op h ∧ d.huskTests op h = some r) ∧
    (∃ (s : State) (op : Opcode) (h : HuskCmd) (d : Dtu) (reply : List W), h.side = .dtu ∧ s.dtu.takes (s.dtu.huskFrame op h) ∧ d = s.dtu.taken
      (s.dtu.huskFrame op h) ∧ d.huskFrom h.req = true ∧ h.crc = huskCrc op h ∧ d.huskTests op h = none ∧ lookupTag d.cmds.cache h.req op h = .replay
      reply) ∧
    (∃ (s : State) (op : Opcode) (h : HuskCmd) (d : Dtu), h.side = .dtu ∧ s.dtu.takes (s.dtu.huskFrame op h) ∧ d = s.dtu.taken (s.dtu.huskFrame op h)
      ∧ d.huskFrom h.req = true ∧ h.crc ≠ huskCrc op h) ∧
    (∃ (s : State) (op : Opcode) (h : HuskCmd) (z : Za) (r : Result), h.side = .za ∧ s.za.power.powered = true ∧ s.za.power.pinLow = false ∧
      (h.req.keomon = true ∨ s.za.takes h.req.link (s.za.huskFrameOf op h)) ∧ z = s.za.met op h ∧ z.boot.phase = 4 ∧ h.crc = huskCrc op h ∧
      z.huskEarly op h = some r) ∧
    (∃ (s : State) (op : Opcode) (h : HuskCmd) (z : Za) (agg : Nat), h.side = .za ∧ s.za.power.powered = true ∧ s.za.power.pinLow = false ∧
      (h.req.keomon = true ∨ s.za.takes h.req.link (s.za.huskFrameOf op h)) ∧ z = s.za.met op h ∧ z.boot.phase = 4 ∧ h.crc = huskCrc op h ∧
      z.huskEarly op h = none ∧ z.huskDest h = .forward agg) ∧
    (∃ (s : State) (op : Opcode) (h : HuskCmd) (z : Za) (r : Result), h.side = .za ∧ s.za.power.powered = true ∧ s.za.power.pinLow = false ∧
      (h.req.keomon = true ∨ s.za.takes h.req.link (s.za.huskFrameOf op h)) ∧ z = s.za.met op h ∧ z.boot.phase = 4 ∧ h.crc = huskCrc op h ∧
      z.huskEarly op h = none ∧ (∀ agg, z.huskDest h ≠ .forward agg) ∧ z.huskLate op h = some r) :=
  ⟨⟨dt up, .syncAlloc, hd .syncAlloc 1 0, _, resultOf stBadOpcode, by decide +kernel, by decide +kernel, rfl, by decide +kernel⟩,
   ⟨dt { up with cmds := { up.cmds with cache := [{ req := (hd .ident 0 0).req, tag := 1, bytes := huskBytes .ident (hd .ident 0 0), reply := [1], handle := 0, at_ := 3 }] } },
     .ident, withW0 .ident (hd .ident 0 0) 0x1440, _, [1], by decide +kernel, by decide +kernel, rfl, by decide +kernel⟩,
   ⟨dt up, .ident, { hd .ident 0 0 with crc := 0 }, _, by decide +kernel, by decide +kernel, rfl, by decide +kernel⟩,
   ⟨both, .softReset, hz .softReset 0xFFFF 0 0 0, _, resultOf stBadOpcode, by decide +kernel, by decide +kernel, (by decide +kernel), Or.inl rfl, rfl, (by decide +kernel)⟩,
   ⟨both, .ident, hl .ident 0xFFFF 0 0 0 [] 0x20000002, _, 2, by decide +kernel, by decide +kernel, (by decide +kernel), Or.inr (test_takes (by decide +kernel)), rfl, (by decide +kernel)⟩,
   ⟨both, .syncAlloc, hz .syncAlloc 5 1 1 0 [0], _, resultOf stBadLength, by decide +kernel, by decide +kernel, (by decide +kernel), Or.inl rfl, rfl, (by decide +kernel), by decide +kernel, by decide +kernel, test_self (by
     decide +kernel), by decide +kernel⟩⟩

theorem test_witness_HusksAreRelayedAndChained :
    (∃ (s : State) (op : Opcode) (h : HuskCmd) (z : Za) (die : Nat), h.side = .za ∧ s.za.power.powered = true ∧ s.za.power.pinLow = false ∧
      (h.req.keomon = true ∨ s.za.takes h.req.link (s.za.huskFrameOf op h)) ∧ z = s.za.met op h ∧ z.boot.phase = 4 ∧ h.crc = huskCrc op h ∧
      z.huskEarly op h = none ∧ z.huskDest h = .relay die ∧ z.huskLate op h = none ∧ lookupTag z.cmds.cache h.req op h = .fresh ∧ huskChained h =
      false ∧ huskLong op h = false ∧ op.isLong = false ∧ z.relayFault die op h = none) ∧
    (∃ (s : State) (op : Opcode) (h : HuskCmd) (z : Za) (z1 : Za) (die : Nat) (handle : W), h.side = .za ∧ s.za.power.powered = true ∧
      s.za.power.pinLow = false ∧ (h.req.keomon = true ∨ s.za.takes h.req.link (s.za.huskFrameOf op h)) ∧ z = s.za.met op h ∧ z.boot.phase = 4 ∧
      h.crc = huskCrc op h ∧ z.huskEarly op h = none ∧ z.huskDest h = .relay die ∧ z.huskLate op h = none ∧ lookupTag z.cmds.cache h.req op h =
      .fresh ∧ huskChained h = false ∧ op.isLong = true ∧ z.handleFree op h = true ∧ z.relayFault die op h = none ∧ z.take op h none false (some die)
      = some (z1, handle)) ∧
    (∃ (s : State) (op : Opcode) (h : HuskCmd) (z : Za) (z1 : Za) (handle : W) (o : SyncObj), h.side = .za ∧ s.za.power.powered = true ∧
      s.za.power.pinLow = false ∧ (h.req.keomon = true ∨ s.za.takes h.req.link (s.za.huskFrameOf op h)) ∧ z = s.za.met op h ∧ z.boot.phase = 4 ∧
      h.crc = huskCrc op h ∧ z.huskEarly op h = none ∧ z.huskDest h = .self ∧ z.huskLate op h = none ∧ lookupTag z.cmds.cache h.req op h = .fresh ∧
      huskChained h = true ∧ z.handleFree op h = true ∧ z.chainFault h = none ∧ (huskChain h).waitEn = true ∧ z.sync? (huskChain h).waitObj = some o
      ∧ o.value < (huskChain h).waitV ∧ z.take op h (some (huskChain h)) true none = some (z1, handle)) :=
  ⟨⟨both, .status, hr .status 1 0, _, 7, by decide +kernel, by decide +kernel, (by decide +kernel), Or.inl rfl, rfl, (by decide +kernel)⟩,
   ⟨both, .margin, hr .margin 1 0, _, (((both.za.met .margin (hr .margin 1 0)).take .margin (hr .margin 1 0) none false (some 7)).getD ((both.za.met
     .margin (hr .margin 1 0)), 0)).1, 7, (((both.za.met .margin (hr .margin 1 0)).take .margin (hr .margin 1 0) none false (some 7)).getD
     ((both.za.met .margin (hr .margin 1 0)), 0)).2, by decide +kernel, by decide +kernel, (by decide +kernel), Or.inl rfl, rfl, (by decide +kernel), by decide +kernel, by decide +kernel, (by decide +kernel), by decide +kernel, by decide +kernel, (by decide +kernel), by decide +kernel, by decide +kernel, (by decide +kernel),
     test_some (by decide +kernel)⟩,
   ⟨withSync 9, .syncSet, chained, _, ((((withSync 9).za.met .syncSet chained).take .syncSet chained (some (huskChain chained)) true none).getD
     (((withSync 9).za.met .syncSet chained), 0)).1, ((((withSync 9).za.met .syncSet chained).take .syncSet chained (some (huskChain chained)) true
     none).getD (((withSync 9).za.met .syncSet chained), 0)).2, sync3 9, by decide +kernel, by decide +kernel, (by decide +kernel), Or.inl rfl, rfl, (by decide +kernel), by decide +kernel, by decide +kernel, (by decide +kernel), by decide +kernel, by decide +kernel, (by decide +kernel),
     by decide +kernel, by decide +kernel, (by decide +kernel), by decide +kernel, by decide +kernel, test_some (by decide +kernel)⟩⟩

theorem test_witness_ZaLinkMessagesTakeEffect :
    (∃ (s : State) (p : Fin 82) (f : Frame) (die : Nat), s.za.takes p.val f ∧ f.plen.toNat = 48 ∧ s.za.face p.val = 1 ∧ srcDie f = some die ∧
      (s.za.taken p.val f).die? die = none ∧ (s.za.taken p.val f).admitReason p.val die ((f.body.drop 2).take 8) (word f.body 0) (word f.body 1) = 0
      ∧ s.za.frost.state ≠ 1) ∧
    (∃ (s : State) (p : Fin 82) (f : Frame) (v : Nat), s.za.takes p.val f ∧ f.plen.toNat = 48 ∧ s.za.face p.val ≠ 1 ∧ zaSettle (word f.body 0) (word
      f.body 1) = some v ∧ v ≠ 0) ∧
    (∃ (s : State) (p : Fin 82) (f : Frame), s.za.takes p.val f ∧ f.plen.toNat = 40 ∧ s.za.face p.val ≠ 1) ∧
    (∃ (s : State) (p : Fin 82), s.za.linkOn p.val = true ∧ s.za.face p.val = 3 ∧ (s.za.link p.val).state ≠ 6 ∧ s.za.injections = []) ∧
    (∃ (s : State) (p : Fin 82) (f : Frame), s.za.takes p.val f ∧ 8 ≤ f.plen.toNat) ∧
    (∃ (s : State) (p : Fin 82) (f : Frame) (q : Endpoint), s.za.takes p.val f ∧ 8 ≤ f.plen.toNat ∧ (s.za.link p.val).state ≠ 6 ∧ (s.za.taken p.val
      f).fromDie p.val f = none ∧ q = ((s.za.taken p.val f).link p.val).ends ∧ (q.echoes.any (fun x => x.1 == word f.body 0) = true) ∧ (word f.body
      0).toNat < 0xED000000 ∧ q.rtt.length < 64) ∧
    (∃ (s : State) (p : Fin 82) (f : Frame) (die : Nat), s.za.takes p.val f ∧ f.plen.toNat = 4 ∧ wf f.body 0 31 8 = 0 ∧ (s.za.taken p.val f).fromDie
      p.val f = some die) ∧
    (∃ (s : State) (die : BitVec 20) (d : DieEntry), s.za.die? die.toNat = some d) ∧
    (∃ (s : State) (p : Fin 82), s.za.linkUp p.val = true) ∧
    (∃ (s : State) (p : Fin 82), s.za.linkUp p.val = true) :=
  ⟨⟨both, 0, toZa za 0 0 1 (dtuMac 8) 0xFFFF 0 [0, 0x32201400, 0x80000008, 0x00010000, 0, 0, 0, 0, 0, 0, 0, 5], 8, test_takes (by decide +kernel),
     by decide +kernel⟩,
   ⟨both, 2, toZa za 2 0 1 (linkMac 2 2) 0xFFFF 0 [0, 0x32201400, 0, 0, 0, 0, 0, 0, 0, 0, 0x8000, 0], 0x32, test_takes (by decide +kernel), by decide +kernel⟩,
   ⟨both, 2, toZa za 2 0 3 (linkMac 2 2) 0xFFFF 0 [0, 5, 5, 5, 5, 5, 5, 5, 5, 0], test_takes (by decide +kernel), by decide +kernel⟩,
   ⟨both, 80, by decide +kernel⟩,
   ⟨both, 2, toZa za 2 0 4 (linkMac 2 2) 0xFFFF 0 [5, 0], test_takes (by decide +kernel), by decide +kernel⟩,
   ⟨zt { za with links := [(2, { linkTo 2 with ends := { richEnds 8 with echoes := [(5, 0)], rtt := List.replicate 63 1 } })] }, 2, toZa za 2 0 5
     (linkMac 2 2) 0xFFFF 0 [5, 2], _, test_takes (by decide +kernel), by decide +kernel, (by decide +kernel), by decide +kernel, rfl, (by decide +kernel)⟩,
   ⟨both, 0, toZa za 0 0 6 (dtuMac 7) 0xFFFF 0 [1], 7, test_takes (by decide +kernel), by decide +kernel⟩,
   ⟨both, 7, die7, by decide +kernel⟩,
   ⟨both, 2, by decide +kernel⟩,
   ⟨both, 0, by decide +kernel⟩⟩

theorem test_witness_ZaLinksSendAndForward :
    (∃ (s : State) (p : Fin 82) (q : Queued), s.za.serving = [] ∧ s.za.tests = [] ∧ (s.za.ptpPort p.val).out = [] ∧ (∀ x ∈ (s.za.link p.val).queue,
      s.za.neverFits p.val x = false) ∧ s.za.pick p.val = some q ∧ q.die = none ∧ s.za.injections = [] ∧ q ∈ (s.za.link p.val).queue) ∧
    (∃ (s : State), s.za.running = true) ∧
    (∃ (s : State), s.za.running = true) ∧
    (∃ (s : State), s.za.running = true) ∧
    (∃ (s : State), s.za.running = true) ∧
    (∃ (s : State), s.za.running = true) ∧
    (∃ (s : State), s.za.running = true) ∧
    (∃ (s : State), s.za.running = true) ∧
    (∃ (s : State), s.za.running = true) ∧
    (∃ (s : State), s.za.running = true) ∧
    (∃ (s : State) (p : Fin 82) (f : Frame), s.za.takes p.val f ∧ f.cls = 5 ∧ f.msg = 1 ∧ traceSound f = false ∧ (s.za.taken p.val f).running = true) ∧
    (∃ (s : State) (p : Fin 82) (f : Frame), s.za.takes p.val f ∧ f.cls = 5 ∧ f.msg = 1 ∧ traceSound f = true ∧ (s.za.taken p.val f).running = true ∧
      (s.za.taken p.val f).bulkDrop p.val ((s.za.taken p.val f).fromDie p.val f) f = none) ∧
    (∃ (s : State) (p : Fin 82) (f : Frame), s.za.takes p.val f ∧ f.cls = 5 ∧ f.msg = 1 ∧ traceSound f = true ∧ (s.za.taken p.val f).running = true ∧
      (s.za.taken p.val f).bulkDrop p.val ((s.za.taken p.val f).fromDie p.val f) f = some .fwdBulkDrop) ∧
    (∃ (s : State), s.za.power.powered = true ∧ s.za.power.pinLow = false ∧ s.za.mayReach s.za.time.nextSlot = true ∧ s.za.power.resetPorts = [] ∧
      s.za.cmds.linkResets = []) :=
  ⟨⟨zt { early with links := [(2, { linkTo 2 with queue := [queued2] })] }, 2, queued2, by decide +kernel⟩,
   ⟨both, by decide +kernel⟩,
   ⟨both, by decide +kernel⟩,
   ⟨both, by decide +kernel⟩,
   ⟨both, by decide +kernel⟩,
   ⟨both, by decide +kernel⟩,
   ⟨both, by decide +kernel⟩,
   ⟨both, by decide +kernel⟩,
   ⟨both, by decide +kernel⟩,
   ⟨both, by decide +kernel⟩,
   ⟨both, 0, toZa za 0 5 1 (dtuMac 7) 0xFFFF 0 (List.replicate 8 1), test_takes (by decide +kernel), by decide +kernel⟩,
   ⟨both, 0, toZa za 0 5 1 (dtuMac 7) 0xFFFF 0 soundTrace, test_takes (by decide +kernel), by decide +kernel⟩,
   ⟨zt { za with forward := { za.forward with full := true } }, 0, toZa za 0 5 1 (dtuMac 7) 0xFFFF 0 soundTrace, test_takes (by decide +kernel), by decide +kernel⟩,
   ⟨zt early, by decide +kernel⟩⟩

theorem test_witness_ZaKeepsNetworkTime :
    (∃ (s : State) (dom : Byte), dom.toNat ≠ s.za.ptpDomain) ∧
    (∃ (s : State) (p : Fin 82) (dom : Byte), s.za.ptpRuns p.val = true ∧ dom.toNat = s.za.ptpDomain) ∧
    (∃ (s : State) (p : Fin 82) (dom : Byte) (src : BitVec 64) (seq : BitVec 16) (ingress : Stamp) (d : Int), s.za.ptpRuns p.val = true ∧ dom.toNat =
      s.za.ptpDomain ∧ (s.za.ptpPort p.val).sync = some (seq, ingress) ∧ s.za.ptp.parent = some p.val ∧ s.za.ptp.parentId = src ∧ (s.za.ptpPort
      p.val).delay = some d ∧ s.za.injections = [] ∧ s.za.time.isSet = true) ∧
    (∃ (s : State) (p : Fin 82) (dom : Byte) (src : BitVec 64) (seq : BitVec 16) (ingress : Stamp), s.za.ptpRuns p.val = true ∧ dom.toNat =
      s.za.ptpDomain ∧ (s.za.ptpPort p.val).sync = some (seq, ingress) ∧ s.za.isParent p.val src = false) ∧
    (∃ (s : State) (p : Fin 82) (dom : Byte), s.za.ptpRuns p.val = true ∧ dom.toNat = s.za.ptpDomain) ∧
    (∃ (s : State) (p : Fin 82) (dom : Byte), s.za.ptpRuns p.val = true ∧ dom.toNat = s.za.ptpDomain ∧ (s.za.ptpPort p.val).state = 2) ∧
    (∃ (s : State) (p : Fin 82), s.za.ptpRuns p.val = true) ∧
    (∃ (s : State) (p : Fin 82), s.za.ptpRuns p.val = true ∧ (s.za.ptpPort p.val).state = 3 ∧ s.za.ptp.sampled = true) ∧
    (∃ (s : State) (p : Fin 82), s.za.ptpRuns p.val = true ∧ (s.za.ptpPort p.val).state = 3 ∧ s.za.ptp.parent = some p.val ∧ s.za.ptp.sampled = false
      ∧ s.za.time.state = .acquire) ∧
    (∃ (s : State) (p : Fin 82), s.za.ptpRuns p.val = true ∧ (s.za.ptpPort p.val).state = 2 ∧ s.za.ptp.parent ≠ some p.val ∧ (s.za.ptpPort
      p.val).syncSeq.toNat % 32 ≠ 0) ∧
    (∃ (s : State) (p : Fin 82) (at_ : Nat) (seq : BitVec 16) (r : List (Nat × PtpOut)), (s.za.ptpPort p.val).out = (at_, .sync seq) :: r ∧
      s.za.ptpMay p.val (.sync seq) = true ∧ s.za.ptpFirst p.val at_ = true) ∧
    (∃ (s : State) (p : Fin 82) (at_ : Nat) (seq : BitVec 16) (r : List (Nat × PtpOut)), (s.za.ptpPort p.val).out = (at_, .delayReq seq) :: r ∧
      s.za.ptpMay p.val (.delayReq seq) = true ∧ s.za.ptpFirst p.val at_ = true) ∧
    (∃ (s : State) (p : Fin 82) (id : BitVec 64) (off : Int) (a : AnnounceData), s.za.ptpRuns p.val = true ∧ s.za.bestPort = some (p.val, a) ∧
      a.identity = id ∧ s.za.ptp.parent ≠ some p.val ∧ off.natAbs ≤ s.za.jumpThr * 65536) ∧
    (∃ (s : State) (p : Fin 82) (id : BitVec 64) (off : Int) (a : AnnounceData), s.za.ptpRuns p.val = true ∧ s.za.bestPort = some (p.val, a) ∧
      a.identity = id ∧ s.za.ptp.parent ≠ some p.val ∧ s.za.time.isSet = true ∧ s.za.jumpThr * 65536 + s.za.time.residual.natAbs / 2 ^ 32 <
      off.natAbs) ∧
    (∃ (s : State), s.za.time.state = .locked ∧ s.za.power.powered = true) ∧
    (∃ (s : State) (a : ArmedStep), s.za.power.powered = true ∧ s.za.time.ticking = true ∧ s.za.time.armed = some a ∧ a.frame = s.za.time.nextFrame ∧
      stepWhole a.s < 0) ∧
    (∃ (s : State) (die : BitVec 20) (d : DieEntry), s.za.die? die.toNat = some d ∧ s.za.running = true ∧ d.timeSync = true ∧ s.za.linkUp d.link =
      true ∧ (∀ p < 82, (s.za.link p).strays = [])) ∧
    (∃ (s : State) (p : Fin 82) (f : Frame) (die : Nat) (d : DieEntry), s.za.takes p.val f ∧ (s.za.taken p.val f).fromDie p.val f = some die ∧ wf
      f.body 0 31 24 = 2 ∧ 18 ≤ f.plen.toNat ∧ (s.za.taken p.val f).die? die = some d ∧ d.echo.count < 63) ∧
    (∃ (s : State) (i : Fin 16) (t : Trigger), s.za.marks[i.val]? = some t ∧ s.za.running = true ∧ t.enabled = true ∧ s.za.mayReach t.next = true) :=
  ⟨⟨both, 1, by decide +kernel⟩,
   ⟨both, 80, 0, by decide +kernel⟩,
   ⟨ptp80 { PtpPort.initial with sync := some (7, 100), delay := some 0 } (some 80), 80, 0, 0, 7, 100, 0, by decide +kernel⟩,
   ⟨ptp80 { PtpPort.initial with sync := some (7, 100) } (some 80), 80, 0, 3, 7, 100, by decide +kernel⟩,
   ⟨both, 80, 0, by decide +kernel⟩,
   ⟨ptp80 { PtpPort.initial with state := 2 } none, 80, 0, by decide +kernel⟩,
   ⟨ptp80 { PtpPort.initial with best := some announce } (some 80), 80, by decide +kernel⟩,
   ⟨zt { za with ptp := { za.ptp with ports := [(80, { PtpPort.initial with state := 3 })], parent := some 80, sampled := true } }, 80, by decide +kernel⟩,
   ⟨zt { (ptp80 { PtpPort.initial with state := 3 } (some 80)).za with time := { za.time with state := .acquire, run := 5 } }, 80, by decide +kernel⟩,
   ⟨ptp80 { PtpPort.initial with state := 2, syncSeq := 31 } none, 80, by decide +kernel⟩,
   ⟨ptp80 { PtpPort.initial with out := [(9, .sync 7)] } none, 80, 9, 7, [], by decide +kernel⟩,
   ⟨ptp80 { PtpPort.initial with out := [(9, .delayReq 7)] } none, 80, 9, 7, [], by decide +kernel⟩,
   ⟨ptp80 { PtpPort.initial with best := some announce } none, 80, 9, 65536000, announce, by decide +kernel⟩,
   ⟨ptp80 { PtpPort.initial with best := some announce } none, 80, 9, -65536001, announce, by decide +kernel⟩,
   ⟨both, by decide +kernel⟩,
   ⟨zt { za with time := { za.time with armed := some { frame := 11, s := -1048576 } } }, { frame := 11, s := -1048576 }, by decide +kernel⟩,
   ⟨both, 7, die7, by decide +kernel⟩,
   ⟨zt { za with dies := [{ die7 with echo := { count := 62, sum := 5, mean := none } }] }, 0, toZa za 0 6 2 (dtuMac 7) 0xFFFF 0 [0x02000000, 0, 0,
     11534000, 0, 0, 0, 0], 7, (((zt { za with dies := [{ die7 with echo := { count := 62, sum := 5, mean := none } }] }).za.taken 0 (toZa za 0 6 2
     (dtuMac 7) 0xFFFF 0 [0x02000000, 0, 0, 11534000, 0, 0, 0, 0])).die? 7).getD die7, test_takes (by decide +kernel), by decide +kernel⟩,
   ⟨zt { za with marks := za.marks.set 15 { Trigger.initial 0x80000000 with next := 11 * 2 ^ 20 } }, 15, { Trigger.initial 0x80000000 with next := 11 * 2 ^ 20 },
     by decide +kernel⟩⟩

theorem test_witness_ContributionsAreTested :
    (∃ (s : State) (p : Fin 82) (f : Frame) (arrival : Nat) (die : Nat) (e : Nat) (z : Za) (w : FrameWork), s.za.bringsContrib p.val f arrival z die
      ∧ z.contributes (f.body.take 136) e w ∧ (word (f.body.take 136) 1).toNat ≠ w.frame % 2 ^ 32) ∧
    (∃ (s : State) (p : Fin 82) (f : Frame) (arrival : Nat) (die : Nat) (e : Nat) (z : Za) (w : FrameWork), s.za.bringsContrib p.val f arrival z die
      ∧ z.contributes (f.body.take 136) e w ∧ (word (f.body.take 136) 1).toNat = w.frame % 2 ^ 32 ∧ (cDie (f.body.take 136) ≠ die ∨ w.view.rankOf die
      ≠ some (cRank (f.body.take 136)))) ∧
    (∃ (s : State) (p : Fin 82) (f : Frame) (arrival : Nat) (die : Nat) (e : Nat) (z : Za) (w : FrameWork), s.za.bringsContrib p.val f arrival z die
      ∧ z.contributes (f.body.take 136) e w ∧ (word (f.body.take 136) 1).toNat = w.frame % 2 ^ 32 ∧ (cDie (f.body.take 136) ≠ die ∨ w.view.rankOf die
      ≠ some (cRank (f.body.take 136)))) ∧
    (∃ (s : State) (p : Fin 82) (f : Frame) (arrival : Nat) (die : Nat) (e : Nat) (z : Za) (w : FrameWork) (x : Contribution), s.za.bringsContrib
      p.val f arrival z die ∧ z.contributes (f.body.take 136) e w ∧ (word (f.body.take 136) 1).toNat = w.frame % 2 ^ 32 ∧ cDie (f.body.take 136) =
      die ∧ w.view.rankOf die = some (cRank (f.body.take 136)) ∧ x ∈ w.contribs ∧ x.die = die ∧ x.cluster = cCluster (f.body.take 136)) ∧
    (∃ (s : State) (p : Fin 82) (f : Frame) (arrival : Nat) (die : Nat) (e : Nat) (z : Za) (w : FrameWork), s.za.bringsContrib p.val f arrival z die
      ∧ z.contributes (f.body.take 136) e w ∧ (word (f.body.take 136) 1).toNat = w.frame % 2 ^ 32 ∧ cDie (f.body.take 136) = die ∧ w.view.rankOf die
      = some (cRank (f.body.take 136)) ∧ (∀ x ∈ w.contribs, ¬(x.die = die ∧ x.cluster = cCluster (f.body.take 136))) ∧ 917504 < arrival) ∧
    (∃ (s : State) (p : Fin 82) (f : Frame) (arrival : Nat) (die : Nat) (e : Nat) (z : Za) (w : FrameWork), s.za.bringsContrib p.val f arrival z die
      ∧ z.contributes (f.body.take 136) e w ∧ z.contribTests (f.body.take 136) die arrival w) ∧
    (∃ (s : State) (entry : Fin 1024) (w : FrameWork) (c : Ctx), s.za.work entry.val = some w ∧ s.za.ctx? entry.val = some c ∧ w.closed = false ∧
      s.za.enginesRun = true ∧ s.za.dueAt 917504 = true) :=
  ⟨⟨busy, 0, contribFrame 8 0 7, 5, 7, 1, (busy.za.taken 0 (contribFrame 8 0 7)).untilNs 5, work9 .empty,
     (by constructor; exact test_takes (by decide +kernel); all_goals decide +kernel), by constructor <;> decide +kernel, (by decide +kernel)⟩,
   ⟨busy, 0, contribFrame 9 0 8, 5, 7, 1, (busy.za.taken 0 (contribFrame 9 0 8)).untilNs 5, work9 .empty,
     (by constructor; exact test_takes (by decide +kernel); all_goals decide +kernel), by constructor <;> decide +kernel, (by decide +kernel)⟩,
   ⟨busy, 0, contribFrame 9 1 7, 5, 7, 1, (busy.za.taken 0 (contribFrame 9 1 7)).untilNs 5, work9 .empty,
     (by constructor; exact test_takes (by decide +kernel); all_goals decide +kernel), by constructor <;> decide +kernel, (by decide +kernel)⟩,
   ⟨working { work9 .empty with contribs := [contrib0] }, 0, contribFrame 9 0 7, 5, 7, 1, ((working { work9 .empty with contribs := [contrib0] }).za.taken
     0 (contribFrame 9 0 7)).untilNs 5, { work9 .empty with contribs := [contrib0] }, contrib0,
     (by constructor; exact test_takes (by decide +kernel); all_goals decide +kernel), by constructor <;> decide +kernel, (by decide +kernel)⟩,
   ⟨busy, 0, contribFrame 9 0 7, 917505, 7, 1, (busy.za.taken 0 (contribFrame 9 0 7)).untilNs 917505, work9 .empty,
     (by constructor; exact test_takes (by decide +kernel); all_goals decide +kernel), by constructor <;> decide +kernel, (by decide +kernel)⟩,
   ⟨busy, 0, contribFrame 9 0 7, 917504, 7, 1, (busy.za.taken 0 (contribFrame 9 0 7)).untilNs 917504, work9 .empty,
     (by constructor; exact test_takes (by decide +kernel); all_goals decide +kernel), by constructor <;> decide +kernel,
     by constructor <;> decide +kernel⟩,
   ⟨busy, 1, work9 .empty, ctx5, by decide +kernel⟩⟩

theorem test_witness_ResultsClimbAndReturn :
    (∃ (s : State) (p : Fin 82) (f : Frame) (arrival : Nat) (h : Nat) (e : Nat) (z : Za) (ws : List W) (r : PodRec) (w : FrameWork) (q : Pod),
      (s.za.untilNs arrival).bringsResult p.val f 2 z ws r e w q ∧ (z.tree w.view).childHeight r.height r.node = some h ∧ (∀ x ∈ q.children, x.height
      ≠ h) ∧ (q.rerun ≠ 0 ∨ arrival ≤ 917504 + 4096 * h) ∧ recSound ws = true ∧ (r.kind = 0 → r.sec.blocks.map (·.exp) = q.exps)) ∧
    (∃ (s : State) (p : Fin 82) (f : Frame) (arrival : Nat) (h : Nat) (e : Nat) (z : Za) (ws : List W) (r : PodRec) (w : FrameWork) (q : Pod),
      (s.za.untilNs arrival).bringsResult p.val f 2 z ws r e w q ∧ (z.tree w.view).childHeight r.height r.node = some h ∧ (∀ x ∈ q.children, x.height
      = h → x.cause = 0 ∧ x.result = none) ∧ q.rerun = 0 ∧ 917504 + 4096 * h < arrival ∧ w.begun = z.time.begun) ∧
    (∃ (s : State) (entry : Fin 1024) (h : Fin 13) (w : FrameWork) (c : Ctx), s.za.work entry.val = some w ∧ s.za.ctx? entry.val = some c ∧ 0 < h.val
      ∧ h.val ≤ (s.za.tree w.view).top ∧ (s.za.tree w.view).hosts h.val = true ∧ ((s.za.tree w.view).childHost h.val).isSome = true ∧ s.za.enginesRun
      = true ∧ s.za.dueAt (917504 + 4096 * h.val) = true) ∧
    (∃ (s : State) (p : Fin 82) (f : Frame) (e : Nat) (z : Za) (ws : List W) (r : PodRec) (w : FrameWork) (q : Pod), s.za.bringsResult p.val f 3 z ws
      r e w q ∧ z.frozenFull = false ∧ recSound ws = true ∧ r.final = true ∧ q.final = none) ∧
    (∃ (s : State) (p : Fin 82) (f : Frame) (e : Nat) (z : Za) (ws : List W) (r : PodRec) (w : FrameWork) (q : Pod), s.za.bringsResult p.val f 3 z ws
      r e w q ∧ z.frozenFull = true) ∧
    (∃ (s : State) (entry : Fin 1024) (w : FrameWork) (c : Ctx) (q : Pod), s.za.work entry.val = some w ∧ s.za.ctx? entry.val = some c ∧
      (w.pods.find? (fun p => p.waited && !p.slotted && !p.done && p.rerun == 0) = some q) ∧ s.za.enginesRun = true ∧ s.za.mayTakeSlot entry.val c =
      true) ∧
    (∃ (s : State) (entry : Fin 1024) (n : Nat) (i : Fin 81) (w : FrameWork) (q : Pod) (r : PodRec), s.za.work? entry.val n = some w ∧ (w.pods.filter
      (fun p => p.index == i.val)).getLast? = some q ∧ q.rerun = 0 ∧ q.final = some r ∧ r.overflow = true ∧ s.za.time.begun = w.begun + 1 ∧
      s.za.enginesRun = true) ∧
    (∃ (s : State) (entry : Fin 1024) (ch : Fin 16) (c : Ctx), s.za.ctx? entry.val = some c ∧ s.za.enginesRun = true ∧ 0 < (s.za.expiredSeq c ch.val
      + 2 ^ 32 - c.next.getD ch.val 0) % 2 ^ 32 ∧ (s.za.expiredSeq c ch.val + 2 ^ 32 - c.next.getD ch.val 0) % 2 ^ 32 < 2 ^ 31) :=
  ⟨test_host (fun n => ⟨fab 1, 2, resultFrame (fab 1).za 2 (rec80 false 1), 5, 1, 1, ((fab 1).za.untilNs 5).taken 2 (resultFrame (fab 1).za 2 (rec80
     false 1)), (rec80 false 1).words, rec80 false 1, fabWork pod80, pod80,
     (by constructor; exact test_takes (by decide +kernel); all_goals decide +kernel), (test_two n _ (test_tree pod80 (by decide +kernel) (by
     decide +kernel) (by decide +kernel) (by decide +kernel) n)).1, (by decide +kernel)⟩) (fun n => ⟨fab 2, 2, resultFrame (fab 2).za 2 (rec80 false 1), 5, 1, 1,
     ((fab 2).za.untilNs 5).taken 2 (resultFrame (fab 2).za 2 (rec80 false 1)), (rec80 false 1).words, rec80 false 1, fabWork pod80, pod80,
     (by constructor; exact test_takes (by decide +kernel); all_goals decide +kernel), (test_two n _ (test_tree pod80 (by decide +kernel) (by
     decide +kernel) (by decide +kernel) (by decide +kernel) n)).1, (by decide +kernel)⟩),
   test_host (fun n => ⟨fab 1, 2, resultFrame (fab 1).za 2 (rec80 false 1), 921601, 1, 1, ((fab 1).za.untilNs 921601).taken 2 (resultFrame (fab 1).za
     2 (rec80 false 1)), (rec80 false 1).words, rec80 false 1, fabWork pod80, pod80,
     (by constructor; exact test_takes (by decide +kernel); all_goals decide +kernel), (test_two n _ (test_tree pod80 (by decide +kernel) (by
     decide +kernel) (by decide +kernel) (by decide +kernel) n)).1, (by decide +kernel)⟩) (fun n => ⟨fab 2, 2, resultFrame (fab 2).za 2 (rec80 false 1), 921601, 1,
     1, ((fab 2).za.untilNs 921601).taken 2 (resultFrame (fab 2).za 2 (rec80 false 1)), (rec80 false 1).words, rec80 false 1, fabWork pod80, pod80,
     (by constructor; exact test_takes (by decide +kernel); all_goals decide +kernel), (test_two n _ (test_tree pod80 (by decide +kernel) (by
     decide +kernel) (by decide +kernel) (by decide +kernel) n)).1, (by decide +kernel)⟩),
   test_host (fun n => ⟨fab 1, 1, 1, fabWork pod80, ctx5, by decide +kernel, by decide +kernel, (by decide +kernel), (test_two n _ (test_tree pod80 rfl (by decide +kernel) (by decide +kernel)
     rfl n)).2.1, (test_two n _ (test_tree pod80 rfl (by decide +kernel) (by decide +kernel) rfl n)).2.2.1, (test_two n _ (test_tree pod80 rfl (by
     decide +kernel) (by decide +kernel) rfl n)).2.2.2, by decide +kernel⟩) (fun n => ⟨fab 2, 1, 1, fabWork pod80, ctx5, by decide +kernel, by decide +kernel, (by decide +kernel), (test_two n _ (test_tree
     pod80 rfl (by decide +kernel) (by decide +kernel) rfl n)).2.1, (test_two n _ (test_tree pod80 rfl (by decide +kernel) (by decide +kernel) rfl
     n)).2.2.1, (test_two n _ (test_tree pod80 rfl (by decide +kernel) (by decide +kernel) rfl n)).2.2.2, by decide +kernel⟩),
   ⟨working (work80 pod80), 2, resultFrame za 3 (rec80 true 0), 1, (working (work80 pod80)).za.taken 2 (resultFrame za 3 (rec80 true 0)), (rec80 true
     0).words, rec80 true 0, work80 pod80, pod80, (by constructor; exact test_takes (by decide +kernel); all_goals decide +kernel), by decide +kernel⟩,
   ⟨zt { za with works := [work80 pod80], frost := { za.frost with state := 2, full := true } }, 2, resultFrame za 3 (rec80 true 0), 1, (zt { za with works := [work80 pod80], frost := { za.frost with state := 2, full := true } }).za.taken
     2 (resultFrame za 3 (rec80 true 0)), (rec80 true 0).words, rec80 true 0, work80 pod80, pod80,
     (by constructor; exact test_takes (by decide +kernel); all_goals decide +kernel), by decide +kernel⟩,
   ⟨working (work80 { pod80 with slotted := false, waited := true }), 1, work80 { pod80 with slotted := false, waited := true }, ctx5, { pod80 with slotted := false, waited := true },
     by decide +kernel⟩,
   ⟨zt { za with time := { za.time with begun := 4 }, works := [work80 overflowed] }, 1, 9, 0, work80 overflowed, overflowed, overRec, by decide +kernel⟩,
   ⟨withCtx5 { ctx5 with base := (ctx5.base).set 3 2 }, 1, 3, { ctx5 with base := (ctx5.base).set 3 2 }, by decide +kernel⟩⟩

theorem test_witness_RowsAndItemsAreScored :
    (∃ (s : State) (entry : Fin 1024) (tile : Bool) (index : Nat) (w : FrameWork) (n : Entity), s.za.work entry.val = some w ∧ (w.view.entities
      tile)[index]? = some n ∧ w.view.featPlan tile ≠ [] ∧ w.row? tile n.key = none ∧ s.za.enginesRun = true ∧ w.localReady (w.view.featPlan tile) n
      = true ∧ (∀ i ∈ fleetPods (w.view.featPlan tile) n, (w.final i).isSome = true)) ∧
    (∃ (s : State) (entry : Fin 1024) (tile : Bool) (index : Nat) (w : FrameWork) (n : Entity), s.za.work entry.val = some w ∧ (w.view.entities
      tile)[index]? = some n ∧ w.view.featPlan tile ≠ [] ∧ w.row? tile n.key = none ∧ s.za.enginesRun = true ∧ w.localReady (w.view.featPlan tile) n
      = true ∧ (∃ i ∈ fleetPods (w.view.featPlan tile) n, w.final i = none) ∧ w.begun ≠ 0 ∧ s.za.dueAt 1000000 = true) ∧
    (∃ (s : State) (entry : Fin 1024) (score : Fin 256) (entity : Nat) (tree : Nat) (lane : Fin 4096) (w : FrameWork) (sec : Sec) (row : FeatRow),
      s.za.walkReady entry.val score.val entity tree lane.val w sec row ∧ w.item? score.val entity tree = none ∧ s.za.checkDue w sec entity tree =
      false) ∧
    (∃ (s : State) (entry : Fin 1024) (score : Fin 256) (entity : Nat) (tree : Nat) (l : Nat) (lane : Fin 4096) (u : WalkUpset) (w : FrameWork) (sec
      : Sec) (row : FeatRow) (x : ItemDone), s.za.walkReady entry.val score.val entity tree lane.val w sec row ∧ w.item? score.val entity tree = some
      x ∧ s.za.checkDue w sec entity tree = true ∧ x.checkLane = none ∧ s.za.checkerFor x.lane = some l ∧ s.za.injections = [] ∧ u.checker = none ∧
      x.leaf = (walkTree sec.words row.values tree).leaf ∧ x.value = (walkTree sec.words row.values tree).value ∧ x.miss = (walkTree sec.words
      row.values tree).miss ∧ x.nan = (walkTree sec.words row.values tree).nan) ∧
    (∃ (s : State) (entry : Fin 1024) (w : FrameWork) (d : Dispute) (rest : List Dispute), s.za.scoring entry.val = some w ∧ (s.za.ctx?
      entry.val).isSome = true ∧ w.disputes = d :: rest ∧ s.za.enginesRun = true ∧ s.za.laneLive d.lane = true ∧ s.za.laneLive d.checkLane = true) ∧
    (∃ (s : State) (entry : Fin 1024) (w : FrameWork) (d : Dispute) (rest : List Dispute), s.za.scoring entry.val = some w ∧ (s.za.ctx?
      entry.val).isSome = true ∧ w.disputes = d :: rest ∧ s.za.enginesRun = true ∧ s.za.laneLive d.lane = true ∧ s.za.laneLive d.checkLane = true) ∧
    (∃ (s : State) (entry : Fin 1024) (w : FrameWork) (d : Dispute) (rest : List Dispute), s.za.scoring entry.val = some w ∧ (s.za.ctx?
      entry.val).isSome = true ∧ w.disputes = d :: rest ∧ s.za.enginesRun = true ∧ s.za.laneLive d.lane = true ∧ s.za.laneLive d.checkLane = true) ∧
    (∃ (s : State) (entry : Fin 1024) (score : Fin 256) (j : Nat) (tile : Fin 32) (w : FrameWork) (sec : Sec), s.za.batchReady entry.val score.val j
      tile.val w sec ∧ prgPre sec.words = true ∧ (score.val, j) ∉ w.preDone) ∧
    (∃ (s : State) (entry : Fin 1024) (score : Fin 256) (j : Nat) (tile : Fin 32) (w : FrameWork) (sec : Sec), s.za.batchReady entry.val score.val j
      tile.val w sec ∧ prgPre sec.words = false ∧ (score.val, j) ∉ w.batches ∧ (∀ p ∈ programs (s.za.secs w) true, p.tile = sec.tile → (p.score, j) ∈
      w.preDone) ∧ (w.callsReady ((walked (s.za.secs w)).filter (fun x => x.slot == sec.slot && sec.calls.contains x.idx)) ((w.rows.filter (fun r =>
      r.tile == sec.tile && decide (r.entity / 64 = j))).filter (·.valid)) = true)) ∧
    (∃ (s : State) (entry : Fin 1024) (w : FrameWork), s.za.scoring entry.val = some w ∧ s.za.frameDone w = true ∧ (∀ x ∈ w.withheld, x.2 ≠ 0) ∧
      s.za.enginesRun = true) :=
  ⟨⟨working (planned [extDesc]), 1, false, 0, planned [extDesc], { tile := false, die := 7, cluster := 0 }, by decide +kernel⟩,
   ⟨working (planned [[0x80000000, 0x20000000, 0, 0]]), 1, false, 0, planned [[0x80000000, 0x20000000, 0, 0]], { tile := false, die := 7, cluster := 0 },
     by decide +kernel, by decide +kernel, (by decide +kernel), by decide +kernel, by decide +kernel, (by decide +kernel), ⟨0, by decide +kernel, by decide +kernel⟩, by decide +kernel⟩,
   ⟨scoring (imageOf 1 ensemble) (scored [rowOf 0]), 1, 0, 0, 0, 5, scored [rowOf 0], secOf (imageOf 1 ensemble), rowOf 0,
     by constructor <;> decide +kernel, by decide +kernel⟩,
   ⟨scoring (imageOf 1 ensemble) { scored [rowOf 9] with items := [walk9] }, 1, 0, 9, 0, 1029, 5, { primary := none, checker := none, reference := none },
     { scored [rowOf 9] with items := [walk9] }, secOf (imageOf 1 ensemble), rowOf 9, walk9, by constructor <;> decide +kernel, by decide +kernel⟩,
   ⟨scoring (imageOf 1 ensemble) { scored [rowOf 9] with items := [walk9], disputes := [dispute 1 2 1] }, 1, { scored [rowOf 9] with items := [walk9], disputes := [dispute 1 2 1] },
     dispute 1 2 1, [], by decide +kernel⟩,
   ⟨scoring (imageOf 1 ensemble) { scored [rowOf 9] with items := [walk9], disputes := [dispute 2 1 1] }, 1, { scored [rowOf 9] with items := [walk9], disputes := [dispute 2 1 1] },
     dispute 2 1 1, [], by decide +kernel⟩,
   ⟨scoring (imageOf 1 ensemble) { scored [rowOf 9] with items := [walk9], disputes := [dispute 0 1 2] }, 1, { scored [rowOf 9] with items := [walk9], disputes := [dispute 0 1 2] },
     dispute 0 1 2, [], by decide +kernel⟩,
   ⟨scoring (imageOf 3 (program true)) (scored [rowOf 0]), 1, 0, 0, 0, scored [rowOf 0], secOf (imageOf 3 (program true)),
     (by constructor <;> first | decide +kernel | exact ⟨0, by decide +kernel, by decide +kernel⟩), by decide +kernel⟩,
   ⟨scoring (imageOf 3 (program false)) (scored [rowOf 0]), 1, 0, 0, 0, scored [rowOf 0], secOf (imageOf 3 (program false)),
     (by constructor <;> first | decide +kernel | exact ⟨0, by decide +kernel, by decide +kernel⟩), by decide +kernel⟩,
   ⟨scoring (imageOf 1 ensemble) { scored [rowOf 0] with items := [{ walk9 with entity := 0 }] }, 1, { scored [rowOf 0] with items := [{ walk9 with entity := 0 }] },
     by decide +kernel⟩⟩

theorem test_witness_DetectorsJudgeAndReturnBands :
    (∃ (r : DetRec) (high : Bool) (n : Nat), n = min ((if (if high then 1 else 2) = r.runDir then r.run else 0) + 1) 63) ∧
    (∃ (r : DetRec) (high : Bool) (n : Nat), n = min ((if (if high then 1 else 2) = r.runDir then r.run else 0) + 1) 63) ∧
    (∃ (r : DetRec), (r.state = .suspect ∨ r.state = .confirmed)) ∧
    (∃ (r : DetRec), (r.state = .suspect ∨ r.state = .confirmed)) ∧
    (∃ (s : State) (entry : Fin 1024) (w : FrameWork) (c : Ctx), s.za.work entry.val = some w ∧ s.za.ctx? entry.val = some c ∧ w.scored = true ∧
      w.detected = false ∧ s.za.enginesRun = true) ∧
    (∃ (s : State) (entry : Fin 1024) (w : FrameWork) (c : Ctx), s.za.work entry.val = some w ∧ s.za.ctx? entry.val = some c ∧ w.detected = true ∧
      w.bands = [] ∧ s.za.enginesRun = true ∧ 4 ∉ s.za.fences.cores) ∧
    (∃ (s : State) (entry : Fin 1024) (die : BitVec 20) (w : FrameWork) (c : Ctx) (d : DieEntry) (b : Nat × List (List W)) (sl : DtuSlot), s.za.work
      entry.val = some w ∧ s.za.ctx? entry.val = some c ∧ s.za.die? die.toNat = some d ∧ (w.bands.find? (fun x => x.1 == die.toNat) = some b) ∧
      (d.slots.filter (fun x => x.busyFrom s.za.frameNow)).find? (fun x => x.ctx == c.id && x.gen == c.gen) = some sl ∧ die.toNat ∉ w.params ∧
      d.admitted = true ∧ d.fenced = none ∧ s.za.isHeld d = false ∧ s.za.enginesRun = true ∧ s.za.lowerWaits d sl.slot = false) :=
  ⟨⟨detRec, true, 1, by decide +kernel⟩,
   ⟨{ detRec with run := 63, runDir := 2 }, false, 63, by decide +kernel⟩,
   ⟨{ detRec with state := .suspect }, Or.inl rfl⟩,
   ⟨{ detRec with state := .confirmed, clearRun := 255 }, Or.inr rfl⟩,
   ⟨working { scored [rowOf 0] with scored := true }, 1, { scored [rowOf 0] with scored := true }, ctx5, by decide +kernel⟩,
   ⟨working { scored [rowOf 0] with detected := true }, 1, { scored [rowOf 0] with detected := true }, ctx5, by decide +kernel⟩,
   ⟨working banded, 1, 7, banded, ctx5, die7, (7, List.replicate 256 []), { slot := 1, ctx := 5, gen := 1, rank := 0, first := 4, last := none },
     by decide +kernel⟩⟩

theorem test_witness_ZaTickBeginsTheFrame :
    (∃ (s : State), (s.za.time.ticking = false ∨ s.za.power.powered = false)) ∧
    (∃ (s : State), (s.za.time.ticking = false ∨ s.za.power.powered = false)) ∧
    (∃ (s : State), s.za.time.ticking = true ∧ s.za.power.powered = true ∧ s.za.time.stepDue = none ∧ s.za.running = false) ∧
    (∃ (s : State), s.za.time.ticking = true ∧ s.za.power.powered = true ∧ s.za.time.stepDue = none ∧ s.za.running = true) :=
  ⟨⟨zt { za with time := { za.time with ticking := false } }, Or.inl rfl⟩,
   ⟨zt { za with power := { za.power with powered := false } }, Or.inr rfl⟩,
   ⟨zt { za with boot := { za.boot with phase := 3 } }, by decide +kernel⟩,
   ⟨both, by decide +kernel⟩⟩

theorem test_witness_ImagesAreFetchedPlacedAndCompared :
    (∃ (s : State) (h : HuskCmd) (z : Za) (handle : W) (e : Nat) (c : Ctx), s.za.begins .modelLoad h z handle ∧ z.cmdCtx h = some (e, c) ∧ z.earliest
      c ≤ z.frameOf (huskP0 h) ∧ z.slot? e (huskP1 h % 16) = none ∧ word (huskPay h) 6 = 0 ∧ word (huskPay h) 7 = 0 ∧ wf (huskPay h) 4 31 16 ≤ 4095 ∧
      wf (huskPay h) 4 15 0 ≤ 4095 ∧ wf (huskPay h) 5 31 16 ≤ 4095 ∧ wf (huskPay h) 5 15 0 ≤ 4095) ∧
    (∃ (s : State) (p : Fin 82) (f : Frame) (z : Za) (e : Nat) (sl : Nat) (a : ModelArea) (c : Ctx) (x : ModelFetch), s.za.bringsFetch p.val f 2 z ∧
      z.fetchSlot f = some (e, sl) ∧ z.coming e sl = some a ∧ z.ctx? e = some c ∧ a.fetch = some x ∧ x.offered = false ∧ (a.handle = 0 ∨ z.modelPages
      e + pagesOf (word f.body 7).toNat ≤ c.q.modelPages)) ∧
    (∃ (s : State) (p : Fin 82) (f : Frame) (z : Za) (e : Nat) (sl : Nat) (a : ModelArea) (c : Ctx) (x : ModelFetch) (src : FetchSource) (rest : List
      FetchSource), s.za.bringsFetch p.val f 3 z ∧ z.fetchSlot f = some (e, sl) ∧ z.coming e sl = some a ∧ z.ctx? e = some c ∧ a.fetch = some x ∧
      x.left = src :: rest) ∧
    (∃ (s : State) (p : Fin 82) (f : Frame) (z : Za) (e : Nat) (sl : Nat) (a : ModelArea) (c : Ctx) (x : ModelFetch) (data : List Byte),
      s.za.bringsFetch p.val f 4 z ∧ z.fetchSlot f = some (e, sl) ∧ z.coming e sl = some a ∧ z.ctx? e = some c ∧ a.fetch = some x ∧ x.offered = true
      ∧ data = ((bytesOf f.body).take f.plen.toNat).drop 32 ∧ (word f.body 7).toNat = 4 * a.image.length ∧ 4 * a.image.length < a.imageLen ∧ 4 *
      a.image.length + data.length ≤ a.imageLen ∧ (data.length % 4 = 0 ∨ 4 * a.image.length + data.length = a.imageLen)) ∧
    (∃ (s : State) (p : Fin 82) (f : Frame) (z : Za) (e : Nat) (sl : Nat) (a : ModelArea) (c : Ctx) (x : ModelFetch) (data : List Byte),
      s.za.bringsFetch p.val f 4 z ∧ z.fetchSlot f = some (e, sl) ∧ z.coming e sl = some a ∧ z.ctx? e = some c ∧ a.fetch = some x ∧ x.offered = true
      ∧ data = ((bytesOf f.body).take f.plen.toNat).drop 32 ∧ (word f.body 7).toNat = 4 * a.image.length ∧ 4 * a.image.length < a.imageLen ∧ 4 *
      a.image.length + data.length ≤ a.imageLen ∧ (data.length % 4 = 0 ∨ 4 * a.image.length + data.length = a.imageLen)) ∧
    (∃ (s : State) (p : Fin 82) (f : Frame) (z : Za) (e : Nat) (sl : Nat) (a : ModelArea) (c : Ctx) (x : ModelFetch), s.za.bringsFetch p.val f 4 z ∧
      z.fetchSlot f = some (e, sl) ∧ z.coming e sl = some a ∧ z.ctx? e = some c ∧ a.fetch = some x ∧ x.offered = true ∧ 4 * a.image.length < (word
      f.body 7).toNat ∧ 4 * a.image.length < a.imageLen ∧ x.gaps < 4) ∧
    (∃ (s : State) (entry : Fin 1024) (sl : Fin 16) (a : ModelArea) (c : Ctx) (x : ModelFetch) (src : FetchSource) (rest : List FetchSource),
      s.za.coming entry.val sl.val = some a ∧ s.za.ctx? entry.val = some c ∧ a.fetching = true ∧ s.za.enginesRun = true ∧ a.fetch = some x ∧ x.left =
      src :: rest) ∧
    (∃ (s : State) (entry : Fin 1024) (sl : Fin 16) (a : ModelArea) (c : Ctx) (tiles : List (Nat × List Nat)), s.za.coming entry.val sl.val = some a
      ∧ s.za.ctx? entry.val = some c ∧ a.state = .verifying ∧ s.za.enginesRun = true ∧ imageDigest ((bytesOf a.image).take a.imageLen) = a.digest ∧
      imageFault c a = none ∧ (s.za.placeTiles c.q.detCost a.image ((sectsOf a.image).filter (fun x => x.kind == 3)) [] [] = .inl tiles) ∧ (a.handle
      = 0 ∨ s.za.modelCost entry.val sl.val c.q.detCost a.image ≤ c.q.tensorCost ∧ s.za.statePages entry.val c.plans.det ≤ 3968)) ∧
    (∃ (s : State) (entry : Fin 1024) (sl : Fin 16) (a : ModelArea) (c : Ctx) (x : ModelFetch) (src : FetchSource) (rest : List FetchSource),
      s.za.coming entry.val sl.val = some a ∧ s.za.ctx? entry.val = some c ∧ a.state = .verifying ∧ s.za.enginesRun = true ∧ imageDigest ((bytesOf
      a.image).take a.imageLen) ≠ a.digest ∧ a.fetch = some x ∧ x.left = src :: rest) ∧
    (∃ (s : State) (entry : Fin 1024) (sl : Fin 16) (a : ModelArea), s.za.coming entry.val sl.val = some a ∧ a.state = .placing ∧ s.za.enginesRun =
      true) ∧
    (∃ (s : State) (h : HuskCmd) (z : Za) (handle : W) (e : Nat) (c : Ctx) (m : ModelSlot) (a : ModelArea) (sec : Sec) (rows : List FeatRow),
      s.za.begins .modelQuery h z handle ∧ z.cmdCtx h = some (e, c) ∧ bit h.w6 31 = false ∧ z.slot? e (fld h.w6 7 4) = some m ∧ m.cur = some a ∧
      a.state = .current ∧ (a.secs (fld h.w6 7 4)).find? (fun x => x.idx == fld h.w6 3 0) = some sec ∧ (sec.kind = 3 → prgPre sec.words = false) ∧ (∀
      k ∈ huskPay h, bit k 26 = sec.tile) ∧ (huskPay h).map (fun k => ((z.works.filter (fun w => w.entry == e)).filterMap (fun w => (w.row? sec.tile
      k).filter (·.valid))).getLast?) = rows.map some) ∧
    (∃ (s : State) (p : Fin 82) (f : Frame) (z : Za) (e : Nat) (n : Nat) (sv : Serving) (first : List Byte), s.za.bringsFetch p.val f 1 z ∧ (∀ x ∈
      z.serving, ¬(x.peer = f.src ∧ x.link = p.val ∧ x.hdr = f.body.take 7)) ∧ z.declineWhy p.val f = none ∧ z.entryOf (wf f.body 2 31 16) (wf f.body
      2 15 8) = some e ∧ sv = { peer := f.src, link := p.val, fetchId := word f.body 1, model := some (e, wf f.body 2 7 4), offset := (word f.body 7).toNat, hdr := f.body.take 7 }
      ∧ z.servedFrom sv = some (n, first)) ∧
    (∃ (s : State) (p : Fin 82) (f : Frame) (z : Za) (why : Nat), s.za.bringsFetch p.val f 1 z ∧ (∀ x ∈ z.serving, ¬(x.peer = f.src ∧ x.link = p.val
      ∧ x.hdr = f.body.take 7)) ∧ z.declineWhy p.val f = some why) ∧
    (∃ (s : State) (p : Fin 82) (f : Frame) (z : Za) (why : Nat), s.za.bringsFetch p.val f 1 z ∧ (∀ x ∈ z.serving, ¬(x.peer = f.src ∧ x.link = p.val
      ∧ x.hdr = f.body.take 7)) ∧ z.declineWhy p.val f = some why) ∧
    (∃ (s : State) (f : Frame) (z : Za) (ws : List W) (e : Nat) (n : Nat) (m : ModelSlot) (a : ModelArea) (c : Ctx) (v : CtxView) (w : FrameWork),
      s.za.bringsReplica f 0 z ws e m a ∧ n = z.frameOf (word ws 4).toNat ∧ n % 64 = 0 ∧ z.work e = some w ∧ w.frame = n ∧ z.ctx? e = some c ∧
      (c.views.find? (fun x => x.frame == n) = some v) ∧ wf ws 1 23 12 ∈ z.replicaGroup v ∧ (∀ r ∈ z.replicas, ¬(r.entry = e ∧ r.slot = wf ws 0 23 20
      ∧ r.frame = n)) ∧ (∃ k ∈ z.replicaGroup v, k ≠ wf ws 1 23 12)) ∧
    (∃ (s : State) (entry : Fin 1024) (sl : Fin 16) (r : Replica), (s.za.replicas.find? (fun x => x.entry == entry.val && x.slot == sl.val) = some r)
      ∧ s.za.dueAt 917504 = true ∧ s.za.enginesRun = true) ∧
    (∃ (s : State) (f : Frame) (z : Za) (ws : List W) (e : Nat) (n : Nat) (m : ModelSlot) (a : ModelArea) (c : Ctx) (w : FrameWork),
      s.za.bringsReplica f 1 z ws e m a ∧ n = z.frameOf (word ws 4).toNat ∧ z.ctx? e = some c ∧ z.work? e n = some w ∧ (wf ws 0 23 20, 0) ∈
      w.withheld) ∧
    (∃ (s : State) (f : Frame) (z : Za) (ws : List W) (e : Nat) (n : Nat) (m : ModelSlot) (a : ModelArea) (c : Ctx) (w : FrameWork),
      s.za.bringsReplica f 1 z ws e m a ∧ n = z.frameOf (word ws 4).toNat ∧ z.ctx? e = some c ∧ z.work? e n = some w ∧ (wf ws 0 23 20, 0) ∈
      w.withheld) :=
  ⟨⟨both, hz .modelLoad 5 1 12 0 [1, 0x00010000, 0, 0, 0x00020000, 0, 0, 0], (begun both.za .modelLoad (hz .modelLoad 5 1 12 0 [1, 0x00010000, 0, 0,
     0x00020000, 0, 0, 0])).1, (begun both.za .modelLoad (hz .modelLoad 5 1 12 0 [1, 0x00010000, 0, 0, 0x00020000, 0, 0, 0])).2, 1, ctx5, test_begins
     (by constructor <;> first | exact test_crc .. | decide +kernel) (by decide +kernel) (by decide +kernel), by decide +kernel⟩,
   ⟨coming (comingArea .fetching false [] 0), 2, modelFrame 2 192 [], (coming (comingArea .fetching false [] 0)).za.taken 2 (modelFrame 2 192 []), 1,
     0, comingArea .fetching false [] 0, ctx5, fetch0 false, (by constructor; exact test_takes (by decide +kernel); all_goals decide +kernel), by decide +kernel,
     (by decide +kernel), by decide +kernel, by decide +kernel, (by decide +kernel), Or.inl rfl⟩,
   ⟨coming (comingArea .fetching false [] 0), 2, modelFrame 3 0 [], (coming (comingArea .fetching false [] 0)).za.taken 2 (modelFrame 3 0 []), 1, 0,
     comingArea .fetching false [] 0, ctx5, fetch0 false, .software, [],
     (by constructor; exact test_takes (by decide +kernel); all_goals decide +kernel), by decide +kernel⟩,
   ⟨coming (comingArea .fetching true [5, 6] 16), 2, modelFrame 4 8 [7, 8], (coming (comingArea .fetching true [5, 6] 16)).za.taken 2 (modelFrame 4 8
     [7, 8]), 1, 0, comingArea .fetching true [5, 6] 16, ctx5, fetch0 true, _,
     (by constructor; exact test_takes (by decide +kernel); all_goals decide +kernel), by decide +kernel, (by decide +kernel), by decide +kernel, by decide +kernel, (by decide +kernel), rfl, by decide +kernel, (by decide +kernel), by decide +kernel, Or.inl (by
     decide +kernel)⟩,
   ⟨coming (comingArea .fetching true [5, 6] 192), 2, modelFrame 4 8 [7, 8], (coming (comingArea .fetching true [5, 6] 192)).za.taken 2 (modelFrame 4
     8 [7, 8]), 1, 0, comingArea .fetching true [5, 6] 192, ctx5, fetch0 true, _,
     (by constructor; exact test_takes (by decide +kernel); all_goals decide +kernel), by decide +kernel, (by decide +kernel), by decide +kernel, by decide +kernel, (by decide +kernel), rfl, by decide +kernel, (by decide +kernel), by decide +kernel, Or.inl (by
     decide +kernel)⟩,
   ⟨coming (comingArea .fetching true [5, 6] 192), 2, modelFrame 4 12 [7, 8], (coming (comingArea .fetching true [5, 6] 192)).za.taken 2 (modelFrame
     4 12 [7, 8]), 1, 0, comingArea .fetching true [5, 6] 192, ctx5, fetch0 true,
     (by constructor; exact test_takes (by decide +kernel); all_goals decide +kernel), by decide +kernel⟩,
   ⟨coming (comingArea .fetching true [5, 6] 192), 1, 0, comingArea .fetching true [5, 6] 192, ctx5, fetch0 true, .software, [], by decide +kernel⟩,
   ⟨zt { (coming verifying).za with ctxs := [(0, ctxOf 0 0 { rank := 7, die := 7 }), (1, ctxCol)] }, 1, 0, verifying, ctxCol, [], by decide +kernel, by decide +kernel, (by decide +kernel),
     by decide +kernel, test_digest, (by decide +kernel), by decide +kernel, Or.inl rfl⟩,
   ⟨coming (comingArea .verifying true [5, 6] 8), 1, 0, comingArea .verifying true [5, 6] 8, ctx5, fetch0 true, .software, [], by decide +kernel⟩,
   ⟨coming (comingArea .placing true [5, 6] 8), 1, 0, comingArea .placing true [5, 6] 8, by decide +kernel⟩,
   ⟨scoring (imageOf 1 ensemble) (scored [rowOf 0]), hz .modelQuery 5 1 1 0 [7], (begun (scoring (imageOf 1 ensemble) (scored [rowOf 0])).za
     .modelQuery (hz .modelQuery 5 1 1 0 [7])).1, (begun (scoring (imageOf 1 ensemble) (scored [rowOf 0])).za .modelQuery (hz .modelQuery 5 1 1 0
     [7])).2, 1, ctx5, slot (imageOf 1 ensemble), area (imageOf 1 ensemble), secOf (imageOf 1 ensemble), [rowOf 0], test_begins
     (by constructor <;> first | exact test_crc .. | decide +kernel) (by decide +kernel) (by decide +kernel), by decide +kernel, (by decide +kernel), by decide +kernel, by decide +kernel, (by decide +kernel), by decide +kernel, by decide +kernel,
     test_forall _ _ (by decide +kernel), by decide +kernel⟩,
   ⟨scoring (imageOf 1 ensemble) (scored []), 2, modelFrame 1 0 [] 0, (scoring (imageOf 1 ensemble) (scored [])).za.taken 2 (modelFrame 1 0 [] 0), 1,
     192, { peer := linkMac 2 2, link := 2, fetchId := 77, model := some (1, 0), offset := 0, hdr := (modelFrame 1 0 [] 0).body.take 7 }, ((((scoring
     (imageOf 1 ensemble) (scored [])).za.taken 2 (modelFrame 1 0 [] 0)).servedFrom ({ peer := linkMac 2 2, link := 2, fetchId := 77, model := some (1, 0), offset := 0, hdr := (modelFrame 1 0 [] 0).body.take 7 })).getD
     (0, [])).2, (by constructor; exact test_takes (by decide +kernel); all_goals decide +kernel), by decide +kernel⟩,
   ⟨scoring (imageOf 1 ensemble) (scored []), 2, modelFrame 1 0 [] 5, (scoring (imageOf 1 ensemble) (scored [])).za.taken 2 (modelFrame 1 0 [] 5), 3,
     (by constructor; exact test_takes (by decide +kernel); all_goals decide +kernel), by decide +kernel⟩,
   ⟨both, 2, modelFrame 1 0 [] 5, both.za.taken 2 (modelFrame 1 0 [] 5), 2,
     (by constructor; exact test_takes (by decide +kernel); all_goals decide +kernel), by decide +kernel⟩,
   test_host (fun n => ⟨fabReplica 1, replicaFrame 0 1 0 0 1, (fabReplica 1).za.taken 2 (replicaFrame 0 1 0 0 1), (replicaFrame 0 1 0 0 1).body, 1,
     0, slot (imageOf 1 ensemble), area (imageOf 1 ensemble), fabCtx, fabWork0.view, fabWork0,
     (by constructor; exact test_takes (by decide +kernel); all_goals decide +kernel), by decide +kernel, (by decide +kernel), by decide +kernel, by decide +kernel, (by decide +kernel), by decide +kernel, (test_group n (test_tree
     pod80 (by decide +kernel) (by decide +kernel) (by decide +kernel) (by decide +kernel) n)).1, (by decide +kernel), (test_group n (test_tree pod80 (by
     decide +kernel) (by decide +kernel) (by decide +kernel) (by decide +kernel) n)).2⟩) (fun n => ⟨fabReplica 2, replicaFrame 0 2 0 0 2, (fabReplica
     2).za.taken 2 (replicaFrame 0 2 0 0 2), (replicaFrame 0 2 0 0 2).body, 1, 0, slot (imageOf 1 ensemble), area (imageOf 1 ensemble), fabCtx,
     fabWork0.view, fabWork0, (by constructor; exact test_takes (by decide +kernel); all_goals decide +kernel), by decide +kernel, (by decide +kernel), by decide +kernel, by decide +kernel, (by decide +kernel), by decide +kernel,
     (test_group n (test_tree pod80 (by decide +kernel) (by decide +kernel) (by decide +kernel) (by decide +kernel) n)).1, (by decide +kernel), (test_group n
     (test_tree pod80 (by decide +kernel) (by decide +kernel) (by decide +kernel) (by decide +kernel) n)).2⟩),
   ⟨zt { (scoring (imageOf 1 ensemble) (scored [])).za with replicas := [replicas0] }, 1, 0, replicas0, by decide +kernel⟩,
   ⟨scoring (imageOf 1 ensemble) { scored [] with withheld := [(0, 0)] }, replicaFrame 1 2 1 9, (scoring (imageOf 1 ensemble) { scored [] with withheld := [(0, 0)] }).za.taken
     2 (replicaFrame 1 2 1 9), (replicaFrame 1 2 1 9).body, 1, 9, slot (imageOf 1 ensemble), area (imageOf 1 ensemble), ctx5, { scored [] with withheld := [(0, 0)] },
     (by constructor; exact test_takes (by decide +kernel); all_goals decide +kernel), by decide +kernel⟩,
   ⟨scoring (imageOf 1 ensemble) { scored [] with withheld := [(0, 0)] }, replicaFrame 1 2 0 9, (scoring (imageOf 1 ensemble) { scored [] with withheld := [(0, 0)] }).za.taken
     2 (replicaFrame 1 2 0 9), (replicaFrame 1 2 0 9).body, 1, 9, slot (imageOf 1 ensemble), area (imageOf 1 ensemble), ctx5, { scored [] with withheld := [(0, 0)] },
     (by constructor; exact test_takes (by decide +kernel); all_goals decide +kernel), by decide +kernel⟩⟩

theorem test_witness_MirrorsCheckpointsAndRebuilds :
    (∃ (s : State) (h : HuskCmd) (z : Za) (handle : W), s.za.begins .seedPair h z handle ∧ huskP0 h ≤ 4095 ∧ z.sameRack (huskP0 h) = false) ∧
    (∃ (s : State) (x : SeedPrimary), s.za.seed = some x ∧ x.resync = true ∧ s.za.running = true) ∧
    (∃ (s : State) (x : SeedPrimary) (n : Nat) (items : List SeedItem) (rest : List (Nat × List SeedItem)), s.za.seed = some x ∧ x.due = (n, items)
      :: rest ∧ x.resync = false ∧ s.za.enginesRun = true) ∧
    (∃ (s : State) (x : SeedPrimary) (n : Nat) (items : List SeedItem) (rest : List (Nat × List SeedItem)), s.za.seed = some x ∧ x.due = (n, items)
      :: rest ∧ x.resync = false ∧ s.za.enginesRun = true) ∧
    (∃ (s : State) (f : Frame) (z : Za) (ws : List W) (x : SeedPrimary), s.za.bringsSeed f 2 z ws ∧ z.seed = some x ∧ sFrom ws = x.partner) ∧
    (∃ (s : State) (f : Frame) (z : Za) (ws : List W) (x : SeedPrimary), s.za.bringsSeed f 3 z ws ∧ z.rebuild = none ∧ z.seed = some x ∧ sFrom ws =
      x.partner ∧ (x.valid = true ∨ sItems true ws ≠ [])) ∧
    (∃ (s : State) (x : SeedPrimary), s.za.seed = some x ∧ x.lastAck + 64 ≤ s.za.time.begun ∧ s.za.running = true) ∧
    (∃ (s : State) (f : Frame) (z : Za) (ws : List W) (g : SeedHeld), s.za.bringsSeed f 0 z ws ∧ z.seedHeld = some g ∧ g.primary = sFrom ws) ∧
    (∃ (s : State) (f : Frame) (z : Za) (ws : List W) (g : SeedHeld) (parts : List (List SeedItem)), s.za.bringsSeed f 1 z ws ∧ z.rebuild = none ∧
      z.seedHeld = some g ∧ g.primary = sFrom ws ∧ g.staged (word ws 2).toNat = some parts ∧ seedDigest parts = dword ws 4 ∧ g.stageFrame = z.frameOf
      (word ws 1).toNat) ∧
    (∃ (s : State) (f : Frame) (z : Za) (ws : List W) (g : SeedHeld) (parts : List (List SeedItem)), s.za.bringsSeed f 1 z ws ∧ z.rebuild = none ∧
      z.seedHeld = some g ∧ g.primary = sFrom ws ∧ g.staged (word ws 2).toNat = some parts ∧ seedDigest parts ≠ dword ws 4) ∧
    (∃ (s : State) (f : Frame) (z : Za) (ws : List W) (g : SeedHeld), s.za.bringsSeed f 6 z ws ∧ z.seedHeld = some g ∧ sItems true ws = []) ∧
    (∃ (s : State) (f : Frame) (z : Za) (ws : List W) (e : Nat) (c : Ctx) (i : SeedItem) (r : DetRec), s.za.bringsSeed f 7 z ws ∧ z.rebuild = none ∧
      sItems false ws = [i] ∧ i.cls = 3 ∧ z.restores = [{ names := [i.name], begun := z.time.begun }] ∧ z.entryOf i.ctx i.gen = some e ∧ z.ctx? e =
      some c ∧ r = detRecOf e i.index i.key (z.frameOf (word i.data 5).toNat) i.data) ∧
    (∃ (s : State), s.za.enginesRun = true ∧ s.za.time.ticking = true ∧ s.za.ckptFrame ≠ 0 ∧ s.za.frameNow ≤ s.za.ckptFrame + 1024 ∧ s.za.rack.own =
      none ∧ (∀ w ∈ s.za.works, w.frame = s.za.ckptFrame → w.detected = true ∨ w.abandoned = true)) ∧
    (∃ (s : State), s.za.enginesRun = true ∧ s.za.time.ticking = true ∧ s.za.ckptFrame ≠ 0 ∧ s.za.frameNow ≤ s.za.ckptFrame + 1024 ∧ s.za.rack.own =
      none ∧ (∀ w ∈ s.za.works, w.frame = s.za.ckptFrame → w.detected = true ∨ w.abandoned = true)) ∧
    (∃ (s : State) (h : HuskCmd) (z : Za), s.za.accepts .ckptPut h ∧ z = s.za.met .ckptPut h ∧ z.rebuild = none ∧ z.isRm = true ∧ z.standbyId = 0 ∧
      huskHandle h = 0) ∧
    (∃ (s : State) (h : HuskCmd) (z : Za), s.za.accepts .ckptPut h ∧ z = s.za.met .ckptPut h ∧ z.rebuild = none ∧ z.isRm = true ∧ z.standbyId = 0 ∧
      huskHandle h = 0) ∧
    (∃ (s : State) (h : HuskCmd) (z : Za) (handle : W) (k : Checkpoint), s.za.begins .ckptGet h z handle ∧ z.isRm = true ∧ (z.rack.held.filter (fun c
      => c.agg == huskP0 h && c.complete)).getLast? = some k) ∧
    (∃ (s : State) (agg : BitVec 12) (n : Nat), n = (s.za.frameNow - 1024) / 4096 * 4096 ∧ n ≠ 0 ∧ s.za.running = true ∧ s.za.isRm = true ∧ (∃ u ∈
      s.za.rack.units, u.agg = agg.toNat) ∧ (∀ x ∈ s.za.rack.held, ¬(x.agg = agg.toNat ∧ x.frame = n))) ∧
    (∃ (s : State) (agg : BitVec 12) (n : Nat), n = (s.za.frameNow - 1024) / 4096 * 4096 ∧ n ≠ 0 ∧ s.za.running = true ∧ s.za.isRm = true ∧ (∃ u ∈
      s.za.rack.units, u.agg = agg.toNat) ∧ (∀ x ∈ s.za.rack.held, ¬(x.agg = agg.toNat ∧ x.frame = n))) ∧
    (∃ (s : State) (h : HuskCmd) (z : Za) (handle : W), s.za.begins .rebuild h z handle ∧ z.rebuild = none ∧ (∀ p ∈ z.jobs, p.2.state ≠ .active) ∧ wf
      (huskPay h) 0 31 16 ≤ 4095 ∧ z.time.plusTwo + 6 ≤ z.frameOf (huskP0 h) ∧ huskP1 h ≠ 0) ∧
    (∃ (s : State) (rb : Rebuild), s.za.rebuild = some rb ∧ s.za.running = true ∧ rb.baseOpen = true ∧ 17 ≤ rb.idle ∧ s.za.isRm = false ∧
      s.za.rack.units ≠ []) ∧
    (∃ (s : State) (rb : Rebuild), s.za.rebuild = some rb ∧ s.za.enginesRun = true ∧ rb.phase ≠ 4 ∧ rb.front ≤ s.za.frameNow + 4 ∧ s.za.frameNow <
      rb.front ∧ rb.asked = false) ∧
    (∃ (s : State) (rb : Rebuild), s.za.rebuild = some rb ∧ s.za.enginesRun = true ∧ rb.phase ≠ 4 ∧ rb.front ≤ s.za.frameNow + 4 ∧ s.za.frameNow <
      rb.front ∧ rb.asked = false) ∧
    (∃ (s : State) (rb : Rebuild), s.za.rebuild = some rb ∧ s.za.running = true ∧ rb.phase ≠ 4 ∧ rb.front ≤ s.za.frameNow) :=
  ⟨⟨both, hz .seedPair 0xFFFF 0 2000 0, (begun both.za .seedPair (hz .seedPair 0xFFFF 0 2000 0)).1, (begun both.za .seedPair (hz .seedPair 0xFFFF 0
     2000 0)).2, test_begins (by constructor <;> first | exact test_crc .. | decide +kernel) (by decide +kernel) (by decide +kernel), by decide +kernel⟩,
   ⟨seeded { primary with resync := true }, { primary with resync := true }, by decide +kernel⟩,
   ⟨seeded { primary with due := [(9, []), (10, [])] }, { primary with due := [(9, []), (10, [])] }, 9, [], [(10, [])], by decide +kernel⟩,
   ⟨seeded { primary with due := [(7, [])] }, { primary with due := [(7, [])] }, 7, [], [], by decide +kernel⟩,
   ⟨seeded primary, seedMessage 2 9 0 0 [], (seeded primary).za.taken 2 (seedMessage 2 9 0 0 []), (seedMessage 2 9 0 0 []).body, primary,
     (by constructor; exact test_takes (by decide +kernel); all_goals decide +kernel), by decide +kernel⟩,
   ⟨seeded primary, seedMessage 3 9 0 0 [(item.name.item).header], (seeded primary).za.taken 2 (seedMessage 3 9 0 0 [(item.name.item).header]),
     (seedMessage 3 9 0 0 [(item.name.item).header]).body, primary, (by constructor; exact test_takes (by decide +kernel); all_goals decide +kernel),
     by decide +kernel, (by decide +kernel), by decide +kernel, Or.inl rfl⟩,
   ⟨zt { za with seed := some primary, time := { za.time with begun := 67 } }, primary, by decide +kernel⟩,
   ⟨holding mirror, seedMessage 0 9 3 0 [item.words], (holding mirror).za.taken 2 (seedMessage 0 9 3 0 [item.words]), (seedMessage 0 9 3 0
     [item.words]).body, mirror, (by constructor; exact test_takes (by decide +kernel); all_goals decide +kernel), by decide +kernel⟩,
   ⟨holding { mirror with stage := [(0, [item])] }, seedMessage 1 9 1 (seedDigest [[item]]) [], (holding { mirror with stage := [(0, [item])] }).za.taken
     2 (seedMessage 1 9 1 (seedDigest [[item]]) []), (seedMessage 1 9 1 (seedDigest [[item]]) []).body, { mirror with stage := [(0, [item])] },
     [[item]], (by constructor; exact test_takes (by decide +kernel); all_goals decide +kernel), by decide +kernel⟩,
   ⟨holding { mirror with stage := [(0, [item])] }, seedMessage 1 9 1 5 [], (holding { mirror with stage := [(0, [item])] }).za.taken 2 (seedMessage
     1 9 1 5 []), (seedMessage 1 9 1 5 []).body, { mirror with stage := [(0, [item])] }, [[item]],
     (by constructor; exact test_takes (by decide +kernel); all_goals decide +kernel), by decide +kernel⟩,
   ⟨holding mirror, seedMessage 6 9 0 0 [], (holding mirror).za.taken 2 (seedMessage 6 9 0 0 []), (seedMessage 6 9 0 0 []).body, mirror,
     (by constructor; exact test_takes (by decide +kernel); all_goals decide +kernel), by decide +kernel⟩,
   ⟨zt { za with restores := [{ names := [item.name], begun := 3 }] }, seedMessage 7 9 0 0 [item.words], (zt { za with restores := [{ names := [item.name], begun := 3 }] }).za.taken
     2 (seedMessage 7 9 0 0 [item.words]), (seedMessage 7 9 0 0 [item.words]).body, 1, ctx5, item, _,
     (by constructor; exact test_takes (by decide +kernel); all_goals decide +kernel), by decide +kernel, (by decide +kernel), by decide +kernel, by decide +kernel, (by decide +kernel), by decide +kernel, rfl⟩,
   ⟨zt { za with time := clockAt 4200, rack := rm }, by decide +kernel⟩,
   ⟨zt { za with time := clockAt 5120 }, by decide +kernel⟩,
   ⟨zt { za with rack := rm }, ha .ckptPut 9 0x80000000 [1, 2, 3, 4, 5, 6], _, test_put _ _ rfl (Or.inl rfl), rfl, (by decide +kernel)⟩,
   ⟨zt { za with rack := rm }, ha .ckptPut 9 2 [1, 2, 3, 4], _, test_put _ _ rfl (Or.inr rfl), rfl, (by decide +kernel)⟩,
   ⟨zt { za with rack := { rm with held := [ckpt3] } }, hz .ckptGet 0xFFFF 0 3 0, (begun (zt { za with rack := { rm with held := [ckpt3] } }).za
     .ckptGet (hz .ckptGet 0xFFFF 0 3 0)).1, (begun (zt { za with rack := { rm with held := [ckpt3] } }).za .ckptGet (hz .ckptGet 0xFFFF 0 3 0)).2,
     ckpt3, test_begins (by constructor <;> first | exact test_crc .. | decide +kernel) (by decide +kernel) (by decide +kernel), by decide +kernel⟩,
   ⟨zt { za with time := clockAt 5120, rack := rm }, 1, 4096, by decide +kernel, by decide +kernel, (by decide +kernel), by decide +kernel, ⟨_, List.mem_cons_self, rfl⟩, (by decide +kernel)⟩,
   ⟨zt { za with time := clockAt 9215, rack := rm }, 1, 4096, by decide +kernel, by decide +kernel, (by decide +kernel), by decide +kernel, ⟨_, List.mem_cons_self, rfl⟩, (by decide +kernel)⟩,
   ⟨noJobs, hz .rebuild 0xFFFF 0 20 4 [0x00030000], (begun noJobs.za .rebuild (hz .rebuild 0xFFFF 0 20 4 [0x00030000])).1, (begun noJobs.za .rebuild
     (hz .rebuild 0xFFFF 0 20 4 [0x00030000])).2, test_begins (by constructor <;> first | exact test_crc .. | decide +kernel) (by decide +kernel) (by
     decide +kernel), by decide +kernel⟩,
   ⟨zt { za with rebuild := some { rebuild0 with idle := 17 }, rack := { rm with acting := false } }, { rebuild0 with idle := 17 }, by decide +kernel⟩,
   ⟨rebuilding rebuild0 16, rebuild0, by decide +kernel⟩,
   ⟨rebuilding rebuild0 19, rebuild0, by decide +kernel⟩,
   ⟨rebuilding { rebuild0 with phase := 3 } 20, { rebuild0 with phase := 3 }, by decide +kernel⟩⟩

theorem test_witness_TheFabricStopsAndThaws :
    (∃ (s : State) (h : HuskCmd) (z : Za) (handle : W), s.za.begins .frostArm h z handle ∧ z.time.plusTwo ≤ dword (huskPay h) 0 / 2 ^ 20 ∧
      z.frost.state = 0 ∧ z.liveDies ≠ []) ∧
    (∃ (s : State) (h : HuskCmd) (z : Za), s.za.accepts .frostCancel h ∧ z = s.za.met .frostCancel h ∧ z.frost.state = 1 ∧ z.frost.frostId = h.w5) ∧
    (∃ (s : State), s.za.frost.state = 1 ∧ s.za.running = true ∧ s.za.mayReach s.za.frost.t = true) ∧
    (∃ (s : State) (h : HuskCmd) (z : Za), s.za.accepts .frostNow h ∧ z = s.za.met .frostNow h ∧ z.frost.state ≠ 2) ∧
    (∃ (s : State) (p : Fin 82) (f : Frame) (z : Za), s.za.takes p.val f ∧ z = s.za.taken p.val f ∧ frostSound f = true ∧ z.running = true ∧ word
      f.body 0 ∉ z.frost.seen ∧ z.frost.state ≠ 2) ∧
    (∃ (s : State) (h : HuskCmd) (z : Za) (handle : W), s.za.begins .frostThaw h z handle ∧ z.frost.state = 2 ∧ z.frost.frostId = h.w5 ∧
      z.time.plusTwo ≤ dword (huskPay h) 0 / 2 ^ 20) ∧
    (∃ (s : State) (at_ : Nat), s.za.frost.state = 2 ∧ s.za.frost.thawAt = some at_ ∧ s.za.running = true ∧ s.za.mayReach at_ = true) ∧
    (∃ (s : State) (p : Fin 82) (f : Frame) (z : Za) (die : Nat), s.za.takes p.val f ∧ z = s.za.taken p.val f ∧ frostSound f = true ∧ z.fromDie p.val
      f = some die ∧ word f.body 0 = z.frost.frostId ∧ wf f.body 1 23 16 = z.frost.message ∧ die ∈ z.frost.targets ∧ die ∉ z.frost.acked) ∧
    (∃ (s : State) (die : Nat) (d : DieEntry), s.za.running = true ∧ (s.za.frost.message = 1 ∧ s.za.frost.state = 1 ∨ s.za.frost.message = 3 ∨
      s.za.frost.message = 4) ∧ die ∈ s.za.frostOwed ∧ s.za.die? die = some d ∧ s.za.isHeld d = false) ∧
    (∃ (s : State) (die : Nat) (d : DieEntry), s.za.running = true ∧ (s.za.frost.message = 1 ∧ s.za.frost.state = 1 ∨ s.za.frost.message = 3 ∨
      s.za.frost.message = 4) ∧ die ∈ s.za.frostOwed ∧ s.za.die? die = some d ∧ s.za.isHeld d = false) ∧
    (∃ (s : State) (die : Nat) (d : DieEntry), s.za.running = true ∧ (s.za.frost.message = 1 ∧ s.za.frost.state = 1 ∨ s.za.frost.message = 3 ∨
      s.za.frost.message = 4) ∧ die ∈ s.za.frostOwed ∧ s.za.die? die = some d ∧ s.za.isHeld d = false) ∧
    (∃ (s : State) (e : Nat), s.za.frost.windowEnd = some e ∧ s.za.mayReach e = true) ∧
    (∃ (s : State) (h : HuskCmd) (z : Za) (handle : W) (snap : ZaSnapshot) (d : DieEntry), s.za.begins .scanOut h z handle ∧ z.frost.snapshot = some
      snap ∧ z.frost.frostId = h.w5 ∧ z.dies = [d] ∧ huskPay h = [] ∧ d.admitted = true ∧ d.fenced = none ∧ z.isHeld d = false ∧ z.frost.scans = [] ∧
      bit h.w6 0 = false ∧ fld h.w6 31 9 = 0) ∧
    (∃ (s : State) (p : Fin 82) (f : Frame) (z : Za) (die : Nat) (x : ScanOut), s.za.takes p.val f ∧ z = s.za.taken p.val f ∧ frostSound f = true ∧
      f.msg = 7 ∧ z.fromDie p.val f = some die ∧ z.frost.scans = [x] ∧ x.current = some die ∧ word f.body 0 = z.frost.frostId ∧ wf f.body 5 31 0 =
      x.offset) ∧
    (∃ (s : State) (h : HuskCmd) (z : Za) (handle : W), s.za.begins .loopTest h z handle ∧ huskP0 h < 82 ∧ 1 ≤ huskP1 h ∧ huskP1 h ≤ 65536 ∧ fld
      (z.portW0 (portOf (huskP0 h))) 29 27 = 0 ∧ z.linkUp (huskP0 h) = true ∧ (z.testPeer (huskP0 h)).isSome = true ∧ (∀ t ∈ z.tests, t.link ≠ huskP0
      h)) ∧
    (∃ (s : State) (h : HuskCmd) (z : Za) (handle : W), s.za.begins .loopTest h z handle ∧ huskP0 h < 82 ∧ 1 ≤ huskP1 h ∧ huskP1 h ≤ 65536 ∧ fld
      (z.portW0 (portOf (huskP0 h))) 29 27 = 0 ∧ z.linkUp (huskP0 h) = true ∧ (z.testPeer (huskP0 h)).isSome = true ∧ (∀ t ∈ z.tests, t.link ≠ huskP0
      h)) ∧
    (∃ (s : State) (h : HuskCmd) (z : Za), s.za.accepts .faultInject h ∧ z = s.za.met .faultInject h ∧ fld h.w5 31 24 = 1 ∧ 1 ≤ fld h.w5 23 0 ∧ fld
      h.w5 23 0 ≤ 9 ∧ ((word (huskPay h) 0).toNat ≤ 9 ∨ 16 ≤ (word (huskPay h) 0).toNat ∧ (word (huskPay h) 0).toNat ≤ 24)) ∧
    (∃ (s : State) (h : HuskCmd) (z : Za), s.za.accepts .faultInject h ∧ z = s.za.met .faultInject h ∧ fld h.w5 31 24 = 1 ∧ 1 ≤ fld h.w5 23 0 ∧ fld
      h.w5 23 0 ≤ 9 ∧ ((word (huskPay h) 0).toNat ≤ 9 ∨ 16 ≤ (word (huskPay h) 0).toNat ∧ (word (huskPay h) 0).toNat ≤ 24)) :=
  ⟨⟨both, hz .frostArm 0xFFFF 0 5 1 [0, 12582912], (begun both.za .frostArm (hz .frostArm 0xFFFF 0 5 1 [0, 12582912])).1, (begun both.za .frostArm
     (hz .frostArm 0xFFFF 0 5 1 [0, 12582912])).2, test_begins (by constructor <;> first | exact test_crc .. | decide +kernel) (by decide +kernel)
     (by decide +kernel), by decide +kernel⟩,
   ⟨frosty (frost5 1 1), hz .frostCancel 0xFFFF 0 5 0, _, by constructor <;> first | exact test_crc .. | decide +kernel, rfl, (by decide +kernel)⟩,
   ⟨frosty { frost5 1 1 with t := 11534336 }, by decide +kernel⟩,
   ⟨both, hz .frostNow 0xFFFF 0 5 1, _, by constructor <;> first | exact test_crc .. | decide +kernel, rfl, (by decide +kernel)⟩,
   ⟨both, 2, frostFrame 2 3 (linkMac 2 2) 0 [], _, test_takes (by decide +kernel), rfl, (by decide +kernel)⟩,
   ⟨frosty (frost5 2 1), hz .frostThaw 0xFFFF 0 5 0 [0, 12582912], (begun (frosty (frost5 2 1)).za .frostThaw (hz .frostThaw 0xFFFF 0 5 0 [0,
     12582912])).1, (begun (frosty (frost5 2 1)).za .frostThaw (hz .frostThaw 0xFFFF 0 5 0 [0, 12582912])).2, test_begins
     (by constructor <;> first | exact test_crc .. | decide +kernel) (by decide +kernel) (by decide +kernel), by decide +kernel⟩,
   ⟨frosty { frost5 2 4 with thawAt := some 11534336 }, 11534336, by decide +kernel⟩,
   ⟨zt { za with frost := { frost5 1 1 with armHandle := 9 }, cmds := { za.cmds with handles := [hand 9 .frostArm (hz .frostArm 0xFFFF 0 5 1 [0, 12582912])] } },
     0, frostFrame 0 5 (dtuMac 7) 0x00010000 [], _, 7, test_takes (by decide +kernel), rfl, (by decide +kernel)⟩,
   ⟨frosty (frost5 1 1), 7, die7, by decide +kernel, Or.inl ⟨rfl, rfl⟩, (by decide +kernel)⟩,
   ⟨frosty (frost5 2 3), 7, die7, by decide +kernel, Or.inr (Or.inl rfl), (by decide +kernel)⟩,
   ⟨frosty (frost5 2 4), 7, die7, by decide +kernel, Or.inr (Or.inr rfl), (by decide +kernel)⟩,
   ⟨frosty { frost5 2 3 with windowEnd := some 11534336 }, 11534336, by decide +kernel⟩,
   ⟨frosty { frost5 2 3 with snapshot := some snap0 }, hz .scanOut 0xFFFF 0 5 2, (begun (frosty { frost5 2 3 with snapshot := some snap0 }).za
     .scanOut (hz .scanOut 0xFFFF 0 5 2)).1, (begun (frosty { frost5 2 3 with snapshot := some snap0 }).za .scanOut (hz .scanOut 0xFFFF 0 5 2)).2,
     snap0, die7, test_begins (by constructor <;> first | exact test_crc .. | decide +kernel) (by decide +kernel) (by decide +kernel), by decide +kernel⟩,
   ⟨frosty { frost5 2 3 with scans := [scan0] }, 0, frostFrame 0 7 (dtuMac 7) 0 [1, 2], _, 7, scan0, test_takes (by decide +kernel), rfl, (by decide +kernel)⟩,
   ⟨both, hz .loopTest 0xFFFF 0 2 1, (begun both.za .loopTest (hz .loopTest 0xFFFF 0 2 1)).1, (begun both.za .loopTest (hz .loopTest 0xFFFF 0 2
     1)).2, test_begins (by constructor <;> first | exact test_crc .. | decide +kernel) (by decide +kernel) (by decide +kernel), by decide +kernel⟩,
   ⟨both, hz .loopTest 0xFFFF 0 80 65536, (begun both.za .loopTest (hz .loopTest 0xFFFF 0 80 65536)).1, (begun both.za .loopTest (hz .loopTest 0xFFFF
     0 80 65536)).2, test_begins (by constructor <;> first | exact test_crc .. | decide +kernel) (by decide +kernel) (by decide +kernel), by decide +kernel⟩,
   ⟨powered { za.power with strap := true }, hz .faultInject 0xFFFF 0 0x01000009 0 [1, 2, 3, 4], _,
     by constructor <;> first | exact test_crc .. | decide +kernel, rfl, (by decide +kernel)⟩,
   ⟨powered { za.power with strap := true }, hz .faultInject 0xFFFF 0 0x01000001 0 [1, 2, 3, 4], _,
     by constructor <;> first | exact test_crc .. | decide +kernel, rfl, (by decide +kernel)⟩⟩

theorem test_witness_UnitsAreWatchedAndFenced :
    (∃ (s : State) (n : Nat), s.za.hailDue = some n ∧ s.za.running = true) ∧
    (∃ (s : State) (p : Fin 82) (f : Frame) (z : Za) (die : Nat) (d : DieEntry), s.za.takes p.val f ∧ z = s.za.taken p.val f ∧ f.cls = 1 ∧ f.msg = 3
      ∧ f.plen = 32 ∧ wf f.body 0 31 28 = 1 ∧ wf f.body 0 27 24 = 1 ∧ z.fromDie p.val f = some die ∧ wf f.body 1 19 0 = die ∧ z.frameOf (word f.body
      2).toNat = z.frameNow ∧ z.hailEval < z.time.begun ∧ z.die? die = some d) ∧
    (∃ (s : State) (d : DieEntry), s.za.running = true ∧ s.za.time.ticking = true ∧ s.za.hailEval < s.za.time.begun ∧ s.za.dies = [d] ∧ d.admitted =
      true ∧ d.hailDue = true ∧ d.hailed = true) ∧
    (∃ (s : State) (d : DieEntry), s.za.running = true ∧ s.za.time.ticking = true ∧ s.za.hailEval < s.za.time.begun ∧ s.za.dies = [d] ∧ d.admitted =
      true ∧ d.hailDue = true ∧ d.hailed = true) ∧
    (∃ (s : State) (d : DieEntry), s.za.running = true ∧ s.za.time.ticking = true ∧ s.za.hailEval < s.za.time.begun ∧ s.za.dies = [d] ∧ d.admitted =
      true ∧ d.hailDue = true ∧ d.hailed = false ∧ d.hold = 0 ∧ (d.die ≠ s.dtu.dieId ∨ s.dtu.time.state = .locked) ∧ d.live = 2 ∧ 7 ≤ d.missed ∧
      d.fenced = none) ∧
    (∃ (s : State), s.za.rack.failover = true ∧ s.za.running = true) ∧
    (∃ (s : State) (h : HuskCmd) (z : Za) (handle : W), s.za.begins .fence h z handle ∧ (unitOf h).kind = 3 ∧ (unitOf h).unit < 4096 ∧ z.isFenced
      (unitOf h) = false ∧ fld (z.reg 0xA000) 31 16 = 0) ∧
    (∃ (s : State) (h : HuskCmd) (z : Za) (handle : W), s.za.begins .unfence h z handle ∧ (unitOf h).kind = 3 ∧ (unitOf h).unit < 4096 ∧ z.isFenced
      (unitOf h) = true) ∧
    (∃ (s : State) (h : HuskCmd) (z : Za) (handle : W) (d : DieEntry), s.za.begins .readmit h z handle ∧ z.die? (huskP0 h) = some d ∧ d.fenced.isSome
      = true ∧ 8 ≤ d.onTime) ∧
    (∃ (s : State) (h : HuskCmd) (z : Za) (handle : W) (d : DieEntry), s.za.begins .readmit h z handle ∧ z.die? (huskP0 h) = some d ∧ d.fenced.isSome
      = true ∧ 8 ≤ d.onTime) ∧
    (∃ (s : State) (h : HuskCmd) (z : Za) (handle : W), s.za.begins .selfTest h z handle ∧ (unitOf h).kind = 3 ∧ (unitOf h).unit < 4096 ∧ z.isFenced
      (unitOf h) = true) ∧
    (∃ (s : State) (agg : BitVec 12), s.za.running = true ∧ agg.toNat ≠ s.za.aggId ∧ s.za.rebuild = none ∧ (∀ x ∈ s.za.rack.fencedAggs, x.1 ≠
      agg.toNat)) ∧
    (∃ (s : State) (m : BitVec 128), s.za.running = true ∧ msgSeverity m ≠ 3 ∧ (∀ x ∈ s.za.faults, x.message ≠ m) ∧ fld (s.za.reg 0xA000) 31 16 = 0) ∧
    (∃ (s : State) (m : BitVec 128) (x : HeldFault), s.za.running = true ∧ msgSeverity m ≠ 3 ∧ s.za.faults = [x] ∧ x.message = m ∧ fld (s.za.reg
      0xA000) 31 16 = 0) ∧
    (∃ (s : State) (r : MemRegion) (a : Nat) (es : List (Fin 136 × Byte)), s.za.running = true ∧ a < regionSize r ∧ s.za.injections = [] ∧
      readOutcome r (wrongSymbols es) = .bad) ∧
    (∃ (s : State) (r : MemRegion) (a : Nat) (es : List (Fin 136 × Byte)), s.za.running = true ∧ a < regionSize r ∧ s.za.injections = [] ∧
      readOutcome r (wrongSymbols es) = .bad) ∧
    (∃ (s : State) (r : MemRegion) (a : Nat) (es : List (Fin 136 × Byte)), s.za.running = true ∧ a < regionSize r ∧ s.za.injections = [] ∧ corrects r
      = true ∧ wrongSymbols es ≠ [] ∧ (wrongSymbols es).length ≤ 4) ∧
    (∃ (s : State) (r : MemRegion) (a : Nat) (es : List (Fin 136 × Byte)), s.za.running = true ∧ a < regionSize r ∧ s.za.injections = [] ∧ corrects r
      = true ∧ wrongSymbols es ≠ [] ∧ (wrongSymbols es).length ≤ 4) ∧
    (∃ (s : State) (r : MemRegion) (a : Nat) (es : List (Fin 136 × Byte)), s.za.running = true ∧ bit (s.za.reg 0x2000) 31 = true ∧ a < regionSize r ∧
      (r = .firmware → 128 ≤ a) ∧ s.za.injections = [] ∧ corrects r = true ∧ wrongSymbols es ≠ [] ∧ (wrongSymbols es).length ≤ 4) ∧
    (∃ (s : State) (r : MemRegion) (a : Nat) (es : List (Fin 136 × Byte)), s.za.running = true ∧ bit (s.za.reg 0x2000) 31 = true ∧ a < regionSize r ∧
      (r = .firmware → 128 ≤ a) ∧ s.za.injections = [] ∧ corrects r = true ∧ wrongSymbols es ≠ [] ∧ (wrongSymbols es).length ≤ 4) :=
  ⟨⟨zt { za with hailDue := some 11, rack := { rm with units := rm.units ++ [{ agg := 2, candidate := true, priority := 0, live := 1, missed := 0, hailed := true, namesRm := 1 }] } },
     11, by decide +kernel⟩,
   ⟨alone { die7 with missed := 3, live := 2 }, 0, hail7, _, 7, (((alone { die7 with missed := 3, live := 2 }).za.taken 0 hail7).die? 7).getD die7,
     test_takes (by decide +kernel), rfl, (by decide +kernel)⟩,
   ⟨alone { die7 with hailDue := true, hailed := true, missed := 7, live := 2 }, { die7 with hailDue := true, hailed := true, missed := 7, live := 2 },
     by decide +kernel⟩,
   ⟨alone { die7 with hailDue := true, hailed := true }, { die7 with hailDue := true, hailed := true }, by decide +kernel⟩,
   ⟨alone { die7 with hailDue := true, missed := 7, live := 2 }, { die7 with hailDue := true, missed := 7, live := 2 }, by decide +kernel, by decide +kernel, (by decide +kernel), by decide +kernel, by decide +kernel,
     (by decide +kernel), by decide +kernel, by decide +kernel, Or.inr rfl, by decide +kernel⟩,
   ⟨zt { za with rack := { rm with acting := false, failover := true } }, by decide +kernel⟩,
   ⟨both, hz .fence 0xFFFF 0 0x30000FFF 0, (begun both.za .fence (hz .fence 0xFFFF 0 0x30000FFF 0)).1, (begun both.za .fence (hz .fence 0xFFFF 0
     0x30000FFF 0)).2, test_begins (by constructor <;> first | exact test_crc .. | decide +kernel) (by decide +kernel) (by decide +kernel), by decide +kernel⟩,
   ⟨zt { za with fences := { za.fences with lanes := [4095] } }, hz .unfence 0xFFFF 0 0x30000FFF 0, (begun (zt { za with fences := { za.fences with lanes := [4095] } }).za
     .unfence (hz .unfence 0xFFFF 0 0x30000FFF 0)).1, (begun (zt { za with fences := { za.fences with lanes := [4095] } }).za .unfence (hz .unfence
     0xFFFF 0 0x30000FFF 0)).2, test_begins (by constructor <;> first | exact test_crc .. | decide +kernel) (by decide +kernel) (by decide +kernel),
     by decide +kernel⟩,
   ⟨alone { die7 with fenced := some 8, onTime := 8 }, hz .readmit 0xFFFF 0 7 0, (begun (alone { die7 with fenced := some 8, onTime := 8 }).za
     .readmit (hz .readmit 0xFFFF 0 7 0)).1, (begun (alone { die7 with fenced := some 8, onTime := 8 }).za .readmit (hz .readmit 0xFFFF 0 7 0)).2, { die7 with fenced := some 8, onTime := 8 },
     test_begins (by constructor <;> first | exact test_crc .. | decide +kernel) (by decide +kernel) (by decide +kernel), by decide +kernel⟩,
   ⟨alone { die7 with fenced := some 8, onTime := 9, admGen := 0xFF }, hz .readmit 0xFFFF 0 7 0, (begun (alone { die7 with fenced := some 8, onTime := 9, admGen := 0xFF }).za
     .readmit (hz .readmit 0xFFFF 0 7 0)).1, (begun (alone { die7 with fenced := some 8, onTime := 9, admGen := 0xFF }).za .readmit (hz .readmit
     0xFFFF 0 7 0)).2, { die7 with fenced := some 8, onTime := 9, admGen := 0xFF }, test_begins
     (by constructor <;> first | exact test_crc .. | decide +kernel) (by decide +kernel) (by decide +kernel), by decide +kernel⟩,
   ⟨zt { za with fences := { za.fences with lanes := [0] } }, hz .selfTest 0xFFFF 0 0x30000000 0, (begun (zt { za with fences := { za.fences with lanes := [0] } }).za
     .selfTest (hz .selfTest 0xFFFF 0 0x30000000 0)).1, (begun (zt { za with fences := { za.fences with lanes := [0] } }).za .selfTest (hz .selfTest
     0xFFFF 0 0x30000000 0)).2, test_begins (by constructor <;> first | exact test_crc .. | decide +kernel) (by decide +kernel) (by decide +kernel),
     by decide +kernel⟩,
   ⟨both, 4095, by decide +kernel⟩,
   ⟨both, 5, by decide +kernel⟩,
   ⟨zt { za with faults := [{ message := 5, tNs := 0, temp := 0, vcore := 0, repeats := 255, ext := [] }] }, 5, { message := 5, tNs := 0, temp := 0, vcore := 0, repeats := 255, ext := [] },
     by decide +kernel⟩,
   ⟨both, .model, 5, [(0, 1)], by decide +kernel⟩,
   ⟨both, .model, 34359738367, [(0, 1), (1, 1), (2, 1), (3, 1), (4, 1), (5, 1), (6, 1), (135, 1)], by decide +kernel⟩,
   ⟨both, .forward, 0, [(0, 1)], by decide +kernel⟩,
   ⟨both, .forward, 4294967295, [(0, 1), (1, 1), (2, 1), (135, 255)], by decide +kernel⟩,
   ⟨zt { za with regs := (0x2000, 0x80000000) :: za.regs }, .firmware, 128, [(0, 1)], by decide +kernel⟩,
   ⟨zt { za with regs := (0x2000, 0x80000000) :: za.regs }, .digest, 0, [(0, 1), (1, 1), (2, 1), (135, 255)], by decide +kernel⟩⟩

theorem test_witness_TheTrayBootsResetsAndRests :
    (∃ (s : State) (stalled : Bool), s.za.boot.phase = 2 ∧ s.za.boot.offered = stalled ∧ s.za.power.powered = true) ∧
    (∃ (s : State) (stalled : Bool), s.za.boot.phase = 2 ∧ s.za.boot.offered = stalled ∧ s.za.power.powered = true) ∧
    (∃ (s : State), s.za.boot.phase = 5 ∧ s.za.power.powered = true ∧ s.za.power.firmwareKept = false) ∧
    (∃ (s : State), s.za.boot.phase = 3 ∧ s.za.power.powered = true) ∧
    (∃ (s : State), s.za.boot.phase = 2 ∧ s.za.boot.source = 3 ∧ s.za.boot.offered = false ∧ s.za.power.powered = true) ∧
    (∃ (s : State) (off : W) (bs : List Byte), s.za.boot.phase = 2 ∧ s.za.boot.source = 3 ∧ s.za.boot.offered = true ∧ s.za.power.powered = true ∧
      bs.length ≤ 1024 ∧ bs ≠ [] ∧ off.toNat = s.za.boot.image.length ∧ s.za.boot.image.length + bs.length ≤ s.za.boot.length) ∧
    (∃ (s : State) (off : W) (bs : List Byte), s.za.boot.phase = 2 ∧ s.za.boot.source = 3 ∧ s.za.boot.offered = true ∧ s.za.power.powered = true ∧
      bs.length ≤ 1024 ∧ bs ≠ [] ∧ off.toNat = s.za.boot.image.length ∧ s.za.boot.image.length + bs.length ≤ s.za.boot.length) ∧
    (∃ (s : State) (bs : List Byte) (body : List Byte) (kind : Nat) (seq : Nat), s.za.power.powered = true ∧ s.za.power.pinLow = false ∧ keomonParse
      bs = some (kind, seq, body) ∧ (kind = 0 ∨ 7 < kind) ∧ (∀ l, s.za.keomon.rxSeq = some l → (l + 1) % 256 = seq)) ∧
    (∃ (s : State) (bs : List Byte) (body : List Byte) (kind : Nat) (seq : Nat), s.za.power.powered = true ∧ s.za.power.pinLow = false ∧ keomonParse
      bs = some (kind, seq, body) ∧ (kind = 0 ∨ 7 < kind) ∧ (∀ l, s.za.keomon.rxSeq = some l → (l + 1) % 256 = seq)) ∧
    (∃ (s : State) (bs : List Byte) (body : List Byte) (seq : Nat), s.za.power.powered = true ∧ s.za.power.pinLow = false ∧ keomonParse bs = some (1,
      seq, body) ∧ (∀ l, s.za.keomon.rxSeq = some l → (l + 1) % 256 = seq)) ∧
    (∃ (s : State) (bs : List Byte), s.za.power.powered = true ∧ s.za.power.pinLow = false ∧ keomonParse bs = none) ∧
    (∃ (s : State) (vin : BitVec 16), s.za.power.powered = false ∧ s.za.power.tripped = false ∧ vinOn vin = true) ∧
    (∃ (s : State), s.za.power.powered = true) ∧
    (∃ (s : State) (temp : Byte), s.za.power.powered = true ∧ 115 ≤ temp.toNat) ∧
    (∃ (s : State) (temp : Byte) (tenths : Nat) (vin : BitVec 16), s.za.power.tripped = true ∧ temp.toNat < 85 ∧ 100 ≤ tenths ∧ vinOn vin = true) ∧
    (∃ (s : State), s.za.power.powered = true) ∧
    (∃ (s : State), s.za.power.powered = true ∧ s.za.power.strapLow = false ∧ s.za.power.pinLow = false) ∧
    (∃ (s : State), s.za.power.powered = true ∧ s.za.power.strapLow = false ∧ s.za.power.pinLow = true) ∧
    (∃ (s : State), s.za.power.powered = true ∧ s.za.power.pinLow = false) ∧
    (∃ (s : State), s.za.power.powered = true ∧ s.za.power.pinLow = false ∧ s.za.power.warmDue = true) ∧
    (∃ (s : State) (r : ThermalReading) (t : Nat), s.za.power.powered = true ∧ t = [r.q0.toNat, r.q1.toNat, r.q2.toNat, r.q3.toNat,
      r.spine.toNat].foldl max 0 ∧ (fld s.za.power.cfg 31 22 < r.power.toNat ∨ fld s.za.power.cfg 21 14 ≤ t)) ∧
    (∃ (s : State) (r : ThermalReading) (t : Nat), s.za.power.powered = true ∧ t = [r.q0.toNat, r.q1.toNat, r.q2.toNat, r.q3.toNat,
      r.spine.toNat].foldl max 0 ∧ (fld s.za.power.cfg 31 22 < r.power.toNat ∨ fld s.za.power.cfg 21 14 ≤ t)) ∧
    (∃ (s : State) (h : HuskCmd) (z : Za) (d : DieEntry), s.za.accepts .lullHold h ∧ z = s.za.met .lullHold h ∧ z.die? (huskP0 h) = some d ∧ huskP1 h
      ≠ 0 ∧ (∀ x ∈ d.slots, x.slot = 0)) ∧
    (∃ (s : State) (h : HuskCmd) (z : Za) (d : DieEntry), s.za.accepts .lullRelease h ∧ z = s.za.met .lullRelease h ∧ z.die? (huskP0 h) = some d ∧
      d.hold ≠ 0) ∧
    (∃ (s : State) (h : HuskCmd) (z : Za) (handle : W), s.za.begins .zaLull h z handle ∧ huskP0 h ≠ 0 ∧ huskP1 h ≤ 255 ∧ z.power.lull < huskP0 h ∧
      z.mayLull (huskP0 h) = true ∧ z.power.lullTo = none) ∧
    (∃ (s : State) (h : HuskCmd) (z : Za) (handle : W), s.za.begins .zaLull h z handle ∧ huskP0 h ≠ 0 ∧ huskP1 h ≤ 255 ∧ z.power.lull < huskP0 h ∧
      z.mayLull (huskP0 h) = true ∧ z.power.lullTo = none) ∧
    (∃ (s : State) (h : HuskCmd) (z : Za) (handle : W), s.za.begins .zaWake h z handle ∧ (z.power.lull = 1 ∨ z.power.lull = 2)) ∧
    (∃ (s : State) (h : HuskCmd) (z : Za) (handle : W), s.za.begins .zaWake h z handle ∧ (z.power.lull = 1 ∨ z.power.lull = 2)) ∧
    (∃ (s : State) (h : HuskCmd) (z : Za), s.za.accepts .zaReset h ∧ z = s.za.met .zaReset h ∧ huskP0 h = 1 ∧ huskP1 h = 0) :=
  ⟨⟨booting 2 1 false, false, by decide +kernel⟩,
   ⟨booting 2 1 true, true, by decide +kernel⟩,
   ⟨booting 5 15 false, by decide +kernel⟩,
   ⟨booting 3 1 true, by decide +kernel⟩,
   ⟨booting 2 3 false, by decide +kernel⟩,
   ⟨booting 2 3 true, 2, [3, 4, 5, 6, 7, 8], by decide +kernel⟩,
   ⟨booting 2 3 true, 2, [3], by decide +kernel⟩,
   ⟨both, keomonBytes 0 [], [], 0, 0, by decide +kernel, by decide +kernel, (by decide +kernel), Or.inl rfl, (fun _ h => by cases h)⟩,
   ⟨zt { za with keomon := { za.keomon with rxSeq := some 255 } }, keomonBytes 8 [1], [1], 8, 0, by decide +kernel, by decide +kernel, (by decide +kernel), Or.inr (by decide), (fun _ h => by
     cases h; rfl)⟩,
   ⟨both, keomonBytes 1 [1, 2], [1, 2], 0, by decide +kernel, by decide +kernel, (by decide +kernel), (fun _ h => by cases h)⟩,
   ⟨both, [0x7E, 1, 0x7E], by decide +kernel⟩,
   ⟨powered { za.power with powered := false }, BitVec.ofNat 16 (volts 75), by decide +kernel⟩,
   ⟨both, by decide +kernel⟩,
   ⟨both, 115, by decide +kernel⟩,
   ⟨powered { za.power with powered := false, tripped := true }, 84, 100, BitVec.ofNat 16 (volts 100), by decide +kernel⟩,
   ⟨both, by decide +kernel⟩,
   ⟨both, by decide +kernel⟩,
   ⟨powered { za.power with pinLow := true }, by decide +kernel⟩,
   ⟨both, by decide +kernel⟩,
   ⟨powered { za.power with warmDue := true }, by decide +kernel⟩,
   ⟨both, reading 40 821, _, by decide +kernel, rfl, Or.inl (by decide +kernel)⟩,
   ⟨both, reading 95 0, _, by decide +kernel, rfl, Or.inr (by decide +kernel)⟩,
   ⟨alone { die7 with slots := die7.slots.take 1 }, hz .lullHold 0xFFFF 0 7 1, _, { die7 with slots := die7.slots.take 1 },
     by constructor <;> first | exact test_crc .. | decide +kernel, rfl, (by decide +kernel)⟩,
   ⟨alone { die7 with hold := 1 }, hz .lullRelease 0xFFFF 0 7 0, _, { die7 with hold := 1 },
     by constructor <;> first | exact test_crc .. | decide +kernel, rfl, (by decide +kernel)⟩,
   ⟨noJobs, hz .zaLull 0xFFFF 0 1 255, (begun noJobs.za .zaLull (hz .zaLull 0xFFFF 0 1 255)).1, (begun noJobs.za .zaLull (hz .zaLull 0xFFFF 0 1
     255)).2, test_begins (by constructor <;> first | exact test_crc .. | decide +kernel) (by decide +kernel) (by decide +kernel), by decide +kernel⟩,
   ⟨zt { noJobs.za with power := { za.power with lull := 1 } }, hz .zaLull 0xFFFF 0 3 0, (begun (zt { noJobs.za with power := { za.power with lull := 1 } }).za
     .zaLull (hz .zaLull 0xFFFF 0 3 0)).1, (begun (zt { noJobs.za with power := { za.power with lull := 1 } }).za .zaLull (hz .zaLull 0xFFFF 0 3
     0)).2, test_begins (by constructor <;> first | exact test_crc .. | decide +kernel) (by decide +kernel) (by decide +kernel), by decide +kernel⟩,
   ⟨powered { za.power with lull := 1 }, hz .zaWake 0xFFFF 0 0 0, (begun (powered { za.power with lull := 1 }).za .zaWake (hz .zaWake 0xFFFF 0 0
     0)).1, (begun (powered { za.power with lull := 1 }).za .zaWake (hz .zaWake 0xFFFF 0 0 0)).2, test_begins
     (by constructor <;> first | exact test_crc .. | decide +kernel) (by decide +kernel) (by decide +kernel), Or.inl (by decide +kernel)⟩,
   ⟨powered { za.power with lull := 2 }, hz .zaWake 0xFFFF 0 0 0, (begun (powered { za.power with lull := 2 }).za .zaWake (hz .zaWake 0xFFFF 0 0
     0)).1, (begun (powered { za.power with lull := 2 }).za .zaWake (hz .zaWake 0xFFFF 0 0 0)).2, test_begins
     (by constructor <;> first | exact test_crc .. | decide +kernel) (by decide +kernel) (by decide +kernel), Or.inr (by decide +kernel)⟩,
   ⟨both, hz .zaReset 0xFFFF 0 1 0, _, by constructor <;> first | exact test_crc .. | decide +kernel, rfl, (by decide +kernel)⟩⟩

theorem test_witness_EveryStepKeepsTheCanonicalForms :
    (∃ (s : State) (t : State), s.canonical ∧ step s = .next t) :=
  ⟨{ both with pending := [.zaTick] }, _, (by simp only [State.canonical, Dtu.canonical, Za.canonical]; decide +kernel), rfl⟩

end Sys2Proof.Tests
end

section
/-!
PROOFS. What the rows of the Finlos ports do (spec chapter 02): accesses of the Host Port, the interrupt output, the sealed tag
area, probe samples, and dropped fault messages.
-/
namespace Sys2Proof.Machine

/-! ### Accesses of the Host Port (R41 to R44). -/

/-- While the core runs, por_n_i is high. -/
theorem Dtu.por_of_runs {d : Dtu} (h : d.runs = true) : d.power.por = false := by
  simp only [Dtu.runs, Dtu.coreReset, Bool.and_eq_true, Bool.not_eq_true', Bool.or_eq_false_iff] at h
  obtain ⟨-, ⟨hpor, -⟩, -⟩ := h
  exact hpor

/-- A Host Port write to a register that answers stores the word and ends with an acknowledge. -/
theorem Dtu.hostWrite_of_answers {d : Dtu} {a : Nat} (w : W) (hpor : d.power.por = false) (halign : a / 4 * 4 = a)
    (hans : d.hostAnswers a = true) :
    d.hostWrite a w = { (d.hostStore a w).1 with
      host := { (d.hostStore a w).1.host with ack := true, err := (d.hostStore a w).2, rdata := 0 } } := by
  simp [Dtu.hostWrite, Dtu.hostAccess, hpor, halign, hans]

/-- While the core runs, every register that exists answers. -/
theorem Dtu.hostAnswers_of_runs {d : Dtu} {a : Nat} (hruns : d.runs = true) (hread : (d.hostRead a).isSome = true) :
    d.hostAnswers a = true := by
  simp [Dtu.hostAnswers, hruns, hread]

/-- An always-on register answers in every Lull state and in reset. -/
theorem Dtu.hostAnswers_of_alwaysOn {d : Dtu} {a : Nat} (hon : hostAlwaysOn a = true) (hread : (d.hostRead a).isSome = true) :
    d.hostAnswers a = true := by
  simp [Dtu.hostAnswers, hon, hread]

/-- A row that is a Host Port write to a register that answers: what the register's store makes of the DTU, acknowledged. -/
theorem DtuBecomes.of_hostWrite {c : Instr} {s : State} {a : Nat} {w : W} {d : Dtu} {err : Bool}
    (hrow : exec c s = .next (s.onDtu (·.hostWrite a w))) (hpor : s.dtu.power.por = false) (halign : a / 4 * 4 = a)
    (hans : s.dtu.hostAnswers a = true) (hstore : s.dtu.hostStore a w = (d, err)) :
    DtuBecomes c s { d with host := { d.host with ack := true, err, rdata := 0 } } :=
  .of_eq hrow (by rw [Dtu.hostWrite_of_answers w hpor halign hans, hstore])

/-! ### The interrupt registers (R45, R46). -/

/-- Two words share a set bit exactly where their conjunction is not zero. -/
theorem and_ne_zero_iff_exists_bit (x y : W) :
    x &&& y ≠ 0 ↔ ∃ i, i < 32 ∧ bit x i = true ∧ bit y i = true := by
  constructor
  · refine fun hne => Classical.byContradiction fun hnone => hne (BitVec.eq_of_getLsbD_eq fun i hi => ?_)
    have hand : ¬ (bit x i = true ∧ bit y i = true) := fun h => hnone ⟨i, hi, h⟩
    rw [bit_eq_getLsbD, bit_eq_getLsbD, ← Bool.and_eq_true, Bool.not_eq_true] at hand
    rw [BitVec.getLsbD_and, hand]
    exact BitVec.getLsbD_zero.symm
  · rintro ⟨i, -, hx, hy⟩ hzero
    rw [bit_eq_getLsbD] at hx hy
    have hbit : (x &&& y).getLsbD i = true := by rw [BitVec.getLsbD_and, hx, hy, Bool.and_self]
    rw [hzero] at hbit
    exact absurd (BitVec.getLsbD_zero.symm.trans hbit) Bool.false_ne_true

/-- irq_o is high exactly while an enabled interrupt is pending. -/
theorem Dtu.irqLevel_iff (d : Dtu) :
    d.irqLevel = true ↔ ∃ i, i < 32 ∧ bit d.host.irqStatus i = true ∧ bit d.host.irqEnable i = true := by
  rw [← and_ne_zero_iff_exists_bit, Dtu.irqLevel, bne_iff_ne]

theorem Dtu.hostStore_irqStatus (d : Dtu) (w : W) :
    d.hostStore 0x30 w = ({ d with host := { d.host with irqStatus := d.host.irqStatus &&& ~~~w } }, false) := rfl

theorem Dtu.hostStore_obsStatus (d : Dtu) (w : W) :
    d.hostStore 0x40 w = ({ d with host := { d.host with
      clkLost := d.host.clkLost &&& ~~~(BitVec.ofNat 16 (fld w 31 16)) } }, false) := rfl

/-- Settles O15: a set bit of the conjunction is the interrupt that is pending, and a written 1 masks its bit out. -/
theorem interruptLevelFollowsStatus : Obligations.InterruptLevelFollowsStatus := by
  unfold Obligations.InterruptLevelFollowsStatus
  refine ⟨Dtu.irqLevel_iff, fun d i hi => ?_, fun s w hruns => ?_, fun s w hruns => ?_⟩
  · rw [Dtu.irq_host]
    exact ⟨bit_setFld_same _ i (by omega), fun j _ hne => bit_setFld_other _ i j (by omega) hne⟩
  · have hans : s.dtu.hostAnswers 0x30 = true := Dtu.hostAnswers_of_runs hruns rfl
    exact .of_hostWrite rfl (Dtu.por_of_runs hruns) rfl hans (Dtu.hostStore_irqStatus s.dtu w)
  · have hans : s.dtu.hostAnswers 0x40 = true := Dtu.hostAnswers_of_runs hruns rfl
    exact .of_hostWrite rfl (Dtu.por_of_runs hruns) rfl hans (Dtu.hostStore_obsStatus s.dtu w)

/-! ### The tag area and its seal (R76, R462). -/

/-- A word of the tag area reads as it stands there. -/
theorem Dtu.hostRead_tag (d : Dtu) (i : Fin 64) :
    d.hostRead (0x100 + 4 * i.val) = some (Memory.readWord d.host.tag (4 * i.val)) := by
  have hlt := i.isLt
  unfold Dtu.hostRead
  (repeat rw [if_neg (by omega)])
  rw [if_pos (by omega), Nat.add_sub_cancel_left]

/-- The tag area answers in every Lull state and in reset. -/
theorem Dtu.hostAnswers_tag (d : Dtu) (i : Fin 64) : d.hostAnswers (0x100 + 4 * i.val) = true := by
  have hlt := i.isLt
  refine Dtu.hostAnswers_of_alwaysOn ?_ (by rw [Dtu.hostRead_tag]; rfl)
  rw [hostAlwaysOn, decide_eq_true_eq]
  omega

theorem Dtu.hostStore_tag (d : Dtu) (i : Fin 64) (w : W) :
    d.hostStore (0x100 + 4 * i.val) w = (d.tagWrite i.val w, false) := by
  have hlt := i.isLt
  unfold Dtu.hostStore
  (repeat rw [if_neg (by omega)])
  rw [if_pos (by omega), Nat.add_sub_cancel_left, Nat.mul_div_cancel_left _ (by omega)]

/-- A structured word of a sealed tag keeps its contents; the attempt is counted. -/
theorem Dtu.tagWrite_of_guarded {d : Dtu} {i : Nat} (w : W) (hi : i < 8) (hsealed : d.host.sealed = true) :
    d.tagWrite i w = { d with host := { d.host with refusedWrites := min 0xFFFF (d.host.refusedWrites + 1) } } :=
  if_pos ⟨hi, hsealed⟩

/-- A word beyond the structured ones, or any word before the seal, is written. -/
theorem Dtu.tagWrite_of_unguarded {d : Dtu} {i : Nat} (w : W) (h : 8 ≤ i ∨ d.host.sealed = false) :
    d.tagWrite i w = { d with host := { d.host with
      tag := d.host.tag.writeWord (4 * i) w, refused := d.host.refused && decide (8 ≤ i) } } := by
  refine if_neg fun ⟨hi, hsealed⟩ => ?_
  rcases h with h | h
  · omega
  · simp [h] at hsealed

/-- TAG_AREA_WRITE writes its word under the rule of the seal and is acknowledged without error. -/
theorem tagAreaWrite_becomes {s : State} {i : Fin 64} {w : W} {host : HostSide} (hpor : s.dtu.power.por = false)
    (hwrite : s.dtu.tagWrite i.val w = { s.dtu with host }) :
    DtuBecomes (.tagAreaWrite i w) s { s.dtu with host := { host with ack := true, err := false, rdata := 0 } } :=
  .of_hostWrite rfl hpor (by omega) (s.dtu.hostAnswers_tag i) (by rw [Dtu.hostStore_tag, hwrite])

/-- A tag area with one word written reads that word there, and every other word as before. -/
theorem Dtu.hostRead_tag_of_writeWord {d e : Dtu} {i : Fin 64} {w : W}
    (htag : e.host.tag = d.host.tag.writeWord (4 * i.val) w) :
    e.hostRead (0x100 + 4 * i.val) = some w ∧
      ∀ j : Fin 64, j ≠ i → e.hostRead (0x100 + 4 * j.val) = d.hostRead (0x100 + 4 * j.val) := by
  refine ⟨?_, fun j hne => ?_⟩
  · rw [Dtu.hostRead_tag, htag, Memory.readWord_writeWord_same]
  · have hval : j.val ≠ i.val := fun heq => hne (Fin.ext heq)
    rw [Dtu.hostRead_tag, Dtu.hostRead_tag, htag, Memory.readWord_writeWord_other _ _ _ _ (by omega)]

/-- PIN_RESET of a DTU whose rst_n_i was high: the pin reset. -/
theorem pinReset_becomes {s : State} (hrst : s.dtu.power.rst = false) : DtuBecomes .pinReset s s.dtu.pinReset :=
  DtuBecomes.of_eq (f := Dtu.rstEdge) rfl (by simp [Dtu.rstEdge, hrst])

/-- HOST_POWER_ON_RESET of a DTU whose por_n_i was high: the power-on reset. -/
theorem hostPowerOnReset_becomes {s : State} (hpor : s.dtu.power.por = false) :
    DtuBecomes .hostPowerOnReset s s.dtu.powerOnReset :=
  DtuBecomes.of_eq (f := Dtu.porEdge) rfl (by simp [Dtu.porEdge, hpor])

theorem Dtu.hostStore_tagSeal (d : Dtu) (w : W) :
    d.hostStore 0x20 w = ({ d with
      host := { d.host with sealed := d.host.sealed || bit w 0 }
      link := { d.link with helloWait := d.link.helloWait ||
        (bit w 0 && !d.host.sealed && decide (d.link.linkState = 1)) } }, false) := rfl

/-- Settles O16: a tag word goes through `Dtu.tagWrite`, whose two cases are the guarded and the unguarded word; DTU_TAG_SEAL and the
resets are their own updates; a word read back is the word written. -/
theorem sealGuardsTheTag : Obligations.SealGuardsTheTag := by
  unfold Obligations.SealGuardsTheTag
  refine ⟨⟨fun s i w hpor hi hsealed => ?guarded, fun s i w hpor hfree => ?unguarded,
    fun s w hpor => ?sealing, fun s hpor => ?powerOn, fun s hrst => ?pin⟩, fun s t i w hpor hsealed hexec => ?readBack⟩
  case guarded => exact tagAreaWrite_becomes hpor (Dtu.tagWrite_of_guarded w hi hsealed)
  case unguarded => exact tagAreaWrite_becomes hpor (Dtu.tagWrite_of_unguarded w hfree)
  case sealing =>
    have hans : s.dtu.hostAnswers 0x20 = true := Dtu.hostAnswers_of_alwaysOn rfl rfl
    exact .of_hostWrite rfl hpor rfl hans (Dtu.hostStore_tagSeal s.dtu w)
  case powerOn => exact ⟨_, hostPowerOnReset_becomes hpor, rfl, fun _ => rfl⟩
  case pin => exact ⟨_, pinReset_becomes hrst, rfl, rfl⟩
  case readBack =>
    have hdtu := (tagAreaWrite_becomes hpor (Dtu.tagWrite_of_unguarded w (.inr hsealed))).dtu hexec
    exact Dtu.hostRead_tag_of_writeWord (by rw [hdtu])

/-! ### Samples of the probes (R48, R49, R91). -/

/-- A strobe event of a running domain enters its front. -/
theorem Dtu.probeEvent_of_samples {d : Dtu} {k : Nat} (hk : k / 64 < d.build.nClusters)
    (hs : d.samples (d.build.strobeDomain k) = true) :
    d.probeEvent k = d.sampleFront (.strobe k) (fun r => { r with events := r.events + 1 }) :=
  if_pos (by simp [hk, hs])

/-- A strobe event of a domain whose probes do not sample is ignored. -/
theorem Dtu.probeEvent_of_not_samples {d : Dtu} {k : Nat} (hs : d.samples (d.build.strobeDomain k) = false) :
    d.probeEvent k = d :=
  if_neg (by simp [hs])

/-- A tap sample of a running domain enters its front. -/
theorem Dtu.tapSampled_of_samples {d : Dtu} {t : Nat} (x : BitVec 16) (hs : d.samples (d.build.tapDomain t) = true) :
    d.tapSampled t x = d.sampleFront (.tap t) (fun r => { r with samples := r.samples ++ [x] }) :=
  if_pos hs

/-- A tap sample of a domain whose probes do not sample is ignored. -/
theorem Dtu.tapSampled_of_not_samples {d : Dtu} {t : Nat} (x : BitVec 16) (hs : d.samples (d.build.tapDomain t) = false) :
    d.tapSampled t x = d :=
  if_neg (by simp [hs])

/-- The probes of a domain in reset do not sample. -/
theorem Dtu.samples_of_held {d : Dtu} {dom : Nat} (h : d.cells.held.contains dom = true) : d.samples dom = false := by
  rw [Dtu.samples, h]
  rfl

/-- A VALUE cell takes the samples of a record one after the other, each through the sum, the minimum and the maximum. -/
theorem CellVal.addRec_value {w : W} (v : CellVal) (r : FrontRec) (hw : cellMode w = 4) :
    v.addRec w r = r.samples.foldl (fun v x => v.addSample (cellSigned w) (cellShift w) x) v := by
  simp only [CellVal.addRec, hw]

/-- Settles O4: a sample of a running domain is one `Dtu.sampleFront`, on the marker's side; a held domain does not sample; the
last sample of a VALUE record is the last step of its fold. -/
theorem probeSamplesCountOnce : Obligations.ProbeSamplesCountOnce := by
  unfold Obligations.ProbeSamplesCountOnce
  refine ⟨fun s k hk hs => ?_, fun s t x hs => ?_, fun s k hheld => ?_, fun s t x hheld => ?_, fun v w xs x n hw => ?_⟩
  · exact DtuBecomes.of_eq (f := (·.probeEvent k)) rfl (Dtu.probeEvent_of_samples hk hs)
  · exact DtuBecomes.of_eq (f := (·.tapSampled t x)) rfl (Dtu.tapSampled_of_samples x hs)
  · exact LeavesAll.of_dtu (f := (·.probeEvent k)) rfl (Dtu.probeEvent_of_not_samples (Dtu.samples_of_held hheld))
  · exact LeavesAll.of_dtu (f := (·.tapSampled t x)) rfl (Dtu.tapSampled_of_not_samples x (Dtu.samples_of_held hheld))
  · rw [CellVal.addRec_value v _ hw, CellVal.addRec_value v _ hw, List.foldl_append, List.foldl_cons, List.foldl_nil]

/-! ### Dropped fault messages (R62). -/

/-- Settles O23: FAULT_DROP_PULSE is `Dtu.faultDrop`, a count and the interrupt bit 9. -/
theorem faultDropsAreCounted : Obligations.FaultDropsAreCounted := by
  unfold Obligations.FaultDropsAreCounted
  exact fun s => DtuBecomes.of_eq (f := Dtu.faultDrop) rfl rfl

end Sys2Proof.Machine
end

section
/-!
PROOFS. What the rows of the DTU's measurement do (spec chapter 03): the queue of live contributions, from the closing of a cluster
to the end of the work frame.
-/
namespace Sys2Proof.Machine

/-! ### What a contribution waits on: the link, the running frame and the queue (R96, R97). -/

/-- The part of a DTU that its contributions leave through: the link, the frames begun and the send queue. -/
def Dtu.sending (d : Dtu) : DtuLink × Nat × List QueuedContrib := (d.link, d.time.begun, d.cells.sendQueue)

/-- `e` is `d` with contributions of the running work frame added to its send queue, and the same link. -/
def Dtu.QueuesRunning (d e : Dtu) : Prop :=
  ∃ q, e.cells.sendQueue = d.cells.sendQueue ++ q ∧ (∀ x ∈ q, x.work = d.time.begun) ∧ e.link = d.link

/-- A change that keeps what the contributions leave through may come before the queueing. -/
theorem Dtu.QueuesRunning.of_sending {d d' e : Dtu} (h : d'.QueuesRunning e) (hsend : d'.sending = d.sending) :
    d.QueuesRunning e := by
  simp only [Dtu.sending, Prod.mk.injEq] at hsend
  obtain ⟨hlink, hbegun, hqueue⟩ := hsend
  obtain ⟨q, hq, hwork, hl⟩ := h
  exact ⟨q, hqueue ▸ hq, hbegun ▸ hwork, hl.trans hlink⟩

/-- Time that passes within a frame begins none. -/
@[simp] theorem Dtu.sending_reach (d : Dtu) (ns : Nat) : (d.reach ns).sending = d.sending := by
  unfold Dtu.reach TimeUnit.reach
  split <;> rfl

@[simp] theorem Dtu.sending_markBoth (d : Dtu) (ds : List Nat) : (d.markBoth ds).sending = d.sending := by
  unfold Dtu.markBoth
  split <;> rfl

@[simp] theorem Dtu.sending_mergeFront (d : Dtu) (src : ProbeSource) (f : Front) :
    (d.mergeFront src f).sending = d.sending := by
  unfold Dtu.mergeFront
  dsimp only
  split <;> rfl

@[simp] theorem Dtu.sending_mergeFronts (d : Dtu) : d.mergeFronts.sending = d.sending :=
  List.foldlRecOn (motive := fun e : Dtu => e.sending = d.sending) _ _ rfl
    fun e he p _ => (e.sending_mergeFront p.1 p.2).trans he

@[simp] theorem Dtu.sending_satInjections (d : Dtu) (cl : Closing) : (d.satInjections cl).1.sending = d.sending := rfl

/-- The share of one slot is made and not yet queued. -/
theorem Dtu.sending_closeSlot (cl : Closing) (cluster : Nat) (fenced incomplete : Bool) (sat data : List W)
    (acc : Dtu × List (Nat × List W)) (k : Nat) :
    (Dtu.closeSlot cl cluster fenced incomplete sat data acc k).1.sending = acc.1.sending := by
  unfold Dtu.closeSlot
  dsimp only
  split <;> rfl

theorem Dtu.sending_closeSlots (cl : Closing) (cluster : Nat) (fenced incomplete : Bool) (sat data : List W) (ks : List Nat)
    (acc : Dtu × List (Nat × List W)) :
    (ks.foldl (Dtu.closeSlot cl cluster fenced incomplete sat data) acc).1.sending = acc.1.sending :=
  List.foldlRecOn (motive := fun r : Dtu × List (Nat × List W) => r.1.sending = acc.1.sending) _ _ rfl
    fun r hr k _ => (Dtu.sending_closeSlot cl cluster fenced incomplete sat data r k).trans hr

/-! ### A closing cluster queues for the running frame (R93, R94, R96). -/

/-- What a closed cluster has made is queued under the frames begun, or not at all while an injection holds it. -/
theorem Dtu.queueClosed_queuesRunning (d : Dtu) (cl : Closing) (incomplete fenced : Bool) (sat data : List W)
    (made : List (Nat × List W)) : d.QueuesRunning (d.queueClosed cl incomplete fenced sat data made) := by
  cases hheld : hasInjection d.injections 0x21 cl.next with
  | true => exact ⟨[], by simp [Dtu.queueClosed, hheld], by simp, rfl⟩
  | false => exact ⟨_, by simp only [Dtu.queueClosed, hheld]; rfl, List.forall_mem_map.mpr fun _ _ => rfl, rfl⟩

theorem Dtu.closeCluster_queuesRunning (d : Dtu) : d.QueuesRunning d.closeCluster := by
  unfold Dtu.closeCluster
  split
  · exact ⟨[], (List.append_nil _).symm, by simp, rfl⟩
  · exact (Dtu.queueClosed_queuesRunning ..).of_sending ((Dtu.sending_closeSlots ..).trans (d.sending_satInjections _))

/-- A cluster closed at the limit queues as one closed in order does. -/
theorem Dtu.limitClose_queuesRunning (d : Dtu) : d.QueuesRunning d.limitClose := by
  unfold Dtu.limitClose
  split
  · exact ⟨[], (List.append_nil _).symm, by simp, rfl⟩
  · refine Dtu.QueuesRunning.of_sending (Dtu.closeCluster_queuesRunning _) ?_
    rw [Dtu.sending_mergeFronts, Dtu.sending_markBoth]
    rfl

/-- CLUSTER_CLOSE of the next cluster, its domains all seen, merges the fronts and closes it. -/
theorem Dtu.clusterClose_of_next {d : Dtu} {cl : Closing} {c : Nat} (hclosing : d.cells.closing = some cl) (hnext : cl.next = c)
    (hc : c < d.build.nClusters) (hunseen : d.unseen cl.cfg c = []) (hruns : d.runs = true) :
    d.clusterClose c = d.mergeFronts.closeCluster := by
  simp only [Dtu.clusterClose, hclosing]
  exact if_pos ⟨hnext, hc, hunseen, hruns⟩

/-- CLOSURE_LIMIT of the next cluster closes it at the start of slot 2. -/
theorem Dtu.closureLimitAt_of_next {d : Dtu} {cl : Closing} {c : Nat} (hclosing : d.cells.closing = some cl)
    (hnext : cl.next = c) (hc : c < d.build.nClusters) (hruns : d.runs = true) :
    d.closureLimitAt c = (d.reach (cl.begunAt + 32768)).limitClose := by
  simp only [Dtu.closureLimitAt, hclosing]
  exact if_pos ⟨hnext, hc, hruns⟩

/-! ### The end of the work frame (R97). -/

/-- What stays queued: the replays, and the contributions of the running frame. -/
theorem Dtu.expireContribs_sendQueue (d : Dtu) : d.expireContribs.cells.sendQueue =
    d.cells.sendQueue.filter (fun q => q.replay || decide (d.time.begun ≤ q.work)) := by
  refine List.filter_congr fun q _ => ?_
  rw [Bool.not_and, Bool.not_not, ← decide_not, decide_eq_decide.mpr Nat.not_lt]

/-- Settles O12: CONTRIB_EXPIRY is `Dtu.expireContribs`; both closings end in `Dtu.queueClosed`, which stamps the frames begun, and
nothing before it touches the link, the frames begun or the queue. -/
theorem lateContributionsAreNeverSent : Obligations.LateContributionsAreNeverSent := by
  unfold Obligations.LateContributionsAreNeverSent
  refine ⟨fun s => ?expiry, fun s cl c hclosing hnext hc hruns => ⟨fun hunseen => ?inOrder, ?atLimit⟩⟩
  case expiry =>
    exact ⟨_, .of_eq (f := Dtu.expireContribs) rfl rfl, s.dtu.expireContribs_sendQueue, rfl, rfl, rfl, rfl, rfl⟩
  case inOrder =>
    obtain ⟨q, hq⟩ := s.dtu.mergeFronts.closeCluster_queuesRunning.of_sending s.dtu.sending_mergeFronts
    exact ⟨_, q, .of_eq (f := (·.clusterClose c)) rfl (Dtu.clusterClose_of_next hclosing hnext hc hunseen hruns), hq⟩
  case atLimit =>
    obtain ⟨q, hq⟩ := (s.dtu.reach (cl.begunAt + 32768)).limitClose_queuesRunning.of_sending (s.dtu.sending_reach _)
    exact ⟨_, q, .of_eq (f := (·.closureLimitAt c)) rfl (Dtu.closureLimitAt_of_next hclosing hnext hc hruns), hq⟩

end Sys2Proof.Machine
end

section
/-!
PROOFS. The rows: a step runs the front command, each command completes, and a command of one unit leaves the other as it was.
-/
namespace Sys2Proof.Machine

/-- Settles O1: by the two branches of `step`. -/
theorem stepRunsFrontCommand : Obligations.StepRunsFrontCommand := by
  refine ⟨fun s c rest h => ?_, fun s h => ?_⟩
  · unfold step
    rw [h]
  · have hidle : step s = .next s.idle := by
      unfold step
      rw [h]
    exact hidle

/-- Settles O2: every row answers with the next state. -/
theorem everyCommandCompletes : Obligations.EveryCommandCompletes := by
  intro c s
  cases c <;> exact ⟨_, rfl⟩

/-! ### What a command leaves as it was. -/

/-- `t` differs from `s` at most in the unit of the side, if there is one, and in the draws of free values. -/
def State.KeepsBut (side : Option Side) (s t : State) : Prop :=
  (side = some .dtu → t.za = s.za) ∧ (side = some .za → t.dtu = s.dtu) ∧ t.pending = s.pending

theorem State.keepsBut_self (side : Option Side) (s : State) : s.KeepsBut side s := ⟨fun _ => rfl, fun _ => rfl, rfl⟩

theorem State.keepsBut_onDtu (s : State) (f : Dtu → Dtu) : s.KeepsBut (some .dtu) (s.onDtu f) :=
  ⟨fun _ => rfl, fun h => Side.noConfusion (Option.some.inj h), rfl⟩

theorem State.keepsBut_onZa (s : State) (f : Za → Za) : s.KeepsBut (some .za) (s.onZa f) :=
  ⟨fun h => Side.noConfusion (Option.some.inj h), fun _ => rfl, rfl⟩

theorem State.keepsBut_onSide (s : State) (side : Side) (f : Dtu → Dtu) (g : Za → Za) :
    s.KeepsBut (some side) (s.onSide side f g) := by
  cases side with
  | dtu => exact s.keepsBut_onDtu f
  | za => exact s.keepsBut_onZa g

theorem State.KeepsBut.draw {side : Option Side} {s t : State} (h : s.KeepsBut side t) : s.KeepsBut side t.draw := h

theorem State.KeepsBut.ite {side : Option Side} {c : Prop} [Decidable c] {s x y : State} (hx : s.KeepsBut side x)
    (hy : s.KeepsBut side y) : s.KeepsBut side (if c then x else y) := by
  split
  · exact hx
  · exact hy

/-- A command that names no unit of its own leaves the queue. -/
theorem State.keepsBut_none {s t : State} (h : t.pending = s.pending) : s.KeepsBut none t :=
  ⟨fun h => (nomatch h), fun h => (nomatch h), h⟩

theorem State.keepsBut_husk (s : State) (op : Opcode) (h : HuskCmd) : s.KeepsBut (some h.side) (s.husk op h) := by
  cases hside : h.side with
  | dtu =>
    rw [State.husk_dtu s op h hside]
    exact ⟨fun _ => rfl, fun h => Side.noConfusion (Option.some.inj h), rfl⟩
  | za =>
    rw [State.husk_za s op h hside]
    exact ⟨fun h => Side.noConfusion (Option.some.inj h), fun _ => rfl, rfl⟩

theorem State.ctxMaskWrite_pending (s : State) (c mask : Nat) : (s.ctxMaskWrite c mask).pending = s.pending := by
  unfold State.ctxMaskWrite
  extract_lets
  split
  · rfl
  · split <;> rfl

theorem State.KeepsBut.of_next {side : Option Side} {s x t : State} (h : (Host.Outcome.next x : Answer) = .next t)
    (hx : s.KeepsBut side x) : s.KeepsBut side t := Host.Outcome.next.inj h ▸ hx

/-- Each row changes the unit of its side alone. -/
theorem exec_keepsBut {c : Instr} {s t : State} (h : exec c s = .next t) : s.KeepsBut (sideOf c) t := by
  cases c with
  | ident | status | handleQuery | handleCancel | regRead | regWrite | tagWrite | softReset | frameReset | cellSample |
    linkResetCmd | retainReplay | margin | traceFlush | traceSave | traceRestore | timeResync | timeStep | ctxAdmit |
    ctxTeardown | ctxQuota | membership | podPlan | featPlan | detPlan | detReset | syncAlloc | syncFree | syncSet | syncAdd
    | syncWait | syncBind | syncRead | modelLoad | modelQuery | featWrite | weightSwap | digestLoad | resultHistory |
    subscribe | seedPair | frostArm | frostCancel | frostNow | frostThaw | frostQuery | scanOut | loopTest | selfTest |
    faultInject | fence | unfence | readmit | liveClaim | liveQuery | rackSet | ckptPut | ckptGet | rebuild | faultLog |
    lullHold | lullRelease | zaLull | zaWake | zaReset | pwrLimit =>
    exact .of_next h (s.keepsBut_husk _ _)
  | hostPortWrite | tagAreaWrite | dtuTagSeal | dtuTrcHostLo | irqStatusClear | timeSrcSelect | compat5Select | ulLatWrite |
    cellCfgWrite | clusterFenceWrite | dtuCtxFrontWrite | traceEnable | marginBudgetWrite | trigArm | ulRateWrite |
    hostPowerOnReset | pinReset | ulPathReset | faultIntakeReset | obsDomainReset | lullRequest | lullExit | marginAck |
    marginAckRelease | marginStall | faultPortAccept | faultDropPulse | probeEvent | tapSample | digestBeat |
    digestPendingTimeout | digestPacketSend | obsClkLost | timeClkTolerance | timePortWord | triggerFire | dtuTick |
    clusterClose | closureLimit | contribExpiry | slotBoundary | healthSample | faultRecordSend | traceCapture |
    traceBlockClose | compressorFullStop | compressorResume | traceBlockSend | ulCreditReturn | ulCreditMinTimeout |
    ulRxPacket | helloSend | admitMsg | param | arm | cancel | thaw | scanReq =>
    exact .of_next h (s.keepsBut_onDtu _)
  | timePortSlotPulse | timeSync => exact .of_next h (s.keepsBut_onDtu _).draw
  | relayedCompletion | targetTimeout | dtuLongQueueRelease | featPlanStagingExpiry | markArm | gclCommit | shaperChange |
    portConfigWrite | parentChange | timeSyncSend | timeEcho | timeMark | dtuLinkStateChange | contrib | trayDeadline |
    partialResult | fabricNodeDeadline | finalResult | reorderSkipExpiry | podSlotGrant | podRerun | paramSend | zaTick |
    featureRow | ensembleItem | checkArbitration | scoringComplete | programBatch | detectorRun | bandDerive | seedDelta |
    seedCommit | seedUpdateSend | seedAck | seedNack | seedResync | seedbankLost | restoreReq | restoreData | fetchReq |
    fetchOffer | fetchDecline | fetchChunk | fetchSourceTimeout | modelVerify | modelPlaced | replicaReport |
    replicaCollectTimeout | replicaVerdict | hail | hailEvaluate | rmFailover | checkpoint | ckptIncomplete |
    rebuildPartnerStall | rebuildReplay | rebuildLive | fenceNotice | memError | scrubRead | ack | scanData | frostRepeat |
    loadReq | loadData | bootSourceTimeout | imageVerify | bootRoundWait | powerUp | powerLoss | thermalTrip | svcPinReset |
    warmReset | watchdogExpiry | thermalThrottle | bulkFrame | linkLost | zaSlotBoundary | ptpSyncInterval |
    announceReceiptTimeout | inputWarn | thermalTripRestart =>
    exact .of_next h (s.keepsBut_onZa _)
  | chainRelease | ptpMessage | keomonFrame => exact .of_next h (s.keepsBut_onZa _).draw
  | timeHoldoverEntry | stepApply | hello | credit | creditSend | echo | echoReply | linkReset | frameTransmit | hailSend |
    frostStop | now | thawInstant | captureWindowEnd =>
    exact .of_next h (s.keepsBut_onSide _ _ _)
  | eccStatusRead | faultRaise | forwardFillChange => exact .of_next h ((s.keepsBut_onZa _).ite (s.keepsBut_self _))
  | doneHandle => exact .of_next h (.ite (State.keepsBut_none rfl) (State.keepsBut_none rfl))
  | ctxMaskWrite => exact .of_next h (State.keepsBut_none (s.ctxMaskWrite_pending _ _))

/-- Settles O3: each row is a change of the unit of its side. -/
theorem commandsKeepToTheirUnit : Obligations.CommandsKeepToTheirUnit := fun _ _ _ h => exec_keepsBut h

end Sys2Proof.Machine
end

section
/-!
PROOFS. What the DTU measures: merged records, stopped clocks and reset domains, the checks of its configuration.
-/
namespace Sys2Proof.Machine

/-! ### Merging (R84, R91). -/

/-- Two amounts added one after the other, past saturation too. -/
theorem CellVal.addCount_addCount (v : CellVal) (m n : Nat) : (v.addCount m).addCount n = v.addCount (m + n) := by
  unfold CellVal.addCount
  by_cases hm : (2 ^ 63 - 1 : Int) < v.value + m
  · have hmn : (2 ^ 63 - 1 : Int) < v.value + ↑(m + n) := by omega
    rw [if_pos hm, if_pos hmn]
    rcases Nat.eq_zero_or_pos n with rfl | hn
    · rfl
    · rw [if_pos (by dsimp only; omega)]
  · have hsum : v.value + (↑(m + n) : Int) = v.value + m + n := by omega
    rw [if_neg hm, hsum]

/-- Settles O5: counts add before and past saturation, and samples are folded one after the other. -/
theorem mergedRecordsAddUp : Obligations.MergedRecordsAddUp := by
  intro v w a b
  have hmode : ∀ (u : CellVal) (r : FrontRec), u.addRec w r = match cellMode w with
      | 1 => u.addCount (r.events * 2 ^ cellShift w)
      | 2 => u.addCount r.samples.length
      | 3 => u.addCount ((r.samples.map (fun x => x.toNat)).sum * 2 ^ cellShift w)
      | 4 => r.samples.foldl (fun v x => v.addSample (cellSigned w) (cellShift w) x) u
      | _ => u := fun _ _ => rfl
  simp only [hmode]
  clear hmode
  generalize cellMode w = mode
  match mode with
  | 1 => exact (CellVal.addCount_addCount ..).trans (congrArg v.addCount (Nat.add_mul ..).symm)
  | 2 => exact (CellVal.addCount_addCount ..).trans (congrArg v.addCount List.length_append.symm)
  | 3 =>
    refine (CellVal.addCount_addCount ..).trans (congrArg v.addCount ?_)
    rw [← Nat.add_mul, ← List.sum_append, ← List.map_append]
  | 4 => exact List.foldl_append.symm
  | 0 | _ + 5 => rfl

/-! ### Clocks and domains (R46, R50, R69). -/

/-- A digest record queued changes the digests and the counters alone. -/
theorem Dtu.queueDigest_eq (d : Dtu) (b : PendingBlock) (cause : Nat) (leaves : List (Nat × Nat × Nat × Bool)) (digest : Nat)
    (last : Bool) : ∃ digests counters, d.queueDigest b cause leaves digest last = { d with digests, counters } := by
  unfold Dtu.queueDigest
  dsimp only
  (repeat' split) <;> exact ⟨_, _, rfl⟩

theorem Dtu.dropLeaf_eq (d : Dtu) (chan frame : Nat) : ∃ digests counters, d.dropLeaf chan frame = { d with digests, counters } := by
  unfold Dtu.dropLeaf
  split
  · exact ⟨_, _, rfl⟩
  · obtain ⟨g, n, h⟩ := Dtu.queueDigest_eq { d with digests := _, counters := _ } _ _ _ _ _
    exact ⟨g, n, h⟩

/-- The leaves open on channels of a domain are dropped: digests and counters alone change. -/
theorem Dtu.dropLeaves_eq (d : Dtu) (chans : List Nat) (frame : Nat) :
    ∃ digests counters, chans.foldl (fun d k => d.dropLeaf k frame) d = { d with digests, counters } := by
  induction chans generalizing d with
  | nil => exact ⟨_, _, rfl⟩
  | cons k ks ih =>
    obtain ⟨g, n, hk⟩ := d.dropLeaf_eq k frame
    obtain ⟨g', n', hks⟩ := ih (d.dropLeaf k frame)
    exact ⟨g', n', by rw [List.foldl_cons, hks, hk]⟩

theorem mem_addDoms_self (l : List Nat) (x : Nat) : x ∈ addDoms l [x] := by
  by_cases h : x ∈ l <;> simp [addDoms, h]

/-- The domain was not seen to be past the tick: its frame, still closing, and its domain are incomplete. -/
theorem Dtu.markBoth_of_closing {d : Dtu} {cl : Closing} {x : Nat} (h : d.cells.closing = some cl) :
    d.markBoth [x] = ({ d with cells := { d.cells with
      closing := some { cl with domIncomplete := addDoms cl.domIncomplete [x], flagged := true }
      domIncomplete := addDoms d.cells.domIncomplete [x] } } : Dtu).count .incompleteFrames (b2n !cl.flagged) := by
  unfold Dtu.markBoth
  rw [h]
  cases hf : cl.flagged <;> simp only [hf] <;> rfl

theorem Dtu.markBoth_of_none {d : Dtu} (h : d.cells.closing = none) (ds : List Nat) : d.markBoth ds = d := by
  unfold Dtu.markBoth
  rw [h]

/-- Settles O6: each event is its row's one branch. -/
theorem clockAndDomainLosses : Obligations.ClockAndDomainLosses := by
  unfold Obligations.ClockAndDomainLosses
  refine ⟨fun s d cl hd hheld hcl hmark => ?before, fun s d hd hheld hpast => ?after, fun s d hd => ?asserted,
    fun s d hd => ?released, fun s hst => ?unlocked, fun s hst => ?locked⟩
  case before =>
    refine ⟨_, .of_eq (f := (·.obsClkLost d)) rfl rfl, ?_⟩
    simp only [Dtu.obsClkLost, hd, hheld, hmark, Dtu.markBoth_of_closing hcl]
    refine ⟨rfl, rfl, mem_addDoms_self _ _, rfl, rfl, rfl, ?_⟩
    exact fld_setFld_same _ 5 5 1 (by decide) (by decide)
  case after =>
    refine .of_eq (f := (·.obsClkLost d)) rfl ?_
    have hmark : (if s.dtu.cells.markers.contains d.val then s.dtu else s.dtu.markBoth [d.val]) = s.dtu := by
      rcases hpast with hnone | hseen
      · rw [Dtu.markBoth_of_none hnone, ite_self]
      · rw [if_pos hseen]
    simp only [Dtu.obsClkLost, hd, hheld, hmark]
    rfl
  case asserted =>
    refine ⟨_, .of_eq (f := (·.obsDomainReset d true)) rfl rfl, ?_⟩
    simp only [Dtu.obsDomainReset, if_neg (Nat.not_le.2 hd), if_true]
    generalize s.dtu.frameOf _ = frame
    obtain ⟨g, n, h⟩ := Dtu.dropLeaves_eq { s.dtu with cells := { s.dtu.cells with
      domIncomplete := addDoms s.dtu.cells.domIncomplete [d.val]
      fronts := s.dtu.cells.fronts.filter (fun p => s.dtu.build.sourceDomain p.1 != d.val)
      held := addDoms s.dtu.cells.held [d.val] } } (s.dtu.build.chansOf d.val) frame
    rw [h]
    exact ⟨rfl, rfl, rfl, rfl, rfl, rfl, rfl⟩
  case released =>
    refine .of_eq (f := (·.obsDomainReset d false)) rfl ?_
    simp only [Dtu.obsDomainReset, if_neg (Nat.not_le.2 hd), Bool.false_eq_true, if_false]
  case unlocked =>
    refine .of_eq (f := Dtu.timeClk) rfl ?_
    exact if_neg hst
  case locked =>
    refine ⟨_, .of_eq (f := Dtu.timeClk) rfl rfl, ?_⟩
    have hrun : s.dtu.timeClk = (s.dtu.irq 4).withTime (s.dtu.time.enter .holdover) := if_pos hst
    have henter : s.dtu.time.enter .holdover =
        (({ s.dtu.time with state := .holdover, run := 0, missed := 0 } : TimeUnit).count .holdoverEntries, [.holdover]) := by
      unfold TimeUnit.enter
      rw [if_neg (by rw [hst]; decide)]
    rw [hrun, henter]
    refine ⟨rfl, ?_, rfl, rfl⟩
    exact fld_setFld_same _ 4 4 1 (by decide) (by decide)

end Sys2Proof.Machine
end

section
/-!
PROOFS. Cell, cluster and context configuration, as it is written.
-/
namespace Sys2Proof.Machine

/-! ### Cells and clusters (R81, R82, R86). -/

theorem Dtu.clusterFence_of_lt {d : Dtu} {c : Nat} (fenced : Bool) (h : c < d.build.nClusters) :
    d.clusterFence c fenced = (d.writeClu c (setFld (cluWord d.cells.cfg c) 8 8 (b2n fenced))).earn stOk :=
  if_neg (Nat.not_le.2 h)

theorem Dtu.clusterFence_of_ge {d : Dtu} {c : Nat} (fenced : Bool) (h : d.build.nClusters ≤ c) :
    d.clusterFence c fenced = d.earn stBadParam := if_pos h

/-- Settles O7: a cell word is written or refused by `cellCfgStatus`, a fence bit by the number of clusters. -/
theorem configurationWritesAreChecked : Obligations.ConfigurationWritesAreChecked := by
  unfold Obligations.ConfigurationWritesAreChecked
  refine ⟨fun s n w hn hst => ?_, fun s n w hn hst => ?_, fun s n w hn => ?_, fun s c f hc => ?_, fun s c f hc => ?_⟩
  · refine .of_eq (f := (·.cellCfgWrite n w)) rfl ?_
    simp only [Dtu.cellCfgWrite, if_neg (Nat.not_le.2 hn), hst, if_true]
    rfl
  · refine .of_eq (f := (·.cellCfgWrite n w)) rfl ?_
    simp only [Dtu.cellCfgWrite, if_neg (Nat.not_le.2 hn), if_neg hst]
    rfl
  · refine .of_eq (f := (·.cellCfgWrite n w)) rfl ?_
    simp only [Dtu.cellCfgWrite, if_pos hn]
    rfl
  · exact .of_eq (f := (·.clusterFence c f)) rfl (Dtu.clusterFence_of_lt f hc)
  · exact .of_eq (f := (·.clusterFence c f)) rfl (Dtu.clusterFence_of_ge f hc)

/-! ### Contexts (R86 to R89). -/

/-- A cluster word that holds no reserved bit, written through the command space. -/
theorem Dtu.cmdWrite_clu {d : Dtu} {c : Nat} {w : W} (h64 : c < 64) (hc : c < d.build.nClusters) (hw : fld w 31 13 = 0) :
    d.cmdWrite (cluAddr c) w = (d.writeClu c w, stOk) := by
  have hlo : ¬ cluAddr c < 0x14000 := by unfold cluAddr; omega
  have hhi : cluAddr c < 0x14100 := by unfold cluAddr; omega
  have hidx : (cluAddr c - 0x14000) / 4 = c := by unfold cluAddr; omega
  unfold Dtu.cmdWrite
  rw [if_neg hlo, if_pos hhi]
  simp only [hidx, if_neg (Nat.not_le.2 hc), hw, ne_eq, not_true_eq_false, if_false, if_true]

/-- The entry of an admitted die. -/
theorem admitted_filter {o : Option DieEntry} {e : DieEntry} (h : o = some e) (ha : e.admitted = true) :
    o.filter (·.admitted) = some e := by
  rw [h, Option.filter_some, if_pos ha]

/-- Settles O8: the tray's check refuses a mask or lets `cmdWrite` take it; a front is taken when it lies ahead and the slot's
own front is free or the same. -/
theorem contextWritesReachTheDtu : Obligations.ContextWritesReachTheDtu := by
  unfold Obligations.ContextWritesReachTheDtu
  refine ⟨⟨fun s c m hdie hc hw => ?alone, fun s c m e hdie hadm hconf hc hw => ?checked, fun s c m e x hdie hadm hconf => ?conflict⟩,
    fun s k w0 w1 f h0 h1 hf hahead hfree => ?taken, fun s k w0 w1 f h0 h1 hf hpast => ?past,
    fun s k w0 w1 f h0 h1 hf hbusy hother => ?busy⟩
  case alone =>
    show Host.Outcome.next (s.ctxMaskWrite c.val m.toNat) = _
    unfold State.ctxMaskWrite
    simp only [hdie, Option.filter_none, Option.bind_none, Dtu.cmdWrite_clu c.isLt hc hw, Option.isSome_none, Bool.false_eq_true,
      and_false, if_false]
    rfl
  case checked =>
    refine ⟨_, rfl, s.ctxMaskWrite_pending c.val m.toNat, ?_⟩
    unfold State.ctxMaskWrite
    simp only [admitted_filter hdie hadm, Option.bind_some, hconf, Dtu.cmdWrite_clu c.isLt hc hw]
    exact ⟨rfl, rfl, rfl, rfl, rfl⟩
  case conflict =>
    refine ⟨s.za.earn stCellmapConflict, ?_, rfl, rfl⟩
    show Host.Outcome.next (s.ctxMaskWrite c.val m.toNat) = _
    unfold State.ctxMaskWrite
    rw [admitted_filter hdie hadm]
    simp only [Option.bind_some, hconf]
    rfl
  case taken =>
    refine .of_eq (f := (·.ctxFrontWrite k w0 w1 f)) rfl ?_
    have hslot : ¬ ((s.dtu.cells.slots.getD k.val .initial).front ≠ 0 ∧ (s.dtu.cells.slots.getD k.val .initial).front ≠ f) :=
      fun ⟨hne, hnf⟩ => hfree.elim hne hnf
    simp only [Dtu.ctxFrontWrite, h0, h1, ne_eq, not_true_eq_false, or_self, if_false, hf, Nat.not_le.2 hahead, if_neg hslot]
    rfl
  case past =>
    refine .of_eq (f := (·.ctxFrontWrite k w0 w1 f)) rfl ?_
    simp only [Dtu.ctxFrontWrite, h0, h1, ne_eq, not_true_eq_false, or_self, if_false, hf, hpast, if_true]
    rfl
  case busy =>
    refine .of_eq (f := (·.ctxFrontWrite k w0 w1 f)) rfl ?_
    simp only [Dtu.ctxFrontWrite, h0, h1, ne_eq, not_true_eq_false, or_self, if_false, hf, if_pos (And.intro hbusy hother), ite_self]
    rfl

end Sys2Proof.Machine
end

section
/-!
PROOFS. What the shared operations of the DTU leave as it was: the time unit moved on, traces closed, faults and reports queued.
-/
namespace Sys2Proof.Machine

/-! ### The time unit (R154, R166). -/

/-- A time reached moves the FTC and what is still to be slewed. -/
theorem TimeUnit.reach_eq (t : TimeUnit) (slewMax nominal ns : Nat) :
    ∃ ftc residual, t.reach slewMax nominal ns = { t with ftc, residual } ∧ oneNs * ns ≤ ftc ∧ t.ftc ≤ ftc := by
  unfold TimeUnit.reach
  split
  next h => exact ⟨_, _, rfl, Nat.le_refl _, Nat.le_of_lt h⟩
  next h => exact ⟨_, _, rfl, Nat.not_lt.1 h, Nat.le_refl _⟩

theorem oneNs_pos : 0 < oneNs := by decide

/-- The FTC's nanosecond count is past every time reached. -/
theorem TimeUnit.le_ns_of_le_ftc {t : TimeUnit} {ns : Nat} (h : oneNs * ns ≤ t.ftc) : ns ≤ t.ns :=
  (Nat.le_div_iff_mul_le (by decide)).2 (Nat.mul_comm .. ▸ h)

/-- A DTU that reaches a time changes its time unit alone. -/
theorem Dtu.reach_eq (d : Dtu) (ns : Nat) :
    ∃ ftc residual, d.reach ns = { d with time := { d.time with ftc, residual } } ∧ oneNs * ns ≤ ftc := by
  obtain ⟨ftc, residual, h, hns, -⟩ := d.time.reach_eq d.slewMax d.build.timePeriod ns
  exact ⟨ftc, residual, by rw [Dtu.reach, h], hns⟩

theorem Dtu.le_nowNs_reach (d : Dtu) (ns : Nat) : ns ≤ (d.reach ns).nowNs := by
  obtain ⟨ftc, residual, h, hns⟩ := d.reach_eq ns
  rw [h]
  exact TimeUnit.le_ns_of_le_ftc hns

/-! ### Trace closures (R119 to R125). -/

/-- `x` is `d` with other traces, with long commands done, and with other counts. -/
def Dtu.TraceActs (d x : Dtu) : Prop :=
  ∃ trace longs counters, x = { d with trace, counters, cmds := { d.cmds with longs } }

theorem Dtu.TraceActs.refl (d : Dtu) : d.TraceActs d := ⟨_, _, _, rfl⟩

theorem Dtu.TraceActs.trans {a b c : Dtu} (h : a.TraceActs b) (k : b.TraceActs c) : a.TraceActs c := by
  obtain ⟨t1, l1, n1, rfl⟩ := h
  obtain ⟨t2, l2, n2, rfl⟩ := k
  exact ⟨t2, l2, n2, rfl⟩

theorem Dtu.TraceActs.ite {c : Prop} [Decidable c] {d x y : Dtu} (hx : d.TraceActs x) (hy : d.TraceActs y) :
    d.TraceActs (if c then x else y) := by
  split
  · exact hx
  · exact hy

theorem Dtu.withTrace_acts (d : Dtu) (trace : Trace) : d.TraceActs { d with trace } := ⟨_, _, _, rfl⟩

theorem Dtu.closeBlock_acts (d : Dtu) (cause : Nat) (ends : Bool) : d.TraceActs (d.closeBlock cause ends) := ⟨_, _, _, rfl⟩

theorem Dtu.newStream_acts (d : Dtu) : d.TraceActs d.newStream := ⟨_, _, _, rfl⟩

theorem Dtu.finish_acts (d : Dtu) (h : W) (r : Result) : d.TraceActs (d.finish h r) := ⟨_, _, _, rfl⟩

theorem Dtu.endStream_acts (d : Dtu) (w : TraceWait) : d.TraceActs (d.endStream w) := by
  unfold Dtu.endStream
  dsimp only
  split
  · exact ⟨_, _, _, rfl⟩
  · split
    · exact ⟨_, _, _, rfl⟩
    · exact ⟨_, _, _, rfl⟩

theorem Dtu.actWait_acts (p : Dtu × Bool) (w : TraceWait) : p.1.TraceActs (Dtu.actWait p w).1 := by
  obtain ⟨d, ended⟩ := p
  unfold Dtu.actWait
  dsimp only
  generalize hq : (if w.cause = 4 then _ else _ : Dtu × Bool) = p
  have hp : d.TraceActs p.1 := by
    rw [← hq]
    split
    · exact .ite ⟨_, _, _, rfl⟩ (d.endStream_acts w)
    · split
      · exact ⟨_, _, _, rfl⟩
      · exact .refl d
  split
  · exact hp.trans (p.1.finish_acts _ _)
  · exact hp

theorem Dtu.actWaitList_acts (ws : List TraceWait) (p : Dtu × Bool) : p.1.TraceActs (ws.foldl Dtu.actWait p).1 :=
  List.foldlRecOn (motive := fun q : Dtu × Bool => p.1.TraceActs q.1) ws _ (.refl p.1) fun q hq w _ =>
    hq.trans (Dtu.actWait_acts q w)

theorem Dtu.closeNow_acts (d : Dtu) : d.TraceActs d.closeNow := by
  unfold Dtu.closeNow
  extract_lets t cs ws opened off full d1 d2 d3
  have h1 : d.TraceActs d1 := d.withTrace_acts _
  have h2 : d1.TraceActs d2 := .ite (d1.closeBlock_acts _ _) (.refl d1)
  have h3 : d2.TraceActs d3 := .ite d2.newStream_acts (.refl d2)
  exact ((h1.trans h2).trans h3).trans (Dtu.actWaitList_acts ws (d3, off))

theorem Dtu.settle_acts (n : Nat) (d : Dtu) : d.TraceActs (Dtu.settle n d) := by
  induction n generalizing d with
  | zero => exact .refl d
  | succ n ih =>
    unfold Dtu.settle
    split
    · exact .refl d
    · extract_lets d1
      have h1 : d.TraceActs d1 := .ite (d.withTrace_acts _) (.refl d)
      split
      · exact h1
      · exact (h1.trans d1.closeNow_acts).trans (ih d1.closeNow)

theorem Dtu.actWaits_acts (d : Dtu) : d.TraceActs d.actWaits := Dtu.settle_acts _ d

theorem Dtu.askClose_acts (d : Dtu) (cause : Nat) (handle : Option W) : d.TraceActs (d.askClose cause handle) :=
  (d.withTrace_acts _).trans (Dtu.actWaits_acts _)

theorem Dtu.offer_eq (d : Dtu) (rtype aux payload : Nat) : ∃ trace, d.offer rtype aux payload = { d with trace } := by
  unfold Dtu.offer
  split
  · exact ⟨_, rfl⟩
  · exact ⟨_, rfl⟩

/-! ### Faults and reports (R142 to R144, R147). -/

theorem Dtu.raiseMsg_eq (d : Dtu) (m : BitVec 128) : ∃ faults counters, d.raiseMsg m = { d with faults, counters } := by
  unfold Dtu.raiseMsg
  split
  · exact ⟨_, _, rfl⟩
  · split
    · exact ⟨_, _, rfl⟩
    · exact ⟨_, _, rfl⟩

theorem Dtu.raise_eq (d : Dtu) (k : FaultKind) (op : FaultOp) (n : Nat) :
    ∃ faults counters, d.raise k op n = { d with faults, counters } := d.raiseMsg_eq _

theorem Dtu.raiseList_eq {α : Type} {f : Dtu → α → Dtu} (hf : ∀ d a, ∃ faults counters, f d a = { d with faults, counters })
    (l : List α) (d : Dtu) : ∃ faults counters, l.foldl f d = { d with faults, counters } := by
  induction l generalizing d with
  | nil => exact ⟨_, _, rfl⟩
  | cons a l ih =>
    obtain ⟨q, n, ha⟩ := hf d a
    obtain ⟨q', n', hl⟩ := ih (f d a)
    exact ⟨q', n', by rw [List.foldl_cons, hl, ha]⟩

theorem Dtu.queue_eq (d : Dtu) (t : TxFrame) : ∃ link, d.queue t = { d with link } := by
  unfold Dtu.queue
  split <;> exact ⟨_, rfl⟩

/-- Faults of the tick: those the ledgers owe, and the drops counted. -/
theorem Dtu.faultTick_eq (d : Dtu) : ∃ faults counters, d.faultTick = { d with faults, counters } := by
  unfold Dtu.faultTick
  extract_lets due drops _ d1
  obtain ⟨q, n, h1⟩ : ∃ faults counters, d1 = { d with faults, counters } :=
    Dtu.raiseList_eq Dtu.raiseMsg_eq due { d with faults := _ }
  split
  · exact ⟨q, n, h1⟩
  · obtain ⟨q', n', h2⟩ := d1.raise_eq .faultDrop .none drops
    exact ⟨q', n', by rw [h2, h1]⟩

theorem Dtu.healthTick_eq (d : Dtu) (frame : Nat) : ∃ health link, d.healthTick frame = { d with health, link } := by
  unfold Dtu.healthTick
  extract_lets r _ d1
  split
  · obtain ⟨l, h⟩ := d1.queue_eq (d1.toAgg clsBulk 0x03 r 32)
    exact ⟨_, l, h⟩
  · exact ⟨_, _, rfl⟩

theorem Dtu.queueEcho_eq (d : Dtu) : ∃ port link, d.queueEcho = { d with port, link } := by
  unfold Dtu.queueEcho
  split
  · obtain ⟨l, h⟩ := Dtu.sendNow_eq { d with port := { d.port with echoSeq := d.port.echoSeq + 1 } } d.echoFrame
    exact ⟨_, l, h⟩
  · exact ⟨_, _, rfl⟩

/-- The audit of the tokens raises faults and, where they are wrong, clears the traces (R128). -/
theorem Dtu.auditTokens_eq (d : Dtu) :
    ∃ trace longs counters faults, d.auditTokens = { d with trace, counters, faults, cmds := { d.cmds with longs } } := by
  unfold Dtu.auditTokens
  extract_lets bad detail d1 d2
  split
  · exact ⟨_, _, _, _, rfl⟩
  · obtain ⟨q, n, h1⟩ : ∃ faults counters, d1 = { d with faults, counters } :=
      Dtu.raiseList_eq (fun d x => d.raise_eq .ledger .trace (detail x)) bad d
    have h2 : d1.TraceActs d2 := d1.withTrace_acts _
    obtain ⟨t, l, n', h3⟩ : d1.TraceActs (if d2.trace.capturing then d2.newStream else d2).actWaits :=
      (h2.trans (.ite d2.newStream_acts (.refl d2))).trans (Dtu.actWaits_acts _)
    exact ⟨t, l, n', q, by rw [h3, h1]⟩

end Sys2Proof.Machine
end

section
/-!
PROOFS. Ticks and commanded steps of a DTU.
-/
namespace Sys2Proof.Machine

/-! ### The tick of a running DTU (R91, R93). -/

/-- `x` is `d` but for what a tick reports: cells, time, triggers, tag and Frost are the same. -/
def Dtu.Reported (d x : Dtu) : Prop :=
  ∃ digests trace cmds counters faults health link port power injections,
    x = { d with digests, trace, cmds, counters, faults, health, link, port, power, injections }

theorem Dtu.Reported.trans {a b c : Dtu} (h : a.Reported b) (k : b.Reported c) : a.Reported c := by
  obtain ⟨g1, t1, c1, n1, q1, h1, l1, p1, w1, i1, rfl⟩ := h
  obtain ⟨g2, t2, c2, n2, q2, h2, l2, p2, w2, i2, rfl⟩ := k
  exact ⟨g2, t2, c2, n2, q2, h2, l2, p2, w2, i2, rfl⟩

theorem Dtu.offer_reported (d : Dtu) (rtype aux payload : Nat) : d.Reported (d.offer rtype aux payload) := by
  obtain ⟨t, h⟩ := d.offer_eq rtype aux payload
  exact h ▸ ⟨_, t, _, _, _, _, _, _, _, _, rfl⟩

theorem Dtu.auditTokens_reported (d : Dtu) : d.Reported d.auditTokens := by
  obtain ⟨t, l, n, q, h⟩ := d.auditTokens_eq
  exact h ▸ ⟨_, t, _, n, q, _, _, _, _, _, rfl⟩

theorem Dtu.healthTick_reported (d : Dtu) (frame : Nat) : d.Reported (d.healthTick frame) := by
  obtain ⟨h, l, e⟩ := d.healthTick_eq frame
  exact e ▸ ⟨_, _, _, _, _, h, l, _, _, _, rfl⟩

theorem Dtu.faultTick_reported (d : Dtu) : d.Reported d.faultTick := by
  obtain ⟨q, n, h⟩ := d.faultTick_eq
  exact h ▸ ⟨_, _, _, n, q, _, _, _, _, _, rfl⟩

theorem Dtu.queueEcho_reported (d : Dtu) : d.Reported d.queueEcho := by
  obtain ⟨p, l, h⟩ := d.queueEcho_eq
  exact h ▸ ⟨_, _, _, _, _, _, l, p, _, _, rfl⟩

/-- The DTU whose ended frame starts to close, with its windows kept for the blocks still pending (R136). -/
def Dtu.closingStarted (d : Dtu) (seen : BitVec 16) : Dtu :=
  ({ d with digests := { d.digests with winBefore := d.digests.win } } : Dtu).startClosing seen

/-- A tick starts the closing, steps a loop test, turns slots and bands, and reports. -/
theorem Dtu.coreTick_reported (d : Dtu) (seen : BitVec 16) :
    ((d.closingStarted seen).loopTick d.cells.values).turnSlots.turnBands.Reported (d.coreTick seen) := by
  unfold Dtu.coreTick
  extract_lets ended _ d1 d2 d3 d4 d5 d6 _
  have h3 : d2.Reported d3 := ⟨_, _, _, _, _, _, _, _, _, _, rfl⟩
  have h4 : d3.Reported d4 := d3.auditTokens_reported
  have h5 : d4.Reported d5 := by
    unfold d5
    split
    · exact d4.offer_reported _ _ _
    · exact ⟨_, _, _, _, _, _, _, _, _, _, rfl⟩
  have h6 : d5.Reported d6 := ((d5.healthTick_reported _).trans (Dtu.faultTick_reported _)).trans (Dtu.queueEcho_reported _)
  have h7 : d6.Reported { d6 with power := { d6.power with lullInFrame := false } } := ⟨_, _, _, _, _, _, _, _, _, _, rfl⟩
  exact (((h3.trans h4).trans h5).trans h6).trans h7

theorem Dtu.loopTick_of_none {d : Dtu} (values : List (Nat × CellVal)) (h : d.cmds.loop = none) : d.loopTick values = d := by
  unfold Dtu.loopTick
  rw [h]

theorem Dtu.loopTick_eq (d : Dtu) (values : List (Nat × CellVal)) :
    ∃ cells injections cmds, d.loopTick values = { d with cells, injections, cmds } := by
  unfold Dtu.loopTick
  split
  · exact ⟨_, _, _, rfl⟩
  · split
    · exact ⟨_, _, _, rfl⟩
    · split
      · exact ⟨_, _, _, rfl⟩
      · exact ⟨_, _, _, rfl⟩

@[simp] theorem Dtu.coreTick_time (d : Dtu) (seen : BitVec 16) : (d.coreTick seen).time = d.time := by
  obtain ⟨g, t, c, n, q, h, l, p, w, i, e⟩ := d.coreTick_reported seen
  obtain ⟨cells, inj, cmds, el⟩ := (d.closingStarted seen).loopTick_eq d.cells.values
  rw [e, el]
  rfl

theorem Dtu.closeRest_of_none {d : Dtu} (n : Nat) (h : d.cells.closing = none) : Dtu.closeRest n d = d := by
  cases n with
  | zero => rfl
  | succ n =>
    unfold Dtu.closeRest
    rw [h]
    rfl

/-- What a tick does to the time unit. -/
theorem TimeUnit.tick_eq (t : TimeUnit) (slewMax nominal : Nat) : ∃ ftc residual gaps lastLength,
    t.tick slewMax nominal = { t with
      ftc, residual, gaps, lastLength, frame := t.nextFrame, prevFrame := t.frame, nextFrame := t.nextFrame + 1, begun := t.begun + 1,
      shift := 0 } := by
  obtain ⟨ftc, residual, h, -⟩ := t.reach_eq slewMax nominal (2 ^ 20 * t.nextFrame)
  unfold TimeUnit.tick
  rw [h]
  exact ⟨ftc, residual, _, _, rfl⟩

theorem Dtu.tick_of_no_step {d : Dtu} (seen : BitVec 16) (ht : d.time.ticking = true) (hs : d.time.stepDue = none)
    (hpor : d.power.por = false) : d.tick seen = d.beginFrame seen := by
  unfold Dtu.tick
  rw [hs, ht, hpor]
  rfl

/-- A running DTU with no closing under way begins the next frame. -/
theorem Dtu.beginFrame_running {d : Dtu} (seen : BitVec 16) (hr : d.runs = true) (hc : d.cells.closing = none) :
    d.beginFrame seen = { ({ d with time := d.time.tick d.slewMax d.build.timePeriod } : Dtu).coreTick seen with
      hailDue := some (d.time.tick d.slewMax d.build.timePeriod).frameNow } := by
  have hr' : ({ d with time := d.time.tick d.slewMax d.build.timePeriod } : Dtu).runs = true := hr
  unfold Dtu.beginFrame
  simp only [hr, if_true, Dtu.closeRest_of_none _ hc, hr', Dtu.frameNow, Dtu.coreTick_time]

theorem Dtu.beginFrame_resting {d : Dtu} (seen : BitVec 16) (hr : d.runs = false) :
    ∃ health, d.beginFrame seen = { d with
      health, time := d.time.tick d.slewMax d.build.timePeriod, cells := { d.cells with closing := none }, hailDue := none
      power := { d.power with clearAtExit := decide (d.power.lull ≠ 0), lullInFrame := decide (d.power.lull ≠ 0) } } := by
  have hr' : ({ d with time := d.time.tick d.slewMax d.build.timePeriod } : Dtu).runs = false := hr
  unfold Dtu.beginFrame
  simp only [hr, Bool.false_eq_true, if_false, hr']
  exact ⟨_, rfl⟩

/-! ### Commanded steps (R167, R168). -/

theorem TimeUnit.stepDue_of_armed {t : TimeUnit} {a : ArmedStep} (ht : t.ticking = true) (ha : t.armed = some a)
    (hf : a.frame ≤ t.nextFrame) : t.stepDue = some a := by
  unfold TimeUnit.stepDue
  rw [ha, ht]
  simp [hf]

/-- What a step of a whole number of frames, not zero, does to the time unit. -/
theorem TimeUnit.applyStep_eq (t : TimeUnit) (slewMax nominal : Nat) (a : ArmedStep) (hq : stepWhole a.s ≠ 0) :
    ∃ shift counters, t.applyStep slewMax nominal a = ({ t with
      armed := none, stepped := true, residual := stepResidual a.s * 2 ^ 48
      ftc := oneNs * (2 ^ 20 * ((t.nextFrame : Int) + stepWhole a.s).toNat)
      nextFrame := if 0 < stepWhole a.s then t.nextFrame + (stepWhole a.s).toNat else t.nextFrame
      skipped := (stepWhole a.s).toNat, stretched := (-stepWhole a.s).toNat, shift, counters },
      [.step (stepWhole a.s * 2 ^ 20)]) := by
  obtain ⟨ftc, residual, h, -⟩ := t.reach_eq slewMax nominal (2 ^ 20 * t.nextFrame)
  unfold TimeUnit.applyStep
  simp only [h, if_neg hq]
  exact ⟨_, _, rfl⟩

/-- A step applied changes the time unit, the triggers stepped over, the trace offers and the Frost's note of it. -/
theorem Dtu.applyStep_eq (d : Dtu) (a : ArmedStep) (hq : stepWhole a.s ≠ 0) :
    ∃ trace trigs frost counters, d.applyStep a = { d with
      trace, trigs, frost, time := { (d.time.applyStep d.slewMax d.build.timePeriod a).1 with counters } } := by
  obtain ⟨shift, n, h⟩ := d.time.applyStep_eq d.slewMax d.build.timePeriod a hq
  unfold Dtu.applyStep Dtu.withTime
  simp only [h, Dtu.timeEvents, Dtu.offerStep]
  (repeat' split) <;> exact ⟨_, _, _, _, rfl⟩

theorem Dtu.tick_of_step {d : Dtu} {a : ArmedStep} (seen : BitVec 16) (ht : d.time.ticking = true) (hs : d.time.stepDue = some a)
    (hpor : d.power.por = false) :
    d.tick seen = if stepWhole a.s < 0 then d.applyStep a else (d.applyStep a).beginFrame seen := by
  unfold Dtu.tick
  rw [hs, ht, hpor]
  rfl

/-- A backward step takes the FTC back by whole frames and issues no tick. -/
theorem Dtu.applyStep_backward {d : Dtu} {a : ArmedStep} (hf : a.frame = d.time.nextFrame) (hq : stepWhole a.s < 0) :
    (d.applyStep a).time.frame = d.time.frame ∧ (d.applyStep a).time.nextFrame = a.frame ∧
      (d.applyStep a).time.ftc = ((a.frame : Int) + stepWhole a.s).toNat * 2 ^ 20 * oneNs ∧
      (d.applyStep a).time.begun = d.time.begun ∧ (d.applyStep a).time.armed = none ∧ (d.applyStep a).cells = d.cells := by
  obtain ⟨t, g, f, n, h⟩ := d.applyStep_eq a (by omega)
  obtain ⟨sh, m, ht⟩ := d.time.applyStep_eq d.slewMax d.build.timePeriod a (by omega)
  rw [h, ht, hf]
  refine ⟨rfl, if_neg (by omega), ?_, rfl, rfl, rfl⟩
  simp only [Nat.mul_comm]

theorem not_runs_of_lull {d : Dtu} (h : d.power.lull ≠ 0) : d.runs = false := by
  simp [Dtu.runs, h]

/-- Settles O9: `beginFrame` ticks the time unit and starts the closing; a backward step is `applyStep` alone. -/
theorem ticksFollowTheFrameClock : Obligations.TicksFollowTheFrameClock := by
  unfold Obligations.TicksFollowTheFrameClock
  refine ⟨⟨fun s seen ht hs hr hc hl => ?running, fun s seen ht hs hpor hlull => ?resting, fun s seen ht => ?still⟩,
    fun s seen a ht ha hf hq hpor => ?backward, fun s a ht ha hf hq => ?stepRow⟩
  case running =>
    have hrow := (Dtu.tick_of_no_step seen ht hs (Dtu.por_of_runs hr)).trans (Dtu.beginFrame_running seen hr hc)
    obtain ⟨ftc, res, gaps, len, htick⟩ := s.dtu.time.tick_eq s.dtu.slewMax s.dtu.build.timePeriod
    rw [htick] at hrow
    generalize hd : ({ s.dtu with time := _ } : Dtu) = d at hrow
    obtain ⟨g, t, c, n, q, hh, l, p, w, i, e⟩ := d.coreTick_reported seen
    rw [Dtu.loopTick_of_none _ (by rw [← hd]; exact hl)] at e
    rw [e, ← hd] at hrow
    refine ⟨_, ?cl, .of_eq (f := (·.tick seen)) rfl hrow, ?_⟩
    case cl => exact
      { frame := s.dtu.time.frame, next := 0, begunAt := ftc / 2 ^ 48, cfg := s.dtu.cells.force, cfgSeq := s.dtu.cells.cfgSeq,
        slots := s.dtu.cells.latched, cells := s.dtu.cells.values, domIncomplete := s.dtu.endedDoms, frost := s.dtu.cells.frost,
        flagged := s.dtu.endedDoms != [], looped := none }
    refine ⟨rfl, rfl, rfl, rfl, rfl, rfl, rfl, rfl, rfl, rfl, rfl, rfl, rfl, rfl, rfl, ?_, rfl⟩
    simp only [TimeUnit.frameNow, ht, if_true]
  case resting =>
    obtain ⟨hh, h⟩ := Dtu.beginFrame_resting seen (not_runs_of_lull hlull)
    obtain ⟨ftc, res, gaps, len, htick⟩ := s.dtu.time.tick_eq s.dtu.slewMax s.dtu.build.timePeriod
    refine ⟨_, .of_eq (f := (·.tick seen)) rfl ((Dtu.tick_of_no_step seen ht hs hpor).trans h), ?_⟩
    rw [htick]
    exact ⟨rfl, rfl, rfl, rfl, decide_eq_true hlull⟩
  case still =>
    refine .of_dtu (f := (·.tick seen)) rfl (if_pos (.inl ?_))
    rw [ht]
    rfl
  case backward =>
    have hstep := TimeUnit.stepDue_of_armed ht ha (Nat.le_of_eq hf)
    exact ⟨_, .of_eq (f := (·.tick seen)) rfl ((Dtu.tick_of_step seen ht hstep hpor).trans (if_pos hq)), Dtu.applyStep_backward hf hq⟩
  case stepRow =>
    have hstep := TimeUnit.stepDue_of_armed ht ha (Nat.le_of_eq hf)
    obtain ⟨hframe, hnext, hftc, -, harmed, hcells⟩ := Dtu.applyStep_backward hf hq
    refine ⟨_, .of_eq (f := Dtu.stepNow) rfl ?_, hframe, hnext, hftc, harmed, hcells⟩
    unfold Dtu.stepNow
    rw [hstep]

/-! ### Forward steps (R167). -/

theorem Dtu.closeSlot_time (cl : Closing) (cluster : Nat) (fenced incomplete : Bool) (sat data : List W)
    (acc : Dtu × List (Nat × List W)) (k : Nat) :
    (Dtu.closeSlot cl cluster fenced incomplete sat data acc k).1.time = acc.1.time := by
  unfold Dtu.closeSlot
  dsimp only
  split <;> rfl

theorem Dtu.closeSlots_time (cl : Closing) (cluster : Nat) (fenced incomplete : Bool) (sat data : List W) (ks : List Nat)
    (acc : Dtu × List (Nat × List W)) :
    (ks.foldl (Dtu.closeSlot cl cluster fenced incomplete sat data) acc).1.time = acc.1.time :=
  List.foldlRecOn (motive := fun r : Dtu × List (Nat × List W) => r.1.time = acc.1.time) ks _ rfl fun r hr k _ =>
    (Dtu.closeSlot_time ..).trans hr

@[simp] theorem Dtu.closeCluster_time (d : Dtu) : d.closeCluster.time = d.time := by
  unfold Dtu.closeCluster
  split
  · rfl
  · exact Dtu.closeSlots_time ..

theorem Dtu.markBoth_eq (d : Dtu) (ds : List Nat) : ∃ cells counters, d.markBoth ds = { d with cells, counters } := by
  unfold Dtu.markBoth
  split <;> exact ⟨_, _, rfl⟩

theorem Dtu.mergeFront_eq (d : Dtu) (src : ProbeSource) (f : Front) :
    ∃ cells trace, d.mergeFront src f = { d with cells, trace } := by
  unfold Dtu.mergeFront
  dsimp only
  split <;> exact ⟨_, _, rfl⟩

theorem Dtu.mergeFronts_eq (d : Dtu) : ∃ cells trace, d.mergeFronts = { d with cells, trace } :=
  List.foldlRecOn (motive := fun e : Dtu => ∃ cells trace, e = { d with cells, trace }) _ _ ⟨_, _, rfl⟩ fun e he p _ => by
    obtain ⟨c, t, rfl⟩ := he
    obtain ⟨c', t', h⟩ := Dtu.mergeFront_eq { d with cells := c, trace := t } p.1 p.2
    exact ⟨c', t', h⟩

@[simp] theorem Dtu.limitClose_time (d : Dtu) : d.limitClose.time = d.time := by
  unfold Dtu.limitClose
  split
  · rfl
  · extract_lets late carryOn _ d1
    obtain ⟨c, n, h⟩ := d1.markBoth_eq late
    obtain ⟨c', t, h'⟩ := (d1.markBoth late).mergeFronts_eq
    simp only [Dtu.count_keeps, Dtu.closeCluster_time]
    rw [h', h]

@[simp] theorem Dtu.closeRest_time (n : Nat) (d : Dtu) : (Dtu.closeRest n d).time = d.time := by
  induction n generalizing d with
  | zero => rfl
  | succ n ih =>
    unfold Dtu.closeRest
    split
    · rw [ih, Dtu.limitClose_time]
    · rfl

/-- Whatever else a frame begun does, the time unit ticks. -/
theorem Dtu.beginFrame_time (d : Dtu) (seen : BitVec 16) :
    ∃ slewMax nominal, (d.beginFrame seen).time = d.time.tick slewMax nominal := by
  unfold Dtu.beginFrame
  extract_lets d1 d2 d3 _ _ _
  have h1 : d1.time = d.time := by
    unfold d1
    split
    · exact Dtu.closeRest_time _ d
    · rfl
  refine ⟨d1.slewMax, d1.build.timePeriod, ?_⟩
  rw [← h1]
  split
  · exact Dtu.coreTick_time _ _
  · rfl

/-- Settles O10: the step moves the FTC and the next frame on before the tick, which then ends F - 1 and begins F + q. -/
theorem forwardStepSkipsFrames : Obligations.ForwardStepSkipsFrames := by
  intro s seen a ht ha hf hnext hq hpor
  have hstep := TimeUnit.stepDue_of_armed ht ha (Nat.le_of_eq hf)
  obtain ⟨t, g, f, n, hd⟩ := s.dtu.applyStep_eq a (by omega)
  obtain ⟨sh, m, htime⟩ := s.dtu.time.applyStep_eq s.dtu.slewMax s.dtu.build.timePeriod a (by omega)
  rw [htime] at hd
  obtain ⟨sm, nom, htick⟩ := (s.dtu.applyStep a).beginFrame_time seen
  refine ⟨_, .of_eq (f := (·.tick seen)) rfl ((Dtu.tick_of_step seen ht hstep hpor).trans (if_neg (by omega))), ?_⟩
  rw [htick, hd]
  have hto : ((s.dtu.time.nextFrame : Int) + stepWhole a.s).toNat = s.dtu.time.nextFrame + (stepWhole a.s).toNat := by omega
  have hreach : ¬ oneNs * (2 ^ 20 * (s.dtu.time.nextFrame + (stepWhole a.s).toNat)) <
      oneNs * (2 ^ 20 * (s.dtu.time.nextFrame + (stepWhole a.s).toNat)) := Nat.lt_irrefl _
  simp only [TimeUnit.tick, TimeUnit.reach, if_pos hq, hto, if_neg hreach, and_true]
  refine ⟨by rw [hf], by rw [hf, hnext], ?_⟩
  rw [hf]
  simp only [Nat.mul_comm, Nat.mul_left_comm]

end Sys2Proof.Machine
end

section
/-!
PROOFS. The time sources of a DTU: samples, missing intervals and holdover.
-/
namespace Sys2Proof.Machine

/-! ### Time events (R158, R163). -/

/-- Time events reach the interrupts, the faults, the traces, the triggers and the counts of the time unit. -/
theorem Dtu.timeEvents_eq (before : Nat) (d : Dtu) (evs : List TimeEvent) :
    ∃ tcounts trace trigs faults counters irqStatus, Dtu.timeEvents before d evs = { d with
      trace, trigs, faults, counters, time := { d.time with counters := tcounts }, host := { d.host with irqStatus } } := by
  induction evs generalizing d with
  | nil => exact ⟨_, _, _, _, _, _, rfl⟩
  | cons ev r ih =>
    cases ev with
    | jump off =>
      unfold Dtu.timeEvents
      extract_lets src ns
      obtain ⟨q, n, h⟩ := d.raiseMsg_eq (faultOf .timeJump .timeUnit src .timeSample d.dieId ns).message
      obtain ⟨tc, t, g, q', n', i, e⟩ := ih (d.raiseMsg (faultOf .timeJump .timeUnit src .timeSample d.dieId ns).message)
      exact ⟨tc, t, g, q', n', i, by rw [e, h]⟩
    | holdover =>
      obtain ⟨tc, t, g, q, n, i, e⟩ := ih (d.irq 4)
      exact ⟨tc, t, g, q, n, i, e⟩
    | lock => exact ih d
    | step ns =>
      obtain ⟨tr, ho⟩ : ∃ trace, d.offerStep before ns = { d with trace } := by
        unfold Dtu.offerStep
        split <;> exact ⟨_, rfl⟩
      obtain ⟨tc, t, g, q, n, i, e⟩ := ih (d.offerStep before ns).stepTrigs
      refine ⟨tc, t, g, q, n, i, ?_⟩
      rw [Dtu.timeEvents, e, ho]
      rfl

theorem Dtu.withTime_eq (d : Dtu) (p : TimeUnit × List TimeEvent) :
    ∃ tcounts trace trigs faults counters irqStatus, d.withTime p = { d with
      trace, trigs, faults, counters, time := { p.1 with counters := tcounts }, host := { d.host with irqStatus } } :=
  Dtu.timeEvents_eq _ { d with time := p.1 } p.2

/-! ### Missing samples (R160). -/

/-- An interval without a sample: the run is over, and the third in LOCKED goes to HOLDOVER. -/
theorem TimeUnit.miss_eq (t : TimeUnit) (n : Nat) :
    ∃ state missed counters, (t.miss n).1 = { t with run := 0, state, missed, counters } := by
  unfold TimeUnit.miss TimeUnit.enter
  dsimp only
  (repeat' split) <;> exact ⟨_, _, _, rfl⟩

theorem TimeUnit.miss_events (t : TimeUnit) (n : Nat) : (t.miss n).2 = [] ∨ (t.miss n).2 = [.holdover] := by
  unfold TimeUnit.miss TimeUnit.enter
  dsimp only
  (repeat' split) <;> simp

/-- Intervals without a sample reach the time unit, and the interrupt of its holdover. -/
theorem Dtu.missSample_eq (d : Dtu) (n : Nat) :
    ∃ run state missed tcounts irqStatus, d.missSample n = { d with
      host := { d.host with irqStatus }, time := { d.time with run, state, missed, counters := tcounts } } := by
  unfold Dtu.missSample
  split
  · exact ⟨_, _, _, _, _, rfl⟩
  · obtain ⟨st, m, n', ht⟩ := d.time.miss_eq n
    unfold Dtu.withTime
    rcases d.time.miss_events n with he | he
    · rw [he, ht]
      exact ⟨_, st, m, n', _, rfl⟩
    · rw [he, ht]
      exact ⟨_, st, m, n', _, rfl⟩

theorem Dtu.missSample_run {d : Dtu} {n : Nat} (h : n ≠ 0) : (d.missSample n).time.run = 0 := by
  obtain ⟨st, m, n', ht⟩ := d.time.miss_eq n
  obtain ⟨tc, t, g, q, n'', i, e⟩ := d.withTime_eq (d.time.miss n)
  rw [Dtu.missSample, if_neg h, e, ht]

theorem TimeUnit.enter_holdover {t : TimeUnit} (h : t.state ≠ .holdover) :
    t.enter .holdover =
      (({ t with state := .holdover, run := 0, missed := 0 } : TimeUnit).count .holdoverEntries, [.holdover]) := by
  unfold TimeUnit.enter
  rw [if_neg h]

theorem TimeUnit.miss_locked {t : TimeUnit} {n : Nat} (h : t.state = .locked) (hn : 3 ≤ t.missed + n) :
    t.miss n = (({ t with run := 0, missed := t.missed + n } : TimeUnit).count .missing n).enter .holdover := by
  unfold TimeUnit.miss
  exact if_pos ⟨h, hn⟩

theorem TimeUnit.miss_unlocked {t : TimeUnit} {n : Nat} (h : t.state ≠ .locked) :
    t.miss n = (({ t with run := 0, missed := t.missed + n } : TimeUnit).count .missing n, []) := by
  unfold TimeUnit.miss
  exact if_neg fun k => h k.1

/-! ### Samples (R157, R160, R163). -/

theorem TimeUnit.enter_offset (t : TimeUnit) (st : TimeState) : (t.enter st).1.offset = t.offset := by
  unfold TimeUnit.enter
  dsimp only
  (repeat' split) <;> rfl

theorem TimeUnit.miss_offset (t : TimeUnit) (n : Nat) : (t.miss n).1.offset = t.offset := by
  obtain ⟨st, m, n', h⟩ := t.miss_eq n
  rw [h]

/-- A sample leaves its offset in the time unit. -/
theorem TimeUnit.sample_offset (t : TimeUnit) (nominal slewMax jumpThr lockThr free : Nat) (far : Bool) (offset : Int) :
    (t.sample nominal slewMax jumpThr lockThr free far offset).1.offset = offset := by
  unfold TimeUnit.sample
  dsimp only
  (repeat' split) <;> simp [TimeUnit.enter_offset, TimeUnit.miss_offset, TimeUnit.count, TimeUnit.setFrom, TimeUnit.servo]

/-- The first sample in FREE sets the FTC to the time it names and goes to ACQUIRE. -/
theorem TimeUnit.sample_of_unset {t : TimeUnit} (nominal slewMax jumpThr lockThr free : Nat) (offset : Int)
    (hst : t.state = .free) (hset : t.isSet = false) : ∃ u evs,
      t.sample nominal slewMax jumpThr lockThr free false offset = (u, evs) ∧ u.state = .acquire ∧ u.isSet = true ∧
      u.ftc = ((t.ftc : Int) - offset * 2 ^ 32).toNat := by
  cases t
  subst hst hset
  exact ⟨_, _, rfl, rfl, rfl, rfl⟩

/-- The stamp of an FTC set from the difference of its own stamp and another: the other. -/
theorem stamp_of_difference (ftc other : Nat) :
    (((ftc : Int) - (((ftc / 2 ^ 32 : Nat) : Int) - (other : Int)) * 2 ^ 32).toNat) / 2 ^ 32 = other := by
  have h := Nat.div_add_mod ftc (2 ^ 32)
  have hmod := Nat.mod_lt ftc (Nat.two_pow_pos 32)
  generalize ftc / 2 ^ 32 = q at *
  have hto : ((ftc : Int) - ((q : Int) - (other : Int)) * 2 ^ 32).toNat = ftc % 2 ^ 32 + 2 ^ 32 * other := by omega
  rw [hto, Nat.add_mul_div_left _ _ (Nat.two_pow_pos 32), Nat.div_eq_of_lt hmod, Nat.zero_add]

/-! ### TIME_SYNC (R174 to R176). -/

theorem Dtu.learnStep_eq (d : Dtu) (b : List W) : ∃ armed, d.learnStep b = { d with time := { d.time with armed } } := by
  unfold Dtu.learnStep
  dsimp only
  (repeat' split) <;> exact ⟨_, rfl⟩

/-- A sound TIME_SYNC of a DTU that follows it, with a usable source: what was missed before it, and one sample. -/
theorem Dtu.timeSync_usable {d : Dtu} {f : Frame} (free : Nat) (phase : BitVec 6) (htake : d.takes f) (hlen : f.plen.toNat = 32)
    (hkind : wf f.body 0 31 24 = 1) (hsrc : d.host.timeSrc = 1) (hflags : wf f.body 0 23 22 ≠ 0) : ∃ (x : Dtu) (gap : Nat),
    d.timeSync free f phase = (x.missSample gap).sample free (decide (2 ^ 34 ≤ dword f.body 1))
      ((d.stampAt phase.toNat : Int) - (x.missSample gap).host.latRx.toNat -
        stampOf (dword f.body 1) (wf f.body 3 31 0) (wf f.body 4 31 16)) ∧
    x.port.lastSeq = some (BitVec.ofNat 16 (wf f.body 0 15 0)) ∧ x.port.sampled = true ∧ x.cells = d.cells ∧ x.host = d.host := by
  obtain ⟨l, fr, n, htaken⟩ := Dtu.taken_eq htake
  obtain ⟨armed, hlearn⟩ := (d.taken f).learnStep_eq f.body
  have hrcv : (d.receive f).2 = true := Dtu.receive_of_header htake
  have hhost : ((d.taken f).learnStep f.body).host = d.host := by rw [hlearn, htaken]
  have hcells : ((d.taken f).learnStep f.body).cells = d.cells := by rw [hlearn, htaken]
  change ((d.receive f).1.learnStep f.body).host = d.host at hhost
  change ((d.receive f).1.learnStep f.body).cells = d.cells at hcells
  have husable : (wf f.body 0 23 22 != 0) = true := bne_iff_ne.2 hflags
  unfold Dtu.timeSync
  simp only [hrcv, hlen, hkind, husable, hhost, hsrc, Bool.true_or, and_self, decide_true, Bool.and_true, Bool.not_true,
    Bool.false_eq_true, if_false, if_true, ne_eq, not_true_eq_false]
  exact ⟨_, _, rfl, rfl, rfl, hcells, rfl⟩

/-- Settles O13: each source gives one sample through `Dtu.sample`, and an interval without one is `Dtu.missSample`. -/
theorem timeSourcesDisciplineTheDtu : Obligations.TimeSourcesDisciplineTheDtu := by
  unfold Obligations.TimeSourcesDisciplineTheDtu
  refine ⟨fun s b0 b1 b2 b3 hsrc hpor => ?word, fun s b0 b1 b2 b3 hsrc => ?unused, fun s hsrc hpor hword => ?missing,
    fun s sec ns b3 hsrc hpor hword hst hset hstep hsec => ?sets, fun s hst hpor => ?holdover, fun s hst hpor => ?acquire,
    fun s f phase htake hlen hkind hsrc hflags => ?sync⟩
  case word =>
    refine .of_eq (f := (·.timeWord b0 b1 b2 b3)) rfl ?_
    simp only [Dtu.timeWord, hsrc, hpor]
    rfl
  case unused => exact .of_dtu (f := (·.timeWord b0 b1 b2 b3)) rfl (if_pos (.inl (by rw [hsrc]; decide)))
  case missing =>
    have hrow : s.dtu.slotPulse s.free =
        ({ s.dtu with port := { s.dtu.port with uncorrected := s.dtu.port.uncorrected + 1, sampled := true } } : Dtu).missSample 1 := by
      simp only [Dtu.slotPulse, hsrc, hpor, hword]
      rfl
    refine ⟨_, .of_eq (f := (·.slotPulse s.free)) rfl hrow, ?_⟩
    have hrun := Dtu.missSample_run (d := { s.dtu with port := { s.dtu.port with
      uncorrected := s.dtu.port.uncorrected + 1, sampled := true } }) Nat.one_ne_zero
    obtain ⟨r, st, m, tc, i, e⟩ := Dtu.missSample_eq { s.dtu with port := { s.dtu.port with
      uncorrected := s.dtu.port.uncorrected + 1, sampled := true } } 1
    rw [e] at hrun ⊢
    exact ⟨rfl, rfl, rfl, hrun, rfl⟩
  case sets =>
    obtain ⟨u, evs, hsample, hacq, hisSet, hftc⟩ := TimeUnit.sample_of_unset (t := { s.dtu.time with stepped := false })
      s.dtu.build.timePeriod s.dtu.slewMax s.dtu.jumpThr dtuLockThr s.free
      ((s.dtu.time.ftc / 2 ^ 32 : Nat) - (stampOf sec ns (fld b3 31 16) : Int)) hst hset
    have hrow : ∃ port d, s.dtu.slotPulse s.free = Dtu.withTime d (u, evs) ∧ d = { s.dtu with port, time := d.time } ∧
        port.word = none := by
      refine ⟨{ s.dtu.port with word := none, sampled := true, stepRefusals := false }, { s.dtu with
        port := { s.dtu.port with word := none, sampled := true, stepRefusals := false }
        time := { s.dtu.time with stepped := false } }, ?_, rfl, rfl⟩
      rw [← hsample]
      have hfar : decide (2 ^ 34 ≤ sec) = false := decide_eq_false (by omega)
      have hfree : (s.dtu.time.state == .locked || s.dtu.time.state == .holdover) = false := by
        rw [hst]
        rfl
      simp only [Dtu.slotPulse, hsrc, hpor, hword, hstep, hfree, hfar, Bool.false_and, Bool.and_false, Bool.false_eq_true, ne_eq,
        not_true_eq_false, or_self, if_false]
      rfl
    obtain ⟨port, d, hrow, hd, hword'⟩ := hrow
    obtain ⟨tc, t, g, q, n, i, e⟩ := d.withTime_eq (u, evs)
    refine ⟨_, .of_eq (f := (·.slotPulse s.free)) rfl (hrow.trans e), hacq, hisSet, ?_, ?_, ?_⟩
    · show u.ftc / 2 ^ 32 = _
      rw [hftc]
      exact stamp_of_difference _ _
    · rw [hd]
      exact hword'
    · rw [hd]
  case holdover =>
    have hm : s.dtu.holdoverEntry = s.dtu.withTime (s.dtu.time.miss (3 - s.dtu.time.missed)) :=
      if_neg (by rw [hpor]; decide)
    refine ⟨_, .of_eq (f := Dtu.holdoverEntry) rfl hm, ?_⟩
    rw [TimeUnit.miss_locked hst (by omega), TimeUnit.enter_holdover (by rw [TimeUnit.count, hst]; decide)]
    exact ⟨rfl, rfl, fld_setFld_same _ 4 4 1 (by decide) (by decide), rfl⟩
  case acquire =>
    have hm : s.dtu.holdoverEntry = s.dtu.withTime (s.dtu.time.miss (3 - s.dtu.time.missed)) :=
      if_neg (by rw [hpor]; decide)
    refine ⟨_, .of_eq (f := Dtu.holdoverEntry) rfl hm, ?_⟩
    rw [TimeUnit.miss_unlocked (by rw [hst]; decide)]
    exact ⟨hst, rfl, rfl, rfl, rfl⟩
  case sync =>
    obtain ⟨d, gap, hrow, hseq, hsampled, hcells, hhost⟩ := Dtu.timeSync_usable s.free phase htake hlen hkind hsrc hflags
    obtain ⟨r, st, m, tc, i, hmiss⟩ := d.missSample_eq gap
    have hlat : (d.missSample gap).host.latRx = s.dtu.host.latRx := by rw [hmiss, ← hhost]
    rw [hlat] at hrow
    obtain ⟨tc', t', g', q', n', i', hsample⟩ := (d.missSample gap).withTime_eq ((d.missSample gap).time.sample
      (d.missSample gap).build.timePeriod (d.missSample gap).slewMax (d.missSample gap).jumpThr dtuLockThr s.free
      (decide (2 ^ 34 ≤ dword f.body 1)) ((s.dtu.stampAt phase.toNat : Int) - s.dtu.host.latRx.toNat -
        stampOf (dword f.body 1) (wf f.body 3 31 0) (wf f.body 4 31 16)))
    refine ⟨_, .of_eq (f := (·.timeSync s.free f phase)) rfl (hrow.trans hsample), ?_, ?_, ?_, ?_, ?_⟩
    · rw [hmiss]
      exact hseq
    · rw [hmiss]
      exact hsampled
    · exact TimeUnit.sample_offset ..
    · rw [hmiss]
      exact hcells
    · rw [hmiss, ← hhost]

end Sys2Proof.Machine
end

section
/-!
PROOFS. Triggers, accesses of the Host Port, health and margin, and host faults.
-/
namespace Sys2Proof.Machine

/-! ### Triggers (R177, R178). -/

theorem Dtu.getD_trigs {d : Dtu} {i : Nat} {t : Trigger} (h : d.trigs[i]? = some t) : d.trigs.getD i (.initial 0) = t := by
  rw [List.getD_eq_getElem?_getD, h, Option.getD_some]

/-- Word 0 of a one-shot in form: armed at its start, or refused when that has passed. -/
theorem Dtu.trigWrite_oneShot {d : Dtu} {i : Nat} {w : W} {t : Trigger} (ht : d.trigs[i]? = some t) (h31 : bit w 31 = true)
    (h30 : bit w 30 = false) (hres : fld w 29 28 = 0) (hlow : fld w 15 0 = 0) (hwidth : fld w 27 16 ≠ 0) :
    d.trigWrite i 0 w = if t.start ≤ d.nowNs then d.earn stTrigPast
      else ({ d with trigs := d.trigs.set i { t with w0 := w, next := t.start } } : Dtu).earn stOk := by
  have hst : triggerStatus t 0 w (decide (fld w 29 28 = 0 ∧ fld w 15 0 = 0)) (decide (fld w 27 16 ≠ 0))
      (max 64 (((fld w 27 16 + 1) * d.build.timePeriod + oneNs - 1) / oneNs)) = stOk := by
    simp [triggerStatus, hres, hlow, hwidth, h30]
  have hw : t.write d.nowNs 0 w = if t.start ≤ d.nowNs then none else some { t with w0 := w, next := t.start } := by
    simp only [Trigger.write, h31, h30, if_true, Bool.false_eq_true, if_false]
  unfold Dtu.trigWrite
  simp only [Dtu.getD_trigs ht, hst, ne_eq, not_true_eq_false, if_false, hw]
  by_cases hpast : t.start ≤ d.nowNs
  · simp only [if_pos hpast]
  · simp only [if_neg hpast]

/-- Settles O14: word 0 of a one-shot by its start, another word by disarming, and a firing at the instant reached. -/
theorem triggersFireAtTheirInstant : Obligations.TriggersFireAtTheirInstant := by
  unfold Obligations.TriggersFireAtTheirInstant
  refine ⟨fun s i w t ht h31 h30 hres hlow hwidth hpast => ?_, fun s i w t ht h31 h30 hres hlow hwidth hahead => ?_,
    fun s i w t ht harmed => ?_, fun s i t ht harmed hreach hst => ?_⟩
  · exact .of_eq (f := (·.trigWrite i 0 w)) rfl ((Dtu.trigWrite_oneShot ht h31 h30 hres hlow hwidth).trans (if_pos hpast))
  · exact .of_eq (f := (·.trigWrite i 0 w)) rfl
      ((Dtu.trigWrite_oneShot ht h31 h30 hres hlow hwidth).trans (if_neg (Nat.not_le.2 hahead)))
  · refine .of_eq (f := (·.trigWrite i 3 w)) rfl ?_
    have hw : t.write s.dtu.nowNs 3 w = some { t with w0 := setFld t.w0 31 31 0, period := w } := by
      simp [Trigger.write, Trigger.enabled, harmed]
    unfold Dtu.trigWrite
    simp only [Dtu.getD_trigs ht, hw]
    rfl
  · have hfire : s.dtu.triggerFire i = { s.dtu.reach t.next with
        trigs := s.dtu.trigs.set i t.fire, trigHigh := s.dtu.trigHigh.set i (fld t.w0 27 16) } := by
      obtain ⟨ftc, res, hr, -⟩ := s.dtu.reach_eq t.next
      have hgo : (t.enabled && s.dtu.mayReach t.next) = true := by rw [Trigger.enabled, harmed, hreach, Bool.and_self]
      unfold Dtu.triggerFire
      simp only [ht, hgo, if_true, hr, if_pos hst]
    have hnow := s.dtu.le_nowNs_reach t.next
    obtain ⟨ftc, res, hr, -⟩ := s.dtu.reach_eq t.next
    refine ⟨_, .of_eq (f := (·.triggerFire i)) rfl hfire, ?_⟩
    rw [hr] at hnow ⊢
    exact ⟨hnow, rfl, rfl, rfl, rfl, rfl⟩

/-! ### Accesses of the Host Port (R41 to R44, R66). -/

/-- Settles O17: each access is the store or the read of the register at its address. -/
theorem hostPortWritesTakeEffect : Obligations.HostPortWritesTakeEffect := by
  unfold Obligations.HostPortWritesTakeEffect
  refine ⟨fun s w hr hw => ?_, fun s w hr hw => ?_, fun s w hr => ?_, fun s w hr => ⟨?_, ?_⟩, fun s w hr hcap hfrozen hhost => ?_,
    fun s w hr => ?_, fun s a w hpor hans => ?_, fun s a x hpor hans hread => ?_, fun s a w hpor => ?_⟩
  · exact .of_hostWrite (a := 0x14) (d := { s.dtu with host := { s.dtu.host with timeSrcNext := fld w 1 0 } }) rfl (Dtu.por_of_runs hr) rfl
      (Dtu.hostAnswers_of_runs hr rfl) (if_neg (Nat.not_le.2 hw))
  · exact .of_hostWrite (a := 0x14) (d := s.dtu) rfl (Dtu.por_of_runs hr) rfl (Dtu.hostAnswers_of_runs hr rfl) (if_pos hw)
  · exact .of_hostWrite (a := 0x10) (d := { s.dtu with host := { s.dtu.host with compat5 := bit w 8 } }) rfl (Dtu.por_of_runs hr) rfl
      (Dtu.hostAnswers_of_runs hr rfl) rfl
  · exact .of_hostWrite (a := 0x18) (d := { s.dtu with host := { s.dtu.host with latRxNext := w } }) rfl (Dtu.por_of_runs hr) rfl
      (Dtu.hostAnswers_of_runs hr rfl) rfl
  · exact .of_hostWrite (a := 0x1C) (d := { s.dtu with host := { s.dtu.host with latTxNext := w } }) rfl (Dtu.por_of_runs hr) rfl
      (Dtu.hostAnswers_of_runs hr rfl) rfl
  · refine .of_hostWrite (a := 0x58) (d := { s.dtu with trace := { s.dtu.trace with
        hostLo := w, hostRefused := min 0xFFFF s.dtu.trace.hostRefused
        host := some { rtype := 0x03, aux := s.dtu.trace.hostAux.toNat, ns := none,
                       payload := 2 ^ 32 * s.dtu.trace.hostHi.toNat + w.toNat } } })
      rfl (Dtu.por_of_runs hr) rfl (Dtu.hostAnswers_of_runs hr rfl) ?_
    show (s.dtu.hostRecord w, false) = _
    simp only [Dtu.hostRecord, hcap, hfrozen, hhost]
    rfl
  · exact .of_hostWrite (a := 0x34) (d := { s.dtu with host := { s.dtu.host with irqEnable := w &&& 0x7FF } }) rfl (Dtu.por_of_runs hr) rfl
      (Dtu.hostAnswers_of_runs hr rfl) rfl
  · refine .of_eq (f := (·.hostAccess a.toNat w)) rfl ?_
    unfold Dtu.hostAccess
    cases w <;> simp [hpor, hans]
  · refine .of_eq (f := (·.hostAccess a.toNat none)) rfl ?_
    unfold Dtu.hostAccess
    simp [hpor, hans, hread]
  · exact .of_dtu (f := (·.hostAccess a.toNat w)) rfl (if_pos hpor)

/-! ### Faults at the Fault Port (R61, R142). -/

theorem mergeFault_of_new {q : List FaultMsg} {m : BitVec 128} (h : ∀ x ∈ q, x.message ≠ m) : mergeFault q m = none := by
  unfold mergeFault firstIdx
  rw [List.findIdx?_eq_none_iff.2 fun x hx => beq_eq_false_iff_ne.2 (h x hx)]
  rfl

theorem modAt_append_cons {α : Type} (a b : List α) (x : α) (f : α → α) : modAt (a ++ x :: b) a.length f = a ++ f x :: b := by
  simp [modAt]

/-- The first equal message counts one repeat more. -/
theorem mergeFault_of_waiting {a b : List FaultMsg} {x : FaultMsg} {m : BitVec 128} (hx : x.message = m)
    (ha : ∀ y ∈ a, y.message ≠ m) :
    mergeFault (a ++ x :: b) m = some (a ++ { x with repeats := min 255 (x.repeats + 1) } :: b) := by
  have hnone : a.findIdx? (fun y => y.message == m) = none :=
    List.findIdx?_eq_none_iff.2 fun y hy => beq_eq_false_iff_ne.2 (ha y hy)
  have hidx : (a ++ x :: b).findIdx? (fun y => y.message == m) = some a.length := by
    simp [List.findIdx?_append, hnone, List.findIdx?_cons, hx]
  unfold mergeFault firstIdx
  rw [hidx, Option.map_some, modAt_append_cons]

/-- Settles O22: `faultRdy` says whether a message is taken, `mergeFault` whether an equal one waits. -/
theorem hostFaultsAreQueuedOrMerged : Obligations.HostFaultsAreQueuedOrMerged := by
  unfold Obligations.HostFaultsAreQueuedOrMerged
  refine ⟨fun s m hrdy hnew => ?_, fun s m a b x hport hx ha hrdy => ?_, fun s m hfull => ?_⟩
  · refine .of_eq (f := (·.faultAccept m)) rfl ?_
    simp only [Dtu.faultAccept, hrdy, mergeFault_of_new hnew]
    rfl
  · refine ⟨_, .of_eq (f := (·.faultAccept m)) rfl rfl, ?_⟩
    simp only [Dtu.faultAccept, hrdy, hport, mergeFault_of_waiting hx ha]
    exact ⟨rfl, rfl⟩
  · refine .of_dtu (f := (·.faultAccept m)) rfl (if_pos ?_)
    rcases hfull with hlen | hlull | hreset
    · simp [Dtu.faultRdy, Nat.not_lt.2 hlen]
    · simp [Dtu.faultRdy, Nat.not_lt.2 hlull]
    · simp [Dtu.faultRdy, hreset]

end Sys2Proof.Machine
end

section
/-!
PROOFS. Health sensing and the margin handshake.
-/
namespace Sys2Proof.Machine

/-! ### The order of a key (`sortBy`). -/

theorem insertBy_perm {α : Type} (key : α → Nat) (a : α) (l : List α) : (insertBy key a l).Perm (a :: l) := by
  induction l with
  | nil => exact .refl _
  | cons b l ih =>
    unfold insertBy
    split
    · exact .refl _
    · exact (ih.cons b).trans (.swap a b l)

theorem insertBy_sorted {α : Type} {key : α → Nat} (a : α) {l : List α} (h : l.Pairwise (fun x y => key x ≤ key y)) :
    (insertBy key a l).Pairwise (fun x y => key x ≤ key y) := by
  induction l with
  | nil => exact List.pairwise_singleton _ _
  | cons b l ih =>
    obtain ⟨hb, hl⟩ := List.pairwise_cons.1 h
    unfold insertBy
    split
    next hlt =>
      refine List.pairwise_cons.2 ⟨fun y hy => ?_, h⟩
      rcases List.mem_cons.1 hy with rfl | hy
      · exact Nat.le_of_lt hlt
      · exact Nat.le_trans (Nat.le_of_lt hlt) (hb y hy)
    next hge =>
      refine List.pairwise_cons.2 ⟨fun y hy => ?_, ih hl⟩
      rcases List.mem_cons.1 ((insertBy_perm key a l).mem_iff.1 hy) with rfl | hy
      · exact Nat.not_lt.1 hge
      · exact hb y hy

/-- Insertion one by one: a permutation, in rising order of the key. -/
theorem sortBy_spec {α : Type} (key : α → Nat) (l : List α) :
    (sortBy key l).Perm l ∧ (sortBy key l).Pairwise (fun x y => key x ≤ key y) := by
  have hgen : ∀ (l acc : List α), acc.Pairwise (fun x y => key x ≤ key y) →
      (l.foldl (fun acc a => insertBy key a acc) acc).Perm (acc ++ l) ∧
      (l.foldl (fun acc a => insertBy key a acc) acc).Pairwise (fun x y => key x ≤ key y) := by
    intro l
    induction l with
    | nil => exact fun acc h => ⟨by rw [List.append_nil]; exact .refl _, h⟩
    | cons a l ih =>
      intro acc h
      obtain ⟨hperm, hsorted⟩ := ih (insertBy key a acc) (insertBy_sorted a h)
      exact ⟨hperm.trans (((insertBy_perm key a acc).append_right l).trans List.perm_middle.symm), hsorted⟩
  exact hgen l [] .nil

/-- The head of a list sorted by a key is one of its elements of least key. -/
theorem sortBy_head {α : Type} {key : α → Nat} {l : List α} {r : α} {rest : List α} (h : sortBy key l = r :: rest) :
    r ∈ l ∧ (∀ x ∈ l, key r ≤ key x) ∧ rest.length + 1 = l.length := by
  obtain ⟨hperm, hsorted⟩ := sortBy_spec key l
  rw [h] at hperm hsorted
  obtain ⟨hle, -⟩ := List.pairwise_cons.1 hsorted
  refine ⟨hperm.mem_iff.1 List.mem_cons_self, fun x hx => ?_, hperm.length_eq⟩
  rcases List.mem_cons.1 (hperm.mem_iff.2 hx) with rfl | hx
  · exact Nat.le_refl _
  · exact hle x hx

/-! ### Margin requests (R146, R147). -/

/-- What a margin request may change: the queue of requests, the local budget, faults and counts. -/
def Dtu.Margins (d x : Dtu) : Prop :=
  ∃ cfg driving waiting stalled drivenAt locals lowRun faults counters, x = { d with
    faults, counters, health := { d.health with cfg, driving, waiting, stalled, drivenAt, locals, lowRun } }

theorem Dtu.Margins.refl (d : Dtu) : d.Margins d := ⟨_, _, _, _, _, _, _, _, _, rfl⟩

theorem Dtu.Margins.trans {a b c : Dtu} (h : a.Margins b) (k : b.Margins c) : a.Margins c := by
  obtain ⟨c1, d1, w1, s1, t1, l1, r1, q1, n1, rfl⟩ := h
  obtain ⟨c2, d2, w2, s2, t2, l2, r2, q2, n2, rfl⟩ := k
  exact ⟨c2, d2, w2, s2, t2, l2, r2, q2, n2, rfl⟩

theorem Dtu.Margins.ite {c : Prop} [Decidable c] {d x y : Dtu} (hx : d.Margins x) (hy : d.Margins y) :
    d.Margins (if c then x else y) := by
  split
  · exact hx
  · exact hy

theorem Dtu.raise_margins (d : Dtu) (k : FaultKind) (op : FaultOp) (n : Nat) : d.Margins (d.raise k op n) := by
  obtain ⟨q, n', h⟩ := d.raise_eq k op n
  exact h ▸ ⟨_, _, _, _, _, _, _, q, n', rfl⟩

theorem Dtu.startMargin_margins (d : Dtu) : d.Margins d.startMargin := by
  unfold Dtu.startMargin
  dsimp only
  split
  · exact .refl d
  · split
    · exact .refl d
    · exact ⟨_, _, _, _, _, _, _, _, _, rfl⟩

theorem Dtu.askMargin_margins (d : Dtu) (code : Nat) (handle : Option W) : d.Margins (d.askMargin code handle).1 := by
  unfold Dtu.askMargin
  dsimp only
  split
  · split
    · exact ⟨_, _, _, _, _, _, _, _, _, rfl⟩
    · split <;> exact ⟨_, _, _, _, _, _, _, _, _, rfl⟩
  · split
    · exact ⟨_, _, _, _, _, _, _, _, _, rfl⟩
    · exact Dtu.Margins.trans ⟨_, _, _, _, _, _, _, _, _, rfl⟩ (Dtu.startMargin_margins _)

theorem Dtu.localMargin_margins (d : Dtu) (code : Nat) : d.Margins (d.localMargin code) := by
  have hask := d.askMargin_margins code none
  unfold Dtu.localMargin
  dsimp only
  split
  · exact ⟨_, _, _, _, _, _, _, _, _, rfl⟩
  · split
    · exact hask.trans ⟨_, _, _, _, _, _, _, _, _, rfl⟩
    · exact hask

/-! ### Health samples (R143, R145). -/

/-- The DTU with a sample kept and judged, before what the sample raises. -/
def Dtu.sampleKept (d : Dtu) (temp vcore vret : BitVec 16) : Dtu :=
  let lv := thermalLevel (ofTwos 16 (fld d.thermCfg 31 16)) (fld d.thermCfg 15 8) (ofTwos 16 (fld d.thermCrit 31 16))
    d.health.level d.health.below (ofTwos 16 (clampTemp temp).toNat)
  { d with health := { d.health with
    temp := clampTemp temp, vcore := clampVolt vcore
    samples := d.health.samples ++ [(clampTemp temp, clampVolt vcore, clampVolt vret)], level := lv.1, below := lv.2
    pendingThrottle := max lv.1 (fld d.thermCfg 2 0) } }

theorem Dtu.healthSample_margins {d : Dtu} (temp vcore vret : BitVec 16) (hr : d.runs = true) :
    (d.sampleKept temp vcore vret).Margins (d.healthSample temp vcore vret) := by
  unfold Dtu.healthSample
  rw [if_neg (by rw [hr]; decide)]
  extract_lets t v h ti crit before lv mc low run d1 d2 d3 d4
  have h1 : (d.sampleKept temp vcore vret).Margins d1 := ⟨_, _, _, _, _, _, _, _, _, rfl⟩
  have h2 : d1.Margins d2 := .ite (d1.raise_margins _ _ _) (.refl d1)
  have h3 : d2.Margins d3 := d2.raise_margins _ _ _
  have h4 : d2.Margins d4 := .ite (.ite (h3.trans (d3.localMargin_margins 1)) h3) (.refl d2)
  exact ((h1.trans h2).trans h4).trans (.ite (d4.localMargin_margins 2) (.refl d4))

/-! ### The handshake (R58, R147). -/

theorem Dtu.finishAll_eq (d : Dtu) (hs : List W) (r : Result) :
    ∃ longs, hs.foldl (fun d x => d.finish x r) d = { d with cmds := { d.cmds with longs } } := by
  induction hs generalizing d with
  | nil => exact ⟨_, rfl⟩
  | cons h hs ih =>
    obtain ⟨l, e⟩ := ih (d.finish h r)
    exact ⟨l, by rw [List.foldl_cons, e]; rfl⟩

/-- Finishing handles leaves none of them undone, nor undoes another. -/
theorem Dtu.finishAll_done (hs : List W) (r : Result) (d : Dtu) (H : List W)
    (hd : ∀ l ∈ d.cmds.longs, l.handle ∈ H → l.done.isSome = true) :
    ∀ l ∈ (hs.foldl (fun d x => d.finish x r) d).cmds.longs, l.handle ∈ H ∨ l.handle ∈ hs → l.done.isSome = true := by
  induction hs generalizing d H with
  | nil => exact fun l hl hm => hd l hl (hm.resolve_right (List.not_mem_nil))
  | cons h hs ih =>
    intro l hl hm
    refine ih (d.finish h r) (h :: H) (fun l hl hm => ?_) l hl ?_
    · obtain ⟨l0, hl0, rfl⟩ := List.mem_map.1 hl
      by_cases hsel : (l0.handle == h && l0.done.isNone) = true
      · simp only [hsel, if_true, Option.isSome_some]
      · simp only [hsel] at hm ⊢
        rcases List.mem_cons.1 hm with rfl | hm
        · simpa [Option.isSome_iff_ne_none] using hsel
        · exact hd l0 hl0 hm
    · rcases hm with hm | hm
      · exact .inl (List.mem_cons_of_mem _ hm)
      · rcases List.mem_cons.1 hm with hm | hm
        · exact .inl (hm ▸ List.mem_cons_self)
        · exact .inr hm

/-- Settles O21: a sample is kept and judged before it raises what it must; the handshake takes the first request of the order. -/
theorem healthAndMarginAreHandled : Obligations.HealthAndMarginAreHandled := by
  unfold Obligations.HealthAndMarginAreHandled
  refine ⟨⟨fun s t v r hr => ?kept, fun s t v r hr => ?asleep⟩, fun s r nak hdrive hack => ?acked, fun s hdrive hwait => ?idle,
    fun s hdrive hwait => ?next, fun s r hdrive hack hstall => ?stalled, fun s w hst => ?written, fun s w hst => ?refused⟩
  case kept =>
    obtain ⟨c, dr, wt, stl, da, lc, lr, q, n, h⟩ := Dtu.healthSample_margins t v r hr
    refine ⟨_, .of_eq (f := (·.healthSample t v r)) rfl h, ?_⟩
    exact ⟨rfl, rfl, rfl, rfl, rfl, rfl, rfl, rfl, rfl⟩
  case asleep => exact .of_dtu (f := (·.healthSample t v r)) rfl (if_pos (by rw [hr]; rfl))
  case acked =>
    have hrow : ∃ x : Dtu, s.dtu.marginAck nak = r.handles.foldl (fun d h => d.finish h
          { status := 0, detail := 0, result0 := b2n nak, payload := [], trunc := false }) (x.irq 7) ∧
        x.health.driving = none ∧ x.health.acked = true ∧ x.health.naks = s.dtu.health.naks + b2n nak ∧
        x.health.waiting = s.dtu.health.waiting ∧ x.cells = s.dtu.cells ∧ x.link = s.dtu.link := by
      unfold Dtu.marginAck
      simp only [hdrive, hack]
      cases nak <;> exact ⟨_, rfl, rfl, rfl, rfl, rfl, rfl, rfl⟩
    obtain ⟨x, hrow, hdriving, hacked, hnaks, hwaiting, hcells, hlink⟩ := hrow
    have hdone := Dtu.finishAll_done r.handles { status := 0, detail := 0, result0 := b2n nak, payload := [], trunc := false }
      (x.irq 7) [] fun _ _ h => absurd h List.not_mem_nil
    obtain ⟨longs, e⟩ := (x.irq 7).finishAll_eq r.handles
      { status := 0, detail := 0, result0 := b2n nak, payload := [], trunc := false }
    rw [e] at hrow hdone
    refine ⟨_, .of_eq (f := (·.marginAck nak)) rfl hrow, hdriving, hacked, ?_, hnaks, hwaiting, ?_, fun l hl hm => ?_, hcells, hlink⟩
    · exact if_pos hacked
    · exact fld_setFld_same _ 7 7 1 (by decide) (by decide)
    · exact hdone l hl (.inr hm)
  case idle =>
    refine .of_eq (f := Dtu.marginRelease) rfl ?_
    simp [Dtu.marginRelease, Dtu.startMargin, hdrive, hwait, sortBy]
  case next =>
    cases hsort : sortBy marginRank s.dtu.health.waiting with
    | nil =>
      obtain ⟨hperm, -⟩ := sortBy_spec marginRank s.dtu.health.waiting
      rw [hsort] at hperm
      exact absurd hperm.nil_eq.symm hwait
    | cons r rest =>
      obtain ⟨hmem, hleast, hlen⟩ := sortBy_head hsort
      have hrow : s.dtu.marginRelease = { s.dtu with health := { s.dtu.health with
          acked := false, driving := some r, waiting := rest, stalled := false, drivenAt := s.dtu.nowNs } } := by
        simp only [Dtu.marginRelease, Dtu.startMargin, hdrive, hsort]
        rfl
      exact ⟨_, r, .of_eq (f := Dtu.marginRelease) rfl hrow, rfl, rfl, hmem, hleast, hlen, rfl, rfl⟩
  case stalled =>
    have hgo : (s.dtu.health.driving.isSome && !s.dtu.health.acked && !s.dtu.health.stalled) = true := by
      rw [hdrive, hack, hstall]
      rfl
    have hnow := s.dtu.le_nowNs_reach (s.dtu.health.drivenAt + 2 ^ 20)
    obtain ⟨ftc, res, hreach, -⟩ := s.dtu.reach_eq (s.dtu.health.drivenAt + 2 ^ 20)
    refine ⟨_, .of_eq (f := Dtu.marginStall) rfl (if_pos hgo), ?_⟩
    rw [hreach] at hnow ⊢
    exact ⟨rfl, fld_setFld_same _ 6 6 1 (by decide) (by decide), hnow, hdrive, rfl⟩
  case written =>
    refine .of_eq (f := (·.marginBudgetWrite w)) rfl ?_
    simp only [Dtu.marginBudgetWrite, hst, if_true]
    rfl
  case refused =>
    refine .of_eq (f := (·.marginBudgetWrite w)) rfl ?_
    simp only [Dtu.marginBudgetWrite, if_neg hst]
    rfl

end Sys2Proof.Machine
end

section
/-!
PROOFS. Captures, link resets, slot boundaries, resets and Lull states of a DTU.
-/
namespace Sys2Proof.Machine

/-! ### Captures (R112, R113, R116). -/

/-- `x` is `d` with what captures change: the raw ring, the offers and since-counts taken, losses and counts. -/
def Dtu.Captured (d x : Dtu) : Prop :=
  ∃ raw rawWritten losses cutSaid class0 host hostRefused events dueCells taps dueTaps counters,
    x = { d with counters, trace := { d.trace with
      raw, rawWritten, losses, cutSaid, class0, host, hostRefused, events, dueCells, taps, dueTaps } }

theorem Dtu.Captured.refl (d : Dtu) : d.Captured d := ⟨_, _, _, _, _, _, _, _, _, _, _, _, rfl⟩

theorem Dtu.Captured.trans {a b c : Dtu} (h : a.Captured b) (k : b.Captured c) : a.Captured c := by
  obtain ⟨r1, w1, l1, c1, o1, h1, n1, e1, dc1, t1, dt1, m1, rfl⟩ := h
  obtain ⟨r2, w2, l2, c2, o2, h2, n2, e2, dc2, t2, dt2, m2, rfl⟩ := k
  exact ⟨r2, w2, l2, c2, o2, h2, n2, e2, dc2, t2, dt2, m2, rfl⟩

theorem Dtu.offer_captured (d : Dtu) (rtype aux payload : Nat) : d.Captured (d.offer rtype aux payload) := by
  unfold Dtu.offer
  split <;> exact ⟨_, _, _, _, _, _, _, _, _, _, _, _, rfl⟩

theorem Dtu.capture_captured (k kind : Nat) (o : TraceOffer) (c : CaptureState) : c.1.Captured (Dtu.capture k kind o c).1.1 := by
  obtain ⟨d, n⟩ := c
  unfold Dtu.capture
  dsimp only
  (repeat' split) <;> exact ⟨_, _, _, _, _, _, _, _, _, _, _, _, rfl⟩

theorem Dtu.captureClass0_captured (l : List TraceOffer) (c : CaptureState) : c.1.Captured (Dtu.captureClass0 l c).1 := by
  induction l generalizing c with
  | nil => exact .refl c.1
  | cons o r ih =>
    have hc := Dtu.capture_captured 0 3 o c
    unfold Dtu.captureClass0
    split
    next c' heq =>
      rw [heq] at hc
      exact hc
    next c' e _ heq =>
      rw [heq] at hc
      exact (hc.trans ⟨_, _, _, _, _, _, _, _, _, _, _, _, rfl⟩).trans (ih _)

theorem Dtu.captureAll0_captured (d : Dtu) : d.Captured d.captureAll0 := Dtu.captureClass0_captured _ (d, _)

theorem Dtu.lullRecord_captured (d : Dtu) (left entered : Nat) : d.Captured (d.lullRecord left entered) :=
  (d.offer_captured _ _ _).trans (Dtu.captureAll0_captured _)

/-! ### Link resets (R68, R126, R354). -/

theorem Dtu.traceLinkReset_eq (d : Dtu) : ∃ trace counters, d.traceLinkReset = { d with trace, counters } := by
  unfold Dtu.traceLinkReset
  split
  · exact ⟨_, _, rfl⟩
  · dsimp only
    (repeat' split) <;> exact ⟨_, _, rfl⟩

/-- The link after a reset: its state, versions, credits and sequence numbers begin again, what is queued stays. -/
def DtuLink.afterReset (l : DtuLink) : DtuLink :=
  { l with
    linkState := 1, version := 0, beatSum := [0, 0, 0, 0], beatLimit := [none, none, none, none],
    beatHeld := [0, 0, 0, 0], ledgerSaid := [false, false, false, false], slotsUp := 0, resetting := true,
    rxGranted := [0, 0, 0, 0], rxOwed := [128, 128, 128, 128], crdVc := none, crdNext := 0, pools := List.replicate 4 .initial,
    lseqTx := List.replicate 8 0, lseqRx := List.replicate 8 0, peerSeen := false, admitted := false,
    fabricId := 0, badHcrcRun := 0, resetReasonDue := none, creditOwed := true }

theorem Dtu.linkReset_eq (d : Dtu) (reason : Option Nat) : ∃ trace counters frost, d.linkReset reason = { d with
    trace, counters, frost, factory := false, link := d.link.afterReset
    host := { d.host with irqStatus := if d.link.linkState = 3 then setFld d.host.irqStatus 1 1 1 else d.host.irqStatus } } := by
  obtain ⟨t, n, h⟩ := d.traceLinkReset_eq
  unfold Dtu.linkReset
  rw [h]
  by_cases h3 : d.link.linkState = 3
  · simp only [if_pos h3]
    cases reason <;> exact ⟨_, _, _, rfl⟩
  · simp only [if_neg h3]
    cases reason <;> exact ⟨_, _, _, rfl⟩

theorem Dtu.runs_iff {d : Dtu} : d.runs = true ↔
    d.power.lull = 0 ∧ d.power.por = false ∧ d.power.rst = false ∧ d.power.soft = false := by
  simp [Dtu.runs, Dtu.coreReset, and_assoc]

/-! ### Slot boundaries (R13, R42, R145, R358, R462). -/

theorem Dtu.slotEnds_eq (d : Dtu) : ∃ port run state missed tcounts irqStatus, d.slotEnds = { d with
    port, host := { d.host with irqStatus }, time := { d.time with run, state, missed, counters := tcounts } } := by
  unfold Dtu.slotEnds
  dsimp only
  split
  · exact ⟨_, _, _, _, _, _, rfl⟩
  · obtain ⟨r, st, m, n, i, h⟩ := Dtu.missSample_eq { d with port := { d.port with sampled := false, absent := d.port.absent + 1 } } 1
    exact ⟨_, r, st, m, n, i, h⟩

/-- The shaper's rate and burst are those of DTU_UL_RATE. -/
theorem Dtu.adoptRate_eq (d : Dtu) : ∃ shaper, d.adoptRate = { d with link := { d.link with shaper } } ∧
    shaper.rate = fld d.link.ulRate 23 16 ∧ shaper.burst = 1024 * fld d.link.ulRate 15 0 := by
  unfold Dtu.adoptRate
  dsimp only
  split
  next h => exact ⟨d.link.shaper, rfl, h.1.symm, h.2.symm⟩
  next h => exact ⟨_, rfl, rfl, rfl⟩

theorem Dtu.helloSend_eq (d : Dtu) : ∃ link, d.helloSend = { d with link } ∧ link.rst = d.link.rst := by
  unfold Dtu.helloSend
  dsimp only
  split
  · split <;> exact ⟨_, rfl, rfl⟩
  · split <;> exact ⟨_, rfl, rfl⟩

theorem Dtu.loopUplink_eq (d : Dtu) : ∃ cmds, d.loopUplink = { d with cmds } := by
  unfold Dtu.loopUplink
  split
  · exact ⟨_, rfl⟩
  · split <;> exact ⟨_, rfl⟩

theorem Dtu.loopUplink_of_none {d : Dtu} (h : d.cmds.loop = none) : d.loopUplink = d := by
  unfold Dtu.loopUplink
  rw [h]

theorem Dtu.tryLull_of_none {d : Dtu} (h : d.power.lullReq = 0) : d.tryLull = d := if_pos (.inl h)

/-- The FTC brought to the next slot boundary stands at it. -/
theorem Dtu.reach_nextSlot (d : Dtu) : (d.reach d.time.nextSlot).nowNs = d.time.nextSlot := by
  have hns : d.time.ns = d.time.ftc / 2 ^ 48 := rfl
  have hlt : d.time.ftc < oneNs * d.time.nextSlot := by
    unfold TimeUnit.nextSlot oneNs
    omega
  unfold Dtu.reach TimeUnit.reach
  rw [if_pos hlt]
  exact Nat.mul_div_cancel_left _ oneNs_pos

/-- The DTU at the end of a slot, with the resets over. -/
theorem Dtu.slotEnds_resetsEnd_eq (d : Dtu) : ∃ port run state missed tcounts irqStatus, d.slotEnds.resetsEnd = { d with
    port, host := { d.host with irqStatus }, time := { d.time with run, state, missed, counters := tcounts }
    power := { d.power with soft := false }, link := { d.link with resetting := false } } := by
  obtain ⟨p, r, st, m, n, i, h⟩ := d.slotEnds_eq
  exact ⟨p, r, st, m, n, i, by rw [h]; rfl⟩

/-- Before a soft reset or a Lull state a slot boundary changes time, port, link, health, the commands, the interrupts and what of
the Host Port takes force. -/
theorem Dtu.slotBoundary_eq (d : Dtu) :
    ∃ (time : TimeUnit) (irqStatus : W) (port : TimePort) (link : DtuLink) (health : Health) (cmds : DtuCmds),
    link.rst = d.link.rst ∧
    d.slotBoundary = (let x : Dtu := { d with
        time, port, link, health, cmds, power := { d.power with soft := false }
        host := { d.host with irqStatus, timeSrc := d.host.timeSrcNext, latRx := d.host.latRxNext, latTx := d.host.latTxNext } }
      if d.power.softDue then x.softReset.tryLull else x.tryLull) := by
  unfold Dtu.slotBoundary
  extract_lets next d1 d2 _ _ d3 d4 _ d5 _ d6 d7
  obtain ⟨time, h1⟩ : ∃ time, d1 = { d with time } := by
    unfold d1
    split <;> exact ⟨_, rfl⟩
  obtain ⟨p, r, st, m, n, i, h2⟩ := d1.slotEnds_resetsEnd_eq
  obtain ⟨sh, h4, -, -⟩ := d3.adoptRate_eq
  obtain ⟨l, h5, hrst⟩ : ∃ link, d5 = { d4 with link } ∧ link.rst = d4.link.rst := by
    unfold d5
    split
    · exact Dtu.helloSend_eq _
    · exact ⟨_, rfl, rfl⟩
  obtain ⟨hh, h6⟩ : ∃ health, d6 = { d5 with health } := by
    unfold d6
    split <;> exact ⟨_, rfl⟩
  obtain ⟨c, h7⟩ := d6.loopUplink_eq
  have h3 : d3 = { d2 with
      host := { d2.host with timeSrc := d2.host.timeSrcNext, latRx := d2.host.latRxNext, latTx := d2.host.latTxNext }
      link := { d2.link with slotsUp := if d2.portOn then d2.link.slotsUp + 1 else 0 } } := rfl
  change d2 = _ at h2
  change d4 = _ at h4
  change d7 = _ at h7
  clear_value d7 d6 d5 d4 d3 d2 d1
  subst h7 h6 h5 h4 h3 h2 h1
  exact ⟨_, i, p, l, hh, c, hrst, rfl⟩

/-- A slot boundary of a running DTU with nothing else to do. -/
theorem Dtu.slotBoundary_running {d : Dtu} (hr : d.runs = true) (hrst : d.link.rst = false) (hhello : d.link.helloWait = false)
    (hsoft : d.power.softDue = false) (hlull : d.power.lullReq = 0) (hloop : d.cmds.loop = none)
    (hreach : d.mayReach d.time.nextSlot = true) :
    ∃ time irqStatus port shaper, d.slotBoundary = { d with
        time, port, power := { d.power with soft := false }
        health := { d.health with throttle := d.health.pendingThrottle }
        link := { d.link with resetting := false, slotsUp := d.link.slotsUp + 1, shaper }
        host := { d.host with irqStatus, timeSrc := d.host.timeSrcNext, latRx := d.host.latRxNext, latTx := d.host.latTxNext } } ∧
      time.ns = d.time.nextSlot ∧ shaper.rate = fld d.link.ulRate 23 16 ∧ shaper.burst = 1024 * fld d.link.ulRate 15 0 := by
  unfold Dtu.slotBoundary
  extract_lets next d1 d2 _ _ d3 d4 _ d5 _ d6 d7
  have hns : d1.nowNs = d.time.nextSlot := by
    unfold d1
    rw [if_pos hreach]
    exact d.reach_nextSlot
  obtain ⟨ftc, res, h1⟩ : ∃ ftc residual, d1 = { d with time := { d.time with ftc, residual } } := by
    unfold d1
    rw [if_pos hreach]
    obtain ⟨f, r, h, -⟩ := d.reach_eq next
    exact ⟨f, r, h⟩
  obtain ⟨p, r, st, m, n, i, h2⟩ := d1.slotEnds_resetsEnd_eq
  obtain ⟨sh, h4, hrate, hburst⟩ := d3.adoptRate_eq
  have h3 : d3 = { d2 with
      host := { d2.host with timeSrc := d2.host.timeSrcNext, latRx := d2.host.latRxNext, latTx := d2.host.latTxNext }
      link := { d2.link with slotsUp := if d2.portOn then d2.link.slotsUp + 1 else 0 } } := rfl
  change d2 = _ at h2
  change d4 = _ at h4
  obtain ⟨hlull0, hpor, hrst', -⟩ := Dtu.runs_iff.1 hr
  have hon : d2.portOn = true := by
    rw [h2, h1]
    simp [Dtu.portOn, Dtu.runs_iff, hlull0, hpor, hrst', hrst]
  rw [hon, if_pos rfl, h2, h1] at h3
  rw [h3] at h4 hrate hburst
  have h5 : d5 = d4 := if_neg (by rw [h4]; simp [hhello])
  have h6 : d6 = { d5 with health := { d5.health with throttle := d5.health.pendingThrottle } } :=
    if_pos (by rw [h5, h4]; exact Dtu.runs_iff.2 ⟨hlull0, hpor, hrst', rfl⟩)
  rw [h5, h4] at h6
  have h7 : d7 = d6 := Dtu.loopUplink_of_none (by rw [h6]; exact hloop)
  rw [h6] at h7
  rw [h7, if_neg (by rw [hsoft]; decide), Dtu.tryLull_of_none (by exact hlull)]
  rw [h1] at hns
  exact ⟨_, i, p, sh, rfl, hns, hrate, hburst⟩

/-- Settles O18: the boundary reached, what waits takes force; a soft reset that waits is carried out on what that leaves. -/
theorem slotBoundaryAppliesWaitingChanges : Obligations.SlotBoundaryAppliesWaitingChanges := by
  unfold Obligations.SlotBoundaryAppliesWaitingChanges
  refine ⟨fun s hr hrst hhello hsoft hlull hloop hreach => ?_, fun s hpor hsoft hlull => ?_⟩
  · obtain ⟨time, i, p, sh, h, hns, hrate, hburst⟩ := Dtu.slotBoundary_running hr hrst hhello hsoft hlull hloop hreach
    refine ⟨_, .of_eq (f := fun d => if d.power.por then d else d.slotBoundary) rfl
      ((if_neg (by rw [Dtu.por_of_runs hr]; decide)).trans h), ?_⟩
    exact ⟨hns, rfl, rfl, rfl, rfl, rfl, hrate, hburst, rfl, rfl, rfl⟩
  · obtain ⟨time, i, p, l, hh, c, -, h⟩ := s.dtu.slotBoundary_eq
    dsimp only at h
    rw [if_pos hsoft, Dtu.tryLull_of_none (by exact hlull)] at h
    refine ⟨_, .of_eq (f := fun d => if d.power.por then d else d.slotBoundary) rfl ((if_neg (by rw [hpor]; decide)).trans h), ?_⟩
    refine ⟨rfl, rfl, rfl, rfl, rfl, rfl, rfl, rfl, rfl, rfl, rfl, ?_, rfl, ?_, ?_⟩
    · rfl
    · simp [Dtu.ulRstInd, Dtu.coreReset, Dtu.softReset]
    · simp [Dtu.faultRdy, Dtu.coreReset, Dtu.softReset]

/-! ### Resets (R68 to R70, R460 to R462). -/

theorem Dtu.ulRstInd_of_coreReset {d : Dtu} (h : d.coreReset = true) : d.ulRstInd = true := by
  rw [Dtu.ulRstInd, h]
  simp

theorem Dtu.portStatus_of_ulRstInd {d : Dtu} (h : d.ulRstInd = true) : d.portStatus = 0 := if_pos h

theorem Dtu.faultRdy_of_coreReset {d : Dtu} (h : d.coreReset = true) : d.faultRdy = false := by
  rw [Dtu.faultRdy, h]
  simp

/-- Settles O19: each reset as its update of the initial DTU; a reset input released is its bit alone. -/
theorem resetsKeepAndClear : Obligations.ResetsKeepAndClear := by
  unfold Obligations.ResetsKeepAndClear
  refine ⟨fun s hpor => ?_, fun s hrst => ?_, fun s hpor => ?_, fun s hrst => ?_, fun s hrst => ?_, fun s hrst => ?_, fun s => ?_⟩
  · have hcore : s.dtu.powerOnReset.coreReset = true := rfl
    exact ⟨_, hostPowerOnReset_becomes hpor, rfl, rfl, rfl, rfl, rfl, rfl, rfl, rfl, rfl, rfl,
      Dtu.portStatus_of_ulRstInd (Dtu.ulRstInd_of_coreReset hcore), Dtu.faultRdy_of_coreReset hcore⟩
  · have hcore : s.dtu.pinReset.coreReset = true := by simp [Dtu.coreReset, Dtu.pinReset]
    exact ⟨_, pinReset_becomes hrst, rfl, rfl, rfl, rfl, rfl, rfl, rfl, rfl, rfl, rfl, rfl, rfl, rfl, rfl, rfl, rfl, rfl, rfl, rfl,
      rfl, Dtu.ulRstInd_of_coreReset hcore, Dtu.portStatus_of_ulRstInd (Dtu.ulRstInd_of_coreReset hcore),
      Dtu.faultRdy_of_coreReset hcore⟩
  · exact .of_eq (f := Dtu.porEdge) rfl (if_pos hpor)
  · exact .of_eq (f := Dtu.rstEdge) rfl (if_pos hrst)
  · exact .of_eq (f := Dtu.pathEdge) rfl (if_pos hrst)
  · obtain ⟨t, n, f, h⟩ := s.dtu.linkReset_eq none
    have hrow : s.dtu.pathEdge = { s.dtu.linkReset none with link := { (s.dtu.linkReset none).link with rst := true } } :=
      if_neg (by rw [hrst]; decide)
    rw [h] at hrow
    have hind : ({ s.dtu.linkReset none with link := { (s.dtu.linkReset none).link with rst := true } } : Dtu).ulRstInd = true := by
      simp [Dtu.ulRstInd]
    rw [h] at hind
    refine ⟨_, .of_eq (f := Dtu.pathEdge) rfl hrow, rfl, rfl, rfl, rfl, rfl, rfl, rfl, rfl, rfl, rfl, rfl, rfl, rfl, rfl, rfl, rfl, hind,
      Dtu.portStatus_of_ulRstInd hind, fun hup => ?_⟩
    rw [if_pos hup]
    exact fld_setFld_same _ 1 1 1 (by decide) (by decide)
  · exact .of_eq (f := Dtu.faultIntakeReset) rfl rfl

end Sys2Proof.Machine
end

section
/-!
PROOFS. Lull states of a DTU.
-/
namespace Sys2Proof.Machine

/-! ### The closure of cause 5 (R125). -/

@[simp] theorem Trace.adopt_waits (t : Trace) : t.adopt.waits = t.waits := by
  unfold Trace.adopt
  split <;> rfl

@[simp] theorem Dtu.closeBlock_waits (d : Dtu) (cause : Nat) (ends : Bool) :
    (d.closeBlock cause ends).trace.waits = d.trace.waits := by
  unfold Dtu.closeBlock
  dsimp only [Dtu.count]
  rw [Trace.adopt_waits]
  cases ends <;> rfl

@[simp] theorem Dtu.newStream_waits (d : Dtu) : d.newStream.trace.waits = d.trace.waits := rfl

/-- A wait that neither ends the stream nor saves it is over once its block has closed. -/
theorem Dtu.closeNow_waits {d : Dtu} {w : TraceWait} (hw : d.trace.waits = [w]) (h4 : w.cause ≠ 4) (h7 : w.cause ≠ 7)
    (hnone : w.handle = none) : d.closeNow.trace.waits = [] := by
  have hready : d.trace.ready w = true := by simp [Trace.ready, h4]
  have hws : d.trace.readyWaits = [w] := by simp [Trace.readyWaits, hw, hready, sortBy, insertBy]
  have hact : ∀ p : Dtu × Bool, Dtu.actWait p w = p := by
    intro p
    unfold Dtu.actWait
    simp [h4, h7, hnone]
  unfold Dtu.closeNow
  extract_lets t cs ws opened off full d1 d2 d3
  have h1 : d1.trace.waits = [] := by simp [d1, t, hw, hready]
  have h2 : d2.trace.waits = [] := by
    unfold d2
    split
    · rw [Dtu.closeBlock_waits, h1]
    · exact h1
  have h3 : d3.trace.waits = [] := by
    unfold d3
    split
    · exact h2
    · exact h2
  have hlist : ws = [w] := hws
  rw [hlist, List.foldl_cons, List.foldl_nil, hact]
  exact h3

theorem Dtu.settle_of_no_waits {d : Dtu} (n : Nat) (h : d.trace.waits = []) : Dtu.settle n d = d := by
  cases n with
  | zero => rfl
  | succ n =>
    unfold Dtu.settle
    rw [h]
    rfl

theorem Dtu.settle_of_stopped {d : Dtu} (n : Nat) (h : d.trace.stopped = true) : Dtu.settle n d = d := by
  cases n with
  | zero => rfl
  | succ n =>
    unfold Dtu.settle
    rw [h, Bool.or_true]
    rfl

/-- A closure asked for while the compressor goes on, with none before it, is done at once. -/
theorem Dtu.askClose_waits {d : Dtu} (cause : Nat) (h4 : cause ≠ 4) (h7 : cause ≠ 7) (hw : d.trace.waits = [])
    (hs : d.trace.stopped = false) : (d.askClose cause none).trace.waits = [] := by
  unfold Dtu.askClose Dtu.actWaits
  simp only [hw, List.nil_append]
  generalize hx : ({ d with trace := { d.trace with waits := [_] } } : Dtu) = x
  have hxw : x.trace.waits = [{ cause, handle := none, upTo := d.trace.rawWritten }] := by rw [← hx]
  have hxs : x.trace.stopped = false := by
    rw [← hx]
    exact hs
  have hready : x.trace.readyWaits = [{ cause, handle := none, upTo := d.trace.rawWritten }] := by
    have hr : x.trace.ready { cause, handle := none, upTo := d.trace.rawWritten } = true := by simp [Trace.ready, h4]
    simp [Trace.readyWaits, hxw, hr, sortBy, insertBy]
  have hcauses : x.trace.causes x.nowNs ≠ [] := by simp [Trace.causes, hready]
  have hclosed := Dtu.closeNow_waits hxw h4 h7 rfl
  have hstep : ∀ n, Dtu.settle (n + 1) x = Dtu.settle n x.closeNow := by
    intro n
    conv => lhs; unfold Dtu.settle
    simp [hxw, hxs, hready, hcauses]
  rw [hstep, Dtu.settle_of_no_waits _ hclosed, hclosed]

/-- A closure asked for while the compressor stands waits. -/
theorem Dtu.askClose_of_stopped {d : Dtu} (cause : Nat) (handle : Option W) (hs : d.trace.stopped = true) :
    d.askClose cause handle = { d with trace := { d.trace with
      waits := d.trace.waits ++ [{ cause, handle, upTo := d.trace.rawWritten }] } } := Dtu.settle_of_stopped _ hs

/-! ### Entering (R125, R463). -/

/-- Asked for a Lull state, the DTU changes its traces, counts and finished commands, and notes that the closure is asked for. -/
theorem Dtu.askLull_eq (d : Dtu) (l k : Nat) : ∃ trace longs counters lullAsked, d.askLull l k = { d with
    trace, counters, cmds := { d.cmds with longs }, power := { d.power with lullAsked } } := by
  unfold Dtu.askLull
  split
  · exact ⟨_, _, _, _, rfl⟩
  · obtain ⟨r, w, ls, c, o, h, n, e, dc, t, dt, m, hrec⟩ := d.lullRecord_captured l k
    obtain ⟨t', l', n', hask⟩ := (d.lullRecord l k).askClose_acts 5 none
    exact ⟨t', l', n', true, by rw [hask, hrec]⟩

/-- With nothing before it and the compressor going on, nothing waits once the Lull state is asked for. -/
theorem Dtu.askLull_waits {d : Dtu} (l k : Nat) (hgo : d.trace.capturing = false ∨ d.trace.stopped = false)
    (hw : d.trace.waits = []) : (d.askLull l k).trace.waits = [] := by
  unfold Dtu.askLull
  split
  · exact hw
  next hask =>
    have hstop : d.trace.stopped = false := hgo.resolve_left fun h => hask (by rw [h]; simp)
    obtain ⟨r, w, ls, c, o, h, n, e, dc, t, dt, m, hrec⟩ := d.lullRecord_captured l k
    exact Dtu.askClose_waits 5 (by decide) (by decide) (by rw [hrec]; exact hw) (by rw [hrec]; exact hstop)

/-- While the compressor stands, the closure asked for waits. -/
theorem Dtu.askLull_of_stopped {d : Dtu} (l k : Nat) (ha : d.power.lullAsked = false) (hcap : d.trace.capturing = true)
    (hs : d.trace.stopped = true) : ∃ trace counters, d.askLull l k = { d with
      trace, counters, power := { d.power with lullAsked := true } } ∧ ∃ w ∈ trace.waits, w.cause = 5 := by
  obtain ⟨r, w, ls, c, o, h, n, e, dc, t, dt, m, hrec⟩ := d.lullRecord_captured l k
  have hask := Dtu.askClose_of_stopped (d := d.lullRecord l k) 5 none (by rw [hrec]; exact hs)
  unfold Dtu.askLull
  rw [if_neg (by rw [ha, hcap]; decide), hask, hrec]
  exact ⟨_, _, rfl, _, List.mem_append_right _ List.mem_cons_self, rfl⟩

/-- What entering a Lull state leaves and clears. -/
theorem Dtu.enterLull_keeps (d : Dtu) (k : Nat) :
    (d.enterLull k).power.lullReq = d.power.lullReq ∧ (d.enterLull k).power.lull = k ∧ (d.enterLull k).power.lullRdy = true ∧
    (d.enterLull k).power.pgCore = d.power.pgCore ∧ (d.enterLull k).power.pgRet = d.power.pgRet ∧
    (d.enterLull k).power.lullEntries = (if k = 3 then 0 else min 0xFFFF (d.power.lullEntries + 1)) ∧
    (d.enterLull k).host.tag = d.host.tag ∧ (d.enterLull k).host.sealed = d.host.sealed ∧ (d.enterLull k).trigs = d.trigs ∧
    (d.enterLull k).time = (if k = 3 then { d.time with counters := [] } else d.time) := by
  unfold Dtu.enterLull
  extract_lets save d1 _ d2 _ d3
  obtain ⟨t, n, h2⟩ : ∃ trace counters, d2 = { d with trace, counters } := by
    unfold d2
    split <;> exact ⟨_, _, rfl⟩
  have h3 : d3 = { d2 with power := { d2.power with
      lull := k, lullRdy := true, lullEntries := min 0xFFFF (d2.power.lullEntries + 1), lullInFrame := true, traceSaved := save,
      lullAsked := false } } := rfl
  rw [h2] at h3
  clear_value d3
  split
  next hk2 =>
    subst hk2
    obtain ⟨t', n', f, hl⟩ := Dtu.linkReset_eq (({ d3 with
      cells := d3.cells.emptied
      trace := { d3.trace with events := [], taps := [], dueCells := [], dueTaps := [] }
      digests := { d3.digests with openLeaves := [], pendingBlocks := [], records := [] }
      health := { d3.health with waiting := [], throttle := 0 } } : Dtu).count .marginDiscarded d3.health.waiting.length) none
    have hc : d3.clearLull2 = _ := hl
    rw [hc, h3]
    exact ⟨rfl, rfl, rfl, rfl, rfl, rfl, rfl, rfl, rfl, rfl⟩
  next hk2 =>
    split
    next hk3 =>
      subst hk3
      rw [h3]
      exact ⟨rfl, rfl, rfl, rfl, rfl, rfl, rfl, rfl, rfl, rfl⟩
    next hk3 =>
      rw [h3]
      exact ⟨rfl, rfl, rfl, rfl, rfl, rfl, rfl, rfl, rfl, rfl⟩

theorem Dtu.tryLull_of_asked {d : Dtu} (h0 : d.power.lullReq ≠ 0) (hne : d.power.lullReq ≠ d.power.lull)
    (hdrive : d.health.driving = none) (hack : d.health.acked = false) :
    d.tryLull = (let x := d.askLull d.power.lull d.power.lullReq
      if x.trace.waits.any (fun w => w.cause == 5) then x else x.enterLull d.power.lullReq) :=
  if_neg (by simp [h0, hne, hdrive, hack])

/-- With the supplies good a Lull state is left. -/
theorem Dtu.lullExit_of_good {d : Dtu} (h0 : d.power.lull ≠ 0) (hreq : d.power.lullReq = 0) (hgood : d.power.suppliesGood = true) :
    ∃ x, d.lullExit = x ∧ x.power.lull = 0 ∧ x.power.lullRdy = false ∧ x.power.lullLast = max d.power.lullLast d.power.lull ∧
      x.host = d.host ∧ x.time = d.time := by
  refine ⟨_, rfl, ?_⟩
  unfold Dtu.lullExit
  extract_lets k saved clear _ d1 d2 _ d3
  rw [if_neg (by simp [k, h0, hreq, hgood])]
  obtain ⟨t2, n2, h2⟩ : ∃ trace counters, d2 = { d1 with trace, counters } := by
    unfold d2
    split
    · unfold Dtu.resumeTrace
      dsimp only
      split <;> exact ⟨_, _, rfl⟩
    · exact ⟨_, _, rfl⟩
  obtain ⟨c3, h3⟩ : ∃ cells, d3 = { d2 with cells } := by
    unfold d3
    split <;> exact ⟨_, rfl⟩
  obtain ⟨r, w, ls, c, o, h, n, e, dc, t, dt, m, hrec⟩ := d3.lullRecord_captured k 0
  rw [hrec, h3, h2]
  exact ⟨rfl, rfl, rfl, rfl, rfl⟩

/-- Settles O20: a Lull state is entered once its closure is done, and left while the supplies are good. -/
theorem lullStatesAreEnteredAndLeft : Obligations.LullStatesAreEnteredAndLeft := by
  unfold Obligations.LullStatesAreEnteredAndLeft
  refine ⟨fun s x h0 hne hdrive hack hgo hw => ?entered, fun s x h0 hne hcap hstop hasked => ?waits, fun s x hdrive => ?driving,
    fun s h0 hreq hcore hret => ?left, fun s hstay => ?stays⟩
  case entered =>
    have hreq0 : x.req.toNat ≠ 0 := fun h => h0 (BitVec.eq_of_toNat_eq h)
    have hthree : (x.req = 3) = (x.req.toNat = 3) := propext ⟨fun h => by rw [h]; rfl, fun h => BitVec.eq_of_toNat_eq h⟩
    have hrow := Dtu.tryLull_of_asked (d := { s.dtu with power := s.dtu.power.pins x }) hreq0 hne hdrive hack
    obtain ⟨t, l, n, a, hask⟩ := Dtu.askLull_eq { s.dtu with power := s.dtu.power.pins x } s.dtu.power.lull x.req.toNat
    have hwaits := Dtu.askLull_waits (d := { s.dtu with power := s.dtu.power.pins x }) s.dtu.power.lull x.req.toNat hgo hw
    generalize hy : Dtu.askLull { s.dtu with power := s.dtu.power.pins x } s.dtu.power.lull x.req.toNat = y at hask hwaits
    have hrow' : s.dtu.lullRequest x = y.enterLull x.req.toNat := by
      refine hrow.trans ?_
      show (let z := Dtu.askLull { s.dtu with power := s.dtu.power.pins x } s.dtu.power.lull x.req.toNat
        if z.trace.waits.any (fun w => w.cause == 5) then z else z.enterLull x.req.toNat) = _
      rw [hy]
      exact if_neg (by rw [hwaits]; decide)
    have hk := y.enterLull_keeps x.req.toNat
    rw [hask] at hk hrow'
    simp only [hthree]
    exact ⟨_, .of_eq (f := (·.lullRequest x)) rfl hrow', hk⟩
  case waits =>
    have hreq0 : x.req.toNat ≠ 0 := fun h => h0 (BitVec.eq_of_toNat_eq h)
    by_cases hquiet : s.dtu.health.driving = none ∧ s.dtu.health.acked = false
    · obtain ⟨hdrive, hack⟩ := hquiet
      have hrow := Dtu.tryLull_of_asked (d := { s.dtu with power := s.dtu.power.pins x }) hreq0 hne hdrive hack
      obtain ⟨t, n, hask, w, hmem, hcause⟩ := Dtu.askLull_of_stopped (d := { s.dtu with power := s.dtu.power.pins x })
        s.dtu.power.lull x.req.toNat (by simp [DtuPower.pins, hasked]) hcap hstop
      have hmem' : w ∈ (Dtu.askLull { s.dtu with power := s.dtu.power.pins x } s.dtu.power.lull x.req.toNat).trace.waits := by
        rw [hask]
        exact hmem
      refine ⟨_, .of_eq (f := (·.lullRequest x)) rfl (hrow.trans ((if_pos ?_).trans hask)), rfl, rfl, rfl, rfl, rfl,
        fun _ _ => ⟨w, hmem, hcause⟩⟩
      exact List.any_eq_true.2 ⟨w, hmem', beq_iff_eq.2 hcause⟩
    · refine ⟨_, .of_eq (f := (·.lullRequest x)) rfl (if_pos ?_), rfl, rfl, rfl, rfl, rfl, fun hdrive hack => absurd ⟨hdrive, hack⟩ hquiet⟩
      refine .inr (.inr ?_)
      revert hquiet
      show ¬ (s.dtu.health.driving = none ∧ s.dtu.health.acked = false) → s.dtu.health.driving.isSome = true ∨ s.dtu.health.acked = true
      cases s.dtu.health.driving <;> cases s.dtu.health.acked <;> simp
  case driving =>
    refine .of_eq (f := (·.lullRequest x)) rfl (if_pos ?_)
    exact .inr (.inr (.inl hdrive))
  case left =>
    have hgood : s.dtu.power.suppliesGood = true := by
      unfold DtuPower.suppliesGood
      rcases hret with h | h <;> simp [hcore, h]
    obtain ⟨x, hrow, hlull, hrdy, hlast, hhost, htime⟩ := Dtu.lullExit_of_good h0 hreq hgood
    exact ⟨x, .of_eq (f := Dtu.lullExit) rfl hrow, hlull, hrdy, hlast, hhost, htime⟩
  case stays =>
    refine .of_dtu (f := Dtu.lullExit) rfl (if_pos ?_)
    rcases hstay with h | h | ⟨hret, hlull⟩
    · exact .inl h
    · exact .inr (.inr (by simp [DtuPower.suppliesGood, h]))
    · exact .inr (.inr (by simp [DtuPower.suppliesGood, hret, hlull]))

end Sys2Proof.Machine
end

section
/-!
PROOFS. What leaves the uplink of a DTU.
-/
namespace Sys2Proof.Machine

/-! ### A frame put on the uplink (R52, R351). -/

/-- The frame that leaves carries what was queued, sealed under the next sequence number of its class. -/
theorem Dtu.put_wire (d : Dtu) (t : TxFrame) : ∃ f, (d.put t).link.wire = some f ∧ f.cls = BitVec.ofNat 4 t.cls ∧
    f.msg = BitVec.ofNat 8 t.msg ∧ f.dest = t.dest ∧ (t.cls ≠ 6 ∨ t.msg ≠ 2 → f.body = t.body) ∧
    f.lseq = d.link.lseqTx.getD t.cls 0 ∧ f.hcrc = frameHcrc f ∧ f.ethertype = d.txEther t.cls t.msg := by
  by_cases h : t.cls = clsTime ∧ t.msg = 0x02
  · refine ⟨_, rfl, ?_, ?_, ?_, fun hne => hne.elim (absurd h.1) (absurd h.2), ?_, rfl, ?_⟩ <;> simp only [if_pos h] <;> rfl
  · refine ⟨_, rfl, ?_, ?_, ?_, fun _ => ?_, ?_, rfl, ?_⟩ <;> simp only [if_neg h] <;> rfl

theorem Dtu.expireContribs_eq (d : Dtu) : ∃ cells counters, d.expireContribs = { d with cells, counters } := ⟨_, _, rfl⟩

theorem Dtu.feedReplay_eq (d : Dtu) : ∃ cells cmds counters, d.feedReplay = { d with cells, cmds, counters } := by
  unfold Dtu.feedReplay
  split
  · exact ⟨_, _, _, rfl⟩
  · split
    · exact ⟨_, _, _, rfl⟩
    · split <;> exact ⟨_, _, _, rfl⟩

/-- What is done around a frame sent: expiry and replays change cells, commands and counts alone. -/
theorem Dtu.transmitNext_eq {d : Dtu} {t : TxFrame} {link : DtuLink}
    (h : ∀ cells cmds counters, Dtu.transmit { d with cells, cmds, counters } =
      Dtu.put { d with cells, cmds, counters, link } t) :
    ∃ cells cmds counters, d.transmitNext = { d with cells, cmds, counters, link := (Dtu.put { d with link } t).link } := by
  obtain ⟨c1, n1, h1⟩ := d.expireContribs_eq
  obtain ⟨c2, m2, n2, h2⟩ := d.expireContribs.feedReplay_eq
  obtain ⟨c3, m3, n3, h3⟩ := (d.expireContribs.feedReplay.transmit).feedReplay_eq
  refine ⟨c3, m3, n3, ?_⟩
  rw [Dtu.transmitNext, h3, h2, h1]
  dsimp only
  rw [h]
  rfl

/-- The head of VC 3 leaves when it may. -/
theorem Dtu.transmit_vc3 {d : Dtu} {t : TxFrame} {r : List TxFrame} (hq : d.link.vc3 = t :: r) (hc : d.canSend t.cls t.msg t.plen = true) :
    d.transmit = Dtu.put { d with link := { d.link with vc3 := r } } t := by
  unfold Dtu.transmit
  simp only [hq, hc, if_true, List.drop_one, List.tail_cons, List.headD_cons]

/-- With VC 3 empty the head of VC 0 leaves when it may. -/
theorem Dtu.transmit_vc0 {d : Dtu} {t : TxFrame} {r : List TxFrame} (h3 : d.link.vc3 = []) (hq : d.link.vc0 = t :: r)
    (hc : d.canSend t.cls t.msg t.plen = true) : d.transmit = Dtu.put { d with link := { d.link with vc0 := r } } t := by
  unfold Dtu.transmit
  simp only [h3, hq, hc, Bool.false_eq_true, if_false, if_true, List.drop_one, List.tail_cons, List.headD_cons]

/-! ### Records (R63, R64, R131). -/

/-- Settles O24: a record or a queued frame leaves through `Dtu.put`; DTU_UL_RATE is one word of the command space. -/
theorem recordsLeaveInOrder : Obligations.RecordsLeaveInOrder := by
  unfold Obligations.RecordsLeaveInOrder
  refine ⟨⟨fun s m own hold hrep hsend => ?fault, fun s hrecs hold hvc2 hrep hsend => ?digest, fun s hadm => ⟨?noFault, ?noDigest⟩,
    fun s hother => ?after⟩, fun s w hst => ?rate, fun s w hst => ?noRate, fun s p t r hq hsend => ?vc3, fun s p t r h3 hq hsend => ?vc0⟩
  case fault =>
    have hrow : s.dtu.faultRecordSend = Dtu.put { s.dtu with faults := if own then { s.dtu.faults with own := s.dtu.faults.own.drop 1 }
        else { s.dtu.faults with port := s.dtu.faults.port.drop 1 } } (s.dtu.toAgg clsBulk 0x04 (s.dtu.faultRecordOf m) 32) := by
      unfold Dtu.faultRecordSend
      simp only [hold, hrep]
      rw [if_pos (by rw [Bool.true_and]; exact hsend)]
      rfl
    obtain ⟨f, hwire, hcls, hmsg, hdest, hbody, -⟩ := Dtu.put_wire { s.dtu with
      faults := if own then { s.dtu.faults with own := s.dtu.faults.own.drop 1 }
        else { s.dtu.faults with port := s.dtu.faults.port.drop 1 } } (s.dtu.toAgg clsBulk 0x04 (s.dtu.faultRecordOf m) 32)
    exact ⟨_, f, .of_eq (f := Dtu.faultRecordSend) rfl hrow, hwire, hcls, hmsg, hdest, hbody (.inl (show (5 : Nat) ≠ 6 by decide)), rfl, rfl, rfl⟩
  case digest =>
    have hrow : s.dtu.digestPacketSend = Dtu.put { s.dtu with digests := { s.dtu.digests with records := s.dtu.digests.records.drop 16 } }
        (s.dtu.toAgg clsBulk 0x02 (s.dtu.digests.records.take 16).flatten (32 * (s.dtu.digests.records.take 16).length)) := by
      have hne : (s.dtu.digests.records.take 16 != []) = true := by
        rw [bne_iff_ne, ne_eq, List.take_eq_nil_iff]
        simp [hrecs]
      have hcond : (s.dtu.digests.records.take 16 != [] && s.dtu.oldestFault.isNone && s.dtu.link.vc2.isEmpty &&
          s.dtu.mayReport && s.dtu.canSend clsBulk 0x02 (32 * (s.dtu.digests.records.take 16).length)) = true := by
        rw [hne, hold, hvc2, hrep, show clsBulk = 5 from rfl, hsend]
        rfl
      exact if_pos hcond
    obtain ⟨f, hwire, hcls, hmsg, -, hbody, -⟩ := Dtu.put_wire { s.dtu with
        digests := { s.dtu.digests with records := s.dtu.digests.records.drop 16 } }
      (s.dtu.toAgg clsBulk 0x02 (s.dtu.digests.records.take 16).flatten (32 * (s.dtu.digests.records.take 16).length))
    exact ⟨_, f, .of_eq (f := Dtu.digestPacketSend) rfl hrow, hwire, hcls, hmsg, hbody (.inl (show (5 : Nat) ≠ 6 by decide)), rfl, rfl, rfl⟩
  case noFault =>
    refine .of_dtu (f := Dtu.faultRecordSend) rfl ?_
    unfold Dtu.faultRecordSend
    split
    · rfl
    · exact if_neg (by simp [Dtu.mayReport, hadm])
  case noDigest => exact .of_dtu (f := Dtu.digestPacketSend) rfl (if_neg (by simp [Dtu.mayReport, hadm]))
  case after =>
    refine .of_dtu (f := Dtu.digestPacketSend) rfl (if_neg ?_)
    rcases hother with hold | hvc2
    · rw [Option.isSome_iff_ne_none] at hold
      simp [hold]
    · simp [hvc2]
  case rate =>
    have hrow : s.dtu.cmdWrite 0x20A00 w = if ulRateStatus w = stOk then
        ({ s.dtu with link := { s.dtu.link with ulRate := w } }, stOk) else (s.dtu, ulRateStatus w) := rfl
    rw [if_pos hst] at hrow
    exact .of_eq (f := (·.ulRateWrite w)) rfl (by rw [Dtu.ulRateWrite, hrow]; rfl)
  case noRate =>
    have hrow : s.dtu.cmdWrite 0x20A00 w = if ulRateStatus w = stOk then
        ({ s.dtu with link := { s.dtu.link with ulRate := w } }, stOk) else (s.dtu, ulRateStatus w) := rfl
    rw [if_neg hst] at hrow
    exact .of_eq (f := (·.ulRateWrite w)) rfl (by rw [Dtu.ulRateWrite, hrow]; rfl)
  case vc3 =>
    obtain ⟨c, m, n, hrow⟩ := Dtu.transmitNext_eq (d := s.dtu) (t := t) (link := { s.dtu.link with vc3 := r })
      fun c m n => Dtu.transmit_vc3 (d := { s.dtu with cells := c, cmds := m, counters := n }) hq hsend
    obtain ⟨f, hwire, -, -, hdest, hbody, -⟩ := Dtu.put_wire { s.dtu with link := { s.dtu.link with vc3 := r } } t
    exact ⟨_, f, .of_eq (f := Dtu.transmitNext) rfl hrow, hwire, hbody, hdest, rfl, rfl, rfl, rfl⟩
  case vc0 =>
    obtain ⟨c, m, n, hrow⟩ := Dtu.transmitNext_eq (d := s.dtu) (t := t) (link := { s.dtu.link with vc0 := r })
      fun c m n => Dtu.transmit_vc0 (d := { s.dtu with cells := c, cmds := m, counters := n }) h3 hq hsend
    obtain ⟨f, hwire, -, -, hdest, hbody, hlseq, hcrc, -⟩ := Dtu.put_wire { s.dtu with link := { s.dtu.link with vc0 := r } } t
    exact ⟨_, f, .of_eq (f := Dtu.transmitNext) rfl hrow, hwire, hbody, hdest, hlseq, hcrc, rfl, rfl, rfl⟩

end Sys2Proof.Machine
end

section
/-!
PROOFS. The trace buffer of a DTU: capture, the compressor, and the blocks it closes.
-/
namespace Sys2Proof.Machine

/-! ### The compressor (R118, R123). -/

theorem Trace.adopt_eq (t : Trace) : ∃ force, t.adopt = { t with force } := by
  unfold Trace.adopt
  split
  · exact ⟨_, rfl⟩
  · exact ⟨_, rfl⟩

/-- Records are moved from the ring to the open block in their order; none is lost and nothing else of the stream moves. -/
theorem Trace.consume_eq (now n : Nat) (t : Trace) : ∃ force raw rawRead openRecs openPart openFirst starved,
    Trace.consume now n t = { t with force, raw, rawRead, openRecs, openPart, openFirst, starved } ∧
    openRecs ++ raw.map RawRec.words = t.openRecs ++ t.raw.map RawRec.words := by
  induction n generalizing t with
  | zero => exact ⟨_, _, _, _, _, _, _, rfl, rfl⟩
  | succ n ih =>
    obtain ⟨force, hadopt⟩ := t.adopt_eq
    unfold Trace.consume
    split
    · exact ⟨_, _, _, _, _, _, _, rfl, rfl⟩
    next r rest hraw =>
      split
      · exact ⟨_, _, _, _, _, _, _, rfl, rfl⟩
      · rw [hadopt]
        dsimp only
        split
        · exact ⟨_, _, _, _, _, _, _, rfl, rfl⟩
        · obtain ⟨f, w, k, o, p, a, v, hrec, hseq⟩ := ih { t with
            force, raw := rest, rawRead := t.rawRead + 1, openRecs := t.openRecs ++ [r.words], openPart := 0,
            openFirst := if t.openRecs = [] then r.ns else t.openFirst }
          refine ⟨f, w, k, o, p, a, v, hrec, hseq.trans ?_⟩
          rw [hraw]
          simp

theorem Dtu.compress_eq (d : Dtu) : ∃ force raw rawRead openRecs openPart openFirst starved,
    d.compress = { d with trace := { d.trace with force, raw, rawRead, openRecs, openPart, openFirst, starved } } ∧
    openRecs ++ raw.map RawRec.words = d.trace.openRecs ++ d.trace.raw.map RawRec.words := by
  obtain ⟨f, w, k, o, p, a, v, hrec, hseq⟩ := d.trace.consume_eq d.nowNs (d.trace.raw.length + 1)
  exact ⟨f, w, k, o, p, a, v, congrArg (fun t => { d with trace := t }) hrec, hseq⟩

theorem Dtu.compress_of_empty {d : Dtu} (h : d.trace.raw = []) : d.compress = d := by
  unfold Dtu.compress
  rw [h]
  simp [Trace.consume, h]

/-! ### Blocks that leave (R115, R123, R126). -/

theorem Dtu.blockCrossed_eq (d : Dtu) : ∃ counters, d.blockCrossed = { d with
    counters, trace := { d.trace with sending := none } } := by
  unfold Dtu.blockCrossed
  split
  next h => exact ⟨d.counters, by rw [← h]⟩
  next h => exact ⟨_, rfl⟩

/-- Settles O27: the compressor moves records in order, and a block leaves through `Dtu.put`. -/
theorem compressorStopsAndResumes : Obligations.CompressorStopsAndResumes := by
  unfold Obligations.CompressorStopsAndResumes
  refine ⟨fun s hst hfs => ?stop, fun s hst => ?noStop, fun s hfs hfree hw => ?resume, fun s hfree => ?noResume,
    fun s b r hb hrep hsend => ?send, fun s b hsending hb => ?crossed⟩
  case stop => exact .of_eq (f := Dtu.compressorFullStop) rfl (if_pos (by rw [hst, hfs]; rfl))
  case noStop => exact .of_dtu (f := Dtu.compressorFullStop) rfl (if_neg (by rw [hst]; exact Bool.false_ne_true))
  case resume =>
    have hrow : s.dtu.compressorResume = (Dtu.compress { s.dtu with
        trace := { s.dtu.trace with fullStop := false, starved := false }
        counters := bump s.dtu.counters .fullStopNs (s.dtu.nowNs - s.dtu.trace.stopAt) }).actWaits :=
      if_pos (by rw [hfs, Bool.true_and, decide_eq_true_eq]; exact hfree)
    obtain ⟨f, w, k, o, p, a, v, hcomp, hseq⟩ := Dtu.compress_eq { s.dtu with
      trace := { s.dtu.trace with fullStop := false, starved := false }
      counters := bump s.dtu.counters .fullStopNs (s.dtu.nowNs - s.dtu.trace.stopAt) }
    rw [hcomp] at hrow
    exact ⟨_, .of_eq (f := Dtu.compressorResume) rfl (hrow.trans (Dtu.settle_of_no_waits _ hw)), rfl, hseq, rfl, rfl, rfl⟩
  case noResume =>
    refine .of_dtu (f := Dtu.compressorResume) rfl (if_neg ?_)
    rw [Bool.and_eq_true, decide_eq_true_eq]
    exact fun h => absurd h.2 (Nat.not_le.2 hfree)
  case send =>
    obtain ⟨n, hcross⟩ := s.dtu.blockCrossed_eq
    have hrow : s.dtu.traceBlockSend = Dtu.put { s.dtu with
        counters := n, trace := { s.dtu.trace with blocks := r, sending := some b } } (s.dtu.traceFrame b) := by
      have hcan : (s.dtu.mayReport && s.dtu.canSend 5 0x01 (32 + b.payload.length)) = true := by rw [hrep, hsend]; rfl
      unfold Dtu.traceBlockSend
      rw [hcross]
      simp only [hb]
      exact if_pos hcan
    obtain ⟨f, hwire, hcls, hmsg, -, hbody, -⟩ := Dtu.put_wire { s.dtu with
        counters := n, trace := { s.dtu.trace with blocks := r, sending := some b } } (s.dtu.traceFrame b)
    exact ⟨_, f, .of_eq (f := Dtu.traceBlockSend) rfl hrow, rfl, rfl, hwire, hcls, hmsg,
      hbody (.inl (show (5 : Nat) ≠ 6 by decide)), rfl, rfl, rfl, rfl⟩
  case crossed =>
    refine .of_eq (f := Dtu.traceBlockSend) rfl ?_
    unfold Dtu.traceBlockSend Dtu.blockCrossed
    simp only [hsending, Dtu.count, hb]

/-! ### Records captured (R111, R112, R116). -/

/-- An offer of a class that is admitted, with no LOSS record due, is written into the ring. -/
theorem Dtu.capture_taken {d : Dtu} {k lossKind n : Nat} (o : TraceOffer) (hn : n ≠ 0) (hadm : d.trace.admits k = true)
    (hloss : d.trace.lossDue = false) : Dtu.capture k lossKind o (d, n) =
      (({ d with trace := d.trace.write (d.captureNs o) o.rtype o.aux o.payload }, n - 1), .taken) := by
  unfold Dtu.capture
  simp only [hn, hadm, hloss, if_false, Bool.not_true, Bool.not_false, Bool.false_eq_true, if_true]

/-- An offer of a class that is not admitted is refused and counted. -/
theorem Dtu.capture_refused {d : Dtu} {k lossKind n : Nat} (o : TraceOffer) (hn : n ≠ 0) (hadm : d.trace.admits k = false) :
    Dtu.capture k lossKind o (d, n) = ((d.refuseRec k lossKind, n), .refused) := by
  unfold Dtu.capture
  simp only [hn, hadm, if_false, Bool.not_false, if_true]

/-- With no record of class 0 waiting and none due of a cell or tap, capture sees to the host's record alone. -/
theorem Dtu.traceCapture_eq {d e : Dtu} {n : Nat} (hcap : d.trace.capturing = true) (hruns : d.runs = true)
    (hfrozen : d.trace.frozen = false) (h0 : d.trace.class0 = []) (hhost : Dtu.captureHost (d, 4) = (e, n))
    (hcells : e.trace.dueCells = []) (htaps : e.trace.dueTaps = []) : d.traceCapture = e.compress := by
  unfold Dtu.traceCapture
  rw [hruns, hcap, hfrozen, h0]
  simp only [Dtu.captureClass0, hhost, hcells, htaps, Dtu.captureEvents, Dtu.captureTaps, Bool.not_true, Bool.not_false,
    Bool.false_eq_true, Bool.and_self, if_false, if_true]

/-! ### Closures (R120). -/

/-- The block closed last in the queue is the open one. -/
theorem Dtu.closeBlock_blocks (d : Dtu) (cause : Nat) (ends : Bool) : ∃ b, (d.closeBlock cause ends).trace.blocks =
      d.trace.blocks ++ [b] ∧ b.cause = cause ∧ b.records = d.trace.openRecs.length ∧ b.stream = d.trace.stream ∧
    b.seq = d.trace.seq ∧ b.carry = d.trace.carry ∧ b.firstNs = (if d.trace.openRecs = [] then 0 else d.trace.openFirst) ∧
    b.dataCrc = crc32c (recBytes d.trace.openRecs) := by
  unfold Dtu.closeBlock
  extract_lets t data payload b cut hist t1 t2
  refine ⟨b, ?_, rfl, rfl, rfl, rfl, rfl, rfl, rfl⟩
  obtain ⟨f, h⟩ := t2.adopt_eq
  have h2 : t2.blocks = t.blocks ++ [b] := by
    unfold t2
    split
    · rfl
    · rfl
  rw [Dtu.count, h]
  exact h2

theorem head?_filter_eq_foldl_min : ∀ a b c d : Bool,
    (([(0, a), (1, b), (2, c), (8, d)].filter Prod.snd).map Prod.fst).head? =
      if (([(0, a), (1, b), (2, c), (8, d)].filter Prod.snd).map Prod.fst) = [] then none
      else some ((([(0, a), (1, b), (2, c), (8, d)].filter Prod.snd).map Prod.fst).foldl min 8) := by decide

/-- The first cause of its own that closes a block is the lowest, and the block then holds a record. -/
theorem Trace.ownCauses_head {t : Trace} {now c : Nat} (h : (t.ownCauses now).head? = some c) :
    t.openRecs ≠ [] ∧ t.ownCauses now ≠ [] ∧ (t.ownCauses now).foldl min 8 = c := by
  have hopen : t.openRecs ≠ [] := fun hnil => by simp [Trace.ownCauses, hnil] at h
  have hne : t.ownCauses now ≠ [] := fun hnil => by simp [hnil] at h
  refine ⟨hopen, hne, ?_⟩
  rw [Trace.ownCauses, if_neg hopen] at h hne ⊢
  rw [head?_filter_eq_foldl_min, if_neg hne] at h
  exact Option.some.inj h

/-- With nothing waiting for a closure, the open block closes for its own lowest cause. -/
theorem Dtu.closeNow_own {d : Dtu} {c : Nat} (hw : d.trace.waits = []) (hc : d.ownCause = some c) :
    ∃ ends, d.closeNow = d.closeBlock c ends ∨ d.closeNow = (d.closeBlock c ends).newStream := by
  obtain ⟨hopen, hne, hmin⟩ := Trace.ownCauses_head hc
  have hready : d.trace.readyWaits = [] := by rw [Trace.readyWaits, hw]; rfl
  have hcauses : d.trace.causes d.nowNs = d.trace.ownCauses d.nowNs := by rw [Trace.causes, hready]; exact List.append_nil _
  unfold Dtu.closeNow
  extract_lets t cs ws opened off full d1 d2 d3
  have hcs : cs = d.trace.ownCauses d.nowNs := hcauses
  have hws : ws = [] := hready
  have h1 : d1 = d := by unfold d1 t; rw [hw]; exact congrArg (fun w => { d with trace := { d.trace with waits := w } }) hw.symm
  have hopened : opened = true := bne_iff_ne.2 hopen
  have h2 : d2 = d.closeBlock c (off || full) := by
    unfold d2
    rw [h1, hcs, hmin, hopened]
    exact if_pos (by rw [Bool.true_and]; exact bne_iff_ne.2 hne)
  refine ⟨off || full, ?_⟩
  rw [hws, List.foldl_nil, ← h2]
  dsimp only
  unfold d3
  split
  · exact .inr rfl
  · exact .inl rfl

/-! ### Capture stopped (R122). -/

/-- Capture is off: the traces are not enabled and hold no record that was offered. -/
def Trace.Off (t : Trace) : Prop := t.enabled = false ∧ t.capturing = false ∧ t.class0 = [] ∧ t.host = none

theorem Trace.setEnable_enabled (t : Trace) (on : Bool) : (t.setEnable on).enabled = on := by
  unfold Trace.setEnable Trace.enabled
  rw [regGet_regSet_same]
  unfold bit
  rw [fld_setFld_same _ _ _ _ (by decide) (by decide)]
  cases on <;> rfl

theorem Trace.Off.adopt {t : Trace} (h : t.Off) : t.adopt.Off := by
  obtain ⟨f, ht⟩ := t.adopt_eq
  rw [ht]
  exact h

theorem Dtu.closeBlock_off {d : Dtu} (h : d.trace.Off) (cause : Nat) (ends : Bool) : (d.closeBlock cause ends).trace.Off := by
  unfold Dtu.closeBlock
  exact Trace.Off.adopt (by cases ends <;> exact h)

theorem Dtu.endStream_off {d : Dtu} (h : d.trace.Off) (w : TraceWait) : (d.endStream w).trace.Off := by
  unfold Dtu.endStream
  dsimp only
  split
  · exact h
  · split
    · exact h
    · exact d.closeBlock_off h 4 true

theorem Dtu.actWait_off {p : Dtu × Bool} (h : p.1.trace.Off) (w : TraceWait) : (Dtu.actWait p w).1.trace.Off := by
  obtain ⟨d, ended⟩ := p
  unfold Dtu.actWait
  dsimp only
  generalize hq : (if w.cause = 4 then _ else _ : Dtu × Bool) = p
  have hp : p.1.trace.Off := by
    rw [← hq]
    split
    · dsimp only
      split
      · exact h
      · exact d.endStream_off h w
    · split
      · exact ⟨Trace.setEnable_enabled _ false, rfl, h.2.2⟩
      · exact h
  split
  · exact hp
  · exact hp

theorem Dtu.closeNow_off {d : Dtu} (h : d.trace.Off) : d.closeNow.trace.Off := by
  unfold Dtu.closeNow
  extract_lets t cs ws opened off full d1 d2 d3
  have h2 : d2.trace.Off := by
    unfold d2
    split
    · exact d1.closeBlock_off h _ _
    · exact h
  have h3 : d3.trace.Off := by
    unfold d3
    split
    · exact h2
    · exact h2
  exact List.foldlRecOn (motive := fun q : Dtu × Bool => q.1.trace.Off) ws _ h3 fun q hq w _ => Dtu.actWait_off hq w

theorem Dtu.compress_off {d : Dtu} (h : d.trace.Off) : d.compress.trace.Off := by
  obtain ⟨f, w, k, o, p, a, v, hrec, -⟩ := d.compress_eq
  rw [hrec]
  exact h

theorem Dtu.settle_off (n : Nat) {d : Dtu} (h : d.trace.Off) : (Dtu.settle n d).trace.Off := by
  induction n generalizing d with
  | zero => exact h
  | succ n ih =>
    unfold Dtu.settle
    split
    · exact h
    · extract_lets d1
      have h1 : d1.trace.Off := by
        unfold d1
        split
        · exact Dtu.compress_off h
        · exact h
      split
      · exact h1
      · exact ih (Dtu.closeNow_off h1)

theorem Dtu.askClose_off {d : Dtu} (h : d.trace.Off) (cause : Nat) (handle : Option W) : (d.askClose cause handle).trace.Off :=
  Dtu.settle_off _ h

/-- Written 0, enable stops capture. -/
theorem Dtu.traceOff_off (d : Dtu) : d.traceOff.trace.Off :=
  Dtu.askClose_off (d := { d with trace := { d.trace.setEnable false with
    capturing := false, class0 := [], host := none, dueCells := [], dueTaps := [] } })
    ⟨d.trace.setEnable_enabled false, rfl, rfl, rfl⟩ 4 none

theorem Dtu.traceOff_acts (d : Dtu) : d.TraceActs d.traceOff := (d.withTrace_acts _).trans (Dtu.askClose_acts _ 4 none)

/-! ### Capture started (R122, R124). -/

/-- A word that the trace configuration takes is written. -/
theorem Dtu.cmdWrite_trc {d : Dtu} {w : W} (h : d.trcCfgStatus w = stOk) :
    d.cmdWrite 0x20000 w = (d.trcWrite 0x20000 w, stOk) := by
  have hcmd : d.cmdWrite 0x20000 w = if d.trcCfgStatus w = stOk then (d.trcWrite 0x20000 w, stOk) else (d, d.trcCfgStatus w) := rfl
  rw [hcmd, if_pos h]

theorem Dtu.traceEnable_eq {d : Dtu} (on : Bool)
    (h : d.trcCfgStatus (setFld (regGet trcReset d.trace.cfg 0x20000) 31 31 (b2n on)) = stOk) :
    d.traceEnable on = (d.trcWrite 0x20000 (setFld (regGet trcReset d.trace.cfg 0x20000) 31 31 (b2n on))).earn stOk := by
  unfold Dtu.traceEnable
  dsimp only
  rw [Dtu.cmdWrite_trc h]

theorem Trace.setEnable_adopt (t : Trace) (on : Bool) : ∃ cfg force, bit (regGet trcReset cfg 0x20000) 31 = on ∧
    (t.setEnable on).adopt = { t with cfg, force } := by
  obtain ⟨f, h⟩ := (t.setEnable on).adopt_eq
  exact ⟨_, f, t.setEnable_enabled on, h⟩

/-- A word with enable set, written while capture is off, switches the traces on. -/
theorem Dtu.trcWrite_on {d : Dtu} {w : W} (hoff : d.trace.enabled = false) (hw : bit w 31 = true) :
    ∃ cfg force, d.trcWrite 0x20000 w = Dtu.traceOn { d with trace := { d.trace with cfg, force } } := by
  obtain ⟨f, h⟩ := Trace.adopt_eq { d.trace with cfg := regSet trcReset d.trace.cfg 0x20000 (setFld w 31 31 (b2n false)) }
  refine ⟨regSet trcReset d.trace.cfg 0x20000 (setFld w 31 31 (b2n false)), f, ?_⟩
  unfold Dtu.trcWrite
  simp only [hw, hoff, if_true, Bool.not_false, Bool.and_self]
  rw [h]

/-- A word with enable clear, written while capture is on, switches the traces off. -/
theorem Dtu.trcWrite_off {d : Dtu} {w : W} (hon : d.trace.enabled = true) (hw : bit w 31 = false) :
    ∃ cfg force, d.trcWrite 0x20000 w = Dtu.traceOff { d with trace := { d.trace with cfg, force } } := by
  obtain ⟨f, h⟩ := Trace.adopt_eq { d.trace with cfg := regSet trcReset d.trace.cfg 0x20000 (setFld w 31 31 (b2n true)) }
  refine ⟨regSet trcReset d.trace.cfg 0x20000 (setFld w 31 31 (b2n true)), f, ?_⟩
  unfold Dtu.trcWrite
  simp only [hw, hon, if_true, Bool.not_false, Bool.not_true, Bool.false_and, Bool.true_and, Bool.false_eq_true, if_false]
  rw [h]

/-- Switched on, the traces go on with a restored stream, leave one that is ending, or begin the next. -/
theorem Dtu.traceOn_eq (d : Dtu) : ∃ cfg force, bit (regGet trcReset cfg 0x20000) 31 = true ∧
    d.traceOn = if d.trace.restored then
        { d with trace := { d.trace with cfg, force, capturing := true, restored := false } }
      else Dtu.newStream { d with trace :=
        if d.trace.ending then { d.trace with cfg, force, capturing := true }
        else if d.trace.image.valid || d.trace.seq != 0 then Trace.nextStream { d.trace with cfg, force, capturing := true }
        else { d.trace with cfg, force, capturing := true, fresh := true, history := [] } } := by
  obtain ⟨cfg, force, hbit, h⟩ := d.trace.setEnable_adopt true
  refine ⟨cfg, force, hbit, ?_⟩
  unfold Dtu.traceOn
  rw [h]
  rfl

/-- Written 1, enable switches the traces on. -/
theorem Dtu.traceEnable_on {d : Dtu} (hoff : d.trace.enabled = false)
    (hst : d.trcCfgStatus (setFld (regGet trcReset d.trace.cfg 0x20000) 31 31 1) = stOk) :
    ∃ cfg force, d.traceEnable true = Dtu.earn (Dtu.traceOn { d with trace := { d.trace with cfg, force } }) stOk := by
  obtain ⟨cfg, force, h⟩ := Dtu.trcWrite_on hoff (bit_setFld_same (regGet trcReset d.trace.cfg 0x20000) 31 (by decide))
  exact ⟨cfg, force, (Dtu.traceEnable_eq true hst).trans (congrArg (Dtu.earn · stOk) h)⟩

/-- Written 0, enable switches the traces off. -/
theorem Dtu.traceEnable_off {d : Dtu} (hon : d.trace.enabled = true)
    (hst : d.trcCfgStatus (setFld (regGet trcReset d.trace.cfg 0x20000) 31 31 0) = stOk) :
    ∃ cfg force, d.traceEnable false = Dtu.earn (Dtu.traceOff { d with trace := { d.trace with cfg, force } }) stOk := by
  have hbit : bit (setFld (regGet trcReset d.trace.cfg 0x20000) 31 31 0) 31 = false := by
    unfold bit
    rw [fld_setFld_same _ _ _ _ (by decide) (by decide)]
    rfl
  obtain ⟨cfg, force, h⟩ := Dtu.trcWrite_off hon hbit
  exact ⟨cfg, force, (Dtu.traceEnable_eq false hst).trans (congrArg (Dtu.earn · stOk) h)⟩

/-- Settles O26: enable goes through `Dtu.traceOn` and `Dtu.traceOff`, capture through `Dtu.capture` and `Dtu.compress`, and
the closing through `Dtu.closeBlock`. -/
theorem traceRecordsAreCapturedAndClosed : Obligations.TraceRecordsAreCapturedAndClosed := by
  unfold Obligations.TraceRecordsAreCapturedAndClosed
  refine ⟨⟨fun s hoff hst hres hend => ?start, fun s hoff hst hres hend => ?ending, fun s hoff hst hres => ?restored,
    fun s hon hst => ?disable⟩, fun s o hcap hruns hfrozen h0 hhost hcells htaps hloss hroom hfloor => ?taken,
    fun s o hcap hruns hfrozen h0 hhost hcells htaps hadm => ?refused, fun s c hruns hstarved hfull hc hw => ?closed,
    fun s hcap hraw => ?nothing⟩
  case start =>
    obtain ⟨c0, f0, hrow⟩ := Dtu.traceEnable_on hoff hst
    obtain ⟨cfg, force, hbit, hon⟩ := Dtu.traceOn_eq { s.dtu with trace := { s.dtu.trace with cfg := c0, force := f0 } }
    rw [if_neg (by rw [hres]; exact Bool.false_ne_true)] at hon
    have hne : ¬ Trace.ending { s.dtu.trace with cfg := c0, force := f0 } = true := by
      change ¬ s.dtu.trace.ending = true
      rw [hend]
      exact Bool.false_ne_true
    dsimp only at hon
    rw [if_neg hne] at hon
    rw [hon] at hrow
    refine ⟨_, .of_eq (f := (·.traceEnable true)) rfl hrow, ?_⟩
    by_cases hq : (s.dtu.trace.image.valid || s.dtu.trace.seq != 0) = true
    · rw [if_pos hq, if_pos hq]
      exact ⟨hbit, rfl, rfl, rfl, rfl, rfl, rfl, rfl, rfl, rfl, rfl, rfl, rfl⟩
    · have hseq : s.dtu.trace.seq = 0 := by
        exact Decidable.byContradiction fun hne => hq (by rw [bne_iff_ne.2 hne, Bool.or_true])
      rw [if_neg hq, if_neg hq]
      exact ⟨hbit, rfl, hseq, rfl, rfl, rfl, rfl, rfl, rfl, rfl, rfl, rfl, rfl⟩
  case ending =>
    obtain ⟨c0, f0, hrow⟩ := Dtu.traceEnable_on hoff hst
    obtain ⟨cfg, force, hbit, hon⟩ := Dtu.traceOn_eq { s.dtu with trace := { s.dtu.trace with cfg := c0, force := f0 } }
    rw [if_neg (by rw [hres]; exact Bool.false_ne_true)] at hon
    have hend' : Trace.ending { s.dtu.trace with cfg := c0, force := f0 } = true := hend
    dsimp only at hon
    rw [if_pos hend'] at hon
    rw [hon] at hrow
    exact ⟨_, .of_eq (f := (·.traceEnable true)) rfl hrow, hbit, rfl, rfl, rfl, rfl, rfl, rfl, rfl, rfl⟩
  case restored =>
    obtain ⟨c0, f0, hrow⟩ := Dtu.traceEnable_on hoff hst
    obtain ⟨cfg, force, hbit, hon⟩ := Dtu.traceOn_eq { s.dtu with trace := { s.dtu.trace with cfg := c0, force := f0 } }
    rw [if_pos hres] at hon
    rw [hon] at hrow
    exact ⟨_, .of_eq (f := (·.traceEnable true)) rfl hrow, hbit, rfl, rfl, rfl, rfl, rfl, rfl⟩
  case disable =>
    obtain ⟨c0, f0, hrow⟩ := Dtu.traceEnable_off hon hst
    obtain ⟨hena, hcap, h0, hhost⟩ := Dtu.traceOff_off { s.dtu with trace := { s.dtu.trace with cfg := c0, force := f0 } }
    obtain ⟨t, l, n, hoff⟩ := Dtu.traceOff_acts { s.dtu with trace := { s.dtu.trace with cfg := c0, force := f0 } }
    rw [hoff] at hrow hena hcap h0 hhost
    exact ⟨_, .of_eq (f := (·.traceEnable false)) rfl hrow, hena, hcap, h0, hhost, rfl, rfl, rfl⟩
  case taken =>
    have hadm : s.dtu.trace.admits 1 = true := by
      rw [Trace.admits, hroom, Bool.true_and, decide_eq_true_eq]
      exact hfloor
    have hcapture : Dtu.captureHost (s.dtu, 4) = ({ s.dtu with trace := { s.dtu.trace.write (s.dtu.captureNs o) o.rtype o.aux
        o.payload with host := none } }, 3) := by
      unfold Dtu.captureHost
      simp only [hhost, Dtu.capture_taken o (by decide : (4 : Nat) ≠ 0) hadm hloss]
    obtain ⟨f, w, k, p, q, a, v, hcomp, hseq⟩ := Dtu.compress_eq { s.dtu with
      trace := { s.dtu.trace.write (s.dtu.captureNs o) o.rtype o.aux o.payload with host := none } }
    have hrow := (Dtu.traceCapture_eq hcap hruns hfrozen h0 hcapture hcells htaps).trans hcomp
    refine ⟨_, .of_eq (f := Dtu.traceCapture) rfl hrow, rfl, rfl, hseq.trans ?_, rfl, rfl, rfl⟩
    simp [Trace.write, Dtu.captureNs]
  case refused =>
    have hcapture : Dtu.captureHost (s.dtu, 4) = ({ s.dtu.refuseRec 1 2 with trace := { (s.dtu.refuseRec 1 2).trace with
        host := none, hostRefused := min 0xFFFF ((s.dtu.refuseRec 1 2).trace.hostRefused + 1) } }, 4) := by
      unfold Dtu.captureHost
      simp only [hhost, Dtu.capture_refused o (by decide : (4 : Nat) ≠ 0) hadm]
    obtain ⟨f, w, k, p, q, a, v, hcomp, hseq⟩ := Dtu.compress_eq { s.dtu.refuseRec 1 2 with
      trace := { (s.dtu.refuseRec 1 2).trace with
        host := none, hostRefused := min 0xFFFF ((s.dtu.refuseRec 1 2).trace.hostRefused + 1) } }
    have hrow := (Dtu.traceCapture_eq hcap hruns hfrozen h0 hcapture hcells htaps).trans hcomp
    exact ⟨_, .of_eq (f := Dtu.traceCapture) rfl hrow, rfl, rfl, rfl, rfl, rfl, hseq⟩
  case closed =>
    have hgo : (s.dtu.trace.stopped || !s.dtu.runs) = false := by
      rw [Trace.stopped, hstarved, hfull, hruns]
      rfl
    have hrow : s.dtu.traceBlockClose = s.dtu.closeNow.compress.actWaits := if_neg (by rw [hgo]; exact Bool.false_ne_true)
    obtain ⟨hopen, -, -⟩ := Trace.ownCauses_head hc
    obtain ⟨ends, hclose⟩ := Dtu.closeNow_own hw hc
    obtain ⟨b, hblocks, hcause, hrecs, hstream, hseq, hcarry, hfirst, hcrc⟩ := s.dtu.closeBlock_blocks c ends
    rw [if_neg hopen] at hfirst
    have hkept : s.dtu.closeNow.trace.blocks = s.dtu.trace.blocks ++ [b] ∧ s.dtu.closeNow.trace.waits = [] := by
      rcases hclose with h | h
      · rw [h, Dtu.closeBlock_waits]
        exact ⟨hblocks, hw⟩
      · rw [h, Dtu.newStream_waits, Dtu.closeBlock_waits]
        exact ⟨hblocks, hw⟩
    obtain ⟨t, l, n, hacts⟩ := s.dtu.closeNow_acts
    obtain ⟨f, w, k, p, q, a, v, hcomp, -⟩ := s.dtu.closeNow.compress_eq
    rw [hcomp, hacts] at hrow
    rw [hacts] at hkept
    exact ⟨_, b, .of_eq (f := Dtu.traceBlockClose) rfl (hrow.trans (Dtu.settle_of_no_waits _ hkept.2)), hkept.1, hcause, hrecs,
      hstream, hseq, hcarry, hfirst, hcrc, rfl, rfl⟩
  case nothing =>
    refine .of_dtu (f := Dtu.traceCapture) rfl ?_
    unfold Dtu.traceCapture
    rw [hcap, Bool.false_and, Dtu.compress_of_empty hraw]
    exact ite_self _

end Sys2Proof.Machine
end

section
/-!
PROOFS. Link-up of a DTU, its link messages, its scan-out and its Hails.
-/
namespace Sys2Proof.Machine

/-! ### Frames taken and sent (R52, R351). -/

/-- What a frame that passes the header tests touches in the link: the count of bad headers, the sequence numbers expected,
and the credits owed. -/
theorem Dtu.taken_link {d : Dtu} {f : Frame} (h : d.takes f) : ∃ lseqRx pools capture capFull spoiled counters,
    d.taken f = { d with
      counters, link := { d.link with badHcrcRun := 0, lseqRx, creditOwed := true, pools }
      frost := { d.frost with capture, capFull, spoiled } } := by
  have hseq : ∃ lseqRx spoiled counters, Dtu.takeLseq { d with link := { d.link with badHcrcRun := 0 } } f.cls.toNat f.lseq =
      { d with counters, link := { d.link with badHcrcRun := 0, lseqRx }, frost := { d.frost with spoiled } } := by
    unfold Dtu.takeLseq
    dsimp only
    split
    · split
      · exact ⟨_, _, _, rfl⟩
      · exact ⟨_, _, _, rfl⟩
    · exact ⟨_, _, _, rfl⟩
  obtain ⟨l, sp, n, hl⟩ := hseq
  unfold Dtu.taken Dtu.receive
  rw [h.1, h.2, if_neg (by simp)]
  dsimp only
  rw [hl]
  dsimp only
  (repeat' split) <;> exact ⟨_, _, _, _, _, _, rfl⟩

/-- What a frame that passes the header tests leaves. -/
theorem Dtu.taken_keeps {d : Dtu} {f : Frame} (h : d.takes f) : (d.taken f).cells = d.cells ∧ (d.taken f).host = d.host ∧
    (d.taken f).trace = d.trace ∧ (d.taken f).time = d.time ∧ (d.taken f).digests = d.digests ∧
    (d.taken f).faults = d.faults ∧ (d.taken f).cmds = d.cmds ∧ (d.taken f).link.vc0 = d.link.vc0 ∧
    (d.taken f).link.version = d.link.version ∧ (d.taken f).link.admitted = d.link.admitted ∧
    (d.taken f).frost.snapshot = d.frost.snapshot ∧ (d.taken f).link.echoes = d.link.echoes ∧
    (d.taken f).link.rtt = d.link.rtt := by
  obtain ⟨l, p, c, u, v, n, htaken⟩ := Dtu.taken_link h
  rw [htaken]
  exact ⟨rfl, rfl, rfl, rfl, rfl, rfl, rfl, rfl, rfl, rfl, rfl, rfl, rfl⟩

/-- A frame goes out at once when nothing waits before it on its VC and it may be sent. -/
theorem Dtu.sendNow_idle {d : Dtu} {t : TxFrame} (hidle : d.vcIdle (vcOf t.cls) = true)
    (hcan : d.canSend t.cls t.msg t.plen = true) : d.sendNow t = d.put t :=
  if_pos (by rw [hidle, hcan]; rfl)

/-- Frames of VC 0 are queued in their order. -/
theorem Dtu.queue_list {ts : List TxFrame} (h : ∀ t ∈ ts, vcOf t.cls = 0) (d : Dtu) :
    ts.foldl Dtu.queue d = { d with link := { d.link with vc0 := d.link.vc0 ++ ts } } := by
  induction ts generalizing d with
  | nil => rw [List.foldl_nil, List.append_nil]
  | cons t ts ih =>
    have hq : d.queue t = { d with link := { d.link with vc0 := d.link.vc0 ++ [t] } } := by
      unfold Dtu.queue
      rw [h t List.mem_cons_self]
      rfl
    rw [List.foldl_cons, hq, ih fun u hu => h u (List.mem_cons_of_mem _ hu)]
    simp only [List.append_assoc, List.singleton_append]

theorem fld_setFld_one (w : W) {i : Nat} (hi : i < 32) : fld (setFld w i i 1) i i = 1 :=
  (fld_setFld_same _ _ _ _ hi (Nat.le_refl i)).trans (Nat.mod_eq_of_lt (Nat.one_lt_two_pow (by omega)))

theorem fld_setFld_of_lt (w : W) {hi lo v : Nat} (h : hi < 32) (hl : lo ≤ hi) (hv : v < 2 ^ (hi + 1 - lo)) :
    fld (setFld w hi lo v) hi lo = v := by
  rw [fld_setFld_same _ _ _ _ h hl, Nat.mod_eq_of_lt hv]

theorem wf_lt (b : List W) (i hi lo : Nat) : wf b i hi lo < 2 ^ (hi + 1 - lo) := fld_lt _ _ _

/-! ### HELLO and ADMIT (R74, R347). -/

/-- What DTU_UL_RATE becomes on admission. -/
def admitRate (ul : W) (rate burst : Nat) : W :=
  let ul := if 10 ≤ rate ∧ rate ≤ 250 then setFld ul 23 16 rate else ul
  if 16 ≤ burst ∧ burst ≤ 1024 then setFld ul 15 0 burst else ul

theorem admitRate_rate (ul : W) (burst : Nat) {rate : Nat} (hlo : 10 ≤ rate) (hhi : rate ≤ 250) :
    fld (admitRate ul rate burst) 23 16 = rate := by
  have hrate : admitRate ul rate burst = if 16 ≤ burst ∧ burst ≤ 1024 then setFld (setFld ul 23 16 rate) 15 0 burst
      else setFld ul 23 16 rate := by
    unfold admitRate
    rw [if_pos (show 10 ≤ rate ∧ rate ≤ 250 from ⟨hlo, hhi⟩)]
  rw [hrate]
  split
  · rw [fld_setFld_above _ _ _ _ _ _ (by decide) (by decide) (by decide)]
    exact fld_setFld_of_lt _ (by decide) (by decide) (by omega)
  · exact fld_setFld_of_lt _ (by decide) (by decide) (by omega)

/-- A DTU admitted under an ADMIT. -/
def Dtu.admittedBy (d : Dtu) (f : Frame) : Dtu :=
  let ul := admitRate d.link.ulRate (wf f.body 2 15 8) (wf f.body 3 31 16)
  Dtu.irq { d with
    factory := decide (wf f.body 1 31 16 = 0xFFFF)
    link := { d.link with
      linkState := 3, version := wf f.body 0 15 8, fabricId := BitVec.ofNat 16 (wf f.body 1 31 16),
      ethertype := BitVec.ofNat 16 (wf f.body 1 15 0), aggId := BitVec.ofNat 12 (wf f.body 2 27 16),
      ulRate := ul, admitted := true, aggMac := f.src
      shaper := { d.link.shaper with
        enabled := true, rate := fld ul 23 16, burst := 1024 * fld ul 15 0, v := d.now * fld ul 23 16 } } } 0

/-- A sound ADMIT admits, finds no common version, or refuses for another reason and agrees the version it names. -/
theorem Dtu.admitMsg_of_sound {d : Dtu} {f : Frame} (h : d.takes f) (hs : (d.taken f).admitSound f = true) : d.admitMsg f =
    if wf f.body 0 31 24 = 0 then (d.taken f).admittedBy f
    else if wf f.body 0 23 16 = 5 then
      (Dtu.irq { d.taken f with link := { (d.taken f).link with linkState := 4, version := 0 } } 2).raise .versionMismatch
        .linkRx (d.taken f).link.peerVercap.toNat
    else if wf f.body 0 23 16 = 6 then { d.taken f with link := { (d.taken f).link with version := wf f.body 0 15 8 } }
    else Dtu.irq { d.taken f with
      link := { (d.taken f).link with version := wf f.body 0 15 8, linkState := 5 }
      host := { (d.taken f).host with refused := true } } 3 := by
  have h2 : (d.receive f).2 = true := Dtu.receive_of_header h
  have hrow : d.admitMsg f = if !(d.receive f).2 then (d.receive f).1 else if !(d.taken f).admitSound f then
      (d.taken f).count .stale else _ := rfl
  rw [hrow, h2, hs]
  rfl

/-- An ADMIT that admits sets up the link. -/
theorem Dtu.admitMsg_admits {d : Dtu} {f : Frame} (h : d.takes f) (hs : (d.taken f).admitSound f = true)
    (hres : wf f.body 0 31 24 = 0) : ∃ shaper, d.admitMsg f = Dtu.irq { d.taken f with
      factory := decide (wf f.body 1 31 16 = 0xFFFF)
      link := { (d.taken f).link with
        linkState := 3, version := wf f.body 0 15 8, fabricId := BitVec.ofNat 16 (wf f.body 1 31 16),
        ethertype := BitVec.ofNat 16 (wf f.body 1 15 0), aggId := BitVec.ofNat 12 (wf f.body 2 27 16),
        ulRate := admitRate (d.taken f).link.ulRate (wf f.body 2 15 8) (wf f.body 3 31 16), shaper, admitted := true,
        aggMac := f.src } } 0 := by
  rw [Dtu.admitMsg_of_sound h hs, if_pos hres]
  exact ⟨_, rfl⟩

/-- An ADMIT that refuses for want of a common version. -/
theorem Dtu.admitMsg_noVersion {d : Dtu} {f : Frame} (h : d.takes f) (hs : (d.taken f).admitSound f = true)
    (hres : wf f.body 0 31 24 = 1) (hreason : wf f.body 0 23 16 = 5) : d.admitMsg f =
      (Dtu.irq { d.taken f with link := { (d.taken f).link with linkState := 4, version := 0 } } 2).raise .versionMismatch
        .linkRx (d.taken f).link.peerVercap.toNat := by
  rw [Dtu.admitMsg_of_sound h hs, if_neg (by rw [hres]; decide), if_pos hreason]

/-- An ADMIT that refuses for another reason agrees the version it names; NOT_READY leaves the DTU waiting. -/
theorem Dtu.admitMsg_refuses {d : Dtu} {f : Frame} (h : d.takes f) (hs : (d.taken f).admitSound f = true)
    (hres : wf f.body 0 31 24 = 1) (hreason : wf f.body 0 23 16 ≠ 5) : d.admitMsg f =
      if wf f.body 0 23 16 = 6 then { d.taken f with link := { (d.taken f).link with version := wf f.body 0 15 8 } }
      else Dtu.irq { d.taken f with
        link := { (d.taken f).link with version := wf f.body 0 15 8, linkState := 5 }
        host := { (d.taken f).host with refused := true } } 3 := by
  rw [Dtu.admitMsg_of_sound h hs, if_neg (by rw [hres]; decide), if_neg hreason]

/-- The HELLO frame. -/
def Dtu.helloFrame (d : Dtu) : TxFrame :=
  { cls := 0, msg := 1, dest := myAggMac, ctx := 0xFFFF, gen := 0, plen := 48, body := d.helloBody }

/-- The first HELLO leaves once the tag is sealed, the credits are there and the slot boundary has passed. -/
theorem Dtu.helloSend_first {d : Dtu} (hrefused : d.host.refused = false) (hstate : d.link.linkState = 1)
    (hdue : (d.host.sealed && !d.link.helloWait && decide (32 ≤ d.link.beatSum.getD 0 0) && d.canSend 0 1 48) = true) :
    d.helloSend = { d with link := { (d.put d.helloFrame).link with
      linkState := 2, helloSeq := d.link.helloSeq + 1, helloFirst := d.link.helloSeq, helloPeriod := d.nowNs / 2 ^ 20 } } := by
  unfold Dtu.helloSend
  dsimp only
  rw [hrefused, hdue, hstate]
  rfl

/-- Settles O29: a HELLO leaves through `Dtu.put`, and an ADMIT is one of admission, refusal and NOT_READY. -/
theorem dtuIsAdmittedByAdmit : Obligations.DtuIsAdmittedByAdmit := by
  unfold Obligations.DtuIsAdmittedByAdmit
  refine ⟨fun s hsealed hrefused hwait hcredits hsend hstate => ?hello, fun s f ht hs hres => ?admits,
    fun s f ht hs hres hreason => ?notReady, fun s f ht hs hres hreason => ?noVersion, fun s href hport hstate => ?holds,
    fun s f ht hs hres hreason => ?refuses⟩
  case hello =>
    have hdue : (s.dtu.host.sealed && !s.dtu.link.helloWait && decide (32 ≤ s.dtu.link.beatSum.getD 0 0) &&
        s.dtu.canSend 0 1 48) = true := by
      rw [hsealed, hwait, decide_eq_true hcredits, hsend]
      rfl
    obtain ⟨f, hwire, hcls, hmsg, hdest, hbody, -, -, hether⟩ := Dtu.put_wire s.dtu s.dtu.helloFrame
    exact ⟨_, f, .of_eq (f := Dtu.helloSend) rfl (Dtu.helloSend_first hrefused hstate hdue), rfl, rfl, rfl, hwire, hcls, hmsg,
      hether, hdest, hbody (.inl (show (0 : Nat) ≠ 6 by decide)), rfl, rfl⟩
  case admits =>
    obtain ⟨sh, hrow⟩ := Dtu.admitMsg_admits ht hs hres
    obtain ⟨hcells, hhost, htrace, htime, hdig, hfaults, hcmds, hvc0, hversion, hadm, hsnap, hechoes, hrtts⟩ := Dtu.taken_keeps ht
    refine ⟨_, .of_eq (f := (·.admitMsg f)) rfl hrow, rfl, rfl, rfl, ?_, ?_, ?_, rfl, fld_setFld_one _ (by decide),
      fun hlo hhi => admitRate_rate _ _ hlo hhi, rfl, ?_, ?_, ?_⟩
    · exact (BitVec.toNat_ofNat _ _).trans (Nat.mod_eq_of_lt (wf_lt _ _ _ _))
    · exact (BitVec.toNat_ofNat _ _).trans (Nat.mod_eq_of_lt (wf_lt _ _ _ _))
    · exact (BitVec.toNat_ofNat _ _).trans (Nat.mod_eq_of_lt (wf_lt _ _ _ _))
    · exact hcells
    · exact htrace
    · exact htime
  case notReady =>
    exact .of_eq (f := (·.admitMsg f)) rfl ((Dtu.admitMsg_refuses ht hs hres (by omega)).trans (if_pos hreason))
  case noVersion =>
    have hrow := Dtu.admitMsg_noVersion ht hs hres hreason
    obtain ⟨hcells, hhost, htrace, htime, hdig, hfaults, hcmds, hvc0, hversion, hadm, hsnap, hechoes, hrtts⟩ := Dtu.taken_keeps ht
    obtain ⟨q, m, hraise⟩ := Dtu.raise_eq (Dtu.irq { s.dtu.taken f with link := { (s.dtu.taken f).link with
      linkState := 4, version := 0 } } 2) .versionMismatch .linkRx (s.dtu.taken f).link.peerVercap.toNat
    exact ⟨_, .of_eq (f := (·.admitMsg f)) rfl (hrow.trans hraise), rfl, rfl, fld_setFld_one _ (by decide),
      hadm⟩
  case holds =>
    refine .of_eq (f := Dtu.helloSend) rfl ?_
    unfold Dtu.helloSend
    dsimp only
    rw [href, if_pos rfl]
    exact if_pos ⟨hstate, hport⟩
  case refuses =>
    obtain ⟨hcells, hhost, htrace, htime, hdig, hfaults, hcmds, hvc0, hversion, hadm, hsnap, hechoes, hrtts⟩ := Dtu.taken_keeps ht
    exact ⟨_, .of_eq (f := (·.admitMsg f)) rfl ((Dtu.admitMsg_refuses ht hs hres (by omega)).trans (if_neg (by omega))), rfl, rfl,
      fld_setFld_one _ (by decide), hfaults, hadm⟩

/-! ### Link messages (R351 to R354). -/

theorem Pool.giveBack_available (p : Pool) : p.giveBack.available = p.available := rfl

theorem getD_map_giveBack (ps : List Pool) (i : Nat) :
    (ps.map Pool.giveBack).getD i .initial = (ps.getD i .initial).giveBack := by
  rw [List.getD_eq_getElem?_getD, List.getD_eq_getElem?_getD, List.getElem?_map]
  cases ps[i]? with
  | none => rfl
  | some p => rfl

/-- What is given back to the peer bears on no frame that may be sent. -/
theorem Dtu.canSend_giveBack (d : Dtu) (owed : Bool) (cls msg plen : Nat) : Dtu.canSend { d with
    link := { d.link with pools := d.link.pools.map Pool.giveBack, creditOwed := owed } } cls msg plen =
      d.canSend cls msg plen := by
  unfold Dtu.canSend
  dsimp only
  rw [getD_map_giveBack]
  rfl

theorem getElem?_modAt_other {α : Type} (l : List α) {i j : Nat} (g : α → α) (h : i ≠ j) : (modAt l j g)[i]? = l[i]? := by
  unfold modAt
  split
  · exact List.getElem?_set_ne h.symm
  · rfl

theorem mem_modAt {α : Type} {l : List α} {i : Nat} {g : α → α} {a : α} (h : a ∈ modAt l i g) : a ∈ l ∨ ∃ b ∈ l, a = g b := by
  unfold modAt at h
  split at h
  next b hb =>
    rcases List.mem_or_eq_of_mem_set h with h | h
    · exact .inl h
    · exact .inr ⟨b, List.mem_of_getElem? hb, h⟩
  · exact .inl h

/-- A CREDIT fills the pools of the four VCs and says whether VC 2 is held. -/
theorem Dtu.credit_eq {d : Dtu} {f : Frame} (h : d.takes f) (hlen : f.plen.toNat = 40) : ∃ (since : Pool → Nat) (counters : _),
    d.credit f = { d.taken f with counters, link := { (d.taken f).link with
      pools := modAt ((List.range 4).map fun vc => (((d.taken f).link.pools.getD vc .initial).take (word f.body (1 + vc))).1) 2
        fun q : Pool => { q with
          held := decide (0x32 ≤ (d.taken f).link.version) && bit (word f.body 0) 26, heldSince := since q } } } := by
  have h2 : (d.receive f).2 = true := Dtu.receive_of_header h
  refine ⟨fun q => if (decide (0x32 ≤ (d.taken f).link.version) && bit (word f.body 0) 26) &&
    !((d.taken f).link.pools.getD 2 .initial).held then (d.taken f).nowNs else q.heldSince, ?_⟩
  unfold Dtu.credit
  dsimp only
  rw [h2, Bool.true_and, decide_eq_true hlen]
  simp only [Bool.not_true, Bool.false_eq_true, if_false, Dtu.count]
  split
  · exact ⟨_, rfl⟩
  · exact ⟨_, rfl⟩

/-- The words of a CREDIT: what has been given back on each VC, and the 64 units of the start. -/
theorem word_credit (ps : List Pool) {vc : Nat} (h : vc < ps.length) :
    word ([0] ++ (ps.map Pool.giveBack).map (fun p => p.given + 64) ++ [0, 0, 0, 0, 0]) (1 + vc) =
      (ps.getD vc .initial).giveBack.given + 64 := by
  have hlen : vc < ((ps.map Pool.giveBack).map (fun p => p.given + 64)).length := by
    rw [List.length_map, List.length_map]
    exact h
  unfold word
  rw [List.append_assoc, List.singleton_append, Nat.add_comm 1 vc, List.getD_cons_succ,
    List.getD_eq_getElem?_getD, List.getD_eq_getElem?_getD, List.getElem?_append_left hlen, List.getElem?_map, List.getElem?_map,
    List.getElem?_eq_getElem h, Option.map_some, Option.map_some, Option.getD_some, Option.getD_some]

theorem Dtu.loopEcho_of_none {d : Dtu} (h : d.cmds.loop = none) : d.loopEcho = d := by
  unfold Dtu.loopEcho
  rw [h]

/-- Settles O30: a message taken changes the link through its own rule, and one sent leaves through `Dtu.put`. -/
theorem dtuLinkMessagesTakeEffect : Obligations.DtuLinkMessagesTakeEffect := by
  unfold Obligations.DtuLinkMessagesTakeEffect
  refine ⟨fun s p f ht hlen => ?hello, fun s p f ht hlen => ?credit, fun s p die hvc0 hsend => ?creditSend,
    fun s p f r ht hlen => ?echo, fun s p f e ht hlen hknown hloop hrtt => ?reply, fun s p f ht hlen => ?reset⟩
  case hello => exact .of_eq (f := (·.hello f)) rfl (if_pos ⟨Dtu.receive_of_header ht, hlen⟩)
  case credit =>
    obtain ⟨since, m, hrow⟩ := Dtu.credit_eq ht hlen
    obtain ⟨hcells, hhost, htrace, htime, hdig, hfaults, hcmds, hvc0, hversion, hadm, hsnap, hechoes, hrtts⟩ := Dtu.taken_keeps ht
    refine ⟨_, .of_eq (f := (·.credit f)) rfl hrow, fun vc hvc h2 => ?_, ?_, hvc0,
      hcells, hhost, htrace⟩
    · dsimp only
      rw [getElem?_modAt_other _ _ h2, List.getElem?_map, List.getElem?_range hvc]
      rfl
    · rw [← hversion]
      rfl
  case creditSend =>
    have hidle : Dtu.vcIdle { s.dtu with
        link := { s.dtu.link with pools := s.dtu.link.pools.map Pool.giveBack, creditOwed := false } } 0 = true :=
      List.isEmpty_iff.2 hvc0
    have hrow := Dtu.sendNow_idle (t := s.dtu.toAgg clsLink 0x03
      ([0] ++ (s.dtu.link.pools.map Pool.giveBack).map (fun p => p.given + 64) ++ [0, 0, 0, 0, 0]) 40) hidle
      ((s.dtu.canSend_giveBack false 0 3 40).trans hsend)
    obtain ⟨f, hwire, hcls, hmsg, -, hbody, -⟩ := Dtu.put_wire { s.dtu with
        link := { s.dtu.link with pools := s.dtu.link.pools.map Pool.giveBack, creditOwed := false } } (s.dtu.toAgg clsLink 0x03
      ([0] ++ (s.dtu.link.pools.map Pool.giveBack).map (fun p => p.given + 64) ++ [0, 0, 0, 0, 0]) 40)
    refine ⟨_, f, .of_eq (f := Dtu.creditSend) rfl hrow, hwire, hcls, hmsg, fun vc _ hvc => ?_, rfl, fun q hq => ?_, rfl, rfl⟩
    · rw [hbody (.inl (show (0 : Nat) ≠ 6 by decide))]
      exact word_credit s.dtu.link.pools hvc
    · have howed : ∀ q ∈ s.dtu.link.pools.map Pool.giveBack, q.owed = [] := fun q hq => by
        obtain ⟨p, -, rfl⟩ := List.mem_map.1 hq
        rfl
      rcases mem_modAt hq with hq | ⟨q', hq', h⟩
      · exact howed q hq
      · exact (congrArg Pool.owed h).trans (howed q' hq')
  case echo => exact .of_eq (f := (·.echo f r)) rfl (if_pos ⟨Dtu.receive_of_header ht, hlen⟩)
  case reply =>
    obtain ⟨hcells, hhost, -, -, -, -, hcmds, -, -, -, -, hechoes, hrtts⟩ := Dtu.taken_keeps ht
    have hrow : s.dtu.echoReply f e = { s.dtu.taken f with link := { (s.dtu.taken f).link with
        echoes := (s.dtu.taken f).link.echoes.filter (fun x => x.1 != word f.body 0)
        rtt := ((s.dtu.taken f).link.rtt ++ [e.toNat - (word f.body 1).toNat]).drop
          (((s.dtu.taken f).link.rtt ++ [e.toNat - (word f.body 1).toNat]).length - 64) } } :=
      if_pos ⟨Dtu.receive_of_header ht, hlen, by rw [show (s.dtu.receive f).1 = s.dtu.taken f from rfl, hechoes]; exact hknown⟩
    have hdrop : (s.dtu.link.rtt ++ [e.toNat - (word f.body 1).toNat]).length - 64 = 0 := by
      rw [List.length_append, List.length_singleton]
      omega
    rw [hechoes, hrtts, hdrop, List.drop_zero] at hrow
    have hloop' : (s.dtu.echoReply f e).cmds.loop = none := by rw [hrow]; exact hcmds ▸ hloop
    exact ⟨_, .of_eq (f := fun d => (d.echoReply f e).loopEcho) rfl ((Dtu.loopEcho_of_none hloop').trans hrow), rfl, rfl, hcells,
      hhost⟩
  case reset =>
    obtain ⟨t, n, fr, hreset⟩ := (s.dtu.taken f).linkReset_eq (some (wf f.body 0 7 0))
    obtain ⟨hcells, hhost, htrace, htime, hdig, hfaults, hcmds, hvc0, hversion, hadm, hsnap, hechoes, hrtts⟩ := Dtu.taken_keeps ht
    have hrow : s.dtu.linkResetFrame f = (s.dtu.taken f).linkReset (some (wf f.body 0 7 0)) :=
      if_pos ⟨Dtu.receive_of_header ht, hlen⟩
    exact ⟨_, .of_eq (f := (·.linkResetFrame f)) rfl (hrow.trans hreset), rfl, rfl, rfl, rfl, rfl,
      hvc0, hcells, htime, hdig⟩

/-! ### Scan-out and Hails (R415, R420). -/

/-- The frames of a scan are those that `mk` makes for class-2 messages. -/
theorem mem_scanFrames {mk : Nat → List W → Nat → TxFrame} {id : W} {data : List W} {offset : Nat} {t : TxFrame}
    (h : t ∈ scanFrames mk id data offset) : ∃ m b n, t = mk m b n := by
  rcases List.mem_append.1 h with h | h
  · obtain ⟨p, -, rfl⟩ := List.mem_map.1 h
    exact ⟨_, _, _, rfl⟩
  · exact ⟨_, _, _, List.mem_singleton.1 h⟩

theorem Dtu.taken_toAgg {d : Dtu} {f : Frame} (h : d.takes f) : (d.taken f).toAgg = d.toAgg := by
  obtain ⟨l, p, c, u, v, n, htaken⟩ := Dtu.taken_link h
  rw [htaken]
  rfl

/-- The body of a Hail. -/
def Dtu.hailBody (d : Dtu) (n : Nat) : List W :=
  [pack [(1, 31, 28), (1, 27, 24), (d.time.state.code, 23, 22), (b2n d.cells.frozen, 21, 21), (d.hailSeq.toNat, 15, 0)],
    pack [(d.dieId, 19, 0)], w32 n, pack [(d.health.temp.toNat, 31, 16), (d.health.vcore.toNat, 15, 0)],
    pack [(d.faults.port.length + d.faults.own.length, 31, 16)], 0, 0, 0]

/-- A Hail that is due, with nothing injected and nothing before it, leaves at once. -/
theorem Dtu.hailSend_due {d : Dtu} {n : Nat} (hdue : d.hailDue = some n) (hrep : d.mayReport = true)
    (htime : d.time.state = .locked) (hruns : d.runs = true) (hinj : d.injections = []) (hvc0 : d.link.vc0 = [])
    (hsend : d.canSend 1 3 32 = true) : d.hailSend =
      Dtu.put { d with hailDue := none, hailSeq := d.hailSeq + 1 } (d.toAgg clsCtrl 0x03 (d.hailBody n) 32) := by
  have hgo : (!(d.mayReport && d.time.state == .locked && d.runs)) = false := by
    rw [hrep, htime, hruns]
    rfl
  have hidle : Dtu.vcIdle { d with hailDue := none, hailSeq := d.hailSeq + 1 } 0 = true := List.isEmpty_iff.2 hvc0
  have hcan : Dtu.canSend { d with hailDue := none, hailSeq := d.hailSeq + 1 } 1 3 32 = true := hsend
  unfold Dtu.hailSend
  rw [hdue]
  simp only [hgo, hinj, List.any_nil, Bool.false_eq_true, if_false]
  exact Dtu.sendNow_idle hidle hcan

theorem fld_pack_halves {a b : Nat} (ha : a < 2 ^ 16) (hb : b < 2 ^ 16) :
    fld (pack [(a, 31, 16), (b, 15, 0)]) 31 16 = a ∧ fld (pack [(a, 31, 16), (b, 15, 0)]) 15 0 = b := by
  simp only [fld, bits, pack, packNat, BitVec.toNat_ofNat]
  omega

theorem fld_pack_die {a : Nat} (ha : a < 2 ^ 20) : fld (pack [(a, 19, 0)]) 19 0 = a := by
  simp only [fld, bits, pack, packNat, BitVec.toNat_ofNat]
  omega

/-- Settles O32: scan frames are queued in order, and a Hail due leaves through `Dtu.put`. -/
theorem dtuScansOutAndHails : Obligations.DtuScansOutAndHails := by
  unfold Obligations.DtuScansOutAndHails
  refine ⟨fun s f ⟨ht, hs⟩ => ?scan, fun s t v n hdue hrep htime hruns hinj hvc0 hsend => ?hail, fun s t v hdue => ?none⟩
  case scan =>
    obtain ⟨hcells, hhost, -, -, -, -, -, hvc0, -, -, hsnap, -⟩ := Dtu.taken_keeps ht
    have hrow : s.dtu.scanReq f = (scanFrames (fun m b n => (s.dtu.taken f).toAgg clsFrost m b n) (word f.body 0)
        ((s.dtu.taken f).scanOut (word f.body 0) (wf f.body 4 31 0)) (wf f.body 5 31 0)).foldl Dtu.queue (s.dtu.taken f) :=
      if_neg (by rw [Dtu.receive_of_header ht, hs]; decide)
    rw [Dtu.queue_list fun t h => by obtain ⟨m, b, n, rfl⟩ := mem_scanFrames h; rfl] at hrow
    refine ⟨_, .of_eq (f := (·.scanReq f)) rfl hrow, ?_, hcells, hsnap, hhost⟩
    rw [← hvc0, ← Dtu.taken_toAgg ht]
  case hail =>
    obtain ⟨f, hwire, hcls, hmsg, hdest, hbody, -⟩ := Dtu.put_wire { s.dtu with hailDue := none, hailSeq := s.dtu.hailSeq + 1 }
      (s.dtu.toAgg clsCtrl 0x03 (s.dtu.hailBody n) 32)
    have hb : f.body = s.dtu.hailBody n := hbody (.inl (show (1 : Nat) ≠ 6 by decide))
    obtain ⟨htemp, hvcore⟩ := fld_pack_halves s.dtu.health.temp.isLt s.dtu.health.vcore.isLt
    refine ⟨_, f, .of_eq (f := Dtu.hailSend) rfl (Dtu.hailSend_due hdue hrep htime hruns hinj hvc0 hsend), rfl, rfl, hwire, hcls,
      hmsg, hdest, ?_, ?_, ?_, ?_, rfl, rfl, rfl⟩
    · rw [hb]
      exact fld_pack_die (fld_lt _ 19 0)
    · rw [hb]
      rfl
    · rw [hb]
      exact htemp
    · rw [hb]
      exact hvcore
  case none =>
    refine .of_dtu (f := Dtu.hailSend) rfl ?_
    unfold Dtu.hailSend
    rw [hdue]

end Sys2Proof.Machine
end

section
/-!
PROOFS. Beat credits and the intake of the uplink of a DTU.
-/
namespace Sys2Proof.Machine

/-- The quantity whose ledger fault a beat credit beyond its limit raises is queued with a stamp of its own. -/
theorem Dtu.ledgerUl_eq (d : Dtu) (vc : Nat) : ∃ m, d.ledgerUl vc = { d with
    faults := { d.faults with ledgerDue := d.faults.ledgerDue ++ [m] } } := ⟨_, rfl⟩

/-- A beat without a credit raises a ledger fault and is counted. -/
theorem Dtu.rxUncredited_row {d : Dtu} {vc : Nat} {x : RxDefect} {f : Frame} (hport : d.portOn = true)
    (hx : x = .noCredit ∨ x = .none ∧ d.link.rxGranted.getD vc 0 < beatsOf f.plen.toNat) :
    d.rxPacket vc x f = d.rxUncredited vc := by
  unfold Dtu.rxPacket
  rw [hport, if_neg (by decide)]
  rcases hx with rfl | ⟨rfl, hlt⟩
  · rfl
  · exact if_pos hlt

/-- A packet with its credits spends them; a sound one passes on, and one too long is discarded and counted. -/
theorem Dtu.rxWhole_granted {d : Dtu} {vc : Nat} {f : Frame} (hgrant : beatsOf f.plen.toNat ≤ d.link.rxGranted.getD vc 0) :
    d.rxWhole vc f = if rxLimit vc < 32 + f.plen.toNat then (d.rxUse vc (beatsOf f.plen.toNat)).count .rxDiscard
      else match d.headerFault f with
      | some _ => ((d.rxUse vc (beatsOf f.plen.toNat)).receive f).1
      | none => d.rxUse vc (beatsOf f.plen.toNat) := by
  unfold Dtu.rxWhole
  dsimp only
  rw [if_neg (Nat.not_lt.2 hgrant)]
  rfl

theorem Dtu.rxWhole_sound {d : Dtu} {vc : Nat} {f : Frame} (hgrant : beatsOf f.plen.toNat ≤ d.link.rxGranted.getD vc 0)
    (hlen : 32 + f.plen.toNat ≤ rxLimit vc) (hhead : d.headerFault f = none) :
    d.rxWhole vc f = d.rxUse vc (beatsOf f.plen.toNat) := by
  rw [Dtu.rxWhole_granted hgrant, if_neg (Nat.not_lt.2 hlen), hhead]

/-- Settles O28: each row is one branch of `Dtu.creditReturn`, `Dtu.creditMinTimeout` or `Dtu.rxPacket`. -/
theorem uplinkIntakeIsChecked : Obligations.UplinkIntakeIsChecked := by
  unfold Obligations.UplinkIntakeIsChecked
  refine ⟨⟨fun s vc lim hport hlim hlt => ?below, fun s vc hport hlim => ?unlimited, fun s vc lim hport hlim hle => ?beyond,
    fun s vc hport hup hsum hsaid => ?short, fun s vc hmin => ?enough⟩, fun s vc f x hport hx => ?defect,
    fun s vc f x hport hx => ?noCredit, fun s vc f hport hgrant hlong => ?long, fun s vc f hgrant hlen ht => ?whole,
    fun s vc f hgrant hlen ht => ?afterCut, fun s vc f x hport => ⟨?noPacket, ?noReturn⟩⟩
  case below =>
    refine .of_eq (f := (·.creditReturn vc)) rfl ?_
    unfold Dtu.creditReturn
    simp only [hport, hlim, Bool.not_true, Bool.false_eq_true, if_false]
    exact if_pos hlt
  case unlimited =>
    refine .of_eq (f := (·.creditReturn vc)) rfl ?_
    unfold Dtu.creditReturn
    simp only [hport, hlim, Bool.not_true, Bool.false_eq_true, if_false]
  case beyond =>
    have hrow : s.dtu.creditReturn vc = (s.dtu.irq 10).ledgerUl vc := by
      unfold Dtu.creditReturn
      simp only [hport, hlim, Bool.not_true, Bool.false_eq_true, if_false]
      exact if_neg (Nat.not_lt.2 hle)
    obtain ⟨m, hm⟩ := (s.dtu.irq 10).ledgerUl_eq vc
    exact ⟨_, m, .of_eq (f := (·.creditReturn vc)) rfl (hrow.trans hm), by dsimp only [Dtu.irq], rfl, rfl, by dsimp only [Dtu.irq]⟩
  case short =>
    obtain ⟨m, hm⟩ := (Dtu.irq { s.dtu with
      link := { s.dtu.link with ledgerSaid := s.dtu.link.ledgerSaid.set vc.val true } } 10).ledgerUl_eq vc
    exact ⟨_, m, .of_eq (f := (·.creditMinTimeout vc)) rfl
      ((if_pos ⟨hport, hup, hsum, hsaid⟩).trans hm), by dsimp only [Dtu.irq], rfl, rfl, by dsimp only [Dtu.irq]⟩
  case enough => exact .of_dtu (f := (·.creditMinTimeout vc)) rfl (if_neg fun h => absurd h.2.2.1 (Nat.not_lt.2 hmin))
  case defect =>
    refine .of_eq (f := (·.rxPacket vc x f)) rfl ?_
    unfold Dtu.rxPacket
    rw [hport, if_neg (by decide)]
    rcases hx with rfl | rfl | rfl
    · rfl
    · rfl
    · rfl
  case noCredit =>
    obtain ⟨m, hm⟩ := ((s.dtu.count .rxNoCredit).irq 10).ledgerUl_eq vc
    exact ⟨_, m, .of_eq (f := (·.rxPacket vc x f)) rfl
      ((Dtu.rxUncredited_row hport hx).trans hm), rfl, rfl, rfl,
      by dsimp only [Dtu.irq, Dtu.count], by dsimp only [Dtu.irq, Dtu.count]⟩
  case long =>
    have hrow : s.dtu.rxPacket vc .none f = s.dtu.rxWhole vc f := if_neg (by rw [hport]; decide)
    exact ⟨_, .of_eq (f := (·.rxPacket vc .none f)) rfl
      (hrow.trans ((Dtu.rxWhole_granted hgrant).trans (if_pos hlong))), rfl, rfl, rfl⟩
  case whole =>
    obtain ⟨hport, hhead⟩ := ht
    have hrow : s.dtu.rxPacket vc .none f = s.dtu.rxWhole vc f := if_neg (by rw [hport]; decide)
    exact .of_eq (f := (·.rxPacket vc .none f)) rfl (hrow.trans (Dtu.rxWhole_sound hgrant hlen hhead))
  case afterCut =>
    obtain ⟨hport, hhead⟩ := ht
    have hrow : s.dtu.rxPacket vc .sofWhileOpen f = (s.dtu.count .rxDiscard).rxWhole vc f := if_neg (by rw [hport]; decide)
    have hhead' : (s.dtu.count .rxDiscard).headerFault f = none := hhead
    exact .of_eq (f := (·.rxPacket vc .sofWhileOpen f)) rfl (hrow.trans (Dtu.rxWhole_sound hgrant hlen hhead'))
  case noPacket =>
    refine .of_dtu (f := (·.rxPacket vc x f)) rfl (if_pos ?_)
    rw [hport]
    rfl
  case noReturn =>
    refine .of_dtu (f := (·.creditReturn vc)) rfl (if_pos ?_)
    rw [hport]
    rfl

end Sys2Proof.Machine
end

section
/-!
PROOFS. A Frost at a DTU.
-/
namespace Sys2Proof.Machine

/-! ### The stop and the thaw (R427, R435). -/

/-- The FROST record captured last and the closure of cause 6 change the traces and their counts alone. -/
theorem Dtu.frostRecord_acts (d : Dtu) (aux payload : Nat) : d.TraceActs
    (if (d.offer 0x13 aux payload).captureAll0.trace.capturing then (d.offer 0x13 aux payload).captureAll0.askClose 6 none
      else (d.offer 0x13 aux payload).captureAll0) := by
  obtain ⟨r, w, ls, c, o, h, n, e, dc, t, dt, m, hcap⟩ :=
    (d.offer_captured 0x13 aux payload).trans (Dtu.captureAll0_captured (d.offer 0x13 aux payload))
  have hacts : d.TraceActs (d.offer 0x13 aux payload).captureAll0 := ⟨_, _, _, hcap⟩
  exact .ite (hacts.trans (Dtu.askClose_acts _ 6 none)) hacts

/-- The stop of a running DTU freezes its cells and its capture, takes the snapshot, and opens the capture window. -/
theorem Dtu.frostStop_running {d : Dtu} (smear : Bool) (h : d.runs = true) :
    ∃ cells trace longs counters snap unseen, cells.frozen = true ∧ trace.frozen = true ∧
      d.frostStop smear = { d with
        cells, trace, counters, cmds := { d.cmds with longs }
        host := { d.host with irqStatus := setFld d.host.irqStatus 8 8 1 }
        frost := { d.frost with
          state := 2, smear, lull := false, stopNs := d.nowNs, timeState := d.time.state.code, snapshot := some snap
          capture := [], capFull := false, spoiled := false, cutComplete := false, windowEnd := some (d.nowNs + 65536)
          unseen } } := by
  obtain ⟨c1, t1, hmerge⟩ := d.mergeFronts_eq
  unfold Dtu.frostStop
  extract_lets running d1 snap _ d2 _ d3 d4 d5 d6 _
  have hrun : running = true := h
  have h1 : d1 = { d with cells := c1, trace := t1 } := (if_pos hrun).trans hmerge
  obtain ⟨t, l, n, h6⟩ := Dtu.frostRecord_acts d3 (if smear then 2 else 1) d3.frost.t
  have h6' : d6 = { d3 with trace := t, counters := n, cmds := { d3.cmds with longs := l } } := h6
  rw [if_pos hrun]
  clear_value snap d1 d6 running
  subst h1 hrun h6'
  exact ⟨d3.cells, { t with frozen := true }, l, n, snap, d2.frost.unseen, rfl, rfl, rfl⟩

/-- The thaw of a DTU that a Frost holds. -/
theorem Dtu.thawNow_held {d : Dtu} (h : d.frost.state = 2) : d.thawNow = { d with
    frost := { d.frost with state := 0, thawAt := none, unseen := [] }
    cells := { d.cells with frozen := false }, trace := { d.trace with frozen := false } } := if_pos h

/-- Whether the part of the cut that a DTU took is whole (R431). -/
def DtuFrost.cutWhole (f : DtuFrost) : Bool :=
  !f.smear && !f.lateArm && !f.stepped && !f.capFull && !f.spoiled && decide (f.timeState = 2) && !f.lull

/-- A Frost message passes the header tests and its own. -/
theorem Dtu.frost_sound {d : Dtu} {f : Frame} (h : d.takesFrost f) : (!((d.receive f).2 && frostSound f)) = false := by
  rw [Dtu.receive_of_header h.1, h.2]
  rfl

/-- Settles O31: the stop and the thaw through `Dtu.frostStop` and `Dtu.thawNow`, each message acknowledged after it. -/
theorem dtuFrostRuns : Obligations.DtuFrostRuns := by
  unfold Obligations.DtuFrostRuns
  refine ⟨fun s f ⟨ht, hs⟩ h0 hlate => ?arm, fun s f ⟨ht, hs⟩ hid h1 => ?cancel, fun s h1 hreach hruns hle => ?stop,
    fun s p f ⟨ht, hs⟩ hseen h2 hruns => ?now, fun s p f ⟨ht, hs⟩ hseen => ?again, fun s f ⟨ht, hs⟩ hid h2 hdue => ?thaw,
    fun s t hat h2 hreach => ?instant, fun s e hend hreach => ?window⟩
  case arm =>
    obtain ⟨l, p, c, u, v, n, htaken⟩ := Dtu.taken_link ht
    refine .of_eq (f := (·.arm f)) rfl ?_
    have hrow : s.dtu.arm f = if (s.dtu.taken f).frost.state = 0 then
        Dtu.frostAck (if dword f.body 2 ≤ (s.dtu.taken f).nowNs then _ else
          (s.dtu.taken f).armed (word f.body 0) (wf f.body 1 31 30 == 1) (dword f.body 2)) (word f.body 0) (wf f.body 1 31 30 == 1) 1
        else _ := if_neg (by rw [Dtu.frost_sound ⟨ht, hs⟩]; exact Bool.false_ne_true)
    have hstate : (s.dtu.taken f).frost.state = 0 := by rw [htaken]; exact h0
    have hnow : ¬ dword f.body 2 ≤ (s.dtu.taken f).nowNs := by rw [htaken]; exact Nat.not_le.2 hlate
    rw [hrow, if_pos hstate, if_neg hnow]
  case cancel =>
    obtain ⟨hcells, hhost, -, htime, -⟩ := Dtu.taken_keeps ht
    obtain ⟨l, p, c, u, v, n, htaken⟩ := Dtu.taken_link ht
    have hfr : (s.dtu.taken f).frost.frostId = word f.body 0 ∧ (s.dtu.taken f).frost.state ≤ 1 := by
      rw [htaken]
      exact ⟨hid, Nat.le_of_eq h1⟩
    have hrow : s.dtu.cancel f = Dtu.frostAck { s.dtu.taken f with frost := { (s.dtu.taken f).frost with state := 0 } }
        (word f.body 0) (s.dtu.taken f).frost.full 0x02 :=
      (if_neg (by rw [Dtu.frost_sound ⟨ht, hs⟩]; exact Bool.false_ne_true)).trans (if_pos hfr)
    obtain ⟨link, hsend⟩ := Dtu.sendNow_eq { s.dtu.taken f with frost := { (s.dtu.taken f).frost with state := 0 } }
      ((s.dtu.taken f).toAgg clsFrost 0x05 (frostBody (word f.body 0) (s.dtu.taken f).frost.full 0x02 0 0 0) 32)
    exact ⟨_, .of_eq (f := (·.cancel f)) rfl (hrow.trans hsend), rfl, hfr.1.trans hid.symm, hcells, hhost, htime⟩
  case stop =>
    obtain ⟨ftc, res, hr, -⟩ := s.dtu.reach_eq s.dtu.frost.t
    have hrow : s.dtu.frostStopAt = (s.dtu.reach s.dtu.frost.t).frostStop false := if_pos ⟨h1, hreach⟩
    rw [hr] at hrow
    obtain ⟨cells, trace, longs, counters, snap, unseen, hcells, htrace, hstop⟩ := Dtu.frostStop_running
      (d := { s.dtu with time := { s.dtu.time with ftc, residual := res } }) false hruns
    exact ⟨_, .of_eq (f := Dtu.frostStopAt) rfl (hrow.trans hstop), rfl, hcells, hcells, htrace,
      fld_setFld_one _ (by decide), rfl, rfl, rfl, rfl, rfl, rfl⟩
  case now =>
    obtain ⟨l, ps, c, u, v, n, htaken⟩ := Dtu.taken_link ht
    have hnew : ¬ (s.dtu.taken f).frost.seen.contains (word f.body 0) = true := by
      rw [htaken]
      exact hseen ▸ Bool.false_ne_true
    have hstate : ¬ (s.dtu.taken f).frost.state = 2 := by rw [htaken]; exact h2
    have hrow : s.dtu.stopNow f = Dtu.frostAck (Dtu.frostStop (Dtu.armed { s.dtu.taken f with
        frost := { (s.dtu.taken f).frost with seen := (s.dtu.taken f).frost.seen ++ [word f.body 0] } } (word f.body 0)
          (decide (wf f.body 1 31 30 = 1)) (s.dtu.taken f).nowNs) true) (word f.body 0) (decide (wf f.body 1 31 30 = 1)) 0x03 :=
      (if_neg (by rw [Dtu.frost_sound ⟨ht, hs⟩]; exact Bool.false_ne_true)).trans ((if_neg hnew).trans (if_neg hstate))
    have hrun : Dtu.runs (Dtu.armed { s.dtu.taken f with
        frost := { (s.dtu.taken f).frost with seen := (s.dtu.taken f).frost.seen ++ [word f.body 0] } } (word f.body 0)
          (decide (wf f.body 1 31 30 = 1)) (s.dtu.taken f).nowNs) = true := by
      rw [htaken]
      exact hruns
    obtain ⟨cells, trace, longs, counters, snap, unseen, hcells, -, hstop⟩ := Dtu.frostStop_running true hrun
    rw [hstop, Dtu.frostAck, htaken] at hrow
    obtain ⟨link, hsend⟩ := Dtu.sendNow_eq _ _
    exact ⟨_, .of_eq (f := (·.stopNow f)) rfl (hrow.trans hsend), rfl, rfl, rfl, hcells,
      List.mem_append_right _ (List.mem_singleton.2 rfl), fld_setFld_one _ (by decide), rfl⟩
  case again =>
    obtain ⟨l, ps, c, u, v, n, htaken⟩ := Dtu.taken_link ht
    have hold : (s.dtu.taken f).frost.seen.contains (word f.body 0) = true := by rw [htaken]; exact hseen
    exact .of_eq (f := (·.stopNow f)) rfl
      ((if_neg (by rw [Dtu.frost_sound ⟨ht, hs⟩]; exact Bool.false_ne_true)).trans (if_pos hold))
  case thaw =>
    obtain ⟨l, p, c, u, v, n, htaken⟩ := Dtu.taken_link ht
    have hfr : ¬ ((s.dtu.taken f).frost.frostId ≠ word f.body 0 ∨ (s.dtu.taken f).frost.state = 1) := by
      rw [htaken]
      exact fun h => h.elim (fun hne => hne hid) fun h1 => absurd (h2.symm.trans h1) (by decide)
    have hheld : (s.dtu.taken f).frost.state = 2 := by rw [htaken]; exact h2
    have hnow : dword f.body 2 ≤ (s.dtu.taken f).nowNs := by rw [htaken]; exact hdue
    have hrow : s.dtu.thaw f = (s.dtu.taken f).thawNow.frostAck (word f.body 0) (s.dtu.taken f).thawNow.frost.full 0x04 :=
      (if_neg (by rw [Dtu.frost_sound ⟨ht, hs⟩]; exact Bool.false_ne_true)).trans ((if_neg hfr).trans
        (congrArg (fun d : Dtu => d.frostAck (word f.body 0) d.frost.full 0x04) ((if_pos hheld).trans (if_pos hnow))))
    rw [Dtu.thawNow_held hheld, Dtu.frostAck, htaken] at hrow
    obtain ⟨link, hsend⟩ := Dtu.sendNow_eq _ _
    exact ⟨_, .of_eq (f := (·.thaw f)) rfl (hrow.trans hsend), rfl, rfl, rfl, rfl, rfl⟩
  case instant =>
    obtain ⟨ftc, res, hr, -⟩ := s.dtu.reach_eq t
    have hrow : s.dtu.thawInstant = (s.dtu.reach t).thawNow := by
      unfold Dtu.thawInstant
      rw [hat]
      exact if_pos hreach
    rw [hr] at hrow
    exact ⟨_, .of_eq (f := Dtu.thawInstant) rfl (hrow.trans (Dtu.thawNow_held h2)), rfl, rfl, rfl, rfl, rfl, rfl⟩
  case window =>
    obtain ⟨ftc, res, hr, -⟩ := s.dtu.reach_eq e
    have hrow : s.dtu.captureEnd = { s.dtu.reach e with frost := { (s.dtu.reach e).frost with
        windowEnd := none, cutComplete := (s.dtu.reach e).frost.cutWhole } } := by
      unfold Dtu.captureEnd
      rw [hend]
      exact if_pos hreach
    rw [hr] at hrow
    exact ⟨_, .of_eq (f := Dtu.captureEnd) rfl hrow, rfl, rfl, rfl, rfl, rfl, rfl⟩

end Sys2Proof.Machine
end

section
/-!
PROOFS. Fault injection at a DTU: an injection of no packets is counted and adds none.
-/
namespace Sys2Proof.Machine

/-- An injection of code 0x24 for no packets is counted as one and adds no injection. -/
theorem Dtu.faultInject_zero {d : Dtu} {h : HuskCmd} (hcode : fld h.w5 31 24 = 0x24) (hn : fld h.w5 23 0 = 0) :
    d.faultInject h = ({ d with injected := min 0xFFFF (d.injected + 1) }, some (resultOf stOk)) := by
  unfold Dtu.faultInject
  rw [hcode, hn]
  rfl

/-- FAULT_INJECT of code 0x24 for no packets, as a row. -/
theorem faultInject_zero_draws {s : State} {h : HuskCmd} (ha : s.dtu.accepts .faultInject h) (hcode : fld h.w5 31 24 = 0x24)
    (hn : fld h.w5 23 0 = 0) : DtuDraws (.faultInject h) s (Dtu.replyNow { s.dtu.taken (s.dtu.huskFrame .faultInject h) with
      injected := min 0xFFFF ((s.dtu.taken (s.dtu.huskFrame .faultInject h)).injected + 1) } .faultInject h 0 0
      (resultOf stOk) true) := by
  have hrow : exec (.faultInject h) s = .next (s.onDtu (fun d => d.husk s.free .faultInject h)).draw := by
    change execFaultInject h s = _
    rw [execFaultInject, State.husk, ha.side]
  have hrun : (s.dtu.taken (s.dtu.huskFrame .faultInject h)).runOp s.free .faultInject h 0 =
      ((s.dtu.taken (s.dtu.huskFrame .faultInject h)).faultInject h) := rfl
  have hdone := Dtu.husk_short s.free ha rfl (by decide) (hrun.trans (Dtu.faultInject_zero hcode hn))
  exact .of_eq hrow hdone

/-- What a command makes of the DTU is one state. -/
theorem DtuDraws.unique {c : Instr} {s : State} {a b : Dtu} (ha : DtuDraws c s a) (hb : DtuDraws c s b) : a = b := by
  have h := ha.symm.trans hb
  injection h with h
  exact congrArg State.dtu h

theorem Dtu.replyNow_injections (d : Dtu) (op : Opcode) (h : HuskCmd) (ckind : Nat) (handle : W) (r : Result) (cache : Bool) :
    (d.replyNow op h ckind handle r cache).injections = d.injections := by
  obtain ⟨c, l, hreply, -⟩ := d.replyNow_eq op h ckind handle r cache
  rw [hreply]

/-- A DTU in factory test mode, admitted by aggregator 1. -/
def factoryDtu : Dtu :=
  { State.reset.dtu with
    factory := true
    link := { State.reset.dtu.link with linkState := 3, version := 0x32, admitted := true, aggMac := linkMac 1 2, fabricId := 1 } }

/-- FAULT_INJECT of the aggregator for code 0x24 and no packets. -/
def injectNone : HuskCmd :=
  let h : HuskCmd :=
    { side := .dtu, req := { link := 0, addr := linkMac 1 2, keomon := false }, thCtx := 0xFFFF, thGen := 0, w0hi := 0x1400
      w1 := pack [(0xFFFF, 31, 16)], w2 := 0x10000000, w3 := 1, w4 := 0, w5 := 0x24000000, w6 := 0, crc := 0, payload := [] }
  { h with crc := huskCrc .faultInject h }

theorem factoryDtu_accepts : factoryDtu.accepts .faultInject injectNone := by
  constructor <;> decide +kernel

/-- Refutes O35: FAULT_INJECT of code 0x24 for no packets is taken and counted, and adds no injection. -/
theorem not_dtuExecutesShortHusks : ¬ Obligations.DtuExecutesShortHusks := by
  unfold Obligations.DtuExecutesShortHusks
  rintro ⟨-, -, -, -, -, -, hinject⟩
  have hcode : fld injectNone.w5 31 24 = 0x24 := by decide +kernel
  have hn : fld injectNone.w5 23 0 = 0 := by decide +kernel
  have hclaim := hinject { State.reset with dtu := factoryDtu } injectNone _ factoryDtu_accepts rfl hcode
  have heq := hclaim.unique (faultInject_zero_draws factoryDtu_accepts hcode hn)
  have hlen := congrArg (fun d => d.injections.length) heq
  simp only [Dtu.replyNow_injections, List.length_append, List.length_singleton] at hlen
  omega

end Sys2Proof.Machine
end

section
/-!
PROOFS. Every step keeps the canonical forms of the ZA40: all but the rows that write its tag area or its registers leave both.
-/
namespace Sys2Proof.Machine

/-! ### What leaves the tag area and the registers of the ZA40. -/

theorem Za.tag_ite {c : Prop} [Decidable c] (x y : Za) : (if c then x else y).tag = if c then x.tag else y.tag := apply_ite ..

theorem Za.regs_ite {c : Prop} [Decidable c] (x y : Za) : (if c then x else y).regs = if c then x.regs else y.regs := apply_ite ..

/-- A fold of updates that each leave both leaves both. -/
@[simp] theorem Za.foldl_tag {α : Type} {f : Za → α → Za} (hf : ∀ z a, (f z a).tag = z.tag) (l : List α) (z : Za) :
    (l.foldl f z).tag = z.tag :=
  List.foldlRecOn (motive := fun x : Za => x.tag = z.tag) l f rfl fun x hx a _ => (hf x a).trans hx

@[simp] theorem Za.foldl_regs {α : Type} {f : Za → α → Za} (hf : ∀ z a, (f z a).regs = z.regs) (l : List α) (z : Za) :
    (l.foldl f z).regs = z.regs :=
  List.foldlRecOn (motive := fun x : Za => x.regs = z.regs) l f rfl fun x hx a _ => (hf x a).trans hx

/-- `x` has the tag area and the registers of `z`. -/
def Za.SameMaps (x z : Za) : Prop := x.tag = z.tag ∧ x.regs = z.regs

theorem Za.SameMaps.trans {x y z : Za} (h : x.SameMaps y) (k : y.SameMaps z) : x.SameMaps z :=
  ⟨h.1.trans k.1, h.2.trans k.2⟩

theorem Za.foldl_sameMaps {α : Type} {f : Za → α → Za} (hf : ∀ z a, (f z a).SameMaps z) (l : List α) (z : Za) :
    (l.foldl f z).SameMaps z :=
  ⟨Za.foldl_tag (fun x a => (hf x a).1) l z, Za.foldl_regs (fun x a => (hf x a).2) l z⟩


@[simp] theorem Za.toCollectors_maps (z : Za) (cls msg ctx gen plen : Nat) (body : List W) :
    (z.toCollectors cls msg ctx gen plen body).tag = z.tag ∧
      (z.toCollectors cls msg ctx gen plen body).regs = z.regs := by simp [Za.toCollectors]

@[simp] theorem Za.toSubscribers_maps (z : Za) (e kind cls msg : Nat) (body : List W) :
    (z.toSubscribers e kind cls msg body).tag = z.tag ∧ (z.toSubscribers e kind cls msg body).regs = z.regs := by
  unfold Za.toSubscribers
  split <;> simp

@[simp] theorem Za.finish_maps (z : Za) (handle : W) (r : Result) :
    (z.finish handle r).tag = z.tag ∧ (z.finish handle r).regs = z.regs := by
  unfold Za.finish
  split <;> exact ⟨rfl, rfl⟩

@[simp] theorem Za.stop_maps (z : Za) (smear : Bool) : (z.stop smear).tag = z.tag ∧ (z.stop smear).regs = z.regs := ⟨rfl, rfl⟩

@[simp] theorem Za.armed_maps (z : Za) (frostId : W) (full : Bool) (t : Nat) :
    (z.armed frostId full t).tag = z.tag ∧ (z.armed frostId full t).regs = z.regs := ⟨rfl, rfl⟩

@[simp] theorem Za.frostSend_maps (z : Za) (msg : Nat) (dies : List Nat) (instant : Nat) :
    (z.frostSend msg dies instant).tag = z.tag ∧ (z.frostSend msg dies instant).regs = z.regs := by simp [Za.frostSend]

@[simp] theorem Za.frostBegin_maps (z : Za) (msg instant : Nat) :
    (z.frostBegin msg instant).tag = z.tag ∧ (z.frostBegin msg instant).regs = z.regs := by simp [Za.frostBegin]

@[simp] theorem Za.stopNow_maps (z : Za) (frostId : W) (full : Bool) (except : Option Nat) :
    (z.stopNow frostId full except).tag = z.tag ∧ (z.stopNow frostId full except).regs = z.regs := by simp [Za.stopNow]

@[simp] theorem Za.logFault_maps (z : Za) (record ext : List W) :
    (z.logFault record ext).tag = z.tag ∧ (z.logFault record ext).regs = z.regs := ⟨rfl, rfl⟩

@[simp] theorem Za.sendFault_maps (z : Za) (f : HeldFault) : (z.sendFault f).tag = z.tag ∧ (z.sendFault f).regs = z.regs := by
  unfold Za.sendFault
  dsimp only
  (repeat' split) <;> simp

@[simp] theorem Za.sendFaults_maps (z : Za) : z.sendFaults.tag = z.tag ∧ z.sendFaults.regs = z.regs := by simp [Za.sendFaults]

@[simp] theorem Za.raiseMsg_maps (z : Za) (m : BitVec 128) (ext : List W) :
    (z.raiseMsg m ext).tag = z.tag ∧ (z.raiseMsg m ext).regs = z.regs := by
  unfold Za.raiseMsg
  dsimp only
  (repeat' split) <;> simp

@[simp] theorem Za.raiseF_maps (z : Za) (f : FaultFields) (ext : List W) :
    (z.raiseF f ext).tag = z.tag ∧ (z.raiseF f ext).regs = z.regs := by simp [Za.raiseF]

@[simp] theorem Za.raise_maps (z : Za) (kind : FaultKind) (unitKind : UnitKind) (unit : Nat) (op : FaultOp) (subject detail : Nat) (ext : List W) :
    (z.raise kind unitKind unit op subject detail ext).tag = z.tag ∧ (z.raise kind unitKind unit op subject detail ext).regs = z.regs := by
  simp [Za.raise]

theorem Za.raise_sameMaps (z : Za) (kind : FaultKind) (unitKind : UnitKind) (unit : Nat) (op : FaultOp) (subject detail : Nat)
    (ext : List W) : (z.raise kind unitKind unit op subject detail ext).SameMaps z := Za.raise_maps ..

@[simp] theorem Za.raiseCtx_maps (z : Za) (kind : FaultKind) (unitKind : UnitKind) (unit : Nat) (op : FaultOp) (c : Ctx)
    (subject detail : Nat) (ext : List W) :
    (z.raiseCtx kind unitKind unit op c subject detail ext).tag = z.tag ∧
      (z.raiseCtx kind unitKind unit op c subject detail ext).regs = z.regs := by simp [Za.raiseCtx]

@[simp] theorem Za.raiseFence_maps (z : Za) (unitKind : UnitKind) (unit subject cause loss frame : Nat) (claim : Nat) :
    (z.raiseFence unitKind unit subject cause loss frame claim).tag = z.tag ∧
      (z.raiseFence unitKind unit subject cause loss frame claim).regs = z.regs := by simp [Za.raiseFence]

@[simp] theorem Za.testWaits_maps (z : Za) (i : Nat) : (z.testWaits i).tag = z.tag ∧ (z.testWaits i).regs = z.regs := by
  unfold Za.testWaits
  dsimp only
  (repeat' split) <;> simp [Za.tag_ite, Za.regs_ite]

@[simp] theorem Za.modSync_maps (z : Za) (i : Nat) (f : SyncObj → SyncObj) :
    (z.modSync i f).tag = z.tag ∧ (z.modSync i f).regs = z.regs := by
  unfold Za.modSync
  split <;> simp

@[simp] theorem Za.handleEvent_maps (z : Za) (h : W) :
    (z.handleEvent h).tag = z.tag ∧ (z.handleEvent h).regs = z.regs := by simp [Za.handleEvent]

@[simp] theorem Za.event_maps (z : Za) (id gen : Nat) (src : SyncSource) (n : Nat) :
    (z.event id gen src n).tag = z.tag ∧ (z.event id gen src n).regs = z.regs := by
  unfold Za.event
  split <;> simp

@[simp] theorem Za.issue_maps (z : Za) (i : Nat) : (z.issue i).1.tag = z.tag ∧ (z.issue i).1.regs = z.regs := ⟨rfl, rfl⟩

@[simp] theorem Za.sendRecord_maps (z : Za) (req : Requester) (w1 : W) (rec_ : List W) :
    (z.sendRecord req w1 rec_).tag = z.tag ∧ (z.sendRecord req w1 rec_).regs = z.regs := by simp [Za.sendRecord]

@[simp] theorem Za.replyNow_maps (z : Za) (op : Opcode) (h : HuskCmd) (ckind : Nat) (handle : W) (r : Result) (cache : Bool) :
    (z.replyNow op h ckind handle r cache).tag = z.tag ∧ (z.replyNow op h ckind handle r cache).regs = z.regs := by
  unfold Za.replyNow
  split <;> simp

@[simp] theorem Za.signal_maps (z : Za) (h : Handle) (r : Result) :
    (z.signal h r).1.tag = z.tag ∧ (z.signal h r).1.regs = z.regs := by
  unfold Za.signal
  dsimp only
  (repeat' split) <;> simp

@[simp] theorem Za.postDone_maps (z : Za) (handle : W) : (z.postDone handle).tag = z.tag ∧ (z.postDone handle).regs = z.regs := by
  unfold Za.postDone
  split <;> simp

@[simp] theorem Za.finishWhere_maps (z : Za) (p : Handle → Bool) (signals : Bool) (r : Result) :
    (z.finishWhere p signals r).tag = z.tag ∧ (z.finishWhere p signals r).regs = z.regs := ⟨rfl, rfl⟩

@[simp] theorem Za.relay_maps (z : Za) (die : Nat) (op : Opcode) (h : HuskCmd) (handle : W) (cache : Bool) :
    (z.relay die op h handle cache).tag = z.tag ∧ (z.relay die op h handle cache).regs = z.regs := by simp [Za.relay]

@[simp] theorem Za.relayLong_maps (z : Za) (die : Nat) (op : Opcode) (h : HuskCmd) (handle : W) :
    (z.relayLong die op h handle).tag = z.tag ∧ (z.relayLong die op h handle).regs = z.regs := by
  unfold Za.relayLong
  split <;> simp

@[simp] theorem Za.abandonDie_maps (z : Za) (die : Nat) :
    (z.abandonDie die).tag = z.tag ∧ (z.abandonDie die).regs = z.regs := ⟨rfl, rfl⟩

@[simp] theorem Za.relayReply_maps (z : Za) (r : Relay) (res : Result) :
    (z.relayReply r res).tag = z.tag ∧ (z.relayReply r res).regs = z.regs := by simp [Za.relayReply]

@[simp] theorem Za.ownWrite_maps (z : Za) (die addr : Nat) (ws : List W) :
    (z.ownWrite die addr ws).tag = z.tag ∧ (z.ownWrite die addr ws).regs = z.regs := by simp [Za.ownWrite]

@[simp] theorem Za.endSlot_maps (z : Za) (die ctx gen f : Nat) :
    (z.endSlot die ctx gen f).tag = z.tag ∧ (z.endSlot die ctx gen f).regs = z.regs := ⟨rfl, rfl⟩

@[simp] theorem Za.takeSlot_maps (z : Za) (die ctx gen rank f : Nat) :
    (z.takeSlot die ctx gen rank f).tag = z.tag ∧ (z.takeSlot die ctx gen rank f).regs = z.regs := by
  unfold Za.takeSlot
  split <;> exact ⟨rfl, rfl⟩

@[simp] theorem Za.writeSlot_maps (z : Za) (die : Nat) (x : Nat × Nat) :
    (z.writeSlot die x).tag = z.tag ∧ (z.writeSlot die x).regs = z.regs := by
  unfold Za.writeSlot
  (repeat' split) <;> simp

@[simp] theorem Za.writeSlots_maps (z : Za) (die : Nat) : (z.writeSlots die).tag = z.tag ∧ (z.writeSlots die).regs = z.regs := by
  unfold Za.writeSlots
  split <;> simp

@[simp] theorem Za.slotChanges_maps (z : Za) (ctx gen f : Nat) :
    (z.slotChanges ctx gen f).tag = z.tag ∧ (z.slotChanges ctx gen f).regs = z.regs := by simp [Za.slotChanges]

@[simp] theorem Za.takeLseq_maps (z : Za) (p : Nat) (die : Option Nat) (cls : Nat) (lseq : W) :
    (z.takeLseq p die cls lseq).tag = z.tag ∧ (z.takeLseq p die cls lseq).regs = z.regs := by
  unfold Za.takeLseq
  dsimp only
  (repeat' split) <;> simp

@[simp] theorem Za.capture_maps (z : Za) (p cls : Nat) (f : Frame) :
    (z.capture p cls f).tag = z.tag ∧ (z.capture p cls f).regs = z.regs := by
  unfold Za.capture
  dsimp only
  (repeat' split) <;> simp

@[simp] theorem Za.police_maps (z : Za) (p : Nat) (die : Option Nat) (cls plen : Nat) :
    (z.police p die cls plen).1.tag = z.tag ∧ (z.police p die cls plen).1.regs = z.regs := by
  unfold Za.police
  dsimp only
  (repeat' split) <;> simp

@[simp] theorem Za.endTest_maps (z : Za) (t : LinkTest) :
    (z.endTest t).tag = z.tag ∧ (z.endTest t).regs = z.regs := by simp [Za.endTest]

@[simp] theorem Za.dieDown_maps (z : Za) (die : Nat) : (z.dieDown die).tag = z.tag ∧ (z.dieDown die).regs = z.regs := by
  unfold Za.dieDown
  dsimp only
  (repeat' split) <;> simp

@[simp] theorem Za.linkRestart_maps (z : Za) (p : Nat) : (z.linkRestart p).tag = z.tag ∧ (z.linkRestart p).regs = z.regs := by
  unfold Za.linkRestart
  dsimp only
  (repeat' split) <;> simp

@[simp] theorem Za.sendLinkReset_maps (z : Za) (p : Nat) (die : Option Nat) (reason : Nat) :
    (z.sendLinkReset p die reason).tag = z.tag ∧ (z.sendLinkReset p die reason).regs = z.regs := by
  unfold Za.sendLinkReset
  split <;> simp

@[simp] theorem Za.receive_maps (z : Za) (p : Nat) (f : Frame) : (z.receive p f).1.tag = z.tag ∧ (z.receive p f).1.regs = z.regs := by
  unfold Za.receive
  dsimp only
  (repeat' split) <;> simp

@[simp] theorem Za.sendHello_maps (z : Za) (p : Nat) : (z.sendHello p).tag = z.tag ∧ (z.sendHello p).regs = z.regs := ⟨rfl, rfl⟩

@[simp] theorem Za.linkProgress_maps (z : Za) (p : Nat) :
    (z.linkProgress p).tag = z.tag ∧ (z.linkProgress p).regs = z.regs := ⟨rfl, rfl⟩

@[simp] theorem Za.helloPeer_maps (z : Za) (p : Nat) (f : Frame) :
    (z.helloPeer p f).tag = z.tag ∧ (z.helloPeer p f).regs = z.regs := by
  unfold Za.helloPeer
  dsimp only
  (repeat' split) <;> simp

@[simp] theorem Za.joinFabric_maps (z : Za) (die : Nat) : (z.joinFabric die).tag = z.tag ∧ (z.joinFabric die).regs = z.regs := by
  unfold Za.joinFabric
  dsimp only
  (repeat' split) <;> simp

@[simp] theorem Za.helloDie_maps (z : Za) (p : Nat) (f : Frame) : (z.helloDie p f).tag = z.tag ∧ (z.helloDie p f).regs = z.regs := by
  unfold Za.helloDie
  dsimp only
  (repeat' split) <;> simp [Za.tag_ite, Za.regs_ite]

@[simp] theorem Za.hello_maps (z : Za) (p : Nat) (f : Frame) : (z.hello p f).tag = z.tag ∧ (z.hello p f).regs = z.regs := by
  unfold Za.hello
  dsimp only
  (repeat' split) <;> simp

@[simp] theorem Za.strayCredit_maps (z : Za) (p : Nat) (f : Frame) :
    (z.strayCredit p f).tag = z.tag ∧ (z.strayCredit p f).regs = z.regs := by
  unfold Za.strayCredit
  split <;> exact ⟨rfl, rfl⟩

@[simp] theorem Za.credit_maps (z : Za) (p : Nat) (f : Frame) : (z.credit p f).tag = z.tag ∧ (z.credit p f).regs = z.regs := by
  unfold Za.credit
  dsimp only
  (repeat' split) <;> simp [Za.tag_ite, Za.regs_ite]

@[simp] theorem Za.spend_maps (z : Za) (i : Injection) : (z.spend i).tag = z.tag ∧ (z.spend i).regs = z.regs := ⟨rfl, rfl⟩

@[simp] theorem Za.creditSend_maps (z : Za) (p : Nat) (die : Option Nat) :
    (z.creditSend p die).tag = z.tag ∧ (z.creditSend p die).regs = z.regs := by
  unfold Za.creditSend
  (repeat' split) <;> simp

@[simp] theorem Za.echo_maps (z : Za) (p : Nat) (f : Frame) (residence : W) :
    (z.echo p f residence).tag = z.tag ∧ (z.echo p f residence).regs = z.regs := by
  unfold Za.echo
  dsimp only
  (repeat' split) <;> simp

@[simp] theorem Za.loopReturn_maps (z : Za) (p : Nat) (f : Frame) (trip : Nat) :
    (z.loopReturn p f trip).tag = z.tag ∧ (z.loopReturn p f trip).regs = z.regs := by
  unfold Za.loopReturn
  dsimp only
  (repeat' split) <;> simp

@[simp] theorem Za.echoReply_maps (z : Za) (p : Nat) (f : Frame) (elapsed : W) :
    (z.echoReply p f elapsed).tag = z.tag ∧ (z.echoReply p f elapsed).regs = z.regs := by
  unfold Za.echoReply
  dsimp only
  (repeat' split) <;> simp

@[simp] theorem Za.echoLooped_maps (z : Za) (p : Nat) (f : Frame) (elapsed : W) :
    (z.echoLooped p f elapsed).tag = z.tag ∧ (z.echoLooped p f elapsed).regs = z.regs := by
  unfold Za.echoLooped
  split <;> simp

@[simp] theorem Za.linkResetFrame_maps (z : Za) (p : Nat) (f : Frame) :
    (z.linkResetFrame p f).tag = z.tag ∧ (z.linkResetFrame p f).regs = z.regs := by
  unfold Za.linkResetFrame
  dsimp only
  (repeat' split) <;> simp

@[simp] theorem Za.put_maps (z : Za) (p : Nat) (q : Queued) : (z.put p q).tag = z.tag ∧ (z.put p q).regs = z.regs := by
  unfold Za.put
  extract_lets c e v two ether src t f f1 bad lost f2 pool units bytes charge allow z1 z2 z3
  have h2 : z2.tag = z.tag ∧ z2.regs = z.regs := by simp [z2, z1]
  have h3 : z3.tag = z.tag ∧ z3.regs = z.regs := by
    unfold z3
    clear_value z2 bad
    cases bad <;> simp [h2]
  clear_value z3 lost
  cases lost <;> simp [h3]

@[simp] theorem Za.fetchFrame_maps (z : Za) (p : Nat) (dest : Mac) (msg : Nat) (hdr : List W) (w7 : Nat) (data : List Byte) :
    (z.fetchFrame p dest msg hdr w7 data).tag = z.tag ∧ (z.fetchFrame p dest msg hdr w7 data).regs = z.regs := ⟨rfl, rfl⟩

@[simp] theorem Za.nextChunk_maps (z : Za) (p : Nat) (s : Serving) :
    (z.nextChunk p s).tag = z.tag ∧ (z.nextChunk p s).regs = z.regs := by
  unfold Za.nextChunk
  dsimp only
  (repeat' split) <;> simp

@[simp] theorem Za.topUp_maps (z : Za) (p : Nat) : (z.topUp p).tag = z.tag ∧ (z.topUp p).regs = z.regs := by simp [Za.topUp]

@[simp] theorem Za.feedTest_maps (z : Za) (p : Nat) : (z.feedTest p).tag = z.tag ∧ (z.feedTest p).regs = z.regs := by
  unfold Za.feedTest
  dsimp only
  (repeat' split) <;> simp

@[simp] theorem Za.transmit_maps (z : Za) (p : Nat) : (z.transmit p).tag = z.tag ∧ (z.transmit p).regs = z.regs := by
  unfold Za.transmit
  dsimp only
  (repeat' split) <;> simp

@[simp] theorem Za.eccClear_maps (z : Za) : z.eccClear.tag = z.tag ∧ z.eccClear.regs = z.regs := ⟨rfl, rfl⟩

@[simp] theorem Za.earn_maps (z : Za) (status : Nat) : (z.earn status).tag = z.tag ∧ (z.earn status).regs = z.regs := ⟨rfl, rfl⟩

@[simp] theorem Za.markWrite_maps (z : Za) (i k : Nat) (w : W) :
    (z.markWrite i k w).1.tag = z.tag ∧ (z.markWrite i k w).1.regs = z.regs := by
  unfold Za.markWrite
  dsimp only
  (repeat' split) <;> simp

@[simp] theorem Za.creditSendRow_maps (z : Za) (p die : Nat) :
    (z.creditSendRow p die).tag = z.tag ∧ (z.creditSendRow p die).regs = z.regs := by
  unfold Za.creditSendRow
  (repeat' split) <;> simp

@[simp] theorem Za.modPtp_maps (z : Za) (p : Nat) (f : PtpPort → PtpPort) :
    (z.modPtp p f).tag = z.tag ∧ (z.modPtp p f).regs = z.regs := ⟨rfl, rfl⟩

@[simp] theorem Za.ptpSend_maps (z : Za) (p : Nat) (m : PtpOut) : (z.ptpSend p m).tag = z.tag ∧ (z.ptpSend p m).regs = z.regs := by
  unfold Za.ptpSend
  dsimp only
  (repeat' split) <;> simp

@[simp] theorem Za.ptpLeave_maps (z : Za) (p : Nat) (m : PtpOut) : (z.ptpLeave p m).tag = z.tag ∧ (z.ptpLeave p m).regs = z.regs := by
  unfold Za.ptpLeave
  split <;> simp

@[simp] theorem Za.transmitNext_maps (z : Za) (p : Nat) : (z.transmitNext p).tag = z.tag ∧ (z.transmitNext p).regs = z.regs := by
  unfold Za.transmitNext
  (repeat' split) <;> simp

@[simp] theorem Za.linkLost_maps (z : Za) (p : Nat) : (z.linkLost p).tag = z.tag ∧ (z.linkLost p).regs = z.regs := by
  unfold Za.linkLost
  dsimp only
  (repeat' split) <;> simp

@[simp] theorem Za.forwardFill_maps (z : Za) (f : Nat) :
    (z.forwardFill f).tag = z.tag ∧ (z.forwardFill f).regs = z.regs := by simp [Za.forwardFill]

@[simp] theorem Za.reach_maps (z : Za) (ns : Nat) : (z.reach ns).tag = z.tag ∧ (z.reach ns).regs = z.regs := ⟨rfl, rfl⟩

@[simp] theorem Za.stepMarks_maps (z : Za) : z.stepMarks.tag = z.tag ∧ z.stepMarks.regs = z.regs := ⟨rfl, rfl⟩

@[simp] theorem Za.timeEvents_maps (z : Za) (es : List TimeEvent) :
    (z.timeEvents es).tag = z.tag ∧ (z.timeEvents es).regs = z.regs := by
  induction es generalizing z with
  | nil => exact ⟨rfl, rfl⟩
  | cons ev es ih => cases ev <;> simp [Za.timeEvents, ih]

@[simp] theorem Za.withTime_maps (z : Za) (p : TimeUnit × List TimeEvent) :
    (z.withTime p).tag = z.tag ∧ (z.withTime p).regs = z.regs := by
  simp [Za.withTime]

@[simp] theorem Za.edge_maps (z : Za) : z.edge.tag = z.tag ∧ z.edge.regs = z.regs := by
  unfold Za.edge
  split <;> exact ⟨rfl, rfl⟩

@[simp] theorem Za.runBmc_maps (z : Za) : z.runBmc.tag = z.tag ∧ z.runBmc.regs = z.regs := by
  unfold Za.runBmc
  dsimp only
  (repeat' split) <;> simp

@[simp] theorem Za.sample_maps (z : Za) (free : Nat) (far : Bool) (offset : Int) :
    (z.sample free far offset).tag = z.tag ∧ (z.sample free far offset).regs = z.regs := by
  unfold Za.sample
  dsimp only
  (repeat' split) <;> simp

@[simp] theorem Za.syncDone_maps (z : Za) (free p : Nat) (source : BitVec 64) (origin : Stamp) (ingress : Stamp) :
    (z.syncDone free p source origin ingress).tag = z.tag ∧ (z.syncDone free p source origin ingress).regs = z.regs := by
  unfold Za.syncDone
  dsimp only
  (repeat' split) <;> simp

@[simp] theorem Za.ptpMessage_maps (z : Za) (free p : Nat) (domain : Byte) (source : BitVec 64) (m : PtpMsg) :
    (z.ptpMessage free p domain source m).tag = z.tag ∧ (z.ptpMessage free p domain source m).regs = z.regs := by
  unfold Za.ptpMessage
  dsimp only
  (repeat' split) <;> simp

@[simp] theorem Za.announceTimeout_maps (z : Za) (p : Nat) :
    (z.announceTimeout p).tag = z.tag ∧ (z.announceTimeout p).regs = z.regs := by
  unfold Za.announceTimeout
  split <;> simp

@[simp] theorem Za.intervalEnds_maps (z : Za) (p : Nat) : (z.intervalEnds p).tag = z.tag ∧ (z.intervalEnds p).regs = z.regs := by
  unfold Za.intervalEnds
  (repeat' split) <;> simp

@[simp] theorem Za.ptpInterval_maps (z : Za) (p : Nat) : (z.ptpInterval p).tag = z.tag ∧ (z.ptpInterval p).regs = z.regs := by
  unfold Za.ptpInterval
  dsimp only
  (repeat' split) <;> simp

@[simp] theorem Za.parentChange_maps (z : Za) (p : Nat) (identity : BitVec 64) (offset : Int) :
    (z.parentChange p identity offset).tag = z.tag ∧ (z.parentChange p identity offset).regs = z.regs := by
  unfold Za.parentChange
  dsimp only
  (repeat' split) <;> simp

@[simp] theorem Za.holdoverEntry_maps (z : Za) : z.holdoverEntry.tag = z.tag ∧ z.holdoverEntry.regs = z.regs := by
  unfold Za.holdoverEntry
  split <;> simp

@[simp] theorem Za.applyStep_maps (z : Za) (a : ArmedStep) : (z.applyStep a).tag = z.tag ∧ (z.applyStep a).regs = z.regs := by
  unfold Za.applyStep
  dsimp only
  (repeat' split) <;> simp

@[simp] theorem Za.stepNow_maps (z : Za) : z.stepNow.tag = z.tag ∧ z.stepNow.regs = z.regs := by
  unfold Za.stepNow
  (repeat' split) <;> simp

@[simp] theorem Za.straySync_maps (z : Za) (die p : Nat) : (z.straySync die p).tag = z.tag ∧ (z.straySync die p).regs = z.regs := by
  unfold Za.straySync
  (repeat' split) <;> simp

@[simp] theorem Za.timeSyncSend_maps (z : Za) (die : Nat) :
    (z.timeSyncSend die).tag = z.tag ∧ (z.timeSyncSend die).regs = z.regs := by
  unfold Za.timeSyncSend
  dsimp only
  (repeat' split) <;> simp [Za.tag_ite, Za.regs_ite]

@[simp] theorem Za.timeEcho_maps (z : Za) (p : Nat) (f : Frame) (stamp : Stamp) :
    (z.timeEcho p f stamp).tag = z.tag ∧ (z.timeEcho p f stamp).regs = z.regs := by
  unfold Za.timeEcho
  dsimp only
  (repeat' split) <;> simp

@[simp] theorem Za.timeMark_maps (z : Za) (i : Nat) : (z.timeMark i).tag = z.tag ∧ (z.timeMark i).regs = z.regs := by
  unfold Za.timeMark
  dsimp only
  (repeat' split) <;> simp

@[simp] theorem Za.refuse_maps (z : Za) (r : Result) : (z.refuse r).1.tag = z.tag ∧ (z.refuse r).1.regs = z.regs := ⟨rfl, rfl⟩

@[simp] theorem Za.ok_maps (z : Za) : z.ok.1.tag = z.tag ∧ z.ok.1.regs = z.regs := ⟨rfl, rfl⟩

theorem Za.withCtx_maps {z : Za} (h : HuskCmd) {f : Nat → Ctx → ZaBody}
    (hf : ∀ e c, (f e c).1.tag = z.tag ∧ (f e c).1.regs = z.regs) :
    (z.withCtx h f).1.tag = z.tag ∧ (z.withCtx h f).1.regs = z.regs := by
  unfold Za.withCtx
  split
  · exact hf ..
  · exact ⟨rfl, rfl⟩

@[simp] theorem Za.syncAlloc_maps (z : Za) (h : HuskCmd) : (z.syncAlloc h).1.tag = z.tag ∧ (z.syncAlloc h).1.regs = z.regs := by
  unfold Za.syncAlloc
  refine Za.withCtx_maps h fun e c => ?_
  dsimp only
  (repeat' split) <;> simp

@[simp] theorem Za.syncFree_maps (z : Za) (h : HuskCmd) : (z.syncFree h).1.tag = z.tag ∧ (z.syncFree h).1.regs = z.regs := by
  unfold Za.syncFree
  dsimp only
  (repeat' split) <;> simp

@[simp] theorem Za.syncSet_maps (z : Za) (h : HuskCmd) : (z.syncSet h).1.tag = z.tag ∧ (z.syncSet h).1.regs = z.regs := by
  unfold Za.syncSet
  split <;> simp

@[simp] theorem Za.syncAdd_maps (z : Za) (h : HuskCmd) : (z.syncAdd h).1.tag = z.tag ∧ (z.syncAdd h).1.regs = z.regs := by
  unfold Za.syncAdd
  (repeat' split) <;> simp

@[simp] theorem Za.syncWait_maps (z : Za) (h : HuskCmd) (handle : W) :
    (z.syncWait h handle).1.tag = z.tag ∧ (z.syncWait h handle).1.regs = z.regs := by
  unfold Za.syncWait
  dsimp only
  (repeat' split) <;> simp

@[simp] theorem Za.syncBind_maps (z : Za) (h : HuskCmd) : (z.syncBind h).1.tag = z.tag ∧ (z.syncBind h).1.regs = z.regs := by
  unfold Za.syncBind
  dsimp only
  (repeat' split) <;> simp

@[simp] theorem Za.syncRead_maps (z : Za) (h : HuskCmd) : (z.syncRead h).1.tag = z.tag ∧ (z.syncRead h).1.regs = z.regs := by
  unfold Za.syncRead
  dsimp only
  (repeat' split) <;> simp

@[simp] theorem Za.ctxAdmit_maps (z : Za) (h : HuskCmd) (handle : W) :
    (z.ctxAdmit h handle).1.tag = z.tag ∧ (z.ctxAdmit h handle).1.regs = z.regs := by
  unfold Za.ctxAdmit
  dsimp only
  (repeat' split) <;> simp

@[simp] theorem Za.ctxTeardown_maps (z : Za) (h : HuskCmd) (handle : W) :
    (z.ctxTeardown h handle).1.tag = z.tag ∧ (z.ctxTeardown h handle).1.regs = z.regs := by
  unfold Za.ctxTeardown
  refine Za.withCtx_maps h fun e c => ?_
  dsimp only
  (repeat' split) <;> simp

@[simp] theorem Za.ctxQuota_maps (z : Za) (h : HuskCmd) : (z.ctxQuota h).1.tag = z.tag ∧ (z.ctxQuota h).1.regs = z.regs := by
  unfold Za.ctxQuota
  refine Za.withCtx_maps h fun e c => ?_
  dsimp only
  (repeat' split) <;> simp

@[simp] theorem Za.endEntry_maps (z : Za) (c : Ctx) (f : Nat) (standing : List Member) (e : MemberEntry) :
    (z.endEntry c f standing e).tag = z.tag ∧ (z.endEntry c f standing e).regs = z.regs := by
  unfold Za.endEntry
  split <;> exact ⟨rfl, rfl⟩

@[simp] theorem Za.slotEntry_maps (z : Za) (c : Ctx) (f : Nat) (e : MemberEntry) :
    (z.slotEntry c f e).tag = z.tag ∧ (z.slotEntry c f e).regs = z.regs := by
  unfold Za.slotEntry
  split <;> simp

@[simp] theorem Za.membership_maps (z : Za) (h : HuskCmd) (handle : W) :
    (z.membership h handle).1.tag = z.tag ∧ (z.membership h handle).1.regs = z.regs := by
  unfold Za.membership
  refine Za.withCtx_maps h fun e c => ?_
  dsimp only
  (repeat' split) <;> simp

@[simp] theorem Za.acceptPlan_maps (z : Za) (e : Nat) (c : Ctx) (kind : PlanKind) (f : Nat) (words : List W) (handle : W) :
    (z.acceptPlan e c kind f words handle).1.tag = z.tag ∧ (z.acceptPlan e c kind f words handle).1.regs = z.regs := by
  unfold Za.acceptPlan
  (repeat' split) <;> simp

@[simp] theorem Za.podPlan_maps (z : Za) (h : HuskCmd) (handle : W) :
    (z.podPlan h handle).1.tag = z.tag ∧ (z.podPlan h handle).1.regs = z.regs := by
  unfold Za.podPlan
  refine Za.withCtx_maps h fun e c => ?_
  dsimp only
  (repeat' split) <;> simp

@[simp] theorem Za.declareSwap_maps (z : Za) (h : HuskCmd) : (z.declareSwap h).1.tag = z.tag ∧ (z.declareSwap h).1.regs = z.regs := by
  unfold Za.declareSwap
  refine Za.withCtx_maps h fun e c => ?_
  dsimp only
  (repeat' split) <;> simp

@[simp] theorem Za.digestLoad_maps (z : Za) (h : HuskCmd) : (z.digestLoad h).1.tag = z.tag ∧ (z.digestLoad h).1.regs = z.regs := by
  unfold Za.digestLoad
  refine Za.withCtx_maps h fun e c => ?_
  dsimp only
  (repeat' split) <;> simp

@[simp] theorem Za.subscribe_maps (z : Za) (h : HuskCmd) : (z.subscribe h).1.tag = z.tag ∧ (z.subscribe h).1.regs = z.regs := by
  unfold Za.subscribe
  refine Za.withCtx_maps h fun e c => ?_
  dsimp only
  (repeat' split) <;> simp

@[simp] theorem Za.timeResync_maps (z : Za) : z.timeResync.1.tag = z.tag ∧ z.timeResync.1.regs = z.regs := by
  unfold Za.timeResync
  split <;> exact ⟨rfl, rfl⟩

@[simp] theorem Za.timeStep_maps (z : Za) (h : HuskCmd) : (z.timeStep h).1.tag = z.tag ∧ (z.timeStep h).1.regs = z.regs := by
  unfold Za.timeStep
  dsimp only
  (repeat' split) <;> simp

@[simp] theorem Za.bootAsk_maps (z : Za) : z.bootAsk.tag = z.tag ∧ z.bootAsk.regs = z.regs := by
  unfold Za.bootAsk
  split <;> exact ⟨rfl, rfl⟩

@[simp] theorem Za.bootNext_maps (z : Za) : z.bootNext.tag = z.tag ∧ z.bootNext.regs = z.regs := by
  unfold Za.bootNext
  dsimp only
  (repeat' split) <;> simp

@[simp] theorem Za.bootFail_maps (z : Za) (error : Nat) :
    (z.bootFail error).tag = z.tag ∧ (z.bootFail error).regs = z.regs := by simp [Za.bootFail]

@[simp] theorem Za.bootStart_maps (z : Za) : z.bootStart.tag = z.tag ∧ z.bootStart.regs = z.regs := by simp [Za.bootStart]

@[simp] theorem Za.bootBytes_maps (z : Za) (offset : Nat) (bs : List Byte) :
    (z.bootBytes offset bs).tag = z.tag ∧ (z.bootBytes offset bs).regs = z.regs := by
  unfold Za.bootBytes
  dsimp only
  (repeat' split) <;> simp

@[simp] theorem Za.bootOffer_maps (z : Za) (f : Frame) : (z.bootOffer f).tag = z.tag ∧ (z.bootOffer f).regs = z.regs := by
  unfold Za.bootOffer
  split <;> exact ⟨rfl, rfl⟩

@[simp] theorem Za.bootChunk_maps (z : Za) (f : Frame) : (z.bootChunk f).tag = z.tag ∧ (z.bootChunk f).regs = z.regs := by
  unfold Za.bootChunk
  dsimp only
  (repeat' split) <;> simp

@[simp] theorem Za.bootTimeout_maps (z : Za) (stalled : Bool) :
    (z.bootTimeout stalled).tag = z.tag ∧ (z.bootTimeout stalled).regs = z.regs := by
  unfold Za.bootTimeout
  split <;> simp

@[simp] theorem Za.bootRound_maps (z : Za) : z.bootRound.tag = z.tag ∧ z.bootRound.regs = z.regs := by
  unfold Za.bootRound
  split <;> simp

@[simp] theorem Za.loadReq_maps (z : Za) (length : Nat) : (z.loadReq length).tag = z.tag ∧ (z.loadReq length).regs = z.regs := by
  unfold Za.loadReq
  split <;> exact ⟨rfl, rfl⟩

@[simp] theorem Za.loadData_maps (z : Za) (offset : Nat) (bs : List Byte) :
    (z.loadData offset bs).tag = z.tag ∧ (z.loadData offset bs).regs = z.regs := by
  unfold Za.loadData
  split <;> simp

@[simp] theorem Za.untilNs_maps (z : Za) (ns : Nat) : (z.untilNs ns).tag = z.tag ∧ (z.untilNs ns).regs = z.regs := by
  unfold Za.untilNs
  dsimp only
  (repeat' split) <;> simp

@[simp] theorem Za.sendRed_maps (z : Za) (agg msg ctx gen : Nat) (ws : List W) :
    (z.sendRed agg msg ctx gen ws).tag = z.tag ∧ (z.sendRed agg msg ctx gen ws).regs = z.regs := by simp [Za.sendRed]

@[simp] theorem Za.deliverOut_maps (z : Za) (e : Nat) (ws : List W) :
    (z.deliverOut e ws).tag = z.tag ∧ (z.deliverOut e ws).regs = z.regs := by simp [Za.deliverOut]

@[simp] theorem Za.passSeq_maps (z : Za) (e ch : Nat) : (z.passSeq e ch).tag = z.tag ∧ (z.passSeq e ch).regs = z.regs := by
  unfold Za.passSeq
  split <;> simp

@[simp] theorem Za.drainHeld_maps (e ch n : Nat) (z : Za) :
    (Za.drainHeld e ch n z).tag = z.tag ∧ (Za.drainHeld e ch n z).regs = z.regs := by
  induction n generalizing z with
  | zero => exact ⟨rfl, rfl⟩
  | succ n ih =>
    unfold Za.drainHeld
    dsimp only
    (repeat' split) <;> simp [ih]

@[simp] theorem Za.skipSeq_maps (z : Za) (e ch : Nat) : (z.skipSeq e ch).tag = z.tag ∧ (z.skipSeq e ch).regs = z.regs := by
  unfold Za.skipSeq
  split <;> simp

@[simp] theorem Za.makeRoom_maps (e ch seq n : Nat) (z : Za) :
    (Za.makeRoom e ch seq n z).tag = z.tag ∧ (Za.makeRoom e ch seq n z).regs = z.regs := by
  induction n generalizing z with
  | zero => exact ⟨rfl, rfl⟩
  | succ n ih =>
    unfold Za.makeRoom
    (repeat' split) <;> simp [ih]

@[simp] theorem Za.reorder_maps (z : Za) (e : Nat) (r : PodRec) : (z.reorder e r).tag = z.tag ∧ (z.reorder e r).regs = z.regs := by
  unfold Za.reorder
  dsimp only
  (repeat' split) <;> simp

@[simp] theorem Za.deliver_maps (z : Za) (e : Nat) (r : PodRec) : (z.deliver e r).tag = z.tag ∧ (z.deliver e r).regs = z.regs := by
  unfold Za.deliver
  (repeat' split) <;> simp

@[simp] theorem Za.lateItem_maps (z : Za) (e f phase n deadline : Nat) :
    (z.lateItem e f phase n deadline).tag = z.tag ∧ (z.lateItem e f phase n deadline).regs = z.regs := by
  unfold Za.lateItem
  split <;> exact ⟨rfl, rfl⟩

@[simp] theorem Za.modPod_maps (z : Za) (e f i rerun : Nat) (g : Pod → Pod) :
    (z.modPod e f i rerun g).tag = z.tag ∧ (z.modPod e f i rerun g).regs = z.regs := ⟨rfl, rfl⟩

@[simp] theorem Za.finalHere_maps (z : Za) (e : Nat) (w : FrameWork) (t : FabTree) (p : Pod) (r : PodRec) :
    (z.finalHere e w t p r).tag = z.tag ∧ (z.finalHere e w t p r).regs = z.regs := by simp [Za.finalHere]

@[simp] theorem Za.countAbsent_maps (z : Za) (e : Nat) (w : FrameWork) (p : Pod) :
    (z.countAbsent e w p).tag = z.tag ∧ (z.countAbsent e w p).regs = z.regs := by
  unfold Za.countAbsent
  split <;> simp [List.foldl]

@[simp] theorem Za.progressPod_maps (z : Za) (e f i rerun : Nat) :
    (z.progressPod e f i rerun).tag = z.tag ∧ (z.progressPod e f i rerun).regs = z.regs := by
  unfold Za.progressPod
  dsimp only
  (repeat' split) <;> simp

@[simp] theorem Za.progress_maps (z : Za) (e f : Nat) : (z.progress e f).tag = z.tag ∧ (z.progress e f).regs = z.regs := by
  unfold Za.progress
  split <;> simp

@[simp] theorem Za.openPod_maps (z : Za) (e : Nat) (c : Ctx) (v : CtxView) (i : Nat) :
    (z.openPod e c v i).tag = z.tag ∧ (z.openPod e c v i).regs = z.regs := ⟨rfl, rfl⟩

@[simp] theorem Za.beginWork_maps (z : Za) (e : Nat) (c : Ctx) (v : CtxView) :
    (z.beginWork e c v).tag = z.tag ∧ (z.beginWork e c v).regs = z.regs := by simp [Za.beginWork]

@[simp] theorem Za.passReplay_maps (z : Za) (req : Requester) (c : Ctx) (ws : List W) :
    (z.passReplay req c ws).tag = z.tag ∧ (z.passReplay req c ws).regs = z.regs := by
  unfold Za.passReplay
  split <;> exact ⟨rfl, rfl⟩

@[simp] theorem Za.takeReplay_maps (z : Za) (e : Nat) (c : Ctx) (die : Nat) (ws : List W) :
    (z.takeReplay e c die ws).tag = z.tag ∧ (z.takeReplay e c die ws).regs = z.regs := by
  unfold Za.takeReplay
  dsimp only
  (repeat' split) <;> simp

@[simp] theorem Za.contribution_maps (z : Za) (die ns : Nat) (ws : List W) :
    (z.contribution die ns ws).tag = z.tag ∧ (z.contribution die ns ws).regs = z.regs := by
  unfold Za.contribution
  split
  · simp
  next e _ =>
    split
    · simp
    · split
      · simp
      · split
        · simp
        · extract_lets key expect put
          have hput : ∀ k, (put k).tag = z.tag ∧ (put k).regs = z.regs := fun k => by simp [put]
          (repeat' split) <;> simp [hput]

@[simp] theorem Za.contrib_maps (z : Za) (p : Nat) (f : Frame) (arrival : Nat) :
    (z.contrib p f arrival).tag = z.tag ∧ (z.contrib p f arrival).regs = z.regs := by
  unfold Za.contrib
  dsimp only
  (repeat' split) <;> simp

@[simp] theorem Za.absenceRun_maps (z : Za) (e : Nat) (c : Ctx) (w : FrameWork) (die : Nat) :
    (z.absenceRun e c w die).tag = z.tag ∧ (z.absenceRun e c w die).regs = z.regs := by
  unfold Za.absenceRun
  dsimp only
  (repeat' split) <;> simp

@[simp] theorem Za.trayDeadline_maps (z : Za) (e : Nat) : (z.trayDeadline e).tag = z.tag ∧ (z.trayDeadline e).regs = z.regs := by
  unfold Za.trayDeadline
  (repeat' split) <;> simp

@[simp] theorem Za.partialIn_maps (z : Za) (ns : Nat) (ws : List W) :
    (z.partialIn ns ws).tag = z.tag ∧ (z.partialIn ns ws).regs = z.regs := by
  unfold Za.partialIn
  dsimp only
  (repeat' split) <;> simp

theorem Za.redFrame_maps (z : Za) (p : Nat) (f : Frame) (msg : Nat) {g : Za → List W → Za}
    (hg : ∀ x ws, (g x ws).tag = x.tag ∧ (g x ws).regs = x.regs) :
    (z.redFrame p f msg g).tag = z.tag ∧ (z.redFrame p f msg g).regs = z.regs := by
  unfold Za.redFrame
  dsimp only
  (repeat' split) <;> simp [hg]

@[simp] theorem Za.childRun_maps (z : Za) (e : Nat) (c : Ctx) (w : FrameWork) (t : FabTree) (h : Nat) :
    (z.childRun e c w t h).tag = z.tag ∧ (z.childRun e c w t h).regs = z.regs := by
  unfold Za.childRun
  dsimp only
  (repeat' split) <;> simp

@[simp] theorem Za.judgeChild_maps (z : Za) (e f h : Nat) :
    (z.judgeChild e f h).tag = z.tag ∧ (z.judgeChild e f h).regs = z.regs := by
  unfold Za.judgeChild
  (repeat' split) <;> simp

@[simp] theorem Za.nodeDeadline_maps (z : Za) (e h : Nat) :
    (z.nodeDeadline e h).tag = z.tag ∧ (z.nodeDeadline e h).regs = z.regs := by
  unfold Za.nodeDeadline
  dsimp only
  (repeat' split) <;> simp

@[simp] theorem Za.finalDown_maps (z : Za) (v : Option CtxView) (r : PodRec) :
    (z.finalDown v r).tag = z.tag ∧ (z.finalDown v r).regs = z.regs := by
  unfold Za.finalDown
  split <;> simp

@[simp] theorem Za.finalIn_maps (z : Za) (ws : List W) : (z.finalIn ws).tag = z.tag ∧ (z.finalIn ws).regs = z.regs := by
  unfold Za.finalIn
  (repeat' split) <;> simp

@[simp] theorem Za.takeUp_maps (z : Za) : z.takeUp.tag = z.tag ∧ z.takeUp.regs = z.regs := by simp [Za.takeUp]

@[simp] theorem Za.skipTo_maps (e ch n limit : Nat) (z : Za) :
    (Za.skipTo e ch n limit z).tag = z.tag ∧ (Za.skipTo e ch n limit z).regs = z.regs := by
  induction n generalizing z with
  | zero => exact ⟨rfl, rfl⟩
  | succ n ih =>
    unfold Za.skipTo
    dsimp only
    (repeat' split) <;> simp [ih]

@[simp] theorem Za.reorderSkip_maps (z : Za) (e ch : Nat) :
    (z.reorderSkip e ch).tag = z.tag ∧ (z.reorderSkip e ch).regs = z.regs := by
  unfold Za.reorderSkip
  dsimp only
  (repeat' split) <;> simp

@[simp] theorem Za.slotGrant_maps (z : Za) (e : Nat) : (z.slotGrant e).tag = z.tag ∧ (z.slotGrant e).regs = z.regs := by
  unfold Za.slotGrant
  (repeat' split) <;> simp

@[simp] theorem Za.podRerun_maps (z : Za) (e f i : Nat) : (z.podRerun e f i).tag = z.tag ∧ (z.podRerun e f i).regs = z.regs := by
  unfold Za.podRerun
  dsimp only
  (repeat' split) <;> simp

@[simp] theorem Za.resultHistory_maps (z : Za) (h : HuskCmd) :
    (z.resultHistory h).1.tag = z.tag ∧ (z.resultHistory h).1.regs = z.regs := by
  unfold Za.resultHistory
  refine Za.withCtx_maps h fun e c => ?_
  (repeat' split) <;> simp

@[simp] theorem Za.checkLoss_maps (z : Za) : z.checkLoss.tag = z.tag ∧ z.checkLoss.regs = z.regs := by
  unfold Za.checkLoss
  (repeat' split) <;> simp

@[simp] theorem Za.fenceQuadrant_maps (z : Za) (q : Nat) (cause : Option FaultKind) :
    (z.fenceQuadrant q cause).tag = z.tag ∧ (z.fenceQuadrant q cause).regs = z.regs := by
  unfold Za.fenceQuadrant
  (repeat' split) <;> simp

/-- The fault raised is abstracted first: the kernel would compute its message. -/
theorem Za.ensQuadrant_sameMaps (z : Za) (q : Nat) : (z.ensQuadrant q).SameMaps z := by
  unfold Za.ensQuadrant
  refine Za.SameMaps.trans ?_ (z.raise_sameMaps .ensQuadrant .quadrant q .none 0 0 [])
  generalize z.raise .ensQuadrant .quadrant q .none 0 0 [] = x
  revert x
  refine id fun x => ?_
  dsimp only
  split <;> exact ⟨by simp, by simp⟩

@[simp] theorem Za.ensQuadrant_maps (z : Za) (q : Nat) : (z.ensQuadrant q).tag = z.tag ∧ (z.ensQuadrant q).regs = z.regs :=
  z.ensQuadrant_sameMaps q

@[simp] theorem Za.fenceLane_maps (z : Za) (l loss frame : Nat) (cause : Option FaultKind) :
    (z.fenceLane l loss frame cause).tag = z.tag ∧ (z.fenceLane l loss frame cause).regs = z.regs := by
  unfold Za.fenceLane
  dsimp only
  (repeat' split) <;> simp

@[simp] theorem Za.fenceTile_maps (z : Za) (t : Nat) (cause : Option FaultKind) :
    (z.fenceTile t cause).tag = z.tag ∧ (z.fenceTile t cause).regs = z.regs := by
  unfold Za.fenceTile
  dsimp only
  (repeat' split) <;> simp

@[simp] theorem Za.fenceChannel_maps (z : Za) (c : Nat) (cause : Option FaultKind) :
    (z.fenceChannel c cause).tag = z.tag ∧ (z.fenceChannel c cause).regs = z.regs := by
  unfold Za.fenceChannel
  dsimp only
  (repeat' split) <;> simp

@[simp] theorem Za.fenceLink_maps (z : Za) (p : Nat) (cause : Option FaultKind) :
    (z.fenceLink p cause).tag = z.tag ∧ (z.fenceLink p cause).regs = z.regs := by
  unfold Za.fenceLink
  split <;> simp

@[simp] theorem Za.fenceCore_maps (z : Za) (c : Nat) (cause : Option FaultKind) :
    (z.fenceCore c cause).tag = z.tag ∧ (z.fenceCore c cause).regs = z.regs := by
  unfold Za.fenceCore
  dsimp only
  (repeat' split) <;> simp

@[simp] theorem Za.commandTo_maps (z : Za) (agg : Nat) (op : Opcode) (handle : W) (p0 p1 : Nat) (payload : List W) :
    (z.commandTo agg op handle p0 p1 payload).tag = z.tag ∧ (z.commandTo agg op handle p0 p1 payload).regs = z.regs := ⟨rfl, rfl⟩

@[simp] theorem Za.askFence_maps (z : Za) (u : UnitName) (handle : W) :
    (z.askFence u handle).tag = z.tag ∧ (z.askFence u handle).regs = z.regs := by
  unfold Za.askFence
  dsimp only
  (repeat' split) <;> simp

theorem Za.take_maps {z : Za} {op : Opcode} {h : HuskCmd} {chain : Option Chain} {parked : Bool} {relay : Option Nat}
    {p : Za × W} (ht : z.take op h chain parked relay = some p) : p.1.tag = z.tag ∧ p.1.regs = z.regs := by
  unfold Za.take at ht
  obtain ⟨i, -, rfl⟩ := Option.map_eq_some_iff.mp ht
  simp

@[simp] theorem Za.ownLong_maps (z : Za) (die : Nat) (op : Opcode) (p0 p1 : Nat) (payload : List W) (ctx : W) :
    (z.ownLong die op p0 p1 payload ctx).tag = z.tag ∧ (z.ownLong die op p0 p1 payload ctx).regs = z.regs := by
  unfold Za.ownLong
  dsimp only
  split
  next p ht => simp [Za.take_maps ht]
  · exact ⟨rfl, rfl⟩

@[simp] theorem Za.setCluster_maps (z : Za) (die c : Nat) (on : Bool) (cause : Nat) :
    (z.setCluster die c on cause).tag = z.tag ∧ (z.setCluster die c on cause).regs = z.regs := by
  unfold Za.setCluster
  dsimp only
  (repeat' split) <;> simp

@[simp] theorem Za.fenceDie_maps (z : Za) (die cause frame : Nat) :
    (z.fenceDie die cause frame).tag = z.tag ∧ (z.fenceDie die cause frame).regs = z.regs := by
  unfold Za.fenceDie
  (repeat' split) <;> simp

@[simp] theorem Za.featureRow_maps (z : Za) (dom : Nat → Nat → Nat) (e : Nat) (tile : Bool) (index : Nat) :
    (z.featureRow dom e tile index).tag = z.tag ∧ (z.featureRow dom e tile index).regs = z.regs := by
  unfold Za.featureRow
  dsimp only
  (repeat' split) <;> simp

@[simp] theorem Za.writeExternal_maps (z : Za) (dom : Nat → Nat → Nat) (e f : Nat) (key : W) (first : Nat) (ws : List W) :
    (z.writeExternal dom e f key first ws).tag = z.tag ∧ (z.writeExternal dom e f key first ws).regs = z.regs := by
  unfold Za.writeExternal
  dsimp only
  (repeat' split) <;> simp

@[simp] theorem Za.keepExternal_maps (z : Za) (c : Ctx) (f : Nat) (key : W) (first : Nat) (ws : List W) :
    (z.keepExternal c f key first ws).tag = z.tag ∧ (z.keepExternal c f key first ws).regs = z.regs := ⟨rfl, rfl⟩

@[simp] theorem Za.featWrite_maps (z : Za) (dom : Nat → Nat → Nat) (h : HuskCmd) :
    (z.featWrite dom h).1.tag = z.tag ∧ (z.featWrite dom h).1.regs = z.regs := by
  unfold Za.featWrite
  refine Za.withCtx_maps h fun e c => ?_
  dsimp only
  (repeat' split) <;> simp

@[simp] theorem Za.featPlan_maps (z : Za) (h : HuskCmd) (handle : W) :
    (z.featPlan h handle).1.tag = z.tag ∧ (z.featPlan h handle).1.regs = z.regs := by
  unfold Za.featPlan
  refine Za.withCtx_maps h fun e c => ?_
  dsimp only
  (repeat' split) <;> simp

@[simp] theorem Za.stagingExpiry_maps (z : Za) (e : Nat) (tile : Bool) :
    (z.stagingExpiry e tile).tag = z.tag ∧ (z.stagingExpiry e tile).regs = z.regs := by simp [Za.stagingExpiry]

@[simp] theorem Za.laneUpset_maps (z : Za) (lane : Nat) (s : Sec) (row : List W) (tree : Nat) (u : Option Nat) :
    (z.laneUpset lane s row tree u).1.tag = z.tag ∧ (z.laneUpset lane s row tree u).1.regs = z.regs := by
  unfold Za.laneUpset
  split <;> exact ⟨rfl, rfl⟩

@[simp] theorem Za.checkItem_maps (z : Za) (e : Nat) (c : Ctx) (w : FrameWork) (s : Sec) (x : ItemDone) (sound : Walk)
    (u : WalkUpset) :
    (z.checkItem e c w s x sound u).tag = z.tag ∧ (z.checkItem e c w s x sound u).regs = z.regs := by
  unfold Za.checkItem
  dsimp only
  (repeat' split) <;> simp

@[simp] theorem Za.ensembleItem_maps (z : Za) (e score entity tree lane : Nat) (u : WalkUpset) :
    (z.ensembleItem e score entity tree lane u).tag = z.tag ∧ (z.ensembleItem e score entity tree lane u).regs = z.regs := by
  unfold Za.ensembleItem
  dsimp only
  (repeat' split) <;> simp

@[simp] theorem Za.laneFault_maps (z : Za) (c : Ctx) (w : FrameWork) (item : Nat) (d : Dispute) (lane loss : Nat) :
    (z.laneFault c w item d lane loss).tag = z.tag ∧ (z.laneFault c w item d lane loss).regs = z.regs := by simp [Za.laneFault]

@[simp] theorem Za.recheck_maps (z : Za) (lane : Nat) : (z.recheck lane).tag = z.tag ∧ (z.recheck lane).regs = z.regs := ⟨rfl, rfl⟩

@[simp] theorem Za.rescore_maps (z : Za) (e : Nat) (w : FrameWork) (hit : List (Bool × Nat)) :
    (z.rescore e w hit).tag = z.tag ∧ (z.rescore e w hit).regs = z.regs := ⟨rfl, rfl⟩

@[simp] theorem Za.rescoreLane_maps (z : Za) (lane : Nat) :
    (z.rescoreLane lane).tag = z.tag ∧ (z.rescoreLane lane).regs = z.regs := by
  unfold Za.rescoreLane
  dsimp only
  simp [Za.tag_ite, Za.regs_ite]

@[simp] theorem Za.arbitrate_maps (z : Za) (e : Nat) : (z.arbitrate e).tag = z.tag ∧ (z.arbitrate e).regs = z.regs := by
  unfold Za.arbitrate
  dsimp only
  (repeat' split) <;> simp

@[simp] theorem Za.postScores_maps (z : Za) (e : Nat) (ss : List Score) :
    (z.postScores e ss).tag = z.tag ∧ (z.postScores e ss).regs = z.regs := by simp [Za.postScores]

@[simp] theorem Za.scoringComplete_maps (z : Za) (e : Nat) :
    (z.scoringComplete e).tag = z.tag ∧ (z.scoringComplete e).regs = z.regs := by
  unfold Za.scoringComplete
  (repeat' split) <;> simp

@[simp] theorem Za.detPlan_maps (z : Za) (h : HuskCmd) (handle : W) :
    (z.detPlan h handle).1.tag = z.tag ∧ (z.detPlan h handle).1.regs = z.regs := by
  unfold Za.detPlan
  refine Za.withCtx_maps h fun e c => ?_
  dsimp only
  (repeat' split) <;> simp

@[simp] theorem Za.postVerdict_maps (z : Za) (e : Nat) (c : Ctx) (key : W) (state action : Nat) (ws : List W) :
    (z.postVerdict e c key state action ws).tag = z.tag ∧ (z.postVerdict e c key state action ws).regs = z.regs := by
  unfold Za.postVerdict
  dsimp only
  (repeat' split) <;> simp

@[simp] theorem Za.detAct_maps (z : Za) (e : Nat) (d : List W) (key : W) :
    (z.detAct e d key).tag = z.tag ∧ (z.detAct e d key).regs = z.regs := by
  unfold Za.detAct
  split <;> simp

@[simp] theorem Za.putRec_maps (z : Za) (r : DetRec) : (z.putRec r).tag = z.tag ∧ (z.putRec r).regs = z.regs := ⟨rfl, rfl⟩

@[simp] theorem Za.restartRec_maps (z : Za) (e : Nat) (c : Ctx) (frame cause : Nat) (d : List W) (r : DetRec) (live : Bool) :
    (z.restartRec e c frame cause d r live).1.tag = z.tag ∧ (z.restartRec e c frame cause d r live).1.regs = z.regs := by
  unfold Za.restartRec
  split <;> simp

@[simp] theorem Za.settleRec_maps (z : Za) (e : Nat) (c : Ctx) (w : FrameWork) (live : Bool) (r : DetRec) :
    (z.settleRec e c w live r).tag = z.tag ∧ (z.settleRec e c w live r).regs = z.regs := by
  unfold Za.settleRec
  dsimp only
  (repeat' split) <;> simp

@[simp] theorem Za.observe_maps (z : Za) (e : Nat) (c : Ctx) (w : FrameWork) (v : DetEnv) (live : Bool) (i : Nat) (n : Entity) :
    (z.observe e c w v live i n).tag = z.tag ∧ (z.observe e c w v live i n).regs = z.regs := by
  unfold Za.observe
  extract_lets d key r early held input version swapped p z1 src r1 peer few x warming base zv raw out learns finite q after z2 changed
    refresh cause z3 z4 z5 post after' z6 xw zw z7
  have hp : p.1.tag = z.tag ∧ p.1.regs = z.regs := by unfold p; split <;> simp
  have h4 : z4.tag = z.tag ∧ z4.regs = z.regs := by unfold z4; split <;> simp [z3, z2, z1, hp]
  have h6 : z6.tag = z.tag ∧ z6.regs = z.regs := by simp [z6, z5, h4]
  clear_value z6
  (repeat' split) <;> simp [h6, z7]

@[simp] theorem Za.detect_maps (z : Za) (e : Nat) (c : Ctx) (w : FrameWork) (v : DetEnv) (live : Bool) :
    (z.detect e c w v live).tag = z.tag ∧ (z.detect e c w v live).regs = z.regs := by simp [Za.detect]

@[simp] theorem Za.detectorRun_maps (z : Za) (e : Nat) : (z.detectorRun e).tag = z.tag ∧ (z.detectorRun e).regs = z.regs := by
  unfold Za.detectorRun
  dsimp only
  (repeat' split) <;> simp

@[simp] theorem Za.detReset_maps (z : Za) (h : HuskCmd) : (z.detReset h).1.tag = z.tag ∧ (z.detReset h).1.regs = z.regs := by
  unfold Za.detReset
  refine Za.withCtx_maps h fun e c => ?_
  dsimp only
  (repeat' split) <;> simp

@[simp] theorem Za.bandDerive_maps (z : Za) (e : Nat) : (z.bandDerive e).tag = z.tag ∧ (z.bandDerive e).regs = z.regs := by
  unfold Za.bandDerive
  (repeat' split) <;> simp

@[simp] theorem Za.paramOut_maps (z : Za) (die kind slot part parts frame base first count : Nat) (c : Ctx) (body : List W) :
    (z.paramOut die kind slot part parts frame base first count c body).tag = z.tag ∧
      (z.paramOut die kind slot part parts frame base first count c body).regs = z.regs := by simp [Za.paramOut]

@[simp] theorem Za.sendBands_sendAll_maps (e : Nat) (c : Ctx) (frame : Nat) (d : DieEntry) (slot : Nat) (set : List (List W)) (z : Za) :
    (Za.sendBands.sendAll e c frame d slot set z).tag = z.tag ∧ (Za.sendBands.sendAll e c frame d slot set z).regs = z.regs := by
  simp [Za.sendBands.sendAll]

@[simp] theorem Za.sendBands_maps (z : Za) (e : Nat) (c : Ctx) (frame : Nat) (d : DieEntry) (slot : Nat) (set : List (List W)) :
    (z.sendBands e c frame d slot set).tag = z.tag ∧ (z.sendBands e c frame d slot set).regs = z.regs := by
  unfold Za.sendBands
  dsimp only
  (repeat' split) <;> simp

@[simp] theorem Za.sendWindow_maps (z : Za) (c : Ctx) (frame : Nat) (d : DieEntry) (slot : Nat) :
    (z.sendWindow c frame d slot).tag = z.tag ∧ (z.sendWindow c frame d slot).regs = z.regs := by
  unfold Za.sendWindow
  dsimp only
  (repeat' split) <;> simp

@[simp] theorem Za.weightSwap_maps (z : Za) (h : HuskCmd) : (z.weightSwap h).1.tag = z.tag ∧ (z.weightSwap h).1.regs = z.regs := by
  unfold Za.weightSwap
  dsimp only
  split
  · refine ⟨(Za.foldl_tag (fun x d => ?_) ..).trans (by simp), (Za.foldl_regs (fun x d => ?_) ..).trans (by simp)⟩ <;>
      (repeat' split) <;> simp
  · simp

@[simp] theorem Za.sendCache_maps (z : Za) (e : Nat) (c : Ctx) (frame : Nat) (d : DieEntry) (slot : Nat) :
    (z.sendCache e c frame d slot).tag = z.tag ∧ (z.sendCache e c frame d slot).regs = z.regs := by simp [Za.sendCache]

@[simp] theorem Za.paramSend_maps (z : Za) (e die : Nat) : (z.paramSend e die).tag = z.tag ∧ (z.paramSend e die).regs = z.regs := by
  unfold Za.paramSend
  dsimp only
  (repeat' split) <;> simp

@[simp] theorem Za.keepStates_maps (z : Za) (e : Nat) (s : Sec) (frame : Nat) (rows : List FeatRow) (st : List (List W)) :
    (z.keepStates e s frame rows st).tag = z.tag ∧ (z.keepStates e s frame rows st).regs = z.regs := by simp [Za.keepStates]

@[simp] theorem Za.tileError_maps (z : Za) (e tile : Nat) :
    (z.tileError e tile).tag = z.tag ∧ (z.tileError e tile).regs = z.regs := by
  unfold Za.tileError
  dsimp only
  (repeat' split) <;> simp

@[simp] theorem Za.programBatch_maps (z : Za) (dom : Nat → Nat → Nat) (e score j tile : Nat) (error : Bool) :
    (z.programBatch dom e score j tile error).tag = z.tag ∧ (z.programBatch dom e score j tile error).regs = z.regs := by
  unfold Za.programBatch
  dsimp only
  (repeat' split) <;> simp

@[simp] theorem Za.modSlot_maps (z : Za) (e s : Nat) (f : ModelSlot → ModelSlot) :
    (z.modSlot e s f).tag = z.tag ∧ (z.modSlot e s f).regs = z.regs := ⟨rfl, rfl⟩

@[simp] theorem Za.modComing_maps (z : Za) (e s : Nat) (f : ModelArea → ModelArea) :
    (z.modComing e s f).tag = z.tag ∧ (z.modComing e s f).regs = z.regs := ⟨rfl, rfl⟩

@[simp] theorem Za.dropLoad_maps (z : Za) (e s : Nat) (r : Result) :
    (z.dropLoad e s r).tag = z.tag ∧ (z.dropLoad e s r).regs = z.regs := by simp [Za.dropLoad]

@[simp] theorem Za.askImage_maps (z : Za) (c : Ctx) (slot : Nat) (a : ModelArea) (f : ModelFetch) (offset : Nat) :
    (z.askImage c slot a f offset).tag = z.tag ∧ (z.askImage c slot a f offset).regs = z.regs := by
  unfold Za.askImage
  split <;> simp

@[simp] theorem Za.nextImageSource_maps (z : Za) (e s : Nat) :
    (z.nextImageSource e s).tag = z.tag ∧ (z.nextImageSource e s).regs = z.regs := by
  unfold Za.nextImageSource
  (repeat' split) <;> simp

@[simp] theorem Za.modelLoad_maps (z : Za) (h : HuskCmd) (handle : W) :
    (z.modelLoad h handle).1.tag = z.tag ∧ (z.modelLoad h handle).1.regs = z.regs := by
  unfold Za.modelLoad
  refine Za.withCtx_maps h fun e c => ?_
  dsimp only
  (repeat' split) <;> simp

@[simp] theorem Za.imageOffer_maps (z : Za) (f : Frame) : (z.imageOffer f).tag = z.tag ∧ (z.imageOffer f).regs = z.regs := by
  unfold Za.imageOffer
  dsimp only
  (repeat' split) <;> simp

@[simp] theorem Za.imageChunk_maps (z : Za) (f : Frame) : (z.imageChunk f).tag = z.tag ∧ (z.imageChunk f).regs = z.regs := by
  unfold Za.imageChunk
  dsimp only
  (repeat' split) <;> simp

@[simp] theorem Za.fetchReq_maps (z : Za) (p : Nat) (f : Frame) : (z.fetchReq p f).tag = z.tag ∧ (z.fetchReq p f).regs = z.regs := by
  unfold Za.fetchReq
  dsimp only
  (repeat' split) <;> simp

theorem Za.fetchRow_maps (z : Za) (p : Nat) (f : Frame) (msg : Nat) {g : Za → Za}
    (hg : ∀ x, (g x).tag = x.tag ∧ (g x).regs = x.regs) :
    (z.fetchRow p f msg g).tag = z.tag ∧ (z.fetchRow p f msg g).regs = z.regs := by
  unfold Za.fetchRow
  dsimp only
  split <;> simp [hg]

theorem Za.fetchSplit_maps (z : Za) (p : Nat) (f : Frame) {boot model : Za → Za}
    (hb : ∀ x, (boot x).tag = x.tag ∧ (boot x).regs = x.regs) (hm : ∀ x, (model x).tag = x.tag ∧ (model x).regs = x.regs) :
    (z.fetchSplit p f boot model).tag = z.tag ∧ (z.fetchSplit p f boot model).regs = z.regs := by
  unfold Za.fetchSplit
  (repeat' split) <;> simp [hb, hm]

@[simp] theorem Za.fetchTimeout_maps (z : Za) (e s : Nat) :
    (z.fetchTimeout e s).tag = z.tag ∧ (z.fetchTimeout e s).regs = z.regs := by
  unfold Za.fetchTimeout
  split <;> simp

@[simp] theorem Za.modelVerify_maps (z : Za) (e s : Nat) : (z.modelVerify e s).tag = z.tag ∧ (z.modelVerify e s).regs = z.regs := by
  unfold Za.modelVerify
  dsimp only
  (repeat' split) <;> simp

@[simp] theorem Za.modelPlaced_maps (z : Za) (e s : Nat) : (z.modelPlaced e s).tag = z.tag ∧ (z.modelPlaced e s).regs = z.regs := by
  unfold Za.modelPlaced
  split <;> exact ⟨rfl, rfl⟩

@[simp] theorem Za.modelQuery_maps (z : Za) (h : HuskCmd) (handle : W) :
    (z.modelQuery h handle).1.tag = z.tag ∧ (z.modelQuery h handle).1.regs = z.regs := by
  unfold Za.modelQuery
  refine Za.withCtx_maps h fun e c => ?_
  dsimp only
  (repeat' split) <;> simp

@[simp] theorem Za.applyVerdict_maps (z : Za) (e s frame outcome : Nat) :
    (z.applyVerdict e s frame outcome).tag = z.tag ∧ (z.applyVerdict e s frame outcome).regs = z.regs := by
  unfold Za.applyVerdict
  dsimp only
  (repeat' split) <;> simp

@[simp] theorem Za.decideReplica_maps (z : Za) (r : Replica) :
    (z.decideReplica r).tag = z.tag ∧ (z.decideReplica r).regs = z.regs := by
  unfold Za.decideReplica
  dsimp only
  (repeat' split) <;> simp [Za.tag_ite, Za.regs_ite]

@[simp] theorem Za.takeReport_maps (z : Za) (e s frame agg value : Nat) (selfFail : Bool) :
    (z.takeReport e s frame agg value selfFail).tag = z.tag ∧ (z.takeReport e s frame agg value selfFail).regs = z.regs := by
  unfold Za.takeReport
  dsimp only
  (repeat' split) <;> simp

@[simp] theorem Za.replicaReport_maps (z : Za) (ws : List W) :
    (z.replicaReport ws).tag = z.tag ∧ (z.replicaReport ws).regs = z.regs := by
  unfold Za.replicaReport
  dsimp only
  (repeat' split) <;> simp

theorem Za.replicaFrame_maps (z : Za) (f : Frame) {g : Za → List W → Za}
    (hg : ∀ x ws, (g x ws).tag = x.tag ∧ (g x ws).regs = x.regs) :
    (z.replicaFrame f g).tag = z.tag ∧ (z.replicaFrame f g).regs = z.regs := by
  unfold Za.replicaFrame
  dsimp only
  split <;> simp [hg]

@[simp] theorem Za.replicaTimeout_maps (z : Za) (e s : Nat) :
    (z.replicaTimeout e s).tag = z.tag ∧ (z.replicaTimeout e s).regs = z.regs := by
  unfold Za.replicaTimeout
  (repeat' split) <;> simp

@[simp] theorem Za.replicaVerdict_maps (z : Za) (ws : List W) :
    (z.replicaVerdict ws).tag = z.tag ∧ (z.replicaVerdict ws).regs = z.regs := by
  unfold Za.replicaVerdict
  dsimp only
  (repeat' split) <;> simp

@[simp] theorem Za.reportReplica_maps (z : Za) (e : Nat) (c : Ctx) (v : CtxView) (m : ModelSlot) :
    (z.reportReplica e c v m).tag = z.tag ∧ (z.reportReplica e c v m).regs = z.regs := by
  unfold Za.reportReplica
  dsimp only
  (repeat' split) <;> simp

@[simp] theorem Za.startRepair_maps (z : Za) (e s : Nat) : (z.startRepair e s).tag = z.tag ∧ (z.startRepair e s).regs = z.regs := by
  unfold Za.startRepair
  (repeat' split) <;> simp

@[simp] theorem Za.note_maps (z : Za) (n : Note) : (z.note n).tag = z.tag ∧ (z.note n).regs = z.regs := ⟨rfl, rfl⟩

@[simp] theorem Za.digestRecord_maps (z : Za) (die : Nat) (ws : List W) :
    (z.digestRecord die ws).tag = z.tag ∧ (z.digestRecord die ws).regs = z.regs := by
  unfold Za.digestRecord
  dsimp only
  (repeat' split) <;> simp

@[simp] theorem Za.healthRecord_maps (z : Za) (die : Nat) (ws : List W) :
    (z.healthRecord die ws).tag = z.tag ∧ (z.healthRecord die ws).regs = z.regs := by
  unfold Za.healthRecord
  split <;> exact ⟨rfl, rfl⟩

@[simp] theorem Za.creditLedger_maps (z : Za) (die : Nat) (ws : List W) (m : BitVec 128) :
    (z.creditLedger die ws m).tag = z.tag ∧ (z.creditLedger die ws m).regs = z.regs := by
  unfold Za.creditLedger
  dsimp only
  (repeat' split) <;> simp

@[simp] theorem Za.dieFault_maps (z : Za) (die : Nat) (ws : List W) :
    (z.dieFault die ws).tag = z.tag ∧ (z.dieFault die ws).regs = z.regs := by
  unfold Za.dieFault
  extract_lets m z1 z2 z3
  have h2 : z2.tag = z.tag ∧ z2.regs = z.regs := by simp [z2, z1]
  have h3 : z3.tag = z.tag ∧ z3.regs = z.regs := by
    unfold z3
    split
    · exact ⟨(Za.raise_maps ..).1.trans h2.1, (Za.raise_maps ..).2.trans h2.2⟩
    · exact h2
  clear_value z3
  split <;> simp [h3]

@[simp] theorem Za.bulkRecords_maps (z : Za) (die : Nat) (f : Frame) :
    (z.bulkRecords die f).tag = z.tag ∧ (z.bulkRecords die f).regs = z.regs := by
  unfold Za.bulkRecords
  split <;> simp

@[simp] theorem Za.bulkFrame_maps (z : Za) (p : Nat) (f : Frame) :
    (z.bulkFrame p f).tag = z.tag ∧ (z.bulkFrame p f).regs = z.regs := by
  unfold Za.bulkFrame
  dsimp only
  (repeat' split) <;> simp

@[simp] theorem Za.seedMsg_maps (z : Za) (dst kind frame seq n : Nat) (body : List W) (digest : Nat) :
    (z.seedMsg dst kind frame seq n body digest).tag = z.tag ∧
      (z.seedMsg dst kind frame seq n body digest).regs = z.regs := by simp [Za.seedMsg]

@[simp] theorem Za.seedSend_maps (z : Za) (dst kind frame : Nat) (parts : List (List SeedItem)) :
    (z.seedSend dst kind frame parts).tag = z.tag ∧ (z.seedSend dst kind frame parts).regs = z.regs := by simp [Za.seedSend]

theorem Za.seedFrame_maps (z : Za) (f : Frame) {g : Za → List W → Za}
    (hg : ∀ x ws, (g x ws).tag = x.tag ∧ (g x ws).regs = x.regs) :
    (z.seedFrame f g).tag = z.tag ∧ (z.seedFrame f g).regs = z.regs := by
  unfold Za.seedFrame
  dsimp only
  split <;> simp [hg]

@[simp] theorem Za.seedPair_maps (z : Za) (h : HuskCmd) (handle : W) :
    (z.seedPair h handle).1.tag = z.tag ∧ (z.seedPair h handle).1.regs = z.regs := by
  unfold Za.seedPair
  dsimp only
  (repeat' split) <;> simp

@[simp] theorem Za.seedResync_maps (z : Za) : z.seedResync.tag = z.tag ∧ z.seedResync.regs = z.regs := by
  unfold Za.seedResync
  (repeat' split) <;> simp

@[simp] theorem Za.seedUpdate_maps (z : Za) : z.seedUpdate.tag = z.tag ∧ z.seedUpdate.regs = z.regs := by
  unfold Za.seedUpdate
  (repeat' split) <;> simp

@[simp] theorem Za.seedAck_maps (z : Za) (ws : List W) : (z.seedAck ws).tag = z.tag ∧ (z.seedAck ws).regs = z.regs := by
  unfold Za.seedAck
  dsimp only
  (repeat' split) <;> simp

@[simp] theorem Za.baseFromRm_maps (z : Za) : z.baseFromRm.tag = z.tag ∧ z.baseFromRm.regs = z.regs := by
  unfold Za.baseFromRm
  dsimp only
  (repeat' split) <;> simp

@[simp] theorem Za.seedNack_maps (z : Za) (ws : List W) : (z.seedNack ws).tag = z.tag ∧ (z.seedNack ws).regs = z.regs := by
  unfold Za.seedNack
  dsimp only
  (repeat' split) <;> simp

@[simp] theorem Za.seedLost_maps (z : Za) : z.seedLost.tag = z.tag ∧ z.seedLost.regs = z.regs := by
  unfold Za.seedLost
  (repeat' split) <;> simp

@[simp] theorem Za.seedLagCheck_maps (z : Za) : z.seedLagCheck.tag = z.tag ∧ z.seedLagCheck.regs = z.regs := by
  unfold Za.seedLagCheck
  (repeat' split) <;> simp

@[simp] theorem Za.seedDelta_maps (z : Za) (ws : List W) : (z.seedDelta ws).tag = z.tag ∧ (z.seedDelta ws).regs = z.regs := by
  unfold Za.seedDelta
  dsimp only
  (repeat' split) <;> simp

@[simp] theorem Za.rebuildCommit_maps (z : Za) (ws : List W) (rb : Rebuild) :
    (z.rebuildCommit ws rb).tag = z.tag ∧ (z.rebuildCommit ws rb).regs = z.regs := by
  unfold Za.rebuildCommit
  dsimp only
  (repeat' split) <;> simp

@[simp] theorem Za.seedCommit_maps (z : Za) (ws : List W) : (z.seedCommit ws).tag = z.tag ∧ (z.seedCommit ws).regs = z.regs := by
  unfold Za.seedCommit
  dsimp only
  (repeat' split) <;> simp

@[simp] theorem Za.seedDamage_maps (z : Za) (n : SeedName) : (z.seedDamage n).tag = z.tag ∧ (z.seedDamage n).regs = z.regs := by
  unfold Za.seedDamage
  split <;> simp

@[simp] theorem Za.askRestore_maps (z : Za) (names : List SeedName) :
    (z.askRestore names).tag = z.tag ∧ (z.askRestore names).regs = z.regs := by
  unfold Za.askRestore
  dsimp only
  (repeat' split) <;> simp

@[simp] theorem Za.restoreReq_maps (z : Za) (ws : List W) : (z.restoreReq ws).tag = z.tag ∧ (z.restoreReq ws).regs = z.regs := by
  unfold Za.restoreReq
  dsimp only
  (repeat' split) <;> simp

@[simp] theorem Za.restoreItem_maps (z : Za) (live : Bool) (i : SeedItem) :
    (z.restoreItem live i).tag = z.tag ∧ (z.restoreItem live i).regs = z.regs := by
  unfold Za.restoreItem
  dsimp only
  (repeat' split) <;> simp

@[simp] theorem Za.restoreData_maps (z : Za) (ws : List W) : (z.restoreData ws).tag = z.tag ∧ (z.restoreData ws).regs = z.regs := by
  unfold Za.restoreData
  dsimp only
  (repeat' split) <;> simp

@[simp] theorem Za.restoreExpire_maps (z : Za) : z.restoreExpire.tag = z.tag ∧ z.restoreExpire.regs = z.regs := by
  unfold Za.restoreExpire
  dsimp only
  refine ⟨(Za.foldl_tag (fun x d => ?_) ..).trans rfl, (Za.foldl_regs (fun x d => ?_) ..).trans rfl⟩ <;>
    (repeat' split) <;> simp

@[simp] theorem Za.hailTo_maps (z : Za) (agg : Nat) (ws : List W) :
    (z.hailTo agg ws).tag = z.tag ∧ (z.hailTo agg ws).regs = z.regs := by
  unfold Za.hailTo
  split <;> exact ⟨rfl, rfl⟩

@[simp] theorem Za.hailSend_maps (z : Za) (vcore : BitVec 16) :
    (z.hailSend vcore).tag = z.tag ∧ (z.hailSend vcore).regs = z.regs := by
  unfold Za.hailSend
  dsimp only
  (repeat' split) <;> simp

@[simp] theorem Za.hail_maps (z : Za) (p : Nat) (f : Frame) : (z.hail p f).tag = z.tag ∧ (z.hail p f).regs = z.regs := by
  unfold Za.hail
  dsimp only
  (repeat' split) <;> simp

@[simp] theorem Za.watchDie_maps (z : Za) (n : Nat) (locked : Nat → Bool) (die : Nat) :
    (z.watchDie n locked die).tag = z.tag ∧ (z.watchDie n locked die).regs = z.regs := by
  unfold Za.watchDie
  dsimp only
  (repeat' split) <;> simp

@[simp] theorem Za.claimCheck_maps (z : Za) (die : Nat) : (z.claimCheck die).tag = z.tag ∧ (z.claimCheck die).regs = z.regs := by
  unfold Za.claimCheck
  (repeat' split) <;> simp

theorem Za.watchUnit_sameMaps (z : Za) (agg : Nat) : (z.watchUnit agg).SameMaps z := by
  unfold Za.watchUnit
  split
  · exact ⟨rfl, rfl⟩
  · extract_lets put decides wasRm z1 missed z2 z3 standby z4 z5
    have h2 : z2.SameMaps z := ⟨rfl, rfl⟩
    have h3 : z3.SameMaps z := ⟨rfl, rfl⟩
    have h4 : z4.SameMaps z := ⟨rfl, rfl⟩
    have h5 : z5.SameMaps z := by
      unfold z5
      clear_value z4
      split
      · exact ⟨by simp [h4.1], by simp [h4.2]⟩
      · exact h4
    have hs := z3.raise_sameMaps .hailSuspect .za40 agg .none 0 (liveDetail 0 missed) []
    clear_value z3 z5
    generalize z3.raise .hailSuspect .za40 agg .none 0 (liveDetail 0 missed) [] = z6 at hs ⊢
    (repeat' split)
    · exact ⟨rfl, rfl⟩
    · exact ⟨rfl, rfl⟩
    · exact ⟨hs.1.trans h3.1, hs.2.trans h3.2⟩
    · exact h3
    · exact h5
    · exact h5
    · exact h2

@[simp] theorem Za.watchUnit_maps (z : Za) (agg : Nat) : (z.watchUnit agg).tag = z.tag ∧ (z.watchUnit agg).regs = z.regs :=
  z.watchUnit_sameMaps agg

@[simp] theorem Za.settleRole_maps (z : Za) : z.settleRole.tag = z.tag ∧ z.settleRole.regs = z.regs := by
  unfold Za.settleRole
  dsimp only
  (repeat' split) <;> simp

@[simp] theorem Za.hailEvaluate_maps (z : Za) (locked : Nat → Bool) :
    (z.hailEvaluate locked).tag = z.tag ∧ (z.hailEvaluate locked).regs = z.regs := by
  unfold Za.hailEvaluate
  dsimp only
  (repeat' split) <;> simp

@[simp] theorem Za.rmFailover_maps (z : Za) : z.rmFailover.tag = z.tag ∧ z.rmFailover.regs = z.regs := by
  unfold Za.rmFailover
  split <;> simp

@[simp] theorem Za.liveClaim_maps (z : Za) (h : HuskCmd) : (z.liveClaim h).1.tag = z.tag ∧ (z.liveClaim h).1.regs = z.regs := by
  unfold Za.liveClaim
  dsimp only
  (repeat' split) <;> simp

@[simp] theorem Za.liveQuery_maps (z : Za) (h : HuskCmd) : (z.liveQuery h).1.tag = z.tag ∧ (z.liveQuery h).1.regs = z.regs := by
  unfold Za.liveQuery
  dsimp only
  (repeat' split) <;> simp

@[simp] theorem Za.rackSet_maps (z : Za) (h : HuskCmd) : (z.rackSet h).1.tag = z.tag ∧ (z.rackSet h).1.regs = z.regs := by
  unfold Za.rackSet
  dsimp only
  (repeat' split) <;> simp

@[simp] theorem Za.fenceOwn_maps (z : Za) (u : UnitName) : (z.fenceOwn u).1.tag = z.tag ∧ (z.fenceOwn u).1.regs = z.regs := by
  unfold Za.fenceOwn
  split <;> simp

@[simp] theorem Za.fenceCmd_maps (z : Za) (h : HuskCmd) (handle : W) :
    (z.fenceCmd h handle).1.tag = z.tag ∧ (z.fenceCmd h handle).1.regs = z.regs := by
  unfold Za.fenceCmd
  dsimp only
  (repeat' split) <;> simp

@[simp] theorem Za.fenceRefused_maps (z : Za) (die : Nat) :
    (z.fenceRefused die).tag = z.tag ∧ (z.fenceRefused die).regs = z.regs := by simp [Za.fenceRefused]

@[simp] theorem Za.unfence_maps (z : Za) (free : Nat) (h : HuskCmd) (handle : W) :
    (z.unfence free h handle).1.tag = z.tag ∧ (z.unfence free h handle).1.regs = z.regs := by
  unfold Za.unfence
  dsimp only
  (repeat' split) <;> simp

@[simp] theorem Za.selfTest_maps (z : Za) (free : Nat) (h : HuskCmd) (handle : W) :
    (z.selfTest free h handle).1.tag = z.tag ∧ (z.selfTest free h handle).1.regs = z.regs := by
  unfold Za.selfTest
  dsimp only
  (repeat' split) <;> simp

@[simp] theorem Za.liftOwn_maps (z : Za) (u : UnitName) :
    (z.liftOwn u).tag = z.tag ∧ (z.liftOwn u).regs = z.regs := by simp [Za.liftOwn]

@[simp] theorem Za.carryOut_maps (z : Za) : z.carryOut.tag = z.tag ∧ z.carryOut.regs = z.regs := by
  unfold Za.carryOut
  dsimp only
  refine ⟨(Za.foldl_tag (fun x d => ?_) ..).trans rfl, (Za.foldl_regs (fun x d => ?_) ..).trans rfl⟩ <;>
    split <;> simp

@[simp] theorem Za.readmit_maps (z : Za) (h : HuskCmd) : (z.readmit h).1.tag = z.tag ∧ (z.readmit h).1.regs = z.regs := by
  unfold Za.readmit
  dsimp only
  (repeat' split) <;> simp

@[simp] theorem Za.fenceNotice_maps (z : Za) (agg : Nat) : (z.fenceNotice agg).tag = z.tag ∧ (z.fenceNotice agg).regs = z.regs := by
  unfold Za.fenceNotice
  dsimp only
  (repeat' split) <;> simp

@[simp] theorem Za.faultLogCmd_maps (z : Za) (h : HuskCmd) : (z.faultLogCmd h).1.tag = z.tag ∧ (z.faultLogCmd h).1.regs = z.regs := by
  unfold Za.faultLogCmd
  dsimp only
  (repeat' split) <;> simp

@[simp] theorem Za.ckptSend_maps (z : Za) (dst owner frame : Nat) (parts : List (List W)) :
    (z.ckptSend dst owner frame parts).tag = z.tag ∧ (z.ckptSend dst owner frame parts).regs = z.regs := by simp [Za.ckptSend]

@[simp] theorem Za.ckptStore_maps (z : Za) (agg frame part : Nat) (last : Bool) (ws : List W) :
    (z.ckptStore agg frame part last ws).tag = z.tag ∧ (z.ckptStore agg frame part last ws).regs = z.regs := ⟨rfl, rfl⟩

@[simp] theorem Za.checkpoint_maps (z : Za) : z.checkpoint.tag = z.tag ∧ z.checkpoint.regs = z.regs := by
  unfold Za.checkpoint
  dsimp only
  (repeat' split) <;> simp

@[simp] theorem Za.ckptPut_maps (z : Za) (h : HuskCmd) : (z.ckptPut h).1.tag = z.tag ∧ (z.ckptPut h).1.regs = z.regs := by
  unfold Za.ckptPut
  dsimp only
  (repeat' split) <;> simp

@[simp] theorem Za.ckptGet_maps (z : Za) (h : HuskCmd) (handle : W) :
    (z.ckptGet h handle).1.tag = z.tag ∧ (z.ckptGet h handle).1.regs = z.regs := by
  unfold Za.ckptGet
  dsimp only
  (repeat' split) <;> simp

@[simp] theorem Za.ckptIncomplete_maps (z : Za) (agg : Nat) :
    (z.ckptIncomplete agg).tag = z.tag ∧ (z.ckptIncomplete agg).regs = z.regs := by
  unfold Za.ckptIncomplete
  dsimp only
  (repeat' split) <;> simp

@[simp] theorem Za.rebuildCmd_maps (z : Za) (h : HuskCmd) (handle : W) :
    (z.rebuildCmd h handle).1.tag = z.tag ∧ (z.rebuildCmd h handle).1.regs = z.regs := by
  unfold Za.rebuildCmd
  dsimp only
  (repeat' split) <;> simp

@[simp] theorem Za.partnerStall_maps (z : Za) : z.partnerStall.tag = z.tag ∧ z.partnerStall.regs = z.regs := by
  unfold Za.partnerStall
  split <;> simp

@[simp] theorem Za.beginReplay_maps (z : Za) (rb : Rebuild) : (z.beginReplay rb).tag = z.tag ∧ (z.beginReplay rb).regs = z.regs := by
  unfold Za.beginReplay
  split <;> simp

@[simp] theorem Za.openReplay_maps (z : Za) (rb : Rebuild) (e : Nat) (c : Ctx) :
    (z.openReplay rb e c).tag = z.tag ∧ (z.openReplay rb e c).regs = z.regs := by
  unfold Za.openReplay
  dsimp only
  (repeat' split) <;> simp

@[simp] theorem Za.rebuildReplay_maps (z : Za) : z.rebuildReplay.tag = z.tag ∧ z.rebuildReplay.regs = z.regs := by
  unfold Za.rebuildReplay
  (repeat' split) <;> simp

@[simp] theorem Za.liveCtx_maps (z : Za) (rb : Rebuild) (e : Nat) (c : Ctx) :
    (z.liveCtx rb e c).tag = z.tag ∧ (z.liveCtx rb e c).regs = z.regs := by simp [Za.liveCtx]

@[simp] theorem Za.rebuildLive_maps (z : Za) : z.rebuildLive.tag = z.tag ∧ z.rebuildLive.regs = z.regs := by
  unfold Za.rebuildLive
  (repeat' split) <;> simp

@[simp] theorem Za.frostEnd_maps (z : Za) : z.frostEnd.tag = z.tag ∧ z.frostEnd.regs = z.regs := by
  unfold Za.frostEnd
  (repeat' split) <;> simp

@[simp] theorem Za.frostArm_maps (z : Za) (h : HuskCmd) (handle : W) :
    (z.frostArm h handle).1.tag = z.tag ∧ (z.frostArm h handle).1.regs = z.regs := by
  unfold Za.frostArm
  dsimp only
  (repeat' split) <;> simp

@[simp] theorem Za.frostCancel_maps (z : Za) (h : HuskCmd) : (z.frostCancel h).1.tag = z.tag ∧ (z.frostCancel h).1.regs = z.regs := by
  unfold Za.frostCancel
  split <;> simp

@[simp] theorem Za.frostStopAt_maps (z : Za) : z.frostStopAt.tag = z.tag ∧ z.frostStopAt.regs = z.regs := by
  unfold Za.frostStopAt
  split <;> simp

@[simp] theorem Za.frostNow_maps (z : Za) (h : HuskCmd) : (z.frostNow h).1.tag = z.tag ∧ (z.frostNow h).1.regs = z.regs := by
  unfold Za.frostNow
  split <;> simp

@[simp] theorem Za.nowFrame_maps (z : Za) (p : Nat) (f : Frame) : (z.nowFrame p f).tag = z.tag ∧ (z.nowFrame p f).regs = z.regs := by
  unfold Za.nowFrame
  dsimp only
  (repeat' split) <;> simp

@[simp] theorem Za.thawNow_maps (z : Za) : z.thawNow.tag = z.tag ∧ z.thawNow.regs = z.regs := by
  unfold Za.thawNow
  split <;> simp

@[simp] theorem Za.frostThaw_maps (z : Za) (h : HuskCmd) (handle : W) :
    (z.frostThaw h handle).1.tag = z.tag ∧ (z.frostThaw h handle).1.regs = z.regs := by
  unfold Za.frostThaw
  dsimp only
  (repeat' split) <;> simp

@[simp] theorem Za.thawInstant_maps (z : Za) : z.thawInstant.tag = z.tag ∧ z.thawInstant.regs = z.regs := by
  unfold Za.thawInstant
  (repeat' split) <;> simp

@[simp] theorem Za.ack_maps (z : Za) (p : Nat) (f : Frame) : (z.ack p f).tag = z.tag ∧ (z.ack p f).regs = z.regs := by
  unfold Za.ack
  dsimp only
  (repeat' split) <;> simp

@[simp] theorem Za.frostRepeat_maps (z : Za) : z.frostRepeat.tag = z.tag ∧ z.frostRepeat.regs = z.regs := by
  unfold Za.frostRepeat
  dsimp only
  (repeat' split) <;> simp

@[simp] theorem Za.captureEnd_maps (z : Za) : z.captureEnd.tag = z.tag ∧ z.captureEnd.regs = z.regs := by
  unfold Za.captureEnd
  (repeat' split) <;> simp

@[simp] theorem Za.frostQuery_maps (z : Za) : z.frostQuery.1.tag = z.tag ∧ z.frostQuery.1.regs = z.regs := ⟨rfl, rfl⟩

@[simp] theorem Za.scanTo_maps (z : Za) (req : Requester) (msg plen : Nat) (body : List W) :
    (z.scanTo req msg plen body).tag = z.tag ∧ (z.scanTo req msg plen body).regs = z.regs := by
  unfold Za.scanTo
  split <;> exact ⟨rfl, rfl⟩

@[simp] theorem Za.scanGive_maps (z : Za) (req : Requester) (data : List W) :
    (z.scanGive req data).tag = z.tag ∧ (z.scanGive req data).regs = z.regs := by simp [Za.scanGive]

@[simp] theorem Za.scanAsk_maps (z : Za) (die mask offset : Nat) :
    (z.scanAsk die mask offset).tag = z.tag ∧ (z.scanAsk die mask offset).regs = z.regs := by simp [Za.scanAsk]

@[simp] theorem Za.scanNext_maps (n : Nat) (z : Za) (s : ScanOut) :
    (Za.scanNext n z s).tag = z.tag ∧ (Za.scanNext n z s).regs = z.regs := by
  induction n generalizing z s with
  | zero => exact ⟨rfl, rfl⟩
  | succ n ih =>
    unfold Za.scanNext
    dsimp only
    (repeat' split) <;> simp [ih]

@[simp] theorem Za.scanOut_maps (z : Za) (h : HuskCmd) (handle : W) :
    (z.scanOut h handle).1.tag = z.tag ∧ (z.scanOut h handle).1.regs = z.regs := by
  unfold Za.scanOut
  dsimp only
  (repeat' split) <;> simp

@[simp] theorem Za.scanData_maps (z : Za) (p : Nat) (f : Frame) : (z.scanData p f).tag = z.tag ∧ (z.scanData p f).regs = z.regs := by
  unfold Za.scanData
  dsimp only
  (repeat' split) <;> simp

@[simp] theorem Za.loopTest_maps (z : Za) (h : HuskCmd) (handle : W) :
    (z.loopTest h handle).1.tag = z.tag ∧ (z.loopTest h handle).1.regs = z.regs := by
  unfold Za.loopTest
  dsimp only
  (repeat' split) <;> simp

@[simp] theorem Za.faultInject_maps (z : Za) (h : HuskCmd) : (z.faultInject h).1.tag = z.tag ∧ (z.faultInject h).1.regs = z.regs := by
  unfold Za.faultInject
  dsimp only
  (repeat' split) <;> simp

@[simp] theorem Za.retirePage_maps (z : Za) (r : MemRegion) (address : Nat) :
    (z.retirePage r address).tag = z.tag ∧ (z.retirePage r address).regs = z.regs := by
  unfold Za.retirePage
  dsimp only
  (repeat' split) <;> simp

@[simp] theorem Za.corrected_maps (z : Za) (r : MemRegion) (address : Nat) :
    (z.corrected r address).tag = z.tag ∧ (z.corrected r address).regs = z.regs := by
  unfold Za.corrected
  dsimp only
  (repeat' split) <;> simp

@[simp] theorem Za.channelError_maps (z : Za) (c : Nat) : (z.channelError c).tag = z.tag ∧ (z.channelError c).regs = z.regs := by
  unfold Za.channelError
  dsimp only
  (repeat' split) <;> simp

@[simp] theorem Za.losePod_maps (z : Za) (r : MemRegion) (e address : Nat) :
    (z.losePod r e address).tag = z.tag ∧ (z.losePod r e address).regs = z.regs := by
  unfold Za.losePod
  dsimp only
  (repeat' split) <;> simp

@[simp] theorem Za.loseRow_maps (z : Za) (r : MemRegion) (e address : Nat) :
    (z.loseRow r e address).tag = z.tag ∧ (z.loseRow r e address).regs = z.regs := by
  unfold Za.loseRow
  dsimp only
  (repeat' split) <;> simp

@[simp] theorem Za.loseDigest_maps (z : Za) (r : MemRegion) (e address : Nat) :
    (z.loseDigest r e address).tag = z.tag ∧ (z.loseDigest r e address).regs = z.regs := by
  unfold Za.loseDigest
  (repeat' split) <;> simp

@[simp] theorem Za.loseState_maps (z : Za) (e : Nat) : (z.loseState e).tag = z.tag ∧ (z.loseState e).regs = z.regs := by
  unfold Za.loseState
  dsimp only
  (repeat' split) <;> simp

@[simp] theorem Za.loseMirror_maps (z : Za) (r : MemRegion) (address : Nat) :
    (z.loseMirror r address).tag = z.tag ∧ (z.loseMirror r address).regs = z.regs := by
  unfold Za.loseMirror
  split <;> simp

@[simp] theorem Za.loseCheckpoint_maps (z : Za) (r : MemRegion) (address : Nat) :
    (z.loseCheckpoint r address).tag = z.tag ∧ (z.loseCheckpoint r address).regs = z.regs := by
  unfold Za.loseCheckpoint
  split <;> exact ⟨rfl, rfl⟩

@[simp] theorem Za.loseForward_maps (z : Za) (r : MemRegion) (address : Nat) :
    (z.loseForward r address).tag = z.tag ∧ (z.loseForward r address).regs = z.regs := by
  unfold Za.loseForward
  split <;> exact ⟨rfl, rfl⟩

@[simp] theorem Za.losePacket_maps (z : Za) (r : MemRegion) (address : Nat) :
    (z.losePacket r address).tag = z.tag ∧ (z.losePacket r address).regs = z.regs := by
  unfold Za.losePacket
  split <;> exact ⟨rfl, rfl⟩

@[simp] theorem Za.loseModel_maps (z : Za) (r : MemRegion) (e address : Nat) :
    (z.loseModel r e address).tag = z.tag ∧ (z.loseModel r e address).regs = z.regs := by
  unfold Za.loseModel
  split <;> exact ⟨rfl, rfl⟩

@[simp] theorem Za.lose_maps (z : Za) (r : MemRegion) (e address : Nat) :
    (z.lose r e address).tag = z.tag ∧ (z.lose r e address).regs = z.regs := by
  unfold Za.lose
  split <;> simp

@[simp] theorem Za.uncorrectable_maps (z : Za) (r : MemRegion) (e address symbols : Nat) :
    (z.uncorrectable r e address symbols).tag = z.tag ∧
      (z.uncorrectable r e address symbols).regs = z.regs := by simp [Za.uncorrectable]

@[simp] theorem Za.readWord_maps (z : Za) (r : MemRegion) (e address : Nat) (es : List (Fin 136 × Byte)) :
    (z.readWord r e address es).tag = z.tag ∧ (z.readWord r e address es).regs = z.regs := by
  unfold Za.readWord
  dsimp only
  (repeat' split) <;> simp

@[simp] theorem Za.scrubRead_maps (z : Za) (r : MemRegion) (e address : Nat) (es : List (Fin 136 × Byte)) :
    (z.scrubRead r e address es).tag = z.tag ∧ (z.scrubRead r e address es).regs = z.regs := by
  unfold Za.scrubRead
  (repeat' split) <;> simp

@[simp] theorem Za.portReset_maps (z : Za) (P : Nat) : (z.portReset P).tag = z.tag ∧ (z.portReset P).regs = z.regs := by
  unfold Za.portReset
  dsimp only
  (repeat' split) <;> simp

@[simp] theorem Za.blockReset_maps (z : Za) (q : Nat) : (z.blockReset q).tag = z.tag ∧ (z.blockReset q).regs = z.regs := ⟨rfl, rfl⟩

@[simp] theorem Za.zaReset_maps (z : Za) (h : HuskCmd) : (z.zaReset h).1.tag = z.tag ∧ (z.zaReset h).1.regs = z.regs := by
  unfold Za.zaReset
  dsimp only
  (repeat' split) <;> simp

@[simp] theorem Za.throttle_maps (z : Za) (r : ThermalReading) : (z.throttle r).tag = z.tag ∧ (z.throttle r).regs = z.regs := by
  unfold Za.throttle
  split <;> exact ⟨rfl, rfl⟩

@[simp] theorem Za.pwrLimit_maps (z : Za) (h : HuskCmd) : (z.pwrLimit h).1.tag = z.tag ∧ (z.pwrLimit h).1.regs = z.regs := by
  unfold Za.pwrLimit
  dsimp only
  (repeat' split) <;> simp

@[simp] theorem Za.lullHold_maps (z : Za) (h : HuskCmd) : (z.lullHold h).1.tag = z.tag ∧ (z.lullHold h).1.regs = z.regs := by
  unfold Za.lullHold
  dsimp only
  (repeat' split) <;> simp

@[simp] theorem Za.lullRelease_maps (z : Za) (h : HuskCmd) : (z.lullRelease h).1.tag = z.tag ∧ (z.lullRelease h).1.regs = z.regs := by
  unfold Za.lullRelease
  (repeat' split) <;> simp

@[simp] theorem Za.zaLull_maps (z : Za) (h : HuskCmd) (handle : W) :
    (z.zaLull h handle).1.tag = z.tag ∧ (z.zaLull h handle).1.regs = z.regs := by
  unfold Za.zaLull
  dsimp only
  (repeat' split) <;> simp

@[simp] theorem Za.zaWake_maps (z : Za) (handle : W) : (z.zaWake handle).1.tag = z.tag ∧ (z.zaWake handle).1.regs = z.regs := by
  unfold Za.zaWake
  split <;> simp

@[simp] theorem Za.ident_maps (z : Za) : z.ident.1.tag = z.tag ∧ z.ident.1.regs = z.regs := ⟨rfl, rfl⟩

@[simp] theorem Za.statusReply_maps (z : Za) (h : HuskCmd) : (z.statusReply h).1.tag = z.tag ∧ (z.statusReply h).1.regs = z.regs := by
  unfold Za.statusReply
  (repeat' split) <;> simp

@[simp] theorem Za.handleQuery_maps (z : Za) (h : HuskCmd) : (z.handleQuery h).1.tag = z.tag ∧ (z.handleQuery h).1.regs = z.regs := by
  unfold Za.handleQuery
  split <;> exact ⟨rfl, rfl⟩

@[simp] theorem Za.handleCancel_maps (z : Za) (h : HuskCmd) :
    (z.handleCancel h).1.tag = z.tag ∧ (z.handleCancel h).1.regs = z.regs := by
  unfold Za.handleCancel
  (repeat' split) <;> simp

@[simp] theorem Za.regRead_maps (z : Za) (h : HuskCmd) : (z.regRead h).1.tag = z.tag ∧ (z.regRead h).1.regs = z.regs := by
  unfold Za.regRead
  dsimp only
  (repeat' split) <;> simp

@[simp] theorem Za.linkResetCmd_maps (z : Za) (h : HuskCmd) :
    (z.linkResetCmd h).1.tag = z.tag ∧ (z.linkResetCmd h).1.regs = z.regs := by
  unfold Za.linkResetCmd
  dsimp only
  (repeat' split) <;> simp

@[simp] theorem Za.resetLink_maps (z : Za) (p : Nat) : (z.resetLink p).tag = z.tag ∧ (z.resetLink p).regs = z.regs := by
  unfold Za.resetLink
  split <;> simp

@[simp] theorem Za.untake_maps (z old : Za) : (z.untake old).tag = z.tag ∧ (z.untake old).regs = z.regs := ⟨rfl, rfl⟩

@[simp] theorem Za.acceptRelay_maps (z : Za) (die : Nat) (op : Opcode) (h : HuskCmd) :
    (z.acceptRelay die op h).tag = z.tag ∧ (z.acceptRelay die op h).regs = z.regs := by
  unfold Za.acceptRelay
  dsimp only
  split
  · simp
  · split
    · split
      · simp
      next p ht => simp [Za.take_maps ht]
    · simp

@[simp] theorem Za.forwardHusk_maps (z : Za) (agg : Nat) (op : Opcode) (h : HuskCmd) :
    (z.forwardHusk agg op h).tag = z.tag ∧ (z.forwardHusk agg op h).regs = z.regs := ⟨rfl, rfl⟩

@[simp] theorem Za.bookWrite_maps (z : Za) (r : Relay) (rec_ : List W) :
    (z.bookWrite r rec_).tag = z.tag ∧ (z.bookWrite r rec_).regs = z.regs := by
  unfold Za.bookWrite
  split <;> exact ⟨rfl, rfl⟩

@[simp] theorem Za.relayAnswer_maps (z : Za) (r : Relay) (rec_ : List W) :
    (z.relayAnswer r rec_).tag = z.tag ∧ (z.relayAnswer r rec_).regs = z.regs := by simp [Za.relayAnswer]

@[simp] theorem Za.dtuReply_maps (z : Za) (die : Nat) (rec_ : List W) :
    (z.dtuReply die rec_).tag = z.tag ∧ (z.dtuReply die rec_).regs = z.regs := by
  unfold Za.dtuReply
  dsimp only
  (repeat' split) <;> simp

@[simp] theorem Za.relayedCompletion_maps (z : Za) (die : Nat) (rec_ : List W) :
    (z.relayedCompletion die rec_).tag = z.tag ∧ (z.relayedCompletion die rec_).regs = z.regs := by
  unfold Za.relayedCompletion
  dsimp only
  (repeat' split) <;> simp

@[simp] theorem Za.targetTimeout_maps (z : Za) (tag : W) :
    (z.targetTimeout tag).tag = z.tag ∧ (z.targetTimeout tag).regs = z.regs := by
  unfold Za.targetTimeout
  (repeat' split) <;> simp

@[simp] theorem Za.queueRelease_maps (z : Za) (die : Nat) :
    (z.queueRelease die).tag = z.tag ∧ (z.queueRelease die).regs = z.regs := by
  unfold Za.queueRelease
  (repeat' split) <;> simp

@[simp] theorem Za.replyUnlisted_maps (z : Za) (code : Nat) (h : HuskCmd) :
    (z.replyUnlisted code h).tag = z.tag ∧ (z.replyUnlisted code h).regs = z.regs := by simp [Za.replyUnlisted]

@[simp] theorem Za.judgeRuns_maps (z : Za) (w : FrameWork) : (z.judgeRuns w).tag = z.tag ∧ (z.judgeRuns w).regs = z.regs := by
  unfold Za.judgeRuns
  dsimp only
  (repeat' split) <;> simp

@[simp] theorem Za.verdictMissing_maps (z : Za) (e frame s : Nat) :
    (z.verdictMissing e frame s).tag = z.tag ∧ (z.verdictMissing e frame s).regs = z.regs := by
  unfold Za.verdictMissing
  dsimp only
  (repeat' split) <;> simp

@[simp] theorem Za.markLate_maps (z : Za) (w : FrameWork) :
    (z.markLate w).tag = z.tag ∧ (z.markLate w).regs = z.regs := by simp [Za.markLate]

@[simp] theorem Za.dropReruns_maps (z : Za) (w : FrameWork) :
    (z.dropReruns w).tag = z.tag ∧ (z.dropReruns w).regs = z.regs := ⟨rfl, rfl⟩

@[simp] theorem Za.ageWorks_maps (z : Za) : z.ageWorks.tag = z.tag ∧ z.ageWorks.regs = z.regs := ⟨rfl, rfl⟩

@[simp] theorem Za.overrun_maps (z : Za) (w : FrameWork) : (z.overrun w).tag = z.tag ∧ (z.overrun w).regs = z.regs := by
  unfold Za.overrun
  split <;> simp

@[simp] theorem Za.stepLate_maps (z : Za) : z.stepLate.1.tag = z.tag ∧ z.stepLate.1.regs = z.regs := by simp [Za.stepLate]

@[simp] theorem Za.auditFault_maps (z : Za) (a : AuditFail) :
    (z.auditFault a).tag = z.tag ∧ (z.auditFault a).regs = z.regs := by simp [Za.auditFault]

@[simp] theorem Za.creditFault_maps (z : Za) (p : Nat) (die : Option Nat) (c : Nat) :
    (z.creditFault p die c).tag = z.tag ∧ (z.creditFault p die c).regs = z.regs := by
  unfold Za.creditFault
  dsimp only
  (repeat' split) <;> simp

@[simp] theorem Za.auditLinks_maps (z : Za) : z.auditLinks.1.tag = z.tag ∧ z.auditLinks.1.regs = z.regs := by simp [Za.auditLinks]

@[simp] theorem Za.stepAudit_maps (z : Za) : z.stepAudit.1.tag = z.tag ∧ z.stepAudit.1.regs = z.regs := by
  simp [Za.stepAudit]

@[simp] theorem Za.freeCtx_maps (z : Za) (e : Nat) (c : Ctx) :
    (z.freeCtx e c).tag = z.tag ∧ (z.freeCtx e c).regs = z.regs := by simp [Za.freeCtx]

@[simp] theorem Za.stepFree_maps (z : Za) : z.stepFree.tag = z.tag ∧ z.stepFree.regs = z.regs := by simp [Za.stepFree]

@[simp] theorem Za.tearLoad_maps (z : Za) (e : Nat) (m : ModelSlot) :
    (z.tearLoad e m).tag = z.tag ∧ (z.tearLoad e m).regs = z.regs := by
  unfold Za.tearLoad
  (repeat' split) <;> simp

@[simp] theorem Za.drainCtx_maps (z : Za) (e d : Nat) (c : Ctx) :
    (z.drainCtx e d c).tag = z.tag ∧ (z.drainCtx e d c).regs = z.regs := by
  unfold Za.drainCtx
  split <;> simp

@[simp] theorem Za.stepDrain_maps (z : Za) : z.stepDrain.tag = z.tag ∧ z.stepDrain.regs = z.regs := by
  unfold Za.stepDrain
  dsimp only
  refine ⟨Za.foldl_tag (fun x d => ?_) .., Za.foldl_regs (fun x d => ?_) ..⟩ <;>
    (repeat' split) <;> simp

@[simp] theorem Za.swapNow_maps (z : Za) (e s : Nat) (m : ModelSlot) (a : ModelArea) :
    (z.swapNow e s m a).tag = z.tag ∧ (z.swapNow e s m a).regs = z.regs := by simp [Za.swapNow]

@[simp] theorem Za.swapSlot_maps (z : Za) (e : Nat) (c : Ctx) (m : ModelSlot) :
    (z.swapSlot e c m).tag = z.tag ∧ (z.swapSlot e c m).regs = z.regs := by
  unfold Za.swapSlot
  (repeat' split) <;> simp

@[simp] theorem Za.unspill_maps (z : Za) (e : Nat) : (z.unspill e).tag = z.tag ∧ (z.unspill e).regs = z.regs := by
  unfold Za.unspill
  dsimp only
  refine ⟨Za.foldl_tag (fun x d => ?_) .., Za.foldl_regs (fun x d => ?_) ..⟩ <;>
    (repeat' split) <;> simp

@[simp] theorem Za.frontCtx_maps (z : Za) (e : Nat) (c : Ctx) : (z.frontCtx e c).tag = z.tag ∧ (z.frontCtx e c).regs = z.regs := by
  unfold Za.frontCtx
  dsimp only
  (repeat' split) <;> simp

@[simp] theorem Za.stepFronts_maps (z : Za) : z.stepFronts.tag = z.tag ∧ z.stepFronts.regs = z.regs := by simp [Za.stepFronts]

@[simp] theorem Za.turnModels_maps (z : Za) : z.turnModels.tag = z.tag ∧ z.turnModels.regs = z.regs := ⟨rfl, rfl⟩

@[simp] theorem Za.startPasses_maps (z : Za) : z.startPasses.tag = z.tag ∧ z.startPasses.regs = z.regs := by
  unfold Za.startPasses
  (repeat' split) <;> simp

@[simp] theorem Za.replaceTiles_maps (z : Za) : z.replaceTiles.tag = z.tag ∧ z.replaceTiles.regs = z.regs := by simp [Za.replaceTiles]

@[simp] theorem Za.repairs_maps (z : Za) : z.repairs.tag = z.tag ∧ z.repairs.regs = z.regs := by simp [Za.repairs]

@[simp] theorem Za.stepTables_maps (z : Za) : z.stepTables.tag = z.tag ∧ z.stepTables.regs = z.regs := ⟨rfl, rfl⟩

@[simp] theorem Za.startCtx_maps (z : Za) (e : Nat) (c : Ctx) : (z.startCtx e c).tag = z.tag ∧ (z.startCtx e c).regs = z.regs := by
  unfold Za.startCtx
  split <;> simp

@[simp] theorem Za.stepStarts_maps (z : Za) : z.stepStarts.tag = z.tag ∧ z.stepStarts.regs = z.regs := by simp [Za.stepStarts]

theorem Za.policeFaults_sameMaps (z : Za) (p : Nat) : (z.policeFaults p).SameMaps z :=
  Za.foldl_sameMaps (fun _ _ => Za.raise_sameMaps ..) _ z

@[simp] theorem Za.policeFaults_maps (z : Za) (p : Nat) : (z.policeFaults p).tag = z.tag ∧ (z.policeFaults p).regs = z.regs :=
  z.policeFaults_sameMaps p

@[simp] theorem Za.turnLinks_maps (z : Za) : z.turnLinks.tag = z.tag ∧ z.turnLinks.regs = z.regs := by simp [Za.turnLinks]

@[simp] theorem Za.turnDies_maps (z : Za) : z.turnDies.tag = z.tag ∧ z.turnDies.regs = z.regs := by simp [Za.turnDies]

@[simp] theorem Za.openView_maps (z : Za) (e : Nat) (c : Ctx) :
    (z.openView e c).tag = z.tag ∧ (z.openView e c).regs = z.regs := by simp [Za.openView]

@[simp] theorem Za.passView_maps (z : Za) (e : Nat) (c : Ctx) :
    (z.passView e c).tag = z.tag ∧ (z.passView e c).regs = z.regs := by simp [Za.passView]

@[simp] theorem Za.freeStates_maps (z : Za) (e : Nat) (c : Ctx) :
    (z.freeStates e c).tag = z.tag ∧ (z.freeStates e c).regs = z.regs := by
  unfold Za.freeStates
  split <;> exact ⟨rfl, rfl⟩

@[simp] theorem Za.workCtx_maps (z : Za) (e : Nat) (c : Ctx) : (z.workCtx e c).tag = z.tag ∧ (z.workCtx e c).regs = z.regs := by
  unfold Za.workCtx
  split <;> simp

@[simp] theorem Za.stepWork_maps (z : Za) : z.stepWork.tag = z.tag ∧ z.stepWork.regs = z.regs := by
  unfold Za.stepWork
  split <;> simp

@[simp] theorem Za.summarize_maps (z : Za) (marked : List FrameWork) (audit : List Quantity) :
    (z.summarize marked audit).tag = z.tag ∧ (z.summarize marked audit).regs = z.regs := by simp [Za.summarize]

@[simp] theorem Za.turnBooks_maps (z : Za) : z.turnBooks.tag = z.tag ∧ z.turnBooks.regs = z.regs := ⟨rfl, rfl⟩

@[simp] theorem Za.stepEchoes_maps (z : Za) : z.stepEchoes.tag = z.tag ∧ z.stepEchoes.regs = z.regs := by simp [Za.stepEchoes]

@[simp] theorem Za.tickEvents_maps (z : Za) : z.tickEvents.tag = z.tag ∧ z.tickEvents.regs = z.regs := by simp [Za.tickEvents]

@[simp] theorem Za.tickSteps_maps (z : Za) : z.tickSteps.tag = z.tag ∧ z.tickSteps.regs = z.regs := by
  simp [Za.tickSteps]

@[simp] theorem Za.beginFrame_maps (z : Za) : z.beginFrame.tag = z.tag ∧ z.beginFrame.regs = z.regs := by
  unfold Za.beginFrame
  dsimp only
  (repeat' split) <;> simp

@[simp] theorem Za.tick_maps (z : Za) : z.tick.tag = z.tag ∧ z.tick.regs = z.regs := by
  unfold Za.tick
  (repeat' split) <;> simp

@[simp] theorem Za.hellos_maps (z : Za) : z.hellos.tag = z.tag ∧ z.hellos.regs = z.regs := by simp [Za.hellos]

@[simp] theorem Za.adoptShapers_maps (z : Za) : z.adoptShapers.tag = z.tag ∧ z.adoptShapers.regs = z.regs := by simp [Za.adoptShapers]

@[simp] theorem Za.slotBoundary_maps (z : Za) : z.slotBoundary.tag = z.tag ∧ z.slotBoundary.regs = z.regs := by
  unfold Za.slotBoundary
  dsimp only
  (repeat' split) <;> simp

end Sys2Proof.Machine
end

section
/-!
PROOFS. Every step keeps the canonical forms of the ZA40: the rows that write its tag area or its registers.
-/
namespace Sys2Proof.Machine

/-! ### Writes of the tag area and the registers. -/

/-- What leaves the tag area and the registers leaves them in canonical form. -/
theorem Za.SameMaps.canonical {x z : Za} (h : x.SameMaps z) (hz : z.canonical) : x.canonical := by
  obtain ⟨ht, hr⟩ := h
  unfold Za.canonical
  rwa [ht, hr]

theorem Za.initial_canonical : Za.initial.canonical := ⟨Memory.wf_nil 256, regWf_nil _⟩

theorem Za.setReg_canonical {z : Za} (a : Nat) (w : W) (hz : z.canonical) : (z.setReg a w).canonical :=
  ⟨hz.1, regSet_wf a w hz.2⟩

theorem Za.keep_canonical {z : Za} (a : Nat) (w : W) (st : Nat) (hz : z.canonical) : (z.keep a w st).1.canonical := by
  unfold Za.keep
  split
  · exact Za.setReg_canonical a w hz
  · exact hz

theorem Za.ptpWrite_canonical {z : Za} (a : Nat) (w : W) (hz : z.canonical) : (z.ptpWrite a w).1.canonical := by
  unfold Za.ptpWrite
  dsimp only
  split
  · exact Za.keep_canonical a w _ hz
  · (repeat' split) <;> first | exact hz | exact Za.setReg_canonical a _ hz

theorem Za.portWrite_canonical {z : Za} (P : Nat) (w : W) (hz : z.canonical) : (z.portWrite P w).1.canonical := by
  unfold Za.portWrite
  extract_lets st w' changed z'
  have hz' : z'.canonical := Za.setReg_canonical _ _ hz
  split
  · exact hz
  · dsimp only
    split
    · exact Za.SameMaps.canonical (Za.foldl_sameMaps (fun x p => Za.linkRestart_maps x p) _ z') hz'
    · exact hz'

theorem Za.gclWrite_canonical {z : Za} (p : Nat) (w : W) (hz : z.canonical) : (z.gclWrite p w).1.canonical := by
  have hset : ∀ a v f, ((z.setReg a v).modLink p f).canonical := fun a v f => Za.setReg_canonical a v hz
  unfold Za.gclWrite
  dsimp only
  (repeat' split) <;> first | exact hz | exact hset ..

theorem Za.gclEntryWrite_canonical {z : Za} (a : Nat) (w : W) (hz : z.canonical) : (z.gclEntryWrite a w).1.canonical := by
  unfold Za.gclEntryWrite
  split
  · exact hz
  · exact Za.keep_canonical _ _ _ hz

theorem Za.policeWrite_canonical {z : Za} (a : Nat) (w : W) (hz : z.canonical) : (z.policeWrite a w).1.canonical := by
  have hk := Za.keep_canonical a w (rateStatus true (a / 4 % 2) w) hz
  unfold Za.policeWrite
  dsimp only
  split
  · exact hk
  · exact hk

/-- A word of the tag area lies within its 256 bytes. -/
theorem Za.tagWordWrite_canonical {z : Za} {a : Nat} (w : W) (ha : a < 0x200) (hal : a % 4 = 0) (hz : z.canonical) :
    (z.tagWordWrite a w).1.canonical := by
  unfold Za.tagWordWrite
  split
  · exact hz
  · exact ⟨Memory.writeWord_wf w hz.1 (by omega), hz.2⟩

/-- A choice between two results keeps what both keep. -/
theorem Za.fst_ite_canonical {α : Type} {c : Prop} [Decidable c] {x y : Za × α} (hx : c → x.1.canonical) (hy : ¬c → y.1.canonical) :
    (if c then x else y).1.canonical := by
  split
  next h => exact hx h
  next h => exact hy h

/-- A word of the management space is written at a whole-word address. -/
theorem Za.mgmtWrite_canonical {z : Za} {a : Nat} (w : W) (hal : a % 4 = 0) (hz : z.canonical) : (z.mgmtWrite a w).1.canonical := by
  unfold Za.mgmtWrite
  refine Za.fst_ite_canonical (fun _ => hz) fun _ => ?_
  refine Za.fst_ite_canonical (fun ha => Za.tagWordWrite_canonical w ha hal hz) fun _ => ?_
  refine Za.fst_ite_canonical (fun _ => Za.keep_canonical a w _ hz) fun _ => ?_
  refine Za.fst_ite_canonical (fun _ => Za.ptpWrite_canonical a w hz) fun _ => ?_
  refine Za.fst_ite_canonical (fun _ => ?mark) fun _ => ?_
  case mark => exact Za.fst_ite_canonical (fun _ => Za.SameMaps.canonical (Za.markWrite_maps ..) hz) fun _ => hz
  refine Za.fst_ite_canonical (fun _ => Za.keep_canonical a w _ hz) fun _ => ?_
  refine Za.fst_ite_canonical (fun _ => ?port) fun _ => ?_
  case port => exact Za.fst_ite_canonical (fun _ => Za.portWrite_canonical _ w hz) fun _ => hz
  refine Za.fst_ite_canonical (fun _ => hz) fun _ => ?_
  refine Za.fst_ite_canonical (fun _ => ?power) fun _ => ?_
  case power => dsimp only; split <;> exact hz
  refine Za.fst_ite_canonical (fun _ => ?gate) fun _ => ?_
  case gate => exact Za.fst_ite_canonical (fun _ => Za.gclWrite_canonical _ w hz) fun _ => Za.gclEntryWrite_canonical a w hz
  refine Za.fst_ite_canonical (fun _ => Za.keep_canonical a w _ hz) fun _ => ?_
  exact Za.fst_ite_canonical (fun _ => Za.policeWrite_canonical a w hz) fun _ => hz

theorem Za.mgmtWrites_canonical {z : Za} {ws : List (Nat × Nat × W)} (hal : ∀ x ∈ ws, x.2.1 % 4 = 0) (hz : z.canonical) :
    (z.mgmtWrites ws).1.canonical := by
  induction ws with
  | nil => exact hz
  | cons x ws ih =>
    obtain ⟨i, a, w⟩ := x
    have hrest := ih fun y hy => hal y (List.mem_cons_of_mem _ hy)
    have ha : a % 4 = 0 := hal _ (List.mem_cons_self ..)
    unfold Za.mgmtWrites
    dsimp only
    split
    · exact Za.mgmtWrite_canonical w ha hrest
    · exact hrest

/-- The addresses that have passed the test of a register access are whole-word addresses (R475). -/
theorem mod_four_of_firstUnmapped {mapped : Nat → Bool} {as : List Nat} (h : firstUnmapped mapped as = none) :
    ∀ a ∈ as, a % 4 = 0 := by
  intro a ha
  have hnot := List.find?_eq_none.mp h a ha
  simp only [Bool.not_eq_true, Bool.not_eq_false', Bool.and_eq_true, beq_iff_eq] at hnot
  exact hnot.2

theorem Za.regTest_aligned {z : Za} {h : HuskCmd} (ht : z.regTest h = none) : ∀ a ∈ regAddrs h, a % 4 = 0 := by
  unfold Za.regTest at ht
  dsimp only at ht
  split at ht
  · cases ht
  · split at ht
    · cases ht
    next hnone => exact mod_four_of_firstUnmapped hnone

theorem Za.regWrite_canonical {z : Za} (h : HuskCmd) (hz : z.canonical) : (z.regWrite h).1.canonical := by
  unfold Za.regWrite
  split
  · exact hz
  next htest =>
    have hal : ∀ x ∈ (List.range (regAddrs h).length).map (fun i => (i, (regAddrs h).getD i 0, word (huskPay h) i)), x.2.1 % 4 = 0 := by
      refine List.forall_mem_map.mpr fun i hi => ?_
      have hlt : i < (regAddrs h).length := List.mem_range.mp hi
      rw [List.getD_eq_getElem?_getD, List.getElem?_eq_getElem hlt, Option.getD_some]
      exact Za.regTest_aligned htest _ (List.getElem_mem hlt)
    have hws := Za.mgmtWrites_canonical hal hz
    dsimp only
    split
    · exact hz
    next heq =>
      rw [heq] at hws
      exact hws

theorem Za.tagWrite_canonical {z : Za} (h : HuskCmd) (hz : z.canonical) : (z.tagWrite h).1.canonical := by
  unfold Za.tagWrite
  dsimp only
  split
  · exact hz
  split
  · exact hz
  · refine ⟨Memory.writeBytes_wf _ hz.1 ?_, hz.2⟩
    have hlen := List.length_take_le (huskP1 h) (bytesOf (huskPay h))
    omega

theorem Za.rowWrite_canonical {z : Za} {a : Nat} (w : W) (hal : a % 4 = 0) (hz : z.canonical) : (z.rowWrite a w).canonical := by
  unfold Za.rowWrite
  split
  · exact hz
  · exact Za.mgmtWrite_canonical w hal hz

/-! ### Boot, resets and power (R451, R462, R467). -/

theorem Memory.wf_filter {size : Nat} {m : Memory} (f : Host.Cell → Bool) (h : Memory.wf size m = true) :
    Memory.wf size (m.filter f) = true := by
  simp only [Memory.wf, Bool.and_eq_true, decide_eq_true_eq, List.all_eq_true] at h ⊢
  exact ⟨h.1.filter _, fun p hp => h.2 p (List.mem_filter.1 hp).1⟩

theorem Za.startFirmware_canonical {z : Za} (hz : z.canonical) : z.startFirmware.canonical := by
  unfold Za.startFirmware
  extract_lets _ b wake lat _ _ z' links
  have hz' : z'.canonical := ⟨hz.1, regWf_filter _ hz.2⟩
  clear_value z'
  exact Za.SameMaps.canonical (Za.finish_maps ..) (Za.SameMaps.canonical (Za.foldl_sameMaps (fun x p => Za.linkRestart_maps x p) _ z') hz')

theorem Za.imageVerify_canonical {z : Za} (hz : z.canonical) : z.imageVerify.canonical := by
  unfold Za.imageVerify
  split
  · exact hz
  · split
    · exact Za.startFirmware_canonical hz
    · exact Za.SameMaps.canonical (Za.bootFail_maps ..) hz

theorem Za.pinCleared_canonical {z : Za} (hz : z.canonical) : z.pinCleared.canonical := ⟨hz.1, regWf_filter _ hz.2⟩

theorem Za.warmCleared_canonical {z : Za} (hz : z.canonical) : z.warmCleared.canonical := Za.pinCleared_canonical hz

theorem Za.lullCleared_canonical {z : Za} (hz : z.canonical) : z.lullCleared.canonical := Za.pinCleared_canonical hz

/-- The serial number is kept of the tag area (R7). -/
theorem Za.serial_wf {z : Za} (hz : z.canonical) : Memory.wf 256 z.serial = true := Memory.wf_filter _ hz.1

theorem Za.powerOn_canonical {z : Za} (vin : BitVec 16) (strap : Bool) (hz : z.canonical) : (z.powerOn vin strap).canonical := by
  unfold Za.powerOn
  exact Za.SameMaps.canonical (Za.bootStart_maps _) ⟨Za.serial_wf hz, regWf_nil _⟩

theorem Za.powerOff_canonical {z : Za} (cause rail temp : Nat) (vin : BitVec 16) (tripped : Bool) (hz : z.canonical) :
    (z.powerOff cause rail temp vin tripped).canonical := ⟨Za.serial_wf hz, regWf_nil _⟩

theorem Za.powerLoss_canonical {z : Za} (cause : PowerCause) (rail : Nat) (vin : BitVec 16) (hz : z.canonical) :
    (z.powerLoss cause rail vin).canonical := by
  have hoff : ∀ c r t v b, (z.powerOff c r t v b).canonical := fun c r t v b => Za.powerOff_canonical c r t v b hz
  unfold Za.powerLoss
  split
  · exact hz
  · cases cause <;> dsimp only <;> first | exact hoff .. | (split <;> first | exact hoff .. | exact hz)

theorem Za.thermalTrip_canonical {z : Za} (temp : Nat) (vin : BitVec 16) (hz : z.canonical) : (z.thermalTrip temp vin).canonical := by
  unfold Za.thermalTrip
  split
  · exact Za.powerOff_canonical _ _ _ _ _ hz
  · exact hz

theorem Za.svcPin_canonical {z : Za} (low : Bool) (hz : z.canonical) : (z.svcPin low).canonical := by
  unfold Za.svcPin
  split
  · exact hz
  split
  · split <;> exact hz
  split
  · split
    · exact hz
    · exact Za.pinCleared_canonical hz
  split
  · exact Za.SameMaps.canonical (Za.bootStart_maps _) hz
  · exact hz

theorem Za.warm_canonical {z : Za} (hz : z.canonical) : z.warm.canonical := by
  unfold Za.warm
  split
  · exact Za.SameMaps.canonical (Za.bootStart_maps _) (Za.warmCleared_canonical hz)
  · exact hz

theorem Za.enterLull_canonical {z : Za} (handle : W) (hz : z.canonical) : (z.enterLull handle).canonical := by
  unfold Za.enterLull
  split
  · exact hz
  · split
    · exact hz
    · dsimp only
      split
      · exact Za.SameMaps.canonical (Za.foldl_sameMaps (fun x p => Za.linkRestart_maps x p) _ _) hz
      · exact Za.lullCleared_canonical hz
      · exact hz

/-! ### Husks (R371 to R377). -/

/-- Every opcode but REG_WRITE and TAG_WRITE leaves the tag area and the registers. -/
theorem Za.runOp_sameMaps (z : Za) (free : Nat) (dom : Nat → Nat → Nat) {op : Opcode} (h : HuskCmd) (handle : W)
    (hreg : op ≠ .regWrite) (htag : op ≠ .tagWrite) : (z.runOp free dom op h handle).1.SameMaps z := by
  cases op
  case regWrite => exact absurd rfl hreg
  case tagWrite => exact absurd rfl htag
  case ctxAdmit =>
    unfold Za.runOp
    dsimp only
    split
    · exact ⟨rfl, rfl⟩
    · exact Za.ctxAdmit_maps ..
  all_goals exact ⟨by simp [Za.runOp], by simp [Za.runOp]⟩

theorem Za.runOp_canonical {z : Za} (free : Nat) (dom : Nat → Nat → Nat) (op : Opcode) (h : HuskCmd) (handle : W) (hz : z.canonical) :
    (z.runOp free dom op h handle).1.canonical := by
  by_cases hreg : op = .regWrite
  · subst hreg
    exact Za.regWrite_canonical h hz
  by_cases htag : op = .tagWrite
  · subst htag
    exact Za.tagWrite_canonical h hz
  · exact (z.runOp_sameMaps free dom h handle hreg htag).canonical hz

theorem Za.replyNow_canonical {z : Za} (op : Opcode) (h : HuskCmd) (ckind : Nat) (handle : W) (r : Result) (cache : Bool)
    (hz : z.canonical) : (z.replyNow op h ckind handle r cache).canonical := Za.SameMaps.canonical (Za.replyNow_maps ..) hz

theorem Za.finish_canonical {z : Za} (handle : W) (r : Result) (hz : z.canonical) : (z.finish handle r).canonical :=
  Za.SameMaps.canonical (Za.finish_maps ..) hz

theorem Za.runShort_canonical {z : Za} (free : Nat) (dom : Nat → Nat → Nat) (op : Opcode) (h : HuskCmd) (hz : z.canonical) :
    (z.runShort free dom op h).canonical := by
  unfold Za.runShort
  dsimp only
  split
  · exact Za.SameMaps.canonical (Za.sendRecord_maps ..) hz
  · exact Za.replyNow_canonical _ _ _ _ _ _ (Za.runOp_canonical free dom op h 0 hz)

theorem Za.runLong_canonical {z : Za} (free : Nat) (dom : Nat → Nat → Nat) (op : Opcode) (h : HuskCmd) (hz : z.canonical) :
    (z.runLong free dom op h).canonical := by
  unfold Za.runLong
  split
  · exact Za.replyNow_canonical _ _ _ _ _ _ hz
  next p htake =>
    have hp := Za.SameMaps.canonical (Za.take_maps htake) hz
    have hrun := Za.runOp_canonical free dom op h p.2 hp
    split
    next z' r heq =>
      rw [heq] at hrun
      exact Za.replyNow_canonical _ _ _ _ _ _ (Za.SameMaps.canonical (Za.untake_maps z' z) hrun)
    next z' heq =>
      rw [heq] at hrun
      exact Za.replyNow_canonical _ _ _ _ _ _ hrun

theorem Za.runChained_canonical {z : Za} (free : Nat) (dom : Nat → Nat → Nat) (op : Opcode) (h : HuskCmd) (handle : W)
    (relay : Option Nat) (hz : z.canonical) : (z.runChained free dom op h handle relay).canonical := by
  unfold Za.runChained
  split
  · split
    · exact Za.finish_canonical _ _ hz
    · split
      · exact Za.SameMaps.canonical (Za.relayLong_maps ..) hz
      · exact Za.SameMaps.canonical (Za.relay_maps ..) hz
  · have hrun := Za.runOp_canonical free dom op h handle hz
    split
    next z' r heq =>
      rw [heq] at hrun
      exact Za.finish_canonical _ _ hrun
    next z' heq =>
      rw [heq] at hrun
      exact hrun

theorem Za.acceptChained_canonical {z : Za} (free : Nat) (dom : Nat → Nat → Nat) (op : Opcode) (h : HuskCmd) (relay : Option Nat)
    (hz : z.canonical) : (z.acceptChained free dom op h relay).canonical := by
  unfold Za.acceptChained
  dsimp only
  split
  · exact Za.replyNow_canonical _ _ _ _ _ _ hz
  · split
    · exact Za.replyNow_canonical _ _ _ _ _ _ hz
    next p htake =>
      have hp := Za.replyNow_canonical op h 1 p.2 (resultOf stOk) true (Za.SameMaps.canonical (Za.take_maps htake) hz)
      split
      · exact hp
      · exact Za.runChained_canonical _ _ _ _ _ _ hp

theorem Za.huskRun_canonical {z : Za} (free : Nat) (dom : Nat → Nat → Nat) (op : Opcode) (h : HuskCmd) (hz : z.canonical) :
    (z.huskRun free dom op h).canonical := by
  unfold Za.huskRun
  split
  · split
    · exact hz
    · exact Za.SameMaps.canonical (Za.sendRecord_maps ..) hz
  · exact Za.replyNow_canonical _ _ _ _ _ _ hz
  · split
    · exact Za.replyNow_canonical _ _ _ _ _ _ hz
    · dsimp only
      split
      · exact Za.acceptChained_canonical _ _ _ _ _ hz
      · split
        · exact Za.SameMaps.canonical (Za.acceptRelay_maps ..) hz
        · split
          · exact Za.runLong_canonical _ _ _ _ hz
          · exact Za.runShort_canonical _ _ _ _ hz

theorem Za.huskBody_canonical {z : Za} (free : Nat) (dom : Nat → Nat → Nat) (op : Opcode) (h : HuskCmd) (hz : z.canonical) :
    (z.huskBody free dom op h).canonical := by
  unfold Za.huskBody
  split
  · exact Za.replyNow_canonical _ _ _ _ _ _ hz
  · split
    · exact Za.SameMaps.canonical (Za.forwardHusk_maps ..) hz
    · split
      · exact Za.replyNow_canonical _ _ _ _ _ _ hz
      · exact Za.huskRun_canonical _ _ _ _ hz

theorem Za.husk_canonical {z : Za} (free : Nat) (dom : Nat → Nat → Nat) (op : Opcode) (h : HuskCmd) (hz : z.canonical) :
    (z.husk free dom op h).canonical := by
  unfold Za.husk
  split
  · exact hz
  · extract_lets r
    have hr : r.1.canonical := by
      unfold r
      split
      · exact hz
      · exact Za.SameMaps.canonical (Za.receive_maps ..) hz
    clear_value r
    split
    · exact hr
    · split
      · exact hr
      · split
        · exact hr
        · exact Za.huskBody_canonical _ _ _ _ hr

theorem Za.chainRelease_canonical {z : Za} (free : Nat) (dom : Nat → Nat → Nat) (handle : W) (hz : z.canonical) :
    (z.chainRelease free dom handle).canonical := by
  unfold Za.chainRelease
  split
  · exact hz
  · split
    · exact hz
    · exact Za.runChained_canonical _ _ _ _ _ _ hz

theorem Za.doneHandle_canonical {z : Za} (handle : W) (hz : z.canonical) : (z.doneHandle handle).canonical := by
  unfold Za.doneHandle
  split
  · exact Za.enterLull_canonical _ (Za.SameMaps.canonical (Za.postDone_maps ..) hz)
  · exact hz

theorem Za.keomonHusk_canonical {z : Za} (free : Nat) (dom : Nat → Nat → Nat) (body : List Byte) (hz : z.canonical) :
    (z.keomonHusk free dom body).canonical := by
  unfold Za.keomonHusk
  dsimp only
  split
  · exact hz
  · split
    · exact Za.SameMaps.canonical (Za.replyUnlisted_maps ..) hz
    · split
      · exact Za.huskBody_canonical _ _ _ _ hz
      · exact Za.replyNow_canonical _ _ _ _ _ _ hz

theorem Za.keomonFrame_canonical {z : Za} (free : Nat) (dom : Nat → Nat → Nat) (bs : List Byte) (hz : z.canonical) :
    (z.keomonFrame free dom bs).canonical := by
  unfold Za.keomonFrame
  split
  · exact hz
  · split
    · exact hz
    · extract_lets gap _ z1 z2
      have h2 : z2.canonical := by
        unfold z2
        split <;> exact hz
      clear_value z2
      split
      · exact Za.keomonHusk_canonical _ _ _ h2
      · split
        · exact Za.SameMaps.canonical (Za.loadReq_maps ..) h2
        · exact h2
      · split
        · exact Za.SameMaps.canonical (Za.loadData_maps ..) h2
        · exact h2
      · exact h2

end Sys2Proof.Machine
end

section
/-!
PROOFS. What the ZA40 sends, tells, counts and reports leaves its contexts, its dies and its work.
-/
namespace Sys2Proof.Machine

/-! ### What remains when messages, handles, waits, counts, faults and Frosts are left aside. -/

/-- A ZA40 without what its messages and reports change: links, keomon, sync objects and waits, handles and the records kept,
faults held and logged, the Frost, a warm reset asked for, and the counters. -/
def Za.core (z : Za) : Za :=
  { z with
    links := [], syncs := [], waits := [], forward := .initial, faults := [], faultLog := [], frost := .initial, keomon := .initial
    counters := [], cmds := { z.cmds with handles := [], cache := [], retained := [] }
    power := { z.power with warmDue := false } }

/-- `x` is `z` after messages and reports. -/
def Za.Reports (z x : Za) : Prop := x.core = z.core

namespace Za.Reports
variable {a b c z x : Za}

theorem refl (z : Za) : z.Reports z := rfl

theorem trans (h : a.Reports b) (k : b.Reports c) : a.Reports c := Eq.trans k h

theorem ite {p : Prop} [Decidable p] (hx : z.Reports a) (hy : z.Reports b) : z.Reports (if p then a else b) := by
  split
  · exact hx
  · exact hy

theorem foldl {α : Type} {f : Za → α → Za} (hf : ∀ (z : Za) a, z.Reports (f z a)) (l : List α) (z : Za) : z.Reports (l.foldl f z) :=
  List.foldlRecOn (motive := fun x : Za => z.Reports x) l f (refl z) fun x hx a _ => hx.trans (hf x a)

/-- A field that the core keeps is kept. -/
theorem field {α : Type} (h : z.Reports x) (g : Za → α) (hg : ∀ y : Za, g y.core = g y) : g x = g z := by
  rw [← hg x, ← hg z, h]

theorem ctxs (h : z.Reports x) : x.ctxs = z.ctxs := h.field Za.ctxs fun _ => rfl
theorem dies (h : z.Reports x) : x.dies = z.dies := h.field Za.dies fun _ => rfl
theorem works (h : z.Reports x) : x.works = z.works := h.field Za.works fun _ => rfl
theorem tag (h : z.Reports x) : x.tag = z.tag := h.field Za.tag fun _ => rfl
theorem regs (h : z.Reports x) : x.regs = z.regs := h.field Za.regs fun _ => rfl
theorem models (h : z.Reports x) : x.models = z.models := h.field Za.models fun _ => rfl
theorem rack (h : z.Reports x) : x.rack = z.rack := h.field Za.rack fun _ => rfl
theorem time (h : z.Reports x) : x.time = z.time := h.field Za.time fun _ => rfl
theorem fences (h : z.Reports x) : x.fences = z.fences := h.field Za.fences fun _ => rfl
theorem seed (h : z.Reports x) : x.seed = z.seed := h.field Za.seed fun _ => rfl
theorem seedHeld (h : z.Reports x) : x.seedHeld = z.seedHeld := h.field Za.seedHeld fun _ => rfl
theorem rebuild (h : z.Reports x) : x.rebuild = z.rebuild := h.field Za.rebuild fun _ => rfl
theorem detRecs (h : z.Reports x) : x.detRecs = z.detRecs := h.field Za.detRecs fun _ => rfl
theorem restores (h : z.Reports x) : x.restores = z.restores := h.field Za.restores fun _ => rfl
theorem kept (h : z.Reports x) : x.kept = z.kept := h.field Za.kept fun _ => rfl
theorem boot (h : z.Reports x) : x.boot = z.boot := h.field Za.boot fun _ => rfl
theorem ecc (h : z.Reports x) : x.ecc = z.ecc := h.field Za.ecc fun _ => rfl

end Za.Reports

/-! ### Updates of what the core leaves aside. -/

theorem Za.withFrost_reports (z : Za) (frost : ZaFrost) : z.Reports { z with frost } := rfl

theorem Za.withWaits_reports (z : Za) (waits : List Wait) : z.Reports { z with waits } := rfl

theorem Za.withSyncs_reports (z : Za) (syncs : List (Nat × SyncObj)) : z.Reports { z with syncs } := rfl

theorem Za.withFaults_reports (z : Za) (faults : List HeldFault) : z.Reports { z with faults } := rfl

theorem Za.withLog_reports (z : Za) (faultLog : List LogEntry) : z.Reports { z with faultLog } := rfl

theorem Za.withHandles_reports (z : Za) (handles : List Handle) (cache : List CacheEntry) (retained : List Retained) :
    z.Reports { z with cmds := { z.cmds with handles, cache, retained } } := rfl

theorem Za.withWarm_reports (z : Za) (warmDue : Bool) : z.Reports { z with power := { z.power with warmDue } } := rfl

/-! ### Messages. -/

theorem Za.count_reports (z : Za) (c : ZCnt) (n : Nat) : z.Reports (z.count c n) := rfl

theorem Za.modLink_reports (z : Za) (p : Nat) (g : ZaLink → ZaLink) : z.Reports (z.modLink p g) := rfl

theorem Za.enqueue_reports (z : Za) (p : Nat) (die : Option Nat) (f : TxFrame) : z.Reports (z.enqueue p die f) := rfl

theorem Za.toHost_reports (z : Za) (kind : Nat) (body : List Byte) : z.Reports (z.toHost kind body) := rfl

theorem Za.forwardPut_reports (z : Za) (r : ForwardRec) : z.Reports (z.forwardPut r) := rfl

theorem Za.toDie_reports (z : Za) (die cls msg ctx gen plen : Nat) (body : List W) :
    z.Reports (z.toDie die cls msg ctx gen plen body) := by
  unfold Za.toDie
  split
  · exact .ite (.refl z) (z.enqueue_reports _ _ _)
  · exact .refl z

theorem Za.toAgg_reports (z : Za) (agg cls msg ctx gen plen : Nat) (body : List W) :
    z.Reports (z.toAgg agg cls msg ctx gen plen body) := by
  unfold Za.toAgg
  exact .ite (z.enqueue_reports _ _ _) (z.count_reports _ 1)

theorem Za.toPeer_reports (z : Za) (p cls msg plen : Nat) (body : List W) : z.Reports (z.toPeer p cls msg plen body) := rfl

theorem Za.toRequester_reports (z : Za) (req : Requester) (ctx gen : Nat) (rec_ : List W) :
    z.Reports (z.toRequester req ctx gen rec_) := by
  unfold Za.toRequester
  exact .ite (.refl z) (.ite (z.toHost_reports _ _) (z.enqueue_reports _ _ _))

theorem Za.toCollectors_reports (z : Za) (cls msg ctx gen plen : Nat) (body : List W) :
    z.Reports (z.toCollectors cls msg ctx gen plen body) := .foldl (fun x p => x.enqueue_reports _ _ _) _ z

theorem Za.toSubscribers_reports (z : Za) (e kind cls msg : Nat) (body : List W) :
    z.Reports (z.toSubscribers e kind cls msg body) := by
  unfold Za.toSubscribers
  split
  · exact .refl z
  · exact .foldl (fun x s => .ite (x.toHost_reports _ _) (.foldl (fun y p => y.enqueue_reports _ _ _) _ x)) _ z

theorem Za.sendRecord_reports (z : Za) (req : Requester) (w1 : W) (rec_ : List W) : z.Reports (z.sendRecord req w1 rec_) :=
  z.toRequester_reports _ _ _ _

theorem Za.replyNow_reports (z : Za) (op : Opcode) (h : HuskCmd) (ckind : Nat) (handle : W) (r : Result) (cache : Bool) :
    z.Reports (z.replyNow op h ckind handle r cache) := by
  unfold Za.replyNow
  cases cache
  · exact z.sendRecord_reports _ _ _
  · exact Za.sendRecord_reports { z with cmds := { z.cmds with cache := _ } } _ _ _

theorem Za.answered_reports (z : Za) (op : Opcode) (h : HuskCmd) (r : Result) : z.Reports (z.answered op h r) :=
  z.replyNow_reports _ _ _ _ _ _

theorem Za.accepted_reports (z : Za) (op : Opcode) (h : HuskCmd) (handle : W) : z.Reports (z.accepted op h handle) :=
  z.replyNow_reports _ _ _ _ _ _

/-! ### Handles, waits and sync objects. -/

theorem Za.finish_reports (z : Za) (handle : W) (r : Result) : z.Reports (z.finish handle r) := .ite (.refl z) rfl

theorem Za.finishWhere_reports (z : Za) (p : Handle → Bool) (signals : Bool) (r : Result) : z.Reports (z.finishWhere p signals r) :=
  rfl

theorem Za.testWaits_reports (z : Za) (i : Nat) : z.Reports (z.testWaits i) := by
  unfold Za.testWaits
  split
  · exact .refl z
  · exact Za.Reports.trans (b := { z with waits := _ }) rfl
      (.foldl (fun x w => .ite (x.finish_reports _ _) (.refl x)) _ _)

theorem Za.modSync_reports (z : Za) (i : Nat) (f : SyncObj → SyncObj) : z.Reports (z.modSync i f) := by
  unfold Za.modSync
  split
  · exact .refl z
  · exact Za.Reports.trans (b := { z with syncs := _ }) rfl (Za.testWaits_reports _ i)

theorem Za.handleEvent_reports (z : Za) (h : W) : z.Reports (z.handleEvent h) := .foldl (fun x i => x.modSync_reports i _) _ z

theorem Za.event_reports (z : Za) (id gen : Nat) (src : SyncSource) (n : Nat) : z.Reports (z.event id gen src n) :=
  .ite (.refl z) (.foldl (fun x i => x.modSync_reports i _) _ z)

theorem Za.signal_reports (z : Za) (h : Handle) (r : Result) : z.Reports (z.signal h r).1 := by
  unfold Za.signal
  split
  · exact .refl z
  · split
    · exact .refl z
    · extract_lets owned live
      split
      · exact z.modSync_reports _ _
      · exact .refl z

theorem Za.postDone_reports (z : Za) (handle : W) : z.Reports (z.postDone handle) := by
  unfold Za.postDone
  split
  · exact .refl z
  · exact (((z.signal_reports _ _).trans (Za.withHandles_reports _ _ _ _)).trans (Za.handleEvent_reports _ handle)).trans
      (Za.sendRecord_reports _ _ _ _)

/-! ### Frosts and faults. -/

theorem Za.frostSend_reports (z : Za) (msg : Nat) (dies : List Nat) (instant : Nat) : z.Reports (z.frostSend msg dies instant) :=
  .foldl (fun x die => x.toDie_reports _ _ _ _ _ _ _) _ z

theorem Za.frostBegin_reports (z : Za) (msg instant : Nat) : z.Reports (z.frostBegin msg instant) :=
  Za.Reports.trans (b := { z with frost := _ }) rfl (Za.frostSend_reports _ _ _ _)

theorem Za.stop_reports (z : Za) (smear : Bool) : z.Reports (z.stop smear) := z.withFrost_reports _

theorem Za.armed_reports (z : Za) (frostId : W) (full : Bool) (t : Nat) : z.Reports (z.armed frostId full t) :=
  z.withFrost_reports _

theorem Za.stopNow_reports (z : Za) (frostId : W) (full : Bool) (except : Option Nat) :
    z.Reports (z.stopNow frostId full except) :=
  (((((z.finish_reports _ _).trans (Za.withFrost_reports _ _)).trans (Za.armed_reports _ _ _ _)).trans
    (Za.stop_reports _ _)).trans (Za.frostBegin_reports _ _ _)).trans (.foldl (fun x p => x.toPeer_reports _ _ _ _ _) _ _)

theorem Za.sendFault_reports (z : Za) (f : HeldFault) : z.Reports (z.sendFault f) :=
  .ite (((z.withLog_reports _).trans (Za.forwardPut_reports _ _)).trans (Za.toAgg_reports _ _ _ _ _ _ _ _))
    ((z.withLog_reports _).trans (Za.forwardPut_reports _ _))

theorem Za.sendFaults_reports (z : Za) : z.Reports z.sendFaults :=
  (z.withFaults_reports []).trans (.foldl (fun x f => x.sendFault_reports f) _ _)

theorem Za.raiseMsg_reports (z : Za) (m : BitVec 128) (ext : List W) : z.Reports (z.raiseMsg m ext) := by
  unfold Za.raiseMsg
  extract_lets z0 _ z1 cfg
  have h1 : z.Reports z1 := .ite ((z.sendFault_reports _).trans (z0.withWarm_reports true))
    (.ite (z.withFaults_reports _) (z.withFaults_reports _))
  exact .ite (h1.trans (z1.stopNow_reports _ _ _)) h1

theorem Za.raise_reports (z : Za) (kind : FaultKind) (unitKind : UnitKind) (unit : Nat) (op : FaultOp) (subject detail : Nat)
    (ext : List W) : z.Reports (z.raise kind unitKind unit op subject detail ext) := z.raiseMsg_reports _ _

theorem Za.raiseCtx_reports (z : Za) (kind : FaultKind) (unitKind : UnitKind) (unit : Nat) (op : FaultOp) (c : Ctx)
    (subject detail : Nat) (ext : List W) : z.Reports (z.raiseCtx kind unitKind unit op c subject detail ext) :=
  z.raiseMsg_reports _ _

theorem Za.raiseFence_reports (z : Za) (unitKind : UnitKind) (unit subject cause loss frame claim : Nat) :
    z.Reports (z.raiseFence unitKind unit subject cause loss frame claim) := z.raiseMsg_reports _ _

end Sys2Proof.Machine
end

section
/-!
PROOFS. Husks and register rows that set up the ZA40.
-/
namespace Sys2Proof.Machine

/-! ### Husks as rows (R369 to R372). -/

/-- A short Husk that is executed: its operation, then its reply. -/
theorem ZaDraws.of_short {c : Instr} {s : State} {op : Opcode} {h : HuskCmd} {x : Za} {r : Result}
    (hrow : exec c s = .next (s.husk op h)) (ha : s.za.accepts op h) (hl : huskLong op h = false) (hk : op ≠ .handleQuery)
    (hx : (s.za.met op h).runOp s.free s.cellDom op h 0 = (x, some r)) : ZaDraws c s (x.answered op h r) := by
  unfold ZaDraws
  rw [hrow, State.husk_za s op h ha.side, Za.husk_short ha hl hk hx]
  rfl

/-- A long Husk that takes a handle and whose own checks pass. -/
theorem ZaDraws.of_long {c : Instr} {s : State} {op : Opcode} {h : HuskCmd} {z x : Za} {handle : W}
    (hrow : exec c s = .next (s.husk op h)) (ha : s.za.begins op h z handle) (hl : huskLong op h = true)
    (hx : z.runOp s.free s.cellDom op h handle = (x, none)) : ZaDraws c s (x.accepted op h handle) := by
  unfold ZaDraws
  rw [hrow, State.husk_za s op h ha.accepts.side, Za.husk_long ha hl hx]

/-- A long Husk whose own checks fail leaves no handle. -/
theorem ZaDraws.of_refused {c : Instr} {s : State} {op : Opcode} {h : HuskCmd} {z x : Za} {handle : W} {r : Result}
    (hrow : exec c s = .next (s.husk op h)) (ha : s.za.begins op h z handle) (hl : huskLong op h = true)
    (hx : z.runOp s.free s.cellDom op h handle = (x, some r)) :
    ZaDraws c s ((x.untake (s.za.met op h)).answered op h r) := by
  unfold ZaDraws
  rw [hrow, State.husk_za s op h ha.accepts.side, Za.husk_refused ha hl hx]

/-- A Husk that is executed has no chain, so that its opcode says whether it is long. -/
theorem Za.accepts.short {z : Za} {op : Opcode} {h : HuskCmd} (ha : z.accepts op h) (hop : op.isLong = false)
    (hf : op ≠ .featPlan) : huskLong op h = false := by
  unfold huskLong
  rw [ha.plain, hop, beq_eq_false_iff_ne.2 hf]
  rfl

theorem Za.begins.long {z z1 : Za} {op : Opcode} {h : HuskCmd} {handle : W} (_ : z.begins op h z1 handle)
    (hop : op.isLong = true) : huskLong op h = true := by
  unfold huskLong
  rw [hop, Bool.or_true, Bool.true_or]

/-! ### The rows that write one register (R382). -/

/-- A row that writes one register of the management space: the write, and the status it earns. -/
theorem Za.rowWrite_eq {z : Za} {a : Nat} (w : W) (hrun : z.running = true) (hmap : zaMapped a = true) :
    z.rowWrite a w = (z.mgmtWrite a w).1.earn (z.mgmtWrite a w).2 := by
  have hboot : z.boot.phase = 4 := by
    simp only [Za.running, Bool.and_eq_true, decide_eq_true_eq] at hrun
    exact hrun.2
  unfold Za.rowWrite
  rw [hrun, Za.mapped, if_pos hboot, hmap]
  rfl

/-! ### Links that start again (R340, R365). -/

/-- A ZA40 without what a link that starts again changes too: the dies, what it serves, the loop tests, and relays. -/
def Za.base (z : Za) : Za :=
  { z.core with dies := [], serving := [], tests := [], cmds := { z.core.cmds with queued := [], relays := [] } }

/-- `x` is `z` after links have started again. -/
def Za.Restarts (z x : Za) : Prop := x.base = z.base

namespace Za.Restarts
variable {a b c z x : Za}

theorem refl (z : Za) : z.Restarts z := rfl

theorem trans (h : a.Restarts b) (k : b.Restarts c) : a.Restarts c := Eq.trans k h

theorem of_reports (h : z.Reports x) : z.Restarts x := by
  unfold Za.Restarts Za.base
  rw [show x.core = z.core from h]

theorem ite {p : Prop} [Decidable p] (hx : z.Restarts a) (hy : z.Restarts b) : z.Restarts (if p then a else b) := by
  split
  · exact hx
  · exact hy

theorem foldl {α : Type} {f : Za → α → Za} (hf : ∀ (z : Za) a, z.Restarts (f z a)) (l : List α) (z : Za) :
    z.Restarts (l.foldl f z) :=
  List.foldlRecOn (motive := fun x : Za => z.Restarts x) l f (refl z) fun x hx a _ => hx.trans (hf x a)

theorem field {α : Type} (h : z.Restarts x) (g : Za → α) (hg : ∀ y : Za, g y.base = g y) : g x = g z := by
  rw [← hg x, ← hg z, h]

theorem ctxs (h : z.Restarts x) : x.ctxs = z.ctxs := h.field Za.ctxs fun _ => rfl
theorem tag (h : z.Restarts x) : x.tag = z.tag := h.field Za.tag fun _ => rfl
theorem regs (h : z.Restarts x) : x.regs = z.regs := h.field Za.regs fun _ => rfl
theorem works (h : z.Restarts x) : x.works = z.works := h.field Za.works fun _ => rfl
theorem time (h : z.Restarts x) : x.time = z.time := h.field Za.time fun _ => rfl

end Za.Restarts

theorem Za.modDie_restarts (z : Za) (die : Nat) (g : DieEntry → DieEntry) : z.Restarts (z.modDie die g) := rfl

theorem Za.withServing_restarts (z : Za) (serving : List Serving) : z.Restarts { z with serving } := rfl

theorem Za.withTests_restarts (z : Za) (tests : List LinkTest) : z.Restarts { z with tests } := rfl

theorem Za.withRelays_restarts (z : Za) (queued : List QueuedLong) (relays : List Relay) :
    z.Restarts { z with cmds := { z.cmds with queued, relays } } := rfl

theorem Za.abandonDie_restarts (z : Za) (die : Nat) : z.Restarts (z.abandonDie die) :=
  (z.withRelays_restarts _ _).trans (.of_reports (Za.finishWhere_reports _ _ _ _))

theorem Za.spoil_restarts (z : Za) (c : Prop) [Decidable c] (frost : ZaFrost) : z.Restarts (if c then { z with frost } else z) :=
  .ite (.of_reports (z.withFrost_reports _)) (.refl z)

theorem Za.dieDown_restarts (z : Za) (die : Nat) : z.Restarts (z.dieDown die) := by
  unfold Za.dieDown
  split
  · exact .refl z
  · exact (((Za.Restarts.of_reports (z.modLink_reports _ _)).trans (Za.spoil_restarts _ _ _)).trans
      (Za.modDie_restarts _ _ _)).trans (Za.abandonDie_restarts _ die)

theorem Za.endTest_restarts (z : Za) (t : LinkTest) : z.Restarts (z.endTest t) :=
  (z.withTests_restarts _).trans (.of_reports (Za.finish_reports _ _ _))

theorem Za.linkRestart_restarts (z : Za) (p : Nat) : z.Restarts (z.linkRestart p) :=
  (((((Za.Restarts.foldl (fun x d => x.dieDown_restarts d) _ z).trans (Za.spoil_restarts _ _ _)).trans
    (Za.withServing_restarts _ _)).trans (.foldl (fun x t => x.endTest_restarts t) _ _))).trans
    (.of_reports (Za.modLink_reports _ _ _))

theorem Za.portWrite_ok {z : Za} {P : Nat} {w : W} (hst : z.portStatus P w = stOk) (hP : P < 40) :
    (z.portWrite P w).2 = stOk ∧ (z.setReg (0x8100 + 16 * P) w).Restarts (z.portWrite P w).1 := by
  unfold Za.portWrite
  rw [if_neg (fun h => h hst)]
  dsimp only
  rw [if_neg (Nat.not_le.2 hP)]
  exact ⟨rfl, .ite (.foldl (fun x p => x.linkRestart_restarts p) _ _) (.refl _)⟩

theorem Za.ctx?_of_cmdCtx {z : Za} {h : HuskCmd} {e : Nat} {c : Ctx} (hc : z.cmdCtx h = some (e, c)) : z.ctx? e = some c := by
  unfold Za.cmdCtx at hc
  simp only [Option.bind_eq_some_iff, Option.map_eq_some_iff, Prod.mk.injEq] at hc
  obtain ⟨_, -, _, hctx, rfl, rfl⟩ := hc
  exact hctx

theorem Za.withCtx_of_cmdCtx {z : Za} {h : HuskCmd} {e : Nat} {c : Ctx} (f : Nat → Ctx → ZaBody)
    (hc : z.cmdCtx h = some (e, c)) : z.withCtx h f = f e c := by
  unfold Za.withCtx
  rw [hc]

theorem Za.modCtx_of_ctx? {z : Za} {e : Nat} {c : Ctx} (g : Ctx → Ctx) (hc : z.ctx? e = some c) :
    z.modCtx e g = { z with ctxs := aPut z.ctxs e (g c) } := by
  unfold Za.modCtx
  rw [hc]

theorem map_modWhere_of_same {α β : Type} (l : List α) (p : α → Bool) (f : α → α) (g : α → β) (h : ∀ a, g (f a) = g a) :
    (modWhere l p f).map g = l.map g := by
  unfold modWhere
  rw [List.map_map]
  refine List.map_congr_left fun a _ => ?_
  dsimp only [Function.comp]
  split
  · exact h a
  · rfl

theorem Za.die?_modDie_same (z : Za) (die : Nat) {g : DieEntry → DieEntry} (hg : ∀ d, (g d).die = d.die) :
    (z.modDie die g).die? die = (z.die? die).map g := by
  unfold Za.modDie Za.die? modWhere
  dsimp only
  induction z.dies with
  | nil => rfl
  | cons d ds ih =>
    rw [List.map_cons, List.find?_cons, List.find?_cons]
    by_cases hd : (d.die == die) = true
    · rw [if_pos hd, hg, hd]
      rfl
    · rw [if_neg hd, Bool.not_eq_true _ |>.mp hd]
      exact ih

/-! ### The registers of the rows (chapter 17). -/

/-- An address from 0x3800 on that is none of those with a status of their own. -/
theorem not_plain_of_ge {a : Nat} (h : 0x3800 ≤ a) (hb : a < 0x5000 ∨ 0x8100 ≤ a) (ha : a ≠ 0xA000) :
    ¬ [0x2000, 0x3000, 0x3004, 0x3020, 0x700C, 0x8000, 0x8008, 0x800C, 0xA000].contains a = true := by
  simp only [List.contains_eq_mem, List.mem_cons, List.not_mem_nil, or_false, decide_eq_true_eq]
  omega

theorem Za.mgmtWrite_mark (z : Za) {i k : Nat} (w : W) (hi : i < 16) (hk : k < 5) :
    z.mgmtWrite (0x3800 + 32 * i + 4 * k) w = z.markWrite i k w := by
  unfold Za.mgmtWrite
  rw [if_neg (by omega), if_neg (by omega), if_neg (not_plain_of_ge (by omega) (by omega) (by omega)), if_neg (by omega),
    if_pos (by omega), if_pos (by omega), show (0x3800 + 32 * i + 4 * k - 0x3800) / 32 = i by omega,
    show (0x3800 + 32 * i + 4 * k) / 4 % 8 = k by omega]

theorem Za.mgmtWrite_port (z : Za) {P : Nat} (w : W) (hP : P < 42) : z.mgmtWrite (0x8100 + 16 * P) w = z.portWrite P w := by
  unfold Za.mgmtWrite
  rw [if_neg (by omega), if_neg (by omega), if_neg (not_plain_of_ge (by omega) (by omega) (by omega)), if_neg (by omega),
    if_neg (by omega), if_neg (by omega), if_pos (by omega), if_pos (by omega), show (0x8100 + 16 * P - 0x8100) / 16 = P by omega]

theorem Za.mgmtWrite_gcl (z : Za) {p : Nat} (w : W) (hp : p < 82) : z.mgmtWrite (0x40000 + 256 * p) w = z.gclWrite p w := by
  unfold Za.mgmtWrite
  rw [if_neg (by omega), if_neg (by omega), if_neg (not_plain_of_ge (by omega) (by omega) (by omega)), if_neg (by omega),
    if_neg (by omega), if_neg (by omega), if_neg (by omega), if_neg (by omega), if_neg (by omega), if_pos (by omega),
    if_pos (by omega), show (0x40000 + 256 * p - 0x40000) / 256 = p by omega]

theorem Za.mgmtWrite_shape (z : Za) {p c k : Nat} (w : W) (hp : p < 82) (hc : c < 8) (hk : k < 2) :
    z.mgmtWrite (0x50000 + 64 * p + 8 * c + 4 * k) w = z.keep (0x50000 + 64 * p + 8 * c + 4 * k) w (rateStatus false k w) := by
  unfold Za.mgmtWrite
  rw [if_neg (by omega), if_neg (by omega), if_neg (not_plain_of_ge (by omega) (by omega) (by omega)), if_neg (by omega),
    if_neg (by omega), if_neg (by omega), if_neg (by omega), if_neg (by omega), if_neg (by omega), if_neg (by omega),
    if_pos (by omega), Za.shapeWrite, show (0x50000 + 64 * p + 8 * c + 4 * k) / 4 % 2 = k by omega]

/-! ### The obligation. -/

/-- A claim of a die changes its claim alone, and starts its run anew when it changes. -/
def DieEntry.claimed (claim : Nat) (d : DieEntry) : DieEntry :=
  if d.claim = claim then d else { d with claim, claimRun := 0, claimSaid := false }

theorem DieEntry.claimed_die (claim : Nat) (d : DieEntry) : (d.claimed claim).die = d.die := by
  unfold DieEntry.claimed
  split
  · rfl
  · rfl

theorem DieEntry.claimed_claim (claim : Nat) (d : DieEntry) : (d.claimed claim).claim = claim := by
  unfold DieEntry.claimed
  split
  next h => exact h
  next h => rfl

theorem Za.foldl_claimed (es : List (Nat × Nat)) (z : Za) :
    ((es.foldl (fun z e => z.modDie e.2 (DieEntry.claimed e.1)) z).dies.map (·.die) = z.dies.map (·.die)) ∧
      (es.foldl (fun z e => z.modDie e.2 (DieEntry.claimed e.1)) z).ctxs = z.ctxs :=
  List.foldlRecOn (motive := fun x : Za => x.dies.map (·.die) = z.dies.map (·.die) ∧ x.ctxs = z.ctxs) es _ ⟨rfl, rfl⟩
    fun x hx e _ => ⟨(map_modWhere_of_same _ _ _ _ (DieEntry.claimed_die e.1)).trans hx.1, hx.2⟩

/-- Settles O38: each Husk is answered after its own operation, and a row that writes one register earns the status of that write. -/
theorem zaIsConfiguredByCommand : Obligations.ZaIsConfiguredByCommand := by
  unfold Obligations.ZaIsConfiguredByCommand
  refine ⟨?regWrite, ?regFault, ?tagWrite, ?pwrLimit, ?rackSet, ?liveClaim, ?linkReset, ?timeStep, ?timeResync, ?subscribe, ?gcl,
    ?shaper, ?port, ?mark⟩
  case regWrite =>
    rintro s h z z' ha rfl htest hw
    refine .of_short rfl ha (ha.short rfl (by decide)) (by decide) ?_
    change (s.za.met .regWrite h).regWrite h = _
    unfold Za.regWrite
    rw [htest]
    dsimp only
    rw [hw]
    rfl
  case regFault =>
    rintro s h z z' st i ha rfl htest hw
    refine .of_short rfl ha (ha.short rfl (by decide)) (by decide) ?_
    change (s.za.met .regWrite h).regWrite h = _
    unfold Za.regWrite
    rw [htest]
    dsimp only
    rw [hw]
  case tagWrite =>
    rintro s h z ha rfl hlo hhi hn hm hend
    refine .of_short rfl ha (ha.short rfl (by decide)) (by decide) ?_
    change (s.za.met .tagWrite h).tagWrite h = _
    unfold Za.tagWrite
    dsimp only
    rw [if_neg (by omega), if_neg (by omega)]
    rfl
  case pwrLimit =>
    rintro s h z ha rfl hlo hhi hn hm
    refine .of_short rfl ha (ha.short rfl (by decide)) (by decide) ?_
    change (s.za.met .pwrLimit h).pwrLimit h = _
    unfold Za.pwrLimit
    dsimp only
    rw [if_neg (by omega), if_neg (by omega)]
    rfl
  case rackSet =>
    rintro s h z ha rfl hlo hhi
    have hrow : (s.za.met .rackSet h).runOp s.free s.cellDom .rackSet h 0 = _ :=
      (if_neg (by omega) : (s.za.met .rackSet h).rackSet h = _)
    have hx := ZaDraws.of_short (c := .rackSet h) rfl ha (ha.short rfl (by decide)) (by decide) hrow
    refine ⟨_, hx, ?_, ?_, ?_, ?_, (Za.answered_reports _ _ _ _).dies, (Za.answered_reports _ _ _ _).ctxs⟩
    · rw [(Za.answered_reports _ _ _ _).rack]
      exact List.map_map ..
    · rw [(Za.answered_reports _ _ _ _).rack]
      exact List.map_map ..
    · rw [(Za.answered_reports _ _ _ _).rack]
      exact List.map_map ..
    · rw [(Za.answered_reports _ _ _ _).rack]
  case liveClaim =>
    rintro s h z ha rfl hlo hhi hdies
    have hbad : ¬ (((huskPay h).map (fun w => (fld w 31 30, fld w 19 0))).any
        (fun e => ((s.za.met .liveClaim h).die? e.2).isNone)) = true := by
      rw [List.any_map, List.any_eq_true]
      rintro ⟨w, hw, hnone⟩
      have hsome := hdies w hw
      rw [Option.isSome_iff_ne_none] at hsome
      exact hsome (Option.isNone_iff_eq_none.1 hnone)
    have hrow : (s.za.met .liveClaim h).runOp s.free s.cellDom .liveClaim h 0 = _ :=
      ((if_neg (by omega)).trans (if_neg hbad) : (s.za.met .liveClaim h).liveClaim h = _)
    have hx := ZaDraws.of_short (c := .liveClaim h) rfl ha (ha.short rfl (by decide)) (by decide) hrow
    refine ⟨_, hx, ?_, ?_, ?_⟩
    · rw [(Za.answered_reports _ _ _ _).dies]
      exact (Za.foldl_claimed _ _).1
    · rw [(Za.answered_reports _ _ _ _).ctxs]
      exact (Za.foldl_claimed _ _).2
    · intro w hw
      obtain ⟨d, hd⟩ := Option.isSome_iff_exists.1 (hdies w (hw ▸ List.mem_singleton.2 rfl))
      refine ⟨d.claimed (fld w 31 30), ?_, d.claimed_claim _⟩
      rw [Za.die?, (Za.answered_reports _ _ _ _).dies, hw]
      exact (Za.die?_modDie_same _ _ (DieEntry.claimed_die _)).trans (by rw [hd]; rfl)
  case linkReset =>
    rintro s h z ha rfl hp hon
    refine .of_short rfl ha (ha.short rfl (by decide)) (by decide) ?_
    change (s.za.met .linkResetCmd h).linkResetCmd h = _
    unfold Za.linkResetCmd
    dsimp only
    rw [hon, if_neg (by simp; omega)]
    rfl
  case timeStep =>
    rintro s h z ha rfl hsmall hfront hback
    refine ⟨{ frame := (s.za.met .timeStep h).frameOf (huskP0 h), s := ofTwos 64 (dword (huskPay h) 0) }, rfl, rfl,
      .of_short rfl ha (ha.short rfl (by decide)) (by decide) ?_⟩
    change (s.za.met .timeStep h).timeStep h = _
    have hgo : ¬ (stepWhole (ofTwos 64 (dword (huskPay h) 0)) < 0 ∧ (!(s.za.met .timeStep h).jobs.isEmpty) = true) := by
      rintro ⟨hneg, hjobs⟩
      rcases hback with hpos | hnil
      · omega
      · rw [hnil] at hjobs
        exact Bool.false_ne_true hjobs
    unfold Za.timeStep
    dsimp only
    rw [if_neg (Nat.not_le.2 hsmall), if_neg (Nat.not_lt.2 hfront), if_neg hgo]
    rfl
  case timeResync =>
    rintro s h z ha rfl hjobs
    refine .of_short rfl ha (ha.short rfl (by decide)) (by decide) ?_
    change (s.za.met .timeResync h).timeResync = _
    unfold Za.timeResync
    rw [hjobs]
    rfl
  case subscribe =>
    rintro s h z e c ha rfl hc
    refine .of_short rfl ha (ha.short rfl (by decide)) (by decide) ?_
    change (s.za.met .subscribe h).subscribe h = _
    unfold Za.subscribe
    rw [Za.withCtx_of_cmdCtx _ hc, Za.modCtx_of_ctx? _ (Za.ctx?_of_cmdCtx hc), Za.modCtx_of_ctx? _ (Za.ctx?_of_cmdCtx hc)]
    rfl
  case gcl =>
    intro s p w hrun hres hres' hen hn hwf hfits
    have hlt := p.isLt
    have hmap : zaMapped (0x40000 + 256 * p.val) = true := by simp [zaMapped]; omega
    have hgcl : s.za.gclWrite p.val w = ((s.za.setReg (0x40000 + 256 * p.val) (setFld w 31 31 0)).modLink p.val
        (fun l => { l with gatesNext := some (s.za.pendingGates p.val w) }), stOk) := by
      unfold Za.gclWrite
      dsimp only
      rw [if_neg (by omega), if_pos hen, hwf, hfits, if_neg (by simp; omega)]
      rfl
    have hrow := Za.rowWrite_eq w hrun hmap
    rw [s.za.mgmtWrite_gcl w hlt, hgcl] at hrow
    have hlink := Za.link_modLink_same (s.za.setReg (0x40000 + 256 * p.val) (setFld w 31 31 0)) p.val
      (fun l => { l with gatesNext := some (s.za.pendingGates p.val w) })
    have hnext := congrArg ZaLink.gatesNext hlink
    have hgates := congrArg ZaLink.gates hlink
    exact ⟨_, .of_eq (f := (·.rowWrite (0x40000 + 256 * p.val) w)) rfl hrow, hnext, hgates, rfl, rfl⟩
  case shaper =>
    intro s p c k w hrun hst
    have hp := p.isLt
    have hc := c.isLt
    have hk := k.isLt
    have hmap : zaMapped (0x50000 + 64 * p.val + 8 * c.val + 4 * k.val) = true := by simp [zaMapped]; omega
    have hrow := Za.rowWrite_eq w hrun hmap
    rw [s.za.mgmtWrite_shape w hp hc hk, Za.keep, if_pos hst] at hrow
    exact ⟨_, .of_eq (f := (·.rowWrite (0x50000 + 64 * p.val + 8 * c.val + 4 * k.val) w)) rfl hrow,
      Za.reg_setReg_same _ _ _, rfl, rfl, rfl⟩
  case port =>
    intro s P w hrun hst hlt
    have hmap : zaMapped (0x8100 + 16 * P.val) = true := by simp [zaMapped]; omega
    have hrow := Za.rowWrite_eq w hrun hmap
    obtain ⟨hok, hsame⟩ := Za.portWrite_ok hst hlt
    rw [s.za.mgmtWrite_port w P.isLt, hok] at hrow
    refine ⟨_, .of_eq (f := (·.rowWrite (0x8100 + 16 * P.val) w)) rfl hrow, ?_, rfl, hsame.ctxs, hsame.tag⟩
    refine (congrArg (regGet zaResetWord · _) hsame.regs).trans ?_
    exact Za.reg_setReg_same s.za _ w
  case mark =>
    intro s m k w t hrun hlt hst hwrite
    have hm := m.isLt
    have hk := k.isLt
    have hmap : zaMapped (0x3800 + 32 * m.val + 4 * k.val) = true := by simp [zaMapped]; omega
    have hmark : s.za.markWrite m.val k.val w = ({ s.za with marks := s.za.marks.set m.val t }, stOk) := by
      unfold Za.markWrite
      dsimp only
      rw [if_neg (fun h => h hst), hwrite]
    have hrow := Za.rowWrite_eq w hrun hmap
    rw [s.za.mgmtWrite_mark w hm hk, hmark] at hrow
    exact ⟨_, .of_eq (f := (·.rowWrite (0x3800 + 32 * m.val + 4 * k.val) w)) rfl hrow, rfl, rfl, rfl⟩

end Sys2Proof.Machine
end

section
/-!
PROOFS. Sync objects of the ZA40.
-/
namespace Sys2Proof.Machine

/-! ### Objects (R185, R384). -/

theorem Za.ownObj_sync? {z : Za} {h : HuskCmd} {i : Nat} {o : SyncObj} (ho : z.ownObj h i = some o) : z.sync? i = some o :=
  (Option.filter_eq_some_iff.1 ho).1

/-- With nothing waiting, a change of an object changes that object alone. -/
theorem Za.modSync_of_no_waits {z : Za} {i : Nat} {o : SyncObj} (f : SyncObj → SyncObj) (ho : z.sync? i = some o)
    (hw : z.waits = []) : z.modSync i f = { z with syncs := aPut z.syncs i (f o) } := by
  have hnow : Za.sync? { z with syncs := aPut z.syncs i (f o) } i = some (f o) := aGet_aPut_same _ _ _
  unfold Za.modSync
  rw [ho]
  dsimp only
  unfold Za.testWaits
  rw [hnow]
  dsimp only
  rw [hw]
  rfl

/-- One number more makes at most one run more. -/
theorem runsOf_length_le (l : List Nat) : (runsOf l).length ≤ l.length := by
  have hfold : ∀ (l : List Nat) (acc : List (Nat × Nat)), (l.foldl (fun (acc : List (Nat × Nat)) i =>
      match acc with
      | (f, n) :: r => if f + n = i then (f, n + 1) :: r else (i, 1) :: (f, n) :: r
      | [] => [(i, 1)]) acc).length ≤ acc.length + l.length := by
    intro l
    induction l with
    | nil => exact fun acc => Nat.le_refl _
    | cons i l ih =>
      intro acc
      rw [List.foldl_cons]
      refine Nat.le_trans (ih _) ?_
      rcases acc with _ | ⟨⟨f, n⟩, r⟩
      · simp only [List.length_cons, List.length_nil]
        omega
      · dsimp only
        split <;> simp only [List.length_cons] <;> omega
  unfold runsOf
  rw [List.length_reverse]
  exact Nat.le_trans (hfold l []) (Nat.le_of_eq (Nat.zero_add _))

theorem Za.freeObjs_length_le (z : Za) (n : Nat) : (z.freeObjs n).length ≤ n := List.length_take_le ..

/-- What SYNC_FREE does to the commands that wait on object `i` (R231): they end with SYNC_FREED. -/
def Za.endWaitsOn (z : Za) (i : Nat) : Za :=
  z.finishWhere (fun x => ((z.waits.filter (fun w => w.obj == i)).map (·.handle)).contains x.handle) true (failValue stSyncFreed i)

/-- Settles O39: each command of a sync object changes it through `Za.modSync`, or waits, or ends a wait. -/
theorem syncObjectsFollowTheirOwner : Obligations.SyncObjectsFollowTheirOwner := by
  unfold Obligations.SyncObjectsFollowTheirOwner
  refine ⟨?alloc, ?set, ?add, ?bind, ?free, ?parks, ?met, ?cancel⟩
  case alloc =>
    rintro s h z e c ha rfl hc hlo hhi hquota hroom
    have hruns : (runsOf ((s.za.met .syncAlloc h).freeObjs (huskP0 h))).length ≤ 2048 :=
      Nat.le_trans (Nat.le_trans (runsOf_length_le _) (Za.freeObjs_length_le _ _)) hhi
    refine ⟨okPayload ((runsOf ((s.za.met .syncAlloc h).freeObjs (huskP0 h))).map
      (fun r => pack [(r.1, 29, 13), (r.2 - 1, 12, 0)])),
      { value := 0, overflow := false, ctx := c.id, gen := c.gen, source := none }, rfl, rfl, rfl, rfl, rfl, rfl,
      .of_short rfl ha (ha.short rfl (by decide)) (by decide) ?_⟩
    change (s.za.met .syncAlloc h).syncAlloc h = _
    unfold Za.syncAlloc
    rw [Za.withCtx_of_cmdCtx _ hc]
    dsimp only
    rw [if_neg (by omega), if_neg (by omega), if_neg (Nat.not_lt.2 hruns)]
  case set =>
    rintro s h z o ha rfl ho
    refine .of_short rfl ha (ha.short rfl (by decide)) (by decide) ?_
    change (s.za.met .syncSet h).syncSet h = _
    unfold Za.syncSet
    rw [ho]
    rfl
  case add =>
    rintro s h z o ha rfl ho hn hw
    have hrow : (s.za.met .syncAdd h).runOp s.free s.cellDom .syncAdd h 0 =
        (((s.za.met .syncAdd h).modSync (huskP0 h) (fun o => o.add (huskP1 h))), some (resultOf stOk)) := by
      change (s.za.met .syncAdd h).syncAdd h = _
      unfold Za.syncAdd
      rw [ho]
      exact if_neg (by omega)
    rw [Za.modSync_of_no_waits _ (Za.ownObj_sync? ho) hw] at hrow
    have hx := ZaDraws.of_short (c := .syncAdd h) rfl ha (ha.short rfl (by decide)) (by decide) hrow
    obtain ⟨cmds, links, keomon, hreply, -⟩ := Za.replyNow_eq { s.za.met .syncAdd h with
      syncs := aPut (s.za.met .syncAdd h).syncs (huskP0 h) (o.add (huskP1 h)) } .syncAdd h 0 0 (resultOf stOk) true
    rw [Za.answered, hreply] at hx
    exact ⟨_, hx, aGet_aPut_same _ _ _, fun i hi => aGet_aPut_other _ _ _ _ hi, hw, rfl⟩
  case bind =>
    rintro s h z o src ha rfl ho hsrc hknown hfew
    refine .of_short rfl ha (ha.short rfl (by decide)) (by decide) ?_
    change (s.za.met .syncBind h).syncBind h = _
    unfold Za.syncBind
    have hroom : ¬ (src.isSome = true ∧ 16 ≤ (s.za.met .syncBind h).syncs.countP (fun (p : Nat × SyncObj) =>
        p.1 != huskP0 h && p.2.ctx == o.ctx && p.2.gen == o.gen && p.2.source == src)) :=
      fun hmany => absurd hmany.2 (Nat.not_le.2 hfew)
    rw [ho, hsrc]
    cases src with
    | none => exact (if_neg Bool.false_ne_true).trans (if_neg hroom)
    | some source =>
      cases source with
      | handle x =>
        have hno : ¬ (!((s.za.met .syncBind h).handle? x).isSome) = true := by
          rw [hknown x rfl]
          exact Bool.false_ne_true
        exact (if_neg hno).trans (if_neg hroom)
      | _ => exact (if_neg Bool.false_ne_true).trans (if_neg hroom)
  case free =>
    rintro s h z o ha rfl hone hlt ho hw
    have hobjs : (List.range (huskP1 h)).map (huskP0 h + ·) = [huskP0 h] := by rw [hone]; rfl
    have hrow := show (s.za.met .syncFree h).syncFree h = ({ (s.za.met .syncFree h).endWaitsOn (huskP0 h) with
        syncs := (s.za.met .syncFree h).syncs.filter (fun (p : Nat × SyncObj) => !([huskP0 h].contains p.1)) } : Za).ok by
      unfold Za.syncFree
      dsimp only
      rw [hobjs, if_neg (by omega), if_neg (by omega), List.find?_cons, ho]
      rfl
    have hx := ZaDraws.of_short (c := .syncFree h) rfl ha (ha.short rfl (by decide)) (by decide) hrow
    obtain ⟨cmds, links, keomon, hreply, -⟩ := Za.replyNow_eq _ .syncFree h 0 0 (resultOf stOk) true
    rw [Za.answered, hreply] at hx
    refine ⟨_, hx, ?_, rfl, rfl⟩
    refine List.filter_congr fun p _ => ?_
    rw [List.contains_eq_mem]
    simp [bne, BEq.beq]
  case parks =>
    rintro s h z handle o hb ho hv
    refine .of_long rfl hb (hb.long rfl) ?_
    change z.syncWait h handle = _
    unfold Za.syncWait
    rw [ho]
    exact if_neg (Nat.not_le.2 hv)
  case met =>
    rintro s h z handle o hb ho hv
    refine .of_long rfl hb (hb.long rfl) ?_
    change z.syncWait h handle = _
    unfold Za.syncWait
    rw [ho]
    exact if_pos hv
  case cancel =>
    rintro s h z x ha rfl hx hdone hparked
    refine .of_short rfl ha (ha.short rfl (by decide)) (by decide) ?_
    change (s.za.met .handleCancel h).handleCancel h = _
    unfold Za.handleCancel
    rw [hx]
    dsimp only
    rw [hdone, hparked]
    rfl

end Sys2Proof.Machine
end

section
/-!
PROOFS. Contexts admitted and torn down.
-/
namespace Sys2Proof.Machine

/-! ### The slots of a context end at its Front (R27). -/

/-- Every entry of a slot list for context `ctx` and generation `gen` ends by Front `f`. -/
def SlotsEnd (ctx gen f : Nat) (slots : List DtuSlot) : Prop :=
  ∀ x ∈ slots, x.ctx = ctx → x.gen = gen → ∃ l, x.last = some l ∧ l ≤ f

/-- The entries of a slot list that serve a context at a Front or later end there. -/
def endSlots (ctx gen f : Nat) (slots : List DtuSlot) : List DtuSlot :=
  modWhere slots (fun s => s.ctx == ctx && s.gen == gen && s.busyFrom f) (fun s => { s with last := some f })

theorem DtuSlot.last_of_not_busyFrom {x : DtuSlot} {f : Nat} (h : x.busyFrom f = false) : ∃ l, x.last = some l ∧ l ≤ f := by
  unfold DtuSlot.busyFrom at h
  cases hl : x.last with
  | none =>
    rw [hl] at h
    exact absurd h Bool.noConfusion
  | some l =>
    rw [hl] at h
    exact ⟨l, rfl, Nat.not_lt.1 (of_decide_eq_false h)⟩

theorem slotsEnd_endSlots (ctx gen f : Nat) (slots : List DtuSlot) : SlotsEnd ctx gen f (endSlots ctx gen f slots) := by
  intro x hx hctx hgen
  obtain ⟨y, -, rfl⟩ := List.mem_map.1 hx
  by_cases h : (y.ctx == ctx && y.gen == gen && y.busyFrom f) = true
  · exact ⟨f, by rw [if_pos h], Nat.le_refl f⟩
  · rw [if_neg h] at hctx hgen ⊢
    rw [hctx, hgen, beq_self_eq_true, beq_self_eq_true, Bool.true_and, Bool.true_and, Bool.not_eq_true] at h
    exact DtuSlot.last_of_not_busyFrom h

theorem Za.modCtx_self {z : Za} {e : Nat} {c : Ctx} (g : Ctx → Ctx) (hc : z.ctx? e = some c) :
    (z.modCtx e g).ctx? e = some (g c) := by
  rw [Za.modCtx_of_ctx? g hc]
  exact aGet_aPut_same _ _ _

theorem Za.modCtx_other {z : Za} {e k : Nat} {c : Ctx} (g : Ctx → Ctx) (hc : z.ctx? e = some c) (hk : k ≠ e) :
    (z.modCtx e g).ctx? k = z.ctx? k := by
  rw [Za.modCtx_of_ctx? g hc]
  exact aGet_aPut_other _ _ _ _ hk

/-- `x` is `z` but for the dies. -/
def Za.BooksDies (z x : Za) : Prop := x = { z with dies := x.dies }

theorem Za.BooksDies.foldl {α : Type} {g : Za → α → Za} (hg : ∀ (z : Za) a, z.BooksDies (g z a)) (l : List α) (z : Za) :
    z.BooksDies (l.foldl g z) :=
  List.foldlRecOn (motive := fun x : Za => z.BooksDies x) l g rfl fun x hx a _ => by
    have h := hg x a
    unfold Za.BooksDies at h hx ⊢
    rw [h, hx]

/-- Ending the slots of a context on each die of a list ends them on all dies, when those outside the list have them ended. -/
theorem Za.foldl_endSlot_slotsEnd (ids : List DieEntry) (z : Za) {ctx gen f : Nat}
    (hz : ∀ d ∈ z.dies, (∃ x ∈ ids, x.die = d.die) ∨ SlotsEnd ctx gen f d.slots) :
    ∀ d ∈ (ids.foldl (fun z x => z.endSlot x.die ctx gen f) z).dies, SlotsEnd ctx gen f d.slots := by
  induction ids generalizing z with
  | nil => exact fun d hd => (hz d hd).resolve_left fun ⟨_, hx, _⟩ => List.not_mem_nil hx
  | cons x xs ih =>
    refine ih _ fun d hd => ?_
    obtain ⟨y, hy, rfl⟩ := List.mem_map.1 hd
    split
    · exact Or.inr (slotsEnd_endSlots ctx gen f y.slots)
    next hx =>
      rcases hz y hy with ⟨w, hw, hdie⟩ | hend
      · rcases List.mem_cons.1 hw with rfl | hw
        · exact absurd (beq_iff_eq.2 hdie.symm) hx
        · exact Or.inl ⟨w, hw, hdie⟩
      · exact Or.inr hend

/-- Writes of slots leave every slot ended that was. -/
theorem Za.SlotWrites.slotsEnd {z x : Za} {ctx gen f : Nat} (h : z.SlotWrites x)
    (hz : ∀ d ∈ z.dies, SlotsEnd ctx gen f d.slots) : ∀ d ∈ x.dies, SlotsEnd ctx gen f d.slots := by
  obtain ⟨cmds, links, dies, rfl, -, hdies⟩ := h
  intro d hd
  have hmem : (d.die, d.slots) ∈ z.dies.map (fun d => (d.die, d.slots)) :=
    hdies ▸ List.mem_map_of_mem (f := fun d : DieEntry => (d.die, d.slots)) hd
  obtain ⟨y, hy, hyd⟩ := List.mem_map.1 hmem
  rw [← (Prod.mk.inj hyd).2]
  exact hz y hy

/-! ### The obligation. -/

/-- Settles O40: each command runs through its tests, and the first that fails is what is answered. -/
theorem contextsAreAdmittedAndTornDown : Obligations.ContextsAreAdmittedAndTornDown := by
  unfold Obligations.ContextsAreAdmittedAndTornDown
  refine ⟨?admitted, ?early, ?teardown, ?tearEarly, ?tearBad, ?quota⟩
  case admitted =>
    rintro s h z handle e q hb rfl hf htest hs hform he hfull hsched
    refine .of_long rfl hb (hb.long rfl) ?_
    refine (if_neg (fun hx => absurd hx.1 (by rw [hf]; exact Bool.false_ne_true))).trans ?_
    unfold Za.ctxAdmit
    dsimp only
    rw [htest]
    dsimp only
    rw [if_neg (Nat.not_lt.2 hs), hform]
    dsimp only
    rw [he]
    dsimp only
    rw [hfull, hsched]
  case early =>
    rintro s h z handle hb hf htest hs
    refine .of_refused rfl hb (hb.long rfl) ?_
    refine (if_neg (fun hx => absurd hx.1 (by rw [hf]; exact Bool.false_ne_true))).trans ?_
    unfold Za.ctxAdmit
    dsimp only
    rw [htest]
    exact if_pos hs
  case teardown =>
    rintro s h z handle e c hb hc hid hstop hd
    have hctx := Za.ctx?_of_cmdCtx hc
    generalize hg : (fun x : Ctx => { x with stop := some (z.frameOf (huskP0 h)), tearHandle := handle }) = g
    generalize hf : z.frameOf (huskP0 h) = f at hd hg
    have hrow := show z.ctxTeardown h handle =
        (((z.modCtx e g).dies.foldl (fun z x => z.endSlot x.die c.id c.gen f) (z.modCtx e g)).slotChanges c.id c.gen f, none) by
      unfold Za.ctxTeardown
      rw [Za.withCtx_of_cmdCtx _ hc]
      dsimp only
      rw [if_neg hid, hstop, if_neg (show ¬ (none : Option Nat).isSome = true from Bool.false_ne_true), hf, if_neg (Nat.not_lt.2 hd), hg]
    have hend := Za.foldl_endSlot_slotsEnd (z.modCtx e g).dies (z.modCtx e g) (ctx := c.id) (gen := c.gen) (f := f)
      fun d hd => Or.inl ⟨d, hd, rfl⟩
    have hbooks := Za.BooksDies.foldl (g := fun z (x : DieEntry) => z.endSlot x.die c.id c.gen f) (fun _ _ => rfl)
      (z.modCtx e g).dies (z.modCtx e g)
    generalize (z.modCtx e g).dies.foldl (fun z x => z.endSlot x.die c.id c.gen f) (z.modCtx e g) = y at hrow hend hbooks
    have hslots := (y.slotChanges_writes c.id c.gen f).slotsEnd hend
    obtain ⟨cmds, links, dies, hw, hhandles, -⟩ := y.slotChanges_writes c.id c.gen f
    rw [hw] at hrow hslots
    have hx := ZaDraws.of_long (c := .ctxTeardown h) rfl hb (hb.long rfl) hrow
    obtain ⟨cmds', links', keomon, hreply, hh', -⟩ := Za.replyNow_eq { y with cmds, links, dies } .ctxTeardown h 1 handle
      (resultOf stOk) true
    rw [Za.accepted, hreply] at hx
    have hctxs : y.ctxs = (z.modCtx e g).ctxs := by rw [hbooks]
    subst hg
    refine ⟨_, _, hx, (congrArg (aGet · e) hctxs).trans (Za.modCtx_self _ hctx), rfl, rfl, rfl, rfl, rfl, fun k hk => ?_, ?_, ?_, hslots⟩
    · exact (congrArg (aGet · k) hctxs).trans (Za.modCtx_other _ hctx hk)
    · change y.syncs = _
      rw [hbooks, Za.modCtx_of_ctx? _ hctx]
    · rw [hh', hhandles, hbooks, Za.modCtx_of_ctx? _ hctx]
  case tearEarly =>
    rintro s h z handle e c hb hc hid hstop hd
    refine .of_refused rfl hb (hb.long rfl) ?_
    change z.ctxTeardown h handle = _
    unfold Za.ctxTeardown
    rw [Za.withCtx_of_cmdCtx _ hc]
    dsimp only
    rw [if_neg hid, hstop, if_neg (show ¬ (none : Option Nat).isSome = true from Bool.false_ne_true), if_pos hd]
    rfl
  case tearBad =>
    rintro s h z handle e c hb hc hbad
    refine .of_refused rfl hb (hb.long rfl) ?_
    change z.ctxTeardown h handle = _
    unfold Za.ctxTeardown
    rw [Za.withCtx_of_cmdCtx _ hc]
    dsimp only
    by_cases hid : c.id = 0
    · rw [if_pos hid, if_pos hid]
      rfl
    · rw [if_neg hid, if_neg hid, if_pos (hbad.resolve_left hid)]
      rfl
  case quota =>
    rintro s h z e c q ha rfl hc rfl hform hfull hraise
    have hno : ¬ ((decide (c.q.ensCost < (quotasOf (huskPay h)).ensCost ∨ c.q.tensorCost < (quotasOf (huskPay h)).tensorCost ∨
        c.q.featCost < (quotasOf (huskPay h)).featCost ∨ c.q.detCost < (quotasOf (huskPay h)).detCost)) = true ∧
        ((s.za.met .ctxQuota h).schedFault (s.za.met .ctxQuota h).checkEvery
          ((s.za.met .ctxQuota h).quotasWith e (quotasOf (huskPay h)))).isSome = true) := by
      rintro ⟨hup, hfault⟩
      rw [hraise (of_decide_eq_true hup)] at hfault
      exact Bool.noConfusion hfault
    have hrow : (s.za.met .ctxQuota h).ctxQuota h =
        match (s.za.met .ctxQuota h).quotaReached e c (quotasOf (huskPay h)) with
        | some k => (s.za.met .ctxQuota h).refuse (failDetail stQuotaReached k)
        | none => ((s.za.met .ctxQuota h).modCtx e (fun x => { x with q := quotasOf (huskPay h) })).ok := by
      unfold Za.ctxQuota
      rw [Za.withCtx_of_cmdCtx _ hc]
      dsimp only
      rw [hform, hfull]
      dsimp only
      rw [if_neg hno] <;> rfl
    refine ⟨fun hr => ?_, fun k hr => ?_⟩
    · rw [hr] at hrow
      exact .of_short (c := .ctxQuota h) rfl ha (ha.short rfl (by decide)) (by decide) hrow
    · rw [hr] at hrow
      exact .of_short (c := .ctxQuota h) rfl ha (ha.short rfl (by decide)) (by decide) hrow

end Sys2Proof.Machine
end

section
/-!
PROOFS. What waits for its Front: memberships and plans.
-/
namespace Sys2Proof.Machine

/-! ### Commands that change one context. -/

/-- A state `t` that differs from `z` in its contexts by context `e`, which is now `c`. -/
def Za.HasCtx (z : Za) (e : Nat) (c : Ctx) (t : Za) : Prop := t.ctx? e = some c ∧ ∀ k, k ≠ e → t.ctx? k = z.ctx? k

theorem Za.modCtx_hasCtx {z : Za} {e : Nat} {c : Ctx} (g : Ctx → Ctx) (hc : z.ctx? e = some c) :
    z.HasCtx e (g c) (z.modCtx e g) :=
  ⟨Za.modCtx_self g hc, fun _ hk => Za.modCtx_other g hc hk⟩

theorem Za.HasCtx.of_ctxs {z x t : Za} {e : Nat} {c : Ctx} (h : z.HasCtx e c x) (ht : t.ctxs = x.ctxs) : z.HasCtx e c t :=
  ⟨(congrArg (aGet · e) ht).trans h.1, fun k hk => (congrArg (aGet · k) ht).trans (h.2 k hk)⟩

/-- A long Husk that changes one context. -/
theorem ZaDraws.exists_accepted_ctx {i : Instr} {s : State} {op : Opcode} {h : HuskCmd} {z : Za} {handle : W} {e : Nat} {c : Ctx}
    {g : Ctx → Ctx} (hrow : exec i s = .next (s.husk op h)) (hb : s.za.begins op h z handle) (hl : huskLong op h = true)
    (hc : z.ctx? e = some c) (hx : z.runOp s.free s.cellDom op h handle = (z.modCtx e g, none)) :
    ∃ t, ZaDraws i s t ∧ z.HasCtx e (g c) t :=
  ⟨_, .of_long hrow hb hl hx, (Za.modCtx_hasCtx g hc).of_ctxs (Za.accepted_reports _ op h handle).ctxs⟩

/-- A short Husk that changes one context. -/
theorem ZaDraws.exists_answered_ctx {i : Instr} {s : State} {op : Opcode} {h : HuskCmd} {e : Nat} {c : Ctx}
    {g : Ctx → Ctx} (hrow : exec i s = .next (s.husk op h)) (ha : s.za.accepts op h) (hl : huskLong op h = false)
    (hop : op ≠ .handleQuery) (hc : (s.za.met op h).ctx? e = some c)
    (hx : (s.za.met op h).runOp s.free s.cellDom op h 0 = ((s.za.met op h).modCtx e g).ok) :
    ∃ t, ZaDraws i s t ∧ (s.za.met op h).HasCtx e (g c) t :=
  ⟨_, .of_short hrow ha hl hop hx, (Za.modCtx_hasCtx g hc).of_ctxs (Za.answered_reports _ op h _).ctxs⟩

/-! ### Plans and memberships. -/

theorem Za.modCtx_earliest (z : Za) (e : Nat) (g : Ctx → Ctx) (c : Ctx) : (z.modCtx e g).earliest c = z.earliest c := by
  unfold Za.earliest Za.modCtx
  split
  · rfl
  · rfl

/-- A context with a plan more that waits for its Front. -/
def Ctx.withPlan (kind : PlanKind) (f : Nat) (words : List W) (handle : W) (c : Ctx) : Ctx :=
  { c with pending := c.pending ++ [{ kind, front := f, words, handle }] }

theorem Za.acceptPlan_ok {z : Za} {e : Nat} {c : Ctx} {f : Nat} (kind : PlanKind) (words : List W) (handle : W)
    (hf : z.earliest c ≤ f) (hp : c.pending = []) :
    z.acceptPlan e c kind f words handle = (z.modCtx e (Ctx.withPlan kind f words handle), none) := by
  unfold Za.acceptPlan
  rw [if_neg (Nat.not_lt.2 hf), hp]
  exact if_neg Bool.false_ne_true

/-- A context with changes of its membership that wait for their Front. -/
def Ctx.withChanges (f : Nat) (es : List MemberEntry) (handle : W) (c : Ctx) : Ctx :=
  { c with changes := c.changes ++ es.map (fun x => { front := f, op := x.op, rank := x.rank, die := x.die, handle }) }

/-- A context with the staged part of a feature plan (R383). -/
def Ctx.withStaging (st : List Staging) (c : Ctx) : Ctx := { c with staging := st }

theorem Za.BooksDies.trans {a b c : Za} (h : a.BooksDies b) (k : b.BooksDies c) : a.BooksDies c := by
  unfold Za.BooksDies at h k ⊢
  rw [k, h]

theorem Za.endEntry_booksDies (z : Za) (c : Ctx) (f : Nat) (standing : List Member) (x : MemberEntry) :
    z.BooksDies (z.endEntry c f standing x) := by
  unfold Za.endEntry
  split
  · rfl
  · rfl

theorem Za.slotEntry_booksDies (z : Za) (c : Ctx) (f : Nat) (x : MemberEntry) : z.BooksDies (z.slotEntry c f x) := by
  unfold Za.slotEntry Za.takeSlot
  split
  · rfl
  · split
    · rfl
    · rfl

/-- The long Husks of chapter 13 that are long by their last word alone: the last part of a feature plan. -/
theorem huskLong_featPlan_of_last {h : HuskCmd} (hl : bit h.w6 31 = true) : huskLong .featPlan h = true := by
  unfold huskLong
  rw [hl, Bool.or_eq_true_iff]
  exact Or.inr rfl

theorem Za.accepts.short_part {z : Za} {h : HuskCmd} (ha : z.accepts .featPlan h) (hl : bit h.w6 31 = false) :
    huskLong .featPlan h = false := by
  unfold huskLong
  rw [ha.plain, hl]
  rfl

/-- What a part of a feature plan does that is its first and fits the number of descriptors announced (R383). -/
theorem Za.featPlan_first {z : Za} {h : HuskCmd} (handle : W) {e : Nat} {c : Ctx} (hc : z.cmdCtx h = some (e, c))
    (hfirst : fld h.w6 27 16 = 0) (htotal : fld h.w6 12 0 ≤ 4096) (hlen : (huskPay h).length ≤ 4 * fld h.w6 12 0)
    (hlast : bit h.w6 31 = true → (huskPay h).length = 4 * fld h.w6 12 0) (hst : c.staging = []) :
    z.featPlan h handle =
      if !bit h.w6 31 then
        (z.modCtx e (Ctx.withStaging [⟨bit h.w6 30, z.frameOf (huskP0 h), fld h.w6 12 0, huskPay h, z.time.begun⟩])).ok
      else
        match featPlanFault (c.podAt (z.frameOf (huskP0 h))) (bit h.w6 30) (descsOf 4 (huskPay h)),
          (z.areasOf e).findSome? (fun a => imagePlanFault a.image (bit h.w6 30) (descsOf 4 (huskPay h))) with
        | some i, _ => (z.modCtx e (Ctx.withStaging [])).refuse (failValue stFeatPlan i)
        | none, some b => (z.modCtx e (Ctx.withStaging [])).refuse
            { status := stFeatFormat, detail := b.1, result0 := b.2.1, payload := [], trunc := false }
        | none, none => (z.modCtx e (Ctx.withStaging [])).acceptPlan e c (if bit h.w6 30 then .tile else .die)
            (z.frameOf (huskP0 h)) (huskPay h) handle := by
  have hfit : ¬ (4 * fld h.w6 12 0 < (huskPay h).length ∨ bit h.w6 31 = true ∧ (huskPay h).length ≠ 4 * fld h.w6 12 0) := by
    rintro (hlt | ⟨hl, hne⟩)
    · exact absurd hlen (Nat.not_le.2 hlt)
    · exact hne (hlast hl)
  unfold Za.featPlan
  rw [Za.withCtx_of_cmdCtx _ hc]
  dsimp only
  have hbits (hi lo : Nat) : bits (huskP1 h) hi lo = fld h.w6 hi lo := rfl
  have hbit (i : Nat) : decide (fld h.w6 i i = 1) = bit h.w6 i := rfl
  simp only [hbits, hbit]
  rw [if_pos hfirst, hst]
  dsimp only [List.nil_append]
  rw [if_neg (Nat.not_lt.2 htotal), if_neg hfit] <;> rfl

/-- The last part of a feature plan that is whole and passes its tests: it waits for its Front. -/
theorem Za.featPlan_last {z : Za} {h : HuskCmd} (handle : W) {e : Nat} {c : Ctx} (hc : z.cmdCtx h = some (e, c))
    (hlast : bit h.w6 31 = true) (hfirst : fld h.w6 27 16 = 0) (htotal : fld h.w6 12 0 ≤ 4096)
    (hlen : (huskPay h).length = 4 * fld h.w6 12 0) (hst : c.staging = []) (hareas : z.areasOf e = [])
    (hfault : featPlanFault (c.podAt (z.frameOf (huskP0 h))) (bit h.w6 30) (descsOf 4 (huskPay h)) = none)
    (hearly : z.earliest c ≤ z.frameOf (huskP0 h)) (hp : c.pending = []) :
    z.featPlan h handle = ((z.modCtx e (Ctx.withStaging [])).modCtx e
      (Ctx.withPlan (if bit h.w6 30 then .tile else .die) (z.frameOf (huskP0 h)) (huskPay h) handle), none) := by
  rw [Za.featPlan_first handle hc hfirst htotal (Nat.le_of_eq hlen) (fun _ => hlen) hst, hlast, Bool.not_true,
    if_neg Bool.false_ne_true, hareas, hfault, List.findSome?_nil]
  exact Za.acceptPlan_ok _ _ _ (Nat.le_trans (Nat.le_of_eq (Za.modCtx_earliest ..)) hearly) hp

/-- A Pod plan whose histograms and cells are all of a form that R208 and R225 accept waits for its Front. -/
theorem Za.podPlan_ok {z : Za} {h : HuskCmd} (handle : W) {e : Nat} {c : Ctx} (hc : z.cmdCtx h = some (e, c))
    (hhist : firstIdx (podPlanOf (huskPay h)).hists (histFault (podPlanOf (huskPay h))) = none)
    (hcells : ∀ n, n < 4096 →
      mapCellForm (wf (huskPay h) (66 + n / 2) (if n % 2 = 0 then 31 else 15) (if n % 2 = 0 then 16 else 0)) = stOk) :
    z.podPlan h handle = z.acceptPlan e c .pod (z.frameOf (huskP0 h)) (huskPay h) handle := by
  generalize hN : 4096 = N at hcells
  have hcell : (List.range N).find? (fun n => mapCellForm (wf (huskPay h) (66 + n / 2) (if n % 2 = 0 then 31 else 15)
      (if n % 2 = 0 then 16 else 0)) != stOk) = none :=
    List.find?_eq_none.2 fun n hn hne => bne_iff_ne.1 hne (hcells n (List.mem_range.1 hn))
  unfold Za.podPlan
  rw [Za.withCtx_of_cmdCtx _ hc]
  dsimp only
  rw [hN, hhist, hcell]

/-- Settles O41: the tests of each command pass, and what is left is the change of its context. -/
theorem plansWaitForTheirFront : Obligations.PlansWaitForTheirFront := by
  unfold Obligations.PlansWaitForTheirFront
  refine ⟨?membership, ?podPlan, ?detPlan, ?part, ?last, ?expiry, ?detReset⟩
  case membership =>
    rintro s h z ended handle e f c hb hc hf hended h1 hearly hclash hfault hroom
    have hctx := Za.ctx?_of_cmdCtx hc
    have hfull : firstIdx (memberEntries h) (fun x => x.op != 1 && (ended.die? x.die).any (fun d => (d.slotFor c.id f).isNone)) =
        none := by
      refine List.findIdx?_eq_none_iff.2 fun x hx => ?_
      by_cases hop : x.op = 1
      · rw [hop]
        rfl
      · cases hd : ended.die? x.die with
        | none => exact Bool.and_false _
        | some d =>
          rw [Option.any_some, Option.isNone_eq_false_iff.2 (hroom x hx hop d hd), Bool.and_false]
    have hrow := show z.membership h handle = ((((memberEntries h).foldl (fun z x => z.slotEntry c f x)
        (ended.modCtx e (Ctx.withChanges f (memberEntries h) handle))).slotChanges c.id c.gen f, none) : ZaBody) by
      unfold Za.membership
      rw [Za.withCtx_of_cmdCtx _ hc]
      dsimp only
      rw [← hf, ← hended, if_neg (by omega), if_neg (Nat.not_lt.2 hearly), hclash, hfault, hfull]
      rfl
    have hbooks : z.BooksDies ended := hended ▸ Za.BooksDies.foldl (fun x m => x.endEntry_booksDies c f _ m) (memberEntries h) z
    have hctx' : ended.ctx? e = some c := by
      rw [hbooks]
      exact hctx
    have hslot := Za.BooksDies.foldl (fun x m => x.slotEntry_booksDies c f m) (memberEntries h)
      (ended.modCtx e (Ctx.withChanges f (memberEntries h) handle))
    generalize (memberEntries h).foldl (fun (z : Za) x => z.slotEntry c f x) _ = y at hrow hslot
    obtain ⟨cmds, links, dies, hw, hhandles, -⟩ := y.slotChanges_writes c.id c.gen f
    rw [hw] at hrow
    have hx := ZaDraws.of_long (c := .membership h) rfl hb (hb.long rfl) hrow
    obtain ⟨cmds', links', keomon, hreply, hh', -⟩ := Za.replyNow_eq { y with cmds, links, dies } .membership h 1 handle
      (resultOf stOk) true
    rw [Za.accepted, hreply] at hx
    rw [Za.modCtx_of_ctx? _ hctx'] at hslot
    have hctxs : y.ctxs = aPut z.ctxs e (c.withChanges f (memberEntries h) handle) := by
      rw [hslot, hbooks]
    refine ⟨_, _, hx, (congrArg (aGet · e) hctxs).trans (aGet_aPut_same _ _ _), rfl, rfl, fun k hk =>
      (congrArg (aGet · k) hctxs).trans (aGet_aPut_other _ _ _ _ hk), ?_, ?_⟩
    · change y.syncs = _
      rw [hslot, hbooks]
    · rw [hh', hhandles, hslot, hbooks]
  case podPlan =>
    rintro s h z handle e c hb hc hhist hcells hearly hp
    obtain ⟨t, ht, hself, hother⟩ := ZaDraws.exists_accepted_ctx (i := .podPlan h) rfl hb (hb.long rfl) (Za.ctx?_of_cmdCtx hc)
      (g := Ctx.withPlan .pod (z.frameOf (huskP0 h)) (huskPay h) handle) (by
        exact (Za.podPlan_ok handle hc hhist hcells).trans (Za.acceptPlan_ok _ _ _ hearly hp))
    exact ⟨t, _, ht, hself, rfl, congrArg (· ++ _) hp, hother⟩
  case detPlan =>
    rintro s h z handle e c hb hc hbad hcost hpages hearly hp
    obtain ⟨t, ht, hself, hother⟩ := ZaDraws.exists_accepted_ctx (i := .detPlan h) rfl hb (hb.long rfl) (Za.ctx?_of_cmdCtx hc)
      (g := Ctx.withPlan .det (z.frameOf (huskP0 h)) (huskPay h) handle) (by
        change z.detPlan h handle = _
        unfold Za.detPlan
        rw [Za.withCtx_of_cmdCtx _ hc]
        dsimp only
        rw [hbad]
        dsimp only
        rw [if_neg (Nat.not_lt.2 hcost), if_neg (Nat.not_lt.2 hpages)]
        exact Za.acceptPlan_ok _ _ _ hearly hp)
    exact ⟨t, _, ht, hself, rfl, congrArg (· ++ _) hp, hother⟩
  case part =>
    rintro s h z e c ha rfl hc hlast hfirst htotal hlen hst
    obtain ⟨t, ht, hself, hother⟩ := ZaDraws.exists_answered_ctx (i := .featPlan h) rfl ha (ha.short_part hlast) (by decide)
      (Za.ctx?_of_cmdCtx hc) (g := Ctx.withStaging [{
        tile := bit h.w6 30, front := (s.za.met .featPlan h).frameOf (huskP0 h), total := fld h.w6 12 0, words := huskPay h,
        at_ := (s.za.met .featPlan h).time.begun }]) (by
        change (s.za.met .featPlan h).featPlan h 0 = _
        rw [Za.featPlan_first 0 hc hfirst htotal hlen (fun hl => absurd hl (by rw [hlast]; exact Bool.false_ne_true)) hst, hlast]
        rfl)
    exact ⟨t, _, ht, hself, rfl, rfl, hother⟩
  case last =>
    rintro s h z handle e c hb hc hlast hfirst htotal hlen hst hareas hfault hearly hp
    have hctx := Za.ctx?_of_cmdCtx hc
    have hctx' := Za.modCtx_self (Ctx.withStaging []) hctx
    have hrow := Za.featPlan_last handle hc hlast hfirst htotal hlen hst hareas hfault hearly hp
    refine ⟨_, _, .of_long (c := .featPlan h) rfl hb (huskLong_featPlan_of_last hlast) hrow,
      (congrArg (aGet · e) (Za.accepted_reports _ _ _ _).ctxs).trans (Za.modCtx_self _ hctx'), rfl, rfl, ?_, fun k hk => ?_⟩
    · exact congrArg (fun l => List.map _ (l ++ _)) hp
    · exact (congrArg (aGet · k) (Za.accepted_reports _ _ _ _).ctxs).trans
        ((Za.modCtx_other _ hctx' hk).trans (Za.modCtx_other _ hctx hk))
  case expiry =>
    rintro s e tile c hc
    unfold ZaBecomes
    rw [← Za.modCtx_of_ctx? (fun c => { c with
      staging := c.staging.filter (fun x => !(x.tile == tile && decide (x.at_ + 64 ≤ s.za.time.begun))) }) hc]
    rfl
  case detReset =>
    rintro s h z e c ha rfl hc hdet hkeys r hrecs he hi hkey hmark
    have hbad : firstIdx (huskPay h) (fun k => !bit k 26 && decide (fld k 25 20 ≠ 0)) = none := by
      refine List.findIdx?_eq_none_iff.2 fun k hk => ?_
      rcases hkeys k hk with hb | hf
      · rw [hb]
        rfl
      · rw [hf]
        exact Bool.and_false _
    have hmine : (s.za.met .detReset h).detRecs.filter (fun r => r.entry == e && r.det == huskP0 h &&
        (huskP1 h % 2 == 1 || (huskPay h).contains r.key)) = [r] := by
      rw [hrecs, List.filter_cons_of_pos, List.filter_nil]
      rw [he, hi, beq_self_eq_true, beq_self_eq_true, Bool.true_and, Bool.true_and, Bool.or_eq_true, beq_iff_eq, List.contains_iff_mem]
      exact hkey
    have hrow := show (s.za.met .detReset h).detReset h = (((s.za.met .detReset h).count (.det .restarts e)).putRec
        (DetRec.restart { r with latched := false } (detDesc c.plans.det (huskP0 h)))).ok by
      unfold Za.detReset
      rw [Za.withCtx_of_cmdCtx _ hc]
      dsimp only
      rw [if_neg (Nat.not_lt.2 hdet), hbad]
      dsimp only
      rw [hmine]
      dsimp only [List.foldl]
      unfold Za.restartRec
      dsimp only
      have hquiet : DetRec.marked { r with latched := false } = false := hmark
      rw [if_neg (fun hx => absurd hx.1 (by rw [hquiet]; exact Bool.false_ne_true))]
    refine ⟨_, .of_short (c := .detReset h) rfl ha (ha.short rfl (by decide)) (by decide) hrow, ?_, ?_⟩
    · exact (Za.answered_reports _ _ _ _).ctxs
    · rw [(Za.answered_reports _ _ _ _).detRecs]
      change List.map _ (if (s.za.met .detReset h).detRecs.any _ = true then modWhere (s.za.met .detReset h).detRecs _ _ else _) = _
      rw [hrecs]
      simp [modWhere, DetRec.restart]

end Sys2Proof.Machine
end

section
/-!
PROOFS. Weights and features kept with their context.
-/
namespace Sys2Proof.Machine

/-! ### Weight versions (R139). -/

/-- A context with a swap more. -/
def Ctx.withSwap (w : Swap) (c : Ctx) : Ctx := { c with swaps := w :: c.swaps }

theorem Ctx.withSwap_versionValid (c : Ctx) (w : Swap) {f : Nat} (hf : w.first ≤ f) :
    (c.withSwap w).versionValid w.vb f = true := by
  change ((decide (w.first ≤ f) && w.vb == w.vb) || _ || _) = true
  rw [decide_eq_true hf, beq_self_eq_true]
  rfl

theorem Za.sendWindow_restarts (z : Za) (c : Ctx) (frame : Nat) (d : DieEntry) (slot : Nat) :
    z.Restarts (z.sendWindow c frame d slot) := by
  unfold Za.sendWindow
  split
  · exact .refl z
  · refine .ite (.refl z) ?_
    exact (z.modDie_restarts _ _).trans (.of_reports (Za.toDie_reports _ _ _ _ _ _ _ _))

/-- A declared swap is told to the DTUs, which changes no context. -/
theorem Za.weightSwap_ctxs {z x : Za} {h : HuskCmd} {r : Option Result} (hd : z.declareSwap h = (x, r)) :
    ∃ y, z.weightSwap h = (y, r) ∧ y.ctxs = x.ctxs := by
  unfold Za.weightSwap
  rw [hd]
  dsimp only
  split
  · refine ⟨_, rfl, (Za.Restarts.foldl (fun y d => ?_) x.dies x).ctxs⟩
    split
    · split
      · exact .ite (y.sendWindow_restarts _ _ _ _) (.refl y)
      · exact .refl y
    · exact .refl y
  · exact ⟨x, rfl, rfl⟩

theorem Za.weightSwap_refused {z : Za} {h : HuskCmd} {r : Result} (hd : z.declareSwap h = (z, some r)) (hr : r.status ≠ stOk) :
    z.weightSwap h = (z, some r) := by
  unfold Za.weightSwap
  rw [hd]
  dsimp only
  rw [show (z.cmdCtx h).filter (fun _ => (some r).any (fun x => x.status == stOk)) = none from
    Option.filter_eq_none_iff.2 fun _ _ hs => hr (beq_iff_eq.1 hs)]

/-! ### Digest tables (R140). -/

/-- The word of an entry is one of its first four. -/
theorem wf_take {ws : List W} {n i : Nat} (hi lo : Nat) (hn : i < n) : wf (ws.take n) i hi lo = wf ws i hi lo := by
  unfold wf word
  rw [List.getD_eq_getElem?_getD, List.getElem?_take_of_lt hn, ← List.getD_eq_getElem?_getD]

/-- A context with one digest table of one entry. -/
def Ctx.withEntry (v first : Nat) (entry : List W) (c : Ctx) : Ctx :=
  { c with tables := [(v, [(first, entry)])], single := some (c.single.getD v) }

theorem Za.digestLoad_first {z : Za} {h : HuskCmd} {e : Nat} {c : Ctx} (hc : z.cmdCtx h = some (e, c)) (hn : huskP1 h = 1)
    (hfirst : huskP0 h < 2 ^ 22) (ht : c.tables = []) (hq : 1 ≤ c.q.digestTables) (hb : bit (word (huskPay h) 2) 31 = true) :
    z.digestLoad h = (z.modCtx e (Ctx.withEntry (wf (huskPay h) 3 31 16) (huskP0 h) ((huskPay h).take 4))).ok := by
  have hv : wf ((huskPay h).take 4) 3 31 16 = wf (huskPay h) 3 31 16 := wf_take _ _ (by decide)
  have hbit : bit (word ((huskPay h).take 4) 2) 31 = true := hb ▸ congrArg (· == 1) (wf_take 31 31 (by decide))
  have hentries : (List.range 1).map (fun i => ((huskPay h).drop (4 * i)).take 4) = [(huskPay h).take 4] := rfl
  unfold Za.digestLoad
  rw [Za.withCtx_of_cmdCtx _ hc]
  dsimp only
  rw [hn, hentries, List.range_one, ht, if_neg (by omega), if_neg (by omega)]
  simp only [List.map_nil, List.nil_append, List.map_cons]
  rw [hv, if_neg (by rw [show [wf (huskPay h) 3 31 16].eraseDups = [wf (huskPay h) 3 31 16] from rfl]; simp; omega)]
  refine congrArg Za.ok ?_
  rw [Za.modCtx_of_ctx? _ (Za.ctx?_of_cmdCtx hc), Za.modCtx_of_ctx? _ (Za.ctx?_of_cmdCtx hc), ht]
  dsimp only [List.zip_cons_cons, List.zip_nil_right, List.foldl_cons, List.foldl_nil, List.headD_cons]
  rw [hv, hbit, if_pos rfl]
  rfl

/-! ### Features written from outside (R262). -/

/-- A field of seven bits that is 0: its highest bit, and the others. -/
theorem fld_high_zero {w : W} (h : fld w 26 20 = 0) : bit w 26 = false ∧ fld w 25 20 = 0 := by
  have hhigh : w.toNat / 2 ^ 26 % 2 = 0 ∧ w.toNat / 2 ^ 20 % 2 ^ 6 = 0 := by
    have h7 : w.toNat / 2 ^ 20 % 2 ^ 7 = 0 := h
    omega
  exact ⟨beq_eq_false_iff_ne.2 (by rw [show fld w 26 26 = 0 from hhigh.1]; decide), hhigh.2⟩

/-- The descriptors that a FEAT_WRITE for frame `f` is held against. -/
def Za.writePlan (z : Za) (e f : Nat) (c : Ctx) (tile : Bool) : List (List W) :=
  match z.work? e f, c.views.find? (fun v => v.frame == f) with
  | some w, _ => w.view.featPlan tile
  | none, some v => v.featPlan tile
  | none, none => if tile then c.plans.tile else c.plans.die

/-- A FEAT_WRITE whose columns are all EXTERNAL. -/
theorem Za.featWrite_ok {z : Za} (dom : Nat → Nat → Nat) {h : HuskCmd} {e : Nat} {c : Ctx} (hc : z.cmdCtx h = some (e, c))
    (h1 : 1 ≤ fld h.w6 15 0) (h64 : fld h.w6 15 0 ≤ 64)
    (hkey : bit (word (huskPay h) 0) 26 = true ∨ fld (word (huskPay h) 0) 25 20 = 0)
    (hext : ∀ i, i < fld h.w6 15 0 → dExternal ((z.writePlan e (z.frameOf (huskP0 h)) c (bit (word (huskPay h) 0) 26)).getD
      (fld h.w6 31 16 + i) []) = true) :
    z.featWrite dom h =
      if (z.work? e (z.frameOf (huskP0 h))).isNone then
        (if z.frameNow ≤ z.frameOf (huskP0 h)
          then z.keepExternal c (z.frameOf (huskP0 h)) (word (huskPay h) 0) (fld h.w6 31 16) ((huskPay h).drop 1)
          else z.count (.ens .extLate e)).ok
      else (z.writeExternal dom e (z.frameOf (huskP0 h)) (word (huskPay h) 0) (fld h.w6 31 16) ((huskPay h).drop 1)).ok := by
  have hbits (hi lo : Nat) : bits (huskP1 h) hi lo = fld h.w6 hi lo := rfl
  have hgood : (List.range (fld h.w6 15 0)).any (fun i => !dExternal ((z.writePlan e (z.frameOf (huskP0 h)) c
      (bit (word (huskPay h) 0) 26)).getD (fld h.w6 31 16 + i) [])) = false := by
    refine List.any_eq_false.2 fun i hi hno => ?_
    rw [hext i (List.mem_range.1 hi)] at hno
    exact Bool.noConfusion hno
  have hsub : ¬ ((!bit (word (huskPay h) 0) 26) = true ∧ fld (word (huskPay h) 0) 25 20 ≠ 0) := by
    rintro ⟨htile, hne⟩
    rcases hkey with hb | hf
    · rw [hb] at htile
      exact Bool.noConfusion htile
    · exact hne hf
  unfold Za.featWrite
  rw [Za.withCtx_of_cmdCtx _ hc]
  dsimp only
  simp only [hbits]
  refine (if_neg ?_).trans ((if_neg hsub).trans rfl)
  rintro (h0 | h0 | h0)
  · omega
  · omega
  · exact Bool.noConfusion (h0.symm.trans hgood)

theorem Za.writeExternal_ctxs (z : Za) (dom : Nat → Nat → Nat) (e f : Nat) (key : W) (first : Nat) (ws : List W) :
    (z.writeExternal dom e f key first ws).ctxs = z.ctxs := by
  unfold Za.writeExternal
  split
  · rfl
  · dsimp only
    split
    · rfl
    · split
      · rfl
      · rfl

/-- Settles O42: what each command keeps stands in its context, or in the work of its frame. -/
theorem weightsAndFeaturesAreKept : Obligations.WeightsAndFeaturesAreKept := by
  unfold Obligations.WeightsAndFeaturesAreKept
  refine ⟨?swap, ?overlap, ?digest, ?keep, ?write⟩
  case swap =>
    rintro s h z e c ha rfl hc ho hearly hold
    have hctx := Za.ctx?_of_cmdCtx hc
    have hany : c.swaps.any (fun x => decide ((s.za.met .weightSwap h).frameNow < x.first + x.overlap)) = false :=
      List.any_eq_false.2 fun x hx hlt => Nat.not_le.2 (of_decide_eq_true hlt) (hold x hx)
    have hd : (s.za.met .weightSwap h).declareSwap h = ((s.za.met .weightSwap h).modCtx e (Ctx.withSwap
        ⟨(s.za.met .weightSwap h).frameOf (huskP0 h), huskP1 h, wf (huskPay h) 0 31 16, wf (huskPay h) 0 15 0, none⟩)).ok := by
      unfold Za.declareSwap
      rw [Za.withCtx_of_cmdCtx _ hc]
      dsimp only
      rw [if_neg (Nat.not_lt.2 ho), if_neg (Nat.not_lt.2 hearly), hany]
      rfl
    obtain ⟨y, hrow, hctxs⟩ := Za.weightSwap_ctxs hd
    have hx := ZaDraws.of_short (c := .weightSwap h) rfl ha (ha.short rfl (by decide)) (by decide) hrow
    have hkeep := (Za.modCtx_hasCtx (Ctx.withSwap ⟨(s.za.met .weightSwap h).frameOf (huskP0 h), huskP1 h,
      wf (huskPay h) 0 31 16, wf (huskPay h) 0 15 0, none⟩) hctx).of_ctxs
      ((Za.answered_reports y .weightSwap h (resultOf stOk)).ctxs.trans hctxs)
    obtain ⟨hself, hother⟩ := hkeep
    exact ⟨_, _, _, hx, hself, rfl, rfl, rfl, rfl, rfl, fun f hf => c.withSwap_versionValid _ hf, hother⟩
  case overlap =>
    rintro s h z e c ha rfl hc ho hearly ⟨x, hx, hlt⟩
    refine .of_short rfl ha (ha.short rfl (by decide)) (by decide) (Za.weightSwap_refused ?_ (by decide))
    unfold Za.declareSwap
    rw [Za.withCtx_of_cmdCtx _ hc]
    dsimp only
    rw [if_neg (Nat.not_lt.2 ho), if_neg (Nat.not_lt.2 hearly), if_pos (List.any_eq_true.2 ⟨x, hx, decide_eq_true hlt⟩)]
    rfl
  case digest =>
    rintro s h z e c ha rfl hc hn hfirst ht hq hb
    obtain ⟨t, hx, hself, hother⟩ := ZaDraws.exists_answered_ctx (i := .digestLoad h) rfl ha (ha.short rfl (by decide)) (by decide)
      (Za.ctx?_of_cmdCtx hc) (Za.digestLoad_first hc hn hfirst ht hq hb)
    refine ⟨t, _, hx, hself, ?_, rfl, hother⟩
    exact aGetD_aPut_same [] (wf (huskPay h) 3 31 16) [(huskP0 h, (huskPay h).take 4)] []
  case keep =>
    rintro s h z e c ha rfl hc h1 h64 hw hv hkey hext
    refine .of_short rfl ha (ha.short rfl (by decide)) (by decide) ?_
    obtain ⟨htile, hsub⟩ := fld_high_zero hkey
    have hplan : (s.za.met .featWrite h).writePlan e ((s.za.met .featWrite h).frameOf (huskP0 h)) c false = c.plans.die := by
      unfold Za.writePlan
      rw [hw, hv]
      rfl
    refine (Za.featWrite_ok s.cellDom hc h1 h64 (Or.inr hsub) (by rw [htile, hplan]; exact hext)).trans ?_
    rw [hw, Option.isNone_none, if_pos rfl]
    split
    · rfl
    · rfl
  case write =>
    rintro s h z e c w ha rfl hc h1 h64 hw hkey hext
    have hrow := show (s.za.met .featWrite h).featWrite s.cellDom h = ((s.za.met .featWrite h).writeExternal s.cellDom e
        ((s.za.met .featWrite h).frameOf (huskP0 h)) (word (huskPay h) 0) (fld h.w6 31 16) ((huskPay h).drop 1)).ok by
      rw [Za.featWrite_ok s.cellDom hc h1 h64 hkey (by unfold Za.writePlan; rw [hw]; exact hext), hw]
      rfl
    refine ⟨_, .of_short (c := .featWrite h) rfl ha (ha.short rfl (by decide)) (by decide) hrow, rfl, ?_⟩
    exact Za.writeExternal_ctxs ..

end Sys2Proof.Machine
end

section
/-!
PROOFS. Husks relayed to a DTU and chained to a sync object.
-/
namespace Sys2Proof.Machine

/-! ### What is common to them: the Husk passes its tests (R369 to R377). -/

/-- A Husk reaches the firmware whole, and its tests up to its context's state pass: what runs is `Za.huskRun`. -/
theorem State.husk_run {s : State} {op : Opcode} {h : HuskCmd} (hside : h.side = .za) (hpow : s.za.power.powered = true)
    (hpin : s.za.power.pinLow = false) (hhead : h.req.keomon = true ∨ s.za.takes h.req.link (s.za.huskFrameOf op h))
    (hboot : (s.za.met op h).boot.phase = 4) (hcrc : h.crc = huskCrc op h) (hearly : (s.za.met op h).huskEarly op h = none)
    (hdest : ∀ agg, (s.za.met op h).huskDest h ≠ .forward agg) (hlate : (s.za.met op h).huskLate op h = none) :
    (s.husk op h).za = (s.za.met op h).huskRun s.free s.cellDom op h := by
  have hb : (s.za.met op h).huskBody s.free s.cellDom op h = (s.za.met op h).huskRun s.free s.cellDom op h := by
    unfold Za.huskBody
    rw [hearly]
    dsimp only
    split
    next agg hf => exact absurd hf (hdest agg)
    next => rw [hlate]
  have hrun : s.za.husk s.free s.cellDom op h = (s.za.met op h).huskBody s.free s.cellDom op h := by
    unfold Za.husk
    rw [if_neg (by rw [hpow, hpin]; simp)]
    dsimp only
    cases hk : h.req.keomon with
    | true =>
      have hmet : s.za.met op h = s.za := if_pos hk
      rw [hmet] at hboot ⊢
      rw [if_pos rfl]
      dsimp only
      rw [if_neg (by simp), if_neg (fun hx => hx.1 hboot), if_neg (fun hx => hx hcrc)]
    | false =>
      have hmet : s.za.met op h = (s.za.receive h.req.link (s.za.huskFrameOf op h)).1 := if_neg (by rw [hk]; exact Bool.false_ne_true)
      rw [hmet] at hboot ⊢
      rw [if_neg Bool.false_ne_true]
      rw [if_neg (by rw [show (s.za.receive h.req.link (s.za.huskFrameOf op h)).2 = true from
        hhead.resolve_left (by rw [hk]; exact Bool.false_ne_true)]; exact Bool.false_ne_true), if_neg (fun hx => hx.1 hboot),
        if_neg (fun hx => hx hcrc)]
  rw [State.husk_za s op h hside, hrun, hb]

/-- A fresh Husk without a chain for a DTU. -/
theorem Za.huskRun_relay {z : Za} {op : Opcode} {h : HuskCmd} {die : Nat} (free : Nat) (dom : Nat → Nat → Nat)
    (hfresh : lookupTag z.cmds.cache h.req op h = .fresh) (hfree : huskLong op h = true → z.handleFree op h = true)
    (hdest : z.huskDest h = .relay die) (hplain : huskChained h = false) :
    z.huskRun free dom op h = z.acceptRelay die op h := by
  unfold Za.huskRun
  rw [hfresh]
  dsimp only
  rw [if_neg (fun hx => by rw [hfree hx.1] at hx; exact Bool.noConfusion hx.2), hdest, if_neg (by rw [hplain]; exact Bool.false_ne_true)]

/-- A fresh chained Husk for the ZA40 itself. -/
theorem Za.huskRun_chained {z : Za} {op : Opcode} {h : HuskCmd} (free : Nat) (dom : Nat → Nat → Nat)
    (hfresh : lookupTag z.cmds.cache h.req op h = .fresh) (hfree : z.handleFree op h = true)
    (hdest : z.huskDest h = .self) (hchain : huskChained h = true) :
    z.huskRun free dom op h = z.acceptChained free dom op h none := by
  unfold Za.huskRun
  rw [hfresh]
  dsimp only
  rw [if_neg (fun hx => by rw [hfree] at hx; exact Bool.noConfusion hx.2), hdest, if_pos hchain]

/-! ### Relays (R371). -/

/-- The relay under which a Husk goes on to a DTU. -/
def Za.relayOf (z : Za) (die : Nat) (op : Opcode) (h : HuskCmd) (handle : W) (cache : Bool) : Relay :=
  { ownTag := z.cmds.nextTag, die, cmd := { op, req := h.req, w1 := h.w1, tag := huskTag h }, handle, sentAt := z.time.begun,
    husk := h, cache }

theorem Za.toDie_eq (z : Za) (die cls msg ctx gen plen : Nat) (body : List W) :
    ∃ links, z.toDie die cls msg ctx gen plen body = { z with links } := by
  unfold Za.toDie
  split
  · split
    · exact ⟨_, rfl⟩
    · exact ⟨_, rfl⟩
  · exact ⟨_, rfl⟩

/-- A Husk that goes on to a DTU is booked as a relay, and leaves by the die's link. -/
theorem Za.relay_eq (z : Za) (die : Nat) (op : Opcode) (h : HuskCmd) (handle : W) (cache : Bool) :
    ∃ links nextTag, z.relay die op h handle cache =
      { z with links, cmds := { z.cmds with nextTag, relays := z.cmds.relays ++ [z.relayOf die op h handle cache] } } := by
  unfold Za.relay
  dsimp only
  obtain ⟨links, hsent⟩ := Za.toDie_eq { z with cmds := { z.cmds with
    nextTag := if z.cmds.nextTag + 1 = 0 then 1 else z.cmds.nextTag + 1, relays := z.cmds.relays ++ [z.relayOf die op h handle cache] } }
    die clsCtrl 0x01 _ _ _ _
  exact ⟨links, _, hsent⟩

theorem Za.replyNow_order (z : Za) (op : Opcode) (h : HuskCmd) (ckind : Nat) (handle : W) (r : Result) (cache : Bool) :
    (z.replyNow op h ckind handle r cache).cmds.order = z.cmds.order := by
  have hsend (x : Za) (rec_ : List W) : (x.sendRecord h.req h.w1 rec_).cmds.order = x.cmds.order := by
    unfold Za.sendRecord Za.toRequester
    dsimp only
    split
    · rfl
    · split
      · rfl
      · rfl
  exact (hsend _ _).trans (by cases cache <;> rfl)

theorem Za.take_eq {z z1 : Za} {op : Opcode} {h : HuskCmd} {chain : Option Chain} {parked : Bool} {relay : Option Nat} {handle : W}
    (ht : z.take op h chain parked relay = some (z1, handle)) : ∃ cmds, z1 = { z with cmds } := by
  unfold Za.take at ht
  obtain ⟨i, -, hi⟩ := Option.map_eq_some_iff.1 ht
  rw [← (Prod.mk.inj hi).1]
  exact ⟨_, rfl⟩

/-- Settles O45: what runs is the acceptance of a relay or of a chain, which books the Husk before anything of it runs. -/
theorem husksAreRelayedAndChained : Obligations.HusksAreRelayedAndChained := by
  unfold Obligations.HusksAreRelayedAndChained
  refine ⟨?short, ?long, ?chained⟩
  case short =>
    rintro s op h z die hside hpow hpin hhead rfl hboot hcrc hearly hdest hlate hfresh hplain hlong hop hfault
    rw [State.husk_run hside hpow hpin hhead hboot hcrc hearly (fun _ hx => HuskDest.noConfusion (hdest.symm.trans hx)) hlate,
      Za.huskRun_relay _ _ hfresh (fun hx => absurd hx (by rw [hlong]; exact Bool.false_ne_true)) hdest hplain]
    unfold Za.acceptRelay
    rw [hfault]
    dsimp only
    rw [if_neg (by rw [hop]; exact Bool.false_ne_true)]
    obtain ⟨links, nextTag, hrelay⟩ := Za.relay_eq { s.za.met op h with cmds := { (s.za.met op h).cmds with
      cache := storeTag (s.za.met op h).cmds.cache 16384 ⟨h.req, huskTag h, huskBytes op h, [], 0,
        (s.za.met op h).time.begun⟩ } } die op h 0 true
    rw [hrelay]
    exact ⟨_, rfl, rfl, rfl, rfl, rfl, rfl, rfl, rfl, rfl, rfl⟩
  case long =>
    rintro s op h z z1 die handle hside hpow hpin hhead rfl hboot hcrc hearly hdest hlate hfresh hplain hop hfree hfault htake
    rw [State.husk_run hside hpow hpin hhead hboot hcrc hearly (fun _ hx => HuskDest.noConfusion (hdest.symm.trans hx)) hlate,
      Za.huskRun_relay _ _ hfresh (fun _ => hfree) hdest hplain]
    unfold Za.acceptRelay
    rw [hfault]
    dsimp only
    rw [if_pos hop, htake]
    rfl
  case chained =>
    rintro s op h z z1 handle o hside hpow hpin hhead rfl hboot hcrc hearly hdest hlate hfresh hchain hfree hfault hwait hobj hlow htake
    rw [State.husk_run hside hpow hpin hhead hboot hcrc hearly (fun _ hx => HuskDest.noConfusion (hdest.symm.trans hx)) hlate,
      Za.huskRun_chained _ _ hfresh hfree hdest hchain]
    have hparks : ((huskChain h).waitEn && decide ((((s.za.met op h).sync? (huskChain h).waitObj).map (·.value)).getD 0 <
        (huskChain h).waitV)) = true := by
      rw [hwait, hobj, Bool.true_and]
      exact decide_eq_true hlow
    unfold Za.acceptChained
    rw [hfault]
    dsimp only
    rw [hparks, htake]
    dsimp only
    rw [if_pos rfl, Za.replyNow_order]
    obtain ⟨cmds, links, keomon, hreply, hhandles, -⟩ := Za.replyNow_eq z1 op h 1 handle (resultOf stOk) true
    obtain ⟨cmds1, hz1⟩ := Za.take_eq htake
    rw [hreply]
    exact ⟨by rw [hz1], by rw [hz1], by rw [hz1], hhandles⟩

end Sys2Proof.Machine
end

section
/-!
PROOFS. What arrives on the ZA40's links: frames taken, and the queues of what leaves.
-/
namespace Sys2Proof.Machine

/-! ### A frame that is taken (R337, R338). -/

theorem Za.takes_state {z : Za} {p : Nat} {f : Frame} (h : z.takes p f) : (z.link p).state ≠ 6 := by
  intro h6
  unfold Za.takes Za.receive at h
  rw [if_pos h6] at h
  split at h
  · exact Bool.noConfusion h
  · exact Bool.noConfusion h

/-- A frame that is taken goes through its sequence number, its credits, the Frost capture and the policer. -/
theorem Za.taken_eq_police {z : Za} {p : Nat} {f : Frame} (h : z.takes p f) :
    ∃ g g', z.taken p f = (((((z.modLink p g).takeLseq p (z.fromDie p f) f.cls.toNat f.lseq).modEnd p (z.fromDie p f) g').capture p
      f.cls.toNat f).police p (z.fromDie p f) f.cls.toNat f.plen.toNat).1 := by
  unfold Za.takes at h
  unfold Za.taken
  unfold Za.receive at h ⊢
  dsimp only at h ⊢
  split at h
  · exact Bool.noConfusion h
  next hon =>
    rw [if_neg hon]
    split at h
    · exact Bool.noConfusion h
    next hst =>
      rw [if_neg hst]
      cases hf : z.headerFault p f with
      | some c =>
        rw [hf] at h
        cases c <;> exact Bool.noConfusion h
      | none =>
        rw [hf] at h
        dsimp only at h ⊢
        split at h
        next d hd =>
          split at h
          · exact Bool.noConfusion h
          next hfence =>
            exact ⟨_, _, congrArg Prod.fst (if_neg hfence)⟩
        next hd =>
          exact ⟨_, _, rfl⟩

/-! ### What of a ZA40 a frame taken leaves (R338). -/

theorem Za.modEnd_none (z : Za) (p : Nat) (g : Endpoint → Endpoint) :
    z.modEnd p none g = z.modLink p (fun l => { l with ends := g l.ends }) := rfl

/-- A sequence number is booked with its pair; a gap is counted and spoils a capture. -/
theorem Za.takeLseq_eq_modEnd (z : Za) (p : Nat) (die : Option Nat) (cls : Nat) (lseq : W) :
    ∃ g frost counters, z.takeLseq p die cls lseq = { z.modEnd p die g with frost, counters } ∧ frost.state = z.frost.state := by
  have hfrost (g : Endpoint → Endpoint) : (z.modEnd p die g).frost.state = z.frost.state := by
    obtain ⟨links, dies, h⟩ := z.modEnd_eq p die g
    rw [h]
  unfold Za.takeLseq
  extract_lets two want diff y y'
  have hy : y.frost.state = z.frost.state := hfrost _
  refine ⟨fun e => { e with lseqRx := e.lseqRx.set cls ((if two then want else lseq) + 1) }, ?_⟩
  split
  · split
    · exact ⟨_, _, rfl, hy⟩
    · exact ⟨_, _, rfl, hy⟩
  · exact ⟨_, _, rfl, hy⟩

theorem Za.takeLseq_dies (z : Za) (p cls : Nat) (lseq : W) : (z.takeLseq p none cls lseq).dies = z.dies := by
  obtain ⟨g, frost, counters, h, -⟩ := z.takeLseq_eq_modEnd p none cls lseq
  rw [h]
  rfl

theorem Za.capture_dies (z : Za) (p cls : Nat) (f : Frame) : (z.capture p cls f).dies = z.dies := by
  obtain ⟨frost, h⟩ := z.capture_eq p cls f
  rw [h]

theorem Za.police_dies (z : Za) (p cls plen : Nat) : (z.police p none cls plen).1.dies = z.dies := by
  unfold Za.police
  dsimp only [Option.bind_none]
  split
  · rfl
  · split
    · rfl
    · split
      · rfl
      · rfl

/-- A frame that is from no die of the tray leaves the dies as they were. -/
theorem Za.taken_dies {z : Za} {p : Nat} {f : Frame} (h : z.takes p f) (hd : z.fromDie p f = none) : (z.taken p f).dies = z.dies := by
  obtain ⟨g, g', ht⟩ := Za.taken_eq_police h
  rw [ht, hd, Za.police_dies, Za.capture_dies, Za.modEnd_none]
  exact Za.takeLseq_dies _ _ _ _

theorem Za.modEnd_frost (z : Za) (p : Nat) (die : Option Nat) (g : Endpoint → Endpoint) : (z.modEnd p die g).frost = z.frost := by
  obtain ⟨links, dies, h⟩ := z.modEnd_eq p die g
  rw [h]

theorem Za.takeLseq_frost_state (z : Za) (p : Nat) (die : Option Nat) (cls : Nat) (lseq : W) :
    (z.takeLseq p die cls lseq).frost.state = z.frost.state := by
  obtain ⟨g, frost, counters, h, hstate⟩ := z.takeLseq_eq_modEnd p die cls lseq
  rw [h]
  exact hstate

theorem Za.capture_frost_state (z : Za) (p cls : Nat) (f : Frame) : (z.capture p cls f).frost.state = z.frost.state := by
  unfold Za.capture
  dsimp only
  split
  · split
    · rfl
    · rfl
  · rfl

/-- A frame that is taken leaves the state of a Frost as it was. -/
theorem Za.taken_frost_state {z : Za} {p : Nat} {f : Frame} (h : z.takes p f) : (z.taken p f).frost.state = z.frost.state := by
  obtain ⟨g, g', ht⟩ := Za.taken_eq_police h
  rw [ht]
  obtain ⟨links, dies, counters, hp⟩ := Za.police_eq (((((z.modLink p g).takeLseq p (z.fromDie p f) f.cls.toNat f.lseq).modEnd p
    (z.fromDie p f) g').capture p f.cls.toNat f)) p (z.fromDie p f) f.cls.toNat f.plen.toNat
  rw [hp]
  change (Za.capture _ _ _ _).frost.state = _
  rw [Za.capture_frost_state, Za.modEnd_frost, Za.takeLseq_frost_state]
  rfl

theorem Za.taken_face {z : Za} {p : Nat} {f : Frame} (h : z.takes p f) (k : Nat) : (z.taken p f).face k = z.face k := by
  obtain ⟨links, dies, frost, counters, ht⟩ := Za.taken_eq h
  rw [ht]
  rfl

theorem Za.taken_keeps_books {z : Za} {p : Nat} {f : Frame} (h : z.takes p f) :
    (z.taken p f).ctxs = z.ctxs ∧ (z.taken p f).regs = z.regs ∧ (z.taken p f).tag = z.tag ∧ (z.taken p f).time = z.time ∧
      (z.taken p f).boot = z.boot ∧ (z.taken p f).power = z.power := by
  obtain ⟨links, dies, frost, counters, ht⟩ := Za.taken_eq h
  rw [ht]
  exact ⟨rfl, rfl, rfl, rfl, rfl, rfl⟩

theorem Za.fromDie_of_face {z : Za} {p : Nat} {f : Frame} (h : z.face p ≠ 1) : z.fromDie p f = none := if_neg h

/-! ### Links and their queues. -/

/-- `x` is a state whose links differ from those of `z` by frames added to their queues. -/
def Za.Queues (z x : Za) : Prop :=
  ∀ p, ∃ shapers more, x.link p = { z.link p with shapers, queue := (z.link p).queue ++ more }

namespace Za.Queues
variable {a b c z x : Za}

theorem of_links (h : x.links = z.links) : z.Queues x := fun p => by
  refine ⟨(z.link p).shapers, [], ?_⟩
  unfold Za.link
  rw [h, List.append_nil]

theorem refl (z : Za) : z.Queues z := of_links rfl

theorem trans (h : a.Queues b) (k : b.Queues c) : a.Queues c := fun p => by
  obtain ⟨s1, m1, h1⟩ := h p
  obtain ⟨s2, m2, h2⟩ := k p
  refine ⟨s2, m1 ++ m2, ?_⟩
  rw [h2, h1, List.append_assoc]

theorem ite {q : Prop} [Decidable q] (hx : z.Queues a) (hy : z.Queues b) : z.Queues (if q then a else b) := by
  split
  · exact hx
  · exact hy

theorem foldl {α : Type} {f : Za → α → Za} (hf : ∀ (z : Za) a, z.Queues (f z a)) (l : List α) (z : Za) : z.Queues (l.foldl f z) :=
  List.foldlRecOn (motive := fun x : Za => z.Queues x) l f (refl z) fun x hx a _ => hx.trans (hf x a)

theorem state (h : z.Queues x) (p : Nat) : (x.link p).state = (z.link p).state := by
  obtain ⟨_, _, h⟩ := h p
  rw [h]

theorem version (h : z.Queues x) (p : Nat) : (x.link p).version = (z.link p).version := by
  obtain ⟨_, _, h⟩ := h p
  rw [h]

end Za.Queues

theorem Za.enqueue_queues (z : Za) (p : Nat) (die : Option Nat) (f : TxFrame) : z.Queues (z.enqueue p die f) := fun k => by
  by_cases hk : k = p
  · rw [hk]
    exact ⟨_, [⟨f, z.nowNs, die⟩], Za.link_modLink_same _ _ _⟩
  · refine ⟨(z.link k).shapers, [], ?_⟩
    rw [List.append_nil]
    exact Za.link_modLink_other _ _ hk

theorem Za.toDie_queues (z : Za) (die cls msg ctx gen plen : Nat) (body : List W) :
    z.Queues (z.toDie die cls msg ctx gen plen body) := by
  unfold Za.toDie
  split
  · exact .ite (.refl z) (z.enqueue_queues _ _ _)
  · exact .refl z

theorem Za.frostSend_queues (z : Za) (msg : Nat) (dies : List Nat) (instant : Nat) : z.Queues (z.frostSend msg dies instant) :=
  .foldl (fun z die => z.toDie_queues die _ _ _ _ _ _) dies z

theorem Za.stopNow_queues (z : Za) (frostId : W) (full : Bool) (except : Option Nat) : z.Queues (z.stopNow frostId full except) := by
  unfold Za.stopNow
  dsimp only
  refine Za.Queues.trans (Za.Queues.trans ?_ (Za.frostSend_queues _ _ _ _)) (.foldl (fun x p => x.enqueue_queues p _ _) _ _)
  exact .of_links (by unfold Za.stop Za.armed Za.finish; split <;> rfl)

theorem Za.toAgg_queues (z : Za) (agg cls msg ctx gen plen : Nat) (body : List W) :
    z.Queues (z.toAgg agg cls msg ctx gen plen body) := by
  unfold Za.toAgg
  exact .ite (z.enqueue_queues _ _ _) (.of_links rfl)

theorem Za.sendFault_queues (z : Za) (f : HeldFault) : z.Queues (z.sendFault f) :=
  Za.Queues.trans (.of_links rfl) (.ite (Za.toAgg_queues _ _ _ _ _ _ _ _) (.refl _))

theorem Za.raiseMsg_queues (z : Za) (m : BitVec 128) (ext : List W) : z.Queues (z.raiseMsg m ext) := by
  unfold Za.raiseMsg
  refine Za.Queues.trans (b := if msgSeverity m = 3 then _ else _) ?_ (.ite (Za.stopNow_queues _ _ _ _) (.refl _))
  refine .ite ((z.sendFault_queues _).trans (.of_links rfl)) (.ite (.of_links rfl) (.of_links rfl))

end Sys2Proof.Machine
end

section
/-!
PROOFS. Link messages and losses at the ZA40.
-/
namespace Sys2Proof.Machine

/-! ### Dies whose slots are booked (R27, R89). -/

/-- A die without the books of its slots. -/
def DieEntry.apart (d : DieEntry) : DieEntry := { d with slots := [], slotDue := [], slotPend := [] }

/-- `x` is a state whose dies differ from those of `z` in the books of their slots alone; a Frost is as it was. -/
def Za.BooksSlots (z x : Za) : Prop := x.dies.map DieEntry.apart = z.dies.map DieEntry.apart ∧ x.frost = z.frost

namespace Za.BooksSlots
variable {a b c z x : Za}

theorem refl (z : Za) : z.BooksSlots z := ⟨rfl, rfl⟩

theorem trans (h : a.BooksSlots b) (k : b.BooksSlots c) : a.BooksSlots c := ⟨k.1.trans h.1, k.2.trans h.2⟩

theorem foldl {α : Type} {f : Za → α → Za} (hf : ∀ (z : Za) a, z.BooksSlots (f z a)) (l : List α) (z : Za) :
    z.BooksSlots (l.foldl f z) :=
  List.foldlRecOn (motive := fun x : Za => z.BooksSlots x) l f (refl z) fun x hx a _ => hx.trans (hf x a)

theorem modDie (z : Za) (die : Nat) {g : DieEntry → DieEntry} (hg : ∀ d, (g d).apart = d.apart) : z.BooksSlots (z.modDie die g) :=
  ⟨map_modWhere_of_same z.dies _ g DieEntry.apart hg, rfl⟩

/-- The entry of a die is found again. -/
theorem die? {die : Nat} {d : DieEntry} (h : z.BooksSlots x) (hd : z.die? die = some d) :
    ∃ d', x.die? die = some d' ∧ d'.apart = d.apart := by
  have hfind (y : Za) : (y.dies.map DieEntry.apart).find? (fun d => d.die == die) = (y.die? die).map DieEntry.apart := List.find?_map ..
  have hx : (x.die? die).map DieEntry.apart = some d.apart := by rw [← hfind, h.1, hfind, hd, Option.map_some]
  exact Option.map_eq_some_iff.1 hx

end Za.BooksSlots

theorem Za.ownWrite_booksSlots (z : Za) (die a : Nat) (ws : List W) : z.BooksSlots (z.ownWrite die a ws) := by
  obtain ⟨links, nextTag, h⟩ := z.relay_eq die .regWrite (ownHusk die a (0x10000000 + ws.length) ws 0xFFFF0000) 0 false
  unfold Za.ownWrite
  rw [h]
  exact ⟨rfl, rfl⟩

theorem Za.writeSlot_booksSlots (z : Za) (die : Nat) (x : Nat × Nat) : z.BooksSlots (z.writeSlot die x) := by
  unfold Za.writeSlot
  split
  · exact .refl z
  · split
    · exact ((z.ownWrite_booksSlots _ _ _).trans (Za.ownWrite_booksSlots _ _ _ _)).trans (.modDie _ _ fun _ => rfl)
    · exact .refl z

theorem Za.writeSlots_booksSlots (z : Za) (die : Nat) : z.BooksSlots (z.writeSlots die) := by
  unfold Za.writeSlots
  split
  · exact .refl z
  · exact .foldl (fun z x => z.writeSlot_booksSlots die x) _ z

theorem Za.slotChanges_booksSlots (z : Za) (ctx gen f : Nat) : z.BooksSlots (z.slotChanges ctx gen f) :=
  .foldl (fun z die => (Za.BooksSlots.modDie z die (g := fun d => d.slotChange ctx gen f) fun _ => rfl).trans
    (Za.writeSlots_booksSlots _ die)) _ z

theorem Za.takeSlot_booksSlots (z : Za) (die ctx gen rank f : Nat) : z.BooksSlots (z.takeSlot die ctx gen rank f) := by
  unfold Za.takeSlot
  split
  · exact .refl z
  · exact .modDie z die fun _ => rfl

theorem Za.modCtx_booksSlots (z : Za) (e : Nat) (g : Ctx → Ctx) : z.BooksSlots (z.modCtx e g) := by
  unfold Za.modCtx
  split
  · exact ⟨rfl, rfl⟩
  · exact .refl z

/-- A die that joins the fabric context books slots alone. -/
theorem Za.joinFabric_booksSlots (z : Za) (die : Nat) : z.BooksSlots (z.joinFabric die) := by
  unfold Za.joinFabric
  split
  · exact .refl z
  · extract_lets f y
    refine Za.BooksSlots.trans (b := y) (.modDie z die fun _ => rfl) ?_
    split
    · exact Za.writeSlots_booksSlots _ die
    · exact (((Za.modCtx_booksSlots _ _ _).trans (Za.takeSlot_booksSlots _ _ _ _ _ _)).trans (Za.slotChanges_booksSlots _ _ _ _)).trans
        (Za.writeSlots_booksSlots _ die)

/-! ### A HELLO of a DTU (R342, R349). -/

theorem find?_insertBy_new {α : Type} (key : α → Nat) (a : α) (l : List α) (h : ∀ x ∈ l, key x ≠ key a) :
    (insertBy key a l).find? (fun x => key x == key a) = some a := by
  induction l with
  | nil => exact List.find?_cons_of_pos (beq_self_eq_true _)
  | cons b l ih =>
    unfold insertBy
    split
    · exact List.find?_cons_of_pos (beq_self_eq_true _)
    · rw [List.find?_cons_of_neg (by rw [beq_iff_eq]; exact h b List.mem_cons_self)]
      exact ih fun x hx => h x (List.mem_cons_of_mem _ hx)

theorem any_insertBy {α : Type} (key : α → Nat) (a : α) (l : List α) (p : α → Bool) :
    (insertBy key a l).any p = (p a || l.any p) := by
  induction l with
  | nil => rfl
  | cons b l ih =>
    unfold insertBy
    split
    · rfl
    · rw [List.any_cons, ih, List.any_cons, Bool.or_left_comm]

/-- A die that was not known before is booked as a fresh entry. -/
def Za.withNewDie (z : Za) (die p : Nat) : Za :=
  { z with dies := insertBy (fun (d : DieEntry) => d.die) (DieEntry.fresh die p) z.dies }

theorem Za.withNewDie_die? {z : Za} {die : Nat} (p : Nat) (h : z.die? die = none) :
    (z.withNewDie die p).die? die = some (DieEntry.fresh die p) :=
  find?_insertBy_new (fun d : DieEntry => d.die) (DieEntry.fresh die p) z.dies fun d hd hk =>
    List.find?_eq_none.1 h d hd (beq_iff_eq.2 hk)

theorem Za.withNewDie_admitReason {z : Za} {die p : Nat} (tag : List W) (ident vercap : W) (h : z.die? die = none) :
    (z.withNewDie die p).admitReason p die tag ident vercap = z.admitReason p die tag ident vercap := by
  unfold Za.admitReason
  rw [Za.withNewDie_die? p h, h, show (z.withNewDie die p).dies = insertBy (fun (d : DieEntry) => d.die) (DieEntry.fresh die p) z.dies
    from rfl, any_insertBy]
  rfl

theorem settle_ne_zero {ident vercap : W} {v : Nat} (h : zaSettle ident vercap = some v) : v ≠ 0 := by
  unfold zaSettle at h
  obtain ⟨hs, -⟩ := Option.filter_eq_some_iff.1 h
  unfold settle at hs
  have hlo : fld zaVercap 23 16 = 32 := by decide
  dsimp only at hs
  split at hs
  next hle =>
    rw [← Option.some.inj hs]
    omega
  next => exact absurd hs (Option.some_ne_none v).symm

theorem zaSettle_of_admitReason {z : Za} {p die : Nat} {tag : List W} {ident vercap : W}
    (h : z.admitReason p die tag ident vercap = 0) : ∃ v, zaSettle ident vercap = some v := by
  unfold Za.admitReason at h
  dsimp only at h
  cases hv : zaSettle ident vercap with
  | some v => exact ⟨v, rfl⟩
  | none =>
    rw [hv, Option.isNone_none, if_pos rfl] at h
    (repeat' split at h) <;> omega

/-- A version in its place of ADMIT leaves the answer, in the highest bits, 0. -/
theorem fld_pack_admit (version : Nat) : fld (pack [(0, 31, 24), (0, 23, 16), (version, 15, 8)]) 31 24 = 0 := by
  unfold fld bits pack packNat packNat packNat packNat
  rw [BitVec.toNat_ofNat]
  omega

/-- An ADMIT that answers a HELLO under its transaction word. -/
def IsAdmit (tAdmit : W) (body : List W) : Prop := wf body 0 31 24 = 0 ∧ word body 4 = tAdmit

/-- The entry of a die that has been admitted. -/
def DieEntry.Admitted (d : DieEntry) (p : Nat) (tag : List W) : Prop :=
  d.admitted = true ∧ d.link = p ∧ d.timeSync = true ∧ d.tag = tag ∧ d.fenced = none

/-- What the admission of a die books (R349). -/
def DieEntry.madeAlive (rate burst now : Nat) (bulkHeld : Bool) (d : DieEntry) : DieEntry :=
  { d with
    admitted := true, rate, burst := 1024 * burst, policer := { enabled := true, rate, burst := 1024 * burst, v := now * rate },
    bulkHeld, live := 1, missed := 0, onTime := 0, hailed := false, hailDue := false, fenced := none,
    readmitDue := false, holdEnds := d.hold != 0,
    slots := if d.readmitDue then d.slots.filter (fun s => s.slot == 0) else d.slots }

theorem DieEntry.Admitted.of_apart {d d' : DieEntry} {p : Nat} {tag : List W} (h : d.Admitted p tag) (ha : d'.apart = d.apart) :
    d'.Admitted p tag := by
  have hapart (y : DieEntry) : y.apart.Admitted p tag ↔ y.Admitted p tag := Iff.rfl
  rw [← hapart, ha, hapart]
  exact h

/-- A HELLO of a die not known before that passes R349: the die is booked as admitted, and ADMIT is queued for it. -/
theorem Za.helloDie_new {z : Za} {p die : Nat} {f : Frame} (hsrc : srcDie f = some die) (hnew : z.die? die = none)
    (hreason : z.admitReason p die ((f.body.drop 2).take 8) (word f.body 0) (word f.body 1) = 0) (hfrost : z.frost.state ≠ 1) :
    ∃ (x : Za) (d : DieEntry) (body : List W), z.helloDie p f = x.enqueue p (some die) (mkTx clsLink 0x02 (dtuMac die) 0xFFFF 0 32
        body) ∧ IsAdmit (word f.body 11) body ∧ x.die? die = some d ∧ d.Admitted p ((f.body.drop 2).take 8) := by
  obtain ⟨v, hv⟩ := zaSettle_of_admitReason hreason
  generalize hres : z.helloDie p f = res
  unfold Za.helloDie at hres
  rw [hsrc] at hres
  dsimp -zeta only at hres
  extract_lets b tag vercap z1 z2 reason other version rate burst body z3 z4 z5 z6 z7 z8 at hres
  have h1 : z1.die? die = none := hnew
  have h1f : z1.frost = z.frost := rfl
  have h2 : z2 = z1.withNewDie die p := by
    change (match z1.die? die with | none => _ | some d => _) = _
    rw [h1]
    rfl
  have hr : reason = 0 := by
    change z2.admitReason p die tag (word b 0) vercap = 0
    rw [h2, Za.withNewDie_admitReason _ _ _ h1]
    exact hreason
  have ho : other = false := by
    change (match z2.die? die with | some d => d.admitted && d.link != p | none => false) = false
    rw [h2, Za.withNewDie_die? p h1]
    rfl
  have hversion : (version != 0) = true := by
    change ((zaSettle (word f.body 0) (word f.body 1)).getD 0 != 0) = true
    rw [hv]
    exact bne_iff_ne.2 (settle_ne_zero hv)
  have h3 : z3 = z2.modDie die (fun d => { d with
      link := p, tag, vercap, version, timeSync := version != 0, ends := { d.ends with
        lseqRx := d.ends.lseqRx.set 0 (f.lseq + 1) } }) := if_neg (by rw [ho]; exact Bool.false_ne_true)
  have h4 : z4 = z3 := if_neg (by omega)
  have h5 : ∃ g : DieEntry → DieEntry, z6 = (z4.modDie die g).joinFabric die ∧ ∀ d, (g d).die = d.die ∧ (g d).admitted = true ∧
      (g d).fenced = none ∧ (g d).link = d.link ∧ (g d).timeSync = d.timeSync ∧ (g d).tag = d.tag :=
    ⟨DieEntry.madeAlive rate burst z4.now z4.forward.hold, if_pos hr, fun _ => ⟨rfl, rfl, rfl, rfl, rfl, rfl⟩⟩
  have h6 : z7 = z6.finishWhere (fun h => h.cmd.op == .readmit && decide (huskP0 h.husk = die)) true (resultOf stOk) := if_pos hr
  have h7 : z8 = z7.enqueue p (some die) (mkTx clsLink 0x02 (dtuMac die) 0xFFFF 0 32 body) := by
    change z7.enqueue p (if other then none else some die) _ = _
    rw [ho]
    rfl
  have hbody : IsAdmit (word f.body 11) body := by
    refine ⟨?_, rfl⟩
    change fld (pack [(b2n (reason != 0), 31, 24), (reason, 23, 16), (version, 15, 8)]) 31 24 = 0
    rw [hr]
    exact fld_pack_admit version
  clear_value body z1 z2 reason other version rate burst z3 z4 z5 z6 z7 z8
  obtain ⟨g, h5, hg⟩ := h5
  have hjoin := (z4.modDie die g).joinFabric_booksSlots die
  rw [← h5] at hjoin
  have hdie : (z4.modDie die g).die? die = some (g { DieEntry.fresh die p with
      link := p, tag, vercap, version, timeSync := version != 0, ends := { (DieEntry.fresh die p).ends with
        lseqRx := (DieEntry.fresh die p).ends.lseqRx.set 0 (f.lseq + 1) } }) := by
    rw [Za.die?_modDie_same _ _ fun d => (hg d).1, h4, h3, Za.die?_modDie_same, h2, Za.withNewDie_die? p h1]
    · rfl
    · exact fun _ => rfl
  obtain ⟨d, hd, hapart⟩ := hjoin.die? hdie
  have hfrost6 : z7.frost.state ≠ 1 := by
    rw [h6]
    change z6.frost.state ≠ 1
    rw [hjoin.2, h4, h3, h2]
    change z1.frost.state ≠ 1
    rw [h1f]
    exact hfrost
  refine ⟨z7, d, body, ?_, hbody, ?_, ?_⟩
  · rw [← h7, ← hres]
    refine if_neg fun hx => hfrost6 ?_
    have hstate := hx.2.1
    rw [h7] at hstate
    exact hstate
  · rw [h6]
    exact hd
  · refine DieEntry.Admitted.of_apart ?_ hapart
    obtain ⟨-, hadm, hfence, hlink, hsync, htag⟩ := hg { DieEntry.fresh die p with
      link := p, tag, vercap, version, timeSync := version != 0, ends := { (DieEntry.fresh die p).ends with
        lseqRx := (DieEntry.fresh die p).ends.lseqRx.set 0 (f.lseq + 1) } }
    exact ⟨hadm, hlink, hsync.trans hversion, htag, hfence⟩

end Sys2Proof.Machine
end

section
/-!
PROOFS. Each link message at the ZA40, and the loss of a link.
-/
namespace Sys2Proof.Machine

/-! ### Dies that go down, links that start again (R340). -/

/-- The entry of a die that is down. -/
def DieEntry.Down (d : DieEntry) : Prop := d.admitted = false ∧ d.timeSync = false ∧ d.ends = .initial 4

theorem Za.dieDown_dies {z : Za} {die : Nat} {d : DieEntry} (hd : z.die? die = some d) :
    ∃ g : DieEntry → DieEntry, (z.dieDown die).dies = modWhere z.dies (fun d => d.die == die) g ∧
      ∀ d, (g d).die = d.die ∧ (g d).link = d.link ∧ (g d).Down := by
  unfold Za.dieDown
  rw [hd]
  refine ⟨fun x => { x with
      admitted := false, timeSync := false, version := 0, ends := .initial 4, echo := { count := 0, sum := 0, mean := x.echo.mean } },
    ?_, fun _ => ⟨rfl, rfl, rfl, rfl, rfl⟩⟩
  dsimp only
  split
  · rfl
  · rfl

theorem Za.dieDown_die? {z : Za} {die : Nat} {d : DieEntry} (hd : z.die? die = some d) :
    ∃ d', (z.dieDown die).die? die = some d' ∧ d'.Down := by
  obtain ⟨g, hdies, hg⟩ := Za.dieDown_dies hd
  refine ⟨g d, ?_, (hg d).2.2⟩
  have hmod := Za.die?_modDie_same z die (g := g) fun d => (hg d).1
  rw [hd] at hmod
  unfold Za.die? at hmod ⊢
  rw [hdies]
  exact hmod

/-- Taking down the dies of a list of IDs leaves no die of a link admitted, when the admitted ones of that link are in the list. -/
theorem Za.foldl_dieDown_admitted (ids : List Nat) (z : Za) {p : Nat}
    (hz : ∀ d ∈ z.dies, d.link = p → d.die ∈ ids ∨ d.admitted = false) :
    ∀ d ∈ (ids.foldl Za.dieDown z).dies, d.link = p → d.admitted = false := by
  induction ids generalizing z with
  | nil => exact fun d hd hl => (hz d hd hl).resolve_left List.not_mem_nil
  | cons die ids ih =>
    refine ih _ fun d hd hl => ?_
    cases hdie : z.die? die with
    | none =>
      have hsame : z.dieDown die = z := by
        unfold Za.dieDown
        rw [hdie]
      rw [hsame] at hd
      rcases hz d hd hl with hmem | hdown
      · rcases List.mem_cons.1 hmem with heq | hmem
        · exact absurd (beq_iff_eq.2 heq) (List.find?_eq_none.1 hdie d hd)
        · exact Or.inl hmem
      · exact Or.inr hdown
    | some e =>
      obtain ⟨g, hdies, hg⟩ := Za.dieDown_dies hdie
      rw [hdies] at hd
      obtain ⟨y, hy, rfl⟩ := List.mem_map.1 hd
      by_cases hyd : (y.die == die) = true
      · rw [if_pos hyd]
        exact Or.inr (hg y).2.2.1
      · rw [if_neg hyd] at hl ⊢
        rcases hz y hy hl with hmem | hdown
        · rcases List.mem_cons.1 hmem with heq | hmem
          · exact absurd (beq_iff_eq.2 heq) hyd
          · exact Or.inl hmem
        · exact Or.inr hdown

theorem Za.foldl_endTest_dies (ts : List LinkTest) (z : Za) : (ts.foldl Za.endTest z).dies = z.dies :=
  List.foldlRecOn (motive := fun x : Za => x.dies = z.dies) ts Za.endTest rfl fun x hx t _ =>
    ((Za.finish_reports _ _ _).dies).trans hx

/-- A link that starts again takes its dies down. -/
theorem Za.linkRestart_admitted (z : Za) (p : Nat) : ∀ d ∈ (z.linkRestart p).dies, d.link = p → d.admitted = false := by
  have hdown := Za.foldl_dieDown_admitted ((z.dies.filter (fun d => d.link == p)).map (·.die)) z (p := p) fun d hd hl =>
    Or.inl (List.mem_map_of_mem (f := fun d : DieEntry => d.die) (List.mem_filter.2 ⟨hd, decide_eq_true hl⟩))
  unfold Za.linkRestart
  extract_lets z1 frost z2 z3 z4 loop
  have hdies : z4.dies = z1.dies := by
    refine (Za.foldl_endTest_dies _ z3).trans ?_
    change (if z1.frost.windowEnd.isSome = true then _ else z1 : Za).dies = z1.dies
    split
    · rfl
    · rfl
  change ∀ d ∈ z4.dies, _
  rw [hdies]
  exact hdown

theorem Za.linkRestart_state (z : Za) (p : Nat) : z.face p ≠ 1 → ((z.linkRestart p).link p).state ≠ 3 := by
  intro hface
  have hkeep : (z.linkRestart p).face p = z.face p := (z.linkRestart_restarts p).field (fun y => y.face p) fun _ => rfl
  unfold Za.linkRestart at hkeep ⊢
  extract_lets z1 frost z2 z3 z4 loop
  have hface4 : z4.face p ≠ 1 := fun h4 => hface (hkeep.symm.trans h4)
  rw [Za.link_modLink_same]
  dsimp only
  split
  · decide
  · split
    · decide
    · decide

/-! ### HELLO and CREDIT of a peer (R342, R339). -/

/-- What decides whether a link is up changes its state alone. -/
theorem Za.linkProgress_eq (z : Za) (p : Nat) :
    ∃ g, z.linkProgress p = z.modLink p g ∧ ∀ l, ∃ state, g l = { l with state } := by
  refine ⟨_, rfl, fun l => ?_⟩
  split
  · exact ⟨_, rfl⟩
  · split
    · exact ⟨_, rfl⟩
    · split
      · exact ⟨_, rfl⟩
      · exact ⟨_, rfl⟩

theorem Za.linkProgress_link (z : Za) (p : Nat) : ∃ state, (z.linkProgress p).link p = { z.link p with state } := by
  obtain ⟨g, h, hg⟩ := z.linkProgress_eq p
  rw [h, Za.link_modLink_same]
  exact hg _

theorem Za.linkProgress_reports (z : Za) (p : Nat) : z.Reports (z.linkProgress p) := rfl

theorem Za.die?_of_fromDie {z : Za} {p die : Nat} {f : Frame} (h : z.fromDie p f = some die) : ∃ d, z.die? die = some d := by
  unfold Za.fromDie at h
  split at h
  · obtain ⟨-, hany⟩ := Option.filter_eq_some_iff.1 h
    cases hd : z.die? die with
    | none =>
      rw [hd] at hany
      exact Bool.noConfusion hany
    | some d => exact ⟨d, rfl⟩
  · exact absurd h (Option.some_ne_none die).symm

theorem Za.dieDown_queues {z : Za} {die : Nat} {d : DieEntry} (hd : z.die? die = some d) :
    (∀ x ∈ (z.dieDown die).cmds.queued, x.die ≠ die) ∧ ∀ q ∈ ((z.dieDown die).link d.link).queue, q.die ≠ some die := by
  have hlinks : (z.dieDown die).links =
      (z.modLink d.link (fun l => { l with queue := l.queue.filter (fun q => q.die != some die) })).links := by
    unfold Za.dieDown
    rw [hd]
    dsimp only
    split
    · rfl
    · rfl
  have hqueued : ∃ l : List QueuedLong, (z.dieDown die).cmds.queued = l.filter (fun q => q.die != die) := by
    unfold Za.dieDown
    rw [hd]
    exact ⟨_, rfl⟩
  obtain ⟨l, hl⟩ := hqueued
  refine ⟨fun x hx => ?_, fun q hq => ?_⟩
  · rw [hl] at hx
    exact bne_iff_ne.1 (List.mem_filter.1 hx).2
  · rw [Za.link, hlinks, ← Za.link, Za.link_modLink_same] at hq
    exact bne_iff_ne.1 (List.mem_filter.1 hq).2

/-- A parent on a link that is lost is the parent no more. -/
def Za.withoutParent (z : Za) (p : Nat) : Za :=
  if z.ptp.parent = some p then { z with ptp := { z.ptp with parent := none } } else z

theorem Za.withoutParent_parent (z : Za) (p : Nat) : (z.withoutParent p).ptp.parent ≠ some p := by
  unfold Za.withoutParent
  split
  · exact (Option.some_ne_none p).symm
  next h => exact h

theorem Za.withoutParent_keeps (z : Za) (p : Nat) :
    (z.withoutParent p).links = z.links ∧ (z.withoutParent p).dies = z.dies ∧ (z.withoutParent p).ctxs = z.ctxs ∧
      (z.withoutParent p).regs = z.regs := by
  unfold Za.withoutParent
  split
  · exact ⟨rfl, rfl, rfl, rfl⟩
  · exact ⟨rfl, rfl, rfl, rfl⟩

/-- The grants of a link to the COLLECTOR leave in one CREDIT, after which none is due. -/
theorem Za.creditSend_peer {z : Za} {p : Nat} (hface : z.face p = 3) :
    ∃ (y : Za) (body : List W), z.creditSend p none = y.enqueue p none (mkTx clsLink 0x03 z.collectorMac 0xFFFF 0 40 body) ∧
      (∃ pools, y.link p = { z.link p with ends := { (z.link p).ends with pools, creditDue := false } }) ∧ y.ctxs = z.ctxs ∧ y.dies = z.dies := by
  generalize hres : z.creditSend p none = res
  unfold Za.creditSend at hres
  extract_lets e v pools grants extra counts held hold body y1 y2 at hres
  refine ⟨y2, body, ?_, ⟨pools, ?_⟩, ?_⟩
  · have hmac : y2.peerMac p = z.collectorMac := (if_pos hface).trans rfl
    rw [← hres]
    change y2.enqueue p none (mkTx clsLink 0x03 (y2.peerMac p) 0xFFFF 0 40 body) = _
    rw [hmac]
  · exact Za.link_modLink_same z p (fun l => { l with ends := { l.ends with pools, creditDue := false } })
  · exact ⟨rfl, rfl⟩

/-- What CREDIT of a peer leaves: its pools filled, and the link one that has had credit. -/
def Za.credited (z : Za) (p : Nat) (pools : List Pool) : Za :=
  ((z.modEnd p none (fun x => { x with pools })).modLink p (fun l => { l with credited := true })).linkProgress p

theorem Za.count_fold_eq {α : Type} (f : Za → α → Za) (hf : ∀ z a, ∃ counters, f z a = { z with counters }) (l : List α) (z : Za) :
    ∃ counters, l.foldl f z = { z with counters } :=
  List.foldlRecOn (motive := fun x : Za => ∃ counters, x = { z with counters }) l f ⟨z.counters, rfl⟩
    fun x ⟨counters, hx⟩ a _ => by
      obtain ⟨c, h⟩ := hf x a
      exact ⟨c, by rw [h, hx]⟩

/-- The pools of a link after a CREDIT: those that the counts of its body fill. -/
theorem Za.credit_peer {z : Za} {p : Nat} {f : Frame} (ht : z.takes p f) (hlen : f.plen.toNat = 40) (hface : z.face p ≠ 1) :
    ∃ counters pools, z.credit p f = Za.credited { z.taken p f with counters } p pools ∧
      ∀ c, c < 8 → ∃ q, pools[c]? = some q ∧
        q.returned = ((((z.taken p f).link p).ends.pools.getD c .initial).take (word f.body (1 + c))).1.returned := by
  generalize hres : z.credit p f = res
  unfold Za.credit at hres
  extract_lets q die y e n r beyond mayHold hold now pools y1 y2 y3 at hres
  have hdie : die = none := Za.fromDie_of_face hface
  have hn : n = 8 := by
    change (if die.isSome = true then 4 else 8) = 8
    rw [hdie]
    rfl
  obtain ⟨c1, h1⟩ : ∃ counters, y1 = { y with counters } := Za.count_fold_eq _ (fun x c => by
    dsimp only
    split
    · exact ⟨_, rfl⟩
    · exact ⟨_, rfl⟩) _ _
  obtain ⟨c2, h2⟩ : ∃ counters, y2 = { y1 with counters } := Za.count_fold_eq _ (fun x c => ⟨_, rfl⟩) _ _
  refine ⟨c2, pools, ?_, fun c hc => ?_⟩
  · rw [← hres, if_neg (by rw [show q.2 = true from ht, hlen]; decide), if_neg (by rw [hdie, beq_eq_false_iff_ne.2 hface]; decide),
      if_neg (by rw [hdie]; decide)]
    change ((y2.modEnd p die _).modLink p _).linkProgress p = _
    rw [hdie, h2, h1]
    rfl
  · have he : e = ((z.taken p f).link p).ends := by
      change (z.taken p f).endOf p die = _
      rw [hdie]
      rfl
    have hr : r[c]? = some ((e.pools.getD c .initial).take (word f.body (1 + c))) := by
      rw [List.getElem?_map, List.getElem?_range (by omega)]
      rfl
    have hzip : ((List.range n).zip (r.map Prod.fst))[c]? = some (c, ((e.pools.getD c .initial).take (word f.body (1 + c))).1) :=
      List.getElem?_zip_eq_some.2 ⟨List.getElem?_range (by omega), (List.getElem?_map ..).trans (congrArg (Option.map Prod.fst) hr)⟩
    rw [← he]
    clear_value e r
    change ∃ q, (List.map _ _)[c]? = some q ∧ _
    rw [List.getElem?_map, hzip, Option.map_some]
    exact ⟨_, rfl, rfl⟩

theorem Za.raise_queues (z : Za) (kind : FaultKind) (unitKind : UnitKind) (unit : Nat) (op : FaultOp) (subject detail : Nat)
    (ext : List W := []) : z.Queues (z.raise kind unitKind unit op subject detail ext) :=
  Za.raiseMsg_queues _ _ _

/-! ### The obligation. -/

/-- A row of the ZA40 that is one function of it. -/
theorem ZaBecomes.of_row {c : Instr} {s : State} {g : Za → Za} {z : Za} (hrow : exec c s = .next (s.onZa g)) (hz : g s.za = z) :
    ZaBecomes c s z := by
  rw [← hz]
  exact hrow

/-- Settles O46: each message is taken, and its own rule then changes its pair. -/
theorem zaLinkMessagesTakeEffect : Obligations.ZaLinkMessagesTakeEffect := by
  unfold Obligations.ZaLinkMessagesTakeEffect
  refine ⟨?hello, ?helloPeer, ?credit, ?creditSend, ?echo, ?echoReply, ?linkReset, ?dieDown, ?linkLost⟩
  case hello =>
    rintro s p f die ht hlen hface hsrc hnew hreason hfrost
    obtain ⟨x, d, body, hx, ⟨hadm, hbody⟩, hd, h1, h2, h3, h4, h5⟩ := Za.helloDie_new hsrc hnew hreason
      (by rw [Za.taken_frost_state ht]; exact hfrost)
    have hrow : s.za.hello p.val f = (s.za.taken p.val f).helloDie p.val f := by
      unfold Za.hello
      dsimp only
      rw [if_neg (by simp [Za.foreignHello, hface]), if_neg (by rw [show (s.za.receive p.val f).2 = true from ht, hlen]; decide),
        if_pos hface]
      rfl
    refine ⟨s.za.hello p.val f, d, rfl, ?_, h1, h2, h3, h4, h5, ?_, (Za.hello_maps _ _ _).2, (Za.hello_maps _ _ _).1⟩
    · rw [hrow, hx]
      exact hd
    · rw [hrow, hx]
      refine ⟨⟨mkTx clsLink 0x02 (dtuMac die) 0xFFFF 0 32 body, x.nowNs, some die⟩, ?_, rfl, rfl, rfl, rfl, hadm, hbody⟩
      rw [Za.enqueue_queue]
      exact List.mem_append_right _ (List.mem_singleton_self _)
  case helloPeer =>
    rintro s p f v ht hlen hface hv hv0
    have hrow : s.za.hello p.val f = (s.za.taken p.val f).helloPeer p.val f := by
      unfold Za.hello
      dsimp only
      split
      · rfl
      · rw [if_neg (by rw [show (s.za.receive p.val f).2 = true from ht, hlen]; decide)] <;> rfl
    refine ⟨s.za.hello p.val f, rfl, ?_⟩
    obtain ⟨hctxs, hregs, -⟩ := Za.taken_keeps_books ht
    rw [hrow]
    unfold Za.helloPeer
    dsimp only
    rw [hv]
    dsimp only
    generalize hy : ((s.za.taken p.val f).modLink p.val _).modLink p.val _ = y
    obtain ⟨state, hlink⟩ := y.linkProgress_link p.val
    rw [hlink, (y.linkProgress_reports p.val).ctxs, (y.linkProgress_reports p.val).regs, ← hy, Za.link_modLink_same,
      Za.link_modLink_same]
    exact ⟨rfl, rfl, rfl, rfl, hctxs, hregs⟩
  case credit =>
    rintro s p f ht hlen hface
    obtain ⟨counters, pools, hrow, hpools⟩ := Za.credit_peer ht hlen hface
    refine ⟨s.za.credit p.val f, rfl, ?_⟩
    obtain ⟨hctxs, -⟩ := Za.taken_keeps_books ht
    rw [hrow]
    unfold Za.credited
    generalize hy : Za.modLink (Za.modEnd _ _ _ _) _ _ = y
    obtain ⟨state, hlink⟩ := y.linkProgress_link p.val
    rw [hlink, (y.linkProgress_reports p.val).ctxs, (y.linkProgress_reports p.val).dies, ← hy, Za.link_modLink_same, Za.modEnd_none,
      Za.link_modLink_same]
    exact ⟨rfl, hpools, hctxs, Za.taken_dies ht (Za.fromDie_of_face hface)⟩
  case creditSend =>
    rintro s p die hon hface hst hinj
    have hrow : s.za.creditSendRow p.val die.toNat = s.za.creditSend p.val none := by
      unfold Za.creditSendRow
      rw [hon, hface, beq_eq_false_iff_ne.2 hst]
      rfl
    obtain ⟨y, body, hsend, ⟨pools, hlink⟩, hctxs, hdies⟩ := Za.creditSend_peer hface
    refine ⟨s.za.creditSendRow p.val die.toNat, ⟨mkTx clsLink 0x03 s.za.collectorMac 0xFFFF 0 40 body, y.nowNs, none⟩, rfl, ?_⟩
    rw [hrow, hsend, Za.enqueue_queue, (y.enqueue_reports _ _ _).ctxs, (y.enqueue_reports _ _ _).dies, hctxs, hdies]
    refine ⟨by rw [hlink], rfl, rfl, rfl, ?_, rfl, rfl⟩
    rw [Za.enqueue, Za.link_modLink_same, hlink]
  case echo =>
    rintro s p f r ht hlen
    exact .of_row (g := fun z => z.echo p.val f r) rfl (if_pos ⟨ht, hlen⟩)
  case echoReply =>
    rintro s p f e q ht hlen hst hdie rfl hany hid hrtt
    refine ⟨_, .of_row (g := fun z => if (z.link p.val).state = 6 then z.echoLooped p.val f e else z.echoReply p.val f e) rfl
      (if_neg hst), ?_⟩
    obtain ⟨hctxs, -⟩ := Za.taken_keeps_books ht
    have hfrom : s.za.echoReply p.val f e = (s.za.taken p.val f).modEnd p.val none (fun x => { x with
        echoes := x.echoes.filter (fun y => y.1 != word f.body 0),
        rtt := (((s.za.taken p.val f).link p.val).ends.rtt ++ [e.toNat - (word f.body 1).toNat]).drop
          ((((s.za.taken p.val f).link p.val).ends.rtt ++ [e.toNat - (word f.body 1).toNat]).length - 64) }) := by
      unfold Za.echoReply
      have hnone : (s.za.receive p.val f).1.fromDie p.val f = none := hdie
      dsimp only
      rw [hnone]
      rw [if_pos ⟨ht, hlen, hany⟩, if_neg (Nat.not_le.2 hid)]
      rfl
    rw [hfrom, Za.modEnd_none, Za.link_modLink_same]
    refine ⟨?_, rfl, hctxs⟩
    change List.drop _ _ = _
    rw [List.length_append, List.length_singleton, Nat.sub_eq_zero_of_le (by omega), List.drop_zero]
  case linkReset =>
    rintro s p f die ht hlen hzero hdie
    obtain ⟨d, hd⟩ := Za.die?_of_fromDie hdie
    have hrow : s.za.linkResetFrame p.val f =
        ((s.za.taken p.val f).count (.link .linkResets p.val (wf f.body 0 7 0))).dieDown die := by
      unfold Za.linkResetFrame
      dsimp only
      rw [if_pos ⟨ht, hlen, hzero⟩]
      change (match (s.za.taken p.val f).fromDie p.val f with | some d => _ | none => _) = _
      rw [hdie]
      rfl
    obtain ⟨d', hd', hadm, -, hends⟩ := Za.dieDown_die? (z := (s.za.taken p.val f).count (.link .linkResets p.val (wf f.body 0 7 0))) hd
    have hkeep := Za.dieDown_restarts ((s.za.taken p.val f).count (.link .linkResets p.val (wf f.body 0 7 0))) die
    obtain ⟨hctxs, hregs, -⟩ := Za.taken_keeps_books ht
    exact ⟨_, d', .of_row (g := fun z => z.linkResetFrame p.val f) rfl hrow, hd', hadm, hends, hkeep.ctxs.trans hctxs,
      hkeep.regs.trans hregs⟩
  case dieDown =>
    rintro s die d hd
    obtain ⟨d', hd', hadm, hsync, hends⟩ := Za.dieDown_die? hd
    have hkeep := s.za.dieDown_restarts die.toNat
    obtain ⟨hqueued, hqueue⟩ := Za.dieDown_queues hd
    exact ⟨s.za.dieDown die.toNat, d', rfl, hd', hadm, hsync, hends, hqueued, hqueue, hkeep.ctxs, hkeep.regs⟩
  case linkLost =>
    rintro s p hup
    have hrow : s.za.linkLost p.val = ((s.za.linkRestart p.val).withoutParent p.val).raise .linkLost .link p.val .none 0 0 := by
      unfold Za.linkLost
      rw [if_neg (by rw [hup]; decide)]
      rfl
    have hparent := (s.za.linkRestart p.val).withoutParent_parent p.val
    have hrestart := s.za.linkRestart_restarts p.val
    have hstate := s.za.linkRestart_state p.val
    have hadm := s.za.linkRestart_admitted p.val
    obtain ⟨hlinks, hdies, hctxs, hregs⟩ := (s.za.linkRestart p.val).withoutParent_keeps p.val
    refine ⟨_, .of_row (g := fun z => z.linkLost p.val) rfl hrow, ?_⟩
    generalize (s.za.linkRestart p.val).withoutParent p.val = x at hparent hlinks hdies hctxs hregs
    have hreports := x.raise_reports .linkLost .link p.val .none 0 0 []
    refine ⟨fun hface => ?_, ?_, ?_, hreports.ctxs.trans (hctxs.trans hrestart.ctxs), hreports.regs.trans (hregs.trans hrestart.regs)⟩
    · rw [(x.raise_queues .linkLost .link p.val .none 0 0).state, Za.link, hlinks]
      exact hstate hface
    · rw [hreports.dies, hdies]
      exact hadm
    · rw [hreports.field (fun y => y.ptp) fun _ => rfl]
      exact hparent

end Sys2Proof.Machine
end

section
/-!
PROOFS. Network time in the ZA40.
-/
namespace Sys2Proof.Machine

/-! ### PTP ports (R155 to R162). -/

@[simp] theorem Za.ptpPort_modPtp_same (z : Za) (p : Nat) (g : PtpPort → PtpPort) : (z.modPtp p g).ptpPort p = g (z.ptpPort p) :=
  aGetD_aPut_same _ _ _ _

/-- A PTP message that is queued changes the link's shapers and the port's queue. -/
theorem Za.ptpSend_eq (z : Za) (p : Nat) (m : PtpOut) :
    ∃ links, z.ptpSend p m = { z with links }.modPtp p (fun q => { q with out := q.out ++ [(z.nowNs, m)] }) := by
  unfold Za.ptpSend
  dsimp only
  split
  · exact ⟨_, rfl⟩
  · exact ⟨_, rfl⟩

theorem Za.ptpSend_port (z : Za) (p : Nat) (m : PtpOut) :
    (z.ptpSend p m).ptpPort p = { z.ptpPort p with out := (z.ptpPort p).out ++ [(z.nowNs, m)] } := by
  obtain ⟨links, h⟩ := z.ptpSend_eq p m
  rw [h, Za.ptpPort_modPtp_same]
  rfl

theorem Za.ptpSend_keeps (z : Za) (p : Nat) (m : PtpOut) :
    (z.ptpSend p m).time = z.time ∧ (z.ptpSend p m).ctxs = z.ctxs := by
  obtain ⟨links, h⟩ := z.ptpSend_eq p m
  rw [h]
  exact ⟨rfl, rfl⟩

/-- Deciding the ports of the best master changes the states of ports, and the parent when it is gone. -/
theorem Za.runBmc_eq (z : Za) : ∃ ptp, z.runBmc = { z with ptp } ∧
    (∀ p, ∃ state, aGetD ptp.ports p .initial = { z.ptpPort p with state }) ∧
    (∀ p, (z.ptpPort p).best = none → ptp.parent ≠ some p) := by
  have hfold (l : List Nat) (g : Za → Nat → Nat) : ∃ ports,
      l.foldl (fun z p => z.modPtp p (fun q => { q with state := g z p })) z = { z with ptp := { z.ptp with ports } } ∧
        ∀ p, ∃ state, aGetD ports p .initial = { z.ptpPort p with state } :=
    List.foldlRecOn (motive := fun x : Za => ∃ ports, x = { z with ptp := { z.ptp with ports } } ∧
        ∀ p, ∃ state, aGetD ports p .initial = { z.ptpPort p with state }) l _ ⟨z.ptp.ports, rfl, fun p => ⟨_, rfl⟩⟩
      fun x ⟨ports, hx, hports⟩ k _ => by
        refine ⟨_, by rw [hx]; rfl, fun p => ?_⟩
        by_cases hp : p = k
        · obtain ⟨state, h⟩ := hports k
          rw [hp, aGetD_aPut_same]
          refine ⟨g x k, ?_⟩
          rw [Za.ptpPort, hx, h]
        · rw [aGetD_aPut_other _ _ _ _ _ hp]
          exact hports p
  unfold Za.runBmc
  extract_lets best y
  obtain ⟨ports, hy, hports⟩ : ∃ ports, y = { z with ptp := { z.ptp with ports } } ∧
      ∀ p, ∃ state, aGetD ports p .initial = { z.ptpPort p with state } := hfold _ (fun z p => z.decide_ best p)
  have hbest (p : Nat) (h : (z.ptpPort p).best = none) : (y.ptpPort p).best = none := by
    obtain ⟨state, hp⟩ := hports p
    rw [Za.ptpPort, hy, hp]
    exact h
  clear_value y
  subst hy
  split
  next p hparent =>
    split
    next => exact ⟨_, rfl, hports, fun _ _ => (Option.some_ne_none _).symm⟩
    next hstay =>
      refine ⟨_, rfl, hports, fun k hk he => hstay ?_⟩
      rw [Option.some.inj (hparent.symm.trans he), hbest k hk]
      rfl
  next hparent => exact ⟨_, rfl, hports, fun k _ he => Option.some_ne_none k (he.symm.trans hparent)⟩

section
variable {z : Za} {p : Nat} {dom : Byte} (hruns : z.ptpRuns p = true) (hdom : dom.toNat = z.ptpDomain)
include hruns hdom

/-- A message of the profile's domain, at a port that runs PTP, is not passed over. -/
theorem Za.ptpHears : ¬ (!z.ptpRuns p || dom.toNat != z.ptpDomain) = true := by
  rw [hruns, hdom]
  simp

theorem Za.ptpMessage_sync (free : Nat) (src : BitVec 64) (seq : BitVec 16) (origin ingress : Stamp) :
    z.ptpMessage free p dom src (.sync seq true origin ingress) = z.modPtp p (fun q => { q with sync := some (seq, ingress) }) :=
  if_neg (Za.ptpHears hruns hdom)

theorem Za.ptpMessage_followUp (free : Nat) (src : BitVec 64) {seq : BitVec 16} (origin : Stamp) {ingress : Stamp}
    (hsync : (z.ptpPort p).sync = some (seq, ingress)) :
    z.ptpMessage free p dom src (.followUp seq origin) = z.syncDone free p src origin ingress := by
  unfold Za.ptpMessage
  rw [if_neg (Za.ptpHears hruns hdom)]
  dsimp only
  rw [hsync]
  exact if_pos rfl

theorem Za.ptpMessage_announce (free : Nat) (src : BitVec 64) (a : AnnounceData) :
    ∃ time, z.ptpMessage free p dom src (.announce a) =
      { z.modPtp p (fun q => { q with best := some a }) with time }.runBmc := by
  unfold Za.ptpMessage
  rw [if_neg (Za.ptpHears hruns hdom)]
  dsimp only
  split
  · exact ⟨_, rfl⟩
  · exact ⟨_, rfl⟩

theorem Za.ptpMessage_delayReq (free : Nat) (src : BitVec 64) (seq : BitVec 16) (ingress : Stamp)
    (hst : (z.ptpPort p).state = 2) :
    z.ptpMessage free p dom src (.delayReq seq ingress) =
      (z.modPtp p (fun q => { q with served := some (seq, (z.ingress p ingress).toNat) })).ptpSend p
        (.delayResp seq src (z.ingress p ingress).toNat) := by
  unfold Za.ptpMessage
  rw [if_neg (Za.ptpHears hruns hdom)]
  exact if_pos hst

end

theorem Za.transmitNext_ptp {z : Za} {p at_ : Nat} {m : PtpOut} {r : List (Nat × PtpOut)} (hout : (z.ptpPort p).out = (at_, m) :: r)
    (hmay : z.ptpMay p m = true) (hfirst : z.ptpFirst p at_ = true) : z.transmitNext p = z.ptpLeave p m := by
  unfold Za.transmitNext
  rw [hout]
  dsimp only
  rw [hmay, hfirst]
  rfl

/-! ### What the events of a time unit change. -/

/-- An event that is no step is told, and changes neither time nor ports nor contexts. -/
theorem Za.timeEvents_keeps (z : Za) {l : List TimeEvent} (hl : ∀ q, TimeEvent.step q ∉ l) :
    (z.timeEvents l).time = z.time ∧ (z.timeEvents l).ptp = z.ptp ∧ (z.timeEvents l).ctxs = z.ctxs := by
  induction l generalizing z with
  | nil => exact ⟨rfl, rfl, rfl⟩
  | cons e l ih =>
    have hrest : ∀ q, TimeEvent.step q ∉ l := fun q hq => hl q (List.mem_cons_of_mem _ hq)
    cases e with
    | jump off =>
      obtain ⟨h1, h2, h3⟩ := ih (z.raise .timeJump .timeUnit (z.ptp.parent.getD 0xFF) .timeSample 0
        (toTwos 32 (clampInt (-(2 ^ 31 - 1)) (2 ^ 31 - 1) (Int.tdiv off 65536)))) hrest
      have hr := z.raise_reports .timeJump .timeUnit (z.ptp.parent.getD 0xFF) .timeSample 0
        (toTwos 32 (clampInt (-(2 ^ 31 - 1)) (2 ^ 31 - 1) (Int.tdiv off 65536))) []
      exact ⟨h1.trans hr.time, h2.trans (hr.field (fun y => y.ptp) fun _ => rfl), h3.trans hr.ctxs⟩
    | step q => exact absurd List.mem_cons_self (hl q)
    | holdover => exact ih z hrest
    | lock => exact ih z hrest

theorem TimeUnit.miss_no_step (t : TimeUnit) (n : Nat) (q : Int) : TimeEvent.step q ∉ (t.miss n).2 := by
  rcases t.miss_events n with h | h
  · rw [h]
    exact List.not_mem_nil
  · rw [h]
    simp

theorem TimeUnit.enter_no_step (t : TimeUnit) (st : TimeState) (q : Int) : TimeEvent.step q ∉ (t.enter st).2 := by
  unfold TimeUnit.enter
  dsimp only
  split
  · exact List.not_mem_nil
  · cases st <;> simp

/-- A sample of a clock that is set steps no time. -/
theorem TimeUnit.sample_no_step {t : TimeUnit} (nominal slewMax jumpThr lockThr free : Nat) (far : Bool) (offset : Int)
    (hset : t.isSet = true) (q : Int) : TimeEvent.step q ∉ (t.sample nominal slewMax jumpThr lockThr free far offset).2 := by
  unfold TimeUnit.sample
  extract_lets t1 limit t2 ev m enters t3 first began t4 within run t5
  split
  · have hev : TimeEvent.step q ∉ ev := by
      change TimeEvent.step q ∉ (if t2.jumps = 8 then [TimeEvent.jump offset] else [])
      split <;> simp
    have hm : TimeEvent.step q ∉ m.2 := TimeUnit.miss_no_step _ _ q
    split
    · exact List.not_mem_append (List.not_mem_append hev hm) (TimeUnit.enter_no_step _ _ q)
    · exact List.not_mem_append hev hm
  · rw [if_neg (by rw [show t3.isSet = t.isSet from rfl, hset]; decide)]
    split
    · exact TimeUnit.enter_no_step _ _ q
    · exact List.not_mem_nil

/-! ### Intervals and parents (R158, R163, R164). -/

/-- A step that is applied goes through the time unit, and may mark a Frost. -/
theorem Za.applyStep_eq (z : Za) (a : ArmedStep) :
    ∃ frost, z.applyStep a = { z.withTime (z.time.applyStep z.slewMax zaNominal a) with frost } := by
  unfold Za.applyStep
  extract_lets before y
  split
  · exact ⟨_, rfl⟩
  · exact ⟨_, rfl⟩

/-- Without an injection a sample goes to the time unit as it is. -/
theorem Za.sample_plain {z : Za} (free : Nat) (far : Bool) (offset : Int) (h : z.injections = []) :
    z.sample free far offset = z.withTime (z.time.sample zaNominal z.slewMax z.jumpThr zaLock free far offset) := by
  unfold Za.sample
  rw [h]
  dsimp only [List.find?_nil, Option.map_none, Option.getD_none]
  rw [show offset + ((0 : Nat) : Int) = offset from Int.add_zero _]

theorem Za.intervalEnds_sampled (z : Za) (p : Nat) (h : z.ptp.sampled = true) :
    ∃ sampled, z.intervalEnds p = { z with ptp := { z.ptp with sampled } } := by
  unfold Za.intervalEnds
  split
  · exact ⟨_, rfl⟩
  · exact ⟨_, rfl⟩

/-- A port in the state of a slave asks for the delay at each interval. -/
theorem Za.ptpInterval_asks {z : Za} {p : Nat} (hruns : z.ptpRuns p = true) (hst : ((z.intervalEnds p).ptpPort p).state = 3) :
    z.ptpInterval p = ((z.intervalEnds p).modPtp p (fun x => { x with delaySeq := x.delaySeq + 1 })).ptpSend p
      (.delayReq ((z.intervalEnds p).ptpPort p).delaySeq) := by
  unfold Za.ptpInterval
  rw [if_neg (by rw [hruns]; decide)]
  dsimp only
  rw [hst]
  rfl

/-- The best master of the port named is another than the parent: the change is due. -/
theorem Za.parentDue {z : Za} {p : Nat} {id : BitVec 64} {a : AnnounceData} (hruns : z.ptpRuns p = true)
    (hid : a.identity = id) (hnot : z.ptp.parent ≠ some p) :
    ¬ (!z.ptpRuns p || !(p == p && a.identity == id && !(z.ptp.parent == some p && z.ptp.parentId == id))) = true := by
  rw [hruns, hid]
  simp [hnot]

/-- A best master too far away is refused (R163, R164): the ZA40 has no parent and is not locked, and says so the first time. -/
theorem Za.parentChange_refused {z : Za} {p : Nat} {id : BitVec 64} {off : Int} {a : AnnounceData} (hruns : z.ptpRuns p = true)
    (hbest : z.bestPort = some (p, a)) (hid : a.identity = id) (hnot : z.ptp.parent ≠ some p) (hset : z.time.isSet = true)
    (hoff : z.jumpThr * 65536 + z.time.residual.natAbs / 2 ^ 32 < off.natAbs) :
    ∃ y : Za, (z.parentChange p id off = y ∨ ∃ counters ext, z.parentChange p id off =
        ({ y with time := { y.time with counters } }).raise .timeMaster .timeUnit 0 .none 0 0 ext) ∧
      y.ptp.parent = none ∧ y.ptp.refused = some id ∧ y.time.state ≠ .locked ∧ y.time.ftc = z.time.ftc ∧ y.ctxs = z.ctxs := by
  generalize hres : z.parentChange p id off = res
  unfold Za.parentChange at hres
  rw [hbest] at hres
  extract_lets due limit utc time ptp again old y1 y2 at hres
  have h2 : y2 = if y1.time.state = .locked then y1.withTime (y1.time.enter .holdover) else y1 := rfl
  have h1 : y1.ptp.parent = none ∧ y1.ptp.refused = some id ∧ y1.time.ftc = z.time.ftc ∧ y1.ctxs = z.ctxs := ⟨rfl, rfl, rfl, rfl⟩
  clear_value y2 y1
  rw [if_neg (Za.parentDue hruns hid hnot), if_neg (by
    rw [Bool.or_eq_true, decide_eq_true_eq, hset]
    rintro (hx | hx)
    · exact Bool.noConfusion hx
    · omega)] at hres
  refine ⟨y2, ?_, ?_⟩
  · split at hres
    · exact Or.inl hres.symm
    · exact Or.inr ⟨_, _, hres.symm⟩
  · obtain ⟨hparent, hrefused, hftc, hctxs⟩ := h1
    rw [h2]
    split
    next hl =>
      rw [TimeUnit.enter_holdover (by rw [hl]; decide)]
      exact ⟨hparent, hrefused, TimeState.noConfusion, hftc, hctxs⟩
    next hl => exact ⟨hparent, hrefused, hl, hftc, hctxs⟩

theorem Za.foldl_straySync {z : Za} {die : Nat} (h : ∀ p < 82, (z.link p).strays = []) :
    (List.range 82).foldl (fun z p => if (z.link p).strays.isEmpty then z else z.straySync die p) z = z :=
  List.foldlRecOn (motive := fun x : Za => x = z) (List.range 82) _ rfl fun x hx p hp => by
    rw [hx, h p (List.mem_range.1 hp)]
    rfl

/-! ### Markers (R171). -/

theorem Za.modEnd_dies (z : Za) (p : Nat) (die : Option Nat) (g : Endpoint → Endpoint) :
    ∃ links dies, z.modEnd p die g = { z with links, dies } ∧ (die = none → dies = z.dies) := by
  unfold Za.modEnd
  split
  next d hd => exact ⟨_, _, rfl, fun hn => by rw [hn] at hd; exact absurd hd (Option.some_ne_none d).symm⟩
  next => exact ⟨_, _, rfl, fun _ => rfl⟩

/-- A frame put on the wire changes its link, its pair and injections that are spent. -/
theorem Za.put_eq (z : Za) (p : Nat) (q : Queued) :
    ∃ links dies injections, z.put p q = { z with links, dies, injections } ∧ (q.die = none → dies = z.dies) := by
  generalize hres : z.put p q = res
  unfold Za.put at hres
  extract_lets c e v two ether src t f1 f2 bad lost f3 pool units bytes charge allow y1 y2 y3 at hres
  obtain ⟨links, dies, h1, hdies⟩ : ∃ links dies, y1 = { z with links, dies } ∧ (q.die = none → dies = z.dies) :=
    Za.modEnd_dies z p q.die _
  obtain ⟨links2, h2⟩ : ∃ links, y2 = { y1 with links } := ⟨_, rfl⟩
  have h3 : y3 = (match bad with | some i => y2.spend i | none => y2) := rfl
  clear_value y3 y2 y1
  subst h1 h2 h3 hres
  cases bad with
  | none =>
    cases lost with
    | none => exact ⟨_, _, _, rfl, hdies⟩
    | some i => exact ⟨_, _, _, rfl, hdies⟩
  | some i =>
    cases lost with
    | none => exact ⟨_, _, _, rfl, hdies⟩
    | some i => exact ⟨_, _, _, rfl, hdies⟩

/-- Reaching a time changes the time unit alone, and the time is past. -/
theorem Za.reach_eq (z : Za) (ns : Nat) : ∃ time, z.reach ns = { z with time } ∧ ns ≤ time.ns ∧ z.time.ns ≤ time.ns := by
  obtain ⟨ftc, residual, h, hns, hle⟩ := z.time.reach_eq z.slewMax zaNominal ns
  refine ⟨_, rfl, ?_⟩
  rw [h]
  exact ⟨TimeUnit.le_ns_of_le_ftc hns, Nat.div_le_div_right hle⟩

theorem Za.timeMark_ok {z : Za} {i : Nat} {t : Trigger} (hmark : z.marks[i]? = some t) (hrun : z.running = true)
    (hen : t.enabled = true) (hmay : z.mayReach t.next = true) :
    ∃ y, z.timeMark i = y ∧ y.marks = z.marks.set i t.fire ∧ t.next ≤ y.nowNs ∧ y.ctxs = z.ctxs ∧
      (z.face (2 * fld t.w0 15 8 + (if fld t.w0 7 6 = 2 then 1 else 0)) ≠ 1 → y.dies = z.dies) := by
  generalize hres : z.timeMark i = res
  unfold Za.timeMark at hres
  rw [hmark] at hres
  dsimp -zeta only at hres
  rw [if_neg (by rw [hrun, hen, hmay]; decide)] at hres
  extract_lets y1 fired y2 locked y3 half p cycle opens head peer frame q later at hres
  obtain ⟨time, h1, hns1⟩ : ∃ time, y1 = { z with time } ∧ t.next ≤ time.ns := by
    obtain ⟨time, h, hns, -⟩ := z.reach_eq t.next
    exact ⟨time, h, hns⟩
  obtain ⟨time3, h3, hns3⟩ : ∃ time, y3 = { z with time, marks := z.marks.set i t.fire } ∧ t.next ≤ time.ns := by
    have h2 : y2 = { z with time, marks := z.marks.set i t.fire } := by
      change ({ y1 with marks := y1.marks.set i fired } : Za) = _
      rw [h1]
    have hcases : y3 = y2 ∨ y3 = { y2 with time := y2.time.count .firedUnlocked } := by
      by_cases hl : locked = true
      · exact Or.inl (if_pos hl)
      · exact Or.inr (if_neg hl)
    rcases hcases with h | h
    · exact ⟨time, h.trans h2, hns1⟩
    · refine ⟨time.count .firedUnlocked, h.trans ?_, hns1⟩
      rw [h2]
  obtain ⟨time4, h4, hns4⟩ : ∃ time, later = { y3 with time } ∧ y3.nowNs ≤ time.ns := by
    obtain ⟨time, h, -, hle⟩ := y3.reach_eq opens
    exact ⟨time, h, hle⟩
  have hpeer : y3.face p ≠ 1 → peer.1 = none := fun hf => congrArg Prod.fst (if_neg hf)
  have hface : y3.face p = z.face p := by rw [h3]; rfl
  refine ⟨res, rfl, ?_⟩
  split at hres
  · subst hres
    rw [h3]
    exact ⟨rfl, hns3, rfl, fun _ => rfl⟩
  · split at hres
    · obtain ⟨links, dies, injections, hput, hdies⟩ := later.put_eq p q
      have hnext : t.next ≤ time4.ns := Nat.le_trans (by rw [h3]; exact hns3) hns4
      rw [← hres, hput]
      refine ⟨by rw [h4, h3], by rw [h4]; exact hnext, by rw [h4, h3], fun hf => ?_⟩
      rw [hdies (hpeer (by rw [hface]; exact hf)), h4, h3]
    · subst hres
      rw [h3]
      exact ⟨rfl, hns3, rfl, fun _ => rfl⟩

/-! ### The obligation. -/

theorem ZaDraws.of_ptp (s : State) (p : Fin 82) (dom : Byte) (src : BitVec 64) (m : PtpMsg) :
    ZaDraws (.ptpMessage p ⟨dom, src, m⟩) s (s.za.ptpMessage s.free p.val dom src m) := rfl

/-- Settles O48: each message, interval and instant runs its own rule on the port, the time unit or the marker it names. -/
theorem zaKeepsNetworkTime : Obligations.ZaKeepsNetworkTime := by
  unfold Obligations.ZaKeepsNetworkTime
  refine ⟨?foreign, ?sync, ?followUp, ?stranger, ?announce, ?delayReq, ?timeout, ?asks, ?missed, ?master, ?syncLeaves, ?reqLeaves,
    ?parent, ?jumps, ?holdover, ?step, ?timeSync, ?echo, ?mark⟩
  case foreign =>
    rintro s p dom src m hdom
    exact ⟨_, ZaDraws.of_ptp s p dom src m, if_pos (by rw [bne_iff_ne.2 hdom, Bool.or_true])⟩
  case sync =>
    rintro s p dom src seq origin ingress hruns hdom
    refine ⟨_, .of_ptp s p dom src _, ?_⟩
    rw [Za.ptpMessage_sync hruns hdom]
    exact ⟨by rw [Za.ptpPort_modPtp_same], rfl, rfl⟩
  case followUp =>
    rintro s p dom src seq origin ingress d hruns hdom hsync hparent hid hdelay hinj hset
    refine ⟨_, .of_ptp s p dom src _, ?_⟩
    rw [Za.ptpMessage_followUp hruns hdom _ _ _ hsync]
    have hsample : ∃ y, s.za.syncDone s.free p.val src origin ingress =
        { y with ptp := { y.ptp with sampled := true } } ∧ y = (s.za.modPtp p.val (fun q => { q with
          sync := none, syncStep := some (s.za.ingress p.val ingress - origin) })).withTime
            (s.za.time.sample zaNominal s.za.slewMax s.za.jumpThr zaLock s.free (decide (2 ^ 34 ≤ stampSec origin))
              (s.za.ingress p.val ingress - origin - d)) := by
      refine ⟨_, ?_, rfl⟩
      unfold Za.syncDone
      dsimp only
      rw [if_pos (show (s.za.modPtp p.val _).isParent p.val src = true from by
        rw [Za.isParent]; change (s.za.ptp.parent == some p.val && s.za.ptp.parentId == src) = true; rw [hparent, hid]; simp),
        Za.ptpPort_modPtp_same, Za.sample_plain _ _ _ (show (s.za.modPtp p.val _).injections = [] from hinj)]
      rw [hdelay]
      rfl
    obtain ⟨y, hrow, hy⟩ := hsample
    obtain ⟨htime, hptp, hctxs⟩ := Za.timeEvents_keeps { s.za.modPtp p.val (fun q => { q with
          sync := none, syncStep := some (s.za.ingress p.val ingress - origin) }) with
            time := (s.za.time.sample zaNominal s.za.slewMax s.za.jumpThr zaLock s.free (decide (2 ^ 34 ≤ stampSec origin))
              (s.za.ingress p.val ingress - origin - d)).1 } (TimeUnit.sample_no_step zaNominal s.za.slewMax s.za.jumpThr zaLock
              s.free (decide (2 ^ 34 ≤ stampSec origin)) (s.za.ingress p.val ingress - origin - d) hset)
    have hport : (y.ptpPort p.val).sync = none := by
      rw [Za.ptpPort, hy, Za.withTime, hptp]
      exact (congrArg PtpPort.sync (aGetD_aPut_same s.za.ptp.ports p.val _ .initial)).trans rfl
    rw [hrow]
    refine ⟨?_, hport, rfl, ?_⟩
    · rw [hy]
      exact htime
    · rw [hy]
      exact hctxs
  case stranger =>
    rintro s p dom src seq origin ingress hruns hdom hsync hno
    refine ⟨_, .of_ptp s p dom src _, ?_⟩
    rw [Za.ptpMessage_followUp hruns hdom _ _ _ hsync]
    have hno' : ∀ f, (s.za.modPtp p.val f).isParent p.val src = false := fun _ => hno
    unfold Za.syncDone
    dsimp only
    rw [if_neg (by rw [hno']; exact Bool.false_ne_true)]
    exact ⟨rfl, rfl⟩
  case announce =>
    rintro s p dom src a hruns hdom
    refine ⟨_, .of_ptp s p dom src _, ?_⟩
    obtain ⟨time, hrow⟩ := Za.ptpMessage_announce hruns hdom s.free src a
    obtain ⟨ptp, h, hports, -⟩ := Za.runBmc_eq { s.za.modPtp p.val (fun q => { q with best := some a }) with time }
    obtain ⟨state, hp⟩ := hports p.val
    have hbest : ((s.za.modPtp p.val (fun q => { q with best := some a })).ptpPort p.val).best = some a := by
      rw [Za.ptpPort_modPtp_same]
    rw [hrow, h, Za.ptpPort, hp]
    exact ⟨hbest, rfl, rfl⟩
  case delayReq =>
    rintro s p dom src seq ingress hruns hdom hst
    refine ⟨_, .of_ptp s p dom src _, ?_⟩
    rw [Za.ptpMessage_delayReq hruns hdom _ _ _ _ hst, Za.ptpSend_port, (Za.ptpSend_keeps _ _ _).1, (Za.ptpSend_keeps _ _ _).2, Za.ptpPort_modPtp_same]
    exact ⟨rfl, rfl, rfl⟩
  case timeout =>
    rintro s p hruns
    refine ⟨s.za.announceTimeout p.val, rfl, ?_⟩
    unfold Za.announceTimeout
    rw [if_pos hruns]
    obtain ⟨ptp, h, hports, hgone⟩ := (s.za.modPtp p.val (fun q => { q with best := none })).runBmc_eq
    obtain ⟨state, hp⟩ := hports p.val
    rw [Za.ptpPort_modPtp_same] at hp
    rw [h]
    refine ⟨?_, hgone p.val (by rw [Za.ptpPort_modPtp_same]), rfl, rfl⟩
    rw [Za.ptpPort, hp]
  case asks =>
    rintro s p hruns hst hsampled
    refine ⟨s.za.ptpInterval p.val, rfl, ?_⟩
    obtain ⟨sampled, hends⟩ := s.za.intervalEnds_sampled p.val hsampled
    have hst' : ((s.za.intervalEnds p.val).ptpPort p.val).state = 3 := by rw [hends]; exact hst
    rw [Za.ptpInterval_asks hruns hst', Za.ptpSend_port, Za.ptpPort_modPtp_same, (Za.ptpSend_keeps _ _ _).1, hends]
    exact ⟨rfl, rfl, rfl⟩
  case missed =>
    rintro s p hruns hst hparent hsampled hacq
    refine ⟨s.za.ptpInterval p.val, rfl, ?_⟩
    have hends : s.za.intervalEnds p.val = { s.za with
        time := ({ s.za.time with run := 0, missed := s.za.time.missed + 1 } : TimeUnit).count .missing 1
        ptp := { s.za.ptp with sampled := false } } := by
      unfold Za.intervalEnds
      rw [if_pos hparent, if_neg (by rw [hsampled]; decide), TimeUnit.miss_unlocked (by rw [hacq]; decide)]
      rfl
    have hst' : ((s.za.intervalEnds p.val).ptpPort p.val).state = 3 := by rw [hends]; exact hst
    rw [Za.ptpInterval_asks hruns hst', (Za.ptpSend_keeps _ _ _).1, (Za.ptpSend_keeps _ _ _).2, hends]
    exact ⟨rfl, rfl, rfl, rfl⟩
  case master =>
    rintro s p hruns hst hparent hseq
    refine ⟨s.za.ptpInterval p.val, rfl, ?_⟩
    have hends : s.za.intervalEnds p.val = s.za := if_neg hparent
    have hrow : s.za.ptpInterval p.val = (s.za.modPtp p.val (fun x => { x with syncSeq := x.syncSeq + 1 })).ptpSend p.val
        (.sync (s.za.ptpPort p.val).syncSeq) := by
      unfold Za.ptpInterval
      rw [hends, if_neg (by rw [hruns]; decide)]
      dsimp only
      rw [hst]
      exact congrArg (fun z : Za => z.ptpSend p.val (.sync (s.za.ptpPort p.val).syncSeq)) (if_neg hseq)
    rw [hrow, Za.ptpSend_port, Za.ptpPort_modPtp_same, (Za.ptpSend_keeps _ _ _).1]
    exact ⟨rfl, rfl, rfl⟩
  case syncLeaves =>
    rintro s p at_ seq r hout hmay hfirst
    refine ⟨s.za.transmitNext p.val, rfl, ?_⟩
    rw [Za.transmitNext_ptp hout hmay hfirst]
    unfold Za.ptpLeave
    dsimp only
    rw [Za.ptpSend_port, (Za.ptpSend_keeps _ _ _).1, (Za.ptpSend_keeps _ _ _).2, Za.ptpPort_modPtp_same]
    refine ⟨rfl, ?_, rfl, rfl⟩
    change ((s.za.ptpPort p.val).out.drop 1) ++ _ = _
    rw [hout]
    rfl
  case reqLeaves =>
    rintro s p at_ seq r hout hmay hfirst
    refine ⟨s.za.transmitNext p.val, rfl, ?_⟩
    rw [Za.transmitNext_ptp hout hmay hfirst]
    unfold Za.ptpLeave
    dsimp only
    rw [Za.ptpPort_modPtp_same, Za.ptpPort_modPtp_same]
    refine ⟨rfl, ?_, rfl, rfl, rfl⟩
    change (s.za.ptpPort p.val).out.drop 1 = r
    rw [hout]
    rfl
  case parent =>
    rintro s p id off a hruns hbest hid hnot hoff
    refine ⟨s.za.parentChange p.val id off, rfl, ?_⟩
    unfold Za.parentChange
    rw [hbest]
    dsimp only
    rw [if_neg (Za.parentDue hruns hid hnot), if_pos]
    · exact ⟨rfl, rfl, rfl, rfl, rfl⟩
    · rw [Bool.or_eq_true, decide_eq_true_eq]
      exact Or.inr (by omega)
  case jumps =>
    rintro s p id off a hruns hbest hid hnot hset hoff
    refine ⟨s.za.parentChange p.val id off, rfl, ?_⟩
    obtain ⟨y, hrow, hparent, hrefused, hstate, hftc, hctxs⟩ := Za.parentChange_refused hruns hbest hid hnot hset hoff
    rcases hrow with hrow | ⟨counters, ext, hrow⟩
    · rw [hrow]
      exact ⟨hparent, hrefused, hstate, hftc, hctxs⟩
    · have hr := Za.raise_reports { y with time := { y.time with counters } } .timeMaster .timeUnit 0 .none 0 0 ext
      have hptp := hr.field (fun y => y.ptp) fun _ => rfl
      rw [hrow, hr.time, hr.ctxs, hptp]
      exact ⟨hparent, hrefused, hstate, hftc, hctxs⟩
  case holdover =>
    rintro s hst hpow
    refine ⟨s.za.holdoverEntry, rfl, ?_⟩
    unfold Za.holdoverEntry
    rw [if_pos hpow, TimeUnit.miss_locked hst (by omega), TimeUnit.enter_holdover (by change s.za.time.state ≠ _; rw [hst]; decide)]
    exact ⟨rfl, rfl, rfl, rfl⟩
  case step =>
    rintro s a hpow htick harmed hframe hneg
    refine ⟨s.za.stepNow, rfl, ?_⟩
    unfold Za.stepNow
    rw [TimeUnit.stepDue_of_armed htick harmed (Nat.le_of_eq hframe)]
    dsimp only
    rw [if_pos hpow]
    obtain ⟨shift, counters, h⟩ := s.za.time.applyStep_eq s.za.slewMax zaNominal a (by omega)
    obtain ⟨frost, happly⟩ := s.za.applyStep_eq a
    rw [happly, h, hframe]
    refine ⟨rfl, ?_, rfl, rfl⟩
    change oneNs * (2 ^ 20 * ((s.za.time.nextFrame : Int) + stepWhole a.s).toNat) = _
    rw [Nat.mul_comm oneNs, Nat.mul_comm (2 ^ 20)]
  case timeSync =>
    rintro s die d hd hrun hsync hup hstrays
    have hrow : s.za.timeSyncSend die.toNat = (s.za.enqueue d.link (some die.toNat) (mkTx clsTime 0x01 (dtuMac die.toNat) 0xFFFF 0 32
        (s.za.timeSyncBody d))).modDie die.toNat (fun x => { x with syncSeq := x.syncSeq + 1 }) := by
      unfold Za.timeSyncSend
      dsimp only
      rw [Za.foldl_straySync hstrays, hd]
      dsimp only
      rw [hrun, hsync, hup, Bool.and_self, Bool.and_self, if_pos rfl, Za.toDie, hd]
      dsimp only
      rw [if_neg fun hx => hx.2.2 rfl]
    have hd' : ((s.za.enqueue d.link (some die.toNat) (mkTx clsTime 0x01 (dtuMac die.toNat) 0xFFFF 0 32
        (s.za.timeSyncBody d))).modDie die.toNat (fun x => { x with syncSeq := x.syncSeq + 1 })).die? die.toNat =
          some { d with syncSeq := d.syncSeq + 1 } :=
      (Za.die?_modDie_same (s.za.enqueue d.link (some die.toNat) (mkTx clsTime 0x01 (dtuMac die.toNat) 0xFFFF 0 32
        (s.za.timeSyncBody d))) die.toNat (g := fun x => { x with syncSeq := x.syncSeq + 1 }) fun _ => rfl).trans
          (congrArg (Option.map _) hd)
    refine ⟨_, _, ⟨mkTx clsTime 0x01 (dtuMac die.toNat) 0xFFFF 0 32 (s.za.timeSyncBody d), s.za.nowNs, some die.toNat⟩,
      .of_row (g := fun z => z.timeSyncSend die.toNat) rfl hrow, hd', rfl, ?_, rfl, rfl, rfl, rfl, rfl, rfl⟩
    exact Za.enqueue_queue _ _ _ _
  case echo =>
    rintro s p f at_ die d ht hdie hkind hlen hd hcount
    have hrow : s.za.timeEcho p.val f at_ = (s.za.taken p.val f).modDie die (fun x => { x with echo := { d.echo with
        count := d.echo.count + 1, sum := d.echo.sum +
          ((at_ : Int) - (stampOf (dword f.body 1) (word f.body 3).toNat (wf f.body 4 31 16) : Nat)) } }) := by
      unfold Za.timeEcho
      dsimp only
      rw [show (s.za.receive p.val f).2 = true from ht, show (s.za.receive p.val f).1.fromDie p.val f = some die from hdie]
      dsimp only
      rw [if_neg (by omega), show (s.za.receive p.val f).1.die? die = some d from hd, Option.map_some, Option.getD_some,
        if_pos (by omega)]
      rfl
    obtain ⟨hctxs, -, -, htime, -⟩ := Za.taken_keeps_books ht
    have hd' : ((s.za.taken p.val f).modDie die (fun x => { x with echo := { d.echo with
        count := d.echo.count + 1, sum := d.echo.sum +
          ((at_ : Int) - (stampOf (dword f.body 1) (word f.body 3).toNat (wf f.body 4 31 16) : Nat)) } })).die? die = _ :=
      Za.die?_modDie_same _ _ fun _ => rfl
    rw [hd] at hd'
    exact ⟨_, _, .of_row (g := fun z => z.timeEcho p.val f at_) rfl hrow, hd', rfl, rfl, rfl, htime, hctxs⟩
  case mark =>
    rintro s i t hmark hrun hen hmay
    obtain ⟨y, hrow, hmarks, hns, hctxs, hdies⟩ := Za.timeMark_ok hmark hrun hen hmay
    rw [← hrow] at hmarks hns hctxs hdies
    exact ⟨s.za.timeMark i.val, rfl, hmarks, hns, hctxs, hdies⟩

end Sys2Proof.Machine
end

section
/-!
PROOFS. What progress on the Pods of a frame changes (chapter 8).
-/
namespace Sys2Proof.Machine

/-! ### Relations kept by a function of the state. -/

/-- `g` gives the same of `x` as of `z`. -/
def Za.Same {α : Type} (g : Za → α) (z x : Za) : Prop := g x = g z

namespace Za.Same
variable {α : Type} {g : Za → α} {a b c z x : Za}

theorem refl (z : Za) : z.Same g z := rfl

theorem trans (h : a.Same g b) (k : b.Same g c) : a.Same g c := Eq.trans k h

theorem ite {p : Prop} [Decidable p] (hx : z.Same g a) (hy : z.Same g b) : z.Same g (if p then a else b) := by
  split
  · exact hx
  · exact hy

theorem foldl {β : Type} {f : Za → β → Za} (hf : ∀ (z : Za) a, z.Same g (f z a)) (l : List β) (z : Za) : z.Same g (l.foldl f z) :=
  List.foldlRecOn (motive := fun x : Za => z.Same g x) l f (refl z) fun x hx a _ => hx.trans (hf x a)

end Za.Same

/-! ### Pods and works. -/

/-- A Pod without what its progress changes: its slot, its results and what has been sent. -/
def Pod.inputs (p : Pod) : Pod :=
  { p with slotted := false, tray := none, own := none, ownHeight := 0, sentUp := false, final := none, finalLate := false, done := false }

/-- A work without the items that came late and the progress of its Pods. -/
def FrameWork.inputs (w : FrameWork) : FrameWork := { w with late := [], judged := [], pods := w.pods.map Pod.inputs }

/-- `p'` is `p` after progress: its inputs stay, and it keeps its slot until it is done. -/
def Pod.Progress (p p' : Pod) : Prop :=
  p'.inputs = p.inputs ∧ (p'.done = true ∨ (p'.slotted = p.slotted ∧ p'.done = p.done))

theorem Pod.Progress.refl (p : Pod) : p.Progress p := ⟨rfl, Or.inr ⟨rfl, rfl⟩⟩

theorem Pod.Progress.trans {a b c : Pod} (h : a.Progress b) (k : b.Progress c) : a.Progress c := by
  refine ⟨k.1.trans h.1, ?_⟩
  rcases k.2 with hd | ⟨hs, hd⟩
  · exact Or.inl hd
  · rcases h.2 with hd' | ⟨hs', hd'⟩
    · exact Or.inl (hd.trans hd')
    · exact Or.inr ⟨hs.trans hs', hd.trans hd'⟩

/-- `w'` is `w` after progress on its Pods. -/
structure FrameWork.Progress (w w' : FrameWork) : Prop where
  rest : w'.inputs = w.inputs
  pods : ∀ p ∈ w.pods, ∃ p' ∈ w'.pods, p.Progress p'

theorem FrameWork.Progress.refl (w : FrameWork) : w.Progress w := ⟨rfl, fun p hp => ⟨p, hp, .refl p⟩⟩

theorem FrameWork.Progress.trans {a b c : FrameWork} (h : a.Progress b) (k : b.Progress c) : a.Progress c := by
  refine ⟨k.rest.trans h.rest, fun p hp => ?_⟩
  obtain ⟨p1, hp1, h1⟩ := h.pods p hp
  obtain ⟨p2, hp2, h2⟩ := k.pods p1 hp1
  exact ⟨p2, hp2, h1.trans h2⟩

/-- A Pod of a work that makes progress. -/
theorem FrameWork.progress_modPods (w : FrameWork) (k : Pod → Bool) {g : Pod → Pod} (hg : ∀ p : Pod, p.Progress (g p)) :
    w.Progress { w with pods := modWhere w.pods k g } := by
  refine ⟨?_, fun p hp => ?_⟩
  · unfold FrameWork.inputs
    rw [map_modWhere_of_same w.pods k g Pod.inputs fun p => (hg p).1]
  · refine ⟨_, List.mem_map_of_mem hp, ?_⟩
    split
    · exact hg p
    · exact .refl p

theorem FrameWork.progress_late (w : FrameWork) (late : List (Nat × Nat × Nat)) : w.Progress { w with late } :=
  ⟨rfl, fun p hp => ⟨p, hp, .refl p⟩⟩

theorem FrameWork.progress_judged (w : FrameWork) (judged : List Nat) : w.Progress { w with judged } :=
  ⟨rfl, fun p hp => ⟨p, hp, .refl p⟩⟩

/-! ### The ZA40 after progress. -/

/-- A ZA40 without what progress on Pods changes: its messages and reports, its contexts, what is kept of finals, and its works. -/
def Za.pace (z : Za) : Za := { z.core with ctxs := [], kept := [], works := [] }

/-- `x` is `z` after progress on Pods. -/
structure Za.Progresses (z x : Za) : Prop where
  pace : x.pace = z.pace
  works : ∀ w ∈ z.works, ∃ w' ∈ x.works, w.Progress w'

namespace Za.Progresses
variable {a b c z x : Za}

theorem refl (z : Za) : z.Progresses z := ⟨rfl, fun w hw => ⟨w, hw, .refl w⟩⟩

theorem trans (h : a.Progresses b) (k : b.Progresses c) : a.Progresses c := by
  refine ⟨k.pace.trans h.pace, fun w hw => ?_⟩
  obtain ⟨w1, hw1, h1⟩ := h.works w hw
  obtain ⟨w2, hw2, h2⟩ := k.works w1 hw1
  exact ⟨w2, hw2, h1.trans h2⟩

theorem of_works (hp : x.pace = z.pace) (hw : x.works = z.works) : z.Progresses x :=
  ⟨hp, fun w h => ⟨w, hw ▸ h, .refl w⟩⟩

theorem of_reports (h : z.Reports x) : z.Progresses x := by
  refine of_works ?_ h.works
  unfold Za.pace
  rw [show x.core = z.core from h]

theorem ite {p : Prop} [Decidable p] (hx : z.Progresses a) (hy : z.Progresses b) : z.Progresses (if p then a else b) := by
  split
  · exact hx
  · exact hy

theorem foldl {α : Type} {f : Za → α → Za} (hf : ∀ (z : Za) a, z.Progresses (f z a)) (l : List α) (z : Za) :
    z.Progresses (l.foldl f z) :=
  List.foldlRecOn (motive := fun x : Za => z.Progresses x) l f (refl z) fun x hx a _ => hx.trans (hf x a)

theorem field {α : Type} (h : z.Progresses x) (g : Za → α) (hg : ∀ y : Za, g y.pace = g y) : g x = g z := by
  rw [← hg x, ← hg z, h.pace]

theorem regs (h : z.Progresses x) : x.regs = z.regs := h.field Za.regs fun _ => rfl
theorem tag (h : z.Progresses x) : x.tag = z.tag := h.field Za.tag fun _ => rfl
theorem models (h : z.Progresses x) : x.models = z.models := h.field Za.models fun _ => rfl
theorem time (h : z.Progresses x) : x.time = z.time := h.field Za.time fun _ => rfl
theorem dies (h : z.Progresses x) : x.dies = z.dies := h.field Za.dies fun _ => rfl

/-- What holds of the work of a frame by its inputs, and of a Pod of it by its progress, holds afterwards. -/
theorem worked {e f : Nat} {w : FrameWork} {p : FrameWork → Prop} (h : z.Progresses x) (hw : w ∈ z.works) (he : w.entry = e)
    (hf : w.frame = f) (hp : ∀ w', w.Progress w' → p w') : x.worked e f p := by
  obtain ⟨w', hw', hprog⟩ := h.works w hw
  have hentry : w'.entry = w.entry := show w'.inputs.entry = w.inputs.entry from congrArg FrameWork.entry hprog.rest
  have hframe : w'.frame = w.frame := show w'.inputs.frame = w.inputs.frame from congrArg FrameWork.frame hprog.rest
  exact ⟨w', hw', hentry.trans he, hframe.trans hf, hp w' hprog⟩

end Za.Progresses

theorem Za.modWork_progresses (z : Za) (e f : Nat) {g : FrameWork → FrameWork} (hg : ∀ w : FrameWork, w.Progress (g w)) :
    z.Progresses (z.modWork e f g) := by
  refine ⟨rfl, fun w hw => ⟨_, List.mem_map_of_mem hw, ?_⟩⟩
  split
  · exact hg w
  · exact .refl w

theorem Za.modPod_progresses (z : Za) (e f i rerun : Nat) {g : Pod → Pod} (hg : ∀ p : Pod, p.Progress (g p)) :
    z.Progresses (z.modPod e f i rerun g) := z.modWork_progresses e f fun w => w.progress_modPods _ hg

theorem Za.lateItem_progresses (z : Za) (e f phase n deadline : Nat) : z.Progresses (z.lateItem e f phase n deadline) :=
  .ite (.refl z) (z.modWork_progresses e f fun w => w.progress_late _)

theorem Za.modCtx_progresses (z : Za) (e : Nat) (g : Ctx → Ctx) : z.Progresses (z.modCtx e g) := by
  unfold Za.modCtx
  split
  · exact .of_works rfl rfl
  · exact .refl z

/-! ### Finals delivered (R223, R231). -/

theorem Za.deliverOut_progresses (z : Za) (e : Nat) (ws : List W) : z.Progresses (z.deliverOut e ws) :=
  .of_reports (z.toSubscribers_reports _ _ _ _ _)

theorem Za.passSeq_progresses (z : Za) (e ch : Nat) : z.Progresses (z.passSeq e ch) := by
  unfold Za.passSeq
  split
  · exact .refl z
  · exact (z.modCtx_progresses e _).trans (.of_reports (Za.event_reports _ _ _ _ _))

theorem Za.drainHeld_progresses (e ch n : Nat) (z : Za) : z.Progresses (Za.drainHeld e ch n z) := by
  induction n generalizing z with
  | zero => exact .refl z
  | succ n ih =>
    unfold Za.drainHeld
    split
    · exact .refl z
    · split
      · exact .refl z
      · exact (((z.modCtx_progresses e _).trans (Za.deliverOut_progresses _ e _)).trans (Za.passSeq_progresses _ e ch)).trans (ih _)

theorem Za.skipSeq_progresses (z : Za) (e ch : Nat) : z.Progresses (z.skipSeq e ch) := by
  unfold Za.skipSeq
  split
  · exact .refl z
  · exact (((z.modCtx_progresses e _).trans (.of_reports (Za.count_reports _ _ _))).trans (Za.passSeq_progresses _ e ch)).trans
      (Za.drainHeld_progresses e ch 65 _)

theorem Za.makeRoom_progresses (e ch seq n : Nat) (z : Za) : z.Progresses (Za.makeRoom e ch seq n z) := by
  induction n generalizing z with
  | zero => exact .refl z
  | succ n ih =>
    unfold Za.makeRoom
    exact .ite (.refl z) (((Za.Progresses.of_reports (z.count_reports _ 1)).trans (Za.skipSeq_progresses _ e ch)).trans (ih _))

theorem Za.skipTo_progresses (e ch n limit : Nat) (z : Za) : z.Progresses (Za.skipTo e ch n limit z) := by
  induction n generalizing z with
  | zero => exact .refl z
  | succ n ih =>
    unfold Za.skipTo
    split
    · exact .refl z
    · exact .ite (.refl z) ((z.skipSeq_progresses e ch).trans (ih _))

theorem Za.reorder_progresses (z : Za) (e : Nat) (r : PodRec) : z.Progresses (z.reorder e r) := by
  unfold Za.reorder
  extract_lets ch d y d'
  have hy : z.Progresses y := .ite (Za.makeRoom_progresses e ch r.seq _ z) (.refl z)
  clear_value y
  refine hy.trans ?_
  split
  · exact .refl y
  · refine .ite (((y.deliverOut_progresses e _).trans (Za.passSeq_progresses _ e ch)).trans (Za.drainHeld_progresses e ch 65 _)) ?_
    refine .ite (.ite (.of_reports (y.count_reports _ 1)) (y.modCtx_progresses e _)) ?_
    exact .ite ((y.modCtx_progresses e _).trans (Za.deliverOut_progresses _ e _)) (.of_reports (y.count_reports _ 1))

theorem Za.deliver_progresses (z : Za) (e : Nat) (r : PodRec) : z.Progresses (z.deliver e r) := by
  unfold Za.deliver
  extract_lets y y'
  have hy : z.Progresses y := .of_works rfl rfl
  have hy' : y.Progresses y' := .ite (.of_reports (y.count_reports _ 1)) (.refl y)
  exact (hy.trans hy').trans (.ite (y'.deliverOut_progresses e _) (y'.reorder_progresses e r))

/-! ### Progress on Pods (R212, R213, R220). -/

theorem Za.sendRed_progresses (z : Za) (agg msg ctx gen : Nat) (ws : List W) : z.Progresses (z.sendRed agg msg ctx gen ws) :=
  .of_reports (z.toAgg_reports _ _ _ _ _ _ _)

/-- A Pod that has its final is done. -/
theorem Pod.progress_final (final : Option PodRec) (finalLate : Bool) (p : Pod) :
    p.Progress { p.close with final, finalLate } := ⟨rfl, Or.inl rfl⟩

theorem Za.finalHere_progresses (z : Za) (e : Nat) (w : FrameWork) (t : FabTree) (p : Pod) (r : PodRec) :
    z.Progresses (z.finalHere e w t p r) := by
  unfold Za.finalHere
  extract_lets r' y late y'
  have hy : z.Progresses y := .foldl (fun x a => x.sendRed_progresses _ _ _ _ _) _ z
  have hy' : y.Progresses y' := y.modPod_progresses _ _ _ _ fun p => p.progress_final _ _
  exact ((hy.trans hy').trans (y'.lateItem_progresses _ _ _ _ _)).trans (Za.deliver_progresses _ e r')

theorem Za.countAbsent_progresses (z : Za) (e : Nat) (w : FrameWork) (p : Pod) : z.Progresses (z.countAbsent e w p) := by
  unfold Za.countAbsent
  exact .ite (.refl z) (.foldl (fun x a => .of_reports (x.count_reports _ _)) _ z)

theorem Za.progressPod_progresses (z : Za) (e f i rerun : Nat) : z.Progresses (z.progressPod e f i rerun) := by
  unfold Za.progressPod
  split
  · exact .refl z
  · split
    · exact .refl z
    next w _ _ p _ =>
      extract_lets t ready y tray from_ hosting r y1 y2 out
      refine .ite (.refl z) ?_
      have hy : z.Progresses y := .ite (z.countAbsent_progresses e w p) (.refl z)
      have hy1 : y.Progresses y1 := .of_reports (y.count_reports _ _)
      have hy2 : y1.Progresses y2 := y1.modPod_progresses _ _ _ _ fun p => ⟨rfl, Or.inr ⟨rfl, rfl⟩⟩
      refine ((hy.trans hy1).trans hy2).trans ?_
      refine .ite (y2.finalHere_progresses e w t p _) (.ite ?_ (.refl y2))
      split
      · exact .refl y2
      · refine (y2.sendRed_progresses _ _ _ _ _).trans (Za.modPod_progresses _ _ _ _ _ fun p => ?_)
        split
        · exact ⟨rfl, Or.inl rfl⟩
        · exact ⟨rfl, Or.inr ⟨rfl, rfl⟩⟩

theorem Za.progress_progresses (z : Za) (e f : Nat) : z.Progresses (z.progress e f) := by
  unfold Za.progress
  split
  · exact .refl z
  · exact .foldl (fun x (k : Nat × Nat) => x.progressPod_progresses e f k.1 k.2) _ z

end Sys2Proof.Machine
end

section
/-!
PROOFS. Contributions tested, and the tray deadline.
-/
namespace Sys2Proof.Machine

/-! ### The work of a context. -/

theorem Za.mem_of_work {z : Za} {e : Nat} {w : FrameWork} (h : z.work e = some w) : w ∈ z.works ∧ w.entry = e := by
  have hw := List.mem_of_mem_getLast? (show w ∈ (z.works.filter (fun w => w.entry == e && !w.abandoned)).getLast? from h)
  obtain ⟨hmem, hkey⟩ := List.mem_filter.1 hw
  rw [Bool.and_eq_true, beq_iff_eq] at hkey
  exact ⟨hmem, hkey.1⟩

theorem Za.mem_of_work? {z : Za} {e f : Nat} {w : FrameWork} (h : z.work? e f = some w) :
    w ∈ z.works ∧ w.entry = e ∧ w.frame = f := by
  have hkey := List.find?_some h
  rw [Bool.and_eq_true, beq_iff_eq, beq_iff_eq] at hkey
  exact ⟨List.mem_of_find?_eq_some h, hkey.1, hkey.2⟩

/-- The work of a frame after a change of it. -/
theorem Za.mem_modWork {z : Za} {e f : Nat} {w : FrameWork} (g : FrameWork → FrameWork) (hw : w ∈ z.works) (he : w.entry = e)
    (hf : w.frame = f) : g w ∈ (z.modWork e f g).works := by
  refine List.mem_map.2 ⟨w, hw, ?_⟩
  exact if_pos (Bool.and_eq_true_iff.2 ⟨beq_iff_eq.2 he, beq_iff_eq.2 hf⟩)

/-! ### The tests of a contribution (R226). -/

/-- What a contribution is taken for once it has passed the tests up to the deadline. -/
def Za.contribTaken (z : Za) (die : Nat) (ws : List W) : Taken :=
  if cSound ws = false then .absent 1
  else if cCfgSeq ws ≠ ((z.die? die).map (fun d => aGetD d.cfgFrame (cCluster ws) 0)).getD 0 then .absent 2
  else .present

/-- A contribution as it is booked. -/
def contribOf (die ns : Nat) (ws : List W) (k : Taken) : Contribution :=
  { die, cluster := cCluster ws, taken := k, standIn := false, words := ws, arrival := ns }

/-- A contribution that is booked with its work: the age of the parameters it was made under is noted (R243), and the Pods go on. -/
def Za.putContrib (z : Za) (e : Nat) (w : FrameWork) (die ns : Nat) (ws : List W) (k : Taken) : Za :=
  ((z.modDie die (fun d => { d with
      paramAge := match d.slotOf w.ctx w.gen w.frame with
        | some s =>
          if k == .absent 1 then d.paramAge
          else if cAge ws = 0 then aDel d.paramAge s.slot
          else aPut d.paramAge s.slot (w.frame - cAge ws)
        | none => d.paramAge })).modWork e w.frame (fun y =>
    { y with contribs := y.contribs ++ [contribOf die ns ws k] })).progress e w.frame

/-- A contribution goes through its tests in order; what passes is booked with its work. -/
theorem Za.contribution_eq {z : Za} {ws : List W} {e : Nat} {w : FrameWork} (die ns : Nat) (h : z.contributes ws e w) :
    z.contribution die ns ws =
      if (word ws 1).toNat ≠ w.frame % 2 ^ 32 then z.count (.red .wrongFrame e)
      else if cDie ws ≠ die ∨ w.view.rankOf die ≠ some (cRank ws) then z.count (.red .misroute e)
      else if w.contribs.any (fun x => x.die == die && x.cluster == cCluster ws) then z.count (.red .duplicate e)
      else if trayDeadlineNs < ns ∨ w.closed then (z.lateItem e w.frame 1 1 trayDeadlineNs).count (.red .lateArrival e)
      else z.putContrib e w die ns ws (z.contribTaken die ws) := by
  obtain ⟨c, hc⟩ := Option.isSome_iff_exists.1 h.held
  unfold Za.contribution
  rw [h.entry]
  dsimp only
  rw [hc]
  dsimp only
  rw [if_neg (by rw [h.live]; exact Bool.false_ne_true), h.work]
  refine ite_congr rfl (fun _ => rfl) fun _ => ite_congr rfl (fun _ => rfl) fun _ => ite_congr rfl (fun _ => rfl) fun _ =>
    ite_congr rfl (fun _ => rfl) fun _ => ?_
  unfold Za.contribTaken
  by_cases hs : cSound ws = false
  · rw [if_pos hs, if_pos (by rw [hs]; rfl)]
    rfl
  · rw [if_neg hs, if_neg (by rw [Bool.not_eq_false _ |>.mp hs]; decide)]
    cases z.die? die with
    | none => exact (apply_ite (fun k => z.putContrib e w die ns ws k) _ _ _).symm
    | some d => exact (apply_ite (fun k => z.putContrib e w die ns ws k) _ _ _).symm

/-- The row of a contribution that reaches the Reduction Engine. -/
theorem Za.contrib_eq {z0 z : Za} {p : Nat} {f : Frame} {arrival die : Nat} (h : z0.bringsContrib p f arrival z die) :
    z0.contrib p f arrival = z.contribution die arrival (f.body.take 136) := by
  have hz : (z0.receive p f).1.untilNs arrival = z := h.now.symm
  unfold Za.contrib
  dsimp only
  rw [hz, h.sender]
  exact if_pos ⟨h.passed, h.cls, h.msg, h.len, h.on⟩

theorem FrameWork.Progress.keeps {w w' : FrameWork} (h : w.Progress w') :
    w'.contribs = w.contribs ∧ w'.closed = w.closed ∧ w'.rows = w.rows :=
  ⟨show w'.inputs.contribs = w.inputs.contribs from congrArg FrameWork.contribs h.rest,
    show w'.inputs.closed = w.inputs.closed from congrArg FrameWork.closed h.rest,
    show w'.inputs.rows = w.inputs.rows from congrArg FrameWork.rows h.rest⟩

/-- A contribution booked stands in its work, which stays open. -/
theorem Za.putContrib_worked {z : Za} {e : Nat} {w : FrameWork} (die ns : Nat) (ws : List W) (k : Taken) (hw : w ∈ z.works)
    (he : w.entry = e) (hopen : w.closed = false) :
    (z.putContrib e w die ns ws k).worked e w.frame (fun y =>
        y.contribs = w.contribs ++ [contribOf die ns ws k] ∧ y.closed = false ∧ y.rows = w.rows) ∧
      (z.putContrib e w die ns ws k).regs = z.regs ∧ (z.putContrib e w die ns ws k).tag = z.tag ∧
      (z.putContrib e w die ns ws k).models = z.models := by
  unfold Za.putContrib
  generalize hx : z.modDie die _ = x
  have hworks : x.works = z.works := by rw [← hx]; rfl
  have hsame : x.regs = z.regs ∧ x.tag = z.tag ∧ x.models = z.models := by rw [← hx]; exact ⟨rfl, rfl, rfl⟩
  have hprog := Za.progress_progresses (x.modWork e w.frame (fun y =>
    { y with contribs := y.contribs ++ [contribOf die ns ws k] })) e w.frame
  have hmem := Za.mem_modWork (fun y => { y with contribs := y.contribs ++ [contribOf die ns ws k] }) (hworks ▸ hw) he rfl
  refine ⟨hprog.worked hmem he rfl fun w' h => ?_, hprog.regs.trans hsame.1, hprog.tag.trans hsame.2.1,
    hprog.models.trans hsame.2.2⟩
  obtain ⟨h1, h2, h3⟩ := h.keeps
  exact ⟨h1, h2.trans hopen, h3⟩

/-! ### Deadlines within a frame (R31). -/

/-- A deadline that is due is reached: time alone moves, and is past it. -/
theorem Za.untilNs_due {z : Za} {ns : Nat} (h : z.dueAt ns = true) :
    ∃ time, z.untilNs ns = { z with time } ∧ ns ≤ time.ns - 2 ^ 20 * time.frameNow := by
  unfold Za.dueAt at h
  rw [Bool.and_eq_true, Bool.or_eq_true, decide_eq_true_eq] at h
  unfold Za.untilNs
  dsimp only
  split
  · obtain ⟨time, hreach, hns, -⟩ := z.reach_eq (2 ^ 20 * z.frameNow + ns)
    obtain ⟨ftc, residual, hkeep, -⟩ := z.time.reach_eq z.slewMax zaNominal (2 ^ 20 * z.frameNow + ns)
    have hframe : time.frameNow = z.frameNow := by
      have htime : time = z.time.reach z.slewMax zaNominal (2 ^ 20 * z.frameNow + ns) := congrArg Za.time hreach.symm
      rw [htime, hkeep]
      unfold Za.frameNow TimeUnit.frameNow
      exact (if_pos h.1).trans (if_pos h.1).symm
    refine ⟨time, hreach, ?_⟩
    rw [hframe]
    omega
  next hno =>
    refine ⟨z.time, rfl, ?_⟩
    rcases h.2 with hpast | hmay
    · exact hpast
    · have hnow : ¬ z.nowNs < 2 ^ 20 * z.frameNow + ns := fun hlt => hno ⟨hlt, hmay⟩
      change ns ≤ z.nowNs - 2 ^ 20 * z.frameNow
      omega

/-- The books that the runs of absences leave. -/
def Za.books (z : Za) : List FrameWork × TimeUnit × RegMap × Memory × List ModelSlot := (z.works, z.time, z.regs, z.tag, z.models)

theorem Za.books_eq {z x : Za} :
    z.Same Za.books x ↔ x.works = z.works ∧ x.time = z.time ∧ x.regs = z.regs ∧ x.tag = z.tag ∧ x.models = z.models := by
  unfold Za.Same Za.books
  simp only [Prod.mk.injEq]

theorem Za.absenceRun_same (z : Za) (e : Nat) (c : Ctx) (w : FrameWork) (die : Nat) : z.Same Za.books (z.absenceRun e c w die) := by
  unfold Za.absenceRun
  extract_lets causes old run seen y
  have hy : z.Same Za.books y := rfl
  refine .ite (hy.trans ?_) hy
  have hr := y.raiseCtx_reports .absentPersist .dtu 0 .none c die 0 (c.threeFrames w.view ++ [pack [(seen, 31, 24)]])
  exact Za.books_eq.2 ⟨hr.works, hr.time, hr.regs, hr.tag, hr.models⟩

theorem contribs_first {die cluster : Nat} {l : List Contribution} (h : ∀ x ∈ l, ¬(x.die = die ∧ x.cluster = cluster)) :
    ¬ l.any (fun x => x.die == die && x.cluster == cluster) = true := fun hany => by
  obtain ⟨x, hx, hk⟩ := List.any_eq_true.1 hany
  rw [Bool.and_eq_true, beq_iff_eq, beq_iff_eq] at hk
  exact h x hx hk

/-- Settles O49: the row is one chain of tests, and what passes all of them is booked before the Pods go on. -/
theorem contributionsAreTested : Obligations.ContributionsAreTested := by
  unfold Obligations.ContributionsAreTested
  refine ⟨?wrongFrame, ?misroute, ?duplicate, ?late, ?present, ?deadline⟩
  case wrongFrame =>
    rintro s p f arrival die e z w hb hc hframe
    refine .of_row (g := fun z => z.contrib p.val f arrival) rfl ?_
    rw [Za.contrib_eq hb, Za.contribution_eq die arrival hc, if_pos hframe]
  case misroute =>
    rintro s p f arrival die e z w hb hc hframe hroute
    refine .of_row (g := fun z => z.contrib p.val f arrival) rfl ?_
    rw [Za.contrib_eq hb, Za.contribution_eq die arrival hc, if_neg (fun h => h hframe), if_pos hroute]
  case duplicate =>
    rintro s p f arrival die e z w x hb hc hframe hdie hrank hx hxd hxc
    refine .of_row (g := fun z => z.contrib p.val f arrival) rfl ?_
    have hany : w.contribs.any (fun x => x.die == die && x.cluster == cCluster (f.body.take 136)) = true :=
      List.any_eq_true.2 ⟨x, hx, by rw [hxd, hxc, beq_self_eq_true, beq_self_eq_true]; rfl⟩
    rw [Za.contrib_eq hb, Za.contribution_eq die arrival hc, if_neg (fun h => h hframe),
      if_neg (not_or.2 ⟨fun h => h hdie, fun h => h hrank⟩), if_pos hany]
  case late =>
    rintro s p f arrival die e z w hb hc hframe hdie hrank hfirst hlate
    refine .of_row (g := fun z => z.contrib p.val f arrival) rfl ?_
    rw [Za.contrib_eq hb, Za.contribution_eq die arrival hc, if_neg (fun h => h hframe),
      if_neg (not_or.2 ⟨fun h => h hdie, fun h => h hrank⟩), if_neg (contribs_first hfirst),
        if_pos (Or.inl (show trayDeadlineNs < arrival from hlate))]
    rfl
  case present =>
    rintro s p f arrival die e z w hb hc ht
    obtain ⟨hmem, hentry⟩ := Za.mem_of_work hc.work
    have hrow : s.za.contrib p.val f arrival = z.putContrib e w die arrival (f.body.take 136) (z.contribTaken die (f.body.take 136)) := by
      rw [Za.contrib_eq hb, Za.contribution_eq die arrival hc, if_neg (fun h => h ht.ofFrame),
        if_neg (not_or.2 ⟨fun h => h ht.sameDie, fun h => h ht.rank⟩), if_neg (contribs_first ht.first),
        if_neg (not_or.2 ⟨Nat.not_lt.2 ht.inTime, by rw [ht.open_]; exact Bool.false_ne_true⟩)]
    obtain ⟨hworked, hregs, htag, hmodels⟩ := Za.putContrib_worked die arrival (f.body.take 136) (z.contribTaken die (f.body.take 136))
      hmem hentry ht.open_
    exact ⟨_, contribOf die arrival (f.body.take 136) (z.contribTaken die (f.body.take 136)),
      .of_row (g := fun z => z.contrib p.val f arrival) rfl hrow, rfl, rfl, rfl, rfl, rfl, rfl, hworked, hregs, htag,
      hmodels⟩
  case deadline =>
    rintro s entry w c hw hc hopen hrun hdue
    obtain ⟨hmem, hentry⟩ := Za.mem_of_work hw
    refine ⟨s.za.trayDeadline entry.val, rfl, ?_⟩
    unfold Za.trayDeadline
    rw [hw, hc]
    dsimp only
    rw [if_neg (by rw [hopen, hrun, show s.za.dueAt trayDeadlineNs = true from hdue]; decide)]
    obtain ⟨time, huntil, hns⟩ := Za.untilNs_due hdue
    rw [show trayDeadlineNs = 917504 from rfl, huntil]
    have hsame := Za.Same.foldl (fun x die => x.absenceRun_same entry.val c w die) (w.view.tray.map (·.die))
      (Za.modWork { s.za with time } entry.val w.frame (fun x => { x with closed := true }))
    generalize (w.view.tray.map (·.die)).foldl
      (fun (z : Za) d => z.absenceRun entry.val c w d) _ = y at hsame
    obtain ⟨hworks, htime, hregs, htag, hmodels⟩ := Za.books_eq.1 hsame
    have hprog := y.progress_progresses entry.val w.frame
    have hmem' := Za.mem_modWork (z := { s.za with time }) (fun x => { x with closed := true }) hmem hentry rfl
    rw [← hworks] at hmem'
    refine ⟨hprog.worked hmem' hentry rfl fun w' h => ?_, ?_, hprog.regs.trans hregs, hprog.tag.trans htag,
      hprog.models.trans hmodels⟩
    · obtain ⟨h1, h2, h3⟩ := h.keeps
      exact ⟨h2, h1, h3⟩
    · unfold Za.sinceTick Za.nowNs Za.frameNow
      rw [hprog.time, htime]
      exact hns

end Sys2Proof.Machine
end

section
/-!
PROOFS. Partial and final results, slots, reruns and skips of Pods.
-/
namespace Sys2Proof.Machine

/-! ### What delivery of a final leaves (R223, R231). -/

/-- The works and the finals kept, which the order of a channel does not touch. -/
def Za.results (z : Za) : List FrameWork × List Kept := (z.works, z.kept)

theorem Za.Reports.results {z x : Za} (h : z.Reports x) : z.Same Za.results x := by
  unfold Za.Same Za.results
  rw [h.works, h.kept]

theorem Za.modCtx_results (z : Za) (e : Nat) (g : Ctx → Ctx) : z.Same Za.results (z.modCtx e g) := by
  unfold Za.modCtx
  split
  · rfl
  · exact .refl z

theorem Za.deliverOut_reports (z : Za) (e : Nat) (ws : List W) : z.Reports (z.deliverOut e ws) := z.toSubscribers_reports _ _ _ _ _

theorem Za.passSeq_results (z : Za) (e ch : Nat) : z.Same Za.results (z.passSeq e ch) := by
  unfold Za.passSeq
  split
  · exact .refl z
  · exact (z.modCtx_results e _).trans (Za.event_reports _ _ _ _ _).results

theorem Za.drainHeld_results (e ch n : Nat) (z : Za) : z.Same Za.results (Za.drainHeld e ch n z) := by
  induction n generalizing z with
  | zero => exact .refl z
  | succ n ih =>
    unfold Za.drainHeld
    split
    · exact .refl z
    · split
      · exact .refl z
      · exact (((z.modCtx_results e _).trans (Za.deliverOut_reports _ e _).results).trans (Za.passSeq_results _ e ch)).trans (ih _)

theorem Za.skipSeq_results (z : Za) (e ch : Nat) : z.Same Za.results (z.skipSeq e ch) := by
  unfold Za.skipSeq
  split
  · exact .refl z
  · exact (((z.modCtx_results e _).trans (Za.count_reports _ _ _).results).trans (Za.passSeq_results _ e ch)).trans
      (Za.drainHeld_results e ch 65 _)

theorem Za.makeRoom_results (e ch seq n : Nat) (z : Za) : z.Same Za.results (Za.makeRoom e ch seq n z) := by
  induction n generalizing z with
  | zero => exact .refl z
  | succ n ih =>
    unfold Za.makeRoom
    exact .ite (.refl z) (((z.count_reports _ 1).results.trans (Za.skipSeq_results _ e ch)).trans (ih _))

theorem Za.skipTo_results (e ch n limit : Nat) (z : Za) : z.Same Za.results (Za.skipTo e ch n limit z) := by
  induction n generalizing z with
  | zero => exact .refl z
  | succ n ih =>
    unfold Za.skipTo
    split
    · exact .refl z
    · exact .ite (.refl z) ((z.skipSeq_results e ch).trans (ih _))

theorem Za.reorder_results (z : Za) (e : Nat) (r : PodRec) : z.Same Za.results (z.reorder e r) := by
  unfold Za.reorder
  extract_lets ch d y d'
  have hy : z.Same Za.results y := .ite (Za.makeRoom_results e ch r.seq _ z) (.refl z)
  clear_value y
  refine hy.trans ?_
  split
  · exact .refl y
  · refine .ite (((y.deliverOut_reports e _).results.trans (Za.passSeq_results _ e ch)).trans (Za.drainHeld_results e ch 65 _)) ?_
    refine .ite (.ite (y.count_reports _ 1).results (y.modCtx_results e _)) ?_
    exact .ite ((y.modCtx_results e _).trans (Za.deliverOut_reports _ e _).results) (y.count_reports _ 1).results

/-- A final delivered is kept; the works stay. -/
theorem Za.deliver_results (z : Za) (e : Nat) (r : PodRec) :
    (z.deliver e r).works = z.works ∧ (z.deliver e r).kept = { entry := e, begun := z.time.begun, result := r } :: z.kept := by
  unfold Za.deliver
  extract_lets y y'
  have hy' : y.Same Za.results y' := .ite (y.count_reports _ 1).results (.refl y)
  have hall : y.Same Za.results (if r.rerun ≠ 0 then y'.deliverOut e (Machine.markLate r.words) else y'.reorder e r) :=
    hy'.trans (.ite (y'.deliverOut_reports e _).results (y'.reorder_results e r))
  exact Prod.mk.inj hall

theorem mem_modWhere {α : Type} {l : List α} {p : α → Bool} {g : α → α} {a : α} (ha : a ∈ l) (hp : p a = true) :
    g a ∈ modWhere l p g :=
  List.mem_map.2 ⟨a, ha, if_pos hp⟩

/-- The works with items counted late: a work is as it was but for these. -/
theorem Za.mem_lateItem (z : Za) (e f phase n deadline : Nat) {w : FrameWork} (hw : w ∈ z.works) :
    ∃ w' ∈ (z.lateItem e f phase n deadline).works, w' = { w with late := w'.late } := by
  unfold Za.lateItem
  split
  · exact ⟨w, hw, rfl⟩
  · refine ⟨_, List.mem_map_of_mem hw, ?_⟩
    split <;> rfl

/-- A work whose Pod is closed by its final. -/
def FrameWork.closePod (w : FrameWork) (p : Pod) (r : PodRec) (finalLate : Bool) : FrameWork :=
  let closed (x : Pod) : Pod := { x.close with final := some r, finalLate }
  { w with pods := modWhere w.pods (fun x => x.index == p.index && x.rerun == p.rerun) closed }

/-- A final closes its Pod and is kept. -/
theorem Za.finalHere_done {z : Za} {e : Nat} {w : FrameWork} {t : FabTree} {p : Pod} {r : PodRec} (hw : w ∈ z.works)
    (he : w.entry = e) (hp : p ∈ w.pods) :
    (z.finalHere e w t p r).worked e w.frame (fun y => ∃ q ∈ y.pods, q.index = p.index ∧ q.rerun = p.rerun ∧ q.done = true ∧
        q.slotted = false ∧ q.final = some { r with late := r.late || w.abandoned }) ∧
      ∃ k ∈ (z.finalHere e w t p r).kept, k.entry = e ∧ k.result = { r with late := r.late || w.abandoned } := by
  unfold Za.finalHere
  extract_lets r' y late y'
  have hy : y.works = z.works := (Za.Reports.foldl (fun x a => x.toAgg_reports _ _ _ _ _ _ _) _ z).works
  obtain ⟨hworks, hkept⟩ := (y'.lateItem e w.frame 3 (b2n (late && !w.abandoned)) finalDeadlineNs).deliver_results e r'
  refine ⟨?_, _, by rw [hkept]; exact List.mem_cons_self, rfl, rfl⟩
  have hy' : (w.closePod p r' (late || w.abandoned)) ∈ y'.works :=
    Za.mem_modWork (z := y) (fun v => v.closePod p r' (late || w.abandoned)) (hy ▸ hw) he rfl
  obtain ⟨w', hw', hlate⟩ := y'.mem_lateItem e w.frame 3 (b2n (late && !w.abandoned)) finalDeadlineNs hy'
  refine ⟨w', hworks ▸ hw', ?_, ?_, ?_⟩
  · rw [hlate]; exact he
  · rw [hlate]; rfl
  · rw [hlate]
    exact ⟨_, mem_modWhere hp (Bool.and_eq_true_iff.2 ⟨beq_self_eq_true _, beq_self_eq_true _⟩), rfl, rfl, rfl, rfl, rfl⟩

/-! ### Frames of the RED class. -/

/-- A record's header is what its first 16 words say, sound or not. -/
theorem podRecOf_head {ws : List W} {r : PodRec} (h : podRecOf ws = some r) :
    r.ctx = (recHead ws).ctx ∧ r.gen = (recHead ws).gen ∧ r.frame = (recHead ws).frame ∧ r.index = (recHead ws).index ∧
      r.rerun = (recHead ws).rerun ∧ r.height = (recHead ws).height ∧ r.node = (recHead ws).node := by
  unfold podRecOf at h
  extract_lets kind n plen p nums sec at h
  obtain ⟨-, hr⟩ := Option.ite_none_left_eq_some.1 h
  rw [← Option.some.inj hr]
  exact ⟨rfl, rfl, rfl, rfl, rfl, rfl, rfl⟩

/-- A child result as it is taken. -/
def childOf (p : Pod) (r : PodRec) (h : Nat) (sound : Bool) : ChildIn :=
  { height := h, cause := childCause p r sound, result := if childCause p r sound = 0 then some r else none }

/-- A child result taken into its Pod, which then goes on. -/
def Za.putChild (z : Za) (e : Nat) (w : FrameWork) (p : Pod) (x : ChildIn) : Za :=
  let y := z.modPod e w.frame p.index p.rerun (fun q => { q with children := q.children ++ [x] })
  let y := if x.cause = 1 then y.count (.red .absentCrc e) else if x.cause = 4 then y.count (.red .absentScale e) else y
  y.progressPod e w.frame p.index p.rerun

/-- A RED frame of a resident context reaches its message. -/
theorem Za.redFrame_eq {z0 z : Za} {p : Nat} {f : Frame} {msg e : Nat} {ws : List W} {r : PodRec} {w : FrameWork} {q : Pod}
    (h : z0.bringsResult p f msg z ws r e w q) (g : Za → List W → Za) : z0.redFrame p f msg g = g z ws := by
  have hz : (z0.receive p f).1 = z := h.now.symm
  unfold Za.redFrame
  dsimp only
  rw [hz, ← h.words, if_pos ⟨h.passed, h.cls, h.msg, h.len, h.on⟩]
  refine if_neg ?_
  obtain ⟨hctx, hgen, -⟩ := podRecOf_head h.record
  unfold Za.staleRecord
  rw [← hctx, ← hgen, h.entry]
  exact Bool.false_ne_true

/-- The Pod that a result names. -/
theorem FrameWork.pod?_key {w : FrameWork} {i n : Nat} {q : Pod} (h : w.pod? i n = some q) :
    q ∈ w.pods ∧ q.index = i ∧ q.rerun = n := by
  have hkey := List.find?_some h
  rw [Bool.and_eq_true, beq_iff_eq, beq_iff_eq] at hkey
  exact ⟨List.mem_of_find?_eq_some h, hkey.1, hkey.2⟩

theorem Za.bringsResult.held {z0 z : Za} {p : Nat} {f : Frame} {msg e : Nat} {ws : List W} {r : PodRec} {w : FrameWork} {q : Pod}
    (h : z0.bringsResult p f msg z ws r e w q) : w ∈ z.works ∧ w.entry = e := by
  have hkey := List.find?_some h.work
  rw [Bool.and_eq_true, beq_iff_eq] at hkey
  exact ⟨List.mem_of_find?_eq_some h.work, hkey.1⟩

/-- A child result at its node (R212, R220). -/
theorem Za.partialIn_eq {z0 z : Za} {p : Nat} {f : Frame} {msg e h : Nat} {ws : List W} {r : PodRec} {w : FrameWork} {q : Pod} (ns : Nat)
    (hb : z0.bringsResult p f msg z ws r e w q) (hh : (z.tree w.view).childHeight r.height r.node = some h)
    (hopen : ∀ x ∈ q.children, x.height = h → x.cause = 0 ∧ x.result = none) :
    ∃ r', (recSound ws = true → r' = r) ∧ z.partialIn ns ws =
      if (decide (q.rerun = 0 ∧ nodeDeadlineNs h < ns) && decide (w.begun = z.time.begun)) = true ∨
          (q.rerun = 0 ∧ (q.children.find? (fun c => c.height == h)).isSome = true) then z.lateItem e w.frame 2 1 (nodeDeadlineNs h)
      else if (q.children.find? (fun c => c.height == h)).isSome then z
      else z.putChild e w q (childOf q r' h (recSound ws)) := by
  have hrec : ∃ r', (if recSound ws then podRecOf ws else some (recHead ws)) = some r' ∧ (recSound ws = true → r' = r) ∧
      r'.ctx = r.ctx ∧ r'.gen = r.gen ∧ r'.frame = r.frame ∧ r'.index = r.index ∧ r'.rerun = r.rerun ∧ r'.height = r.height ∧
      r'.node = r.node := by
    by_cases hs : recSound ws = true
    · exact ⟨r, (if_pos hs).trans hb.record, fun _ => rfl, rfl, rfl, rfl, rfl, rfl, rfl, rfl⟩
    · obtain ⟨h1, h2, h3, h4, h5, h6, h7⟩ := podRecOf_head hb.record
      exact ⟨recHead ws, if_neg hs, fun h => absurd h hs, h1.symm, h2.symm, h3.symm, h4.symm, h5.symm, h6.symm, h7.symm⟩
  obtain ⟨r', hr', hsound, h1, h2, h3, h4, h5, h6, h7⟩ := hrec
  refine ⟨r', hsound, ?_⟩
  unfold Za.partialIn
  rw [hr']
  dsimp only
  rw [h1, h2, h3, h4, h5, h6, h7, hb.entry]
  dsimp only [Option.bind_some]
  rw [hb.work]
  dsimp only [Option.map_some]
  rw [hb.pod, hh]
  dsimp only
  refine (if_neg ?_).trans rfl
  cases hfind : q.children.find? (fun c => c.height == h) with
  | none => exact Bool.false_ne_true
  | some x =>
    obtain ⟨hcause, hresult⟩ := hopen x (List.mem_of_find?_eq_some hfind)
      (beq_iff_eq.1 (List.find?_some (p := fun (c : ChildIn) => c.height == h) hfind))
    rw [Option.any_some, hcause, hresult]
    decide

/-! ### Reruns, slots and node deadlines. -/

theorem Pod.Progress.keeps {p p' : Pod} (h : p.Progress p') :
    p'.index = p.index ∧ p'.rerun = p.rerun ∧ p'.seq = p.seq ∧ p'.exps = p.exps ∧ p'.children = p.children :=
  ⟨show p'.inputs.index = p.inputs.index from congrArg Pod.index h.1,
    show p'.inputs.rerun = p.inputs.rerun from congrArg Pod.rerun h.1,
    show p'.inputs.seq = p.inputs.seq from congrArg Pod.seq h.1,
    show p'.inputs.exps = p.inputs.exps from congrArg Pod.exps h.1,
    show p'.inputs.children = p.inputs.children from congrArg Pod.children h.1⟩

/-- The second run of a Pod: on its inputs, with what was absent still absent (R221). -/
def Pod.again (p : Pod) (members : Nat) : Pod :=
  { p with
    rerun := 0 + 1, slotted := false, waited := false, exps := rerunExps p.exps members (0 + 1), tray := none,
    children := p.children.filter (fun c => c.result.isNone), own := none, ownHeight := 0, sentUp := false, final := none,
    finalLate := false, done := false }

/-- A child result that a Pod waits for is taken with it. -/
theorem Za.putChild_worked {z : Za} {e : Nat} {w : FrameWork} {p : Pod} (x : ChildIn) (hw : w ∈ z.works) (he : w.entry = e)
    (hp : p ∈ w.pods) :
    (z.putChild e w p x).worked e w.frame (fun y => y.contribs = w.contribs ∧ ∃ q ∈ y.pods, q.index = p.index ∧ q.rerun = p.rerun ∧
      q.children = p.children ++ [x]) ∧ (z.putChild e w p x).regs = z.regs := by
  unfold Za.putChild
  extract_lets y y'
  have hy' : y.Progresses y' := .ite (.of_reports (y.count_reports _ 1)) (.ite (.of_reports (y.count_reports _ 1)) (.refl y))
  have hprog := hy'.trans (y'.progressPod_progresses e w.frame p.index p.rerun)
  let add (q : Pod) : Pod := { q with children := q.children ++ [x] }
  have hmem := Za.mem_modWork (z := z)
    (fun w => { w with pods := modWhere w.pods (fun q => q.index == p.index && q.rerun == p.rerun) add }) hw he rfl
  refine ⟨hprog.worked hmem he rfl fun w' h => ⟨h.keeps.1, ?_⟩, hprog.regs⟩
  obtain ⟨q, hq, hin⟩ := h.pods (add p) (mem_modWhere hp (Bool.and_eq_true_iff.2 ⟨beq_self_eq_true _, beq_self_eq_true _⟩))
  obtain ⟨h1, h2, -, -, h3⟩ := hin.keeps
  exact ⟨q, hq, h1, h2, h3⟩

theorem Za.judgeChild_progresses (z : Za) (e f h : Nat) : z.Progresses (z.judgeChild e f h) := by
  unfold Za.judgeChild
  split
  · refine .ite (.refl z) (.trans ?_ (Za.modWork_progresses _ _ _ fun w => w.progress_judged _))
    unfold Za.childRun
    extract_lets gone causes old run seen y
    have hy : z.Progresses y := z.modCtx_progresses _ _
    split
    · exact .ite (hy.trans (.of_reports (y.raiseCtx_reports _ _ _ _ _ _ _ _))) hy
    · exact hy
  · exact .refl z

/-- A child that a Pod waits for, marked as missing. -/
def Pod.missing (p : Pod) (h : Nat) : Pod := { p with children := p.children ++ [{ height := h, cause := 0, result := none }] }

/-- Every Pod of a work that waits for the child of a height, marked. -/
def FrameWork.missing (w : FrameWork) (h : Nat) : FrameWork :=
  { w with pods := modWhere w.pods (fun p => p.rerun == 0 && p.children.all (fun x => x.height != h)) (fun p => p.missing h) }

/-- No first run of a marked work waits for the child. -/
theorem FrameWork.missing_children (w : FrameWork) (h : Nat) :
    ∀ p ∈ (w.missing h).pods, p.rerun = 0 → ∃ x ∈ p.children, x.height = h := by
  intro p hp hrun
  obtain ⟨p0, -, rfl⟩ := List.mem_map.1 hp
  by_cases hno : (p0.rerun == 0 && p0.children.all (fun x => x.height != h)) = true
  · rw [if_pos hno]
    exact ⟨_, List.mem_append_right _ List.mem_cons_self, rfl⟩
  · rw [if_neg hno] at hrun ⊢
    rw [hrun, beq_self_eq_true, Bool.true_and, Bool.not_eq_true, List.all_eq_false] at hno
    obtain ⟨x, hx, hh⟩ := hno
    exact ⟨x, hx, by simpa using hh⟩

/-- What holds of the inputs of every Pod holds after progress. -/
theorem FrameWork.Progress.children {w w' : FrameWork} (h : w.Progress w') {k : Nat}
    (hw : ∀ p ∈ w.pods, p.rerun = 0 → ∃ x ∈ p.children, x.height = k) : ∀ p ∈ w'.pods, p.rerun = 0 → ∃ x ∈ p.children, x.height = k := by
  intro q hq hrun
  have hpods : w'.pods.map Pod.inputs = w.pods.map Pod.inputs := congrArg FrameWork.pods h.rest
  obtain ⟨p, hp, hin⟩ := List.mem_map.1 (hpods ▸ List.mem_map_of_mem (f := Pod.inputs) hq)
  have hr : p.rerun = q.rerun := show p.inputs.rerun = q.inputs.rerun from congrArg Pod.rerun hin
  have hc : p.children = q.children := show p.inputs.children = q.inputs.children from congrArg Pod.children hin
  rw [← hc]
  exact hw p hp (hr.trans hrun)

/-! ### Seqs skipped. -/

/-- `k` is a seq skipped by the context of an entry. -/
def Za.Skipped (z : Za) (e : Nat) (k : Nat × Nat) : Prop := ∃ c, z.ctx? e = some c ∧ k ∈ c.skipped

theorem Za.Skipped.of_ctxs {z x : Za} {e : Nat} {k : Nat × Nat} (h : z.Skipped e k) (hx : x.ctxs = z.ctxs) : x.Skipped e k := by
  obtain ⟨c, hc, hk⟩ := h
  exact ⟨c, by unfold Za.ctx?; rw [hx]; exact hc, hk⟩

theorem Za.Skipped.modCtx {z : Za} {e : Nat} {k : Nat × Nat} {g : Ctx → Ctx} (h : z.Skipped e k)
    (hg : ∀ c : Ctx, k ∈ c.skipped → k ∈ (g c).skipped) : (z.modCtx e g).Skipped e k := by
  obtain ⟨c, hc, hk⟩ := h
  exact ⟨g c, Za.modCtx_self g hc, hg c hk⟩

theorem Za.Skipped.passSeq {z : Za} {e : Nat} {k : Nat × Nat} (h : z.Skipped e k) (ch : Nat) : (z.passSeq e ch).Skipped e k := by
  unfold Za.passSeq
  split
  · exact h
  · exact (h.modCtx fun _ hk => by exact hk).of_ctxs (Za.event_reports _ _ _ _ _).ctxs

theorem Za.Skipped.drainHeld {e : Nat} {k : Nat × Nat} (ch n : Nat) {z : Za} (h : z.Skipped e k) :
    (Za.drainHeld e ch n z).Skipped e k := by
  induction n generalizing z with
  | zero => exact h
  | succ n ih =>
    unfold Za.drainHeld
    split
    · exact h
    · split
      · exact h
      · exact ih (((h.modCtx fun _ hk => by exact hk).of_ctxs (Za.deliverOut_reports _ e _).ctxs).passSeq ch)

/-- The next seq of a channel, once skipped, is so. -/
theorem Za.skipSeq_skips {z : Za} {e : Nat} {c : Ctx} (ch : Nat) (hc : z.ctx? e = some c) :
    (z.skipSeq e ch).Skipped e (ch, c.next.getD ch 0) := by
  unfold Za.skipSeq
  rw [hc]
  dsimp only
  have h : (z.modCtx e (fun x => { x with skipped := x.skipped ++ [(ch, c.next.getD ch 0)] })).Skipped e (ch, c.next.getD ch 0) :=
    ⟨_, Za.modCtx_self _ hc, List.mem_append_right _ List.mem_cons_self⟩
  exact ((h.of_ctxs (Za.count_reports _ _ _).ctxs).passSeq ch).drainHeld ch 65

theorem Za.Skipped.skipSeq {z : Za} {e : Nat} {k : Nat × Nat} (h : z.Skipped e k) (ch : Nat) : (z.skipSeq e ch).Skipped e k := by
  unfold Za.skipSeq
  split
  · exact h
  · exact (((h.modCtx fun _ hk => List.mem_append_left _ hk).of_ctxs (Za.count_reports _ _ _).ctxs).passSeq ch).drainHeld ch 65

theorem Za.Skipped.skipTo {e : Nat} {k : Nat × Nat} (ch n limit : Nat) {z : Za} (h : z.Skipped e k) :
    (Za.skipTo e ch n limit z).Skipped e k := by
  induction n generalizing z with
  | zero => exact h
  | succ n ih =>
    unfold Za.skipTo
    split
    · exact h
    · dsimp only
      split
      · exact h
      · exact ih (h.skipSeq ch)

/-- Skips up to a limit ahead begin with the next seq. -/
theorem Za.skipTo_skips {z : Za} {e : Nat} {c : Ctx} (ch n limit : Nat) (hc : z.ctx? e = some c)
    (hn : n = (limit + 2 ^ 32 - c.next.getD ch 0) % 2 ^ 32) (h0 : 0 < n) (h31 : n < 2 ^ 31) :
    (Za.skipTo e ch n limit z).Skipped e (ch, c.next.getD ch 0) := by
  obtain ⟨m, rfl⟩ := Nat.exists_eq_succ_of_ne_zero (Nat.ne_of_gt h0)
  unfold Za.skipTo
  rw [hc]
  dsimp only
  rw [← hn, if_neg (by omega)]
  exact (Za.skipSeq_skips ch hc).skipTo ch m limit

theorem Za.skipTo_keeps (e ch n limit : Nat) (z : Za) :
    (Za.skipTo e ch n limit z).works = z.works ∧ (Za.skipTo e ch n limit z).regs = z.regs :=
  ⟨congrArg Prod.fst (Za.skipTo_results e ch n limit z), (Za.skipTo_progresses e ch n limit z).regs⟩

theorem Za.reorderSkip_eq {z : Za} {e ch : Nat} {c : Ctx} (hc : z.ctx? e = some c) (hrun : z.enginesRun = true)
    (h31 : (z.expiredSeq c ch + 2 ^ 32 - c.next.getD ch 0) % 2 ^ 32 < 2 ^ 31) :
    z.reorderSkip e ch =
      Za.skipTo e ch ((z.expiredSeq c ch + 2 ^ 32 - c.next.getD ch 0) % 2 ^ 32) (z.expiredSeq c ch) z := by
  unfold Za.reorderSkip
  rw [hc]
  dsimp only
  rw [if_pos ⟨hrun, h31⟩]

/-- A skip up to a limit ahead skips the next seq, and leaves works and registers. -/
theorem Za.reorderSkip_skips {z : Za} {e ch : Nat} {c : Ctx} (hc : z.ctx? e = some c) (hrun : z.enginesRun = true)
    (h0 : 0 < (z.expiredSeq c ch + 2 ^ 32 - c.next.getD ch 0) % 2 ^ 32)
    (h31 : (z.expiredSeq c ch + 2 ^ 32 - c.next.getD ch 0) % 2 ^ 32 < 2 ^ 31) :
    (z.reorderSkip e ch).Skipped e (ch, c.next.getD ch 0) ∧ (z.reorderSkip e ch).works = z.works ∧
      (z.reorderSkip e ch).regs = z.regs := by
  rw [Za.reorderSkip_eq hc hrun h31]
  exact ⟨Za.skipTo_skips ch _ _ hc rfl h0 h31, Za.skipTo_keeps e ch _ _ z⟩

/-- Settles O50: the Pods' inputs and what they hold stay through the progress that every row ends with. -/
theorem resultsClimbAndReturn : Obligations.ResultsClimbAndReturn := by
  unfold Obligations.ResultsClimbAndReturn
  refine ⟨?child, ?late, ?nodeDeadline, ?final, ?staged, ?slot, ?rerun, ?skip⟩
  case child =>
    intro s p f arrival h e z ws r w q hb hh hnew htime hsound hexp
    obtain ⟨hw, he⟩ := hb.held
    obtain ⟨hq, hindex, hrun⟩ := FrameWork.pod?_key hb.pod
    obtain ⟨r', hr', heq⟩ := Za.partialIn_eq arrival hb hh fun x hx hxh => absurd hxh (hnew x hx)
    cases hr' hsound
    have hfind : q.children.find? (fun c => c.height == h) = none :=
      List.find?_eq_none.2 fun x hx => by rw [beq_iff_eq]; exact hnew x hx
    have hcause : childCause q r (recSound ws) = 0 := by
      unfold childCause
      rw [hsound, if_neg (by decide), if_neg (fun hk => hk.2 (hexp hk.1))]
    have hin : ¬ (q.rerun = 0 ∧ nodeDeadlineNs h < arrival) := fun hk => by
      have hns : nodeDeadlineNs h = 917504 + 4096 * h := rfl
      rcases htime with h0 | hle
      · exact h0 hk.1
      · omega
    rw [hfind, if_neg (by rw [decide_eq_false hin]; simp), if_neg (by decide)] at heq
    have hchild : childOf q r h (recSound ws) = { height := h, cause := 0, result := some r } := by
      unfold childOf
      rw [hcause, if_pos rfl]
    rw [hchild] at heq
    obtain ⟨hworked, hregs⟩ := Za.putChild_worked { height := h, cause := 0, result := some r } hw he hq
    rw [hindex, hrun] at hworked
    exact ⟨_, .of_row (g := fun z => (z.untilNs arrival).redFrame p.val f 2 (fun z ws => z.partialIn arrival ws)) rfl
      ((Za.redFrame_eq hb _).trans heq), hworked, hregs⟩
  case late =>
    intro s p f arrival h e z ws r w q hb hh hopen hrun hlate hbegun
    refine .of_row (g := fun z => (z.untilNs arrival).redFrame p.val f 2 (fun z ws => z.partialIn arrival ws)) rfl ?_
    obtain ⟨r', -, heq⟩ := Za.partialIn_eq arrival hb hh hopen
    rw [Za.redFrame_eq hb, heq]
    exact if_pos (Or.inl (by rw [decide_eq_true hbegun, decide_eq_true ⟨hrun, hlate⟩]; rfl))
  case nodeDeadline =>
    intro s entry h w c hw hc h0 htop hhosts hchild hruns hdue
    obtain ⟨hmem, hentry⟩ := Za.mem_of_work hw
    refine ⟨s.za.nodeDeadline entry.val h.val, rfl, ?_⟩
    obtain ⟨time, huntil, -⟩ := Za.untilNs_due hdue
    unfold Za.nodeDeadline
    rw [hw]
    dsimp only
    rw [if_neg (by
      rw [hhosts, hruns, show s.za.dueAt (nodeDeadlineNs h.val) = true from hdue, Option.isNone_eq_false_iff.2 hchild]
      simp only [Bool.not_true, Bool.false_eq_true, or_false]
      omega), show s.za.untilNs (nodeDeadlineNs h.val) = _ from huntil]
    have hprog := ((Za.Progresses.of_reports (Za.count_reports (Za.modWork { s.za with time } entry.val w.frame (fun x => x.missing h.val))
      (.red .absentMissing entry.val) (w.pods.countP fun p => p.rerun == 0 && p.children.all fun x => x.height != h.val))).trans
      (Za.judgeChild_progresses _ entry.val w.frame h.val)).trans (Za.progress_progresses _ entry.val w.frame)
    have hmem' := Za.mem_modWork (z := { s.za with time }) (fun x => x.missing h.val) hmem hentry rfl
    exact ⟨hprog.regs, hprog.tag, hprog.worked hmem' hentry rfl fun w' hp => ⟨hp.keeps.1, hp.children (w.missing_children h.val)⟩⟩
  case final =>
    intro s p f e z ws r w q hb hfrost hsound hfinal hnone
    obtain ⟨hw, he⟩ := hb.held
    obtain ⟨hq, hindex, hrun⟩ := FrameWork.pod?_key hb.pod
    have hrow : z.finalIn ws = z.finalHere e w (z.tree w.view) q r := by
      unfold Za.finalIn
      rw [hb.record]
      dsimp only
      rw [hfrost, if_neg Bool.false_ne_true, hsound, hfinal, if_neg (by decide), hb.entry]
      dsimp only
      rw [hb.work]
      dsimp only
      rw [hb.pod]
      dsimp only
      rw [hnone]
      rfl
    obtain ⟨hworked, hkept⟩ := Za.finalHere_done (t := z.tree w.view) (r := r) hw he hq
    rw [hindex, hrun] at hworked
    exact ⟨_, .of_row (g := fun z => z.redFrame p.val f 3 (fun z ws => z.finalIn ws)) rfl ((Za.redFrame_eq hb _).trans hrow),
      (z.finalHere_progresses e w (z.tree w.view) q r).regs, hworked, hkept⟩
  case staged =>
    intro s p f e z ws r w q hb hfrost
    refine .of_row (g := fun z => z.redFrame p.val f 3 (fun z ws => z.finalIn ws)) rfl ?_
    rw [Za.redFrame_eq hb]
    unfold Za.finalIn
    rw [hb.record]
    exact if_pos hfrost
  case slot =>
    intro s entry w c q hw hc hfind hruns hmay
    obtain ⟨hmem, hentry⟩ := Za.mem_of_work hw
    have hq := List.mem_of_find?_eq_some hfind
    have hkey := List.find?_some hfind
    simp only [Bool.and_eq_true, beq_iff_eq] at hkey
    refine ⟨s.za.slotGrant entry.val, rfl, ?_⟩
    unfold Za.slotGrant
    rw [hc, hw]
    dsimp only
    rw [hfind]
    dsimp only
    rw [if_pos ⟨hruns, hmay⟩]
    let take (x : Pod) : Pod := { x with slotted := true }
    have hprog := Za.progressPod_progresses (s.za.modPod entry.val w.frame q.index 0 take) entry.val w.frame q.index 0
    have hmem' := Za.mem_modWork (z := s.za)
      (fun w => { w with pods := modWhere w.pods (fun x => x.index == q.index && x.rerun == 0) take })
      hmem hentry rfl
    refine ⟨hprog.regs, hprog.worked hmem' hentry rfl fun w' hp => ⟨hp.keeps.1, ?_⟩⟩
    obtain ⟨q', hq', hin⟩ := hp.pods (take q) (mem_modWhere hq (Bool.and_eq_true_iff.2 ⟨beq_self_eq_true _, beq_iff_eq.2 hkey.2⟩))
    obtain ⟨h1, h2, h3, -⟩ := hin.keeps
    exact ⟨q', hq', h1, h2.trans hkey.2, h3, hin.2.symm.imp_left And.left⟩
  case rerun =>
    intro s entry n i w q r hw hlast hrun hfinal hover hbegun hruns
    obtain ⟨hmem, hentry, hframe⟩ := Za.mem_of_work? hw
    obtain ⟨hq, hindex⟩ := List.mem_filter.1 (List.mem_of_mem_getLast? hlast)
    refine ⟨s.za.podRerun entry.val n i.val, rfl, ?_⟩
    unfold Za.podRerun
    rw [hw]
    dsimp only
    obtain ⟨x, hx⟩ := Option.ne_none_iff_exists'.1 (mt List.getLast?_eq_none_iff.1 (List.ne_nil_of_mem hq))
    rw [hx, Option.bind_some, hlast]
    dsimp only
    rw [hfinal, Option.map_some, Option.getD_some, hover, hruns, hrun, hbegun, if_neg (by simp)]
    have hprog := (Za.Progresses.of_reports (Za.count_reports (s.za.modWork entry.val n (fun x => { x with pods := x.pods ++
      [q.again w.view.members.length] })) (.red .reruns entry.val) 1)).trans (Za.progressPod_progresses _ entry.val n i.val (0 + 1))
    have hmem' := Za.mem_modWork (z := s.za) (fun x => { x with pods := x.pods ++ [q.again w.view.members.length] }) hmem hentry hframe
    refine ⟨hprog.regs, hprog.worked hmem' hentry hframe fun w' hp => ⟨hp.keeps.1, ?_⟩⟩
    obtain ⟨q', hq', hin⟩ := hp.pods (q.again w.view.members.length) (List.mem_append_right _ List.mem_cons_self)
    obtain ⟨h1, h2, h3, h4, h5⟩ := hin.keeps
    exact ⟨q', hq', h1, h2, h3, h4, h5⟩
  case skip =>
    intro s entry ch c hc hruns h0 h31
    obtain ⟨⟨c', hc', hk⟩, hworks, hregs⟩ := Za.reorderSkip_skips hc hruns h0 h31
    exact ⟨_, c', rfl, hc', hk, hworks, hregs⟩

end Sys2Proof.Machine
end

section
/-!
PROOFS. Rows, items, checks, batches and scores of a data frame.
-/
namespace Sys2Proof.Machine

/-! ### What a function keeps of every work. -/

/-- `x` still holds the works of `z`, and `g` of each is kept. -/
def Za.KeepsWorks {α : Type} (g : FrameWork → α) (z x : Za) : Prop :=
  ∀ w ∈ z.works, ∃ w' ∈ x.works, w'.entry = w.entry ∧ w'.frame = w.frame ∧ g w' = g w

namespace Za.KeepsWorks
variable {α : Type} {g : FrameWork → α} {a b c z x : Za}

theorem of_works (h : x.works = z.works) : z.KeepsWorks g x := fun w hw => ⟨w, h ▸ hw, rfl, rfl, rfl⟩

theorem refl (z : Za) : z.KeepsWorks g z := of_works rfl

theorem trans (h : a.KeepsWorks g b) (k : b.KeepsWorks g c) : a.KeepsWorks g c := fun w hw => by
  obtain ⟨w1, hw1, he1, hf1, hg1⟩ := h w hw
  obtain ⟨w2, hw2, he2, hf2, hg2⟩ := k w1 hw1
  exact ⟨w2, hw2, he2.trans he1, hf2.trans hf1, hg2.trans hg1⟩

theorem ite {p : Prop} [Decidable p] (hx : z.KeepsWorks g a) (hy : z.KeepsWorks g b) : z.KeepsWorks g (if p then a else b) := by
  split
  · exact hx
  · exact hy

theorem foldl {β : Type} {f : Za → β → Za} (hf : ∀ (z : Za) a, z.KeepsWorks g (f z a)) (l : List β) (z : Za) :
    z.KeepsWorks g (l.foldl f z) :=
  List.foldlRecOn (motive := fun x : Za => z.KeepsWorks g x) l f (refl z) fun x hx a _ => hx.trans (hf x a)

theorem of_reports (h : z.Reports x) : z.KeepsWorks g x := of_works h.works

/-- What holds of the part kept of a work holds of it afterwards. -/
theorem worked {e f : Nat} {w : FrameWork} {p : FrameWork → Prop} (h : z.KeepsWorks g x) (hw : w ∈ z.works) (he : w.entry = e)
    (hf : w.frame = f) (hp : ∀ w', g w' = g w → p w') : x.worked e f p := by
  obtain ⟨w', hw', he', hf', hg⟩ := h w hw
  exact ⟨w', hw', he'.trans he, hf'.trans hf, hp w' hg⟩

end Za.KeepsWorks

theorem Za.map_keepsWorks {α : Type} {g : FrameWork → α} (z : Za) (p : FrameWork → Bool) {f : FrameWork → FrameWork}
    (hf : ∀ w, (f w).entry = w.entry ∧ (f w).frame = w.frame ∧ g (f w) = g w) :
    z.KeepsWorks g { z with works := modWhere z.works p f } := fun w hw => by
  refine ⟨_, List.mem_map_of_mem hw, ?_⟩
  split
  · exact hf w
  · exact ⟨rfl, rfl, rfl⟩

theorem Za.modWork_keepsWorks {α : Type} {g : FrameWork → α} (z : Za) (e k : Nat) {f : FrameWork → FrameWork}
    (hf : ∀ w, (f w).entry = w.entry ∧ (f w).frame = w.frame ∧ g (f w) = g w) : z.KeepsWorks g (z.modWork e k f) :=
  z.map_keepsWorks _ hf

/-! ### Fences. -/

/-- `x` is `z` after reports and fences; no lane is released. -/
structure Za.Fenced (z x : Za) : Prop where
  rest : ∀ fences, Za.core { x with fences } = Za.core { z with fences }
  lanes : ∀ l ∈ z.fences.lanes, l ∈ x.fences.lanes

namespace Za.Fenced
variable {a b c z x : Za}

theorem of_reports (h : z.Reports x) : z.Fenced x :=
  ⟨fun fences => congrArg (fun y : Za => { y with fences }) h, fun l hl => h.fences ▸ hl⟩

theorem refl (z : Za) : z.Fenced z := of_reports (.refl z)

theorem trans (h : a.Fenced b) (k : b.Fenced c) : a.Fenced c :=
  ⟨fun f => (k.rest f).trans (h.rest f), fun l hl => k.lanes l (h.lanes l hl)⟩

theorem ite {p : Prop} [Decidable p] (hx : z.Fenced a) (hy : z.Fenced b) : z.Fenced (if p then a else b) := by
  split
  · exact hx
  · exact hy

theorem foldl {α : Type} {f : Za → α → Za} (hf : ∀ (z : Za) a, z.Fenced (f z a)) (l : List α) (z : Za) : z.Fenced (l.foldl f z) :=
  List.foldlRecOn (motive := fun x : Za => z.Fenced x) l f (refl z) fun x hx a _ => hx.trans (hf x a)

theorem field {α : Type} (h : z.Fenced x) (g : Za → α) (hg : ∀ (y : Za) fences, g (Za.core { y with fences }) = g y) : g x = g z := by
  rw [← hg x z.fences, ← hg z z.fences, h.rest]

theorem works (h : z.Fenced x) : x.works = z.works := h.field Za.works fun _ _ => rfl
theorem ctxs (h : z.Fenced x) : x.ctxs = z.ctxs := h.field Za.ctxs fun _ _ => rfl
theorem regs (h : z.Fenced x) : x.regs = z.regs := h.field Za.regs fun _ _ => rfl
theorem tag (h : z.Fenced x) : x.tag = z.tag := h.field Za.tag fun _ _ => rfl
theorem time (h : z.Fenced x) : x.time = z.time := h.field Za.time fun _ _ => rfl

end Za.Fenced

/-- Fences changed without releasing a lane. -/
theorem Za.withFences_fenced (z : Za) (fences : Fences) (h : ∀ l ∈ z.fences.lanes, l ∈ fences.lanes) : z.Fenced { z with fences } :=
  ⟨fun _ => rfl, h⟩

theorem Za.raiseF_reports (z : Za) (f : FaultFields) (ext : List W) : z.Reports (z.raiseF f ext) := z.raiseMsg_reports _ _

theorem Za.checkLoss_fenced (z : Za) : z.Fenced z.checkLoss := by
  unfold Za.checkLoss
  refine .ite (.trans (b := { z with fences := { z.fences with checkLost := true } }) (z.withFences_fenced _ fun _ h => h)
    (.of_reports (Za.raise_reports _ _ _ _ _ _ _ _))) (.ite (z.withFences_fenced _ fun _ h => h) (.refl z))

theorem Za.fenceQuadrant_fenced (z : Za) (q : Nat) (cause : Option FaultKind) : z.Fenced (z.fenceQuadrant q cause) := by
  unfold Za.fenceQuadrant
  refine .ite (.refl z) (.ite ?_ ?_)
  · split
    · exact .of_reports (z.raiseF_reports _ _)
    · exact .refl z
  · refine .trans (.trans (b := { z with fences := { z.fences with quadrants := z.fences.quadrants ++ [q] } })
      (z.withFences_fenced _ fun _ h => h) (.of_reports (Za.raiseFence_reports _ _ _ _ _ _ _ _))) (Za.checkLoss_fenced _)

/-- A suspect quadrant has its margin raised a step, or is fenced at the limit. -/
def Za.raiseMargin (z : Za) (q : Nat) : Za :=
  if z.fences.margin.getD q 0 < 4 then { z with fences := { z.fences with margin := modAt z.fences.margin q (· + 1) } }
  else (z.raise .marginLimit .quadrant q .none 0 0).fenceQuadrant q (some .marginLimit)

theorem Za.raiseMargin_fenced (z : Za) (q : Nat) : z.Fenced (z.raiseMargin q) := by
  unfold Za.raiseMargin
  refine .ite (z.withFences_fenced _ fun _ h => h) ?_
  exact .trans (.of_reports (z.raise_reports _ _ _ _ _ _ _)) (Za.fenceQuadrant_fenced _ _ _)

/-- A quadrant noted as suspect. -/
def Za.suspect (z : Za) (q : Nat) : Za := { z with fences := { z.fences with suspect := (z.fences.suspect ++ [q]).eraseDups } }

theorem Za.ensQuadrant_eq (z : Za) (q : Nat) :
    z.ensQuadrant q = ((z.raise .ensQuadrant .quadrant q .none 0 0).suspect q).raiseMargin q := by
  unfold Za.ensQuadrant
  generalize z.raise .ensQuadrant .quadrant q .none 0 0 [] = x
  revert x
  exact id fun x => rfl

theorem Za.suspect_fenced (z : Za) (q : Nat) : z.Fenced ((z.suspect q).raiseMargin q) :=
  .trans (b := z.suspect q) (z.withFences_fenced _ fun _ h => h) ((z.suspect q).raiseMargin_fenced q)

theorem Za.ensQuadrant_fenced (z : Za) (q : Nat) : z.Fenced (z.ensQuadrant q) := by
  rw [z.ensQuadrant_eq]
  exact .trans (.of_reports (z.raise_reports _ _ _ _ _ _ _)) (Za.suspect_fenced _ q)

theorem Za.fenceLane_fenced (z : Za) (l loss frame : Nat) (cause : Option FaultKind) :
    z.Fenced (z.fenceLane l loss frame cause) ∧ l ∈ (z.fenceLane l loss frame cause).fences.lanes := by
  unfold Za.fenceLane
  split
  next h => exact ⟨.refl z, List.contains_iff_mem.1 h⟩
  · extract_lets old y y'
    have hy : z.Fenced y := z.withFences_fenced _ fun _ h => List.mem_append_left _ h
    have hl : l ∈ y.fences.lanes := List.mem_append_right _ List.mem_cons_self
    have hy' : y.Fenced y' := .of_reports (y.raiseFence_reports _ _ _ _ _ _ _)
    have hend : y'.Fenced (if 256 < y'.fences.lanes.countP (fun x => decide (x / 1024 = l / 1024)) then
        y'.fenceQuadrant (l / 1024) cause else y') := .ite (y'.fenceQuadrant_fenced _ _) (.refl y')
    exact ⟨(hy.trans hy').trans hend, hend.lanes l (hy'.lanes l hl)⟩

theorem Za.laneFault_fenced (z : Za) (c : Ctx) (w : FrameWork) (item : Nat) (d : Dispute) (lane loss : Nat) :
    z.Fenced (z.laneFault c w item d lane loss) ∧ lane ∈ (z.laneFault c w item d lane loss).fences.lanes := by
  unfold Za.laneFault
  extract_lets ext
  obtain ⟨h, hl⟩ := (z.raiseCtx .ensLane .lane lane .none c 0 0 ext).fenceLane_fenced lane loss w.frame (some .ensLane)
  exact ⟨.trans (.of_reports (z.raiseCtx_reports _ _ _ _ _ _ _ _)) h, hl⟩

/-! ### Rows (R241, R251). -/

/-- A row that is written, with its counts. -/
def Za.putRow (z : Za) (e : Nat) (w : FrameWork) (r : FeatRow × Nat × Nat) : Za :=
  (((z.modWork e w.frame (fun x => { x with rows := x.rows ++ [r.1] })).count (.ens .rowsWritten e)).count (.ens .nanToInt e) r.2.1).count
    (.ens .arithMissing e) r.2.2

theorem Za.putRow_worked {z : Za} {e : Nat} {w : FrameWork} (r : FeatRow × Nat × Nat) (hw : w ∈ z.works) (he : w.entry = e) :
    (z.putRow e w r).worked e w.frame (fun y => y.contribs = w.contribs ∧ y.items = w.items ∧ y.rows = w.rows ++ [r.1]) :=
  ⟨_, Za.mem_modWork (fun x => { x with rows := x.rows ++ [r.1] }) hw he rfl, he, rfl, rfl, rfl, rfl⟩

theorem Za.putRow_books (z : Za) (e : Nat) (w : FrameWork) (r : FeatRow × Nat × Nat) :
    (z.putRow e w r).ctxs = z.ctxs ∧ (z.putRow e w r).dies = z.dies ∧ (z.putRow e w r).time = z.time := ⟨rfl, rfl, rfl⟩

/-- The FLEET results of a row are there, or it reads none. -/
def FrameWork.finalsIn (w : FrameWork) (plan : List (List W)) (n : Entity) : Bool :=
  w.begun == 0 || (fleetPods plan n).all (fun i => (w.final i).isSome)

/-- A row that may be written is, from the time it may. -/
theorem Za.featureRow_eq {z : Za} {e index : Nat} {tile : Bool} {w : FrameWork} {n : Entity} (dom : Nat → Nat → Nat)
    (hw : z.work e = some w)
    (hn : (w.view.entities tile)[index]? = some n) (hplan : w.view.featPlan tile ≠ []) (hrow : w.row? tile n.key = none)
    (hrun : z.enginesRun = true) (hlocal : w.localReady (w.view.featPlan tile) n = true)
    (hmay : w.finalsIn (w.view.featPlan tile) n = true ∨ z.dueAt 1000000 = true) (y : Za)
    (hy : (if w.finalsIn (w.view.featPlan tile) n then z else z.untilNs 1000000) = y) :
    z.featureRow dom e tile index = y.putRow e w (w.makeRow (y.featEnv dom e w) (w.view.featPlan tile) n index) := by
  rw [← hy]
  unfold Za.featureRow
  rw [hw]
  dsimp only
  rw [hn]
  refine if_neg ?_
  change ¬ ((w.view.featPlan tile).isEmpty = true ∨ (w.row? tile n.key).isSome = true ∨ (!z.enginesRun) = true ∨
    (!w.localReady (w.view.featPlan tile) n) = true ∨ (!(w.finalsIn (w.view.featPlan tile) n || z.dueAt 1000000)) = true)
  rw [hrow, hrun, hlocal, Bool.or_eq_true_iff.2 hmay, List.isEmpty_eq_false_iff.2 hplan]
  decide

/-! ### Items on lanes (R262, R263, R267). -/

theorem Za.scoring_works {z : Za} {e : Nat} {w : FrameWork} (h : z.scoring e = some w) : w ∈ z.works ∧ w.entry = e := by
  have hopen (h : (z.works.filter (fun x => x.entry == e && x.abandoned && !x.scored && x.begun != 0)).getLast? = some w) :
      w ∈ z.works ∧ w.entry = e := by
    obtain ⟨hmem, hkey⟩ := List.mem_filter.1 (List.mem_of_mem_getLast? h)
    rw [Bool.and_eq_true, Bool.and_eq_true, Bool.and_eq_true, beq_iff_eq] at hkey
    exact ⟨hmem, hkey.1.1.1⟩
  unfold Za.scoring at h
  split at h
  next v hv =>
    split at h
    · exact hopen h
    · cases h
      exact Za.mem_of_work hv
  · exact hopen h

/-- The item of a walk as it is noted. -/
def itemOf (score entity tree lane : Nat) (k : Walk) : ItemDone :=
  { score, entity, tree, lane, checkLane := none, leaf := k.leaf, value := k.value, miss := k.miss, nan := k.nan }

/-- An item noted, and the row it was walked on taken. -/
def Za.putItem (z : Za) (e : Nat) (w : FrameWork) (s : Sec) (k : Walk) (x : ItemDone) : Za :=
  let y := z.modWork e w.frame (fun y => { y with
    items := y.items ++ [x], rows := modWhere y.rows (fun r => r.tile == s.tile && r.entity == x.entity) (fun r => { r with taken := true })
    marginal := y.marginal + k.visits })
  let y := (y.count (.ens .items e)).count (if s.spilled then .ens .visitsSpilled e else .ens .visits e) k.visits
  ((y.count (.ens .missTaken e) k.miss).count (.ens .nanSeen e) k.nan).count (.ens .catRange e) k.cat

theorem Za.putItem_worked {z : Za} {e : Nat} {w : FrameWork} (s : Sec) (k : Walk) (x : ItemDone) (hw : w ∈ z.works) (he : w.entry = e) :
    (z.putItem e w s k x).worked e w.frame (fun y => y.items = w.items ++ [x] ∧ y.scores = w.scores) ∧
      (z.putItem e w s k x).ctxs = z.ctxs ∧ (z.putItem e w s k x).fences = z.fences := by
  unfold Za.putItem
  extract_lets y y'
  have hy : ∃ v ∈ y.works, v.entry = e ∧ v.frame = w.frame ∧ v.items = w.items ++ [x] ∧ v.scores = w.scores :=
    ⟨_, Za.mem_modWork (z := z) _ hw he rfl, he, rfl, rfl, rfl⟩
  have hsame : y.ctxs = z.ctxs ∧ y.fences = z.fences := ⟨rfl, rfl⟩
  have hcount : y.Reports (((y'.count (.ens .missTaken e) k.miss).count (.ens .nanSeen e) k.nan).count (.ens .catRange e) k.cat) :=
    .trans (.trans (Za.count_reports _ _ _) (Za.count_reports _ _ _))
      (.trans (.trans (y'.count_reports _ _) (Za.count_reports _ _ _)) (Za.count_reports _ _ _))
  obtain ⟨v, hv, hrest⟩ := hy
  exact ⟨⟨v, hcount.works ▸ hv, hrest⟩, hcount.ctxs.trans hsame.1, hcount.fences.trans hsame.2⟩

/-- The row of a walk that may be made: a new item, or the check of one that is owed it. -/
theorem Za.ensembleItem_ready {z : Za} {e score entity tree lane : Nat} {w : FrameWork} {s : Sec} {row : FeatRow} {c : Ctx} (u : WalkUpset)
    (h : z.walkReady e score entity tree lane w s row) (hc : z.ctx? e = some c) :
    (w.item? score entity tree = none → z.checkDue w s entity tree = false →
      z.ensembleItem e score entity tree lane u = z.putItem e w s ((walkTree s.words row.values tree).upset s.words u.primary)
        (itemOf score entity tree lane ((walkTree s.words row.values tree).upset s.words u.primary))) ∧
    (∀ x, w.item? score entity tree = some x → z.checkDue w s entity tree = true → x.checkLane = none →
      z.ensembleItem e score entity tree lane u = z.checkItem e c w s x (walkTree s.words row.values tree) u) := by
  have hok : (row.valid && decide (tree < ensTrees s.words) && z.laneLive lane && w.preDoneOn
    (z.secs w) s.tile entity && z.enginesRun) = true := by
    rw [h.valid, decide_eq_true h.inside, h.live, h.pre, h.on]
    rfl
  refine ⟨fun hitem hdue => ?_, fun x hitem hdue hlane => ?_⟩
  all_goals
    unfold Za.ensembleItem
    rw [h.work, hc]
    dsimp only
    rw [h.sect]
    dsimp only
    rw [h.has]
    dsimp only
    rw [hok, if_neg (by decide), hitem]
  · dsimp only
    simp only [hdue, Bool.false_eq_true, if_false]
    rfl
  · exact if_pos ⟨hdue, by rw [hlane]; rfl⟩

/-- A check that agrees is noted with its item, and both lanes have passed. -/
theorem Za.checkItem_agrees {z : Za} {e l : Nat} {c : Ctx} {w : FrameWork} {s : Sec} {x : ItemDone} {sound : Walk} {u : WalkUpset}
    (hl : z.checkerFor x.lane = some l) (hinj : z.injections = []) (hu : u.checker = none)
    (hsame : x.leaf = sound.leaf ∧ x.value = sound.value ∧ x.miss = sound.miss ∧ x.nan = sound.nan) :
    ∃ (y : Za) (lanePass : List (Nat × Nat)), z.Reports y ∧ z.checkItem e c w s x sound u =
      { y.modWork e w.frame (fun v => v.modItem x (fun i => { i with checkLane := some l })) with
        fences := { y.fences with lanePass } } := by
  have hspend : ∀ row, z.laneUpset l s row x.tree u.checker = (z, none) := fun row => by
    unfold Za.laneUpset Za.injectionAt
    rw [hinj, hu]
    rfl
  obtain ⟨h1, h2, h3, h4⟩ := hsame
  unfold Za.checkItem
  rw [hl]
  dsimp only
  rw [hspend]
  refine ⟨(z.count (.ens .checks e)).count (if s.spilled then .ens .visitsSpilled e else .ens .visits e) sound.visits, _, ?_,
    if_pos ⟨h1.symm, h2.symm, h3.symm, h4.symm⟩⟩
  exact .trans (Za.count_reports _ _ _) (Za.count_reports _ _ _)

/-! ### Arbitration (R268, R269). -/

/-- What a disagreement leads to once the reference walk has been made. -/
def Za.decideDispute (z : Za) (e : Nat) (c : Ctx) (w : FrameWork) (d : Dispute) (item : Nat) : Za :=
  if d.refLeaf = d.leaf then (z.laneFault c w item d d.checkLane 1).recheck d.checkLane
  else if d.refLeaf = d.checkLeaf then ((z.laneFault c w item d d.lane 1).recheck d.lane).rescoreLane d.lane
  else
    let z := (z.laneFault c w item d d.lane (1 + 2 ^ 6)).laneFault c w item d d.checkLane (1 + 2 ^ 6)
    let z := (z.modWork e w.frame (fun y => y.mark d.score d.entity 3)).count (.ens .unscoredSplit e)
    ([d.lane / 1024, d.checkLane / 1024].eraseDups).foldl Za.ensQuadrant z

theorem Za.arbitrate_eq {z : Za} {e : Nat} {c : Ctx} {w : FrameWork} {d : Dispute} {rest : List Dispute} (hw : z.scoring e = some w)
    (hc : z.ctx? e = some c) (hd : w.disputes = d :: rest) (hrun : z.enginesRun = true) (hl : z.laneLive d.lane = true)
    (hcl : z.laneLive d.checkLane = true) :
    ∃ item, z.arbitrate e =
      ((z.modWork e w.frame (fun y => { y with disputes := rest })).count (.ens .arbitrated e)).decideDispute e c w d item := by
  refine ⟨d.entity * ((walked (z.secs w)).find? (fun s => s.score == d.score)).elim 0 (fun s => ensTrees s.words) + d.tree, ?_⟩
  unfold Za.arbitrate
  rw [hw, hc]
  dsimp only
  rw [hd]
  dsimp only
  rw [hrun, if_neg (by decide)]
  refine (if_neg ?_).trans ((if_neg ?_).trans rfl)
  · rw [show (z.modWork e w.frame (fun y => { y with disputes := rest })).laneLive d.lane = true from hl]
    decide
  · rw [show (z.modWork e w.frame (fun y => { y with disputes := rest })).laneLive d.checkLane = true from hcl]
    decide

/-- The books that arbitration leaves beside works and fences. -/
def Za.heldBooks (z : Za) : List (Nat × Ctx) × RegMap × Fences := (z.ctxs, z.regs, z.fences)

theorem FrameWork.mark_keeps (w : FrameWork) (score entity status : Nat) :
    (w.mark score entity status).entry = w.entry ∧ (w.mark score entity status).frame = w.frame ∧
      (w.mark score entity status).disputes = w.disputes := ⟨rfl, rfl, rfl⟩

theorem Za.rescore_keeps (z : Za) (e : Nat) (w : FrameWork) (hit : List (Bool × Nat)) :
    z.Same Za.heldBooks (z.rescore e w hit) ∧ z.KeepsWorks FrameWork.disputes (z.rescore e w hit) := by
  unfold Za.rescore
  extract_lets ss posts tileOf mine again y
  refine ⟨rfl, .trans (Za.modWork_keepsWorks z e w.frame fun v => ?_) (.of_reports (y.count_reports _ _))⟩
  refine List.foldlRecOn (motive := fun x : FrameWork => x.entry = v.entry ∧ x.frame = v.frame ∧ x.disputes = v.disputes)
    hit _ ⟨rfl, rfl, rfl⟩ fun x hx h _ => ?_
  exact List.foldlRecOn (motive := fun x : FrameWork => x.entry = v.entry ∧ x.frame = v.frame ∧ x.disputes = v.disputes)
    _ _ hx fun x hx s _ => hx

theorem Za.rescoreLane_keeps (z : Za) (lane : Nat) :
    z.Same Za.heldBooks (z.rescoreLane lane) ∧ z.KeepsWorks FrameWork.disputes (z.rescoreLane lane) := by
  have hstep : ∀ (x : Za) (w : FrameWork) (hit : List (Bool × Nat)),
      x.Same Za.heldBooks (if hit.isEmpty then x else x.rescore w.entry w hit) ∧
        x.KeepsWorks FrameWork.disputes (if hit.isEmpty then x else x.rescore w.entry w hit) := fun x w hit =>
    ⟨.ite (.refl x) (x.rescore_keeps w.entry w hit).1, .ite (.refl x) (x.rescore_keeps w.entry w hit).2⟩
  exact ⟨.foldl (fun x w => (hstep x w _).1) _ z, .foldl (fun x w => (hstep x w _).2) _ z⟩

theorem Za.recheck_keeps (z : Za) (lane : Nat) :
    z.Same Za.heldBooks (z.recheck lane) ∧ z.KeepsWorks FrameWork.disputes (z.recheck lane) :=
  ⟨rfl, z.map_keepsWorks _ fun _ => ⟨rfl, rfl, rfl⟩⟩

theorem Za.heldBooks_eq {z x : Za} (h : z.Same Za.heldBooks x) : x.ctxs = z.ctxs ∧ x.regs = z.regs ∧ x.fences = z.fences := by
  unfold Za.Same Za.heldBooks at h
  rw [Prod.mk.injEq, Prod.mk.injEq] at h
  exact h

/-- What is kept when a disagreement is decided. -/
structure Za.Decided (z x : Za) : Prop where
  ctxs : x.ctxs = z.ctxs
  regs : x.regs = z.regs
  works : z.KeepsWorks FrameWork.disputes x

/-- The majority of three fences the lane that stands alone; with three leaves both are fenced and the entity is not scored. -/
theorem Za.decideDispute_fences {z : Za} {e : Nat} {c : Ctx} {w v : FrameWork} {d : Dispute} {item : Nat} (hv : v ∈ z.works)
    (he : v.entry = e) (hf : v.frame = w.frame) :
    z.Decided (z.decideDispute e c w d item) ∧
      (d.refLeaf = d.leaf → d.checkLane ∈ (z.decideDispute e c w d item).fences.lanes) ∧
      (d.refLeaf ≠ d.leaf → d.refLeaf = d.checkLeaf → d.lane ∈ (z.decideDispute e c w d item).fences.lanes) ∧
      (d.refLeaf ≠ d.leaf → d.refLeaf ≠ d.checkLeaf → d.lane ∈ (z.decideDispute e c w d item).fences.lanes ∧
        d.checkLane ∈ (z.decideDispute e c w d item).fences.lanes ∧ (z.decideDispute e c w d item).worked e w.frame
          (fun y => { score := d.score, entity := d.entity, status := 3 } ∈ y.marked)) := by
  unfold Za.decideDispute
  by_cases hlane : d.refLeaf = d.leaf
  · rw [if_pos hlane]
    obtain ⟨hy, hl⟩ := z.laneFault_fenced c w item d d.checkLane 1
    generalize z.laneFault c w item d d.checkLane 1 = y at hy hl
    obtain ⟨hbooks, hworks⟩ := y.recheck_keeps d.checkLane
    obtain ⟨hctxs, hregs, hfences⟩ := Za.heldBooks_eq hbooks
    exact ⟨⟨hctxs.trans hy.ctxs, hregs.trans hy.regs, .trans (.of_works hy.works) hworks⟩, fun _ => hfences ▸ hl,
      fun h => absurd hlane h, fun h => absurd hlane h⟩
  by_cases hcheck : d.refLeaf = d.checkLeaf
  · rw [if_neg hlane, if_pos hcheck]
    obtain ⟨hy, hl⟩ := z.laneFault_fenced c w item d d.lane 1
    generalize z.laneFault c w item d d.lane 1 = y at hy hl
    obtain ⟨hbooks, hworks⟩ := y.recheck_keeps d.lane
    obtain ⟨hbooks', hworks'⟩ := (y.recheck d.lane).rescoreLane_keeps d.lane
    obtain ⟨hctxs, hregs, hfences⟩ := Za.heldBooks_eq (hbooks.trans hbooks')
    exact ⟨⟨hctxs.trans hy.ctxs, hregs.trans hy.regs, .trans (.of_works hy.works) (hworks.trans hworks')⟩,
      fun h => absurd h hlane, fun _ _ => hfences ▸ hl, fun _ h => absurd hcheck h⟩
  · rw [if_neg hlane, if_neg hcheck]
    obtain ⟨hy, hl⟩ := z.laneFault_fenced c w item d d.lane (1 + 2 ^ 6)
    obtain ⟨hy', hl'⟩ := (z.laneFault c w item d d.lane (1 + 2 ^ 6)).laneFault_fenced c w item d d.checkLane (1 + 2 ^ 6)
    have hboth := hy'.lanes _ hl
    have hall := hy.trans hy'
    generalize (z.laneFault c w item d d.lane (1 + 2 ^ 6)).laneFault c w item d d.checkLane (1 + 2 ^ 6) = y at hl' hboth hall
    have hmark := Za.modWork_keepsWorks (g := FrameWork.disputes) y e w.frame fun v => v.mark_keeps d.score d.entity 3
    have hmem := Za.mem_modWork (z := y) (fun v => v.mark d.score d.entity 3) (hall.works ▸ hv) he hf
    have hquads : (y.modWork e w.frame (fun v => v.mark d.score d.entity 3)).Fenced (List.foldl Za.ensQuadrant
        ((y.modWork e w.frame (fun y => y.mark d.score d.entity 3)).count (.ens .unscoredSplit e))
        ([d.lane / 1024, d.checkLane / 1024].eraseDups)) :=
      .trans (.of_reports (Za.count_reports _ _ _)) (.foldl (fun x q => x.ensQuadrant_fenced q) _ _)
    refine ⟨⟨hquads.ctxs.trans hall.ctxs, hquads.regs.trans hall.regs,
      .trans (.of_works hall.works) (hmark.trans (.of_works hquads.works))⟩, fun h => absurd h hlane, fun _ h => absurd h hcheck,
      fun _ _ => ⟨hquads.lanes _ hboth, hquads.lanes _ hl', v.mark d.score d.entity 3, hquads.works ▸ hmem, he, hf, ?_⟩⟩
    exact List.mem_append_right _ List.mem_cons_self

/-! ### Batches (R289 to R294). -/

/-- A batch's operations leave its rows. -/
theorem Batch.run_rows (img : List W) (plan : List (List W)) (b : Batch) (o : PrgOp) : (Batch.run img plan b o).rows = b.rows := by
  unfold Batch.run
  extract_lets x y rows
  split <;> rfl

theorem Za.batchOf_rows (z : Za) (e : Nat) (c : Ctx) (w : FrameWork) (s : Sec) (called : List Sec) (rows : List FeatRow) :
    (z.batchOf e c w s called rows).1.rows = rows :=
  List.foldlRecOn (motive := fun b : Batch => b.rows = rows) (prgAll s.words) _ rfl fun _ hb o _ => (Batch.run_rows _ _ _ o).trans hb

/-- A PRE batch's values written for its frame, and the batch noted. -/
def Za.putPre (z : Za) (dom : Nat → Nat → Nat) (e : Nat) (w : FrameWork) (score j cost : Nat) (b : Batch) : Za :=
  (b.ext.foldl (fun (z : Za) (x : W × Nat × List W) => z.writeExternal dom e w.frame x.1 x.2.1 x.2.2) z).modWork e w.frame
    (fun y => { y with preDone := y.preDone ++ [(score, j)], marginal := y.marginal + cost })

/-- A POST batch noted with its scores. -/
def Za.putPost (z : Za) (e : Nat) (w : FrameWork) (s : Sec) (score j cost : Nat) (out : List Score) : Za :=
  (z.count (.ten .nanOut e) (out.map (·.nan)).sum).modWork e w.frame (fun y => { y with
    batches := y.batches ++ [(score, j)], scores := y.scores ++ out, marginal := y.marginal + cost
    rows := modWhere y.rows (fun r => r.tile == s.tile && decide (r.entity / 64 = j)) (fun r => { r with taken := true }) })

/-- The books that a batch leaves. -/
def Za.batchBooks (z : Za) : List (Nat × Ctx) × Fences × List FrameWork := (z.ctxs, z.fences, z.works)

theorem Za.batchBooks_eq {z x : Za} (h : z.Same Za.batchBooks x) : x.ctxs = z.ctxs ∧ x.fences = z.fences ∧ x.works = z.works := by
  unfold Za.Same Za.batchBooks at h
  rw [Prod.mk.injEq, Prod.mk.injEq] at h
  exact h

theorem Za.keepStates_same (z : Za) (e : Nat) (s : Sec) (frame : Nat) (rows : List FeatRow) (st : List (List W)) :
    z.Same Za.batchBooks (z.keepStates e s frame rows st) := by
  unfold Za.keepStates
  refine .foldl (fun x p => ?_) _ z
  rfl

/-- The rows of a batch: those of its kind of entity and its 64 places. -/
def FrameWork.batchRows (w : FrameWork) (s : Sec) (j : Nat) : List FeatRow :=
  w.rows.filter (fun r => r.tile == s.tile && decide (r.entity / 64 = j))

/-- A batch that is ready runs over its valid rows. -/
theorem Za.programBatch_runs {z : Za} {e score j tile : Nat} {w : FrameWork} {s : Sec} (dom : Nat → Nat → Nat)
    (h : z.batchReady e score j tile w s)
    (hdone : (if prgPre s.words then w.preDone.contains (score, j) else w.batches.contains (score, j)) = false)
    (hpost : (prgPre s.words || ((programs (z.secs w) true).all (fun p => p.tile != s.tile || w.preDone.contains (p.score, j)) &&
      w.callsReady ((walked (z.secs w)).filter (fun x => x.slot == s.slot && s.calls.contains x.idx))
        ((w.batchRows s j).filter (·.valid)))) = true) :
    ∃ (y : Za) (b : Batch) (cost : Nat), z.Same Za.batchBooks y ∧
      b.rows = sortBy (fun (x : FeatRow) => x.entity) ((w.batchRows s j).filter (·.valid)) ∧
      z.programBatch dom e score j tile false = if prgPre s.words then y.putPre dom e w score j cost b
        else y.putPost e w s score j cost (emitScores w s b ((w.batchRows s j).filter (fun x => !x.valid))) := by
  obtain ⟨c, hc⟩ := Option.isSome_iff_exists.1 h.held
  obtain ⟨i, hi, hij⟩ := h.some_
  have hwant : 0 < ((List.range (w.view.entities s.tile).length).filter (fun i => decide (i / 64 = j))).length :=
    List.length_pos_of_mem (List.mem_filter.2 ⟨List.mem_range.2 hi, decide_eq_true hij⟩)
  have htile : z.tileLive tile = true := (Bool.and_eq_true_iff.1 h.holds).1
  have hinj : z.injectionAt 0x03 tile = none := by
    unfold Za.injectionAt
    rw [h.quiet]
    rfl
  generalize hres : z.programBatch dom e score j tile false = x
  unfold Za.programBatch at hres
  rw [h.work, hc] at hres
  dsimp -zeta only at hres
  extract_lets ss inj y0 y1 at hres
  rw [show ss = z.secs w from rfl, h.sect] at hres
  dsimp -zeta only at hres
  extract_lets pre mine want good called done ready r b cost y2 y3 y4 out y5 at hres
  have hready : ready = true := by
    change (decide (0 < want) && decide (mine.length = want) && !done && z.enginesRun && !w.scored && z.tileHolds e s tile && _) = true
    rw [decide_eq_true (show 0 < want from hwant), decide_eq_true (show mine.length = want from h.rows), show done = false from hdone, h.on,
      h.open_, h.holds]
    exact hpost
  have hnone : inj = none := hinj
  clear_value inj
  subst hnone
  have hy : y1 = z := if_neg Bool.false_ne_true
  clear_value y1
  subst hy
  rw [if_neg (by rw [hready]; exact Bool.false_ne_true), if_neg (by rw [htile]; exact Bool.false_ne_true)] at hres
  have hcount : y1.Same Za.batchBooks y2 := rfl
  exact ⟨y3, b, cost, hcount.trans (.ite (Za.keepStates_same y2 _ _ _ _ _) (.refl y2)), Za.batchOf_rows _ _ _ _ _ _ _, hres.symm⟩

/-- What programs have made of a work: batches done and scores. -/
def FrameWork.made (w : FrameWork) : List (Nat × Nat) × List (Nat × Nat) × List Score := (w.preDone, w.batches, w.scores)

theorem Za.writeExternal_keeps (z : Za) (dom : Nat → Nat → Nat) (e f : Nat) (key : W) (first : Nat) (ws : List W) :
    z.Same (fun y => (y.ctxs, y.fences)) (z.writeExternal dom e f key first ws) ∧
      z.KeepsWorks FrameWork.made (z.writeExternal dom e f key first ws) := by
  unfold Za.writeExternal
  split
  · exact ⟨.refl z, .refl z⟩
  · extract_lets tile plan new kept w' y
    have hy : z.KeepsWorks FrameWork.made y := z.modWork_keepsWorks e f fun _ => ⟨rfl, rfl, rfl⟩
    split
    · exact ⟨rfl, .of_works rfl⟩
    · split
      · extract_lets pairs v
        exact ⟨rfl, hy.trans (.trans (b := v) (y.modWork_keepsWorks e f fun _ => ⟨rfl, rfl, rfl⟩) (.of_works rfl))⟩
      · exact ⟨rfl, hy⟩

theorem Za.putPre_worked {z : Za} {e : Nat} {w : FrameWork} (dom : Nat → Nat → Nat) (score j cost : Nat) (b : Batch) (hw : w ∈ z.works)
    (he : w.entry = e) :
    z.Same (fun y => (y.ctxs, y.fences)) (z.putPre dom e w score j cost b) ∧
      (z.putPre dom e w score j cost b).worked e w.frame (fun y =>
        y.preDone = w.preDone ++ [(score, j)] ∧ y.batches = w.batches ∧ y.scores = w.scores) := by
  unfold Za.putPre
  have hsame : z.Same (fun y => (y.ctxs, y.fences)) (b.ext.foldl
      (fun (z : Za) (x : W × Nat × List W) => z.writeExternal dom e w.frame x.1 x.2.1 x.2.2) z) :=
    .foldl (fun x a => (x.writeExternal_keeps _ _ _ _ _ _).1) _ z
  have hkeeps : z.KeepsWorks FrameWork.made (b.ext.foldl
      (fun (z : Za) (x : W × Nat × List W) => z.writeExternal dom e w.frame x.1 x.2.1 x.2.2) z) :=
    .foldl (fun x a => (x.writeExternal_keeps _ _ _ _ _ _).2) _ z
  obtain ⟨v, hv, hve, hvf, hmade⟩ := hkeeps w hw
  unfold FrameWork.made at hmade
  rw [Prod.mk.injEq, Prod.mk.injEq] at hmade
  obtain ⟨hpre, hbatches, hscores⟩ := hmade
  exact ⟨hsame, _, Za.mem_modWork _ hv (hve.trans he) hvf, hve.trans he, hvf, by rw [← hpre], hbatches, hscores⟩

theorem Za.putPost_worked {z : Za} {e : Nat} {w : FrameWork} (s : Sec) (score j cost : Nat) (out : List Score) (hw : w ∈ z.works)
    (he : w.entry = e) :
    z.Same (fun y => (y.ctxs, y.fences)) (z.putPost e w s score j cost out) ∧
      (z.putPost e w s score j cost out).worked e w.frame (fun y =>
        y.batches = w.batches ++ [(score, j)] ∧ y.preDone = w.preDone ∧ y.scores = w.scores ++ out) :=
  ⟨rfl, _, Za.mem_modWork (z := z.count (.ten .nanOut e) (out.map (·.nan)).sum) _ hw he rfl, he, rfl, rfl, rfl, rfl⟩

/-! ### The records of a batch (R266, R294). -/

/-- Every row of a batch has its record. -/
theorem emitScores_has {w : FrameWork} {s : Sec} {b : Batch} {rows : List FeatRow} {r : FeatRow} (hr : r ∈ rows)
    (hb : b.rows = sortBy (fun (x : FeatRow) => x.entity) (rows.filter (·.valid))) :
    ∃ x ∈ emitScores w s b (rows.filter (fun x => !x.valid)), x.index = s.score ∧ x.key = r.key ∧ x.frame = w.frame ∧
      x.status = (if r.valid then b2n (w.marked.any (fun m => m.score == s.score && m.entity == r.entity && m.status == 1)) else 2) := by
  unfold emitScores
  extract_lets base
  by_cases hv : r.valid = true
  · have hmem : r ∈ b.rows := by
      rw [hb]
      exact ((sortBy_spec _ _).1.mem_iff).2 (List.mem_filter.2 ⟨hr, hv⟩)
    obtain ⟨k, hk, hget⟩ := List.mem_iff_getElem.1 hmem
    have hzip : (k, r) ∈ (List.range b.rows.length).zip b.rows := by
      refine List.mem_iff_getElem.2 ⟨k, by rw [List.length_zip, List.length_range, Nat.min_self]; exact hk, ?_⟩
      rw [List.getElem_zip, List.getElem_range, hget]
    exact ⟨_, List.mem_append_left _ (List.mem_map_of_mem hzip), rfl, rfl, rfl, (if_pos hv).symm⟩
  · refine ⟨base r, List.mem_append_right _ (List.mem_map_of_mem (List.mem_filter.2 ⟨hr, ?_⟩)), rfl, rfl, rfl, (if_neg hv).symm⟩
    rw [Bool.not_eq_true] at hv
    rw [hv]
    rfl

/-! ### Release (R263, R266). -/

/-- A record of a slot held back, late. -/
def Score.held (w : FrameWork) (s : Score) : Score :=
  if w.withheld.any (fun (x : Nat × Nat) => x.1 == s.index / 16 && x.2 == 1) = true ∧ s.status ≤ 1 then { s with status := 5 } else s

/-- The records of a frame as they are released. -/
def Za.releasedScores (z : Za) (w : FrameWork) : List Score :=
  ((((z.secs w).filter (fun s => s.kind == 1 && s.direct)).flatMap (fun s =>
    ((List.range (w.view.entities s.tile).length).zip (w.view.entities s.tile)).map (fun (p : Nat × Entity) =>
      z.ensScore w s p.1 p.2.key))) ++ w.scores).map (Score.held w)

theorem Za.scoringComplete_eq {z : Za} {e : Nat} {w : FrameWork} (hw : z.scoring e = some w) (hdone : z.frameDone w = true)
    (hheld : ∀ x ∈ w.withheld, x.2 ≠ 0) (hrun : z.enginesRun = true) :
    ∃ y : Za, (z.modWork e w.frame (fun y => { y with scores := z.releasedScores w, scored := true })).Reports y ∧
      z.scoringComplete e = y := by
  have hfree : w.withheld.any (fun (x : Nat × Nat) => x.2 == 0) = false :=
    List.any_eq_false.2 fun x hx => by rw [beq_iff_eq]; exact hheld x hx
  unfold Za.scoringComplete
  rw [hw]
  dsimp only
  rw [hdone, hfree, hrun, if_neg (by decide)]
  refine ⟨_, ?_, rfl⟩
  exact .trans (Za.count_reports _ _ _) (.foldl (fun x s => x.toSubscribers_reports _ _ _ _ _) _ _)

/-- Every entity that a direct ensemble scores has its record among those released. -/
theorem Za.releasedScores_has {z : Za} {w : FrameWork} {s : Sec} {i : Nat} {n : Entity} (hs : s ∈ z.secs w) (hkind : s.kind = 1)
    (hdirect : s.direct = true) (hn : (w.view.entities s.tile)[i]? = some n) :
    ∃ x ∈ z.releasedScores w, x.index = s.score ∧ x.entity = i ∧ x.key = n.key ∧ x.frame = w.frame ∧
      x.out = (z.ensScore w s i n.key).out := by
  obtain ⟨hi, hget⟩ := List.getElem?_eq_some_iff.1 hn
  have hzip : (i, n) ∈ (List.range (w.view.entities s.tile).length).zip (w.view.entities s.tile) := by
    refine List.mem_iff_getElem.2 ⟨i, by rw [List.length_zip, List.length_range, Nat.min_self]; exact hi, ?_⟩
    rw [List.getElem_zip, List.getElem_range, hget]
  have hsec : s ∈ (z.secs w).filter (fun s => s.kind == 1 && s.direct) := List.mem_filter.2 ⟨hs, by rw [hkind, hdirect]; rfl⟩
  refine ⟨Score.held w (z.ensScore w s i n.key), List.mem_map_of_mem (List.mem_append_left _
    (List.mem_flatMap.2 ⟨s, hsec, List.mem_map.2 ⟨(i, n), hzip, rfl⟩⟩)), ?_⟩
  unfold Score.held
  split <;> exact ⟨rfl, rfl, rfl, rfl, rfl⟩

/-- Settles O51: each row writes one thing in its work, and what it counts or reports beside it leaves works and contexts. -/
theorem rowsAndItemsAreScored : Obligations.RowsAndItemsAreScored := by
  unfold Obligations.RowsAndItemsAreScored
  refine ⟨?row, ?lateRow, ?item, ?check, ?arbitration, ?pre, ?post, ?release⟩
  case row =>
    intro s entry tile index w n hw hn hplan hrow hrun hlocal hfinals
    obtain ⟨hmem, hentry⟩ := Za.mem_of_work hw
    have hin : w.finalsIn (w.view.featPlan tile) n = true :=
      Bool.or_eq_true_iff.2 (Or.inr (List.all_eq_true.2 hfinals))
    have heq := Za.featureRow_eq s.cellDom hw hn hplan hrow hrun hlocal (Or.inl hin) s.za (if_pos hin)
    obtain ⟨y, hy, he, hf, hcontribs, hitems, hrows⟩ :=
      Za.putRow_worked (w.makeRow (s.za.featEnv s.cellDom entry.val w) (w.view.featPlan tile) n index) hmem hentry
    obtain ⟨hctxs, hdies, htime⟩ :=
      s.za.putRow_books entry.val w (w.makeRow (s.za.featEnv s.cellDom entry.val w) (w.view.featPlan tile) n index)
    exact ⟨_, .of_row (g := fun z => z.featureRow s.cellDom entry.val tile index) rfl heq, hctxs, hdies, htime,
      y, hy, he, hf, hcontribs, hitems, hrows⟩
  case lateRow =>
    intro s entry tile index w n hw hn hplan hrow hrun hlocal hmissing hbegun hdue
    obtain ⟨hmem, hentry⟩ := Za.mem_of_work hw
    obtain ⟨i, hi, hnone⟩ := hmissing
    have hout : ¬ w.finalsIn (w.view.featPlan tile) n = true := fun h => by
      rcases Bool.or_eq_true_iff.1 h with h0 | hall
      · exact hbegun (beq_iff_eq.1 h0)
      · have := List.all_eq_true.1 hall i hi
        rw [hnone] at this
        exact Bool.false_ne_true this
    obtain ⟨time, huntil, -⟩ := Za.untilNs_due hdue
    have heq := Za.featureRow_eq s.cellDom hw hn hplan hrow hrun hlocal (Or.inr hdue) { s.za with time } ((if_neg hout).trans huntil)
    obtain ⟨y, hy, he, hf, hcontribs, -, hrows⟩ := Za.putRow_worked (z := { s.za with time })
      (w.makeRow (Za.featEnv { s.za with time } s.cellDom entry.val w) (w.view.featPlan tile) n index) hmem hentry
    refine ⟨_, _, .of_row (g := fun z => z.featureRow s.cellDom entry.val tile index) rfl heq, rfl, rfl, ?_, rfl, rfl,
      y, hy, he, hf, hcontribs, hrows⟩
    exact Bool.or_eq_true_iff.2 (Or.inr (List.any_eq_true.2 ⟨i, hi, by rw [hnone]; rfl⟩))
  case item =>
    intro s entry score entity tree lane u w sec row h hitem hdue
    obtain ⟨c, hc⟩ := Option.isSome_iff_exists.1 h.held
    obtain ⟨hmem, hentry⟩ := Za.scoring_works h.work
    have heq := (Za.ensembleItem_ready u h hc).1 hitem hdue
    rw [hentry]
    obtain ⟨hworked, hctxs, hfences⟩ := Za.putItem_worked sec ((walkTree sec.words row.values tree).upset sec.words u.primary)
      (itemOf score.val entity tree lane.val ((walkTree sec.words row.values tree).upset sec.words u.primary)) hmem hentry
    exact ⟨_, _, .of_row (g := fun z => z.ensembleItem entry.val score.val entity tree lane.val u) rfl heq, rfl, rfl, rfl, rfl, rfl,
      rfl, rfl, hctxs, hfences, hworked⟩
  case check =>
    intro s entry score entity tree l lane u w sec row x h hitem hdue hlane hl hinj hu h1 h2 h3 h4
    obtain ⟨c, hc⟩ := Option.isSome_iff_exists.1 h.held
    obtain ⟨hmem, hentry⟩ := Za.scoring_works h.work
    have heq := (Za.ensembleItem_ready u h hc).2 x hitem hdue hlane
    obtain ⟨y, lanePass, hy, hcheck⟩ := Za.checkItem_agrees (e := entry.val) (c := c) (w := w) (s := sec) hl hinj hu ⟨h1, h2, h3, h4⟩
    have hkey := List.find?_some (p := fun (x : ItemDone) => x.score == score.val && x.entity == entity && x.tree == tree) hitem
    rw [Bool.and_eq_true, Bool.and_eq_true, beq_iff_eq, beq_iff_eq, beq_iff_eq] at hkey
    rw [hentry]
    have hlanes : y.fences.lanes = s.za.fences.lanes := congrArg Fences.lanes hy.fences
    refine ⟨_, .of_row (g := fun z => z.ensembleItem entry.val score.val entity tree lane.val u) rfl (heq.trans hcheck), hy.ctxs,
      hlanes, _, Za.mem_modWork _ (hy.works ▸ hmem) hentry rfl, hentry, rfl, rfl,
      { x with checkLane := some l }, ?_, rfl, rfl, hkey.2, rfl, rfl⟩
    exact mem_modWhere (List.mem_of_find?_eq_some hitem) (by rw [beq_self_eq_true, beq_self_eq_true, beq_self_eq_true]; rfl)
  case arbitration =>
    intro s entry w d rest hw hc hd hrun hl hcl
    obtain ⟨c, hc⟩ := Option.isSome_iff_exists.1 hc
    obtain ⟨hmem, hentry⟩ := Za.scoring_works hw
    obtain ⟨item, heq⟩ := Za.arbitrate_eq hw hc hd hrun hl hcl
    have hmem' := Za.mem_modWork (z := s.za) (fun y => { y with disputes := rest }) hmem hentry rfl
    obtain ⟨hdecided, hfirst, hsecond, hthird⟩ := Za.decideDispute_fences (c := c) (w := w) (d := d) (item := item)
      (z := (s.za.modWork entry.val w.frame (fun y => { y with disputes := rest })).count (.ens .arbitrated entry.val)) hmem' hentry rfl
    rw [hentry]
    exact ⟨_, .of_row (g := fun z => z.arbitrate entry.val) rfl heq, hdecided.ctxs, hdecided.regs,
      hdecided.works.worked hmem' hentry rfl fun _ h => h, hfirst, hsecond, hthird⟩
  case pre =>
    intro s entry score j tile w sec h hpre hnew
    obtain ⟨hmem, hentry⟩ := Za.mem_of_work h.work
    obtain ⟨y, b, cost, hy, -, heq⟩ := Za.programBatch_runs s.cellDom h
      (by rw [if_pos hpre]; exact Bool.eq_false_iff.2 fun hc => hnew (List.contains_iff_mem.1 hc)) (by rw [hpre]; rfl)
    rw [if_pos hpre] at heq
    obtain ⟨hctxs, hfences, hworks⟩ := Za.batchBooks_eq hy
    obtain ⟨hsame, hworked⟩ := Za.putPre_worked s.cellDom score.val j cost b (hworks ▸ hmem) hentry
    exact ⟨_, .of_row (g := fun z => z.programBatch s.cellDom entry.val score.val j tile.val false) rfl heq,
      (congrArg Prod.fst hsame).trans hctxs, (congrArg Prod.snd hsame).trans hfences, hworked⟩
  case post =>
    intro s entry score j tile w sec h hpre hnew hpres hcalls
    obtain ⟨hmem, hentry⟩ := Za.mem_of_work h.work
    have hall : (programs (s.za.secs w) true).all (fun p => p.tile != sec.tile || w.preDone.contains (p.score, j)) = true :=
      List.all_eq_true.2 fun p hp => by
        by_cases ht : p.tile = sec.tile
        · rw [List.contains_iff_mem.2 (hpres p hp ht), Bool.or_true]
        · rw [bne_iff_ne.2 ht, Bool.true_or]
    obtain ⟨y, b, cost, hy, hrows, heq⟩ := Za.programBatch_runs s.cellDom h
      (by rw [if_neg (by rw [hpre]; exact Bool.false_ne_true)]; exact Bool.eq_false_iff.2 fun hc => hnew (List.contains_iff_mem.1 hc))
      (by rw [hpre, hall, Bool.false_or, Bool.true_and]; exact hcalls)
    rw [if_neg (by rw [hpre]; exact Bool.false_ne_true)] at heq
    obtain ⟨hctxs, hfences, hworks⟩ := Za.batchBooks_eq hy
    obtain ⟨hsame, v, hv, he, hf, hbatches, hpres, hscores⟩ := Za.putPost_worked sec score.val j cost
      (emitScores w sec b ((w.batchRows sec j).filter (fun x => !x.valid))) (hworks ▸ hmem) hentry
    refine ⟨_, .of_row (g := fun z => z.programBatch s.cellDom entry.val score.val j tile.val false) rfl heq,
      (congrArg Prod.fst hsame).trans hctxs, (congrArg Prod.snd hsame).trans hfences, v, hv, he, hf, hbatches, hpres,
      fun r hr htile hj => ?_⟩
    obtain ⟨x, hx, hrest⟩ := emitScores_has (w := w) (s := sec) (b := b) (rows := w.batchRows sec j) (r := r)
      (List.mem_filter.2 ⟨hr, by rw [htile, hj, beq_self_eq_true]; exact decide_eq_true rfl⟩) hrows
    exact ⟨x, hscores ▸ List.mem_append_right _ hx, hrest⟩
  case release =>
    intro s entry w hw hdone hheld hrun
    obtain ⟨hmem, hentry⟩ := Za.scoring_works hw
    obtain ⟨y, hy, heq⟩ := Za.scoringComplete_eq hw hdone hheld hrun
    rw [hentry]
    have hmem' := Za.mem_modWork (z := s.za) (fun y => { y with scores := s.za.releasedScores w, scored := true }) hmem hentry rfl
    rw [← hy.works] at hmem'
    exact ⟨y, .of_row (g := fun z => z.scoringComplete entry.val) rfl heq, hy.ctxs, hy.fences, _, hmem', hentry, rfl, rfl, rfl, rfl,
      fun sec hsec hkind hdirect i n hn => Za.releasedScores_has hsec hkind hdirect hn⟩

end Sys2Proof.Machine
end

section
/-!
PROOFS. Detectors, bands and the parameters of a DTU.
-/
namespace Sys2Proof.Machine

/-! ### What the run of a frame's detectors leaves. -/

/-- The works and the models, which detectors read alone. -/
def Za.stageBooks (z : Za) : List FrameWork × List ModelSlot := (z.works, z.models)

theorem Za.Reports.stageBooks {z x : Za} (h : z.Reports x) : z.Same Za.stageBooks x := by
  unfold Za.Same Za.stageBooks
  rw [h.works, h.models]

theorem Za.postVerdict_stage (z : Za) (e : Nat) (c : Ctx) (key : W) (state action : Nat) (ws : List W) :
    z.Same Za.stageBooks (z.postVerdict e c key state action ws) := by
  unfold Za.postVerdict
  extract_lets y y' y''
  have hy : z.Reports y := z.count_reports _ _
  have hy' : y.Reports y' := y.forwardPut_reports _
  have hy'' : y'.Reports y'' := y'.toSubscribers_reports _ _ _ _ _
  exact (((hy.trans hy').trans hy'').stageBooks).trans (.ite (y''.toAgg_reports _ _ _ _ _ _ _).stageBooks (.refl y''))

theorem Za.relayLong_stage (z : Za) (die : Nat) (op : Opcode) (h : HuskCmd) (handle : W) :
    z.Same Za.stageBooks (z.relayLong die op h handle) := by
  unfold Za.relayLong
  refine .ite ?_ rfl
  obtain ⟨links, nextTag, hrelay⟩ := z.relay_eq die op h handle true
  rw [hrelay]
  rfl

theorem Za.ownLong_stage (z : Za) (die : Nat) (op : Opcode) (p0 p1 : Nat) (payload : List W) (ctx : W) :
    z.Same Za.stageBooks (z.ownLong die op p0 p1 payload ctx) := by
  unfold Za.ownLong
  extract_lets h
  split
  next p hp =>
    obtain ⟨cmds, htake⟩ := Za.take_eq (z1 := p.1) (handle := p.2) hp
    have htaken : z.Same Za.stageBooks p.1 := by rw [htake]; rfl
    exact htaken.trans (p.1.relayLong_stage _ _ _ _)
  · exact .refl z

theorem Za.askFence_stage (z : Za) (u : UnitName) (handle : W) : z.Same Za.stageBooks (z.askFence u handle) := by
  unfold Za.askFence
  extract_lets ask recent y kind
  refine .ite (.ite rfl ?_) ?_
  · exact ((z.raise_reports _ _ _ _ _ _ _).trans (Za.finish_reports _ _ _)).stageBooks
  · unfold Za.commandTo
    refine .trans ?_ (Za.toAgg_reports _ _ _ _ _ _ _ _).stageBooks
    rfl

theorem Za.detAct_stage (z : Za) (e : Nat) (d : List W) (key : W) : z.Same Za.stageBooks (z.detAct e d key) := by
  unfold Za.detAct
  extract_lets die
  split
  · exact (z.ownLong_stage _ _ _ _ _ _).trans (Za.count_reports _ _ _).stageBooks
  · exact (z.askFence_stage _ _).trans (Za.count_reports _ _ _).stageBooks
  · exact .refl z

theorem Za.restartRec_stage (z : Za) (e : Nat) (c : Ctx) (frame cause : Nat) (d : List W) (r : DetRec) (live : Bool) :
    z.Same Za.stageBooks (z.restartRec e c frame cause d r live).1 := by
  unfold Za.restartRec
  extract_lets n y n'
  have hy : z.Same Za.stageBooks y := rfl
  split
  · exact hy.trans (y.postVerdict_stage _ _ _ _ _ _)
  · exact hy

theorem Za.putRec_stage (z : Za) (r : DetRec) : z.Same Za.stageBooks (z.putRec r) := rfl

theorem Za.settleRec_stage (z : Za) (e : Nat) (c : Ctx) (w : FrameWork) (live : Bool) (r : DetRec) :
    z.Same Za.stageBooks (z.settleRec e c w live r) := by
  unfold Za.settleRec
  extract_lets v d t drop y p
  have hdrop : ∀ x : Za, x.Same Za.stageBooks (drop x) := fun x => rfl
  refine .ite (.ite ?_ (hdrop z)) (.ite (.ite ?_ ?_) (.refl z))
  · exact (((hdrop z).trans (y.postVerdict_stage _ _ _ _ _ _))).trans (Za.count_reports _ _ _).stageBooks
  · exact (z.restartRec_stage _ _ _ _ _ _ _).trans (p.1.putRec_stage _)
  · exact (z.restartRec_stage _ _ _ _ _ _ _).trans (hdrop p.1)

theorem Za.observe_stage (z : Za) (e : Nat) (c : Ctx) (w : FrameWork) (v : DetEnv) (live : Bool) (i : Nat) (n : Entity) :
    z.Same Za.stageBooks (z.observe e c w v live i n) := by
  unfold Za.observe
  extract_lets d key r early held input version swapped p y old r' peer few x warming base zv raw out learns finite q after y1 changed
    refresh cause y2 y3 y4 post after' y5 xw zw y6
  have hy : z.Same Za.stageBooks y := by
    change z.Same Za.stageBooks (if swapped = true then z.restartRec e c w.frame 5 d r live else (z, r)).1
    split
    · exact z.restartRec_stage _ _ _ _ _ _ _
    · exact .refl z
  have hy1 : y.Same Za.stageBooks y1 :=
    (((y.count_reports _ _).trans (Za.count_reports _ _ _)).trans (Za.count_reports _ _ _)).stageBooks
  have hy2 : y1.Same Za.stageBooks y2 := (y1.count_reports _ _).stageBooks
  have hy3 : y2.Same Za.stageBooks y3 := .ite (y2.count_reports _ _).stageBooks (.refl y2)
  have hy4 : y3.Same Za.stageBooks y4 := (y3.count_reports _ _).stageBooks
  have hy5 : y4.Same Za.stageBooks y5 := y4.putRec_stage after'
  have hy6 : y5.Same Za.stageBooks y6 := y5.postVerdict_stage _ _ _ _ _ _
  have h5 := ((((hy.trans hy1).trans hy2).trans hy3).trans hy4).trans hy5
  exact h5.trans (.ite (.refl y5) (hy6.trans (.ite (y6.detAct_stage _ _ _) (.refl y6))))

theorem Za.detect_stage (z : Za) (e : Nat) (c : Ctx) (w : FrameWork) (v : DetEnv) (live : Bool) :
    z.Same Za.stageBooks (z.detect e c w v live) := by
  unfold Za.detect
  extract_lets y on passes
  have hy : z.Same Za.stageBooks y := .foldl (fun x r => x.settleRec_stage _ _ _ _ _) _ z
  exact hy.trans (.foldl (fun x (p : Entity × Nat) => x.observe_stage _ _ _ _ _ _ _) passes y)

/-- The run of a frame's detectors ends with the frame noted as judged. -/
theorem Za.detectorRun_worked {z : Za} {e : Nat} {w : FrameWork} {c : Ctx} (hw : z.work e = some w) (hc : z.ctx? e = some c)
    (hscored : w.scored = true) (hdet : w.detected = false) (hrun : z.enginesRun = true) :
    (z.detectorRun e).models = z.models ∧
      (z.detectorRun e).worked e w.frame (fun y => y.detected = true ∧ y.scores = w.scores ∧ y.rows = w.rows) := by
  obtain ⟨hmem, hentry⟩ := Za.mem_of_work hw
  unfold Za.detectorRun
  rw [hw, hc]
  dsimp -zeta only
  rw [hscored, hdet, hrun, if_neg (by decide)]
  extract_lets replay old env y y' now seed
  have hy : y.works = z.works ∧ y.models = z.models := Prod.mk.inj (z.detect_stage e c w env (!replay))
  have hmem' := Za.mem_modWork (z := y) (fun x => { x with detected := true, abandoned := x.abandoned || replay }) (hy.1 ▸ hmem) hentry rfl
  have hend : y'.Same Za.stageBooks (if replay = true then y' else Za.event { y' with seed := seed } c.id c.gen .scoring) := by
    refine .ite (.refl y') ?_
    exact (Za.event_reports { y' with seed := seed } _ _ _ _).stageBooks
  obtain ⟨hworks, hmodels⟩ := Prod.mk.inj hend
  change _ ∈ y'.works at hmem'
  rw [← hworks] at hmem'
  exact ⟨hmodels.trans hy.2, _, hmem', hentry, rfl, rfl, rfl, rfl⟩

/-! ### Band sets (R326). -/

/-- The 256 entries of a band set. -/
def fullBands (entries : List (List W)) : List (List W) :=
  entries.take 256 ++ List.replicate (256 - (entries.take 256).length) [0, 0, 0, 0]

theorem fullBands_length (entries : List (List W)) : (fullBands entries).length = 256 := by
  unfold fullBands
  rw [List.length_append, List.length_replicate, List.length_take]
  omega

/-- The band set of a DTU put into its work. -/
def Za.putBands (z : Za) (e f die : Nat) (entries : List (List W)) : Za :=
  ((z.modWork e f (fun x => { x with bands := x.bands ++ [(die, fullBands entries)] })).count (.det .bandSets e)).count
    (.det .bandTrunc e) (entries.length - 256)

/-- Each DTU in turn has its band set put into the work. -/
theorem Za.foldl_putBands {e : Nat} {w : FrameWork} (entries : Za → Nat → List (List W)) (l done : List Nat) {z : Za}
    (h : z.worked e w.frame (fun y => y.bands.map Prod.fst = done ∧ (∀ b ∈ y.bands, b.2.length = 256) ∧ y.scores = w.scores)) :
    (l.foldl (fun (x : Za) die => x.putBands e w.frame die (entries x die)) z).worked e w.frame (fun y =>
      y.bands.map Prod.fst = done ++ l ∧ (∀ b ∈ y.bands, b.2.length = 256) ∧ y.scores = w.scores) := by
  induction l generalizing z done with
  | nil => rwa [List.append_nil]
  | cons die l ih =>
    rw [List.append_cons]
    refine ih (done ++ [die]) ?_
    obtain ⟨y, hy, he, hf, hdone, hlen, hscores⟩ := h
    refine ⟨_, Za.mem_modWork (fun x => { x with bands := x.bands ++ [(die, fullBands (entries z die))] }) hy he hf, he, hf, ?_, ?_,
      hscores⟩
    · rw [List.map_append, hdone]
      rfl
    · intro b hb
      rcases List.mem_append.1 hb with hb | hb
      · exact hlen b hb
      · rw [List.mem_singleton.1 hb]
        exact fullBands_length _

/-- The band entries of a DTU, detector by detector. -/
def FrameWork.bandEntries (w : FrameWork) (v : DetEnv) (e : Nat) (recs : List DetRec) (die : Nat) : List (List W) :=
  ((detEnabled w.view.plans.det).filter (fun i => detBand (detDesc w.view.plans.det i))).flatMap (fun i =>
    ((w.view.entities (detTile (detDesc w.view.plans.det i))).filter (fun n => n.die == die)).map (fun n =>
      w.bandEntry v (recs.find? (fun r => r.entry == e && r.det == i && r.key == n.key)) (detDesc w.view.plans.det i) n))

theorem Za.bandDerive_eq {z : Za} {e : Nat} {w : FrameWork} {c : Ctx} (hw : z.work e = some w) (hc : z.ctx? e = some c)
    (hdet : w.detected = true) (hnone : w.bands = []) (hrun : z.enginesRun = true) (hcore : 4 ∉ z.fences.cores) :
    z.bandDerive e = (w.view.tray.map (·.die)).foldl (fun (x : Za) die =>
      x.putBands e w.frame die (w.bandEntries (z.detEnv e c) e x.detRecs die)) z := by
  unfold Za.bandDerive
  rw [hw, hc]
  exact if_neg (by rw [hdet, hnone, hrun, Bool.eq_false_iff.2 (fun h => hcore (List.contains_iff_mem.1 h))]; decide)

/-- What a DTU's band set changes: the work it is put into, and counts. -/
theorem Za.bandDerive_worked {z : Za} {e : Nat} {w : FrameWork} {c : Ctx} (hw : z.work e = some w) (hc : z.ctx? e = some c)
    (hdet : w.detected = true) (hnone : w.bands = []) (hrun : z.enginesRun = true) (hcore : 4 ∉ z.fences.cores) :
    z.Same (fun y => (y.ctxs, y.dies, y.detRecs)) (z.bandDerive e) ∧
      (z.bandDerive e).worked e w.frame (fun y => y.bands.map Prod.fst = w.view.tray.map (·.die) ∧
        (∀ b ∈ y.bands, b.2.length = 256) ∧ y.scores = w.scores) := by
  obtain ⟨hmem, hentry⟩ := Za.mem_of_work hw
  rw [Za.bandDerive_eq hw hc hdet hnone hrun hcore]
  refine ⟨.foldl (fun x die => ?_) _ z, ?_⟩
  · rfl
  exact Za.foldl_putBands (fun x die => w.bandEntries (z.detEnv e c) e x.detRecs die) (w.view.tray.map (·.die)) []
    ⟨w, hmem, hentry, rfl, by rw [hnone]; rfl, by rw [hnone]; exact (fun _ h => nomatch h), rfl⟩

/-! ### Parameters to a DTU (R233 to R236). -/

/-- `x` is `z` after frames were queued and the books of DTUs were changed. -/
structure Za.Sends (z x : Za) : Prop where
  queues : z.Queues x
  works : x.works = z.works
  ctxs : x.ctxs = z.ctxs
  regs : x.regs = z.regs

namespace Za.Sends
variable {a b c z x : Za}

theorem refl (z : Za) : z.Sends z := ⟨.refl z, rfl, rfl, rfl⟩

theorem trans (h : a.Sends b) (k : b.Sends c) : a.Sends c :=
  ⟨h.queues.trans k.queues, k.works.trans h.works, k.ctxs.trans h.ctxs, k.regs.trans h.regs⟩

theorem foldl {α : Type} {f : Za → α → Za} (hf : ∀ (z : Za) a, z.Sends (f z a)) (l : List α) (z : Za) : z.Sends (l.foldl f z) :=
  List.foldlRecOn (motive := fun x : Za => z.Sends x) l f (refl z) fun x hx a _ => hx.trans (hf x a)

end Za.Sends

theorem Za.modDie_sends (z : Za) (die : Nat) (f : DieEntry → DieEntry) : z.Sends (z.modDie die f) := ⟨.of_links rfl, rfl, rfl, rfl⟩

theorem Za.toDie_sends (z : Za) (die cls msg ctx gen plen : Nat) (body : List W) : z.Sends (z.toDie die cls msg ctx gen plen body) :=
  have h := z.toDie_reports die cls msg ctx gen plen body
  ⟨z.toDie_queues _ _ _ _ _ _ _, h.works, h.ctxs, h.regs⟩

theorem Za.count_sends (z : Za) (c : ZCnt) (n : Nat) : z.Sends (z.count c n) := ⟨.of_links rfl, rfl, rfl, rfl⟩

theorem Za.paramOut_sends (z : Za) (die kind slot part parts frame base first count : Nat) (c : Ctx) (body : List W) :
    z.Sends (z.paramOut die kind slot part parts frame base first count c body) := z.toDie_sends _ _ _ _ _ _ _

theorem Za.sendAll_sends (e : Nat) (c : Ctx) (frame : Nat) (d : DieEntry) (slot : Nat) (set : List (List W)) (z : Za) :
    z.Sends (Za.sendBands.sendAll e c frame d slot set z) := by
  unfold Za.sendBands.sendAll
  extract_lets part
  have hpart : ∀ (x : Za) (p first n : Nat), x.Sends (part x p first n) := fun x p first n => x.paramOut_sends _ _ _ _ _ _ _ _ _ _ _
  exact (((hpart z 0 0 124).trans (hpart _ 1 124 124)).trans (hpart _ 2 248 8)).trans (Za.count_sends _ _ _)

theorem Za.Queues.mem {z x : Za} (h : z.Queues x) {p : Nat} {q : Queued} (hq : q ∈ (z.link p).queue) : q ∈ (x.link p).queue := by
  obtain ⟨shapers, more, hx⟩ := h p
  rw [hx]
  exact List.mem_append_left _ hq

theorem Za.die_of_die? {z : Za} {die : Nat} {d : DieEntry} (h : z.die? die = some d) : d.die = die :=
  beq_iff_eq.1 (List.find?_some (p := fun (d : DieEntry) => d.die == die) h)

/-- A PARAM frame for a DTU. -/
def Queued.isParam (q : Queued) (die ctx : Nat) : Prop :=
  q.die = some die ∧ q.frame.cls = 4 ∧ q.frame.msg = 1 ∧ q.frame.dest = dtuMac die ∧ q.frame.ctx.toNat = ctx % 65536

/-- A PARAM packet for a DTU that is not held is queued on its link. -/
theorem Za.paramOut_queued {z : Za} {die : Nat} {d : DieEntry} (hd : z.die? die = some d) (hheld : z.isHeld d = false)
    (kind slot part parts frame base first count : Nat) (c : Ctx) (body : List W) :
    ∃ q ∈ ((z.paramOut die kind slot part parts frame base first count c body).link d.link).queue, q.isParam die c.id := by
  unfold Za.paramOut
  extract_lets hdr ws
  unfold Za.toDie
  rw [hd]
  dsimp only
  rw [hheld, if_neg (by simp), Za.enqueue_queue]
  exact ⟨_, List.mem_append_right _ List.mem_cons_self, rfl, rfl, rfl, rfl, BitVec.toNat_ofNat _ _⟩

/-- The band set of a slot leaves in one packet or more. -/
theorem Za.sendBands_queued {z : Za} {die : Nat} {d : DieEntry} (e : Nat) (c : Ctx) (frame slot : Nat) (set : List (List W))
    (hd : z.die? die = some d) (hheld : z.isHeld d = false) :
    z.Sends (z.sendBands e c frame d slot set) ∧
      ∃ q ∈ ((z.sendBands e c frame d slot set).link d.link).queue, q.isParam die c.id := by
  have hdie : d.die = die := Za.die_of_die? hd
  unfold Za.sendBands
  extract_lets held z'
  have hz' : z.Sends z' := z.modDie_sends _ _
  have hd' : z'.die? d.die = some { d with
      sentBands := d.sentBands.filter (fun (s : Nat × Nat × List (List W)) => s.1 != slot) ++ [(slot, frame, set)] } := by
    change (z.modDie d.die _).die? d.die = _
    rw [Za.die?_modDie_same, (congrArg z.die? hdie).trans hd]
    · rfl
    · exact fun _ => rfl
  have hall : ∃ q ∈ ((Za.sendBands.sendAll e c frame d slot set z').link d.link).queue, q.isParam die c.id := by
    unfold Za.sendBands.sendAll
    extract_lets part
    have hpart : ∀ (x : Za) (p first n : Nat), x.Sends (part x p first n) := fun x p first n => x.paramOut_sends _ _ _ _ _ _ _ _ _ _ _
    obtain ⟨q, hq, hparam⟩ := Za.paramOut_queued hd' hheld 0 slot 0 3 frame 0 0 124 c ((set.drop 0).take 124).flatten
    have hrest := ((hpart (part z' 0 0 124) 1 124 124).trans (hpart _ 2 248 8)).trans (Za.count_sends _ (.red .paramFull e) 1)
    exact ⟨q, hrest.queues.mem hq, hdie ▸ hparam⟩
  have hsend : z.Sends (Za.sendBands.sendAll e c frame d slot set z') := hz'.trans (Za.sendAll_sends ..)
  split
  · split
    next last _ _ =>
      obtain ⟨q, hq, hparam⟩ := Za.paramOut_queued hd' hheld 1 slot 0 1 frame last.2.1 0 0 c []
      exact ⟨(hz'.trans (Za.paramOut_sends ..)).trans (Za.count_sends ..), q, hq, hdie ▸ hparam⟩
    · exact ⟨hsend, hall⟩
  · exact ⟨hsend, hall⟩

theorem Za.sendWindow_sends (z : Za) (c : Ctx) (frame : Nat) (d : DieEntry) (slot : Nat) : z.Sends (z.sendWindow c frame d slot) := by
  unfold Za.sendWindow
  split
  · exact .refl z
  · extract_lets now body
    split
    · exact .refl z
    · exact (z.modDie_sends _ _).trans (Za.paramOut_sends ..)

theorem Za.sendCache_sends (z : Za) (e : Nat) (c : Ctx) (frame : Nat) (d : DieEntry) (slot : Nat) :
    z.Sends (z.sendCache e c frame d slot) := by
  unfold Za.sendCache
  extract_lets p y
  have hy : z.Sends y := z.modDie_sends _ _
  exact hy.trans (.foldl (fun x r => (Za.paramOut_sends ..).trans (Za.count_sends ..)) _ y)

/-- Settles O52: the records go by the one step function, and what a stage writes stands in the work of its frame. -/
theorem detectorsJudgeAndReturnBands : Obligations.DetectorsJudgeAndReturnBands := by
  unfold Obligations.DetectorsJudgeAndReturnBands
  refine ⟨fun r d k => ⟨rfl, rfl⟩, ?out, ?inBand, ?detect, ?bands, ?params⟩
  case out =>
    rintro r d high k n rfl
    refine ⟨rfl, rfl, fun h => if_pos h, fun h1 h2 h3 => ?_, fun h1 h2 => ?_⟩
    · exact (if_neg (Nat.not_le.2 h1)).trans (if_pos ⟨h2, h3⟩)
    · exact (if_neg (Nat.not_le.2 h1)).trans (if_neg fun h => Nat.not_le.2 h2 h.1)
  case inBand =>
    intro r d hstate
    have hmarked : r.marked = true := by
      unfold DetRec.marked
      rcases hstate with h | h
      · rw [h]; rfl
      · rw [h]; rfl
    unfold DetRec.step
    rw [if_pos hmarked]
    dsimp only
    refine ⟨?_, fun h1 h2 => ?_, fun h => ?_⟩
    · split <;> rfl
    · rw [if_pos ⟨hmarked, h1, by rw [h2]; rfl⟩]
    · rw [if_neg ?_]
      rintro ⟨-, h1, h2⟩
      rcases h with h | h
      · omega
      · rw [h] at h2
        exact Bool.false_ne_true h2
  case detect =>
    intro s entry w c hw hc hscored hdet hrun
    obtain ⟨hmodels, hworked⟩ := Za.detectorRun_worked hw hc hscored hdet hrun
    obtain ⟨htag, hregs⟩ := s.za.detectorRun_maps entry.val
    exact ⟨s.za.detectorRun entry.val, rfl, hregs, htag, hmodels, hworked⟩
  case bands =>
    intro s entry w c hw hc hdet hnone hrun hcore
    obtain ⟨hsame, hworked⟩ := Za.bandDerive_worked hw hc hdet hnone hrun hcore
    obtain ⟨hctxs, hrest⟩ := Prod.mk.inj hsame
    obtain ⟨hdies, hrecs⟩ := Prod.mk.inj hrest
    exact ⟨s.za.bandDerive entry.val, rfl, hctxs, hdies, hrecs, hworked⟩
  case params =>
    intro s entry die w c d b sl hw hc hd hb hs hnew hadm hfence hheld hrun hlower
    obtain ⟨hmem, hentry⟩ := Za.mem_of_work hw
    have hrow : s.za.paramSend entry.val die.toNat =
        (((s.za.modWork entry.val w.frame (fun x => { x with params := x.params ++ [die.toNat] })).sendBands entry.val c w.frame d
          sl.slot b.2).sendWindow c w.frame d sl.slot).sendCache entry.val c w.frame d sl.slot := by
      unfold Za.paramSend
      rw [hw, hc, hd]
      dsimp only
      rw [hb, hs]
      refine if_neg ?_
      rw [Bool.eq_false_iff.2 (fun h => hnew (List.contains_iff_mem.1 h)), hadm, hfence, hrun, hlower]
      decide
    obtain ⟨hsend, q, hq, hparam⟩ := Za.sendBands_queued (z := s.za.modWork entry.val w.frame (fun x =>
      { x with params := x.params ++ [die.toNat] })) entry.val c w.frame sl.slot b.2 hd hheld
    have hwindow := Za.sendWindow_sends (Za.sendBands (s.za.modWork entry.val w.frame (fun x =>
      { x with params := x.params ++ [die.toNat] })) entry.val c w.frame d sl.slot b.2) c w.frame d sl.slot
    have hrest := hwindow.trans (Za.sendCache_sends _ entry.val c w.frame d sl.slot)
    have hall := hsend.trans hrest
    have hmem' := Za.mem_modWork (z := s.za) (fun x => { x with params := x.params ++ [die.toNat] }) hmem hentry rfl
    rw [← hall.works] at hmem'
    obtain ⟨h1, h2, h3, h4, h5⟩ := hparam
    exact ⟨_, q, .of_row (g := fun z => z.paramSend entry.val die.toNat) rfl hrow, hall.ctxs, hall.regs, hrest.queues.mem hq, h1, h2, h3,
      h4, h5, _, hmem', hentry, rfl, rfl⟩

end Sys2Proof.Machine
end

section
/-!
PROOFS. The steps of a tick leave the time as the tick set it (R198).
-/
namespace Sys2Proof.Machine

/-- Time as it is. -/
abbrev Za.OnTime (z x : Za) : Prop := z.Same Za.time x

theorem Za.Reports.onTime {z x : Za} (h : z.Reports x) : z.OnTime x := h.time
theorem Za.Progresses.onTime {z x : Za} (h : z.Progresses x) : z.OnTime x := h.time
theorem Za.Restarts.onTime {z x : Za} (h : z.Restarts x) : z.OnTime x := h.time
theorem Za.Fenced.onTime {z x : Za} (h : z.Fenced x) : z.OnTime x := h.time

/-! ### Contexts, works and models. -/

theorem Za.modCtx_time (z : Za) (e : Nat) (g : Ctx → Ctx) : z.OnTime (z.modCtx e g) := (z.modCtx_progresses e g).onTime

theorem Za.modWork_time (z : Za) (e f : Nat) (g : FrameWork → FrameWork) : z.OnTime (z.modWork e f g) := rfl

theorem Za.modSlot_time (z : Za) (e s : Nat) (f : ModelSlot → ModelSlot) : z.OnTime (z.modSlot e s f) := rfl

theorem Za.count_time (z : Za) (c : ZCnt) (n : Nat) : z.OnTime (z.count c n) := rfl

theorem Za.finish_time (z : Za) (handle : W) (r : Result) : z.OnTime (z.finish handle r) := (z.finish_reports handle r).onTime

/-! ### Step 1: what came late (R198). -/

theorem Za.absenceRun_time (z : Za) (e : Nat) (c : Ctx) (w : FrameWork) (die : Nat) : z.OnTime (z.absenceRun e c w die) :=
  (Za.books_eq.1 (z.absenceRun_same e c w die)).2.1

theorem Za.judgeRuns_time (z : Za) (w : FrameWork) : z.OnTime (z.judgeRuns w) := by
  unfold Za.judgeRuns
  extract_lets t heights y
  have hy : z.OnTime y := by
    change z.OnTime (match z.ctx? w.entry with | some c => _ | none => z)
    split
    · exact .ite (.refl z) (.foldl (fun x d => x.absenceRun_time _ _ _ _) _ z)
    · exact .refl z
  exact hy.trans (.foldl (fun x h => (x.judgeChild_progresses _ _ _).onTime) heights y)

theorem Za.verdictMissing_time (z : Za) (e frame s : Nat) : z.OnTime (z.verdictMissing e frame s) := by
  unfold Za.verdictMissing
  extract_lets y y'
  have hy' : z.OnTime y' := rfl
  split
  · exact hy'.trans ((y'.count_reports _ _).trans (Za.raiseCtx_reports _ _ _ _ _ _ _ _ _)).onTime
  · exact hy'

theorem Za.markLate_time (z : Za) (w : FrameWork) : z.OnTime (z.markLate w) := by
  unfold Za.markLate
  extract_lets e f waiting y1 y2 y3 y4 y5 y6 y7
  have h1 : z.OnTime y1 := z.judgeRuns_time w
  have h2 : y1.OnTime y2 := (y1.lateItem_progresses _ _ _ _ _).onTime
  have h3 : y2.OnTime y3 := (y2.lateItem_progresses _ _ _ _ _).onTime
  have h4 : y3.OnTime y4 := ((y3.count_reports _ _).trans (Za.count_reports _ _ _)).onTime
  have h5 : y4.OnTime y5 := ((y4.count_reports _ _).trans (Za.count_reports _ _ _)).onTime
  have h6 : y5.OnTime y6 := .foldl (fun x s => x.verdictMissing_time _ _ _) waiting y5
  have h7 : y6.OnTime y7 := y6.modWork_time _ _ _
  exact ((((((h1.trans h2).trans h3).trans h4).trans h5).trans h6).trans h7).trans (y7.progress_progresses e f).onTime

theorem Za.overrun_time (z : Za) (w : FrameWork) : z.OnTime (z.overrun w) := by
  unfold Za.overrun
  split
  · exact .refl z
  · extract_lets runs y
    have hy : z.OnTime y := z.modCtx_time _ _
    exact hy.trans (.foldl (fun x r => (x.raiseCtx_reports _ _ _ _ _ _ _ _).onTime) _ y)

theorem Za.dropReruns_time (z : Za) (w : FrameWork) : z.OnTime (z.dropReruns w) := rfl

theorem Za.stepLate_time (z : Za) : z.OnTime z.stepLate.1 := by
  unfold Za.stepLate
  extract_lets ended y marked y' y''
  have h : z.OnTime y := .foldl (fun x w => x.markLate_time w) ended z
  have h' : y.OnTime y' := .foldl (fun x w => x.overrun_time w) marked y
  have h'' : y'.OnTime y'' := .foldl (fun x w => x.dropReruns_time w) y'.works y'
  exact ((h.trans h').trans h'').trans rfl

/-! ### Step 2: the audit. -/

theorem Za.auditFault_time (z : Za) (a : AuditFail) : z.OnTime (z.auditFault a) := by
  unfold Za.auditFault
  extract_lets key again old y unit f f' f''
  have hy : z.OnTime y := rfl
  exact hy.trans (y.raiseF_reports _ _).onTime

theorem Za.fenceLink_time (z : Za) (p : Nat) (cause : Option FaultKind) : z.OnTime (z.fenceLink p cause) := by
  unfold Za.fenceLink
  refine .ite (.refl z) ?_
  extract_lets old y loss
  have hy : z.OnTime y := rfl
  exact (hy.trans (y.raiseFence_reports _ _ _ _ _ _ _).onTime).trans (Za.linkRestart_restarts _ p).onTime

theorem Za.sendLinkReset_time (z : Za) (p : Nat) (die : Option Nat) (reason : Nat) : z.OnTime (z.sendLinkReset p die reason) := by
  unfold Za.sendLinkReset
  extract_lets y ver frame dst
  have hy : z.OnTime y := rfl
  split
  · exact (hy.trans (y.dieDown_restarts _).onTime).trans (Za.modLink_reports _ _ _).onTime
  · exact (hy.trans (y.linkRestart_restarts p).onTime).trans (Za.modLink_reports _ _ _).onTime

theorem Za.creditFault_time (z : Za) (p : Nat) (die : Option Nat) (c : Nat) : z.OnTime (z.creditFault p die c) := by
  unfold Za.creditFault
  extract_lets q f counts y y' y''
  have hy : z.OnTime y := (z.raiseF_reports _ _).onTime
  have hy' : y.OnTime y' := (y.modLink_reports _ _).onTime
  have hy'' : y'.OnTime y'' := y'.sendLinkReset_time _ _ _
  exact ((hy.trans hy').trans hy'').trans (.ite (y''.fenceLink_time p _) (.refl y''))

theorem Za.stepAudit_time (z : Za) : z.OnTime z.stepAudit.1 := by
  unfold Za.stepAudit Za.auditLinks
  extract_lets fails y y' bad
  have hy : z.OnTime y := rfl
  have hy' : y.OnTime y' := .foldl (fun x a => x.auditFault_time a) fails y
  exact (hy.trans hy').trans (.foldl (fun x (k : Nat × Option Nat × Nat) => x.creditFault_time _ _ _) bad y')

/-! ### Steps 3 to 6: contexts that end, fronts, models and starts. -/

theorem Za.freeCtx_time (z : Za) (e : Nat) (c : Ctx) : z.OnTime (z.freeCtx e c) := by
  unfold Za.freeCtx
  extract_lets y
  have hy : z.OnTime y := rfl
  exact hy.trans (y.finish_time _ _)

theorem Za.tearLoad_time (z : Za) (e : Nat) (m : ModelSlot) : z.OnTime (z.tearLoad e m) := by
  unfold Za.tearLoad
  split
  · exact .ite (.refl z) ((z.modSlot_time _ _ _).trans (Za.finish_time _ _ _))
  · exact .refl z

theorem Za.drainCtx_time (z : Za) (e d : Nat) (c : Ctx) : z.OnTime (z.drainCtx e d c) := by
  unfold Za.drainCtx
  extract_lets mine on y1 y2 late y3 y4
  have h1 : z.OnTime y1 := (z.finishWhere_reports _ _ _).onTime
  have h2 : y1.OnTime y2 := .ite (y1.finish_time _ _) (.refl y1)
  have h3 : y2.OnTime y3 := .foldl (fun x h => x.finish_time _ _) late y2
  have h4 : y3.OnTime y4 := .foldl (fun x m => x.tearLoad_time e m) _ y3
  exact (((h1.trans h2).trans h3).trans h4).trans (y4.modCtx_time _ _)

theorem Za.stepDrain_time (z : Za) : z.OnTime z.stepDrain := by
  unfold Za.stepDrain
  extract_lets n
  refine .foldl (fun x p => ?_) _ z
  split
  · exact x.modCtx_time _ _
  · exact .refl x
  · exact .ite (x.drainCtx_time _ _ _) (.refl x)
  · exact .refl x

theorem Za.swapNow_time (z : Za) (e s : Nat) (m : ModelSlot) (a : ModelArea) : z.OnTime (z.swapNow e s m a) := by
  unfold Za.swapNow
  extract_lets old retire now y keep
  have hy : z.OnTime y := rfl
  have hy' : y.OnTime (Za.count { y with progState := y.progState.filter keep } (.ten .swaps e)) := rfl
  exact (hy.trans hy').trans (Za.finish_time _ _ _)

theorem Za.swapSlot_time (z : Za) (e : Nat) (c : Ctx) (m : ModelSlot) : z.OnTime (z.swapSlot e c m) := by
  unfold Za.swapSlot
  split
  · exact .refl z
  · refine .ite (.refl z) (.ite (z.swapNow_time _ _ _ _) (.ite (.refl z) ?_))
    extract_lets y
    have hy : z.OnTime y := rfl
    exact hy.trans ((y.count_reports _ _).trans (Za.raiseCtx_reports _ _ _ _ _ _ _ _ _)).onTime

theorem Za.unspill_time (z : Za) (e : Nat) : z.OnTime (z.unspill e) := by
  unfold Za.unspill
  refine .foldl (fun x m => ?_) _ z
  extract_lets one
  have hone : ∀ (y : Za) get put, y.OnTime (one y get put) := fun y get put => by
    change y.OnTime (match (y.slot? e m.slot).bind get with | some a => _ | none => y)
    split
    · exact y.modSlot_time _ _ _
    · exact .refl y
  clear_value one
  refine Za.Same.trans (b := one x (·.cur) fun x a => { x with cur := a }) ?_ ?_
  · exact hone _ _ _
  · exact hone _ _ _

theorem Za.frontCtx_time (z : Za) (e : Nat) (c : Ctx) : z.OnTime (z.frontCtx e c) := by
  unfold Za.frontCtx
  extract_lets n due isFront y1 y2 y3
  have h1 : z.OnTime y1 := z.modCtx_time _ _
  have h2 : y1.OnTime y2 := .foldl (fun x h => x.finish_time _ _) due y1
  have h3 : y2.OnTime y3 := .foldl (fun x m => x.swapSlot_time _ _ _) _ y2
  exact ((h1.trans h2).trans h3).trans (.ite ((y3.unspill_time e).trans (Za.event_reports _ _ _ _ _).onTime) (.refl y3))

theorem Za.startCtx_time (z : Za) (e : Nat) (c : Ctx) : z.OnTime (z.startCtx e c) :=
  .ite ((z.modCtx_time _ _).trans (Za.finish_time _ _ _)) (.refl z)

/-! ### Links and dies. -/

theorem Za.turnLinks_time (z : Za) : z.OnTime z.turnLinks := by
  unfold Za.turnLinks
  extract_lets ctl red used
  refine .foldl (fun x p => ?_) used z
  exact (x.modLink_reports _ _).onTime.trans (.foldl (fun y r => (y.raise_reports _ _ _ _ _ _ _).onTime) _ _)

theorem Za.relay_time (z : Za) (die : Nat) (op : Opcode) (h : HuskCmd) (handle : W) (cache : Bool) :
    z.OnTime (z.relay die op h handle cache) := by
  obtain ⟨links, nextTag, hrelay⟩ := z.relay_eq die op h handle cache
  rw [hrelay]
  rfl

theorem Za.ownWrite_time (z : Za) (die addr : Nat) (ws : List W) : z.OnTime (z.ownWrite die addr ws) := z.relay_time _ _ _ _ _

theorem Za.modDie_time (z : Za) (die : Nat) (f : DieEntry → DieEntry) : z.OnTime (z.modDie die f) := rfl

theorem Za.setCluster_time (z : Za) (die c : Nat) (on : Bool) (cause : Nat) : z.OnTime (z.setCluster die c on cause) := by
  unfold Za.setCluster
  split
  · exact .refl z
  · extract_lets had y y'
    have hy : z.OnTime y := rfl
    have hy' : y.OnTime y' := y.ownWrite_time _ _ _
    exact (hy.trans hy').trans (.ite (y'.raiseFence_reports _ _ _ _ _ _ _).onTime (.refl y'))

theorem Za.fenceDie_time (z : Za) (die cause frame : Nat) : z.OnTime (z.fenceDie die cause frame) := by
  unfold Za.fenceDie
  split
  · exact .refl z
  · refine .ite (.refl z) ?_
    extract_lets loss y
    have hy : z.OnTime y := rfl
    exact hy.trans (y.raiseFence_reports _ _ _ _ _ _ _).onTime

theorem Za.liftOwn_time (z : Za) (u : UnitName) : z.OnTime (z.liftOwn u) := by
  unfold Za.liftOwn
  extract_lets f f'
  exact .trans (b := { z with fences := f' }) rfl (Za.checkLoss_fenced _).onTime

theorem Za.carryOut_time (z : Za) : z.OnTime z.carryOut := by
  unfold Za.carryOut
  extract_lets due y
  have hy : z.OnTime y := rfl
  refine hy.trans (.foldl (fun x a => ?_) due y)
  dsimp only
  split
  · exact x.finish_time _ _
  · exact (x.setCluster_time _ _ _ _).trans rfl
  · exact (x.fenceDie_time _ _ _).trans (Za.finish_time _ _ _)
  · exact (x.liftOwn_time _).trans (Za.finish_time _ _ _)

theorem Za.writeSlot_time (z : Za) (die : Nat) (x : Nat × Nat) : z.OnTime (z.writeSlot die x) := by
  unfold Za.writeSlot
  split
  · exact .refl z
  · refine .ite ?_ (.refl z)
    exact ((z.ownWrite_time _ _ _).trans (Za.ownWrite_time _ _ _ _)).trans (Za.modDie_time _ _ _)

theorem Za.turnDies_time (z : Za) : z.OnTime z.turnDies := by
  unfold Za.turnDies
  extract_lets turn y
  have hy : z.OnTime y := rfl
  refine hy.trans (.foldl (fun x die => ?_) _ y)
  unfold Za.writeSlots
  split
  · exact .refl x
  · exact .foldl (fun v k => v.writeSlot_time _ _) _ x

/-! ### Model copies. -/

theorem Za.startPasses_time (z : Za) : z.OnTime z.startPasses := .ite (.refl z) (.ite rfl rfl)

theorem Za.dropLoad_time (z : Za) (e s : Nat) (r : Result) : z.OnTime (z.dropLoad e s r) :=
  (z.modSlot_time _ _ _).trans (Za.finish_time _ _ _)

theorem Za.askImage_reports (z : Za) (c : Ctx) (slot : Nat) (a : ModelArea) (f : ModelFetch) (offset : Nat) :
    z.Reports (z.askImage c slot a f offset) := by
  unfold Za.askImage
  extract_lets body
  split
  · exact z.toAgg_reports _ _ _ _ _ _ _
  · exact z.toCollectors_reports _ _ _ _ _ _

theorem Za.nextImageSource_time (z : Za) (e s : Nat) : z.OnTime (z.nextImageSource e s) := by
  unfold Za.nextImageSource
  split
  · split
    · exact ((z.count_reports _ _).trans (Za.raiseCtx_reports _ _ _ _ _ _ _ _ _)).onTime.trans (Za.dropLoad_time _ _ _ _)
    · extract_lets f a y
      have hy : z.OnTime y := rfl
      exact (hy.trans (y.modSlot_time _ _ _)).trans (Za.askImage_reports _ _ _ _ _ _).onTime
  · exact .refl z

theorem Za.startRepair_time (z : Za) (e s : Nat) : z.OnTime (z.startRepair e s) := by
  unfold Za.startRepair
  split
  · exact .ite (.refl z) ((z.modSlot_time _ _ _).trans (Za.nextImageSource_time _ _ _))
  · exact .refl z

theorem Za.applyVerdict_time (z : Za) (e s frame outcome : Nat) : z.OnTime (z.applyVerdict e s frame outcome) := by
  unfold Za.applyVerdict
  split
  · split
    · exact .refl z
    · extract_lets expelled rest first y y' y''
      have hy : z.OnTime y' := rfl
      have hy'' : z.OnTime y'' := rfl
      refine .ite (.refl z) (.ite ?_ (.ite (hy''.trans (y''.modSlot_time _ _ _)) hy''))
      exact hy.trans ((y'.count_reports _ _).trans (Za.raiseCtx_reports _ _ _ _ _ _ _ _ _)).onTime
  · exact .refl z

theorem Za.decideReplica_time (z : Za) (r : Replica) : z.OnTime (z.decideReplica r) := by
  unfold Za.decideReplica
  extract_lets y n govern
  have hy : z.OnTime y := rfl
  split
  · extract_lets y' group silent
    have hy' : y.OnTime y' := .ite ((y.count_reports _ _).trans (Za.raiseCtx_reports _ _ _ _ _ _ _ _ _)).onTime (.refl y)
    refine (hy.trans hy').trans (.foldl (fun x k => ?_) _ y')
    extract_lets outcome ws
    exact .ite (x.applyVerdict_time _ _ _ _) (x.toAgg_reports _ _ _ _ _ _ _).onTime
  · exact hy

theorem Za.takeReport_time (z : Za) (e s frame agg value : Nat) (selfFail : Bool) :
    z.OnTime (z.takeReport e s frame agg value selfFail) := by
  unfold Za.takeReport
  split
  · exact .refl z
  · split
    · exact .refl z
    · extract_lets group same old r y
      have hy : z.OnTime y := rfl
      exact .ite (.refl z) (.ite (hy.trans (y.decideReplica_time r)) hy)

theorem Za.reportReplica_time (z : Za) (e : Nat) (c : Ctx) (v : CtxView) (m : ModelSlot) : z.OnTime (z.reportReplica e c v m) := by
  unfold Za.reportReplica
  split
  · exact .refl z
  · refine .ite (.refl z) ?_
    extract_lets value bad y
    have hy : z.OnTime y := rfl
    split
    · exact hy
    · exact .ite (hy.trans (y.takeReport_time _ _ _ _ _ _)) (hy.trans (y.toAgg_reports _ _ _ _ _ _ _).onTime)

/-! ### Step 7 and the books. -/

theorem Za.openPod_time (z : Za) (e : Nat) (c : Ctx) (v : CtxView) (i : Nat) : z.OnTime (z.openPod e c v i) := rfl

theorem Za.beginWork_time (z : Za) (e : Nat) (c : Ctx) (v : CtxView) : z.OnTime (z.beginWork e c v) := by
  unfold Za.beginWork
  extract_lets mine old w w' w'' y
  have hy : z.OnTime y := rfl
  exact (hy.trans (.foldl (fun x i => x.openPod_time _ _ _ _) _ y)).trans (Za.progress_progresses _ _ _).onTime

theorem Za.workCtx_time (z : Za) (e : Nat) (c : Ctx) : z.OnTime (z.workCtx e c) := by
  unfold Za.workCtx
  split
  · exact .refl z
  · exact (z.beginWork_time _ _ _).trans (.foldl (fun x m => x.reportReplica_time _ _ _ _) _ _)

theorem Za.freeStates_time (z : Za) (e : Nat) (c : Ctx) : z.OnTime (z.freeStates e c) := by
  unfold Za.freeStates
  split
  · rfl
  · exact .refl z

theorem Za.stepWork_time (z : Za) : z.OnTime z.stepWork := by
  unfold Za.stepWork
  refine .ite (.foldl (fun x p => x.modCtx_time _ _) _ z) ?_
  extract_lets y y'
  have hy : z.OnTime y := .foldl (fun x p => x.modCtx_time _ _) _ z
  have hy' : y.OnTime y' := .foldl (fun x (p : Nat × Ctx) => x.freeStates_time _ _) _ y
  exact (hy.trans hy').trans (.foldl (fun x p => x.workCtx_time _ _) _ y')

theorem Za.postVerdict_reports (z : Za) (e : Nat) (c : Ctx) (key : W) (state action : Nat) (ws : List W) :
    z.Reports (z.postVerdict e c key state action ws) := by
  unfold Za.postVerdict
  extract_lets y y' y''
  have hy : z.Reports y := z.count_reports _ _
  have hy' : y.Reports y' := y.forwardPut_reports _
  have hy'' : y'.Reports y'' := y'.toSubscribers_reports _ _ _ _ _
  exact ((hy.trans hy').trans hy'').trans (.ite (y''.toAgg_reports _ _ _ _ _ _ _) (.refl y''))

theorem Za.restartRec_reports (z : Za) (e : Nat) (c : Ctx) (frame cause : Nat) (d : List W) (r : DetRec) (live : Bool) :
    z.Reports (z.restartRec e c frame cause d r live).1 := by
  unfold Za.restartRec
  extract_lets n y n'
  have hy : z.Reports y := z.count_reports _ _
  split
  · exact hy.trans (y.postVerdict_reports _ _ _ _ _ _)
  · exact hy

theorem Za.restoreExpire_time (z : Za) : z.OnTime z.restoreExpire := by
  unfold Za.restoreExpire
  extract_lets late y
  have hy : z.OnTime y := rfl
  refine hy.trans (.foldl (fun x n => ?_) _ y)
  dsimp only
  split
  · exact .refl x
  · refine .ite ?_ rfl
    split
    · rfl
    · exact ((x.count_reports _ _).trans (Za.restartRec_reports _ _ _ _ _ _ _ _)).onTime

/-- The steps of a tick before the books are turned. -/
def Za.tickWork (z : Za) : Za :=
  let y := z.sendFaults.stepLate.1.stepAudit.1.turnModels.stepFree.stepDrain.stepFronts.stepTables.stepStarts.turnLinks
  y.carryOut.turnDies.startPasses.replaceTiles.repairs.restoreExpire.stepWork

theorem Za.sendFaults_time (z : Za) : z.OnTime z.sendFaults :=
  .trans (b := { z with faults := [] }) rfl (.foldl (fun x f => (x.sendFault_reports f).onTime) _ _)

theorem Za.turnModels_time (z : Za) : z.OnTime z.turnModels := rfl

theorem Za.stepFree_time (z : Za) : z.OnTime z.stepFree := .foldl (fun x p => x.freeCtx_time _ _) _ z

theorem Za.stepFronts_time (z : Za) : z.OnTime z.stepFronts := .foldl (fun x p => x.frontCtx_time _ _) _ z

theorem Za.stepTables_time (z : Za) : z.OnTime z.stepTables := rfl

theorem Za.stepStarts_time (z : Za) : z.OnTime z.stepStarts := .foldl (fun x p => x.startCtx_time _ _) _ z

theorem Za.replaceTiles_time (z : Za) : z.OnTime z.replaceTiles := .foldl (fun x m => x.modSlot_time _ _ _) _ z

theorem Za.repairs_time (z : Za) : z.OnTime z.repairs := .foldl (fun x m => x.startRepair_time _ _) _ z

/-- Between the issue of a tick and the turn of the books, time stands. -/
theorem Za.tickWork_time (z : Za) : z.OnTime z.tickWork := by
  have h1 := (z.sendFaults_time.trans (Za.stepLate_time _)).trans (Za.stepAudit_time _)
  have h2 := ((h1.trans (Za.turnModels_time _)).trans (Za.stepFree_time _)).trans (Za.stepDrain_time _)
  have h3 := ((h2.trans (Za.stepFronts_time _)).trans (Za.stepTables_time _)).trans (Za.stepStarts_time _)
  have h4 := ((h3.trans (Za.turnLinks_time _)).trans (Za.carryOut_time _)).trans (Za.turnDies_time _)
  have h5 := ((h4.trans (Za.startPasses_time _)).trans (Za.replaceTiles_time _)).trans (Za.repairs_time _)
  exact (h5.trans (Za.restoreExpire_time _)).trans (Za.stepWork_time _)

/-! ### What follows the turn of the books. -/

/-- The books that the tick turns. -/
def Za.turned (z : Za) : List Kept × List ExtValue × Option Nat × TimeUnit := (z.kept, z.externals, z.hailDue, z.time)

theorem Za.Reports.turned {z x : Za} (h : z.Reports x) : z.Same Za.turned x := by
  unfold Za.Same Za.turned
  rw [h.kept, h.time, h.field Za.externals fun _ => rfl, h.field Za.hailDue fun _ => rfl]

theorem Za.stepEchoes_reports (z : Za) : z.Reports z.stepEchoes := by
  unfold Za.stepEchoes
  extract_lets body y
  have hy : z.Reports y := .foldl (fun x p => x.toPeer_reports _ _ _ _ _) _ z
  exact hy.trans (.foldl (fun x die => x.toDie_reports _ _ _ _ _ _ _) _ y)

theorem Za.withSeed_turned (z : Za) (seed : Option SeedPrimary) : z.Same Za.turned { z with seed } := rfl

theorem Za.seedLagCheck_turned (z : Za) : z.Same Za.turned z.seedLagCheck := by
  unfold Za.seedLagCheck
  split
  · exact .refl z
  · exact .ite ((z.withSeed_turned _).trans (Za.raise_reports _ _ _ _ _ _ _ _).turned) (.ite (z.withSeed_turned _) (.refl z))

theorem Za.tickEvents_reports (z : Za) : z.Reports z.tickEvents := .foldl (fun x p => x.event_reports _ _ _ _) _ z

/-- The summary is kept, and the frame's skips and stretches go. -/
theorem Za.summarize_eq (z : Za) (marked : List FrameWork) (audit : List Quantity) :
    ∃ y : Za, y = { z with summary := some (z.summaryOf marked audit), time := { z.time with skipped := 0, stretched := 0 } } ∧
      y.Reports (z.summarize marked audit) :=
  ⟨_, rfl, .foldl (fun x e => x.toSubscribers_reports _ _ _ _ _) _ _⟩

/-- A tick with no step due begins the frame. -/
theorem Za.tick_eq {z : Za} (htick : z.time.ticking = true) (hpow : z.power.powered = true) (hstep : z.time.stepDue = none) :
    z.tick = if Za.running { z with time := z.time.tick z.slewMax zaNominal } then
      Za.tickSteps { z with time := z.time.tick z.slewMax zaNominal } else { z with time := z.time.tick z.slewMax zaNominal } := by
  unfold Za.tick
  rw [htick, hpow, if_neg (by decide), hstep]
  rfl

/-- Time as a tick leaves it. -/
theorem Za.tickTime_eq (z : Za) : (z.time.tick z.slewMax zaNominal).frame = z.time.nextFrame ∧
    (z.time.tick z.slewMax zaNominal).nextFrame = z.time.nextFrame + 1 ∧ (z.time.tick z.slewMax zaNominal).begun = z.time.begun + 1 ∧
    (z.time.tick z.slewMax zaNominal).prevFrame = z.time.frame ∧ (z.time.tick z.slewMax zaNominal).ticking = z.time.ticking := by
  obtain ⟨ftc, residual, hkeep, -⟩ := z.time.reach_eq z.slewMax zaNominal (2 ^ 20 * z.time.nextFrame)
  unfold TimeUnit.tick
  rw [hkeep]
  exact ⟨rfl, rfl, rfl, rfl, rfl⟩

/-- The end of a tick: the books turned, and the summary. -/
def Za.closeTick (z : Za) (marked : List FrameWork) (audit : List Quantity) : Za :=
  z.turnBooks.stepEchoes.seedLagCheck.tickEvents.summarize marked audit

/-- What the end of a tick leaves of time and of the books turned. -/
theorem Za.closeTick_turned (z : Za) (marked : List FrameWork) (audit : List Quantity) :
    (z.closeTick marked audit).summary.isSome = true ∧
    (z.closeTick marked audit).turned = (z.kept.filter (fun k => decide (z.time.begun ≤ k.begun + 64)),
      z.externals.filter (fun x => decide (z.frameNow ≤ x.frame)), some z.frameNow, { z.time with skipped := 0, stretched := 0 }) := by
  have hrun : z.turnBooks.Same Za.turned z.turnBooks.stepEchoes.seedLagCheck.tickEvents :=
    ((Za.stepEchoes_reports _).turned.trans (Za.seedLagCheck_turned _)).trans (Za.tickEvents_reports _).turned
  unfold Za.closeTick
  generalize z.turnBooks.stepEchoes.seedLagCheck.tickEvents = x at hrun
  obtain ⟨y, hy, hend⟩ := x.summarize_eq marked audit
  unfold Za.Same Za.turned at hrun
  rw [Prod.mk.injEq, Prod.mk.injEq, Prod.mk.injEq] at hrun
  obtain ⟨hkept, hext, hhail, htime⟩ := hrun
  refine ⟨?_, ?_⟩
  · rw [hend.field Za.summary fun _ => rfl, hy]
    rfl
  · rw [show (x.summarize marked audit).turned = y.turned from hend.turned, hy]
    unfold Za.turned
    dsimp only
    rw [hkept, hext, hhail, htime]
    rfl

theorem Za.tickSteps_eq (z : Za) : ∃ marked audit, z.tickSteps = z.tickWork.closeTick marked audit :=
  ⟨z.sendFaults.stepLate.2, z.sendFaults.stepLate.1.stepAudit.2, rfl⟩

/-- The steps of a tick: what they leave of time and of the books turned. -/
theorem Za.tickSteps_turned (z : Za) : z.tickSteps.summary.isSome = true ∧
    z.tickSteps.turned = (z.tickWork.kept.filter (fun k => decide (z.time.begun ≤ k.begun + 64)),
      z.tickWork.externals.filter (fun x => decide (z.frameNow ≤ x.frame)), some z.frameNow,
      { z.time with skipped := 0, stretched := 0 }) := by
  have hwork : z.tickWork.time = z.time := z.tickWork_time
  have hframe : z.tickWork.frameNow = z.frameNow := congrArg TimeUnit.frameNow hwork
  obtain ⟨marked, audit, heq⟩ := z.tickSteps_eq
  rw [heq, ← hwork, ← hframe]
  exact z.tickWork.closeTick_turned marked audit

/-- Settles O53: time is set before the steps, which leave it, and the books are turned after them. -/
theorem zaTickBeginsTheFrame : Obligations.ZaTickBeginsTheFrame := by
  unfold Obligations.ZaTickBeginsTheFrame
  refine ⟨?still, ?idle, ?frame⟩
  case still =>
    intro s h
    have htick : s.za.tick = s.za := by
      refine if_pos ?_
      rcases h with h | h
      · exact Or.inl (by rw [h]; rfl)
      · exact Or.inr (by rw [h]; rfl)
    exact ZaBecomes.of_row (g := Za.tick) rfl htick
  case idle =>
    intro s htick hpow hstep hrun
    refine .of_row (g := Za.tick) rfl ((Za.tick_eq htick hpow hstep).trans ?_)
    exact if_neg (by rw [show Za.running { s.za with time := s.za.time.tick s.za.slewMax zaNominal } = false from hrun]; exact Bool.false_ne_true)
  case frame =>
    intro s htick hpow hstep hrun
    refine ⟨_, .of_row (g := Za.tick) rfl ((Za.tick_eq htick hpow hstep).trans (if_pos hrun)), ?_⟩
    obtain ⟨hsummary, hturned⟩ := Za.tickSteps_turned { s.za with time := s.za.time.tick s.za.slewMax zaNominal }
    unfold Za.turned at hturned
    rw [Prod.mk.injEq, Prod.mk.injEq, Prod.mk.injEq] at hturned
    obtain ⟨hkept, hext, hhail, htime⟩ := hturned
    obtain ⟨hframe, hnext, hbegun, hprev, hticking⟩ := s.za.tickTime_eq
    have hnow : Za.frameNow { s.za with time := s.za.time.tick s.za.slewMax zaNominal } = s.za.time.nextFrame := by
      unfold Za.frameNow TimeUnit.frameNow
      exact (if_pos (hticking.trans htick)).trans hframe
    rw [hnow] at hext hhail
    rw [htime, hkept, hext]
    refine ⟨hframe, hnext, hbegun, hprev, hhail, fun k hk => ?_, fun x hx => ?_, hsummary, rfl, rfl⟩
    · exact of_decide_eq_true (List.mem_filter.1 hk).2
    · exact of_decide_eq_true (List.mem_filter.1 hx).2

end Sys2Proof.Machine
end

section
/-!
PROOFS. Replica reports after the tray deadline: a report that comes when the deadline has passed opens no comparison.
-/
namespace Sys2Proof.Machine

/-- A replica report that comes at the tray deadline or later has no effect (R310). -/
theorem Za.replicaReport_late {z : Za} (hlate : trayDeadlineNs ≤ z.nowNs % 2 ^ 20) (ws : List W) : z.replicaReport ws = z := by
  unfold Za.replicaReport
  split
  · rfl
  · exact if_neg fun h => Nat.not_le_of_lt h.2.2.2.2.1 hlate

/-- What a row makes of the ZA40 is one state. -/
theorem ZaBecomes.unique {c : Instr} {s : State} {a b : Za} (ha : ZaBecomes c s a) (hb : ZaBecomes c s b) : a = b := by
  have h := ha.symm.trans hb
  injection h with h
  exact congrArg State.za h

/-- The row of a late replica report is the intake of its frame. -/
theorem replicaReport_late_row {s : State} {f : Frame} {z : Za} {ws : List W} {e : Nat} {m : ModelSlot} {a : ModelArea}
    (hb : s.za.bringsReplica f 0 z ws e m a) (hlate : trayDeadlineNs ≤ z.nowNs % 2 ^ 20) : ZaBecomes (.replicaReport f) s z := by
  refine .of_row (g := fun z => z.replicaFrame f Za.replicaReport) rfl ?_
  have hdue : (s.za.receive (frameLink f) f).2 = true ∧ f.cls = 7 ∧ f.msg = 0x10 ∧ f.plen.toNat = 32 :=
    ⟨hb.passed, hb.cls, hb.msg, hb.len⟩
  refine (if_pos hdue).trans ?_
  have hnow : (s.za.receive (frameLink f) f).1 = z := hb.now.symm
  rw [hnow, Za.replicaReport_late hlate]

/-! ### A tray of a fabric of two whose deadline has passed. -/

/-- Aggregator 1's neighbour on link 2, its link up. -/
def peerLink : ZaLink :=
  { ZaLink.initial with
    state := 3, version := 0x32, peer := some (linkMac 2 2), peerAgg := 2, peerFabric := 1, peerRack := 1, helloSeen := true,
    peerSeen := true, credited := true
    ends := { Endpoint.initial 8 with
      pools := List.replicate 8 { Pool.initial with opened := true, grant := 4096, returned := 4096 } } }

/-- Frame 0 of a context of dies 7 and 9. -/
def comparedView : CtxView :=
  { frame := 0, begun := 3, epoch := 0, members := [{ rank := 0, die := 7 }, { rank := 1, die := 9 }], plans := .empty,
    masks := [(7, 1)], base := List.replicate 16 0, pins := [] }

/-- The work of that frame. -/
def comparedWork : FrameWork :=
  { entry := 1, ctx := 5, gen := 1, frame := 0, begun := 3, view := comparedView, contribs := [], dead := [], closed := false,
    judged := [], pods := [], evidence := [], external := [], rows := [], items := [], disputes := [], disputesMade := 0,
    marked := [], preDone := [], batches := [], scores := [], scored := false, withheld := [], detected := false, bands := [],
    params := [], marginal := 0, late := [], abandoned := false }

/-- Version 1 of model 1. -/
def comparedArea : ModelArea :=
  { state := .current, modelId := 1, version := 1, digest := 0, image := [], imageLen := 0, front := 4, handle := 0,
    deferred := false, retireAt := 0, fetch := none, nodePages := 1, spilled := [], tiles := [], since := 4 }

/-- Slot 0 of the context, with that version current. -/
def comparedSlot : ModelSlot :=
  { entry := 1, slot := 0, cur := some comparedArea, oth := none, agree := 0, passOf := none, passDone := none, passLeft := 0 }

/-- The context, in that frame. -/
def comparedCtx : Ctx :=
  { Ctx.fresh 5 1 4 fabricQuotas 0 with state := .active, members := [{ rank := 0, die := 7 }], views := [comparedView] }

/-- Aggregator `own` of die 7 in that frame, five ns before its end. -/
def lateTray (own : Nat) : Za :=
  { State.reset.za with
    aggId := own, fabricId := 1, rackId := 1, admitted := true, boot := { State.reset.za.boot with phase := 4 }
    power := { State.reset.za.power with powered := true, rails := List.range 15 }
    regs := [(0x8100, 0x80400000), (0x8110, 0x80800000)]
    time := { State.reset.za.time with
      state := .locked, ticking := true, isSet := true, frame := 10, nextFrame := 11, prevFrame := 9, begun := 3
      ftc := (11 * 2 ^ 20 - 5) * oneNs }
    links := [(2, peerLink)], dies := [DieEntry.fresh 7 0], ctxs := [(1, comparedCtx)], models := [comparedSlot]
    works := [comparedWork] }

/-- The report of aggregator `own` for that slot and frame. -/
def lateReport (own : Nat) : Frame :=
  let hdr : List W := [pack [(1, 31, 28), (5, 15, 0)], pack [(1, 31, 24), (own, 23, 12)], 1, 0x00010000, 0, 0, 3]
  Frame.sealed
    { dest := linkMac own 2, src := linkMac 2 2, ethertype := peerLink.ether, tver := 0x32, cls := 7, rsv15 := 0, msg := 0x10
      rsv17 := 0, fabricId := 1, ctx := 5, gen := 1, rsv23 := 0, lseq := 0, plen := 32, hcrc := 0
      body := hdr ++ [crcWords hdr] }

/-- The fabric tree of that frame: our tray, and the tray of die 9 where it is another. -/
theorem lateTray_tree {z : Za} {own : Nat} (hown : z.aggId = own) (h7 : (z.die? 7).isSome = true)
    (h9 : (z.die? 9).isSome = false) (hother : Config.hostOf 9 % 4096 ≠ own) :
    (z.tree comparedView).aggs = [own, Config.hostOf 9 % 4096] := by
  have hhost7 : z.hostOf 7 = own := by rw [Za.hostOf, if_pos h7, hown]
  have hhost9 : z.hostOf 9 = Config.hostOf 9 % 4096 := by rw [Za.hostOf, h9]; rfl
  change ([z.hostOf 7, z.hostOf 9]).eraseDups = _
  rw [hhost7, hhost9]
  simp [List.eraseDups_cons, hother]

/-- Both trays compare their copies. -/
theorem lateTray_group {z : Za} {own : Nat} (hown : z.aggId = own) (h7 : (z.die? 7).isSome = true)
    (h9 : (z.die? 9).isSome = false) (hfenced : z.rack.fencedAggs = []) (hother : Config.hostOf 9 % 4096 ≠ own) :
    z.replicaGroup comparedView = [own, Config.hostOf 9 % 4096] := by
  have hnone : (z.tree comparedView).fenced = [] := by rw [Za.tree, hfenced]; rfl
  rw [Za.replicaGroup, lateTray_tree hown h7 h9 hother, hnone]
  rfl

/-- The clause of a report that opens its comparison fails for the late tray, by the number of comparisons held. -/
theorem not_opens_late {own : Nat} {m : ModelSlot} {a : ModelArea} {z : Za} {ws : List W}
    (hb : (lateTray own).bringsReplica (lateReport own) 0 z ws 1 m a) (hlate : trayDeadlineNs ≤ z.nowNs % 2 ^ 20)
    {t : Za} {r : Replica} (ht : ZaBecomes (.replicaReport (lateReport own)) { State.reset with za := lateTray own } t)
    (hopen : t.replicas = z.replicas ++ [r]) : False := by
  have heq : t = z := ht.unique (replicaReport_late_row hb hlate)
  rw [heq] at hopen
  have hlen := congrArg List.length hopen
  rw [List.length_append, List.length_singleton] at hlen
  omega

/-- A frame is taken where its intake says so. -/
theorem Za.takes_of_receive {z : Za} {p : Nat} {f : Frame} (h : (z.receive p f).2 = true) : z.takes p f := h

theorem lateTray_one_takes : (lateTray 1).bringsReplica (lateReport 1) 0 ((lateTray 1).taken 2 (lateReport 1))
    ((lateReport 1).body.take 8) 1 comparedSlot comparedArea := by
  constructor
  case passed => exact Za.takes_of_receive (by decide +kernel)
  all_goals decide +kernel

theorem lateTray_two_takes : (lateTray 2).bringsReplica (lateReport 2) 0 ((lateTray 2).taken 2 (lateReport 2))
    ((lateReport 2).body.take 8) 1 comparedSlot comparedArea := by
  constructor
  case passed => exact Za.takes_of_receive (by decide +kernel)
  all_goals decide +kernel

/-- Refutes O54: a replica report that comes after the tray deadline opens no comparison. The tray is aggregator 1, or
aggregator 2 where die 9 lies with aggregator 1. -/
theorem not_imagesAreFetchedPlacedAndCompared : ¬ Obligations.ImagesAreFetchedPlacedAndCompared := by
  unfold Obligations.ImagesAreFetchedPlacedAndCompared
  rintro ⟨-, -, -, -, -, -, -, -, -, -, -, -, hreport, -⟩
  by_cases hhost : Config.hostOf 9 % 4096 = 1
  · have hgroup : ((lateTray 2).taken 2 (lateReport 2)).replicaGroup comparedView = [2, Config.hostOf 9 % 4096] :=
      lateTray_group (by decide +kernel) (by decide +kernel) (by decide +kernel) (by decide +kernel) (by omega)
    have hself : wf ((lateReport 2).body.take 8) 1 23 12 = 2 := by decide +kernel
    obtain ⟨t, r, ht, hopen, -⟩ := hreport { State.reset with za := lateTray 2 } (lateReport 2) _ _ 1 0 _ _ comparedCtx
      comparedView comparedWork lateTray_two_takes (by decide +kernel) (by decide +kernel) (by decide +kernel)
      (by decide +kernel) (by decide +kernel) (by decide +kernel) (by rw [hgroup, hself]; exact .head _)
      (by decide +kernel) ⟨1, by simp [hgroup, hhost], by rw [hself]; omega⟩
    exact not_opens_late lateTray_two_takes (by decide +kernel) ht hopen
  · have hgroup : ((lateTray 1).taken 2 (lateReport 1)).replicaGroup comparedView = [1, Config.hostOf 9 % 4096] :=
      lateTray_group (by decide +kernel) (by decide +kernel) (by decide +kernel) (by decide +kernel) hhost
    have hself : wf ((lateReport 1).body.take 8) 1 23 12 = 1 := by decide +kernel
    obtain ⟨t, r, ht, hopen, -⟩ := hreport { State.reset with za := lateTray 1 } (lateReport 1) _ _ 1 0 _ _ comparedCtx
      comparedView comparedWork lateTray_one_takes (by decide +kernel) (by decide +kernel) (by decide +kernel)
      (by decide +kernel) (by decide +kernel) (by decide +kernel) (by rw [hgroup, hself]; exact .head _)
      (by decide +kernel) ⟨Config.hostOf 9 % 4096, by simp [hgroup], by rw [hself]; exact hhost⟩
    exact not_opens_late lateTray_one_takes (by decide +kernel) ht hopen

end Sys2Proof.Machine
end

section
/-!
PROOFS. Items that come back unasked: a tray without a partner keeps its restore open.
-/
namespace Sys2Proof.Machine

/-- The item asked for: detector 0's record of key 0 of context 5. -/
def askedItem : SeedItem := { cls := 3, index := 0, ctx := 5, gen := 1, key := 0, delete := false, data := [] }

/-- A tray without a partner that waits for that item. -/
def unpairedTray : Za := { lateTray 1 with restores := [{ names := [askedItem.name], begun := 3 }] }

/-- RESTORE_DATA of aggregator 2 with that item. -/
def unaskedData : Frame :=
  let hdr : List W := [pack [(1, 31, 28), (7, 27, 24), (2, 23, 12)], 0, 0, pack [(1, 31, 16)], 0, 0, 0]
  Frame.sealed
    { dest := linkMac 1 2, src := linkMac 2 2, ethertype := peerLink.ether, tver := 0x32, cls := 7, rsv15 := 0, msg := 0x20
      rsv17 := 0, fabricId := 1, ctx := 0xFFFF, gen := 0, rsv23 := 0, lseq := 0, plen := 48, hcrc := 0
      body := hdr ++ [crcWords (hdr ++ askedItem.words)] ++ askedItem.words }

theorem unpairedTray_brings : unpairedTray.bringsSeed unaskedData 7 (unpairedTray.taken 2 unaskedData)
    (unaskedData.body.take 12) := by
  constructor
  case passed => exact Za.takes_of_receive (by decide +kernel)
  all_goals decide +kernel

/-- Refutes O55: RESTORE_DATA that comes to a tray without a partner answers none of its restores. -/
theorem not_mirrorsCheckpointsAndRebuilds : ¬ Obligations.MirrorsCheckpointsAndRebuilds := by
  unfold Obligations.MirrorsCheckpointsAndRebuilds
  rintro ⟨-, -, -, -, -, -, -, -, -, -, hrestore, -⟩
  obtain ⟨t, ht, hdone, -⟩ := hrestore { State.reset with za := unpairedTray } unaskedData _ _ 1 comparedCtx askedItem _
    unpairedTray_brings (by decide +kernel) (by decide +kernel) (by decide +kernel) (by decide +kernel) (by decide +kernel)
    (by decide +kernel) rfl
  have hrow : ZaBecomes (.restoreData unaskedData) { State.reset with za := unpairedTray }
      (unpairedTray.seedFrame unaskedData Za.restoreData) := .of_row rfl rfl
  rw [ht.unique hrow] at hdone
  have hopen : (unpairedTray.seedFrame unaskedData Za.restoreData).restores ≠ [] := by decide +kernel
  exact hopen hdone

end Sys2Proof.Machine
end

section
/-!
PROOFS. The boot ROM, power, resets and Lull states of the ZA40.
-/
namespace Sys2Proof.Machine

/-! ### What the restart of a link leaves. -/

/-- A ZA40 without what the restart of a link changes: links, dies, handles and waits, fetches served, tests and the Frost. -/
def Za.offLinks (z : Za) : Za :=
  { z with links := [], dies := [], waits := [], cmds := .initial, serving := [], tests := [], frost := .initial }

/-- `x` is `z` after links have started again, and nothing else. -/
abbrev Za.OnlyLinks (z x : Za) : Prop := z.Same Za.offLinks x

theorem Za.Same.field {z x : Za} {α β : Type} {f : Za → α} (h : z.Same f x) (g : Za → β) (k : α → β)
    (hg : ∀ y, g y = k (f y)) : g x = g z := by
  rw [hg, hg, h]

section
variable {z x : Za} (h : z.OnlyLinks x)
include h

theorem Za.OnlyLinks.boot : x.boot = z.boot := h.field Za.boot Za.boot fun _ => rfl
theorem Za.OnlyLinks.power : x.power = z.power := h.field Za.power Za.power fun _ => rfl
theorem Za.OnlyLinks.tag : x.tag = z.tag := h.field Za.tag Za.tag fun _ => rfl
theorem Za.OnlyLinks.ctxs : x.ctxs = z.ctxs := h.field Za.ctxs Za.ctxs fun _ => rfl
theorem Za.OnlyLinks.works : x.works = z.works := h.field Za.works Za.works fun _ => rfl

end

theorem Za.dieDown_onlyLinks (z : Za) (die : Nat) : z.OnlyLinks (z.dieDown die) := by
  unfold Za.dieDown
  split
  · exact .refl z
  · extract_lets z1 frost z2 z3
    have h1 : z.OnlyLinks z1 := rfl
    have h2 : z1.OnlyLinks z2 := .ite rfl rfl
    have h3 : z2.OnlyLinks z3 := rfl
    exact ((h1.trans h2).trans h3).trans rfl

theorem Za.endTest_onlyLinks (z : Za) (t : LinkTest) : z.OnlyLinks (z.endTest t) := by
  unfold Za.endTest Za.finish
  exact .ite rfl rfl

theorem Za.linkRestart_onlyLinks (z : Za) (p : Nat) : z.OnlyLinks (z.linkRestart p) := by
  unfold Za.linkRestart
  extract_lets z1 frost z2 z3 z4 loop
  have h1 : z.OnlyLinks z1 := .foldl (fun x d => x.dieDown_onlyLinks d) _ z
  have h2 : z1.OnlyLinks z2 := .ite rfl rfl
  have h3 : z2.OnlyLinks z3 := rfl
  have h4 : z3.OnlyLinks z4 := .foldl (fun x t => x.endTest_onlyLinks t) _ z3
  exact (((h1.trans h2).trans h3).trans h4).trans rfl

/-! ### The boot ROM's sources. -/

/-- The ROM at a source. -/
def Za.atSource (z : Za) (s : Nat × Nat) : Za :=
  { z with
    boot := { z.boot with
      phase := if s.1 = 4 then 3 else 2, source := s.1, port := if s.1 = 2 then s.2 else 0, attempts := min 255 (z.boot.attempts + 1)
      tried := z.boot.tried ++ [s], offered := false, gaps := 0, fetchId := z.boot.fetchId + 1
      image := if s.1 = 4 then z.boot.running else [], length := if s.1 = 4 then z.boot.running.length else 0 }
    power := { z.power with rails := [0, 5] ++ (if s.1 = 2 then [7 + s.2 / 5] else []) } }

theorem Za.bootAsk_onlyLinks (z : Za) : z.OnlyLinks z.bootAsk := by
  unfold Za.bootAsk
  split
  · rfl
  · rfl

theorem Za.sendHello_onlyLinks (z : Za) (p : Nat) : z.OnlyLinks (z.sendHello p) := rfl

/-- The ROM goes to the first source not tried, its link started where it is down. -/
theorem Za.bootNext_onlyLinks {z : Za} {s : Nat × Nat} (hs : z.bootSources.find? (fun s => !z.boot.tried.contains s) = some s) :
    (z.atSource s).OnlyLinks z.bootNext := by
  have hnext : z.bootNext = match bootLinkOf (z.atSource s).boot.source (z.atSource s).boot.port with
      | some p => (if ((z.atSource s).link p).state = 0 then ((z.atSource s).linkRestart p).sendHello p else z.atSource s).bootAsk
      | none => z.atSource s := by
    unfold Za.bootNext
    rw [hs]
    rfl
  rw [hnext]
  split
  · next p _ =>
    have hstart := ((z.atSource s).linkRestart_onlyLinks p).trans (Za.sendHello_onlyLinks _ p)
    exact (Za.Same.ite hstart (.refl _)).trans (Za.bootAsk_onlyLinks _)
  · exact .refl _

theorem Za.bootNext_none {z : Za} (hs : z.bootSources.find? (fun s => !z.boot.tried.contains s) = none) :
    z.bootNext = { z with boot := { z.boot with phase := 5 } } := by
  unfold Za.bootNext
  rw [hs]

/-- What the ROM's turn to its next source leaves. -/
theorem Za.bootNext_keeps (z : Za) : z.bootNext.tag = z.tag ∧ z.bootNext.ctxs = z.ctxs ∧ z.bootNext.works = z.works ∧
    z.bootNext.boot.lastError = z.boot.lastError ∧ z.bootNext.boot.running = z.boot.running ∧ z.bootNext.boot.phase ≠ 4 ∧
    (z.bootNext.boot.phase = 5 ∨ z.bootNext.boot.attempts = min 255 (z.boot.attempts + 1)) := by
  cases hs : z.bootSources.find? (fun s => !z.boot.tried.contains s) with
  | none =>
    rw [Za.bootNext_none hs]
    exact ⟨rfl, rfl, rfl, rfl, rfl, (by decide : (5 : Nat) ≠ 4), .inl rfl⟩
  | some s =>
    have h := Za.bootNext_onlyLinks hs
    rw [h.tag, h.ctxs, h.works, h.boot]
    refine ⟨rfl, rfl, rfl, rfl, rfl, ?_, .inr rfl⟩
    unfold Za.atSource
    dsimp only
    split <;> decide

/-- The ROM's turn to its next source, without the boot and the rails. -/
def Za.offBoot (z : Za) : Za := { z.offLinks with boot := .initial, power := { z.power with rails := [] } }

theorem Za.bootNext_offBoot (z : Za) : z.Same Za.offBoot z.bootNext := by
  cases hs : z.bootSources.find? (fun s => !z.boot.tried.contains s) with
  | none => rw [Za.bootNext_none hs]; rfl
  | some s =>
    have h : (z.atSource s).OnlyLinks z.bootNext := Za.bootNext_onlyLinks hs
    exact congrArg (fun y : Za => { y with boot := .initial, power := { y.power with rails := [] } }) h

theorem Za.bootStart_offBoot (z : Za) : z.Same Za.offBoot z.bootStart :=
  Za.bootNext_offBoot { z with boot := { z.boot with tried := [] } }

/-- A round begins at management port 0 where no stack copy is kept. -/
theorem Za.bootStart_first {z : Za} (hkept : z.power.firmwareKept = false) :
    (Za.atSource { z with boot := { z.boot with tried := [] } } (0, 0)).OnlyLinks z.bootStart := by
  refine Za.bootNext_onlyLinks (z := { z with boot := { z.boot with tried := [] } }) ?_
  unfold Za.bootSources
  dsimp only
  rw [hkept]
  rfl

/-- A round's first source with no stack copy: management port 0, nothing of the image yet. -/
theorem Za.bootStart_fresh {z : Za} (hkept : z.power.firmwareKept = false) : z.bootStart.boot.phase = 2 ∧
    z.bootStart.boot.source = 0 ∧ z.bootStart.boot.tried = [(0, 0)] ∧ z.bootStart.boot.image = [] ∧
    z.bootStart.power = { z.power with rails := [0, 5] } ∧ z.bootStart.ctxs = z.ctxs ∧ z.bootStart.tag = z.tag := by
  have h := Za.bootStart_first hkept
  rw [h.boot, h.power, h.ctxs, h.tag]
  exact ⟨rfl, rfl, rfl, rfl, rfl, rfl, rfl⟩

theorem Za.bootStart_keeps (z : Za) : z.bootStart.tag = z.tag ∧ z.bootStart.ctxs = z.ctxs ∧ z.bootStart.works = z.works ∧
    z.bootStart.boot.running = z.boot.running := by
  obtain ⟨htag, hctxs, hworks, -, hrunning, -⟩ := Za.bootNext_keeps { z with boot := { z.boot with tried := [] } }
  exact ⟨htag, hctxs, hworks, hrunning⟩

/-! ### The start of firmware. -/

/-- Firmware starts from the image verified: boot and power as it leaves them, the tag kept, the fabric context made. -/
theorem Za.startFirmware_starts (z : Za) : z.startFirmware.tag = z.tag ∧ z.startFirmware.boot.lastError = 0 ∧
    z.startFirmware.boot.phase = 4 ∧ z.startFirmware.boot.running = z.boot.image ∧
    z.startFirmware.boot.fwVersion = fwVersionOf z.boot.image ∧ (z.startFirmware.ctx? 0).isSome = true ∧
    z.startFirmware.power.rails = List.range 15 := by
  unfold Za.startFirmware
  extract_lets boot b wake lat ptp power y links
  have h : y.OnlyLinks (links.foldl Za.linkRestart y) := .foldl (fun x p => x.linkRestart_onlyLinks p) links y
  have hfin : (links.foldl Za.linkRestart y).OnlyLinks ((links.foldl Za.linkRestart y).finish wake (resultOf stOk)) := .ite rfl rfl
  have hall : y.OnlyLinks ((links.foldl Za.linkRestart y).finish wake (resultOf stOk)) := h.trans hfin
  unfold Za.ctx?
  rw [hall.tag, hall.boot, hall.ctxs, hall.power]
  exact ⟨rfl, rfl, rfl, rfl, rfl, by rw [aGet_aPut_same]; rfl, rfl⟩

/-! ### Rows. -/

theorem Za.imageVerify_keeps {z : Za} (hphase : z.boot.phase = 3) (hon : z.power.powered = true) :
    z.imageVerify.tag = z.tag ∧ z.imageVerify.boot.lastError = fwFault z.boot.image ∧
      (fwFault z.boot.image = 0 → z.imageVerify = z.startFirmware) ∧
      (fwFault z.boot.image ≠ 0 → z.imageVerify.boot.phase ≠ 4 ∧ z.imageVerify.ctxs = z.ctxs) := by
  have hgo : ¬ (z.boot.phase ≠ 3 ∨ (!z.power.powered) = true) := by rw [hphase, hon]; decide
  unfold Za.imageVerify
  rw [if_neg hgo]
  split
  · next hok =>
    obtain ⟨htag, herror, -⟩ := z.startFirmware_starts
    exact ⟨htag, herror.trans hok.symm, fun _ => rfl, fun hbad => absurd hok hbad⟩
  · next hbad =>
    obtain ⟨htag, hctxs, -, herror, -, hphase4, -⟩ :=
      Za.bootNext_keeps { z with boot := { z.boot with lastError := fwFault z.boot.image } }
    exact ⟨htag, herror, fun hok => absurd hok hbad, fun _ => ⟨hphase4, hctxs⟩⟩

/-- Bytes at the next offset needed that fit are all taken. -/
theorem Za.bootBytes_next {z : Za} {bs : List Byte} (hne : bs ≠ []) (hfit : z.boot.image.length + bs.length ≤ z.boot.length) :
    z.bootBytes z.boot.image.length bs = { z with boot := { z.boot with
      image := z.boot.image ++ bs
      phase := if z.boot.image.length + bs.length = z.boot.length then 3 else z.boot.phase } } := by
  have hnew : (bs.drop (z.boot.image.length - z.boot.image.length)).take (z.boot.length - z.boot.image.length) = bs := by
    rw [Nat.sub_self, List.drop_zero, List.take_of_length_le (by omega)]
  unfold Za.bootBytes
  dsimp only
  rw [hnew, if_neg (by simp [hne]), List.length_append]

/-- LOAD_DATA with the next bytes needed is taken and acknowledged. -/
theorem Za.loadData_next {z : Za} {bs : List Byte} (hphase : z.boot.phase = 2) (hsource : z.boot.source = 3)
    (hoff : z.boot.offered = true) (hon : z.power.powered = true) (hlen : bs.length ≤ 1024) (hne : bs ≠ [])
    (hfit : z.boot.image.length + bs.length ≤ z.boot.length) :
    z.loadData z.boot.image.length bs = Za.toHost { z with boot := { z.boot with
      image := z.boot.image ++ bs
      phase := if z.boot.image.length + bs.length = z.boot.length then 3 else 2 } } 7
        (wordBytes (w32 (z.boot.image.length + bs.length))) := by
  refine (if_pos ⟨hphase, hsource, hoff, hlen, hon⟩).trans ?_
  dsimp only
  rw [Za.bootBytes_next hne hfit, hphase]
  dsimp only
  rw [List.length_append]

/-- A keomon frame in sequence is handled by its kind. -/
theorem Za.keomonFrame_next {z : Za} {free : Nat} {dom : Nat → Nat → Nat} {bs body : List Byte} {kind seq : Nat}
    (hon : z.power.powered = true) (hpin : z.power.pinLow = false) (hparse : keomonParse bs = some (kind, seq, body))
    (hseq : ∀ l, z.keomon.rxSeq = some l → (l + 1) % 256 = seq) (hkind : kind ≠ 4) (hkind' : kind ≠ 6) :
    z.keomonFrame free dom bs =
      (if kind = 1 then Za.keomonHusk { z with keomon := { z.keomon with rxSeq := some seq } } free dom body
        else Za.count { z with keomon := { z.keomon with rxSeq := some seq } } (.misc .keomonReserved)) := by
  have hgap : z.keomon.rxSeq.any (fun l => decide ((l + 1) % 256 ≠ seq)) = false := by
    cases hl : z.keomon.rxSeq with
    | none => rfl
    | some l => exact decide_eq_false fun h => h (hseq l hl)
  unfold Za.keomonFrame
  rw [hon, hpin, if_neg (by decide), hparse]
  dsimp only
  rw [hgap, if_neg (by decide)]
  split
  · rfl
  · exact absurd rfl hkind
  · exact absurd rfl hkind'
  · next h1 _ _ => exact (if_neg h1).symm

/-- A warm reset leaves what it keeps, and begins a round. -/
theorem Za.warm_eq {z : Za} (hon : z.power.powered = true) (hpin : z.power.pinLow = false) :
    z.warm = z.warmCleared.bootStart := by
  unfold Za.warm
  exact if_pos ⟨hon, by rw [hpin]; rfl⟩

/-- A reading that is too hot, or a power too high, raises the throttle's step. -/
theorem Za.throttle_up {z : Za} {r : ThermalReading} (hon : z.power.powered = true)
    (hhot : fld z.power.cfg 31 22 < r.power.toNat ∨
      fld z.power.cfg 21 14 ≤ [r.q0.toNat, r.q1.toNat, r.q2.toNat, r.q3.toNat, r.spine.toNat].foldl max 0) :
    ∃ x, z.throttle r = x ∧ x.power.step = min 8 (z.power.step + 1) ∧ x.power.calm = 0 ∧
      x.power.temps = [r.q0.toNat, r.q1.toNat, r.q2.toNat, r.q3.toNat, r.spine.toNat] ∧ x.ctxs = z.ctxs ∧ x.works = z.works := by
  unfold Za.throttle
  rw [if_neg (by rw [hon]; decide)]
  extract_lets p temps t cap hotAt w beyond hot cool up calm step
  have hup : up = true := by
    rcases hhot with h | h
    · exact Bool.or_eq_true_iff.2 (.inl (decide_eq_true h))
    · exact Bool.or_eq_true_iff.2 (.inr (decide_eq_true h))
  have hcalm : calm = 0 := if_pos hup
  refine ⟨_, rfl, if_pos hup, ?_, rfl, rfl, rfl⟩
  change (if calm = 64 then 0 else calm) = 0
  rw [hcalm]
  rfl

/-- ZA_WAKE from Lull-1 or Lull-2: every rail is up again, and the links that come back start. -/
theorem Za.zaWake_running {z : Za} (handle : W) (hlull : z.power.lull = 1 ∨ z.power.lull = 2) :
    ∃ x, z.zaWake handle = (x.finish handle (resultOf stOk), none) ∧
      Za.OnlyLinks { z with power := { z.power with lull := 0, keepVoe := 0, rails := List.range 15 } } x := by
  unfold Za.zaWake
  dsimp only
  split
  · omega
  · omega
  · exact ⟨_, rfl, .foldl (fun x p => x.linkRestart_onlyLinks p) _ _⟩

theorem Za.die?_of_dies {z x : Za} {die : Nat} (h : x.dies = z.dies) : x.die? die = z.die? die :=
  congrArg (fun l => l.find? (fun d : DieEntry => d.die == die)) h

/-- A row of the ZA40 that draws, and is one function of it. -/
theorem ZaDraws.of_row {c : Instr} {s : State} {g : Za → Za} {z : Za} (hrow : exec c s = .next (s.onZa g).draw) (hz : g s.za = z) :
    ZaDraws c s z := by
  rw [← hz]
  exact hrow

/-- A ZA40 that has just been given power, before its ROM's first source. -/
def Za.empowered (z : Za) (vin : BitVec 16) (strap : Bool) : Za :=
  { Za.initial with
    tag := z.serial
    power := { Za.initial.power with events := z.power.events, vin, warn := vinWarn vin, strap, strapLow := strap }
    boot := { Za.initial.boot with phase := 1 } }

theorem Za.powerOn_fresh (z : Za) (vin : BitVec 16) (strap : Bool) : (z.powerOn vin strap).boot.phase = 2 ∧
    (z.powerOn vin strap).boot.source = 0 ∧ (z.powerOn vin strap).ctxs = [] ∧
    (z.powerOn vin strap).power = { (z.empowered vin strap).power with rails := [0, 5] } := by
  obtain ⟨hphase, hsource, -, -, hpower, hctxs, -⟩ := Za.bootStart_fresh (z := z.empowered vin strap) rfl
  exact ⟨hphase, hsource, hctxs, hpower⟩

/-- The first word of a power event: its cause, rail, temperature and input voltage. -/
theorem fld_powerEvent {cause rail temp vin : Nat} (hc : cause < 16) (hr : rail < 16) (hv : vin < 2 ^ 16) :
    fld (pack [(cause, 31, 28), (rail, 27, 24), (temp, 23, 16), (vin, 15, 0)]) 31 28 = cause ∧
      fld (pack [(cause, 31, 28), (rail, 27, 24), (temp, 23, 16), (vin, 15, 0)]) 27 24 = rail ∧
      fld (pack [(cause, 31, 28), (rail, 27, 24), (temp, 23, 16), (vin, 15, 0)]) 23 16 = temp % 256 ∧
      fld (pack [(cause, 31, 28), (rail, 27, 24), (temp, 23, 16), (vin, 15, 0)]) 15 0 = vin := by
  simp only [pack, packNat, fld, bits, BitVec.toNat_ofNat]
  omega

/-- Settles O58: each row's own condition holds, and its rule then says what it leaves. -/
theorem theTrayBootsResetsAndRests : Obligations.TheTrayBootsResetsAndRests := by
  unfold Obligations.TheTrayBootsResetsAndRests
  refine ⟨?timeout, ?round, ?verify, ?loadReq, ?loadData, ?reserved, ?husk, ?bad, ?powerUp, ?powerLoss, ?trip, ?restart, ?warn,
    ?pinLow, ?pinHigh, ?watchdog, ?warmReset, ?throttle, ?hold, ?release, ?lull, ?wake, ?reset⟩
  case timeout =>
    rintro s stalled hphase hoff hon
    obtain ⟨htag, hctxs, -, herror, hrunning, -, hattempts⟩ :=
      Za.bootNext_keeps { s.za with boot := { s.za.boot with lastError := if stalled then 2 else 1 } }
    refine ⟨_, .of_row (g := fun z => z.bootTimeout stalled) rfl (if_neg ?_), herror, hrunning, hctxs, htag, hattempts⟩
    rw [hphase, hoff, hon]
    simp
  case round =>
    rintro s hphase hon hkept
    obtain ⟨h1, h2, h3, h4, -, h6, h7⟩ := Za.bootStart_fresh hkept
    exact ⟨_, .of_row (g := Za.bootRound) rfl (if_pos ⟨hphase, hon⟩), h1, h2, h3, h4, h6, h7⟩
  case verify =>
    rintro s hphase hon
    obtain ⟨htag, herror, hok, hbad⟩ := Za.imageVerify_keeps hphase hon
    refine ⟨_, .of_row (g := Za.imageVerify) rfl rfl, htag, herror, fun h0 => ?_, hbad⟩
    obtain ⟨-, -, hphase4, hrunning, hversion, hctx, hrails⟩ := s.za.startFirmware_starts
    rw [hok h0]
    exact ⟨hphase4, hrunning, hversion, hctx, hrails⟩
  case loadReq =>
    rintro s n hphase hsource hoff hon
    refine ⟨_, .of_row (g := fun z => z.loadReq n.toNat) rfl (if_pos ⟨hphase, hsource, by rw [hoff]; rfl, hon⟩), rfl, rfl, rfl, rfl⟩
  case loadData =>
    rintro s off bs hphase hsource hoff hon hlen hne hat hfit
    have hrow := (congrArg (fun n => s.za.loadData n bs) hat).trans (Za.loadData_next hphase hsource hoff hon hlen hne hfit)
    exact ⟨_, .of_row (g := fun z => z.loadData off.toNat bs) rfl hrow, rfl, rfl, rfl⟩
  case reserved =>
    rintro s bs body kind seq hon hpin hparse hkind hseq
    have hrow := Za.keomonFrame_next (free := s.free) (dom := s.cellDom) hon hpin hparse hseq (by omega) (by omega)
    rw [if_neg (by omega)] at hrow
    exact .of_row (g := fun z => z.keomonFrame s.free s.cellDom bs) rfl hrow
  case husk =>
    rintro s bs body seq hon hpin hparse hseq
    have hrow := Za.keomonFrame_next (free := s.free) (dom := s.cellDom) hon hpin hparse hseq (by decide) (by decide)
    exact .of_row (g := fun z => z.keomonFrame s.free s.cellDom bs) rfl hrow
  case bad =>
    rintro s bs hon hpin hparse
    have hrow : s.za.keomonFrame s.free s.cellDom bs = s.za.count (.misc .keomonBad) := by
      unfold Za.keomonFrame
      rw [hon, hpin, if_neg (by decide), hparse]
    exact .of_row (g := fun z => z.keomonFrame s.free s.cellDom bs) rfl hrow
  case powerUp =>
    rintro s vin strap hoff htrip hvin
    obtain ⟨hphase, hsource, hctxs, hpower⟩ := s.za.powerOn_fresh vin strap
    refine ⟨s.za.powerOn vin strap, .of_row rfl (if_pos ⟨by rw [htrip]; rfl, .inl (by rw [hoff]; rfl), hvin⟩), ?_⟩
    rw [hpower]
    exact ⟨rfl, rfl, rfl, hphase, hsource, hctxs, rfl⟩
  case powerLoss =>
    rintro s rail vin hon
    have hrow : s.za.powerLoss .rail rail.val vin = _ := if_neg (by rw [hon]; decide)
    obtain ⟨hcause, hrail, -, hvin⟩ :=
      fld_powerEvent (cause := 4) (temp := s.za.tMax) (by decide) (show rail.val < 16 by omega) vin.isLt
    exact ⟨_, _, .of_row (g := fun z => z.powerLoss .rail rail.val vin) rfl hrow, rfl, rfl, rfl, hcause, hrail, hvin, rfl, rfl⟩
  case trip =>
    rintro s temp vin hon htemp
    obtain ⟨hcause, -, hat, -⟩ :=
      fld_powerEvent (cause := 3) (rail := 0) (temp := temp.toNat) (by decide) (by decide) vin.isLt
    exact ⟨_, _, .of_row (g := fun z => z.thermalTrip temp.toNat vin) rfl (if_pos ⟨hon, .inl htemp⟩), rfl, rfl, rfl, hcause,
      hat.trans (Nat.mod_eq_of_lt temp.isLt), rfl⟩
  case restart =>
    rintro s temp tenths vin htrip htemp htenths hvin
    obtain ⟨hphase, -, -, hpower⟩ := s.za.powerOn_fresh vin s.za.power.pinLow
    refine ⟨s.za.powerOn vin s.za.power.pinLow, .of_row rfl (if_pos ⟨htrip, htemp, htenths, hvin⟩), ?_⟩
    rw [hpower]
    exact ⟨rfl, rfl, rfl, hphase, rfl⟩
  case warn =>
    rintro s vin hon
    exact .of_row rfl (if_pos hon)
  case pinLow =>
    rintro s hon hstrap hpin
    have hrow : s.za.svcPin true = { s.za.pinCleared with power := { s.za.pinCleared.power with pinLow := true } } := by
      unfold Za.svcPin
      rw [hon, hstrap, hpin]
      rfl
    exact ⟨_, .of_row (g := fun z => z.svcPin true) rfl hrow, rfl, rfl, rfl, rfl, rfl, rfl, rfl⟩
  case pinHigh =>
    rintro s hon hstrap hpin
    have hrow : s.za.svcPin false =
        Za.bootStart { s.za with power := { s.za.power with pinLow := false }, boot := { s.za.boot with phase := 1 } } := by
      unfold Za.svcPin
      rw [hon, hstrap, hpin]
      rfl
    obtain ⟨htag, hctxs, -⟩ :=
      Za.bootStart_keeps { s.za with power := { s.za.power with pinLow := false }, boot := { s.za.boot with phase := 1 } }
    have hoff := Za.bootStart_offBoot { s.za with power := { s.za.power with pinLow := false }, boot := { s.za.boot with phase := 1 } }
    exact ⟨_, .of_row (g := fun z => z.svcPin false) rfl hrow, hoff.field _ (fun y => y.power.pinLow) fun _ => rfl, htag, hctxs⟩
  case watchdog =>
    rintro s hon hpin
    obtain ⟨htag, hctxs, hworks, hrunning⟩ := s.za.warmCleared.bootStart_keeps
    have hoff := s.za.warmCleared.bootStart_offBoot
    refine ⟨_, .of_row (g := Za.warm) rfl (Za.warm_eq hon hpin), hoff.field _ (fun y => y.power.lastReset) fun _ => rfl,
      hoff.field _ (fun y => y.power.warmDue) fun _ => rfl, hctxs, hworks, hoff.field _ Za.faultLog fun _ => rfl,
      hoff.field _ Za.seedHeld fun _ => rfl, hoff.field _ (fun y => y.fences.lanes) fun _ => rfl,
      hoff.field _ (fun y => y.fences.margin) fun _ => rfl, htag, hrunning⟩
  case warmReset =>
    rintro s hon hpin hdue
    have hrow : s.onZa (fun z => if z.power.warmDue then z.warm else z) = s.onZa Za.warm :=
      congrArg (fun za : Za => { s with za }) (if_pos hdue)
    exact congrArg Host.Outcome.next hrow
  case throttle =>
    rintro s r t hon rfl hhot
    obtain ⟨x, hrow, hstep, hcalm, htemps, hctxs, hworks⟩ := Za.throttle_up hon hhot
    exact ⟨x, .of_row (g := fun z => z.throttle r) rfl hrow, hstep, hcalm, htemps, hctxs, hworks⟩
  case hold =>
    rintro s h z d ha rfl hd hn hslots
    have hfree : ¬ d.slots.any (fun x => x.slot != 0) = true := by
      simp only [List.any_eq_true, not_exists, not_and]
      exact fun x hx => by rw [hslots x hx]; decide
    have hrow : (s.za.met .lullHold h).lullHold h = Za.ok ((s.za.met .lullHold h).modDie (huskP0 h)
        (fun x => { x with hold := huskP1 h, holdFrom := (s.za.met .lullHold h).frameNow + 1, holdEnds := false })) := by
      unfold Za.lullHold
      dsimp only
      rw [hd]
      exact (if_neg hn).trans (if_neg hfree)
    have hdie := (Za.die?_modDie_same (s.za.met .lullHold h) (huskP0 h)
      (g := fun x => { x with hold := huskP1 h, holdFrom := (s.za.met .lullHold h).frameNow + 1, holdEnds := false })
      fun _ => rfl).trans (congrArg _ hd)
    exact ⟨_, { d with hold := huskP1 h, holdFrom := (s.za.met .lullHold h).frameNow + 1, holdEnds := false },
      .of_short rfl ha (ha.short rfl (by decide)) (by decide) hrow, (Za.die?_of_dies (Za.answered_reports _ _ _ _).dies).trans hdie,
      rfl, rfl, rfl, (Za.answered_reports _ _ _ _).ctxs⟩
  case release =>
    rintro s h z d ha rfl hd hhold
    have hrow : (s.za.met .lullRelease h).lullRelease h = Za.ok ((s.za.met .lullRelease h).modDie (huskP0 h)
        (fun x => { x with hold := 0, holdEnds := false })) := by
      unfold Za.lullRelease
      rw [hd]
      refine (if_neg hhold).trans ?_
      rw [Za.die_of_die? hd]
    have hdie := (Za.die?_modDie_same (s.za.met .lullRelease h) (huskP0 h)
      (g := fun x => { x with hold := 0, holdEnds := false }) fun _ => rfl).trans (congrArg _ hd)
    exact ⟨_, { d with hold := 0, holdEnds := false }, .of_short rfl ha (ha.short rfl (by decide)) (by decide) hrow,
      (Za.die?_of_dies (Za.answered_reports _ _ _ _).dies).trans hdie, rfl, (Za.answered_reports _ _ _ _).ctxs⟩
  case lull =>
    rintro s h z handle hb hn hmask hlower hmay hnone
    have hrow : z.zaLull h handle =
        (Za.finish { z with power := { z.power with lullTo := some (huskP0 h, huskP1 h, handle) } } handle (resultOf stOk), none) := by
      unfold Za.zaLull
      dsimp only
      rw [if_neg hn, if_neg (by omega), if_neg (by omega), if_neg (by rw [hmay, hnone]; decide)]
    have hkeep := (Za.finish_reports { z with power := { z.power with lullTo := some (huskP0 h, huskP1 h, handle) } } handle
      (resultOf stOk)).trans (Za.accepted_reports _ .zaLull h handle)
    exact ⟨_, .of_long rfl hb (hb.long rfl) hrow, hkeep.field (fun y => y.power.lullTo) fun _ => rfl,
      hkeep.field (fun y => y.power.lull) fun _ => rfl, hkeep.ctxs⟩
  case wake =>
    rintro s h z handle hb hlull
    obtain ⟨x, hrow, hlinks⟩ := Za.zaWake_running handle hlull
    have hkeep := (Za.finish_reports x handle (resultOf stOk)).trans (Za.accepted_reports _ .zaWake h handle)
    refine ⟨_, .of_long rfl hb (hb.long rfl) hrow, ?_, ?_, ?_, ?_⟩
    · exact (hkeep.field (fun y => y.power.lull) fun _ => rfl).trans (congrArg ZaPower.lull hlinks.power)
    · exact (hkeep.field (fun y => y.power.rails) fun _ => rfl).trans (congrArg ZaPower.rails hlinks.power)
    · exact hkeep.ctxs.trans hlinks.ctxs
    · exact hkeep.tag.trans hlinks.tag
  case reset =>
    rintro s h z ha rfl hkind hzero
    refine .of_short rfl ha (ha.short rfl (by decide)) (by decide) ?_
    change (s.za.met .zaReset h).zaReset h = _
    unfold Za.zaReset
    rw [hkind]
    exact if_neg (by omega)

end Sys2Proof.Machine
end

section
/-!
PROOFS. Hails and liveness, fences, self-tests, faults held for the tick, and memory errors of the ZA40.
-/
namespace Sys2Proof.Machine

/-! ### Hails. -/

/-- Frames that are queued and reports change nothing of where an aggregator is reached. -/
theorem Za.linkToward_of_queues {z x : Za} (hr : z.Reports x) (hq : z.Queues x) (agg : Nat) : x.linkToward agg = z.linkToward agg := by
  have hface (p : Nat) : x.face p = z.face p := hr.field (fun y => y.face p) fun _ => rfl
  have hon (p : Nat) : x.linkOn p = z.linkOn p := hr.field (fun y => y.linkOn p) fun _ => rfl
  have hup (p : Nat) : x.linkUp p = z.linkUp p := by
    unfold Za.linkUp
    rw [hon, hq.state]
  have hpeer (p : Nat) : (x.link p).peerAgg = (z.link p).peerAgg := by
    obtain ⟨_, _, h⟩ := hq p
    rw [h]
  have hups : x.upLinks 2 = z.upLinks 2 := by
    unfold Za.upLinks
    simp only [hface, hup]
  unfold Za.linkToward
  rw [hups]
  simp only [hpeer]

theorem Za.hailTo_reports (z : Za) (agg : Nat) (ws : List W) : z.Reports (z.hailTo agg ws) :=
  .ite (z.enqueue_reports _ _ _) (z.toAgg_reports _ _ _ _ _ _ _)

theorem Za.hailTo_queues (z : Za) (agg : Nat) (ws : List W) : z.Queues (z.hailTo agg ws) :=
  .ite (z.enqueue_queues _ _ _) (z.toAgg_queues _ _ _ _ _ _ _)

/-- A Hail that waits on a link. -/
def Queued.isHail (q : Queued) (ws : List W) : Prop := q.frame.cls = 1 ∧ q.frame.msg = 3 ∧ q.frame.body = ws

/-- Outside Lull a Hail waits on the link toward its unit. -/
theorem Za.hailTo_queued {z : Za} (hlull : z.power.lull = 0) (agg : Nat) (ws : List W) :
    ∃ q ∈ ((z.hailTo agg ws).link (z.linkToward agg)).queue, q.isHail ws := by
  have hrun : z.hailTo agg ws = z.toAgg agg clsCtrl 0x03 0xFFFF 0 32 ws := if_neg (by rw [hlull]; omega)
  have hput : z.toAgg agg clsCtrl 0x03 0xFFFF 0 32 ws = z.enqueue (z.linkToward agg) none
      (mkTx clsCtrl 0x03 (z.addrOf (z.linkToward agg) agg) 0xFFFF 0 32 ws) := by
    unfold Za.toAgg
    exact if_pos rfl
  rw [hrun, hput, Za.enqueue_queue]
  exact ⟨_, List.mem_append_right _ (.head _), rfl, rfl, rfl⟩

/-- Hails to several units: each waits on the link toward its unit. -/
theorem Za.hails_queued {z : Za} (hlull : z.power.lull = 0) (ws : List W) (dst : List Nat) (x : Za) (hr : z.Reports x)
    (hq : z.Queues x) :
    z.Reports (dst.foldl (fun z a => z.hailTo a ws) x) ∧ x.Queues (dst.foldl (fun z a => z.hailTo a ws) x) ∧
      ∀ a ∈ dst, ∃ q ∈ ((dst.foldl (fun z a => z.hailTo a ws) x).link (z.linkToward a)).queue, q.isHail ws := by
  induction dst generalizing x with
  | nil => exact ⟨hr, .refl x, fun a ha => absurd ha List.not_mem_nil⟩
  | cons b bs ih =>
    obtain ⟨hrest, hmore, hall⟩ := ih (x.hailTo b ws) (hr.trans (x.hailTo_reports b ws)) (hq.trans (x.hailTo_queues b ws))
    refine ⟨hrest, (x.hailTo_queues b ws).trans hmore, fun a ha => ?_⟩
    rcases List.mem_cons.1 ha with rfl | ha
    · have hlull' : x.power.lull = 0 := (hr.field (fun y => y.power.lull) fun _ => rfl).trans hlull
      obtain ⟨q, hmem, hhail⟩ := Za.hailTo_queued hlull' a ws
      rw [Za.linkToward_of_queues hr hq] at hmem
      exact ⟨q, hmore.mem hmem, hhail⟩
    · exact hall a ha

theorem Za.toCollectors_queues (z : Za) (cls msg ctx gen plen : Nat) (body : List W) :
    z.Queues (z.toCollectors cls msg ctx gen plen body) :=
  .foldl (fun x _ => x.enqueue_queues _ _ _) _ z

/-- A Hail leaves for units, and for the collectors from a Region Manager that is not kept quiet. -/
def Za.hailed (z : Za) (dst : List Nat) (ws : List W) (calm : Bool) : Za :=
  let x := dst.foldl (fun z a => z.hailTo a ws) z
  let x' := if x.isRm && calm then x.toCollectors clsCtrl 0x03 0xFFFF 0 32 ws else x
  { x' with hailDue := none, hailSeq := x'.hailSeq + 1 }

/-- The units that a Hail of ours goes to. -/
def Za.hailTargets (z : Za) : List Nat := (z.rack.units.filter (fun u => u.candidate && u.agg != z.aggId)).map (·.agg)

theorem Za.hailSend_eq {z : Za} {n : Nat} (hdue : z.hailDue = some n) (hrun : z.running = true) (vcore : BitVec 16) :
    z.hailSend vcore = match z.injectionAt 0x07 0 with
      | some i => (z.spend i).hailed [] (z.hailWords n vcore) false
      | none => z.hailed z.hailTargets (z.hailWords n vcore) true := by
  unfold Za.hailSend
  rw [hdue]
  refine (if_neg (by rw [hrun]; decide)).trans ?_
  cases z.injectionAt 0x07 0 <;> rfl

theorem Za.hailed_keeps (z : Za) (dst : List Nat) (ws : List W) (calm : Bool) : (z.hailed dst ws calm).hailSeq = z.hailSeq + 1 ∧
    (z.hailed dst ws calm).ctxs = z.ctxs ∧ (z.hailed dst ws calm).rack = z.rack := by
  unfold Za.hailed
  extract_lets x x'
  have hx : z.Reports x := .foldl (fun z a => z.hailTo_reports a ws) dst z
  have hx' : x.Reports x' := .ite (x.toCollectors_reports _ _ _ _ _ _) (.refl x)
  have hkeep := hx.trans hx'
  exact ⟨congrArg (· + 1) (hkeep.field Za.hailSeq fun _ => rfl), hkeep.ctxs, hkeep.rack⟩

theorem Za.hailed_queued {z : Za} (hlull : z.power.lull = 0) {dst : List Nat} {a : Nat} (ha : a ∈ dst) (ws : List W) (calm : Bool) :
    ∃ q ∈ ((z.hailed dst ws calm).link (z.linkToward a)).queue, q.isHail ws := by
  unfold Za.hailed
  extract_lets x x'
  obtain ⟨-, -, hall⟩ := Za.hails_queued hlull ws dst z (.refl z) (.refl z)
  obtain ⟨q, hmem, hhail⟩ := hall a ha
  have hx' : x.Queues x' := .ite (x.toCollectors_queues _ _ _ _ _ _) (.refl x)
  exact ⟨q, hx'.mem hmem, hhail⟩

/-- HAIL_SEND: the Hail goes, its books go on, and outside Lull and without an injection each other candidate is told. -/
theorem Za.hailSend_sends {z : Za} {n : Nat} (hdue : z.hailDue = some n) (hrun : z.running = true) (vcore : BitVec 16) :
    (z.hailSend vcore).hailDue = none ∧ (z.hailSend vcore).hailSeq = z.hailSeq + 1 ∧ (z.hailSend vcore).ctxs = z.ctxs ∧
      (z.hailSend vcore).rack = z.rack ∧ (z.injections = [] → z.power.lull = 0 → ∀ u ∈ z.rack.units, u.candidate = true →
        u.agg ≠ z.aggId → ∃ q ∈ ((z.hailSend vcore).link (z.linkToward u.agg)).queue, q.isHail (z.hailWords n vcore)) := by
  rw [Za.hailSend_eq hdue hrun]
  cases hquiet : z.injectionAt 0x07 0 with
  | some i =>
    obtain ⟨hseq, hctxs, hrack⟩ := (z.spend i).hailed_keeps [] (z.hailWords n vcore) false
    refine ⟨rfl, hseq, hctxs, hrack, fun hinj => ?_⟩
    unfold Za.injectionAt at hquiet
    rw [hinj] at hquiet
    cases hquiet
  | none =>
    obtain ⟨hseq, hctxs, hrack⟩ := z.hailed_keeps z.hailTargets (z.hailWords n vcore) true
    refine ⟨rfl, hseq, hctxs, hrack, fun _ hlull u hu hcand hother => Za.hailed_queued hlull ?_ _ _⟩
    exact List.mem_map_of_mem (List.mem_filter.2 ⟨hu, Bool.and_eq_true_iff.2 ⟨hcand, bne_iff_ne.2 hother⟩⟩)

/-! ### Liveness. -/

/-- What the watch of a rack's units leaves. -/
abbrev Za.OnRack (z x : Za) : Prop := z.Same (fun y => (y.dies, y.ctxs, y.time)) x

theorem Za.Reports.onRack {z x : Za} (h : z.Reports x) : z.OnRack x :=
  Prod.ext h.dies (Prod.ext h.ctxs h.time)

theorem Za.watchUnit_onRack (z : Za) (agg : Nat) : z.OnRack (z.watchUnit agg) := by
  unfold Za.watchUnit
  split
  · rfl
  · next u _ =>
    extract_lets put decides wasRm y1 missed y2 y3 standby y4 y5 rack
    have h1 : z.OnRack y1 := rfl
    have h2 : z.OnRack y2 := rfl
    have h3 : z.OnRack y3 := rfl
    have h4 : z.OnRack y4 := rfl
    have hdead : y4.Reports y5 := .ite ((y4.raise_reports _ _ _ _ _ _ _).trans (Za.raiseFence_reports _ _ _ _ _ _ _ _)) (.refl y4)
    have h5 : z.OnRack y5 := h4.trans hdead.onRack
    have hhailed := Za.Same.ite (p := u.live = 3) (h1.trans (y1.count_reports (.misc .proofOfLife) 1).onRack) h1
    have hsuspect := Za.Same.ite (p := decides = true)
      (h3.trans (y3.raise_reports .hailSuspect .za40 agg .none 0 (liveDetail 0 missed) []).onRack) h3
    have hfailover : z.OnRack { y5 with rack := { y5.rack with failover := true } } := h5
    exact .ite hhailed (.ite hsuspect (.ite (.ite hfailover h5) h2))

theorem Za.settleRole_onRack (z : Za) : z.OnRack z.settleRole := .ite rfl (.ite rfl rfl)

/-- HAIL_EVALUATE: the dies and contexts are those left by the watch of the dies. -/
theorem Za.hailEvaluate_eq {z : Za} {locked : Nat → Bool} {d : DieEntry} (hrun : z.running = true)
    (htick : z.time.ticking = true) (heval : z.hailEval < z.time.begun) (hdies : z.dies = [d]) :
    (z.hailEvaluate locked).dies = ((z.watchDie z.frameNow locked d.die).claimCheck d.die).dies ∧
      (z.hailEvaluate locked).ctxs = ((z.watchDie z.frameNow locked d.die).claimCheck d.die).ctxs ∧
      (z.hailEvaluate locked).hailEval = ((z.watchDie z.frameNow locked d.die).claimCheck d.die).time.begun := by
  have hgo : ¬ ((!z.running || !z.time.ticking || decide (z.time.begun ≤ z.hailEval)) = true) := by
    rw [hrun, htick, decide_eq_false (by omega)]
    decide
  unfold Za.hailEvaluate
  rw [if_neg hgo, hdies]
  extract_lets n y watches x x'
  have hx : y.OnRack x := .ite (.foldl (fun z a => z.watchUnit_onRack a) _ y) (.refl y)
  have hx' : y.OnRack x' := hx.trans x.settleRole_onRack
  exact ⟨hx'.field Za.dies Prod.fst fun _ => rfl, hx'.field Za.ctxs (fun p => p.2.1) fun _ => rfl,
    congrArg TimeUnit.begun (hx'.field Za.time (fun p => p.2.2) fun _ => rfl)⟩

/-- A ZA40 of one die, the same but for that die. -/
structure Za.OneDie (z : Za) (d : DieEntry) (x : Za) : Prop where
  dies : x.dies = [d]
  ctxs : x.ctxs = z.ctxs
  time : x.time = z.time

namespace Za.OneDie
variable {z x y : Za} {d : DieEntry}

theorem of_reports (h : z.OneDie d x) (hr : x.Reports y) : z.OneDie d y :=
  ⟨hr.dies.trans h.dies, hr.ctxs.trans h.ctxs, hr.time.trans h.time⟩

theorem modDie (h : z.OneDie d x) {die : Nat} (hdie : d.die = die) (g : DieEntry → DieEntry) : z.OneDie (g d) (x.modDie die g) := by
  refine ⟨?_, h.ctxs, h.time⟩
  unfold Za.modDie modWhere
  rw [h.dies]
  simp [hdie]

theorem die? (h : z.OneDie d x) {die : Nat} (hdie : d.die = die) : x.die? die = some d := by
  unfold Za.die?
  rw [h.dies]
  simp [hdie]

/-- A claim check changes what is noted of the claim. -/
theorem claimCheck (h : z.OneDie d x) {die : Nat} (hdie : d.die = die) :
    ∃ claimRun claimSaid, z.OneDie { d with claimRun, claimSaid } (x.claimCheck die) := by
  unfold Za.claimCheck
  rw [h.die? hdie]
  dsimp only
  split
  · have hmod := h.modDie hdie (fun x => { x with claimRun := x.claimRun + 1, claimSaid := x.claimSaid || decide (8 ≤ d.claimRun + 1) })
    refine ⟨d.claimRun + 1, d.claimSaid || decide (8 ≤ d.claimRun + 1), ?_⟩
    split
    · exact hmod.of_reports (Za.raise_reports _ _ _ _ _ _ _ _)
    · exact hmod
  · exact ⟨0, false, h.modDie hdie (fun x => { x with claimRun := 0, claimSaid := false })⟩

theorem fenceDie (h : z.OneDie d x) {die : Nat} (hdie : d.die = die) (hfree : d.fenced = none) (cause frame : Nat) :
    z.OneDie { d with fenced := some frame } (x.fenceDie die cause frame) := by
  unfold Za.fenceDie
  rw [h.die? hdie]
  dsimp only
  rw [hfree]
  exact (h.modDie hdie (fun x => { x with fenced := some frame })).of_reports (Za.raiseFence_reports _ _ _ _ _ _ _ _)

end Za.OneDie

/-- A die whose Hail came. -/
def DieEntry.heard (d : DieEntry) : DieEntry :=
  { d with hailed := false, missed := 0, onTime := d.onTime + 1, live := if d.live = 2 then 1 else d.live }

theorem Za.watchDie_heard {z : Za} {d : DieEntry} {n : Nat} {locked : Nat → Bool} (hdies : z.dies = [d]) (hadm : d.admitted = true)
    (hdue : d.hailDue = true) (hhailed : d.hailed = true) : z.OneDie d.heard (z.watchDie n locked d.die) := by
  have h0 : z.OneDie d z := ⟨hdies, rfl, rfl⟩
  have h2 := (h0.modDie rfl (fun x => { x with hailed := false })).modDie (die := d.die) rfl
    (fun x => { x with missed := 0, onTime := x.onTime + 1, live := if x.live = 2 then 1 else x.live })
  unfold Za.watchDie
  rw [h0.die? rfl]
  dsimp only
  rw [hadm, hdue, if_neg (by decide), if_neg (by decide), if_pos hhailed]
  split
  · exact h2.of_reports (Za.count_reports _ _ _)
  · exact h2

/-- A die whose Hail was missed once too often. -/
def DieEntry.lost (d : DieEntry) (frame : Nat) : DieEntry :=
  { d with hailed := false, missed := d.missed + 1, onTime := 0, live := 3, fenced := some frame }

theorem Za.watchDie_lost {z : Za} {d : DieEntry} {n : Nat} {locked : Nat → Bool} (hdies : z.dies = [d]) (hadm : d.admitted = true)
    (hdue : d.hailDue = true) (hhailed : d.hailed = false) (hhold : d.hold = 0) (hlocked : locked d.die = true) (hlive : d.live = 2)
    (hmissed : 7 ≤ d.missed) (hfree : d.fenced = none) : z.OneDie (d.lost (n + 1)) (z.watchDie n locked d.die) := by
  have h0 : z.OneDie d z := ⟨hdies, rfl, rfl⟩
  have h3 := ((h0.modDie rfl (fun x => { x with hailed := false })).modDie (die := d.die) rfl
    (fun x => { x with missed := d.missed + 1, onTime := 0 })).modDie (die := d.die) rfl (fun x => { x with live := 3 })
  have h4 := h3.of_reports (Za.raise_reports _ .hailDead .dtu 0 .none d.die (liveDetail d.claim (d.missed + 1)) [])
  unfold Za.watchDie
  rw [h0.die? rfl]
  dsimp only
  rw [hadm, hdue, hhailed, hhold, hlocked, hlive, if_neg (by decide), if_neg (by decide), if_neg (by decide),
    if_neg (by simp), if_neg (by omega), if_pos ⟨rfl, by omega⟩]
  refine Za.OneDie.fenceDie (d := { d with hailed := false, missed := d.missed + 1, onTime := 0, live := 3 }) ?_ rfl hfree _ _
  split
  · exact h4.of_reports (Za.raise_reports _ _ _ _ _ _ _ _)
  · exact h4

end Sys2Proof.Machine
end

section
/-!
PROOFS. Fences on command, faults held for the tick, and memory errors of the ZA40.
-/
namespace Sys2Proof.Machine

/-! ### Handles that end at once. -/

theorem nextHseq_zero (books : List (Nat × Nat)) : nextHseq books 0 ≠ 0 ∧ nextHseq books 0 < 65536 := by
  unfold nextHseq
  extract_lets n
  have hn : n < 65536 := by
    change (match aGet books 0 with | some s => (s + 1) % 65536 | none => 0) < 65536
    split
    · exact Nat.mod_lt _ (by decide)
    · decide
  split <;> omega

theorem Za.freeIndex_lt {z : Za} {i : Nat} (h : z.freeIndex = some i) : i < 65536 := by
  unfold Za.freeIndex at h
  dsimp only at h
  split at h
  · next j hj =>
    cases h
    have hmem := List.mem_range.1 (List.mem_of_find?_eq_some hj)
    omega
  · obtain ⟨r, -, rfl⟩ := List.mem_map.1 (List.mem_of_head? h)
    exact fld_lt _ 15 0

/-- A handle is never 0 (R374). -/
theorem Za.issue_ne_zero {z : Za} {i : Nat} (hi : i < 65536) : (z.issue i).2 ≠ 0 := by
  intro h0
  have hval : (pack [(nextHseq z.cmds.hseq i, 31, 16), (i, 15, 0)]).toNat = 0 := congrArg BitVec.toNat h0
  simp only [pack, packNat, BitVec.toNat_ofNat] at hval
  have hi0 : i = 0 := by omega
  rw [hi0] at hval
  obtain ⟨hne, hlt⟩ := nextHseq_zero z.cmds.hseq
  omega

/-- A handle taken is not 0, and waits in the books. -/
theorem Za.take_waits {z z1 : Za} {op : Opcode} {h : HuskCmd} {handle : W} (ht : z.take op h none false none = some (z1, handle)) :
    handle ≠ 0 ∧ ∃ x ∈ z1.cmds.handles, x.handle = handle ∧ x.done = none := by
  unfold Za.take at ht
  obtain ⟨i, hi, heq⟩ := Option.map_eq_some_iff.1 ht
  obtain ⟨hz, hh⟩ := Prod.mk.inj heq
  rw [← hz, ← hh]
  exact ⟨Za.issue_ne_zero (Za.freeIndex_lt hi), _, List.mem_append_right _ (.head _), rfl, rfl⟩

theorem Za.finish_done {z : Za} {handle : W} (hne : handle ≠ 0) (hx : ∃ x ∈ z.cmds.handles, x.handle = handle ∧ x.done = none)
    (r : Result) : ∃ x ∈ (z.finish handle r).cmds.handles, x.handle = handle ∧ x.done = some r := by
  obtain ⟨x, hmem, hhandle, hopen⟩ := hx
  unfold Za.finish
  rw [if_neg hne]
  refine ⟨{ x with done := some r }, mem_modWhere hmem ?_, hhandle, rfl⟩
  change (x.handle == handle && x.done.isNone) = true
  rw [hhandle, hopen]
  exact Bool.and_eq_true_iff.2 ⟨beq_self_eq_true _, rfl⟩

/-- A long Husk that ends at once: its handle is done as it was told. -/
theorem Za.begins.finished {z0 z y : Za} {op : Opcode} {h : HuskCmd} {handle : W} (hb : z0.begins op h z handle)
    (hy : y.cmds = z.cmds) (r : Result) :
    ∃ x ∈ ((y.finish handle r).accepted op h handle).cmds.handles, x.handle = handle ∧ x.done = some r := by
  obtain ⟨hne, hx⟩ := Za.take_waits hb.takes
  rw [← hy] at hx
  obtain ⟨cmds, links, keomon, hreply, hhandles, -⟩ := Za.replyNow_eq (y.finish handle r) op h 1 handle (resultOf stOk) true
  unfold Za.accepted
  rw [hreply]
  change ∃ x ∈ cmds.handles, _
  rw [hhandles]
  exact Za.finish_done hne hx r

/-! ### Faults, where no fault stops the fabric. -/

/-- No fault kind is set to stop the fabric (R437). -/
def Za.NoStop (z : Za) : Prop := fld (z.reg 0xA000) 31 16 = 0

/-- What a fault or fence leaves where none stops the fabric. -/
abbrev Za.Spares (z x : Za) : Prop := z.NoStop → z.Same (fun y => (y.regs, y.cmds, y.fences.lanes, y.fences.tiles, y.ctxs)) x

theorem Za.Spares.trans {a b c : Za} (h : a.Spares b) (k : b.Spares c) : a.Spares c := fun ha =>
  have hab := h ha
  have hb : b.NoStop := by
    have hregs : b.regs = a.regs := hab.field Za.regs Prod.fst fun _ => rfl
    unfold Za.NoStop Za.reg
    rw [hregs]
    exact ha
  hab.trans (k hb)

theorem Za.Spares.ite {p : Prop} [Decidable p] {z a b : Za} (ha : z.Spares a) (hb : z.Spares b) : z.Spares (if p then a else b) := by
  split
  · exact ha
  · exact hb

theorem Za.toAgg_same_cmds (z : Za) (agg cls msg ctx gen plen : Nat) (body : List W) :
    (z.toAgg agg cls msg ctx gen plen body).cmds = z.cmds := by
  unfold Za.toAgg
  dsimp only
  split <;> rfl

theorem Za.sendFault_cmds (z : Za) (f : HeldFault) : (z.sendFault f).cmds = z.cmds := by
  unfold Za.sendFault
  extract_lets rec_ y y'
  split
  · exact Za.toAgg_same_cmds _ _ _ _ _ _ _ _
  · rfl

theorem Za.raiseMsg_spares (z : Za) (m : BitVec 128) (ext : List W) : z.Spares (z.raiseMsg m ext) := by
  intro hstop
  have hrep := z.raiseMsg_reports m ext
  have hcmds : (z.raiseMsg m ext).cmds = z.cmds := by
    unfold Za.raiseMsg
    extract_lets z0 power z1 cfg
    have h1 : z1.cmds = z.cmds := by
      change Za.cmds (if _ then _ else _) = _
      split
      · exact z.sendFault_cmds _
      · split <;> rfl
    have hregs : z1.regs = z.regs := (Za.Reports.ite ((z.sendFault_reports _).trans (z0.withWarm_reports true))
      (.ite (z.withFaults_reports _) (z.withFaults_reports _))).regs
    have hcfg : fld cfg 31 16 = 0 := by
      change fld (z1.reg 0xA000) 31 16 = 0
      unfold Za.reg
      rw [hregs]
      exact hstop
    rw [if_neg (fun h => h.1 hcfg)]
    exact h1
  exact Prod.ext hrep.regs (Prod.ext hcmds (Prod.ext (congrArg Fences.lanes hrep.fences)
    (Prod.ext (congrArg Fences.tiles hrep.fences) hrep.ctxs)))

theorem Za.checkLoss_spares (z : Za) : z.Spares z.checkLoss := by
  unfold Za.checkLoss
  have hlost : z.Spares { z with fences := { z.fences with checkLost := true } } := fun _ => rfl
  have hback : z.Spares { z with fences := { z.fences with checkLost := false } } := fun _ => rfl
  exact .ite (hlost.trans (Za.raiseMsg_spares _ _ _)) (.ite hback fun _ => rfl)

theorem Za.fenceQuadrant_spares (z : Za) (q : Nat) (cause : Option FaultKind) : z.Spares (z.fenceQuadrant q cause) := by
  unfold Za.fenceQuadrant
  refine .ite (fun _ => rfl) (.ite ?_ ?_)
  · split
    · exact z.raiseMsg_spares _ _
    · exact fun _ => rfl
  · extract_lets fences y
    have hy : z.Spares y := fun _ => rfl
    exact (hy.trans (y.raiseMsg_spares _ _)).trans (Za.checkLoss_spares _)

/-- A lane that is not fenced is fenced, and no other lane and no tile. -/
theorem Za.fenceLane_fences {z : Za} {l : Nat} (hfree : z.fences.lanes.contains l = false) (hstop : z.NoStop) (loss frame : Nat)
    (cause : Option FaultKind) : (z.fenceLane l loss frame cause).cmds = z.cmds ∧
      (z.fenceLane l loss frame cause).fences.lanes = z.fences.lanes ++ [l] ∧
      (z.fenceLane l loss frame cause).fences.tiles = z.fences.tiles ∧ (z.fenceLane l loss frame cause).ctxs = z.ctxs := by
  unfold Za.fenceLane
  rw [hfree, if_neg (by decide)]
  extract_lets fences y x
  have hx : y.Spares x := y.raiseMsg_spares _ _
  have hall : y.Spares (if 256 < x.fences.lanes.countP (fun x => decide (x / 1024 = l / 1024)) then
      x.fenceQuadrant (l / 1024) cause else x) := .ite (hx.trans (x.fenceQuadrant_spares _ _)) hx
  have hsame := hall hstop
  exact ⟨hsame.field Za.cmds (fun p => p.2.1) fun _ => rfl, hsame.field (fun y => y.fences.lanes) (fun p => p.2.2.1) fun _ => rfl,
    hsame.field (fun y => y.fences.tiles) (fun p => p.2.2.2.1) fun _ => rfl, hsame.field Za.ctxs (fun p => p.2.2.2.2) fun _ => rfl⟩

/-- A fault held for the tick, where none stops the fabric. -/
theorem Za.raiseMsg_held {z : Za} {m : BitVec 128} (hfatal : msgSeverity m ≠ 3) (hstop : z.NoStop) :
    z.raiseMsg m [] = (if z.faults.any (fun f => f.message == m) then
      { z with faults := modWhere z.faults (fun f => f.message == m) (fun f => { f with repeats := min 255 (f.repeats + 1) }) }
      else { z with faults := z.faults ++ [z.holdFault m []] }) := by
  unfold Za.raiseMsg
  rw [if_neg hfatal]
  extract_lets z1 cfg
  have hregs : z1.regs = z.regs := (Za.Reports.ite (z.withFaults_reports _) (z.withFaults_reports _)).regs
  have hcfg : fld cfg 31 16 = 0 := by
    change fld (z1.reg 0xA000) 31 16 = 0
    unfold Za.reg
    rw [hregs]
    exact hstop
  exact if_neg fun h => h.1 hcfg

/-! ### Memory errors. -/

/-- What an uncorrectable word of memory leaves: the error counts, the registers and the tag. -/
abbrev Za.KeepsEcc (z x : Za) : Prop := z.Same (fun y => (y.ecc, y.regs, y.tag)) x

theorem Za.Reports.keepsEcc {z x : Za} (h : z.Reports x) : z.KeepsEcc x :=
  Prod.ext (h.field Za.ecc fun _ => rfl) (Prod.ext h.regs h.tag)

theorem Za.Fenced.keepsEcc {z x : Za} (h : z.Fenced x) : z.KeepsEcc x :=
  Prod.ext (h.field Za.ecc fun _ _ => rfl) (Prod.ext h.regs h.tag)

theorem Za.fenceChannel_ecc (z : Za) (c : Nat) (cause : Option FaultKind) : z.KeepsEcc (z.fenceChannel c cause) := by
  unfold Za.fenceChannel
  refine .ite (.refl z) ?_
  extract_lets fences y x
  have hy : z.KeepsEcc y := rfl
  have hx : z.KeepsEcc x := hy.trans (y.raiseFence_reports _ _ _ _ _ _ _).keepsEcc
  exact .ite (hx.trans (x.fenceQuadrant_fenced _ _).keepsEcc) hx

theorem Za.channelError_ecc (z : Za) (c : Nat) : z.KeepsEcc (z.channelError c) := by
  unfold Za.channelError
  extract_lets recent fences y
  have hy : z.KeepsEcc y := rfl
  exact .ite (hy.trans (y.fenceChannel_ecc _ _)) hy

theorem Za.losePod_ecc (z : Za) (r : MemRegion) (e address : Nat) : z.KeepsEcc (z.losePod r e address) := by
  unfold Za.losePod
  split
  · exact .refl z
  · next w _ =>
    extract_lets inputs children
    split
    · exact .refl z
    · extract_lets y
      have hy : z.KeepsEcc y := rfl
      exact hy.trans (y.channelError_ecc _)
    · extract_lets lose y
      have hy : z.KeepsEcc y := rfl
      exact (hy.trans (y.count_reports _ _).keepsEcc).trans (Za.channelError_ecc _ _)

theorem Za.loseRow_ecc (z : Za) (r : MemRegion) (e address : Nat) : z.KeepsEcc (z.loseRow r e address) := by
  unfold Za.loseRow
  extract_lets rows
  split
  · exact .refl z
  · rfl

theorem Za.loseDigest_ecc (z : Za) (r : MemRegion) (e address : Nat) : z.KeepsEcc (z.loseDigest r e address) := by
  unfold Za.loseDigest
  split
  · exact .refl z
  · split
    · exact .refl z
    · exact (z.modCtx_progresses e _).field (fun y => (y.ecc, y.regs, y.tag)) fun _ => rfl

theorem Za.loseState_ecc (z : Za) (e : Nat) : z.KeepsEcc (z.loseState e) := by
  unfold Za.loseState
  split
  · exact .refl z
  · extract_lets mine
    refine .ite (.refl z) ?_
    unfold Za.askRestore
    extract_lets y
    have hy : z.KeepsEcc y := rfl
    split
    · exact hy.trans (y.toAgg_reports _ _ _ _ _ _ _).keepsEcc
    · exact hy

theorem Za.loseMirror_ecc (z : Za) (r : MemRegion) (address : Nat) : z.KeepsEcc (z.loseMirror r address) := by
  unfold Za.loseMirror
  split
  · unfold Za.seedDamage
    split
    · exact .refl z
    · extract_lets y
      have hy : z.KeepsEcc y := rfl
      exact hy.trans (y.toAgg_reports _ _ _ _ _ _ _).keepsEcc
  · exact .refl z

theorem Za.loseCheckpoint_ecc (z : Za) (r : MemRegion) (address : Nat) : z.KeepsEcc (z.loseCheckpoint r address) := by
  unfold Za.loseCheckpoint
  split <;> rfl

theorem Za.loseForward_ecc (z : Za) (r : MemRegion) (address : Nat) : z.KeepsEcc (z.loseForward r address) := by
  unfold Za.loseForward
  split <;> rfl

theorem Za.losePacket_ecc (z : Za) (r : MemRegion) (address : Nat) : z.KeepsEcc (z.losePacket r address) := by
  unfold Za.losePacket
  split <;> rfl

theorem Za.loseModel_ecc (z : Za) (r : MemRegion) (e address : Nat) : z.KeepsEcc (z.loseModel r e address) := by
  unfold Za.loseModel
  split
  · exact .refl z
  · rfl

theorem Za.lose_ecc (z : Za) (r : MemRegion) (e address : Nat) : z.KeepsEcc (z.lose r e address) := by
  cases r with
  | pod | podStore => exact z.losePod_ecc _ _ _
  | feature | featureStaging => exact z.loseRow_ecc _ _ _
  | digest => exact z.loseDigest_ecc _ _ _
  | detectState => exact z.loseState_ecc _
  | seedbank => exact z.loseMirror_ecc _ _
  | checkpoint => exact z.loseCheckpoint_ecc _ _
  | forward => exact z.loseForward_ecc _ _
  | linkBuffers => exact z.losePacket_ecc _ _
  | nodeStore | tileBuffers | model => exact z.loseModel_ecc _ _ _
  | firmware | unassigned | syncStore | contextTable | managementL2 | coreL1 => exact .refl z

/-- An uncorrectable word is counted; no correction is. -/
theorem Za.uncorrectable_counts (z : Za) (r : MemRegion) (e address symbols : Nat) :
    (z.uncorrectable r e address symbols).ecc.uncorrectable = min 0xFF (z.ecc.uncorrectable + 1) ∧
      (z.uncorrectable r e address symbols).ecc.corrected = z.ecc.corrected ∧
      (z.uncorrectable r e address symbols).regs = z.regs ∧ (z.uncorrectable r e address symbols).tag = z.tag := by
  unfold Za.uncorrectable
  extract_lets ecc y f0 f f'
  have h := (y.raiseF_reports f' []).keepsEcc.trans (Za.lose_ecc _ r e address)
  have hecc : ((y.raiseF f' []).lose r e address).ecc = y.ecc := h.field Za.ecc Prod.fst fun _ => rfl
  rw [hecc]
  exact ⟨rfl, rfl, h.field Za.regs (fun p => p.2.1) fun _ => rfl, h.field Za.tag (fun p => p.2.2) fun _ => rfl⟩

/-- A page that is retired leaves the error counts, the works and the contexts. -/
theorem Za.retirePage_keeps (z : Za) (r : MemRegion) (address : Nat) :
    z.Same (fun y => (y.ecc.uncorrectable, y.ecc.corrected, y.works, y.ctxs)) (z.retirePage r address) := by
  have hrep {a b : Za} (h : a.Reports b) : a.Same (fun y => (y.ecc.uncorrectable, y.ecc.corrected, y.works, y.ctxs)) b :=
    h.field (fun y => (y.ecc.uncorrectable, y.ecc.corrected, y.works, y.ctxs)) fun _ => rfl
  unfold Za.retirePage
  extract_lets k n inPage page ecc y
  have hy : z.Same (fun y => (y.ecc.uncorrectable, y.ecc.corrected, y.works, y.ctxs)) y := rfl
  exact .ite (hrep (z.raise_reports _ _ _ _ _ _ _)) (hy.trans (hrep (y.raiseFence_reports _ _ _ _ _ _ _)))

/-- A correction is counted. -/
theorem Za.corrected_counts (z : Za) (r : MemRegion) (address : Nat) :
    (z.corrected r address).ecc.corrected = min 0xFFFF (z.ecc.corrected + 1) ∧
      (z.corrected r address).ecc.uncorrectable = z.ecc.uncorrectable ∧ (z.corrected r address).works = z.works ∧
      (z.corrected r address).ctxs = z.ctxs := by
  unfold Za.corrected
  extract_lets y ecc y1 word mine n ecc' y2
  have h2 : y1.Same (fun y => (y.ecc.uncorrectable, y.ecc.corrected, y.works, y.ctxs)) y2 := rfl
  have h : y1.Same (fun y => (y.ecc.uncorrectable, y.ecc.corrected, y.works, y.ctxs))
      (if (!inStacks r) = true then y1 else if n = 3 then y2.retirePage r address else y2) :=
    .ite (.refl y1) (.ite (h2.trans (y2.retirePage_keeps _ _)) h2)
  exact ⟨h.field (fun y => y.ecc.corrected) (fun p => p.2.1) fun _ => rfl,
    h.field (fun y => y.ecc.uncorrectable) Prod.fst fun _ => rfl, h.field Za.works (fun p => p.2.2.1) fun _ => rfl,
    h.field Za.ctxs (fun p => p.2.2.2) fun _ => rfl⟩

/-- A read by what the code finds. -/
def Za.readAs (z : Za) (r : MemRegion) (e address symbols : Nat) : ReadOutcome → Za
  | .sound => z
  | .corrected => z.corrected r address
  | .bad => z.uncorrectable r e address symbols

/-- A read without an injection goes by what the code finds. -/
theorem Za.readWord_eq {z : Za} {r : MemRegion} {e address : Nat} {es : List (Fin 136 × Byte)} (hrun : z.running = true)
    (ha : address < regionSize r) (hinj : z.injections = []) :
    z.readWord r e address es = z.readAs r e address (wrongSymbols es).length (readOutcome r (wrongSymbols es)) := by
  have hnone : z.memInjection r address = none := by
    unfold Za.memInjection
    rw [hinj]
    rfl
  have hfound : injectSymbols (wrongSymbols es) 0 = wrongSymbols es := List.append_nil _
  unfold Za.readWord
  rw [if_neg (by rw [hrun]; simp only [Bool.not_true, Bool.false_eq_true, false_or]; omega), hnone]
  dsimp only [Option.map_none, Option.getD_none]
  rw [hfound]
  cases readOutcome r (wrongSymbols es) <;> rfl

theorem readOutcome_corrected {r : MemRegion} {es : List (Fin 136 × Byte)} (hc : corrects r = true) (hne : es ≠ [])
    (hlen : es.length ≤ 4) : readOutcome r es = .corrected := by
  unfold readOutcome
  rw [if_neg hne, if_pos hc, if_pos hlen]

/-! ### Lanes by command. -/

/-- What the tray sees of a die's time: our own DTU's state, and every other die as locked (log entry 128). -/
def State.seesLocked (s : State) (die : Nat) : Bool := decide (die ≠ s.dtu.dieId) || s.dtu.time.state == .locked

section
variable (z : Za) {u : UnitName} (hkind : u.kind = 3)
include hkind

theorem Za.isFenced_lane : z.isFenced u = z.fences.lanes.contains u.unit := by
  unfold Za.isFenced
  rw [hkind]
  rfl

theorem unitExists_lane (hunit : u.unit < 4096) : unitExists u = true := by
  unfold unitExists
  rw [hkind]
  exact decide_eq_true hunit

theorem askable_lane : askable u = false := by
  unfold askable
  rw [hkind]
  rfl

theorem Za.fenceOwn_lane : z.fenceOwn u = (z.fenceLane u.unit 1 z.frameNow none, 1) := by
  unfold Za.fenceOwn
  rw [hkind]
  rfl

end

section
variable {z : Za} {h : HuskCmd} (handle : W) (hkind : (unitOf h).kind = 3) (hunit : (unitOf h).unit < 4096)
include hkind hunit

/-- FENCE of a lane that runs. -/
theorem Za.fenceCmd_lane (hfree : z.fences.lanes.contains (unitOf h).unit = false) :
    z.fenceCmd h handle = ((z.fenceLane (unitOf h).unit 1 z.frameNow none).finish handle (okValue 1), none) := by
  rw [← Za.isFenced_lane z hkind] at hfree
  unfold Za.fenceCmd
  dsimp only
  rw [unitExists_lane hkind hunit, askable_lane hkind, hfree, Za.fenceOwn_lane z hkind, if_neg (by decide), if_neg (by decide),
    if_neg (by decide), if_neg (fun h6 => absurd (h6.1.symm.trans hkind) (by decide))]

/-- UNFENCE of a fenced lane: its self-test decides. -/
theorem Za.unfence_lane (free : Nat) (hfenced : z.isFenced (unitOf h) = true) :
    z.unfence free h handle = if Config.selfTestPasses free then
      ({ z with asks := z.asks ++ [{ unit := unitOf h, lift := true, granted := true, applied := none, handle }] }, none)
      else (z.finish handle (resultOf stUnitTestFail), none) := by
  unfold Za.unfence
  dsimp only
  rw [unitExists_lane hkind hunit, hfenced, hkind, if_neg (by decide), if_neg (by simp), if_neg (by decide)]
  cases Config.selfTestPasses free <;> rfl

/-- SELF_TEST of a fenced lane. -/
theorem Za.selfTest_lane (free : Nat) (hfenced : z.isFenced (unitOf h) = true) :
    z.selfTest free h handle = (z.finish handle (resultOf (if Config.selfTestPasses free then stOk else stUnitTestFail)), none) := by
  unfold Za.selfTest
  dsimp only
  rw [unitExists_lane hkind hunit, hfenced, hkind, if_neg (by decide), if_neg (by decide)]

end

/-- A die whose next HELLO admits it again. -/
def DieEntry.readmitted (d : DieEntry) : DieEntry :=
  { d with admGen := if d.admGen = 0xFF then 1 else d.admGen + 1, readmitDue := true }

/-- The tray as a die is admitted again: its detector records are gone. -/
def Za.readmitting (z : Za) (die : Nat) : Za :=
  { z.modDie die DieEntry.readmitted with detRecs := z.detRecs.filter (fun r => decide (fld r.key 19 0 ≠ die)) }

/-- READMIT of a fenced die that has said eight Hails: its link is reset, and its records are gone. -/
theorem Za.readmit_eq {z : Za} {h : HuskCmd} {d : DieEntry} (hd : z.die? (huskP0 h) = some d) (hfenced : d.fenced.isSome = true)
    (hlive : 8 ≤ d.onTime) : ∃ x, z.readmit h = (x, none) ∧ x.die? (huskP0 h) = some d.readmitted ∧
      (∀ r ∈ x.detRecs, fld r.key 19 0 ≠ huskP0 h) ∧ x.ctxs = z.ctxs := by
  have hsome : ¬ d.fenced.isNone = true := by
    cases hf : d.fenced with
    | none => rw [hf] at hfenced; cases hfenced
    | some n => exact Bool.false_ne_true
  unfold Za.readmit
  dsimp only
  rw [hd]
  dsimp only
  rw [if_neg hsome, if_neg (by omega)]
  obtain ⟨links, nextTag, hrelay⟩ := Za.relay_eq (z.readmitting (huskP0 h)) (huskP0 h) .linkResetCmd
    (ownHusk (huskP0 h) 0 0 [] 0xFFFF0000) 0 false
  refine ⟨(z.readmitting (huskP0 h)).relay (huskP0 h) .linkResetCmd (ownHusk (huskP0 h) 0 0 [] 0xFFFF0000) 0 false, rfl, ?_⟩
  rw [hrelay]
  exact ⟨(Za.die?_modDie_same z (huskP0 h) (g := DieEntry.readmitted) fun _ => rfl).trans (congrArg _ hd),
    fun r hr => of_decide_eq_true (List.mem_filter.1 hr).2, rfl⟩

/-- Settles O57: each row's premises are its conditions, and the lemma on what it runs gives what it leaves. -/
theorem unitsAreWatchedAndFenced : Obligations.UnitsAreWatchedAndFenced := by
  unfold Obligations.UnitsAreWatchedAndFenced
  refine ⟨?hailSend, ?hail, ?heard, ?lost, ?failover, ?fence, ?unfence, ?readmit, ?selfTest, ?notice, ?fault, ?repeated, ?bad,
    ?corrected, ?scrub⟩
  case hailSend =>
    rintro s n vcore temp hdue hrun
    obtain ⟨h1, h2, h3, h4, h5⟩ := Za.hailSend_sends hdue hrun vcore
    exact ⟨_, .of_row (g := fun z => z.hailSend vcore) rfl rfl, h1, h2, h3, h4, h5⟩
  case hail =>
    rintro s p f z die d ht rfl hcls hmsg hlen hkind hsort hfrom hdie hframe heval hd
    have hrow : s.za.hail p.val f = (s.za.taken p.val f).modDie die
        (fun d => { d with hailed := true, hold := if d.holdEnds then 0 else d.hold, holdEnds := false }) := by
      refine (if_neg ?_).trans ?_
      · change ¬ ((!(s.za.receive p.val f).2) = true ∨ f.cls ≠ 1 ∨ f.msg ≠ 3 ∨ f.plen ≠ 32 ∨ wf f.body 0 31 28 ≠ 1 ∨
          (!decide ((s.za.taken p.val f).frameOf (word f.body 2).toNat = (s.za.taken p.val f).frameNow ∧
            (s.za.taken p.val f).hailEval < (s.za.taken p.val f).time.begun)) = true)
        have hgot : (s.za.receive p.val f).2 = true := ht
        rw [hgot, hcls, hmsg, hlen, hkind, decide_eq_true ⟨hframe, heval⟩]
        decide
      · have hfrom' : (s.za.receive p.val f).1.fromDie p.val f = some die := hfrom
        dsimp only
        rw [hsort, hfrom']
        exact if_pos hdie
    have hdie' := (Za.die?_modDie_same (s.za.taken p.val f) die
      (g := fun d => { d with hailed := true, hold := if d.holdEnds then 0 else d.hold, holdEnds := false }) fun _ => rfl).trans
      (congrArg _ hd)
    exact ⟨_, _, .of_row (g := fun z => z.hail p.val f) rfl hrow, hdie', rfl, rfl, rfl, rfl, rfl⟩
  case heard =>
    rintro s d hrun htick heval hdies hadm hdue hhailed
    obtain ⟨hz, hctxs, hev⟩ := Za.hailEvaluate_eq
      (locked := s.seesLocked) hrun htick heval hdies
    obtain ⟨_, _, hone⟩ := (Za.watchDie_heard hdies hadm hdue hhailed (n := s.za.frameNow)
      (locked := s.seesLocked)).claimCheck (die := d.die) rfl
    exact ⟨_, _, .of_row (g := fun z => z.hailEvaluate s.seesLocked) rfl rfl, (Za.die?_of_dies hz).trans (hone.die? rfl), rfl, rfl, rfl,
      rfl, hev.trans (congrArg TimeUnit.begun hone.time), hctxs.trans hone.ctxs⟩
  case lost =>
    rintro s d hrun htick heval hdies hadm hdue hhailed hhold hlocked hlive hmissed hfree
    have hlocked' : s.seesLocked d.die = true := by
      rcases hlocked with h | h
      · exact Bool.or_eq_true_iff.2 (.inl (decide_eq_true h))
      · exact Bool.or_eq_true_iff.2 (.inr (beq_iff_eq.2 h))
    obtain ⟨hz, hctxs, hev⟩ := Za.hailEvaluate_eq
      (locked := s.seesLocked) hrun htick heval hdies
    obtain ⟨_, _, hone⟩ := (Za.watchDie_lost hdies hadm hdue hhailed hhold hlocked' hlive hmissed hfree
      (n := s.za.frameNow)).claimCheck (die := d.die) rfl
    exact ⟨_, _, .of_row (g := fun z => z.hailEvaluate s.seesLocked) rfl rfl, (Za.die?_of_dies hz).trans (hone.die? rfl), rfl, rfl, rfl,
      rfl, hev.trans (congrArg TimeUnit.begun hone.time), hctxs.trans hone.ctxs⟩
  case failover =>
    rintro s hdue hrun
    have hkeep := Za.raise_reports { s.za with rack := { s.za.rack with failover := false, acting := true } } .rmFailover .za40
      s.za.aggId .none 0 0 []
    exact ⟨_, .of_row (g := Za.rmFailover) rfl (if_pos ⟨hdue, hrun⟩), hkeep.rack, hkeep.ctxs, hkeep.works⟩
  case fence =>
    rintro s h z handle hb hkind hunit hfree hstop
    rw [Za.isFenced_lane z hkind] at hfree
    obtain ⟨hcmds, hlanes, htiles, hctxs⟩ := Za.fenceLane_fences hfree hstop 1 z.frameNow none
    obtain ⟨x, hmem, hhandle, hdone⟩ := hb.finished hcmds (okValue 1)
    have hkeep := (Za.finish_reports (z.fenceLane (unitOf h).unit 1 z.frameNow none) handle (okValue 1)).trans
      (Za.accepted_reports _ .fence h handle)
    exact ⟨_, x, .of_long rfl hb (hb.long rfl) (Za.fenceCmd_lane handle hkind hunit hfree),
      (congrArg Fences.lanes hkeep.fences).trans hlanes, hmem, hhandle, hdone, (congrArg Fences.tiles hkeep.fences).trans htiles,
      hkeep.ctxs.trans hctxs⟩
  case unfence =>
    rintro s h z handle hb hkind hunit hfenced
    have hrow := Za.unfence_lane handle hkind hunit s.free hfenced
    cases hpass : Config.selfTestPasses s.free with
    | true =>
      rw [hpass, if_pos rfl] at hrow
      have hkeep := Za.accepted_reports { z with
        asks := z.asks ++ [{ unit := unitOf h, lift := true, granted := true, applied := none, handle }] } .unfence h handle
      exact ⟨_, .of_long rfl hb (hb.long rfl) hrow, hkeep.fences, hkeep.ctxs,
        fun _ => ⟨_, hkeep.field Za.asks fun _ => rfl, rfl, rfl, rfl, rfl, rfl⟩, fun h => absurd h (by decide)⟩
    | false =>
      rw [hpass, if_neg (by decide)] at hrow
      have hkeep := (Za.finish_reports z handle (resultOf stUnitTestFail)).trans (Za.accepted_reports _ .unfence h handle)
      exact ⟨_, .of_long rfl hb (hb.long rfl) hrow, hkeep.fences, hkeep.ctxs, fun h => absurd h (by decide),
        fun _ => hb.finished rfl _⟩
  case readmit =>
    rintro s h z handle d hb hd hfenced hlive
    obtain ⟨x, hrow, hdies, hrecs, hctxs⟩ := Za.readmit_eq hd hfenced hlive
    have hkeep := Za.accepted_reports x .readmit h handle
    refine ⟨_, d.readmitted, .of_long rfl hb (hb.long rfl) hrow, (Za.die?_of_dies hkeep.dies).trans hdies, rfl, rfl, rfl, ?_,
      hkeep.ctxs.trans hctxs⟩
    rw [hkeep.detRecs]
    exact hrecs
  case selfTest =>
    rintro s h z handle hb hkind hunit hfenced
    obtain ⟨x, hmem, hhandle, hdone⟩ :=
      hb.finished (y := z) rfl (resultOf (if Config.selfTestPasses s.free then stOk else stUnitTestFail))
    have hkeep := (Za.finish_reports z handle (resultOf (if Config.selfTestPasses s.free then stOk else stUnitTestFail))).trans
      (Za.accepted_reports _ .selfTest h handle)
    exact ⟨_, x, .of_long rfl hb (hb.long rfl) (Za.selfTest_lane handle hkind hunit s.free hfenced), hmem, hhandle, hkeep.fences,
      hdone, hkeep.ctxs⟩
  case notice =>
    rintro s agg hrun hother hnone hnew
    refine .of_row (g := fun z => z.fenceNotice agg.toNat) rfl ?_
    unfold Za.fenceNotice
    rw [if_neg (by
      rw [hrun, not_or, not_or]
      refine ⟨by decide, hother, ?_⟩
      simp only [List.any_eq_true, beq_iff_eq, not_exists, not_and]
      exact hnew)]
    dsimp only
    rw [hnone]
    rfl
  case fault =>
    rintro s m hrun hfatal hnew hstop
    refine .of_row (g := fun z => z.raiseMsg m []) (congrArg Host.Outcome.next (if_pos hrun)) ?_
    refine (Za.raiseMsg_held hfatal hstop).trans (if_neg ?_)
    simp only [List.any_eq_true, beq_iff_eq, not_exists, not_and]
    exact hnew
  case repeated =>
    rintro s m x hrun hfatal hone hm hstop
    refine .of_row (g := fun z => z.raiseMsg m []) (congrArg Host.Outcome.next (if_pos hrun)) ?_
    have hsame : (x.message == m) = true := beq_iff_eq.2 hm
    have hany : s.za.faults.any (fun f => f.message == m) = true := by
      rw [hone, List.any_cons, hsame, Bool.true_or]
    refine (Za.raiseMsg_held hfatal hstop).trans ((if_pos hany).trans ?_)
    have hlist : modWhere s.za.faults (fun f => f.message == m) (fun f => { f with repeats := min 255 (f.repeats + 1) }) =
        [{ x with repeats := min 255 (x.repeats + 1) }] := by
      rw [hone]
      exact congrArg (fun y => [y]) (if_pos hsame)
    rw [hlist]
  case bad =>
    rintro s r entry a es hrun ha hinj hbad
    have hrow : s.za.readWord r entry.val a es = s.za.uncorrectable r entry.val a (wrongSymbols es).length := by
      rw [Za.readWord_eq hrun ha hinj, hbad]
      rfl
    exact ⟨_, .of_row (g := fun z => z.readWord r entry.val a es) rfl hrow, s.za.uncorrectable_counts r entry.val a _⟩
  case corrected =>
    rintro s r entry a es hrun ha hinj hc hne hlen
    have hrow : s.za.readWord r entry.val a es = s.za.corrected r a := by
      rw [Za.readWord_eq hrun ha hinj, readOutcome_corrected hc hne hlen]
      rfl
    exact ⟨_, .of_row (g := fun z => z.readWord r entry.val a es) rfl hrow, s.za.corrected_counts r a⟩
  case scrub =>
    rintro s r entry a es hrun hscrub ha hpass hinj hc hne hlen
    have hrow : s.za.scrubRead r entry.val a es = s.za.corrected r a := by
      unfold Za.scrubRead
      rw [if_neg (by rw [hscrub, hc]; simp)]
      dsimp only
      rw [if_neg (fun h => absurd (hpass h.1) (by omega)), Za.readWord_eq hrun ha hinj, readOutcome_corrected hc hne hlen]
      rfl
    exact ⟨_, .of_row (g := fun z => z.scrubRead r entry.val a es) rfl hrow, s.za.corrected_counts r a⟩

end Sys2Proof.Machine
end

section
/-!
PROOFS. What a thaw takes up leaves of the Frost: results delivered and Pods that go on.
-/
namespace Sys2Proof.Machine

/-- `x` is `z` with the same Frost. -/
abbrev Za.SameFrost (z x : Za) : Prop := z.Same Za.frost x

theorem Za.enqueue_frost (z : Za) (p : Nat) (die : Option Nat) (f : TxFrame) : z.SameFrost (z.enqueue p die f) := rfl

theorem Za.finish_frost (z : Za) (handle : W) (r : Result) : z.SameFrost (z.finish handle r) := .ite (.refl z) rfl

theorem Za.testWaits_frost (z : Za) (i : Nat) : z.SameFrost (z.testWaits i) := by
  unfold Za.testWaits
  split
  · exact .refl z
  · exact Za.Same.trans (b := { z with waits := _ }) rfl (.foldl (fun x w => .ite (x.finish_frost _ _) (.refl x)) _ _)

theorem Za.modSync_frost (z : Za) (i : Nat) (f : SyncObj → SyncObj) : z.SameFrost (z.modSync i f) := by
  unfold Za.modSync
  split
  · exact .refl z
  · exact Za.Same.trans (b := { z with syncs := _ }) rfl (Za.testWaits_frost _ i)

theorem Za.event_frost (z : Za) (id gen : Nat) (src : SyncSource) (n : Nat) : z.SameFrost (z.event id gen src n) :=
  .ite (.refl z) (.foldl (fun x i => x.modSync_frost i _) _ z)

theorem Za.modCtx_frost (z : Za) (e : Nat) (g : Ctx → Ctx) : z.SameFrost (z.modCtx e g) := by
  unfold Za.modCtx
  split
  · rfl
  · exact .refl z

theorem Za.count_frost (z : Za) (c : ZCnt) (n : Nat) : z.SameFrost (z.count c n) := rfl

theorem Za.modPod_frost (z : Za) (e f i rerun : Nat) (g : Pod → Pod) : z.SameFrost (z.modPod e f i rerun g) := rfl

theorem Za.lateItem_frost (z : Za) (e f phase n deadline : Nat) : z.SameFrost (z.lateItem e f phase n deadline) := .ite (.refl z) rfl

theorem Za.toSubscribers_frost (z : Za) (e kind cls msg : Nat) (body : List W) :
    z.SameFrost (z.toSubscribers e kind cls msg body) := by
  unfold Za.toSubscribers
  split
  · exact .refl z
  · refine .foldl (fun x s => ?_) _ z
    exact .ite rfl (.foldl (fun y p => y.enqueue_frost _ _ _) _ x)

theorem Za.toAgg_frost (z : Za) (agg cls msg ctx gen plen : Nat) (body : List W) :
    z.SameFrost (z.toAgg agg cls msg ctx gen plen body) := .ite rfl rfl

theorem Za.sendRed_frost (z : Za) (agg msg ctx gen : Nat) (ws : List W) : z.SameFrost (z.sendRed agg msg ctx gen ws) :=
  z.toAgg_frost _ _ _ _ _ _ _

/-! ### Finals delivered. -/

theorem Za.deliverOut_frost (z : Za) (e : Nat) (ws : List W) : z.SameFrost (z.deliverOut e ws) := z.toSubscribers_frost _ _ _ _ _

theorem Za.passSeq_frost (z : Za) (e ch : Nat) : z.SameFrost (z.passSeq e ch) := by
  unfold Za.passSeq
  split
  · exact .refl z
  · exact (z.modCtx_frost e _).trans (Za.event_frost _ _ _ _ _)

theorem Za.drainHeld_frost (e ch n : Nat) (z : Za) : z.SameFrost (Za.drainHeld e ch n z) := by
  induction n generalizing z with
  | zero => exact .refl z
  | succ n ih =>
    unfold Za.drainHeld
    split
    · exact .refl z
    · split
      · exact .refl z
      · exact (((z.modCtx_frost e _).trans (Za.deliverOut_frost _ e _)).trans (Za.passSeq_frost _ e ch)).trans (ih _)

theorem Za.skipSeq_frost (z : Za) (e ch : Nat) : z.SameFrost (z.skipSeq e ch) := by
  unfold Za.skipSeq
  split
  · exact .refl z
  · exact (((z.modCtx_frost e _).trans (Za.count_frost _ _ _)).trans (Za.passSeq_frost _ e ch)).trans (Za.drainHeld_frost e ch 65 _)

theorem Za.makeRoom_frost (e ch seq n : Nat) (z : Za) : z.SameFrost (Za.makeRoom e ch seq n z) := by
  induction n generalizing z with
  | zero => exact .refl z
  | succ n ih =>
    unfold Za.makeRoom
    exact .ite (.refl z) (((z.count_frost _ 1).trans (Za.skipSeq_frost _ e ch)).trans (ih _))

theorem Za.skipTo_frost (e ch n limit : Nat) (z : Za) : z.SameFrost (Za.skipTo e ch n limit z) := by
  induction n generalizing z with
  | zero => exact .refl z
  | succ n ih =>
    unfold Za.skipTo
    split
    · exact .refl z
    · exact .ite (.refl z) ((z.skipSeq_frost e ch).trans (ih _))

theorem Za.reorder_frost (z : Za) (e : Nat) (r : PodRec) : z.SameFrost (z.reorder e r) := by
  unfold Za.reorder
  extract_lets ch d y d'
  have hy : z.SameFrost y := .ite (Za.makeRoom_frost e ch r.seq _ z) (.refl z)
  clear_value y
  refine hy.trans ?_
  split
  · exact .refl y
  · refine .ite (((y.deliverOut_frost e _).trans (Za.passSeq_frost _ e ch)).trans (Za.drainHeld_frost e ch 65 _)) ?_
    exact .ite (.ite (y.count_frost _ 1) (y.modCtx_frost e _)) (.ite ((y.modCtx_frost e _).trans (Za.deliverOut_frost _ e _))
      (y.count_frost _ 1))

theorem Za.deliver_frost (z : Za) (e : Nat) (r : PodRec) : z.SameFrost (z.deliver e r) := by
  unfold Za.deliver
  extract_lets y y'
  have hy : z.SameFrost y := rfl
  have hy' : y.SameFrost y' := .ite (y.count_frost _ 1) (.refl y)
  exact (hy.trans hy').trans (.ite (y'.deliverOut_frost e _) (y'.reorder_frost e r))

theorem Za.finalHere_frost (z : Za) (e : Nat) (w : FrameWork) (t : FabTree) (p : Pod) (r : PodRec) :
    z.SameFrost (z.finalHere e w t p r) := by
  unfold Za.finalHere
  extract_lets r' y late y'
  have hy : z.SameFrost y := .foldl (fun x a => x.sendRed_frost _ _ _ _ _) _ z
  have hy' : y.SameFrost y' := y.modPod_frost _ _ _ _ _
  exact ((hy.trans hy').trans (y'.lateItem_frost _ _ _ _ _)).trans (Za.deliver_frost _ e r')

theorem Za.finalDown_frost (z : Za) (v : Option CtxView) (r : PodRec) : z.SameFrost (z.finalDown v r) := by
  unfold Za.finalDown
  split
  · exact .foldl (fun x a => x.sendRed_frost _ _ _ _ _) _ z
  · exact .refl z

theorem Za.finalDown_progresses (z : Za) (v : Option CtxView) (r : PodRec) : z.Progresses (z.finalDown v r) := by
  unfold Za.finalDown
  split
  · exact .foldl (fun x a => x.sendRed_progresses _ _ _ _ _) _ z
  · exact .refl z

/-! ### Pods that go on. -/

theorem Za.countAbsent_frost (z : Za) (e : Nat) (w : FrameWork) (p : Pod) : z.SameFrost (z.countAbsent e w p) :=
  .ite (.refl z) (.foldl (fun x a => x.count_frost _ _) _ z)

theorem Za.progressPod_frost (z : Za) (e f i rerun : Nat) : z.SameFrost (z.progressPod e f i rerun) := by
  unfold Za.progressPod
  split
  · exact .refl z
  · split
    · exact .refl z
    next w _ _ p _ =>
      extract_lets t ready y tray from_ hosting r y1 y2 out
      refine .ite (.refl z) ?_
      have hy : z.SameFrost y := .ite (z.countAbsent_frost e w p) (.refl z)
      have hy1 : y.SameFrost y1 := y.count_frost _ _
      have hy2 : y1.SameFrost y2 := y1.modPod_frost _ _ _ _ _
      refine ((hy.trans hy1).trans hy2).trans ?_
      refine .ite (y2.finalHere_frost e w t p _) (.ite ?_ (.refl y2))
      split
      · exact .refl y2
      · exact (y2.sendRed_frost _ _ _ _ _).trans (Za.modPod_frost _ _ _ _ _ _)

theorem Za.progress_frost (z : Za) (e f : Nat) : z.SameFrost (z.progress e f) := by
  unfold Za.progress
  split
  · exact .refl z
  · exact .foldl (fun x (k : Nat × Nat) => x.progressPod_frost e f k.1 k.2) _ z

/-! ### What waits is taken up. -/

/-- What is taken up leaves: the Frost, the time, and what is staged. -/
abbrev Za.TakesUp (z x : Za) : Prop := z.Same (fun y => (y.frost, y.time, y.staged)) x

theorem Za.TakesUp.of_progresses {z x : Za} (hf : z.SameFrost x) (hp : z.Progresses x) : z.TakesUp x :=
  Prod.ext hf (Prod.ext hp.time (hp.field Za.staged fun _ => rfl))

/-- A final that is not held back by a FULL Frost goes on its way. -/
theorem Za.finalIn_takesUp {z : Za} (hrun : z.frozenFull = false) (ws : List W) : z.TakesUp (z.finalIn ws) := by
  unfold Za.finalIn
  split
  · exact .refl z
  · next r _ =>
    rw [hrun, if_neg (by decide)]
    refine .ite (.refl z) ?_
    split
    · exact .refl z
    · next e _ =>
      split
      · exact Za.TakesUp.of_progresses ((z.finalDown_frost _ _).trans (Za.deliver_frost _ _ _))
          ((z.finalDown_progresses _ _).trans (Za.deliver_progresses _ _ _))
      · next w _ =>
        split
        · next p _ =>
          exact .ite (Za.TakesUp.of_progresses (z.count_frost _ _) (.of_reports (z.count_reports _ _)))
            (Za.TakesUp.of_progresses (z.finalHere_frost e w _ p r) (z.finalHere_progresses e w _ p r))
        · exact Za.TakesUp.of_progresses ((z.finalDown_frost _ _).trans (Za.deliver_frost _ _ _))
            ((z.finalDown_progresses _ _).trans (Za.deliver_progresses _ _ _))

theorem Za.foldl_finalIn_takesUp (l : List (List W)) (z : Za) (hrun : z.frozenFull = false) : z.TakesUp (l.foldl Za.finalIn z) := by
  induction l generalizing z with
  | nil => exact .refl z
  | cons ws l ih =>
    have hone := Za.finalIn_takesUp hrun ws
    have hfrost : (z.finalIn ws).frost = z.frost := hone.field Za.frost Prod.fst fun _ => rfl
    refine hone.trans (ih _ ?_)
    unfold Za.frozenFull
    rw [hfrost]
    exact hrun

/-- Outside a Frost everything staged is taken up, and nothing stays. -/
theorem Za.takeUp_keeps {z : Za} (hrun : z.frost.state ≠ 2) : z.takeUp.frost = z.frost ∧ z.takeUp.time = z.time ∧
    z.takeUp.staged = [] := by
  have hfrozen : Za.frozenFull { z with staged := [] } = false := by
    change (z.frost.state == 2 && z.frost.full) = false
    rw [beq_eq_false_iff_ne.2 hrun, Bool.false_and]
  have hfinals := Za.foldl_finalIn_takesUp z.staged { z with staged := [] } hfrozen
  have hpods (l : List (Nat × Nat)) (x : Za) : x.TakesUp (l.foldl (fun z k => z.progress k.1 k.2) x) :=
    .foldl (fun x k => Za.TakesUp.of_progresses (x.progress_frost _ _) (x.progress_progresses _ _)) l x
  have hall : Za.TakesUp { z with staged := [] } z.takeUp := hfinals.trans (hpods _ _)
  exact ⟨hall.field Za.frost Prod.fst fun _ => rfl, hall.field Za.time (fun p => p.2.1) fun _ => rfl,
    hall.field Za.staged (fun p => p.2.2) fun _ => rfl⟩

end Sys2Proof.Machine
end

section
/-!
PROOFS. Frost, scan-out, loop tests and injection at the ZA40.
-/
namespace Sys2Proof.Machine

/-! ### Frost messages. -/

theorem Za.frostSend_eq (z : Za) (msg : Nat) (dies : List Nat) (instant : Nat) :
    ∃ links, z.frostSend msg dies instant = { z with links } := by
  unfold Za.frostSend
  refine List.foldlRecOn (motive := fun x : Za => ∃ links, x = { z with links }) dies _ ⟨z.links, rfl⟩ fun x hx die _ => ?_
  obtain ⟨links, rfl⟩ := hx
  exact Za.toDie_eq _ _ _ _ _ _ _ _

/-- A message begun goes to every live die, none of which has acknowledged it. -/
theorem Za.frostBegin_eq (z : Za) (msg instant : Nat) : ∃ links, z.frostBegin msg instant =
    { z with links, frost := { z.frost with message := msg, targets := z.frostDies, acked := [], instant } } :=
  Za.frostSend_eq { z with frost := { z.frost with message := msg, targets := z.frostDies, acked := [], instant } } msg z.frostDies instant

/-- Dies that still owe an acknowledgement keep the message open. -/
theorem Za.frostEnd_owed {z : Za} (h : z.frostOwed ≠ []) : z.frostEnd = z :=
  if_pos (by rw [Bool.not_eq_true', List.isEmpty_eq_false_iff]; exact h)

theorem Za.finish_eq (z : Za) (handle : W) (r : Result) : ∃ cmds, z.finish handle r = { z with cmds } := by
  unfold Za.finish
  split
  · exact ⟨z.cmds, rfl⟩
  · exact ⟨_, rfl⟩

/-- The end of a message ends a command, and nothing else. -/
theorem Za.frostEnd_eq (z : Za) : ∃ cmds armHandle thawHandle, z.frostEnd =
    { z with cmds, frost := { z.frost with armHandle, thawHandle } } := by
  unfold Za.frostEnd
  split
  · exact ⟨z.cmds, z.frost.armHandle, z.frost.thawHandle, rfl⟩
  · split
    · obtain ⟨cmds, hz⟩ := Za.finish_eq { z with frost := { z.frost with armHandle := 0 } } z.frost.armHandle
        (Za.armCounts { z with frost := { z.frost with armHandle := 0 } })
      exact ⟨cmds, 0, z.frost.thawHandle, hz⟩
    · split
      · obtain ⟨cmds, hz⟩ := Za.finish_eq { z with frost := { z.frost with thawHandle := 0 } } z.frost.thawHandle (resultOf stOk)
        exact ⟨cmds, z.frost.armHandle, 0, hz⟩
      · exact ⟨z.cmds, z.frost.armHandle, z.frost.thawHandle, rfl⟩

theorem Za.finish_all_done {z : Za} {handle : W} (hne : handle ≠ 0) (r : Result) :
    ∀ x ∈ (z.finish handle r).cmds.handles, x.handle = handle → x.done.isSome = true := by
  unfold Za.finish
  rw [if_neg hne]
  intro x hx hhandle
  obtain ⟨y, -, hy⟩ := List.mem_map.1 hx
  dsimp only at hy
  split at hy
  · rw [← hy]
    rfl
  · next hkeep =>
    rw [hy, hhandle] at hkeep
    simpa [Option.isSome_iff_ne_none] using hkeep

/-- The last acknowledgement of an ARM ends its FROST_ARM. -/
theorem Za.frostEnd_armed {z : Za} (howed : z.frostOwed = []) (hmsg : z.frost.message = 1) (harm : z.frost.armHandle ≠ 0) :
    ∀ x ∈ z.frostEnd.cmds.handles, x.handle = z.frost.armHandle → x.done.isSome = true := by
  have hrow : z.frostEnd = Za.finish { z with frost := { z.frost with armHandle := 0 } } z.frost.armHandle
      (Za.armCounts { z with frost := { z.frost with armHandle := 0 } }) := by
    unfold Za.frostEnd
    rw [howed, if_neg (by decide), if_pos ⟨hmsg, harm⟩]
    rfl
  rw [hrow]
  exact Za.finish_all_done harm _

theorem Za.toPeer_frost (z : Za) (p cls msg plen : Nat) (body : List W) : z.SameFrost (z.toPeer p cls msg plen body) := rfl

/-- What an immediate stop makes of the Frost. -/
theorem Za.stopNow_frost (z : Za) (frostId : W) (full : Bool) (except : Option Nat) :
    (z.stopNow frostId full except).frost.state = 2 ∧ (z.stopNow frostId full except).frost.smear = true ∧
      (z.stopNow frostId full except).frost.frostId = frostId ∧ (z.stopNow frostId full except).frost.full = full ∧
      (z.stopNow frostId full except).frost.message = 3 ∧ (z.stopNow frostId full except).frost.snapshot.isSome = true ∧
      (z.stopNow frostId full except).frost.seen = z.frost.seen ++ [frostId] := by
  unfold Za.stopNow
  extract_lets y frost y1 y2 y3
  have hy : y.frost = z.frost := z.finish_frost _ _
  have hlast : y3.SameFrost (((y3.upLinks 2).filter (fun p => except != some p)).foldl (fun z p =>
      z.toPeer p clsFrost 0x03 32 (frostBody frostId full 0 z.frost.stopNs 0 0)) y3) :=
    .foldl (fun x p => x.toPeer_frost _ _ _ _ _) _ y3
  obtain ⟨links, hy3⟩ := Za.frostBegin_eq y2 0x03 y2.nowNs
  have hfrost : y3.frost = { y2.frost with message := 3, targets := y2.frostDies, acked := [], instant := y2.nowNs } :=
    congrArg Za.frost hy3
  unfold Za.SameFrost Za.Same at hlast
  rw [hlast, hfrost]
  exact ⟨rfl, rfl, rfl, rfl, rfl, rfl, congrArg (fun f : ZaFrost => f.seen ++ [frostId]) hy⟩

/-! ### What a reply leaves of the Frost and the queues. -/

theorem Za.replyNow_frost (z : Za) (op : Opcode) (h : HuskCmd) (ckind : Nat) (handle : W) (r : Result) (cache : Bool) :
    z.SameFrost (z.replyNow op h ckind handle r cache) := by
  obtain ⟨cmds, links, keomon, hreply, -⟩ := z.replyNow_eq op h ckind handle r cache
  change (z.replyNow op h ckind handle r cache).frost = z.frost
  rw [hreply]

theorem Za.answered_frost (z : Za) (op : Opcode) (h : HuskCmd) (r : Result) : (z.answered op h r).frost = z.frost :=
  z.replyNow_frost _ _ _ _ _ _

theorem Za.accepted_frost (z : Za) (op : Opcode) (h : HuskCmd) (handle : W) : (z.accepted op h handle).frost = z.frost :=
  z.replyNow_frost _ _ _ _ _ _

theorem Za.toRequester_queues (z : Za) (req : Requester) (ctx gen : Nat) (rec_ : List W) :
    z.Queues (z.toRequester req ctx gen rec_) := by
  unfold Za.toRequester
  exact .ite (.refl z) (.ite (.of_links rfl) (z.enqueue_queues _ _ _))

theorem Za.accepted_queues (z : Za) (op : Opcode) (h : HuskCmd) (handle : W) : z.Queues (z.accepted op h handle) :=
  Za.Queues.trans (.of_links rfl) (Za.toRequester_queues _ _ _ _ _)

/-! ### Frames for dies. -/

/-- A Frost frame that waits for a die. -/
structure Queued.isFrost (q : Queued) (die msg : Nat) : Prop where
  toDie : q.die = some die
  cls : q.frame.cls = 2
  code : q.frame.msg = msg
  dest : q.frame.dest = dtuMac die

/-- A Frost frame for a die that is not held waits on its link. -/
theorem Za.toDie_frost_queued {z : Za} {die : Nat} {d : DieEntry} (hd : z.die? die = some d) (hheld : z.isHeld d = false)
    (msg ctx gen plen : Nat) (body : List W) :
    ∃ q ∈ ((z.toDie die clsFrost msg ctx gen plen body).link d.link).queue, q.isFrost die msg := by
  unfold Za.toDie
  rw [hd]
  dsimp only
  rw [hheld, if_neg (by simp), Za.enqueue_queue]
  exact ⟨_, List.mem_append_right _ (.head _), rfl, rfl, rfl, rfl⟩

/-- A message sent to dies waits for each that is not held. -/
theorem Za.frostSend_queued {die : Nat} {d : DieEntry} (msg instant : Nat) (dies : List Nat) (z : Za) (hd : z.die? die = some d)
    (hheld : z.isHeld d = false) (hmem : die ∈ dies) :
    ∃ q ∈ ((z.frostSend msg dies instant).link d.link).queue, q.isFrost die msg := by
  induction dies generalizing z with
  | nil => exact absurd hmem List.not_mem_nil
  | cons b bs ih =>
    obtain ⟨links, hsent⟩ := z.toDie_eq b clsFrost msg 0xFFFF 0 32 (frostBody z.frost.frostId z.frost.full 0 instant 0 0)
    have hrest : z.frostSend msg (b :: bs) instant = Za.frostSend (z.toDie b clsFrost msg 0xFFFF 0 32
        (frostBody z.frost.frostId z.frost.full 0 instant 0 0)) msg bs instant := rfl
    rw [hrest]
    rcases List.mem_cons.1 hmem with rfl | hin
    · obtain ⟨q, hq, hfrost⟩ := Za.toDie_frost_queued hd hheld msg 0xFFFF 0 32
        (frostBody z.frost.frostId z.frost.full 0 instant 0 0)
      exact ⟨q, (Za.frostSend_queues _ _ _ _).mem hq, hfrost⟩
    · rw [hsent]
      exact ih _ hd hheld hin

/-! ### Loop tests. -/

/-- A link fed for its test: a test is as it was but for the frames sent. -/
theorem Za.feedTest_tests (z : Za) (p : Nat) {t : LinkTest} (ht : t ∈ z.tests) :
    ∃ x ∈ (z.feedTest p).tests, x = { t with sent := x.sent } := by
  unfold Za.feedTest
  extract_lets waits
  split
  · next u dst _ _ =>
    split
    · exact ⟨t, ht, rfl⟩
    · refine ⟨_, List.mem_map_of_mem ht, ?_⟩
      split <;> rfl
  · exact ⟨t, ht, rfl⟩

theorem Za.feedTest_works (z : Za) (p : Nat) : (z.feedTest p).works = z.works := by
  unfold Za.feedTest
  extract_lets waits
  split
  · split <;> rfl
  · rfl

/-! ### Scan-out. -/

theorem Za.scanTo_frost (z : Za) (req : Requester) (msg plen : Nat) (body : List W) :
    z.SameFrost (z.scanTo req msg plen body) := .ite rfl rfl

theorem Za.scanTo_reports (z : Za) (req : Requester) (msg plen : Nat) (body : List W) : z.Reports (z.scanTo req msg plen body) :=
  .ite (z.toHost_reports _ _) (z.enqueue_reports _ _ _)

theorem Za.scanGive_frost (z : Za) (req : Requester) (data : List W) : z.SameFrost (z.scanGive req data) :=
  .foldl (fun x t => x.scanTo_frost _ _ _ _) _ z

theorem Za.scanGive_reports (z : Za) (req : Requester) (data : List W) : z.Reports (z.scanGive req data) :=
  .foldl (fun x t => x.scanTo_reports _ _ _ _) _ z

/-- A scan-out of one die that begins. -/
def ScanOut.begun (h : HuskCmd) (handle : W) (die total : Nat) : ScanOut :=
  { handle, req := h.req, mask := huskP1 h, dies := [die], current := none, offset := 0, total }

/-- That scan-out as its die is read. -/
def ScanOut.reading (x : ScanOut) (die : Nat) : ScanOut := { x with dies := [], current := some die, offset := 0 }

/-- A scan-out of one live die, none other under way: the die is asked from its first byte. -/
theorem Za.scanNext_one {z : Za} {d : DieEntry} {x : ScanOut} (hscans : z.frost.scans = []) (hd : d.die ∈ z.frostDies)
    (hdies : x.dies = [d.die]) (n : Nat) : Za.scanNext (n + 1) z x =
      Za.scanAsk { z with frost := { z.frost with scans := [x.reading d.die] } } d.die x.mask 0 := by
  unfold Za.scanNext
  rw [hdies]
  dsimp only
  rw [if_pos (List.contains_iff_mem.2 hd), hscans]
  rfl

/-! ### Rows of the Frost. -/

theorem Za.thawNow_keeps {z : Za} (hstop : z.frost.state = 2) : z.thawNow.frost.state = 0 ∧ z.thawNow.frost.thawAt = none ∧
    z.thawNow.frost.snapshot = z.frost.snapshot ∧ z.thawNow.time = z.time ∧ z.thawNow.staged = [] := by
  have hrow : z.thawNow = (Za.takeUp { z with frost := { z.frost with state := 0, thawAt := none } }).frostEnd := if_pos hstop
  obtain ⟨hfrost, htime, hstaged⟩ := Za.takeUp_keeps (z := { z with frost := { z.frost with state := 0, thawAt := none } })
    (show (0 : Nat) ≠ 2 by decide)
  obtain ⟨cmds, armHandle, thawHandle, hend⟩ :=
    (Za.takeUp { z with frost := { z.frost with state := 0, thawAt := none } }).frostEnd_eq
  rw [hrow, hend]
  dsimp only
  rw [hfrost, htime, hstaged]
  exact ⟨rfl, rfl, rfl, rfl, rfl⟩

/-- What a FROST_ARM makes of the Frost. -/
theorem Za.frostArm_eq {z : Za} {h : HuskCmd} (handle : W) (hearly : z.time.plusTwo ≤ dword (huskPay h) 0 / 2 ^ 20)
    (hidle : z.frost.state = 0) (hlive : z.liveDies ≠ []) : ∃ links frost, z.frostArm h handle = ({ z with links, frost }, none) ∧
      frost.state = 1 ∧ frost.full = bit h.w6 0 ∧ frost.frostId = h.w5 ∧ frost.t = dword (huskPay h) 0 ∧ frost.message = 1 ∧
      frost.targets = z.liveDies.map (·.die) ∧ frost.acked = [] ∧ frost.armHandle = handle := by
  unfold Za.frostArm
  extract_lets t y frost y'
  have hfirst : ¬ t / 2 ^ 20 < z.frostFirst := Nat.not_lt.2 hearly
  rw [if_neg hfirst, if_neg (fun hbusy => hbusy hidle)]
  obtain ⟨links, hbegin⟩ := Za.frostBegin_eq y' 0x01 t
  have hdies : y'.frostDies = z.liveDies.map (·.die) := rfl
  have howed : (y'.frostBegin 0x01 t).frostOwed ≠ [] := by
    rw [hbegin]
    have hall : z.frostDies.filter (fun d => z.frostDies.contains d && !([] : List Nat).contains d) = z.frostDies :=
      List.filter_eq_self.2 fun d hd => by rw [List.contains_iff_mem.2 hd]; rfl
    exact fun hnil => hlive (List.map_eq_nil_iff.1 (hall.symm.trans hnil))
  rw [Za.frostEnd_owed howed, hbegin]
  exact ⟨_, _, rfl, rfl, rfl, rfl, rfl, rfl, rfl, rfl, rfl⟩

/-- FROST_CANCEL of the Frost armed. -/
theorem Za.frostCancel_eq {z : Za} {h : HuskCmd} (hstate : z.frost.state = 1) (hid : z.frost.frostId = h.w5) :
    ∃ links cmds frost, z.frostCancel h = ({ z with links, cmds, frost }, some (resultOf stOk)) ∧ frost.state = 0 ∧
      frost.message = 2 ∧ frost.armHandle = 0 := by
  obtain ⟨cmds, hfin⟩ := z.finish_eq z.frost.armHandle (resultOf stCancelled)
  obtain ⟨links, hbegin⟩ := Za.frostBegin_eq { z with cmds, frost := { z.frost with state := 0, armHandle := 0 } } 0x02 0
  have hgo : ¬ (z.frost.state ≠ 1 ∨ z.frost.frostId ≠ h.w5) := by rw [hstate, hid]; simp
  have hrow : z.frostCancel h =
      (Za.frostBegin { z with cmds, frost := { z.frost with state := 0, armHandle := 0 } } 0x02 0, some (resultOf stOk)) := by
    refine (if_neg hgo).trans ?_
    rw [hfin]
    rfl
  rw [hrow, hbegin]
  exact ⟨links, cmds, _, rfl, rfl, rfl, rfl⟩

/-- FROST_STOP at T. -/
theorem Za.frostStopAt_eq {z : Za} (hstate : z.frost.state = 1) (hrun : z.running = true) (hmay : z.mayReach z.frost.t = true) :
    ∃ cmds time, z.frostStopAt = Za.stop { z with cmds, time, frost := { z.frost with armHandle := 0 } } false ∧
      z.frost.t ≤ time.ns := by
  obtain ⟨cmds, hfin⟩ := z.finish_eq z.frost.armHandle z.armCounts
  obtain ⟨time, hreach, hle, -⟩ := Za.reach_eq { z with cmds, frost := { z.frost with armHandle := 0 } } z.frost.t
  refine ⟨cmds, time, (if_pos ⟨hstate, hrun, hmay⟩).trans ?_, hle⟩
  rw [hfin]
  exact congrArg (fun y : Za => y.stop false) hreach

/-- FROST_THAW at an instant to come. -/
theorem Za.frostThaw_eq {z : Za} {h : HuskCmd} (handle : W) (hstate : z.frost.state = 2) (hid : z.frost.frostId = h.w5)
    (hearly : z.time.plusTwo ≤ dword (huskPay h) 0 / 2 ^ 20) :
    ∃ links cmds frost, z.frostThaw h handle = ({ z with links, cmds, frost }, none) ∧ frost.state = 2 ∧
      frost.thawAt = some (dword (huskPay h) 0) ∧ frost.thawHandle = handle ∧ frost.message = 4 ∧
      frost.snapshot = z.frost.snapshot := by
  have hne : dword (huskPay h) 0 ≠ 0 := by
    intro h0
    rw [h0] at hearly
    exact absurd hearly (by unfold TimeUnit.plusTwo; omega)
  obtain ⟨cmds, hfin⟩ := z.finish_eq z.frost.thawHandle (resultOf stCancelled)
  obtain ⟨links, hbegin⟩ := Za.frostBegin_eq { z with cmds, frost := { z.frost with
    thawHandle := handle, thawAt := some (dword (huskPay h) 0) } } 0x04 (dword (huskPay h) 0)
  have hrow : z.frostThaw h handle = (Za.frostBegin { z with cmds, frost := { z.frost with
      thawHandle := handle, thawAt := some (dword (huskPay h) 0) } } 0x04 (dword (huskPay h) 0), none) := by
    unfold Za.frostThaw
    dsimp only
    rw [if_neg (by rw [hstate, hid]; simp), if_neg (fun hbad => absurd hbad.2 (Nat.not_lt.2 hearly)), if_neg hne, if_neg hne, hfin]
  rw [hrow, hbegin]
  exact ⟨links, cmds, _, rfl, hstate, rfl, rfl, rfl, rfl⟩

/-- A die has acknowledged the message. -/
def Za.acked (z : Za) (die : Nat) : Za := { z with frost := { z.frost with acked := z.frost.acked ++ [die] } }

/-- The last die that owes an acknowledgement gives it. -/
theorem Za.acked_owed {z : Za} {die : Nat} (hlast : ∀ x ∈ z.frostOwed, x = die) : (z.acked die).frostOwed = [] := by
  refine List.filter_eq_nil_iff.2 fun d hd howes => ?_
  obtain ⟨hlive, hnot⟩ := Bool.and_eq_true_iff.1 howes
  have hnew : d ∉ z.frost.acked ++ [die] := by
    intro hin
    rw [show (z.acked die).frost.acked = z.frost.acked ++ [die] from rfl, List.contains_iff_mem.2 hin] at hnot
    cases hnot
  rw [List.mem_append, not_or, List.mem_singleton] at hnew
  refine hnew.2 (hlast d (List.mem_filter.2 ⟨hd, Bool.and_eq_true_iff.2 ⟨hlive, ?_⟩⟩))
  rw [Bool.not_eq_true', ← Bool.not_eq_true, List.contains_iff_mem]
  exact hnew.1

/-- ACK of the message being repeated, from a die that owes it. -/
theorem Za.ack_eq {z : Za} {p die : Nat} {f : Frame} (ht : z.takes p f) (hsound : frostSound f = true)
    (hfrom : (z.taken p f).fromDie p f = some die) (hid : word f.body 0 = (z.taken p f).frost.frostId)
    (hmsg : wf f.body 1 23 16 = (z.taken p f).frost.message) (hin : die ∈ (z.taken p f).frost.targets)
    (hnew : die ∉ (z.taken p f).frost.acked) : z.ack p f = ((z.taken p f).acked die).frostEnd := by
  have hgot : (z.receive p f).2 = true := ht
  have hrow : z.ack p f = match (z.taken p f).fromDie p f with
      | none => z.taken p f
      | some die => if (!(z.receive p f).2) = true ∨ (!frostSound f) = true ∨
          (!(decide (word f.body 0 = (z.taken p f).frost.frostId ∧ wf f.body 1 23 16 = (z.taken p f).frost.message) &&
            (z.taken p f).frost.targets.contains die && !(z.taken p f).frost.acked.contains die)) = true then z.taken p f
          else ((z.taken p f).acked die).frostEnd := rfl
  rw [hrow, hfrom]
  refine if_neg ?_
  rw [hgot, hsound, decide_eq_true ⟨hid, hmsg⟩, List.contains_iff_mem.2 hin,
    show (z.taken p f).frost.acked.contains die = false by rw [← Bool.not_eq_true, List.contains_iff_mem]; exact hnew]
  decide

/-- A scan-out of a tray of one live die: the ZA40's own words go, and the die is asked from its first byte. -/
theorem Za.scanOut_one {z : Za} {h : HuskCmd} {snap : ZaSnapshot} {d : DieEntry} (handle : W)
    (hsnap : z.frost.snapshot = some snap) (hid : z.frost.frostId = h.w5) (hdies : z.dies = [d]) (hpay : huskPay h = [])
    (hadm : d.admitted = true) (hfree : d.fenced = none) (hheld : z.isHeld d = false) (hscans : z.frost.scans = [])
    (hbit : bit h.w6 0 = false) (hfld : fld h.w6 31 9 = 0) :
    ∃ y x, z.scanOut h handle = (y, none) ∧ y.frost.scans = [x] ∧ y.works = z.works ∧
      x.total = 4 * (z.scanWords snap (huskP1 h)).length ∧
      (x.handle = handle ∧ x.current = some d.die ∧ x.offset = 0 ∧ x.dies = []) ∧
      ∃ q ∈ (y.link d.link).queue, q.isFrost d.die 6 := by
  have hgive := z.scanGive_reports h.req (z.scanWords snap (huskP1 h))
  have hfrost : (z.scanGive h.req (z.scanWords snap (huskP1 h))).frost = z.frost := z.scanGive_frost _ _
  generalize hg : z.scanGive h.req (z.scanWords snap (huskP1 h)) = g at hgive hfrost
  have hrow : z.scanOut h handle = (Za.scanNext 2 g
      (.begun h handle d.die (4 * (z.scanWords snap (huskP1 h)).length)), none) := by
    unfold Za.scanOut
    rw [hsnap, hpay, hdies]
    dsimp only
    rw [if_neg (fun hbad => hbad hid), if_neg (by rw [hbit, hfld]; simp), if_neg (by simp), hg]
    rfl
  have hlive : d.die ∈ g.frostDies := by
    have hin : d ∈ g.liveDies := by
      unfold Za.liveDies
      rw [hgive.dies, hdies]
      exact List.mem_filter.2 ⟨.head _, by rw [hadm, hfree]; rfl⟩
    exact List.mem_map_of_mem hin
  rw [hrow, Za.scanNext_one (hfrost ▸ hscans) hlive rfl]
  have hd : g.die? d.die = some d := by
    unfold Za.die?
    rw [hgive.dies, hdies]
    simp
  have hheld' : g.isHeld d = false := (hgive.field (fun y => y.isHeld d) fun _ => rfl).trans hheld
  generalize hx : ScanOut.begun h handle d.die (4 * (z.scanWords snap (huskP1 h)).length) = x
  obtain ⟨links, hask⟩ := Za.toDie_eq { g with frost := { g.frost with scans := [x.reading d.die] } } d.die clsFrost 0x06 0xFFFF 0 32
    (frostBody g.frost.frostId false 0 0 x.mask 0)
  have hqueued := Za.toDie_frost_queued (z := { g with frost := { g.frost with scans := [x.reading d.die] } }) hd hheld' 0x06 0xFFFF 0
    32 (frostBody g.frost.frostId false 0 0 x.mask 0)
  refine ⟨_, x.reading d.die, rfl, ?_, ?_, by rw [← hx]; rfl, by rw [← hx]; exact ⟨rfl, rfl, rfl, rfl⟩, hqueued⟩
  · exact congrArg (fun y : Za => y.frost.scans) hask
  · exact (congrArg Za.works hask).trans hgive.works

/-- What continues the data of a scan-out. -/
def ScanOut.continued (x : ScanOut) (f : Frame) : ScanOut :=
  { x with offset := x.offset + (f.plen.toNat - 32), total := x.total + (f.plen.toNat - 32) }

/-- The tray with a scan-out that has been continued. -/
def Za.scanned (z : Za) (x : ScanOut) (f : Frame) : Za := { z with frost := { z.frost with scans := [x.continued f] } }

/-- SCAN_DATA that continues the data of the die being read. -/
theorem Za.scanData_eq {z : Za} {p die : Nat} {f : Frame} {x : ScanOut} (ht : z.takes p f) (hsound : frostSound f = true)
    (hmsg : f.msg = 7) (hfrom : (z.taken p f).fromDie p f = some die) (hscans : (z.taken p f).frost.scans = [x])
    (hcur : x.current = some die) (hid : word f.body 0 = (z.taken p f).frost.frostId) (hoff : wf f.body 5 31 0 = x.offset) :
    z.scanData p f = ((z.taken p f).scanned x f).scanTo x.req 0x07 f.plen.toNat f.body := by
  have hgot : (z.receive p f).2 = true := ht
  have hfrom' : (z.receive p f).1.fromDie p f = some die := hfrom
  have hscans' : (z.receive p f).1.frost.scans = [x] := hscans
  have hid' : word f.body 0 = (z.receive p f).1.frost.frostId := hid
  have hfind : [x].find? (fun s => s.current.isSome) = some x := by simp [hcur]
  have hmod (g : ScanOut) : modWhere [x] (fun y => y.handle == x.handle) (fun _ => g) = [g] := by simp [modWhere]
  unfold Za.scanData
  dsimp only
  rw [hfrom', hscans', hfind]
  dsimp only
  rw [hgot, hsound, if_neg (by rw [hid', hcur]; simp), if_neg (by omega), if_neg (by omega), if_pos hmsg, hmod]
  rfl

/-- A test that begins. -/
def LinkTest.begun (h : HuskCmd) (handle : W) : LinkTest :=
  { handle, link := huskP0 h, frames := huskP1 h, sent := 0, returned := 0, differing := 0, rtts := [] }

/-- LOOP_TEST by echo on a link that is up. -/
theorem Za.loopTest_eq {z : Za} {h : HuskCmd} (handle : W) (hlink : huskP0 h < 82) (hmin : 1 ≤ huskP1 h) (hmax : huskP1 h ≤ 65536)
    (hcode : fld (z.portW0 (portOf (huskP0 h))) 29 27 = 0) (hup : z.linkUp (huskP0 h) = true)
    (hpeer : (z.testPeer (huskP0 h)).isSome = true) (hnone : ∀ t ∈ z.tests, t.link ≠ huskP0 h) :
    z.loopTest h handle = (Za.feedTest { z with tests := z.tests ++ [LinkTest.begun h handle] } (huskP0 h), none) := by
  have hfree : ¬ z.tests.any (fun t => t.link == huskP0 h) = true := by
    simp only [List.any_eq_true, beq_iff_eq, not_exists, not_and]
    exact hnone
  unfold Za.loopTest
  dsimp only
  rw [if_neg (by omega), if_neg (by omega), hcode, if_pos rfl, hup, hpeer, if_neg (fun hbad => hbad.elim (by decide) hfree)]
  rfl

/-- Settles O56: each row's premises are its conditions, and what it runs is read off its rule. -/
theorem theFabricStopsAndThaws : Obligations.TheFabricStopsAndThaws := by
  unfold Obligations.TheFabricStopsAndThaws
  refine ⟨?arm, ?cancel, ?stop, ?now, ?nowFrame, ?thaw, ?thawInstant, ?ack, ?again, ?capture, ?scanOut, ?scanData, ?loop, ?inject⟩
  case arm =>
    rintro s h z handle hb hearly hidle hlive
    obtain ⟨links, frost, hrow, hstate, hfull, hid, hat, hmsg, htargets, hacked, harm⟩ := Za.frostArm_eq handle hearly hidle hlive
    have hkeep := Za.accepted_reports { z with links, frost } .frostArm h handle
    refine ⟨_, .of_long rfl hb (hb.long rfl) hrow, ?_⟩
    rw [Za.accepted_frost]
    exact ⟨hstate, hfull, hid, hat, hmsg, htargets, hacked, harm, hkeep.ctxs, hkeep.works⟩
  case cancel =>
    rintro s h z ha rfl hstate hid
    obtain ⟨links, cmds, frost, hrow, hidle, hmsg, harm⟩ := Za.frostCancel_eq hstate hid
    have hkeep := Za.answered_reports { s.za.met .frostCancel h with links, cmds, frost } .frostCancel h (resultOf stOk)
    refine ⟨_, .of_short rfl ha (ha.short rfl (by decide)) (by decide) hrow, ?_⟩
    rw [Za.answered_frost]
    exact ⟨hidle, hmsg, harm, hkeep.ctxs, hkeep.works⟩
  case stop =>
    rintro s hstate hrun hmay
    obtain ⟨cmds, time, hrow, hle⟩ := Za.frostStopAt_eq hstate hrun hmay
    exact ⟨_, .of_row (g := Za.frostStopAt) rfl hrow, rfl, rfl, rfl, hle, rfl, rfl, rfl, rfl⟩
  case now =>
    rintro s h z ha rfl hstate
    have hrow : (s.za.met .frostNow h).frostNow h = _ := if_neg hstate
    have hx := ZaDraws.of_short (c := .frostNow h) rfl ha (ha.short rfl (by decide)) (by decide) hrow
    obtain ⟨h1, h2, h3, h4, h5, h6, -⟩ := (s.za.met .frostNow h).stopNow_frost h.w5 (bit h.w6 0) none
    have hkeep := ((s.za.met .frostNow h).stopNow_reports h.w5 (bit h.w6 0) none).trans (Za.answered_reports _ .frostNow h
      (okValue (((s.za.met .frostNow h).stopNow h.w5 (bit h.w6 0) none).frost.stopNs % 2 ^ 32)))
    refine ⟨_, hx, ?_⟩
    rw [Za.answered_frost]
    exact ⟨h1, h2, h3, h4, h5, h6, hkeep.works, hkeep.ctxs⟩
  case nowFrame =>
    rintro s p f z ht rfl hsound hrun hnew hstate
    have hrow : s.za.nowFrame p.val f = (s.za.taken p.val f).stopNow (word f.body 0) (wf f.body 1 31 30 == 1) (some p.val) := by
      refine (if_neg ?_).trans (if_neg hstate)
      change ¬ ((!(s.za.receive p.val f).2) = true ∨ (!frostSound f) = true ∨ (!(s.za.taken p.val f).running) = true ∨
        (s.za.taken p.val f).frost.seen.contains (word f.body 0) = true)
      have hgot : (s.za.receive p.val f).2 = true := ht
      rw [hgot, hsound, hrun, List.contains_iff_mem]
      simp [hnew]
    obtain ⟨h1, h2, h3, -, h5, -, h7⟩ :=
      (s.za.taken p.val f).stopNow_frost (word f.body 0) (wf f.body 1 31 30 == 1) (some p.val)
    have hkeep := (s.za.taken p.val f).stopNow_reports (word f.body 0) (wf f.body 1 31 30 == 1) (some p.val)
    exact ⟨_, .of_row (g := fun z => z.nowFrame p.val f) rfl hrow, h1, h2, h3, h7, h5, hkeep.works, hkeep.ctxs⟩
  case thaw =>
    rintro s h z handle hb hstate hid hearly
    obtain ⟨links, cmds, frost, hrow, h1, h2, h3, h4, h5⟩ := Za.frostThaw_eq handle hstate hid hearly
    have hkeep := Za.accepted_reports { z with links, cmds, frost } .frostThaw h handle
    refine ⟨_, .of_long rfl hb (hb.long rfl) hrow, ?_⟩
    rw [Za.accepted_frost]
    exact ⟨h1, h2, h3, h4, h5, hkeep.works⟩
  case thawInstant =>
    rintro s at_ hstate hat hrun hmay
    have hrow : s.za.thawInstant = (s.za.reach at_).thawNow := by
      unfold Za.thawInstant
      rw [hat]
      exact if_pos ⟨hrun, hmay⟩
    obtain ⟨time, hreach, hle, -⟩ := s.za.reach_eq at_
    obtain ⟨h1, h2, h3, h4, h5⟩ := Za.thawNow_keeps (z := { s.za with time }) hstate
    refine ⟨_, .of_row (g := Za.thawInstant) rfl (hrow.trans (congrArg Za.thawNow hreach)), h1, h2, ?_, h3, h5⟩
    unfold Za.nowNs
    rw [h4]
    exact hle
  case ack =>
    rintro s p f z die ht rfl hsound hfrom hid hmsg hin hnew
    have hrow : s.za.ack p.val f = ((s.za.taken p.val f).acked die).frostEnd := Za.ack_eq ht hsound hfrom hid hmsg hin hnew
    obtain ⟨cmds, armHandle, thawHandle, hend⟩ := ((s.za.taken p.val f).acked die).frostEnd_eq
    refine ⟨_, .of_row (g := fun z => z.ack p.val f) rfl hrow, ?_, ?_, ?_, fun harm hne hlast => ?_⟩
    · rw [hend]
      rfl
    · rw [hend]
      rfl
    · rw [hend]
      rfl
    · exact Za.frostEnd_armed (z := (s.za.taken p.val f).acked die) (Za.acked_owed hlast) harm hne
  case again =>
    rintro s die d hrun hkind howed hd hheld
    have hends : s.za.frostEnd = s.za := Za.frostEnd_owed (List.ne_nil_of_mem howed)
    have hrow : s.za.frostRepeat = s.za.frostSend s.za.frost.message s.za.frostOwed s.za.frost.instant := by
      unfold Za.frostRepeat
      rw [hends]
      exact if_pos ⟨hrun, hkind⟩
    obtain ⟨q, hq, hfrost⟩ := Za.frostSend_queued s.za.frost.message s.za.frost.instant s.za.frostOwed s.za hd hheld howed
    obtain ⟨links, hsent⟩ := s.za.frostSend_eq s.za.frost.message s.za.frostOwed s.za.frost.instant
    have hkeep := s.za.frostSend_reports s.za.frost.message s.za.frostOwed s.za.frost.instant
    have hsame : (s.za.frostSend s.za.frost.message s.za.frostOwed s.za.frost.instant).frost = s.za.frost := by rw [hsent]
    exact ⟨_, q, .of_row (g := Za.frostRepeat) rfl hrow, hq, hfrost.toDie, hfrost.cls, hfrost.code, hfrost.dest,
      hsame, hkeep.works, hkeep.ctxs⟩
  case capture =>
    rintro s e hend hmay
    obtain ⟨time, hreach, hle, -⟩ := s.za.reach_eq e
    have hrow : s.za.captureEnd = { s.za with time, frost := { s.za.frost with
        windowEnd := none
        cutComplete := !s.za.frost.smear && !s.za.frost.stepped && !s.za.frost.capFull && !s.za.frost.spoiled &&
          decide (s.za.frost.timeState = 2) } } := by
      unfold Za.captureEnd
      rw [hend]
      refine (if_pos hmay).trans ?_
      rw [hreach]
    exact ⟨_, .of_row (g := Za.captureEnd) rfl hrow, rfl, hle, rfl, rfl, rfl, rfl⟩
  case scanOut =>
    rintro s h z handle snap d hb hsnap hid hdies hpay hadm hfree hheld hscans hbit hfld
    obtain ⟨y, x, hrow, hgot, hworks, htotal, hx, q, hq, hfrost⟩ :=
      Za.scanOut_one handle hsnap hid hdies hpay hadm hfree hheld hscans hbit hfld
    have hkeep := y.accepted_reports .scanOut h handle
    obtain ⟨hhandle, hcur, hoff, hrest⟩ := hx
    exact ⟨_, x, q, .of_long rfl hb (hb.long rfl) hrow, (congrArg ZaFrost.scans (y.accepted_frost .scanOut h handle)).trans hgot,
      hhandle, hcur, hoff, htotal, hrest, (y.accepted_queues .scanOut h handle).mem hq, hfrost.toDie, hfrost.cls, hfrost.code,
      hkeep.works.trans hworks⟩
  case scanData =>
    rintro s p f z die x ht rfl hsound hmsg hfrom hscans hcur hid hoff
    have hrow := Za.scanData_eq ht hsound hmsg hfrom hscans hcur hid hoff
    have hfrost := ((s.za.taken p.val f).scanned x f).scanTo_frost x.req 0x07 f.plen.toNat f.body
    have hkeep := ((s.za.taken p.val f).scanned x f).scanTo_reports x.req 0x07 f.plen.toNat f.body
    exact ⟨_, x.continued f, .of_row (g := fun z => z.scanData p.val f) rfl hrow, congrArg ZaFrost.scans hfrost, rfl, rfl, rfl, rfl,
      rfl, hkeep.works⟩
  case loop =>
    rintro s h z handle hb hlink hmin hmax hcode hup hpeer hnone
    obtain ⟨x, hx, hsame⟩ := Za.feedTest_tests { z with tests := z.tests ++ [LinkTest.begun h handle] } (huskP0 h)
      (List.mem_append_right _ (.head _))
    have hkeep := Za.accepted_reports (Za.feedTest { z with tests := z.tests ++ [LinkTest.begun h handle] } (huskP0 h)) .loopTest h handle
    refine ⟨_, x, .of_long rfl hb (hb.long rfl) (Za.loopTest_eq handle hlink hmin hmax hcode hup hpeer hnone), ?_,
      by rw [hsame]; rfl, by rw [hsame]; rfl, by rw [hsame]; rfl, by rw [hsame]; rfl, hkeep.works.trans (Za.feedTest_works _ _)⟩
    rw [hkeep.field Za.tests fun _ => rfl]
    exact hx
  case inject =>
    rintro s h z ha rfl hcode hmin hmax hregion
    refine .of_short rfl ha (ha.short rfl (by decide)) (by decide) ?_
    change (s.za.met .faultInject h).faultInject h = _
    unfold Za.faultInject
    rw [hcode]
    dsimp only
    rw [if_neg (by omega), if_neg (by rw [decide_eq_true hregion]; decide), if_neg (by omega)]
    rfl

end Sys2Proof.Machine
end

section
/-!
PROOFS. Every step keeps the canonical forms of the DTU: all but the rows that write its tag area or its registers leave them.
-/
namespace Sys2Proof.Machine

/-! ### What leaves the tag area and the register maps of the DTU. -/

/-- The tag area and the register maps of a DTU. -/
def Dtu.maps (d : Dtu) : Memory × RegMap × RegMap × RegMap × RegMap × RegMap :=
  (d.host.tag, d.cells.cfg, d.cells.force, d.trace.cfg, d.digests.cfg, d.health.cfg)

@[simp] theorem Dtu.maps_mk (build host cells trace digests health faults time timeCtl timeServo port trigs trigHigh link cmds frost
    power factory injected injections hailDue hailSeq counters) :
    (Dtu.mk build host cells trace digests health faults time timeCtl timeServo port trigs trigHigh link cmds frost
      power factory injected injections hailDue hailSeq counters).maps =
      (host.tag, cells.cfg, cells.force, trace.cfg, digests.cfg, health.cfg) := rfl

@[simp] theorem Dtu.host_tag (d : Dtu) : d.host.tag = d.maps.1 := rfl
@[simp] theorem Dtu.cells_cfg (d : Dtu) : d.cells.cfg = d.maps.2.1 := rfl
@[simp] theorem Dtu.cells_force (d : Dtu) : d.cells.force = d.maps.2.2.1 := rfl
@[simp] theorem Dtu.trace_cfg (d : Dtu) : d.trace.cfg = d.maps.2.2.2.1 := rfl
@[simp] theorem Dtu.digests_cfg (d : Dtu) : d.digests.cfg = d.maps.2.2.2.2.1 := rfl
@[simp] theorem Dtu.health_cfg (d : Dtu) : d.health.cfg = d.maps.2.2.2.2.2 := rfl

theorem Dtu.maps_ite {c : Prop} [Decidable c] (x y : Dtu) : (if c then x else y).maps = if c then x.maps else y.maps := apply_ite ..

/-- A fold of updates that each leave them leaves them. -/
@[simp] theorem Dtu.foldl_maps {α : Type} {f : Dtu → α → Dtu} (hf : ∀ d a, (f d a).maps = d.maps) (l : List α) (d : Dtu) :
    (l.foldl f d).maps = d.maps :=
  List.foldlRecOn (motive := fun x : Dtu => x.maps = d.maps) l f rfl fun x hx a _ => (hf x a).trans hx

@[simp] theorem Trace.lose_cfg (t : Trace) (kind n : Nat) : (t.lose kind n).cfg = t.cfg := rfl

@[simp] theorem Trace.adopt_cfg (t : Trace) : t.adopt.cfg = t.cfg := by
  unfold Trace.adopt
  split <;> rfl

@[simp] theorem Trace.write_cfg (t : Trace) (ns rtype aux payload : Nat) : (t.write ns rtype aux payload).cfg = t.cfg := rfl

@[simp] theorem Trace.writeLoss_cfg (t : Trace) (ns : Nat) : (t.writeLoss ns).cfg = t.cfg := rfl

@[simp] theorem Trace.nextStream_cfg (t : Trace) : t.nextStream.cfg = t.cfg := rfl

@[simp] theorem Trace.restartCounts_cfg (t : Trace) : t.restartCounts.cfg = t.cfg := rfl

@[simp] theorem Trace.cellEvents_cfg (t : Trace) (cell n : Nat) : (t.cellEvents cell n).cfg = t.cfg := by
  unfold Trace.cellEvents
  dsimp only
  (repeat' split) <;> rfl

@[simp] theorem Trace.tapSample_cfg (t : Trace) (tap v : Nat) : (t.tapSample tap v).cfg = t.cfg := by
  unfold Trace.tapSample
  dsimp only
  (repeat' split) <;> rfl

/-- What the merged samples feed is no setting of the trace (R112). -/
@[simp] theorem Trace.feed_cfg (t : Trace) (force : RegMap) (src : ProbeSource) (r : FrontRec) :
    (t.feed force src r).cfg = t.cfg := by
  cases src with
  | strobe s =>
    unfold Trace.feed
    dsimp only
    split
    · exact Trace.cellEvents_cfg ..
    · rfl
  | tap p => exact List.foldlRecOn (motive := fun x : Trace => x.cfg = t.cfg) _ _ rfl fun x hx a _ => (x.tapSample_cfg p _).trans hx

@[simp] theorem Trace.consume_cfg (now n : Nat) (t : Trace) : (Trace.consume now n t).cfg = t.cfg := by
  induction n generalizing t with
  | zero => rfl
  | succ n ih =>
    unfold Trace.consume
    split
    · rfl
    · split
      · rfl
      · dsimp only
        split
        · exact t.adopt_cfg
        · exact (ih _).trans t.adopt_cfg

/-- A choice between two results leaves what both leave. -/
theorem Dtu.fst_ite_maps {α : Type} {c : Prop} [Decidable c] {d : Dtu} {x y : Dtu × α} (hx : x.1.maps = d.maps) (hy : y.1.maps = d.maps) :
    (if c then x else y).1.maps = d.maps := by
  split
  · exact hx
  · exact hy


@[simp] theorem Dtu.count_maps (d : Dtu) (c : DCnt) (n : Nat) : (d.count c n).maps = d.maps := rfl

@[simp] theorem Dtu.irq_maps (d : Dtu) (i : Nat) : (d.irq i).maps = d.maps := rfl

@[simp] theorem Dtu.raiseMsg_maps (d : Dtu) (m : BitVec 128) : (d.raiseMsg m).maps = d.maps := by
  unfold Dtu.raiseMsg
  (repeat' split) <;> simp

@[simp] theorem Dtu.raise_maps (d : Dtu) (kind : FaultKind) (op : FaultOp) (detail : Nat) :
    (d.raise kind op detail).maps = d.maps := by simp [Dtu.raise]

@[simp] theorem Dtu.ledgerUl_maps (d : Dtu) (vc : Nat) : (d.ledgerUl vc).maps = d.maps := rfl

@[simp] theorem Dtu.offer_maps (d : Dtu) (rtype aux payload : Nat) : (d.offer rtype aux payload).maps = d.maps := by
  unfold Dtu.offer
  split <;> rfl

@[simp] theorem Dtu.offerStep_maps (d : Dtu) (before : Nat) (step : Int) : (d.offerStep before step).maps = d.maps := by
  unfold Dtu.offerStep
  split <;> rfl

@[simp] theorem Dtu.stepTrigs_maps (d : Dtu) : d.stepTrigs.maps = d.maps := rfl

@[simp] theorem Dtu.timeEvents_maps (before : Nat) (d : Dtu) (es : List TimeEvent) : (Dtu.timeEvents before d es).maps = d.maps := by
  induction es generalizing d with
  | nil => rfl
  | cons ev es ih => cases ev <;> simp [Dtu.timeEvents, ih]

@[simp] theorem Dtu.withTime_maps (d : Dtu) (p : TimeUnit × List TimeEvent) : (d.withTime p).maps = d.maps :=
  Dtu.timeEvents_maps ..

@[simp] theorem Dtu.reach_maps (d : Dtu) (ns : Nat) : (d.reach ns).maps = d.maps := rfl

@[simp] theorem Dtu.queue_maps (d : Dtu) (f : TxFrame) : (d.queue f).maps = d.maps := by
  unfold Dtu.queue
  split <;> rfl

@[simp] theorem Dtu.refuseRec_maps (d : Dtu) (k lossKind : Nat) : (d.refuseRec k lossKind).maps = d.maps := rfl

@[simp] theorem Dtu.capture_maps (k lossKind : Nat) (o : TraceOffer) (c : CaptureState) :
    (Dtu.capture k lossKind o c).1.1.maps = c.1.maps := by
  unfold Dtu.capture
  dsimp only
  (repeat' split) <;> simp

@[simp] theorem Dtu.captureClass0_maps (os : List TraceOffer) (c : CaptureState) : (Dtu.captureClass0 os c).1.maps = c.1.maps := by
  induction os generalizing c with
  | nil => rfl
  | cons o os ih =>
    have hc := Dtu.capture_maps 0 3 o c
    unfold Dtu.captureClass0
    split
    next c' heq =>
      rw [heq] at hc
      exact hc
    next c' e _ heq =>
      rw [heq] at hc
      exact (ih _).trans hc

@[simp] theorem Dtu.captureAll0_maps (d : Dtu) : d.captureAll0.maps = d.maps := Dtu.captureClass0_maps ..

@[simp] theorem Dtu.captureHost_maps (c : CaptureState) : (Dtu.captureHost c).1.maps = c.1.maps := by
  unfold Dtu.captureHost
  split
  · rfl
  next o _ =>
    have hc := Dtu.capture_maps 1 2 o c
    split <;> next heq => rw [heq] at hc; exact hc

@[simp] theorem Dtu.captureEvents_maps (is : List Nat) (c : CaptureState) : (Dtu.captureEvents is c).1.maps = c.1.maps := by
  induction is generalizing c with
  | nil => rfl
  | cons i is ih =>
    have hc := Dtu.capture_maps 2 0 (c.1.eventOffer i) c
    unfold Dtu.captureEvents
    split
    next c' heq =>
      rw [heq] at hc
      exact hc
    next c' e _ heq =>
      rw [heq] at hc
      exact (ih _).trans hc

@[simp] theorem Dtu.captureTaps_maps (is : List Nat) (c : CaptureState) : (Dtu.captureTaps is c).1.maps = c.1.maps := by
  induction is generalizing c with
  | nil => rfl
  | cons i is ih =>
    have hc := Dtu.capture_maps 3 1 (c.1.tapOffer i) c
    unfold Dtu.captureTaps
    split
    next c' heq =>
      rw [heq] at hc
      exact hc
    next c' e _ heq =>
      rw [heq] at hc
      exact (ih _).trans hc

@[simp] theorem Dtu.compress_maps (d : Dtu) : d.compress.maps = d.maps := by simp [Dtu.compress]

@[simp] theorem Dtu.newStream_maps (d : Dtu) : d.newStream.maps = d.maps := rfl

@[simp] theorem Dtu.closeBlock_maps (d : Dtu) (cause : Nat) (ends : Bool) : (d.closeBlock cause ends).maps = d.maps := by
  unfold Dtu.closeBlock
  split <;> rfl

@[simp] theorem Dtu.finish_maps (d : Dtu) (h : W) (r : Result) : (d.finish h r).maps = d.maps := rfl

@[simp] theorem Dtu.saveImage_maps (d : Dtu) : d.saveImage.maps = d.maps := rfl

@[simp] theorem Dtu.loadImage_maps (d : Dtu) : d.loadImage.maps = d.maps := rfl

@[simp] theorem Dtu.endStream_maps (d : Dtu) (w : TraceWait) : (d.endStream w).maps = d.maps := by
  unfold Dtu.endStream
  dsimp only
  (repeat' split) <;> simp

@[simp] theorem Dtu.traceLinkReset_maps (d : Dtu) : d.traceLinkReset.maps = d.maps := by
  unfold Dtu.traceLinkReset
  split
  · rfl
  · extract_lets t runs gone opened n t1 t2 d1
    have h2 : t2.cfg = d.trace.cfg := by unfold t2; split <;> rfl
    have h1 : d1.maps = d.maps := by simp [d1, h2]
    clear_value d1
    split
    · exact (Dtu.newStream_maps _).trans h1
    · exact h1

@[simp] theorem Dtu.blockCrossed_maps (d : Dtu) : d.blockCrossed.maps = d.maps := by
  unfold Dtu.blockCrossed
  split <;> rfl

@[simp] theorem Dtu.traceCapture_maps (d : Dtu) : d.traceCapture.maps = d.maps := by
  unfold Dtu.traceCapture
  (repeat' split) <;> simp

@[simp] theorem Dtu.compressorFullStop_maps (d : Dtu) : d.compressorFullStop.maps = d.maps := by
  unfold Dtu.compressorFullStop
  split <;> rfl

@[simp] theorem Dtu.put_maps (d : Dtu) (t : TxFrame) : (d.put t).maps = d.maps := rfl

@[simp] theorem Dtu.sendNow_maps (d : Dtu) (t : TxFrame) : (d.sendNow t).maps = d.maps := by
  unfold Dtu.sendNow
  split <;> simp

@[simp] theorem Dtu.takeLseq_maps (d : Dtu) (cls : Nat) (lseq : W) : (d.takeLseq cls lseq).maps = d.maps := by
  unfold Dtu.takeLseq
  dsimp only
  (repeat' split) <;> simp

@[simp] theorem Dtu.linkReset_maps (d : Dtu) (reason : Option Nat) : (d.linkReset reason).maps = d.maps := by
  unfold Dtu.linkReset
  dsimp only
  (repeat' split) <;> simp

@[simp] theorem Dtu.sendLinkReset_maps (d : Dtu) (reason : Nat) : (d.sendLinkReset reason).maps = d.maps := by
  unfold Dtu.sendLinkReset
  dsimp only
  (repeat' split) <;> simp

@[simp] theorem Dtu.receive_maps (d : Dtu) (f : Frame) : (d.receive f).1.maps = d.maps := by
  unfold Dtu.receive
  dsimp only
  (repeat' split) <;> simp

@[simp] theorem Dtu.creditReturn_maps (d : Dtu) (vc : Nat) : (d.creditReturn vc).maps = d.maps := by
  unfold Dtu.creditReturn
  dsimp only
  (repeat' split) <;> simp

@[simp] theorem Dtu.creditMinTimeout_maps (d : Dtu) (vc : Nat) : (d.creditMinTimeout vc).maps = d.maps := by
  unfold Dtu.creditMinTimeout
  dsimp only
  (repeat' split) <;> simp

@[simp] theorem Dtu.rxUncredited_maps (d : Dtu) (vc : Nat) : (d.rxUncredited vc).maps = d.maps :=
  ((Dtu.ledgerUl_maps ..).trans (Dtu.irq_maps ..)).trans (Dtu.count_maps ..)

@[simp] theorem Dtu.rxUse_maps (d : Dtu) (vc n : Nat) : (d.rxUse vc n).maps = d.maps := rfl

@[simp] theorem Dtu.rxWhole_maps (d : Dtu) (vc : Nat) (f : Frame) : (d.rxWhole vc f).maps = d.maps := by
  unfold Dtu.rxWhole
  dsimp only
  (repeat' split) <;> simp

@[simp] theorem Dtu.rxPacket_maps (d : Dtu) (vc : Nat) (defect : RxDefect) (f : Frame) : (d.rxPacket vc defect f).maps = d.maps := by
  unfold Dtu.rxPacket
  (repeat' split) <;> simp

@[simp] theorem Dtu.returnCredit_maps (d : Dtu) : d.returnCredit.maps = d.maps := by
  unfold Dtu.returnCredit
  dsimp only
  (repeat' split) <;> simp

@[simp] theorem Dtu.helloSend_maps (d : Dtu) : d.helloSend.maps = d.maps := by
  unfold Dtu.helloSend
  dsimp only
  (repeat' split) <;> simp

@[simp] theorem Dtu.admitMsg_maps (d : Dtu) (f : Frame) : (d.admitMsg f).maps = d.maps := by
  unfold Dtu.admitMsg
  dsimp only
  (repeat' split) <;> simp

@[simp] theorem Dtu.hello_maps (d : Dtu) (f : Frame) : (d.hello f).maps = d.maps := by
  unfold Dtu.hello
  dsimp only
  (repeat' split) <;> simp

@[simp] theorem Dtu.credit_maps (d : Dtu) (f : Frame) : (d.credit f).maps = d.maps := by
  unfold Dtu.credit
  dsimp only
  (repeat' split) <;> simp

@[simp] theorem Dtu.creditSend_maps (d : Dtu) : d.creditSend.maps = d.maps := by simp [Dtu.creditSend]

@[simp] theorem Dtu.echo_maps (d : Dtu) (f : Frame) (residence : W) : (d.echo f residence).maps = d.maps := by
  unfold Dtu.echo
  dsimp only
  (repeat' split) <;> simp

@[simp] theorem Dtu.echoReply_maps (d : Dtu) (f : Frame) (elapsed : W) : (d.echoReply f elapsed).maps = d.maps := by
  unfold Dtu.echoReply
  dsimp only
  (repeat' split) <;> simp

@[simp] theorem Dtu.linkResetFrame_maps (d : Dtu) (f : Frame) : (d.linkResetFrame f).maps = d.maps := by
  unfold Dtu.linkResetFrame
  dsimp only
  (repeat' split) <;> simp

@[simp] theorem Dtu.faultRecordSend_maps (d : Dtu) : d.faultRecordSend.maps = d.maps := by
  unfold Dtu.faultRecordSend
  (repeat' split) <;> simp

@[simp] theorem Dtu.digestPacketSend_maps (d : Dtu) : d.digestPacketSend.maps = d.maps := by
  unfold Dtu.digestPacketSend
  dsimp only
  (repeat' split) <;> simp

@[simp] theorem Dtu.traceBlockSend_maps (d : Dtu) : d.traceBlockSend.maps = d.maps := by
  unfold Dtu.traceBlockSend
  dsimp only
  (repeat' split) <;> simp

@[simp] theorem Dtu.healthSend_maps (d : Dtu) : d.healthSend.maps = d.maps := by
  unfold Dtu.healthSend
  (repeat' split) <;> simp

@[simp] theorem Dtu.contribSend_maps (d : Dtu) : d.contribSend.maps = d.maps := by
  unfold Dtu.contribSend
  (repeat' split) <;> simp

@[simp] theorem Dtu.transmit_maps (d : Dtu) : d.transmit.maps = d.maps := by
  unfold Dtu.transmit
  dsimp only
  (repeat' split) <;> simp

@[simp] theorem Dtu.mergeFront_maps (d : Dtu) (src : ProbeSource) (f : Front) : (d.mergeFront src f).maps = d.maps := by
  unfold Dtu.mergeFront
  dsimp only
  (repeat' split) <;> simp

@[simp] theorem Dtu.mergeFronts_maps (d : Dtu) : d.mergeFronts.maps = d.maps := by simp [Dtu.mergeFronts]

@[simp] theorem Dtu.sampleFront_maps (d : Dtu) (src : ProbeSource) (f : FrontRec → FrontRec) :
    (d.sampleFront src f).maps = d.maps := rfl

@[simp] theorem Dtu.probeEvent_maps (d : Dtu) (s : Nat) : (d.probeEvent s).maps = d.maps := by
  unfold Dtu.probeEvent
  split <;> rfl

@[simp] theorem Dtu.tapSampled_maps (d : Dtu) (t : Nat) (x : BitVec 16) : (d.tapSampled t x).maps = d.maps := by
  unfold Dtu.tapSampled
  split <;> rfl

@[simp] theorem Dtu.markBoth_maps (d : Dtu) (ds : List Nat) : (d.markBoth ds).maps = d.maps := by
  unfold Dtu.markBoth
  split <;> rfl

@[simp] theorem Dtu.obsClkLost_maps (d : Dtu) (dom : Nat) : (d.obsClkLost dom).maps = d.maps := by
  unfold Dtu.obsClkLost
  (repeat' split) <;> simp

@[simp] theorem Dtu.turnSlots_maps (d : Dtu) : d.turnSlots.maps = d.maps := rfl

@[simp] theorem Dtu.closeSlot_maps (cl : Closing) (cluster : Nat) (fenced incomplete : Bool) (sat data : List W) (acc : Dtu × List
    (Nat × List W)) (k : Nat) :
    (Dtu.closeSlot cl cluster fenced incomplete sat data acc k).1.maps = acc.1.maps := by
  unfold Dtu.closeSlot
  dsimp only
  (repeat' split) <;> simp

@[simp] theorem Dtu.satInjections_maps (d : Dtu) (cl : Closing) : (d.satInjections cl).1.maps = d.maps := rfl

@[simp] theorem Dtu.queueClosed_maps (d : Dtu) (cl : Closing) (incomplete fenced : Bool) (sat data : List W) (made : List
    (Nat × List W)) :
    (d.queueClosed cl incomplete fenced sat data made).maps = d.maps := rfl

@[simp] theorem Dtu.closeSlots_maps (cl : Closing) (cluster : Nat) (fenced incomplete : Bool) (sat data : List W) (ks : List Nat)
    (acc : Dtu × List (Nat × List W)) : (ks.foldl (Dtu.closeSlot cl cluster fenced incomplete sat data) acc).1.maps = acc.1.maps :=
  List.foldlRecOn (motive := fun r : Dtu × List (Nat × List W) => r.1.maps = acc.1.maps) _ _ rfl
    fun r hr k _ => (Dtu.closeSlot_maps cl cluster fenced incomplete sat data r k).trans hr

@[simp] theorem Dtu.closeCluster_maps (d : Dtu) : d.closeCluster.maps = d.maps := by
  unfold Dtu.closeCluster
  dsimp only
  split <;> simp

@[simp] theorem Dtu.clusterClose_maps (d : Dtu) (c : Nat) : (d.clusterClose c).maps = d.maps := by
  unfold Dtu.clusterClose
  (repeat' split) <;> simp

@[simp] theorem Dtu.limitClose_maps (d : Dtu) : d.limitClose.maps = d.maps := by
  unfold Dtu.limitClose
  split <;> simp

@[simp] theorem Dtu.closureLimitAt_maps (d : Dtu) (c : Nat) : (d.closureLimitAt c).maps = d.maps := by
  unfold Dtu.closureLimitAt
  split
  · rfl
  next cl _ =>
    split
    · exact (Dtu.limitClose_maps _).trans (d.reach_maps (cl.begunAt + 32768))
    · rfl

@[simp] theorem Dtu.closeRest_maps (n : Nat) (d : Dtu) : (Dtu.closeRest n d).maps = d.maps := by
  induction n generalizing d with
  | zero => rfl
  | succ n ih =>
    unfold Dtu.closeRest
    split
    · exact (ih _).trans d.limitClose_maps
    · rfl

@[simp] theorem Dtu.expireContribs_maps (d : Dtu) : d.expireContribs.maps = d.maps := rfl

@[simp] theorem Dtu.feedReplay_maps (d : Dtu) : d.feedReplay.maps = d.maps := by
  unfold Dtu.feedReplay
  (repeat' split) <;> simp

@[simp] theorem Dtu.startReplay_maps (d : Dtu) (handle : W) (ctx : BitVec 16) (gen : Byte) (first last mask : Nat) :
    (d.startReplay handle ctx gen first last mask).maps = d.maps := by simp [Dtu.startReplay]

@[simp] theorem Dtu.earn_maps (d : Dtu) (status : Nat) : (d.earn status).maps = d.maps := rfl

@[simp] theorem Dtu.ctxFrontWrite_maps (d : Dtu) (k : Nat) (w0 w1 front : W) : (d.ctxFrontWrite k w0 w1 front).maps = d.maps := by
  unfold Dtu.ctxFrontWrite
  dsimp only
  (repeat' split) <;> simp

@[simp] theorem Dtu.frameReset_maps (d : Dtu) : d.frameReset.maps = d.maps := rfl

@[simp] theorem Dtu.queueDigest_maps (d : Dtu) (b : PendingBlock) (cause : Nat) (leaves : List (Nat × Nat × Nat × Bool))
    (digest : Nat) (last : Bool) :
    (d.queueDigest b cause leaves digest last).maps = d.maps := by
  unfold Dtu.queueDigest
  dsimp only
  (repeat' split) <;> simp

@[simp] theorem Dtu.closePending_maps (d : Dtu) (b : PendingBlock) (cause : Nat) (last : Bool) :
    (d.closePending b cause last).maps = d.maps := by simp [Dtu.closePending]

@[simp] theorem Dtu.storePending_maps (d : Dtu) (b : PendingBlock) : (d.storePending b).maps = d.maps := by
  unfold Dtu.storePending
  dsimp only
  (repeat' split) <;> simp

@[simp] theorem Dtu.openPending_maps (d : Dtu) (chan frame : Nat) (h : LeafHeader) (v : Nat) :
    (d.openPending chan frame h v).maps = d.maps := by
  unfold Dtu.openPending
  split <;> simp

@[simp] theorem Dtu.leafDone_maps (d : Dtu) (chan frame : Nat) (h : LeafHeader) (v : Nat) :
    (d.leafDone chan frame h v).maps = d.maps := by
  unfold Dtu.leafDone
  dsimp only
  (repeat' split) <;> simp

@[simp] theorem Dtu.dropLeaf_maps (d : Dtu) (chan frame : Nat) : (d.dropLeaf chan frame).maps = d.maps := by
  unfold Dtu.dropLeaf
  split <;> simp

@[simp] theorem Dtu.obsDomainReset_maps (d : Dtu) (dom : Nat) (asserted : Bool) : (d.obsDomainReset dom asserted).maps = d.maps := by
  unfold Dtu.obsDomainReset
  (repeat' split) <;> simp

@[simp] theorem Dtu.digestBeat_maps (d : Dtu) (c : Nat) (valid : BitVec 16) (half : List (BitVec 16)) :
    (d.digestBeat c valid half).maps = d.maps := by
  unfold Dtu.digestBeat
  dsimp only
  (repeat' split) <;> simp [Dtu.maps_ite]

@[simp] theorem Dtu.digestTimeout_maps (d : Dtu) (slot version block : Nat) : (d.digestTimeout slot version block).maps = d.maps := by
  unfold Dtu.digestTimeout
  dsimp only
  (repeat' split) <;> simp

@[simp] theorem Dtu.startMargin_maps (d : Dtu) : d.startMargin.maps = d.maps := by
  unfold Dtu.startMargin
  dsimp only
  (repeat' split) <;> simp

@[simp] theorem Dtu.askMargin_maps (d : Dtu) (code : Nat) (handle : Option W) : (d.askMargin code handle).1.maps = d.maps := by
  unfold Dtu.askMargin
  dsimp only
  (repeat' split) <;> simp

@[simp] theorem Dtu.marginAck_maps (d : Dtu) (nak : Bool) : (d.marginAck nak).maps = d.maps := by
  unfold Dtu.marginAck
  extract_lets h
  split
  · rfl
  · split
    · rfl
    · extract_lets d1 d2
      have h2 : d2.maps = d.maps := by
        unfold d2
        split <;> rfl
      exact (Dtu.foldl_maps (fun x a => Dtu.finish_maps ..) _ _).trans h2

@[simp] theorem Dtu.marginRelease_maps (d : Dtu) : d.marginRelease.maps = d.maps := by simp [Dtu.marginRelease]

/-- The time reached is abstracted first: the kernel would compute with it. -/
@[simp] theorem Dtu.marginStall_maps (d : Dtu) : d.marginStall.maps = d.maps := by
  unfold Dtu.marginStall
  split
  · have hr := d.reach_maps (d.health.drivenAt + 2 ^ 20)
    generalize d.reach (d.health.drivenAt + 2 ^ 20) = x at hr ⊢
    revert x
    refine id fun x hr => ?_
    exact (Dtu.irq_maps ..).trans hr
  · rfl

@[simp] theorem Dtu.healthTick_maps (d : Dtu) (frame : Nat) : (d.healthTick frame).maps = d.maps := by
  unfold Dtu.healthTick
  dsimp only
  (repeat' split) <;> simp

@[simp] theorem Dtu.faultAccept_maps (d : Dtu) (m : BitVec 128) : (d.faultAccept m).maps = d.maps := by
  unfold Dtu.faultAccept
  (repeat' split) <;> simp

@[simp] theorem Dtu.faultDrop_maps (d : Dtu) : d.faultDrop.maps = d.maps := Dtu.irq_maps ..

@[simp] theorem Dtu.faultIntakeReset_maps (d : Dtu) : d.faultIntakeReset.maps = d.maps := rfl

@[simp] theorem Dtu.faultTick_maps (d : Dtu) : d.faultTick.maps = d.maps := by
  unfold Dtu.faultTick
  dsimp only
  (repeat' split) <;> simp

@[simp] theorem Dtu.sample_maps (d : Dtu) (free : Nat) (far : Bool) (offset : Int) :
    (d.sample free far offset).maps = d.maps := by simp [Dtu.sample]

@[simp] theorem Dtu.missSample_maps (d : Dtu) (n : Nat) : (d.missSample n).maps = d.maps := by
  unfold Dtu.missSample
  split <;> simp

@[simp] theorem Dtu.timeWord_maps (d : Dtu) (b0 b1 b2 b3 : W) : (d.timeWord b0 b1 b2 b3).maps = d.maps := by
  unfold Dtu.timeWord
  split <;> rfl

@[simp] theorem Dtu.refuseStepWord_maps (d : Dtu) (offset : Int) : (d.refuseStepWord offset).maps = d.maps := by
  unfold Dtu.refuseStepWord
  extract_lets first _ d1 _ d2 d3
  have h3 : d3.maps = d.maps := by
    unfold d3
    split
    · exact Dtu.timeEvents_maps ..
    · rfl
  exact (Dtu.missSample_maps ..).trans h3

@[simp] theorem Dtu.slotPulse_maps (d : Dtu) (free : Nat) : (d.slotPulse free).maps = d.maps := by
  unfold Dtu.slotPulse
  dsimp only
  (repeat' split) <;> simp

@[simp] theorem Dtu.learnStep_maps (d : Dtu) (b : List W) : (d.learnStep b).maps = d.maps := by
  unfold Dtu.learnStep
  dsimp only
  (repeat' split) <;> simp

@[simp] theorem Dtu.timeSync_maps (d : Dtu) (free : Nat) (f : Frame) (phase : BitVec 6) :
    (d.timeSync free f phase).maps = d.maps := by
  unfold Dtu.timeSync
  dsimp only
  (repeat' split) <;> simp

@[simp] theorem Dtu.timeClk_maps (d : Dtu) : d.timeClk.maps = d.maps := by
  unfold Dtu.timeClk
  dsimp only
  (repeat' split) <;> simp

@[simp] theorem Dtu.holdoverEntry_maps (d : Dtu) : d.holdoverEntry.maps = d.maps := by
  unfold Dtu.holdoverEntry
  split <;> simp

@[simp] theorem Dtu.slotEnds_maps (d : Dtu) : d.slotEnds.maps = d.maps := by
  unfold Dtu.slotEnds
  dsimp only
  (repeat' split) <;> simp

@[simp] theorem Dtu.applyStep_maps (d : Dtu) (a : ArmedStep) : (d.applyStep a).maps = d.maps := by
  unfold Dtu.applyStep
  dsimp only
  (repeat' split) <;> simp

@[simp] theorem Dtu.stepNow_maps (d : Dtu) : d.stepNow.maps = d.maps := by
  unfold Dtu.stepNow
  split <;> simp

@[simp] theorem Dtu.queueEcho_maps (d : Dtu) : d.queueEcho.maps = d.maps := by
  unfold Dtu.queueEcho
  split <;> simp

@[simp] theorem Dtu.triggerFire_maps (d : Dtu) (i : Nat) : (d.triggerFire i).maps = d.maps := by
  unfold Dtu.triggerFire
  dsimp only
  (repeat' split) <;> simp

@[simp] theorem Dtu.trigWrite_maps (d : Dtu) (i k : Nat) (w : W) : (d.trigWrite i k w).maps = d.maps := by
  unfold Dtu.trigWrite
  dsimp only
  (repeat' split) <;> simp

@[simp] theorem Dtu.thawNow_maps (d : Dtu) : d.thawNow.maps = d.maps := by
  unfold Dtu.thawNow
  split <;> rfl

@[simp] theorem Dtu.thawInstant_maps (d : Dtu) : d.thawInstant.maps = d.maps := by
  unfold Dtu.thawInstant
  (repeat' split) <;> simp

@[simp] theorem Dtu.captureEnd_maps (d : Dtu) : d.captureEnd.maps = d.maps := by
  unfold Dtu.captureEnd
  (repeat' split) <;> simp

@[simp] theorem Dtu.lullRecord_maps (d : Dtu) (left entered : Nat) :
    (d.lullRecord left entered).maps = d.maps := by simp [Dtu.lullRecord]

@[simp] theorem Dtu.clearLull2_maps (d : Dtu) : d.clearLull2.maps = d.maps :=
  (Dtu.linkReset_maps ..).trans (Dtu.count_maps ..)

@[simp] theorem Dtu.resumeTrace_maps (d : Dtu) : d.resumeTrace.maps = d.maps := by
  unfold Dtu.resumeTrace
  split <;> rfl

@[simp] theorem Dtu.lullExit_maps (d : Dtu) : d.lullExit.maps = d.maps := by
  unfold Dtu.lullExit
  dsimp only
  (repeat' split) <;> simp

@[simp] theorem Dtu.turnBands_maps (d : Dtu) : d.turnBands.maps = d.maps := rfl

@[simp] theorem Dtu.loopTick_maps (d : Dtu) (values : List (Nat × CellVal)) : (d.loopTick values).maps = d.maps := by
  unfold Dtu.loopTick
  (repeat' split) <;> simp

@[simp] theorem Dtu.resetsEnd_maps (d : Dtu) : d.resetsEnd.maps = d.maps := rfl

@[simp] theorem Dtu.stopSeen_maps (d : Dtu) : d.stopSeen.maps = d.maps := by
  unfold Dtu.stopSeen
  split <;> rfl

@[simp] theorem Dtu.pathEdge_maps (d : Dtu) : d.pathEdge.maps = d.maps := by
  unfold Dtu.pathEdge
  split <;> simp

@[simp] theorem Dtu.adoptRate_maps (d : Dtu) : d.adoptRate.maps = d.maps := by
  unfold Dtu.adoptRate
  dsimp only
  (repeat' split) <;> simp

@[simp] theorem Dtu.loopUplink_maps (d : Dtu) : d.loopUplink.maps = d.maps := by
  unfold Dtu.loopUplink
  (repeat' split) <;> simp

@[simp] theorem Dtu.hostRecord_maps (d : Dtu) (lo : W) : (d.hostRecord lo).maps = d.maps := rfl

@[simp] theorem Dtu.digEntryWrite_maps (d : Dtu) (a : Nat) (w : W) : (d.digEntryWrite a w).1.maps = d.maps := by
  unfold Dtu.digEntryWrite
  dsimp only
  (repeat' split) <;> simp

@[simp] theorem Dtu.ctxWordWrite_maps (d : Dtu) (a : Nat) (w : W) : (d.ctxWordWrite a w).1.maps = d.maps := by
  unfold Dtu.ctxWordWrite
  extract_lets k i c put
  refine Dtu.fst_ite_maps rfl (Dtu.fst_ite_maps rfl (Dtu.fst_ite_maps ?_ (Dtu.fst_ite_maps ?_ (Dtu.fst_ite_maps rfl ?_))))
  all_goals exact Dtu.fst_ite_maps rfl rfl

@[simp] theorem Dtu.frostAck_maps (d : Dtu) (frostId : W) (full : Bool) (msg : Nat) :
    (d.frostAck frostId full msg).maps = d.maps := by simp [Dtu.frostAck]

@[simp] theorem Dtu.armed_maps (d : Dtu) (frostId : W) (full : Bool) (t : Nat) : (d.armed frostId full t).maps = d.maps := rfl

@[simp] theorem Dtu.cancel_maps (d : Dtu) (f : Frame) : (d.cancel f).maps = d.maps := by
  unfold Dtu.cancel
  dsimp only
  (repeat' split) <;> simp

@[simp] theorem Dtu.thaw_maps (d : Dtu) (f : Frame) : (d.thaw f).maps = d.maps := by
  unfold Dtu.thaw
  dsimp only
  (repeat' split) <;> simp

@[simp] theorem Dtu.scanReq_maps (d : Dtu) (f : Frame) : (d.scanReq f).maps = d.maps := by
  unfold Dtu.scanReq
  dsimp only
  (repeat' split) <;> simp

@[simp] theorem Dtu.hailSend_maps (d : Dtu) : d.hailSend.maps = d.maps := by
  unfold Dtu.hailSend
  dsimp only
  (repeat' split) <;> simp

@[simp] theorem Dtu.param_maps (d : Dtu) (f : Frame) : (d.param f).maps = d.maps := by
  unfold Dtu.param
  dsimp only
  (repeat' split) <;> simp

@[simp] theorem Dtu.statusReply_maps (d : Dtu) (mask : Nat) (clear : Bool) : (d.statusReply mask clear).1.maps = d.maps := by
  unfold Dtu.statusReply
  (repeat' split) <;> simp

@[simp] theorem Dtu.regRead_maps (d : Dtu) (h : HuskCmd) : (d.regRead h).1.maps = d.maps := by
  unfold Dtu.regRead
  split <;> rfl

@[simp] theorem Dtu.cellSample_maps (d : Dtu) (free : Nat) (h : HuskCmd) : (d.cellSample free h).1.maps = d.maps := by
  unfold Dtu.cellSample
  dsimp only
  (repeat' split) <;> simp

@[simp] theorem Dtu.retainReplay_maps (d : Dtu) (h : HuskCmd) (handle : W) : (d.retainReplay h handle).1.maps = d.maps := by
  unfold Dtu.retainReplay
  extract_lets first last
  exact Dtu.fst_ite_maps rfl (Dtu.startReplay_maps ..)

@[simp] theorem Dtu.marginCmd_maps (d : Dtu) (h : HuskCmd) (handle : W) : (d.marginCmd h handle).1.maps = d.maps := by
  unfold Dtu.marginCmd
  dsimp only
  (repeat' split) <;> simp

@[simp] theorem Dtu.traceRestore_maps (d : Dtu) (handle : W) : (d.traceRestore handle).1.maps = d.maps := by
  unfold Dtu.traceRestore
  (repeat' split) <;> simp

@[simp] theorem Dtu.timeResync_maps (d : Dtu) : d.timeResync.1.maps = d.maps := by
  unfold Dtu.timeResync
  dsimp only
  (repeat' split) <;> simp

@[simp] theorem Dtu.loopTest_maps (d : Dtu) (h : HuskCmd) (handle : W) : (d.loopTest h handle).1.maps = d.maps := by
  unfold Dtu.loopTest
  dsimp only
  (repeat' split) <;> simp

@[simp] theorem Dtu.faultInject_maps (d : Dtu) (h : HuskCmd) : (d.faultInject h).1.maps = d.maps := by
  unfold Dtu.faultInject
  dsimp only
  (repeat' split) <;> simp

@[simp] theorem Dtu.sendReply_maps (d : Dtu) (dest : Mac) (w1 : W) (rec_ : List W) :
    (d.sendReply dest w1 rec_).maps = d.maps := by simp [Dtu.sendReply]

@[simp] theorem Dtu.replyNow_maps (d : Dtu) (op : Opcode) (h : HuskCmd) (ckind : Nat) (handle : W) (r : Result) (cache : Bool) :
    (d.replyNow op h ckind handle r cache).maps = d.maps := by
  unfold Dtu.replyNow
  split <;> simp

@[simp] theorem Dtu.postDone_maps (d : Dtu) (handle : W) : (d.postDone handle).maps = d.maps := by
  unfold Dtu.postDone
  split <;> simp

@[simp] theorem Dtu.loopEcho_maps (d : Dtu) : d.loopEcho.maps = d.maps := by
  unfold Dtu.loopEcho
  (repeat' split) <;> simp

@[simp] theorem Dtu.transmitNext_maps (d : Dtu) : d.transmitNext.maps = d.maps := by simp [Dtu.transmitNext]

end Sys2Proof.Machine
end

section
/-!
PROOFS. Every step keeps the canonical forms of the DTU: the rows that write its tag area or its registers.
-/
namespace Sys2Proof.Machine

/-! ### Writes of the tag area and the registers. -/

/-- What leaves the tag area and the register maps leaves them in canonical form. -/
theorem Dtu.canonical_of_maps {x d : Dtu} (h : x.maps = d.maps) (hd : d.canonical) : x.canonical := by
  simp only [Dtu.maps, Prod.mk.injEq] at h
  obtain ⟨htag, hcfg, hforce, htrc, hdig, hhealth⟩ := h
  unfold Dtu.canonical
  rwa [htag, hcfg, hforce, htrc, hdig, hhealth]

theorem Dtu.initial_canonical (b : Build) : (Dtu.initial b).canonical :=
  ⟨Memory.wf_nil 256, regWf_nil _, regWf_nil _, regWf_nil _, regWf_nil _, regWf_nil _⟩

/-- Other settings of the trace in canonical form. -/
theorem Dtu.withTrace_canonical {d : Dtu} {t : Trace} (ht : regWf trcReset t.cfg = true) (hd : d.canonical) :
    ({ d with trace := t } : Dtu).canonical := by
  obtain ⟨htag, hcfg, hforce, -, hdig, hhealth⟩ := hd
  exact ⟨htag, hcfg, hforce, ht, hdig, hhealth⟩

/-- Other settings of the health sensors in canonical form. -/
theorem Dtu.withHealth_canonical {d : Dtu} {h : Health} (hh : regWf healthReset h.cfg = true) (hd : d.canonical) :
    ({ d with health := h } : Dtu).canonical := by
  obtain ⟨htag, hcfg, hforce, htrc, hdig, -⟩ := hd
  exact ⟨htag, hcfg, hforce, htrc, hdig, hh⟩

theorem Dtu.trace_wf {d : Dtu} (hd : d.canonical) : regWf trcReset d.trace.cfg = true := by
  obtain ⟨-, -, -, htrc, -, -⟩ := hd
  exact htrc

theorem Dtu.health_wf {d : Dtu} (hd : d.canonical) : regWf healthReset d.health.cfg = true := by
  obtain ⟨-, -, -, -, -, hhealth⟩ := hd
  exact hhealth

theorem Dtu.tag_wf {d : Dtu} (hd : d.canonical) : Memory.wf 256 d.host.tag = true := hd.1

theorem Dtu.ite_canonical {c : Prop} [Decidable c] {x y : Dtu} (hx : x.canonical) (hy : y.canonical) :
    (if c then x else y).canonical := by
  split
  · exact hx
  · exact hy

/-- A choice between two results keeps what both keep. -/
theorem Dtu.fst_ite_canonical {α : Type} {c : Prop} [Decidable c] {x y : Dtu × α} (hx : c → x.1.canonical) (hy : ¬c → y.1.canonical) :
    (if c then x else y).1.canonical := by
  split
  next h => exact hx h
  next h => exact hy h

/-! ### Cells, health and the trace settings. -/

theorem Dtu.writeCell_canonical {d : Dtu} (n : Nat) (w : W) (hd : d.canonical) : (d.writeCell n w).canonical := by
  obtain ⟨htag, hcfg, hrest⟩ := hd
  exact ⟨htag, regSet_wf _ w hcfg, hrest⟩

theorem Dtu.cellCfgWrite_canonical {d : Dtu} (n : Nat) (w : W) (hd : d.canonical) : (d.cellCfgWrite n w).canonical := by
  unfold Dtu.cellCfgWrite
  exact Dtu.canonical_of_maps (Dtu.earn_maps ..) (Dtu.ite_canonical (Dtu.writeCell_canonical n w hd) hd)

theorem Dtu.writeClu_canonical {d : Dtu} (c : Nat) (w : W) (hd : d.canonical) : (d.writeClu c w).canonical := by
  obtain ⟨htag, hcfg, hrest⟩ := hd
  exact ⟨htag, regSet_wf _ _ hcfg, hrest⟩

theorem Dtu.clusterFence_canonical {d : Dtu} (c : Nat) (fenced : Bool) (hd : d.canonical) : (d.clusterFence c fenced).canonical := by
  unfold Dtu.clusterFence
  split
  · exact Dtu.canonical_of_maps (Dtu.earn_maps ..) hd
  · exact Dtu.canonical_of_maps (Dtu.earn_maps ..) (Dtu.writeClu_canonical c _ hd)

theorem Dtu.localMargin_canonical {d : Dtu} (code : Nat) (hd : d.canonical) : (d.localMargin code).canonical := by
  unfold Dtu.localMargin
  extract_lets w budget p h
  have hp : p.1.canonical := Dtu.canonical_of_maps (Dtu.askMargin_maps ..) hd
  split
  · exact hd
  · split
    · exact Dtu.canonical_of_maps (Dtu.count_maps ..)
        (Dtu.withHealth_canonical (d := p.1) (regSet_wf _ _ (Dtu.health_wf hp)) hp)
    · exact hp

theorem Dtu.raise_canonical {d : Dtu} (k : FaultKind) (op : FaultOp) (n : Nat) (hd : d.canonical) : (d.raise k op n).canonical :=
  Dtu.canonical_of_maps (Dtu.raise_maps ..) hd

theorem Dtu.healthSample_canonical {d : Dtu} (temp vcore vret : BitVec 16) (hd : d.canonical) :
    (d.healthSample temp vcore vret).canonical := by
  unfold Dtu.healthSample
  split
  · exact hd
  · extract_lets t v h ti crit before lv mc low run d1 d2 d3 d4
    have h1 : d1.canonical := hd
    clear_value d1
    have h2 : d2.canonical := Dtu.ite_canonical (Dtu.raise_canonical _ _ _ h1) h1
    clear_value d2
    have h3 : d3.canonical := Dtu.raise_canonical _ _ _ h2
    clear_value d3
    have h4 : d4.canonical := Dtu.ite_canonical (Dtu.ite_canonical (Dtu.localMargin_canonical 1 h3) h3) h2
    clear_value d4
    exact Dtu.ite_canonical (Dtu.localMargin_canonical 2 h4) h4

theorem Dtu.marginBudgetWrite_canonical {d : Dtu} (w : W) (hd : d.canonical) : (d.marginBudgetWrite w).canonical := by
  unfold Dtu.marginBudgetWrite
  exact Dtu.canonical_of_maps (Dtu.earn_maps ..)
    (Dtu.ite_canonical (Dtu.withHealth_canonical (regSet_wf _ w (Dtu.health_wf hd)) hd) hd)

/-! ### The trace path: enable may be cleared by what waits for a closure (R122 to R125). -/

theorem Trace.setEnable_wf {t : Trace} (on : Bool) (ht : regWf trcReset t.cfg = true) : regWf trcReset (t.setEnable on).cfg = true :=
  regSet_wf _ _ ht

theorem Trace.clear_wf {t : Trace} (keepCfg : Bool) (ht : regWf trcReset t.cfg = true) :
    regWf trcReset (t.clear keepCfg).cfg = true := by
  cases keepCfg
  · exact regWf_nil _
  · exact ht

theorem Dtu.actWait_canonical {p : Dtu × Bool} (w : TraceWait) (hd : p.1.canonical) : (Dtu.actWait p w).1.canonical := by
  obtain ⟨d, ended⟩ := p
  unfold Dtu.actWait
  dsimp only
  generalize hq : (if w.cause = 4 then _ else _ : Dtu × Bool) = p
  have hp : p.1.canonical := by
    rw [← hq]
    refine Dtu.fst_ite_canonical (fun _ => ?_) fun _ => Dtu.fst_ite_canonical (fun _ => ?_) fun _ => hd
    · exact Dtu.ite_canonical hd (Dtu.canonical_of_maps (Dtu.endStream_maps ..) hd)
    · have hs : d.saveImage.canonical := Dtu.canonical_of_maps (Dtu.saveImage_maps ..) hd
      exact Dtu.withTrace_canonical (Trace.setEnable_wf false (Dtu.trace_wf hs)) hs
  split
  · exact Dtu.canonical_of_maps (Dtu.finish_maps ..) hp
  · exact hp

theorem Dtu.closeNow_canonical {d : Dtu} (hd : d.canonical) : d.closeNow.canonical := by
  unfold Dtu.closeNow
  extract_lets t cs ws opened off full d1 d2 d3
  have h1 : d1.canonical := hd
  clear_value d1
  have h2 : d2.canonical := Dtu.ite_canonical (Dtu.canonical_of_maps (Dtu.closeBlock_maps ..) h1) h1
  clear_value d2
  have h3 : d3.canonical := Dtu.ite_canonical (Dtu.canonical_of_maps (Dtu.newStream_maps ..) h2) h2
  clear_value d3
  exact List.foldlRecOn (motive := fun p : Dtu × Bool => p.1.canonical) _ _ h3 fun p hp w _ => Dtu.actWait_canonical w hp

theorem Dtu.compress_canonical {d : Dtu} (hd : d.canonical) : d.compress.canonical := Dtu.canonical_of_maps d.compress_maps hd

theorem Dtu.settle_canonical (n : Nat) {d : Dtu} (hd : d.canonical) : (Dtu.settle n d).canonical := by
  induction n generalizing d with
  | zero => exact hd
  | succ n ih =>
    unfold Dtu.settle
    split
    · exact hd
    · extract_lets d1
      have h1 : d1.canonical := Dtu.ite_canonical (Dtu.compress_canonical hd) hd
      clear_value d1
      split
      · exact h1
      · exact ih (Dtu.closeNow_canonical h1)

theorem Dtu.actWaits_canonical {d : Dtu} (hd : d.canonical) : d.actWaits.canonical := Dtu.settle_canonical _ hd

theorem Dtu.askClose_canonical {d : Dtu} (cause : Nat) (handle : Option W) (hd : d.canonical) : (d.askClose cause handle).canonical :=
  Dtu.actWaits_canonical (d := { d with trace := _ }) hd

theorem Dtu.newStream_canonical {d : Dtu} (hd : d.canonical) :
    d.newStream.canonical := Dtu.canonical_of_maps (Dtu.newStream_maps _) hd

theorem Dtu.traceOn_canonical {d : Dtu} (hd : d.canonical) : d.traceOn.canonical := by
  unfold Dtu.traceOn
  have hadopt : regWf trcReset (d.trace.setEnable true).adopt.cfg = true := by
    rw [Trace.adopt_cfg]
    exact Trace.setEnable_wf true (Dtu.trace_wf hd)
  generalize (d.trace.setEnable true).adopt = a at hadopt
  extract_lets _ t t'
  have ht : regWf trcReset t.cfg = true := hadopt
  clear_value t
  have ht' : regWf trcReset t'.cfg = true := by
    unfold t'
    (repeat' split) <;> exact ht
  clear_value t'
  exact Dtu.ite_canonical (Dtu.withTrace_canonical ht hd) (Dtu.newStream_canonical (Dtu.withTrace_canonical ht' hd))

theorem Dtu.traceOff_canonical {d : Dtu} (hd : d.canonical) : d.traceOff.canonical :=
  Dtu.askClose_canonical 4 none (Dtu.withTrace_canonical (t := { d.trace.setEnable false with
    capturing := false, class0 := [], host := none, dueCells := [], dueTaps := [] }) (Trace.setEnable_wf false (Dtu.trace_wf hd)) hd)

theorem Dtu.auditTokens_canonical {d : Dtu} (hd : d.canonical) : d.auditTokens.canonical := by
  unfold Dtu.auditTokens
  extract_lets bad detail d1 d2
  have h1 : d1.canonical := List.foldlRecOn (motive := Dtu.canonical) _ _ hd fun x hx _ _ => Dtu.raise_canonical _ _ _ hx
  clear_value d1
  have h2 : d2.canonical := Dtu.withTrace_canonical (Trace.clear_wf true (Dtu.trace_wf h1)) h1
  clear_value d2
  exact Dtu.ite_canonical hd (Dtu.actWaits_canonical (Dtu.ite_canonical (Dtu.newStream_canonical h2) h2))

theorem Dtu.traceBlockClose_canonical {d : Dtu} (hd : d.canonical) : d.traceBlockClose.canonical :=
  Dtu.ite_canonical hd (Dtu.actWaits_canonical (Dtu.compress_canonical (Dtu.closeNow_canonical hd)))

theorem Dtu.compressorResume_canonical {d : Dtu} (hd : d.canonical) : d.compressorResume.canonical :=
  Dtu.ite_canonical (Dtu.actWaits_canonical (Dtu.compress_canonical
    (Dtu.canonical_of_maps (Dtu.count_maps { d with trace := { d.trace with fullStop := false, starved := false } } _ _) hd))) hd

theorem Dtu.trcWrite_canonical {d : Dtu} (a : Nat) (w : W) (hd : d.canonical) : (d.trcWrite a w).canonical := by
  have hset : ∀ v, ({ d with trace := { d.trace with cfg := regSet trcReset d.trace.cfg a v }.adopt } : Dtu).canonical := fun v =>
    Dtu.withTrace_canonical (by rw [Trace.adopt_cfg]; exact regSet_wf a v (Dtu.trace_wf hd)) hd
  unfold Dtu.trcWrite
  dsimp only
  split
  · exact Dtu.ite_canonical (Dtu.traceOn_canonical (hset _)) (Dtu.ite_canonical (Dtu.traceOff_canonical (hset _)) (hset _))
  · exact Dtu.ite_canonical hd (hset w)

/-! ### The command space (R382). -/

theorem Dtu.cmdWrite_canonical {d : Dtu} (a : Nat) (w : W) (hd : d.canonical) : (d.cmdWrite a w).1.canonical := by
  unfold Dtu.cmdWrite
  extract_lets keep earned c k
  have hkeep : ∀ {x : Dtu} {st : Nat}, x.canonical → (keep x st).1.canonical := fun hx =>
    Dtu.fst_ite_canonical (fun _ => hx) fun _ => hd
  have hearned : ∀ {x : Dtu}, x.canonical → (earned x).1.canonical := fun hx => hx
  clear_value keep earned
  refine Dtu.fst_ite_canonical (fun _ => hearned (Dtu.cellCfgWrite_canonical _ w hd)) fun _ => ?_
  refine Dtu.fst_ite_canonical (fun _ => hkeep (Dtu.writeClu_canonical _ w hd)) fun _ => ?_
  refine Dtu.fst_ite_canonical (fun _ => Dtu.canonical_of_maps (Dtu.ctxWordWrite_maps ..) hd) fun _ => ?_
  refine Dtu.fst_ite_canonical (fun _ => hd) fun _ => ?_
  refine Dtu.fst_ite_canonical (fun _ => hkeep (Dtu.trcWrite_canonical a w hd)) fun _ => ?_
  refine Dtu.fst_ite_canonical (fun _ => hd) fun _ => ?_
  refine Dtu.fst_ite_canonical (fun _ => hkeep (Dtu.trcWrite_canonical a w hd)) fun _ => ?_
  refine Dtu.fst_ite_canonical (fun _ => hkeep (Dtu.trcWrite_canonical a w hd)) fun _ => ?_
  refine Dtu.fst_ite_canonical (fun _ => hkeep (Dtu.withHealth_canonical (regSet_wf a w (Dtu.health_wf hd)) hd)) fun _ => ?_
  refine Dtu.fst_ite_canonical (fun _ => hkeep hd) fun _ => ?_
  refine Dtu.fst_ite_canonical (fun _ => hkeep hd) fun _ => ?_
  refine Dtu.fst_ite_canonical (fun _ => hd) fun _ => ?_
  refine Dtu.fst_ite_canonical (fun _ => ?trigger) fun _ => ?_
  case trigger =>
    exact Dtu.fst_ite_canonical (fun _ => hearned (Dtu.canonical_of_maps (Dtu.trigWrite_maps ..) hd)) fun _ =>
      Dtu.fst_ite_canonical (fun _ => hd) fun _ => hd
  refine Dtu.fst_ite_canonical (fun _ => hkeep hd) fun _ => ?_
  refine Dtu.fst_ite_canonical (fun _ => hkeep ?digest) fun _ => ?_
  case digest =>
    obtain ⟨htag, hcfg, hforce, htrc, hdig, hhealth⟩ := hd
    exact ⟨htag, hcfg, hforce, htrc, regSet_wf a w hdig, hhealth⟩
  refine Dtu.fst_ite_canonical (fun _ => hd) fun _ => ?_
  exact Dtu.canonical_of_maps (Dtu.digEntryWrite_maps ..) hd

theorem Dtu.cmdWrites_canonical {d : Dtu} (ws : List (Nat × Nat × W)) (hd : d.canonical) : (d.cmdWrites ws).1.canonical := by
  induction ws with
  | nil => exact hd
  | cons x ws ih => exact Dtu.fst_ite_canonical (fun _ => Dtu.cmdWrite_canonical _ _ ih) fun _ => ih

theorem Dtu.traceEnable_canonical {d : Dtu} (on : Bool) (hd : d.canonical) : (d.traceEnable on).canonical :=
  Dtu.canonical_of_maps (Dtu.earn_maps ..) (Dtu.cmdWrite_canonical 0x20000 (setFld (regGet trcReset d.trace.cfg 0x20000) 31 31 (b2n on)) hd)

theorem Dtu.ulRateWrite_canonical {d : Dtu} (w : W) (hd : d.canonical) : (d.ulRateWrite w).canonical :=
  Dtu.canonical_of_maps (Dtu.earn_maps ..) (Dtu.cmdWrite_canonical 0x20A00 w hd)

theorem Dtu.regWrite_canonical {d : Dtu} (h : HuskCmd) (hd : d.canonical) : (d.regWrite h).1.canonical := by
  unfold Dtu.regWrite
  split
  · exact hd
  · extract_lets as ws
    have hws := Dtu.cmdWrites_canonical ws hd
    split
    · exact Dtu.canonical_of_maps (Dtu.earn_maps ..) hd
    next d' heq =>
      rw [heq] at hws
      exact Dtu.canonical_of_maps (Dtu.earn_maps ..) hws

/-! ### The Host Port (R44, R76). -/

theorem Dtu.tagWrite_canonical {d : Dtu} {i : Nat} (w : W) (hi : i < 64) (hd : d.canonical) : (d.tagWrite i w).canonical := by
  obtain ⟨htag, hrest⟩ := hd
  unfold Dtu.tagWrite
  split
  · exact ⟨htag, hrest⟩
  · exact ⟨Memory.writeWord_wf w htag (by omega), hrest⟩

theorem Dtu.hostStore_canonical {d : Dtu} (a : Nat) (w : W) (hd : d.canonical) : (d.hostStore a w).1.canonical := by
  unfold Dtu.hostStore
  refine Dtu.fst_ite_canonical (fun _ => hd) fun _ => ?_
  refine Dtu.fst_ite_canonical (fun _ => Dtu.fst_ite_canonical (fun _ => hd) fun _ => hd) fun _ => ?_
  iterate 8 refine Dtu.fst_ite_canonical (fun _ => hd) fun _ => ?_
  refine Dtu.fst_ite_canonical (fun _ => Dtu.canonical_of_maps (Dtu.hostRecord_maps ..) hd) fun _ => ?_
  refine Dtu.fst_ite_canonical (fun ha => ?_) fun _ => hd
  exact Dtu.tagWrite_canonical w (by omega) hd

theorem Dtu.hostAccess_canonical {d : Dtu} (addr : Nat) (data : Option W) (hd : d.canonical) :
    (d.hostAccess addr data).canonical := by
  unfold Dtu.hostAccess
  extract_lets a answers p rdata
  have hp : p.1.canonical := by
    unfold p
    split
    · exact Dtu.fst_ite_canonical (fun _ => Dtu.hostStore_canonical a _ hd) fun _ => hd
    · exact hd
  clear_value p
  exact Dtu.ite_canonical hd hp

/-! ### Frost, Lull and the resets (R424, R462). -/

theorem Dtu.frostStop_canonical {d : Dtu} (smear : Bool) (hd : d.canonical) : (d.frostStop smear).canonical := by
  unfold Dtu.frostStop
  extract_lets running d1 snap _ d2 _ d3 d4 d5 d6
  have h1 : d1.canonical := Dtu.ite_canonical (Dtu.canonical_of_maps d.mergeFronts_maps hd) hd
  clear_value d1
  have h5 : d5.canonical := Dtu.canonical_of_maps ((Dtu.captureAll0_maps _).trans (Dtu.offer_maps ..)) h1
  clear_value d5
  have h6 : d6.canonical := Dtu.ite_canonical (Dtu.askClose_canonical 6 none h5) h5
  clear_value d6
  exact Dtu.ite_canonical (Dtu.canonical_of_maps (Dtu.irq_maps ..) h6) h1

theorem Dtu.reach_canonical {d : Dtu} (ns : Nat) (hd : d.canonical) :
    (d.reach ns).canonical := Dtu.canonical_of_maps (d.reach_maps ns) hd

theorem Dtu.frostStopAt_canonical {d : Dtu} (hd : d.canonical) : d.frostStopAt.canonical :=
  Dtu.ite_canonical (Dtu.frostStop_canonical false (Dtu.reach_canonical _ hd)) hd

theorem Dtu.clearLull3_canonical {d : Dtu} (hd : d.canonical) : d.clearLull3.canonical :=
  have ht := Dtu.tag_wf hd
  ⟨ht, regWf_nil _, regWf_nil _, regWf_nil _, regWf_nil _, regWf_nil _⟩

theorem Dtu.softReset_canonical {d : Dtu} (hd : d.canonical) : d.softReset.canonical :=
  have ht := Dtu.tag_wf hd
  ⟨ht, regWf_nil _, regWf_nil _, regWf_nil _, regWf_nil _, regWf_nil _⟩

theorem Dtu.pinReset_canonical {d : Dtu} (hd : d.canonical) : d.pinReset.canonical :=
  have ht := Dtu.tag_wf hd
  ⟨ht, regWf_nil _, regWf_nil _, regWf_nil _, regWf_nil _, regWf_nil _⟩

theorem Dtu.rstEdge_canonical {d : Dtu} (hd : d.canonical) : d.rstEdge.canonical := Dtu.ite_canonical hd (Dtu.pinReset_canonical hd)

theorem Dtu.porEdge_canonical {d : Dtu} (hd : d.canonical) : d.porEdge.canonical :=
  Dtu.ite_canonical hd ⟨Memory.wf_nil 256, regWf_nil _, regWf_nil _, regWf_nil _, regWf_nil _, regWf_nil _⟩

theorem Dtu.askLull_canonical {d : Dtu} (l k : Nat) (hd : d.canonical) : (d.askLull l k).canonical :=
  Dtu.ite_canonical hd (Dtu.askClose_canonical 5 none (Dtu.canonical_of_maps (Dtu.lullRecord_maps ..) hd))

theorem Dtu.enterLull_canonical {d : Dtu} (k : Nat) (hd : d.canonical) : (d.enterLull k).canonical := by
  unfold Dtu.enterLull
  extract_lets save d1 _ d2 _ d3
  have h2 : d2.canonical := Dtu.ite_canonical (Dtu.canonical_of_maps (Dtu.saveImage_maps d) hd) hd
  clear_value d2
  have h3 : d3.canonical := h2
  clear_value d3
  exact Dtu.ite_canonical (Dtu.canonical_of_maps d3.clearLull2_maps h3) (Dtu.ite_canonical (Dtu.clearLull3_canonical h3) h3)

theorem Dtu.tryLull_canonical {d : Dtu} (hd : d.canonical) : d.tryLull.canonical := by
  have ha := Dtu.askLull_canonical d.power.lull d.power.lullReq hd
  exact Dtu.ite_canonical hd (Dtu.ite_canonical ha (Dtu.enterLull_canonical _ ha))

/-! ### Ticks, edges and slot boundaries. -/

/-- The settings as written take force as the next frame begins (R83, R90). -/
theorem Dtu.startClosing_canonical {d : Dtu} (seen : BitVec 16) (hd : d.canonical) : (d.startClosing seen).canonical := by
  obtain ⟨htag, hcfg, -, hrest⟩ := hd
  exact ⟨htag, hcfg, hcfg, hrest⟩

theorem Dtu.coreTick_canonical {d : Dtu} (seen : BitVec 16) (hd : d.canonical) : (d.coreTick seen).canonical := by
  unfold Dtu.coreTick
  extract_lets ended _ d1 d2 d3 d4 d5 d6 _
  have h1 : d1.canonical := hd
  clear_value d1
  have h2 : d2.canonical := Dtu.canonical_of_maps (by simp [d2]) (Dtu.startClosing_canonical seen h1)
  clear_value d2
  have h3 : d3.canonical := h2
  clear_value d3
  have h4 : d4.canonical := Dtu.auditTokens_canonical h3
  clear_value d4
  have h5 : d5.canonical := Dtu.ite_canonical (Dtu.canonical_of_maps (Dtu.offer_maps ..) h4) h4
  clear_value d5
  exact Dtu.canonical_of_maps (x := d6) (by simp [d6]) h5

theorem Dtu.beginFrame_canonical {d : Dtu} (seen : BitVec 16) (hd : d.canonical) : (d.beginFrame seen).canonical := by
  unfold Dtu.beginFrame
  extract_lets d1 d2 d3 _ _ _
  have h1 : d1.canonical := Dtu.ite_canonical (Dtu.canonical_of_maps (Dtu.closeRest_maps ..) hd) hd
  clear_value d1
  have h2 : d2.canonical := h1
  clear_value d2
  exact Dtu.ite_canonical (Dtu.coreTick_canonical seen h2) h2

theorem Dtu.tick_canonical {d : Dtu} (seen : BitVec 16) (hd : d.canonical) : (d.tick seen).canonical := by
  unfold Dtu.tick
  split
  · exact hd
  · split
    · exact Dtu.beginFrame_canonical seen hd
    next a _ =>
      have ha := Dtu.canonical_of_maps (d.applyStep_maps a) hd
      exact Dtu.ite_canonical ha (Dtu.beginFrame_canonical seen ha)

theorem Dtu.edge_canonical {d : Dtu} (hd : d.canonical) : d.edge.canonical := by
  unfold Dtu.edge
  extract_lets d1 _ d2 seen _ d3 d4
  have h2 : d2.canonical := Dtu.canonical_of_maps (x := d1) d.resetsEnd_maps hd
  clear_value d2
  have h3 : d3.canonical := h2
  clear_value d3
  have h4 : d4.canonical := Dtu.ite_canonical (Dtu.canonical_of_maps d3.returnCredit_maps h3) h3
  clear_value d4
  refine Dtu.ite_canonical hd (Dtu.ite_canonical (Dtu.tryLull_canonical ?_) (Dtu.tryLull_canonical h2))
  exact Dtu.canonical_of_maps (by simp) h4

theorem Dtu.slotBoundary_canonical {d : Dtu} (hd : d.canonical) : d.slotBoundary.canonical := by
  unfold Dtu.slotBoundary
  extract_lets next d1 d2 _ _ d3 d4 _ d5 _ d6 d7
  have h1 : d1.canonical := Dtu.ite_canonical (Dtu.reach_canonical _ hd) hd
  clear_value d1
  have h2 : d2.canonical := Dtu.canonical_of_maps d1.slotEnds_maps h1
  clear_value d2
  have h3 : d3.canonical := h2
  clear_value d3
  have h4 : d4.canonical := Dtu.canonical_of_maps d3.adoptRate_maps h3
  clear_value d4
  have h5 : d5.canonical := Dtu.ite_canonical (Dtu.canonical_of_maps (Dtu.helloSend_maps _) h4) h4
  clear_value d5
  have h6 : d6.canonical := Dtu.ite_canonical h5 h5
  clear_value d6
  have h7 : d7.canonical := Dtu.canonical_of_maps d6.loopUplink_maps h6
  clear_value d7
  exact Dtu.ite_canonical (Dtu.tryLull_canonical (Dtu.softReset_canonical h7)) (Dtu.tryLull_canonical h7)

/-! ### Frost messages and Husks (R371 to R377, R437). -/

theorem Dtu.receive_canonical {d : Dtu} (f : Frame) (hd : d.canonical) : (d.receive f).1.canonical :=
  Dtu.canonical_of_maps (d.receive_maps f) hd

theorem Dtu.frostAck_canonical {d : Dtu} (id : W) (full : Bool) (msg : Nat) (hd : d.canonical) : (d.frostAck id full msg).canonical :=
  Dtu.canonical_of_maps (Dtu.frostAck_maps ..) hd

theorem Dtu.armed_canonical {d : Dtu} (id : W) (full : Bool) (t : Nat) (hd : d.canonical) : (d.armed id full t).canonical :=
  Dtu.canonical_of_maps (Dtu.armed_maps ..) hd

theorem Dtu.arm_canonical {d : Dtu} (f : Frame) (hd : d.canonical) : (d.arm f).canonical := by
  have hp := Dtu.receive_canonical f hd
  unfold Dtu.arm
  extract_lets p d1 id full t d2 _ d3
  have h2 : d2.canonical := Dtu.armed_canonical _ _ _ hp
  have h3 : d3.canonical := Dtu.ite_canonical (Dtu.frostStop_canonical false h2) h2
  exact Dtu.ite_canonical hp (Dtu.ite_canonical (Dtu.frostAck_canonical _ _ _ h3)
    (Dtu.ite_canonical (Dtu.frostAck_canonical _ _ _ hp) hp))

theorem Dtu.stopNow_canonical {d : Dtu} (f : Frame) (hd : d.canonical) : (d.stopNow f).canonical := by
  have hp := Dtu.receive_canonical f hd
  unfold Dtu.stopNow
  extract_lets p d1 id full _ d2
  have h2 : d2.canonical := hp
  exact Dtu.ite_canonical hp (Dtu.ite_canonical (Dtu.frostAck_canonical _ _ _ hp) (Dtu.ite_canonical (Dtu.frostAck_canonical _ _ _ h2)
    (Dtu.frostAck_canonical _ _ _ (Dtu.frostStop_canonical true (Dtu.armed_canonical _ _ _ h2)))))

theorem Dtu.runOp_canonical {d : Dtu} (free : Nat) (op : Opcode) (h : HuskCmd) (handle : W) (hd : d.canonical) :
    (d.runOp free op h handle).1.canonical := by
  unfold Dtu.runOp
  split
  · exact hd
  · exact Dtu.canonical_of_maps (Dtu.statusReply_maps ..) hd
  · exact Dtu.canonical_of_maps (Dtu.regRead_maps ..) hd
  · exact Dtu.regWrite_canonical h hd
  · exact hd
  · exact Dtu.canonical_of_maps (Dtu.frameReset_maps ..) hd
  · exact Dtu.canonical_of_maps (Dtu.cellSample_maps ..) hd
  · exact hd
  · exact Dtu.canonical_of_maps (Dtu.retainReplay_maps ..) hd
  · exact Dtu.canonical_of_maps (Dtu.marginCmd_maps ..) hd
  · exact Dtu.askClose_canonical _ _ hd
  · exact Dtu.askClose_canonical _ _ hd
  · exact Dtu.canonical_of_maps (Dtu.traceRestore_maps ..) hd
  · exact Dtu.canonical_of_maps (Dtu.timeResync_maps ..) hd
  · exact hd
  · exact Dtu.canonical_of_maps (Dtu.loopTest_maps ..) hd
  · exact Dtu.canonical_of_maps (Dtu.faultInject_maps ..) hd
  · exact hd

theorem Dtu.replyNow_canonical {d : Dtu} (op : Opcode) (h : HuskCmd) (ckind : Nat) (handle : W) (r : Result) (cache : Bool)
    (hd : d.canonical) : (d.replyNow op h ckind handle r cache).canonical := Dtu.canonical_of_maps (Dtu.replyNow_maps ..) hd

theorem Dtu.huskRun_canonical {d : Dtu} (free : Nat) (op : Opcode) (h : HuskCmd) (hd : d.canonical) :
    (d.huskRun free op h).canonical := by
  unfold Dtu.huskRun
  split
  · exact Dtu.replyNow_canonical _ _ _ _ _ _ hd
  · split
    · split
      · exact Dtu.replyNow_canonical _ _ _ _ _ _ hd
      · extract_lets handle ref before mine _ d1
        have hrun := Dtu.runOp_canonical (d := d1) free op h handle hd
        split
        next d' r heq =>
          rw [heq] at hrun
          exact Dtu.replyNow_canonical _ _ _ _ _ _ hrun
        next d' heq =>
          rw [heq] at hrun
          exact Dtu.replyNow_canonical _ _ _ _ _ _ hrun
    · extract_lets p d1
      have h1 : d1.canonical := Dtu.replyNow_canonical _ _ _ _ _ _ (Dtu.runOp_canonical free op h 0 hd)
      clear_value d1
      exact Dtu.ite_canonical (Dtu.canonical_of_maps (Dtu.sendLinkReset_maps ..) h1) h1

theorem Dtu.husk_canonical {d : Dtu} (free : Nat) (op : Opcode) (h : HuskCmd) (hd : d.canonical) : (d.husk free op h).canonical := by
  unfold Dtu.husk
  extract_lets f p d1
  have h1 : d1.canonical := Dtu.receive_canonical f hd
  clear_value d1
  refine Dtu.ite_canonical (Dtu.receive_canonical f hd) ?_
  refine Dtu.ite_canonical (Dtu.canonical_of_maps (Dtu.count_maps ..) h1) ?_
  refine Dtu.ite_canonical (Dtu.canonical_of_maps (Dtu.count_maps ..) h1) ?_
  split
  · exact Dtu.replyNow_canonical _ _ _ _ _ _ h1
  · split
    · exact Dtu.canonical_of_maps (Dtu.sendReply_maps ..) h1
    · exact Dtu.replyNow_canonical _ _ _ _ _ _ h1
    · exact Dtu.huskRun_canonical _ _ _ h1

end Sys2Proof.Machine
end

section
/-!
PROOFS. Every step keeps the canonical forms of all memories and register maps: the rows, and the obligation.
-/
namespace Sys2Proof.Machine

/-! ### What keeps the canonical form of the state. -/

/-- The state that an answer names is in canonical form. -/
theorem State.canonical_of_next {x t : State} (h : (Host.Outcome.next x : Answer) = .next t) (hx : x.canonical) : t.canonical :=
  Host.Outcome.next.inj h ▸ hx

theorem State.onDtu_canonical {s : State} {f : Dtu → Dtu} (hs : s.canonical) (hf : s.dtu.canonical → (f s.dtu).canonical) :
    (s.onDtu f).canonical := ⟨hf hs.1, hs.2⟩

theorem State.onZa_canonical {s : State} {f : Za → Za} (hs : s.canonical) (hf : s.za.canonical → (f s.za).canonical) :
    (s.onZa f).canonical := ⟨hs.1, hf hs.2⟩

/-- A row of the DTU that writes neither its tag area nor its registers. -/
theorem State.onDtu_of_maps {s : State} {f : Dtu → Dtu} (hs : s.canonical) (hf : (f s.dtu).maps = s.dtu.maps) :
    (s.onDtu f).canonical := State.onDtu_canonical hs (Dtu.canonical_of_maps hf)

/-- A row of the ZA40 that writes neither its tag area nor its registers. -/
theorem State.onZa_of_maps {s : State} {f : Za → Za} (hs : s.canonical) (hf : (f s.za).SameMaps s.za) : (s.onZa f).canonical :=
  State.onZa_canonical hs (Za.SameMaps.canonical hf)

theorem State.onSide_canonical {s : State} {side : Side} {f : Dtu → Dtu} {g : Za → Za} (hs : s.canonical)
    (hf : s.dtu.canonical → (f s.dtu).canonical) (hg : (g s.za).SameMaps s.za) : (s.onSide side f g).canonical := by
  cases side with
  | dtu => exact State.onDtu_canonical hs hf
  | za => exact State.onZa_of_maps hs hg

theorem State.draw_canonical {s : State} (hs : s.canonical) : s.draw.canonical := hs

theorem Za.ite_sameMaps {c : Prop} [Decidable c] {x y z : Za} (hx : x.tag = z.tag ∧ x.regs = z.regs)
    (hy : y.tag = z.tag ∧ y.regs = z.regs) : (if c then x else y).SameMaps z := by
  split
  · exact hx
  · exact hy

theorem Za.ite_canonical {c : Prop} [Decidable c] {x y : Za} (hx : x.canonical) (hy : y.canonical) :
    (if c then x else y).canonical := by
  split
  · exact hx
  · exact hy

theorem State.ite_canonical {c : Prop} [Decidable c] {x y : State} (hx : x.canonical) (hy : y.canonical) :
    (if c then x else y).canonical := by
  split
  · exact hx
  · exact hy

theorem State.husk_canonical {s : State} (hs : s.canonical) (op : Opcode) (h : HuskCmd) : (s.husk op h).canonical := by
  obtain ⟨hd, hz⟩ := hs
  cases hside : h.side with
  | dtu =>
    rw [State.husk_dtu s op h hside]
    exact ⟨Dtu.husk_canonical _ op h hd, hz⟩
  | za =>
    rw [State.husk_za s op h hside]
    exact ⟨hd, Za.husk_canonical _ _ op h hz⟩

theorem State.idle_canonical {s : State} (hs : s.canonical) : s.idle.canonical :=
  ⟨Dtu.edge_canonical hs.1, Za.SameMaps.canonical s.za.edge_maps hs.2⟩

theorem State.ctxMaskWrite_canonical {s : State} (hs : s.canonical) (c mask : Nat) : (s.ctxMaskWrite c mask).canonical := by
  unfold State.ctxMaskWrite
  extract_lets die w p s'
  split
  · exact State.onZa_of_maps hs (by simp [Za.SameMaps])
  · have hs' : s'.canonical :=
      State.onDtu_canonical hs fun hd => Dtu.canonical_of_maps (Dtu.earn_maps ..) (Dtu.cmdWrite_canonical _ w hd)
    exact State.ite_canonical (State.onZa_of_maps hs' (by simp [Za.SameMaps])) hs'

/-! ### The rows. -/

/-- A slot boundary of a DTU that has its power. -/
theorem Dtu.slotRow_canonical {d : Dtu} (hd : d.canonical) : (if d.power.por then d else d.slotBoundary).canonical :=
  Dtu.ite_canonical hd (Dtu.slotBoundary_canonical hd)

theorem Dtu.lullRequest_canonical {d : Dtu} (x : PowerPins) (hd : d.canonical) : (d.lullRequest x).canonical :=
  Dtu.tryLull_canonical (d := { d with power := d.power.pins x }) hd

theorem Dtu.hostWrite_canonical {d : Dtu} (a : Nat) (w : W) (hd : d.canonical) : (d.hostWrite a w).canonical :=
  Dtu.hostAccess_canonical a (some w) hd

/-- Whatever the command is, it keeps the canonical forms. -/
theorem exec_canonical {c : Instr} {s t : State} (hs : s.canonical) (ht : exec c s = .next t) : t.canonical := by
  cases c with
  | ident | status | handleQuery | handleCancel | regRead | regWrite | tagWrite | softReset | frameReset | cellSample |
    linkResetCmd | retainReplay | margin | traceFlush | traceSave | traceRestore | timeResync | timeStep | ctxAdmit |
    ctxTeardown | ctxQuota | membership | podPlan | featPlan | detPlan | detReset | syncAlloc | syncFree | syncSet | syncAdd
    | syncWait | syncBind | syncRead | modelLoad | modelQuery | featWrite | weightSwap | digestLoad | resultHistory |
    subscribe | seedPair | frostArm | frostCancel | frostNow | frostThaw | frostQuery | scanOut | loopTest | selfTest |
    faultInject | fence | unfence | readmit | liveClaim | liveQuery | rackSet | ckptPut | ckptGet | rebuild | faultLog |
    lullHold | lullRelease | zaLull | zaWake | zaReset | pwrLimit =>
    exact State.canonical_of_next ht (State.husk_canonical hs _ _)
  | dtuCtxFrontWrite | trigArm | ulPathReset | faultIntakeReset | obsDomainReset | lullExit | marginAck |
    marginAckRelease | marginStall | faultPortAccept | faultDropPulse | probeEvent | tapSample | digestBeat |
    digestPendingTimeout | digestPacketSend | obsClkLost | timeClkTolerance | timePortWord | triggerFire | clusterClose |
    closureLimit | contribExpiry | faultRecordSend | traceCapture | compressorFullStop | traceBlockSend | ulCreditReturn |
    ulCreditMinTimeout | ulRxPacket | helloSend | admitMsg | param | cancel | thaw | scanReq =>
    exact State.canonical_of_next ht (State.onDtu_of_maps hs (by simp))
  | timePortSlotPulse | timeSync =>
    exact State.canonical_of_next ht (State.draw_canonical (State.onDtu_of_maps hs (by simp)))
  | relayedCompletion | targetTimeout | dtuLongQueueRelease | featPlanStagingExpiry | parentChange | timeSyncSend | timeEcho
    | timeMark | dtuLinkStateChange | contrib | trayDeadline | fabricNodeDeadline | reorderSkipExpiry | podSlotGrant |
    podRerun | paramSend | zaTick | featureRow | ensembleItem | checkArbitration | scoringComplete | programBatch |
    detectorRun | bandDerive | seedUpdateSend | seedResync | seedbankLost | fetchSourceTimeout | modelVerify | modelPlaced |
    replicaCollectTimeout | hail | rmFailover | checkpoint | ckptIncomplete | rebuildPartnerStall | rebuildReplay |
    rebuildLive | fenceNotice | memError | scrubRead | ack | scanData | frostRepeat | loadReq | loadData | bootSourceTimeout
    | bootRoundWait | thermalThrottle | bulkFrame | linkLost | zaSlotBoundary | ptpSyncInterval | announceReceiptTimeout |
    hailEvaluate =>
    exact State.canonical_of_next ht (State.onZa_of_maps hs (by simp [Za.SameMaps]))
  | ptpMessage =>
    exact State.canonical_of_next ht (State.draw_canonical (State.onZa_of_maps hs (by simp [Za.SameMaps])))
  | timeHoldoverEntry | stepApply | hello | credit | creditSend | echo  | linkReset | frameTransmit | hailSend |
    thawInstant | captureWindowEnd =>
    exact State.canonical_of_next ht (State.onSide_canonical hs (Dtu.canonical_of_maps (by simp)) (by simp [Za.SameMaps]))
  | echoReply =>
    exact State.canonical_of_next ht (State.onSide_canonical hs (Dtu.canonical_of_maps (by simp)) (Za.ite_sameMaps (by simp) (by simp)))
  | frostStop =>
    exact State.canonical_of_next ht (State.onSide_canonical hs Dtu.frostStopAt_canonical (by simp [Za.SameMaps]))
  | now side link frame =>
    exact State.canonical_of_next ht (State.onSide_canonical hs (Dtu.stopNow_canonical frame) (by simp [Za.SameMaps]))
  | hostPortWrite addr data => exact State.canonical_of_next ht (State.onDtu_canonical hs (Dtu.hostAccess_canonical _ data))
  | tagAreaWrite | dtuTagSeal | dtuTrcHostLo | irqStatusClear | timeSrcSelect | compat5Select | ulLatWrite =>
    exact State.canonical_of_next ht (State.onDtu_canonical hs (Dtu.hostWrite_canonical _ _))
  | cellCfgWrite => exact State.canonical_of_next ht (State.onDtu_canonical hs (Dtu.cellCfgWrite_canonical _ _))
  | clusterFenceWrite => exact State.canonical_of_next ht (State.onDtu_canonical hs (Dtu.clusterFence_canonical _ _))
  | traceEnable on => exact State.canonical_of_next ht (State.onDtu_canonical hs (Dtu.traceEnable_canonical on))
  | marginBudgetWrite data => exact State.canonical_of_next ht (State.onDtu_canonical hs (Dtu.marginBudgetWrite_canonical data))
  | ulRateWrite data => exact State.canonical_of_next ht (State.onDtu_canonical hs (Dtu.ulRateWrite_canonical data))
  | hostPowerOnReset => exact State.canonical_of_next ht (State.onDtu_canonical hs Dtu.porEdge_canonical)
  | lullRequest target => exact State.canonical_of_next ht (State.onDtu_canonical hs (Dtu.lullRequest_canonical target))
  | pinReset => exact State.canonical_of_next ht (State.onDtu_canonical hs Dtu.rstEdge_canonical)
  | dtuTick seen => exact State.canonical_of_next ht (State.onDtu_canonical hs (Dtu.tick_canonical seen))
  | slotBoundary => exact State.canonical_of_next ht (State.onDtu_canonical hs Dtu.slotRow_canonical)
  | healthSample temp vcore vret => exact State.canonical_of_next ht (State.onDtu_canonical hs (Dtu.healthSample_canonical temp vcore vret))
  | traceBlockClose => exact State.canonical_of_next ht (State.onDtu_canonical hs Dtu.traceBlockClose_canonical)
  | compressorResume => exact State.canonical_of_next ht (State.onDtu_canonical hs Dtu.compressorResume_canonical)
  | arm frame => exact State.canonical_of_next ht (State.onDtu_canonical hs (Dtu.arm_canonical frame))
  | markArm | gclCommit | shaperChange | portConfigWrite =>
    exact State.canonical_of_next ht (State.onZa_canonical hs (Za.rowWrite_canonical _ (by omega)))
  | partialResult | finalResult =>
    exact State.canonical_of_next ht (State.onZa_of_maps hs (Za.SameMaps.trans (Za.redFrame_maps _ _ _ _ (by simp)) (by simp [Za.SameMaps])))
  | seedDelta | seedCommit | seedAck | seedNack | restoreReq | restoreData =>
    exact State.canonical_of_next ht (State.onZa_of_maps hs (Za.seedFrame_maps _ _ (by simp)))
  | replicaReport | replicaVerdict => exact State.canonical_of_next ht (State.onZa_of_maps hs (Za.replicaFrame_maps _ _ (by simp)))
  | fetchReq => exact State.canonical_of_next ht (State.onZa_of_maps hs (Za.fetchRow_maps _ _ _ _ (by simp)))
  | fetchOffer | fetchChunk =>
    exact State.canonical_of_next ht (State.onZa_of_maps hs (Za.fetchRow_maps _ _ _ _ fun z => Za.fetchSplit_maps z _ _ (by simp) (by simp)))
  | fetchDecline link frame =>
    refine State.canonical_of_next ht (State.onZa_of_maps hs (Za.fetchRow_maps _ _ _ _ fun z => Za.fetchSplit_maps z _ _ (by simp) fun z => ?_))
    split <;> simp
  | powerLoss cause rail vin => exact State.canonical_of_next ht (State.onZa_canonical hs (Za.powerLoss_canonical cause _ vin))
  | thermalTrip temp vin => exact State.canonical_of_next ht (State.onZa_canonical hs (Za.thermalTrip_canonical _ vin))
  | svcPinReset low => exact State.canonical_of_next ht (State.onZa_canonical hs (Za.svcPin_canonical low))
  | watchdogExpiry => exact State.canonical_of_next ht (State.onZa_canonical hs Za.warm_canonical)
  | warmReset => exact State.canonical_of_next ht (State.onZa_canonical hs fun hz => Za.ite_canonical (Za.warm_canonical hz) hz)
  | imageVerify => exact State.canonical_of_next ht (State.onZa_canonical hs Za.imageVerify_canonical)
  | powerUp vin strap =>
    exact State.canonical_of_next ht (State.onZa_canonical hs fun hz => Za.ite_canonical (Za.powerOn_canonical vin strap hz) hz)
  | thermalTripRestart temp tenths vin =>
    exact State.canonical_of_next ht (State.onZa_canonical hs fun hz => Za.ite_canonical (Za.powerOn_canonical vin _ hz) hz)
  | inputWarn => exact State.canonical_of_next ht (State.onZa_canonical hs fun hz => Za.ite_canonical hz hz)
  | chainRelease handle =>
    exact State.canonical_of_next ht (State.draw_canonical (State.onZa_canonical hs (Za.chainRelease_canonical _ _ handle)))
  | keomonFrame bytes => exact State.canonical_of_next ht (State.draw_canonical (State.onZa_canonical hs (Za.keomonFrame_canonical _ _ bytes)))
  | doneHandle handle =>
    exact State.canonical_of_next ht
      (State.ite_canonical (State.onDtu_of_maps hs (by simp)) (State.onZa_canonical hs (Za.doneHandle_canonical handle)))
  | eccStatusRead | faultRaise | forwardFillChange =>
    exact State.canonical_of_next ht (State.ite_canonical (State.onZa_of_maps hs (by simp [Za.SameMaps])) hs)
  | ctxMaskWrite => exact State.canonical_of_next ht (State.ctxMaskWrite_canonical hs _ _)

/-- Settles O60: each row writes its maps through `regSet`, `Memory.writeWord` or a clear, and every other row leaves them. -/
theorem everyStepKeepsTheCanonicalForms : Obligations.EveryStepKeepsTheCanonicalForms := by
  intro s t hs ht
  unfold step at ht
  split at ht
  · exact State.canonical_of_next ht (State.idle_canonical hs)
  next c rest _ => exact exec_canonical (s := { s with pending := rest }) hs ht

/-- Settles O59: everything is listed as `State.reset` builds it. -/
theorem resetIsCanonical : Obligations.ResetIsCanonical := by
  refine ⟨⟨Dtu.initial_canonical _, Za.initial_canonical⟩, rfl, rfl, fun a => rfl, rfl, rfl, fun a => rfl⟩

end Sys2Proof.Machine
end
